-- ==== Sys2Proof/Word.lean ====
section
/-! DEFINITION. The plain words of the Oaras model: bytes, and the finite maps that hold the tables of the device. -/

namespace Sys2Proof

/-- A byte of a packet, a result or a memory (R11). -/
abbrev Byte := BitVec 8

/-- A table of the device keyed by an index (R13: indices start at 0), in one canonical form: keys strictly rising,
and no entry equal to the table's default. `Machine.fget` and `Machine.fset` read and write it. -/
abbrev Tbl (α : Type) := List (Nat × α)

/-- A time or a duration in ticks of the 270 MHz count (R48, R49). -/
abbrev Tick := Nat

end Sys2Proof
end

