-- ==== Sys2Proof/Syntax.lean ====
section
/-! DEFINITION. The commands of the Oaras: one constructor of `Instr` per row of the opcode table, with the operands
that the spec's layouts give (chapter 13 for packets, Table 12.3 and Table 18.1 for registers, the owning chapter for an
event). A layout's reserved bits and fields are gathered in one field `rsvd`, which is 0 exactly when all of them are. -/

namespace Sys2Proof

/-- The descriptor that replaces the parameters of a packet with INDIRECT (R335): HOST_ADDR, or an offset in the SRAM on queue 8 (R478), and
BYTES. -/
structure Indirect where
  addr : Nat := 0
  bytes : Nat := 4
  rsvd : Nat := 0
  deriving DecidableEq, Repr

/-- Command header as it travels (Tables 12.10 and 12.11). `mac` is the 16-byte MAC that ends the packet, as a number with its first byte
lowest, and `indirect` the descriptor of INDIRECT. -/
structure Hdr where
  queue : Nat := 0
  version : Nat := 1
  seq : Nat := 1
  length : Nat := 6
  tag : Nat := 0
  indirect : Option Indirect := none
  earlyAck : Bool := false
  mac : Option Nat := none
  reject : Bool := false
  sched : Bool := false
  line : Nat := 0
  frame : Nat := 0
  raster : Nat := 0
  rsvd : Nat := 0
  deriving DecidableEq, Repr

/-- Result descriptor (R350). -/
structure Res where
  addr : Nat := 0
  bytes : Nat := 0
  rsvd : Nat := 0
  deriving DecidableEq, Repr

/-- Parameters of a command that carries a result descriptor alone. -/
structure ResP where
  res : Res
  deriving DecidableEq, Repr

structure SysModeP where
  mode : Nat
  rsvd : Nat := 0
  deriving DecidableEq, Repr

/-- One wait entry of BARRIER (Table 12.15). -/
structure BarrierWait where
  queue : Nat
  seq : Nat
  deriving DecidableEq, Repr

structure BarrierP where
  applied : Bool := false
  fenceWait : Bool := false
  timeout : Nat := 0
  fence : Nat := 0
  fenceValue : Nat := 0
  waits : List BarrierWait := []
  rsvd : Nat := 0
  deriving DecidableEq, Repr

structure SysRestartP where
  kind : Nat
  rsvd : Nat := 0
  deriving DecidableEq, Repr

structure SysWakeSetP where
  enables : Nat
  timer : Nat
  rsvd : Nat := 0
  deriving DecidableEq, Repr

structure SysFaultReadP where
  res : Res
  clear : Bool := false
  rsvd : Nat := 0
  deriving DecidableEq, Repr

/-- Raster descriptor (Table 2.1). -/
structure RasterDesc where
  totalLines : Nat := 1125
  totalSamples : Nat := 2200
  rateNum : Nat := 60000
  rateDen : Nat := 1001
  scan : Nat := 0
  field2Line : Nat := 0
  activeLine1 : Nat := 42
  activeLines : Nat := 1080
  activeLine2 : Nat := 0
  activeSample0 : Nat := 0
  activeSamples : Nat := 1920
  house : Nat := 0
  ratio : Nat := 0
  phaseLines : Nat := 0
  phaseSamples : Nat := 0
  rsvd : Nat := 0
  deriving DecidableEq, Repr

structure RasterSetP where
  raster : Nat
  desc : RasterDesc
  rsvd : Nat := 0
  deriving DecidableEq, Repr

structure RasterQueryP where
  res : Res
  raster : Nat
  house : Nat := 0
  predLine : Nat := 0
  predFrame : Nat := 0
  rsvd : Nat := 0
  deriving DecidableEq, Repr

structure StcSetP where
  op : Nat
  value : Nat
  rsvd : Nat := 0
  deriving DecidableEq, Repr

structure SchedCancelP where
  queue : Nat
  seq : Nat
  rsvd : Nat := 0
  deriving DecidableEq, Repr

/-- BUNDLE_SET (Table 13.4). -/
structure BundleSetP where
  bundle : Nat
  dir : Nat
  rate : Nat := 0
  laneMask : Nat := 255
  enable : Bool := true
  trainAuto : Bool := true
  adapt : Bool := true
  swing : Nat := 0
  expectBase : Nat := 0
  spread : Nat := 0
  rsvd : Nat := 0
  deriving DecidableEq, Repr

structure BundleStatusP where
  res : Res
  bundle : Nat
  extended : Bool := false
  rsvd : Nat := 0
  deriving DecidableEq, Repr

structure LaneTrainP where
  bundle : Nat
  rsvd : Nat := 0
  deriving DecidableEq, Repr

/-- BUNDLE_SLEEP and BUNDLE_WAKE: a bundle and a direction, 0 receive, 1 transmit. -/
structure BundleDirP where
  bundle : Nat
  dir : Nat
  rsvd : Nat := 0
  deriving DecidableEq, Repr

structure LoopbackSetP where
  port : Nat
  path : Nat
  rsvd : Nat := 0
  deriving DecidableEq, Repr

structure PrbsSetP where
  bundle : Nat
  dir : Nat
  laneMask : Nat
  pattern : Nat
  invert : Bool := false
  rsvd : Nat := 0
  deriving DecidableEq, Repr

/-- STREAM_SET (Table 13.5). -/
structure StreamSetP where
  dir : Nat
  bundle : Nat
  lane : Nat
  g : Nat
  mode : Nat := 0
  tag : Nat := 0
  dither : Bool := false
  exclOff : Bool := false
  rate : Nat := 0
  activeSamples : Nat := 0
  activeLines : Nat := 0
  totalLines : Nat := 0
  scan : Nat := 0
  rsvd : Nat := 0
  deriving DecidableEq, Repr

/-- Route entry (Table 6.4). -/
structure RouteEntry where
  dest : Nat
  src : Nat
  g : Nat := 1
  syncRes : Bool := false
  forceSync : Bool := false
  autoCut : Bool := false
  extra : Nat := 0
  rsvd : Nat := 0
  deriving DecidableEq, Repr

structure RouteTakeP where
  count : Nat
  entries : List RouteEntry
  rsvd : Nat := 0
  deriving DecidableEq, Repr

structure RouteQueryP where
  res : Res
  dests : List Nat
  rsvd : Nat := 0
  deriving DecidableEq, Repr

structure LossSetP where
  output : Nat
  policy : Nat
  holdLimit : Nat := 0
  rsvd : Nat := 0
  deriving DecidableEq, Repr

/-- Preset content (Table 6.8). -/
structure PresetBody where
  rasters : List RasterSetP := []
  streams : List StreamSetP := []
  losses : List LossSetP := []
  routes : List RouteEntry := []
  deriving DecidableEq, Repr

structure PresetStoreP where
  preset : Nat
  capture : Bool := false
  body : PresetBody := {}
  rsvd : Nat := 0
  deriving DecidableEq, Repr

structure PresetRecallP where
  preset : Nat
  rsvd : Nat := 0
  deriving DecidableEq, Repr

structure PresetColdstartP where
  preset : Nat
  enable : Bool
  rsvd : Nat := 0
  deriving DecidableEq, Repr

/-- Buffer parameters (Table 7.2). -/
structure BufParams where
  typ : Nat
  format : Nat := 0
  count : Nat := 0
  width : Nat := 0
  height : Nat := 0
  tlines : Nat := 0
  rate : Nat := 0
  scan : Nat := 0
  size : Nat := 0
  target : Nat := 0
  hwRate : Nat := 0
  dir : Nat := 0
  rsvd : Nat := 0
  deriving DecidableEq, Repr

structure BufCreateP where
  params : BufParams
  res : Res
  deriving DecidableEq, Repr

structure BufDestroyP where
  handle : Nat
  deriving DecidableEq, Repr

structure BufQueryP where
  res : Res
  handle : Nat
  rsvd : Nat := 0
  deriving DecidableEq, Repr

/-- BUF_XFER; `data` is what the host memory at HOST_ADDR holds (DIR 1 windows). -/
structure BufXferP where
  window : Nat
  markComplete : Bool := false
  p3 : Bool := false
  slot : Nat := 0
  offset : Nat
  hostAddr : Nat := 0
  bytes : Nat
  frame : Nat := 0
  doneStc : Nat := 0
  data : List Byte := []
  rsvd : Nat := 0
  deriving DecidableEq, Repr

structure CaptureBindP where
  cw : Nat
  g : Nat
  oneShot : Bool := false
  handle : Nat
  rsvd : Nat := 0
  deriving DecidableEq, Repr

structure PlayoutBindP where
  pb : Nat
  g : Nat
  mode : Nat := 0
  handle : Nat
  raster : Nat := 0
  extra : Nat := 0
  slot : Nat := 0
  rsvd : Nat := 0
  deriving DecidableEq, Repr

/-- Port format descriptor (Table 8.3). -/
structure PortFmt where
  width : Nat := 0
  height : Nat := 0
  format : Nat := 0
  rate : Nat := 0
  scan : Nat := 0
  g : Nat := 0
  deriving DecidableEq, Repr

/-- Timed input geometry (Table 9.4). -/
structure Geometry where
  inTLines : Nat := 1125
  inALine1 : Nat := 42
  inALine2 : Nat := 0
  deriving DecidableEq, Repr

/-- SCALE kernel block (Table 9.6). -/
structure ScaleBlk where
  geo : Geometry := {}
  htaps : Nat := 8
  vtaps : Nat := 8
  sharp : Nat := 8
  aspect : Nat := 0
  cropX : Nat := 0
  cropY : Nat := 0
  cropW : Nat := 0
  cropH : Nat := 0
  dx : Nat := 0
  dy : Nat := 0
  dw : Nat := 0
  dh : Nat := 0
  rsvd : Nat := 0
  deriving DecidableEq, Repr

/-- DEINT kernel block (Table 9.7). -/
structure DeintBlk where
  hist : Nat
  mode : Nat := 0
  edge : Nat := 0
  cadence : Nat := 0
  mgain : Nat := 1
  mthresh : Nat := 0
  rsvd : Nat := 0
  deriving DecidableEq, Repr

/-- FRC_MC kernel block (Table 9.8). -/
structure FrcMcBlk where
  hist : Nat
  mv : Nat
  fallback : Nat := 0
  conf : Nat := 0
  rsvd : Nat := 0
  deriving DecidableEq, Repr

/-- FRC_BLEND kernel block (R243). -/
structure FrcBlendBlk where
  hist : Nat
  mode : Nat := 0
  rsvd : Nat := 0
  deriving DecidableEq, Repr

/-- COLOR kernel block (Table 9.9): coefficients as signed integers of 15 fractional bits. -/
structure ColorBlk where
  geo : Geometry := {}
  stages : Nat := 0
  decodeTf : Nat := 0
  encodeTf : Nat := 0
  outTag : Nat := 0
  sdrWhite : Nat := 100
  hlgLw : Nat := 1000
  inMatrix : List Int := []
  inOffset : List Int := []
  gamut : List Int := []
  outMatrix : List Int := []
  outOffset : List Int := []
  lut : List Nat := []
  rsvd : Nat := 0
  deriving DecidableEq, Repr

/-- CHROMA kernel block (Table 9.11). -/
structure ChromaBlk where
  geo : Geometry := {}
  filter : Nat := 0
  in420 : Nat := 0
  out420 : Nat := 0
  rsvd : Nat := 0
  deriving DecidableEq, Repr

/-- KEY kernel block (Table 9.13). -/
structure KeyBlk where
  geo : Geometry := {}
  mode : Nat := 0
  matrix : Nat := 0
  invert : Nat := 0
  spill : Nat := 0
  clip : Nat := 0
  gain : Nat := 16
  hue : Nat := 0
  accept : Nat := 1
  rsvd : Nat := 0
  deriving DecidableEq, Repr

/-- The kernel block of a task (Table 9.1); `other` is a block under an identifier the library does not hold. -/
inductive KBlock where
  | scale (b : ScaleBlk)
  | deint (b : DeintBlk)
  | frcMc (b : FrcMcBlk)
  | frcBlend (b : FrcBlendBlk)
  | color (b : ColorBlk)
  | chroma (b : ChromaBlk)
  | key (b : KeyBlk)
  | other (bytes : Nat)
  deriving DecidableEq, Repr

/-- KERNEL_BIND (Table 8.2). -/
structure KernelBindP where
  engine : Nat
  gang : Nat := 1
  ov : Nat := 0
  kernel : Nat
  raster : Nat
  outAdv : Nat := 0
  in0 : PortFmt := {}
  in1 : PortFmt := {}
  out0 : PortFmt := {}
  out1 : PortFmt := {}
  block : KBlock
  rsvd : Nat := 0
  deriving DecidableEq, Repr

structure KernelUpdateP where
  engine : Nat
  block : KBlock
  rsvd : Nat := 0
  deriving DecidableEq, Repr

structure KernelUnbindP where
  engine : Nat
  rsvd : Nat := 0
  deriving DecidableEq, Repr

structure EngineReserveP where
  first : Nat
  count : Nat
  release : Bool := false
  ceiling : Nat := 0
  rsvd : Nat := 0
  deriving DecidableEq, Repr

structure EngineMigrateP where
  engine : Nat
  target : Nat
  rsvd : Nat := 0
  deriving DecidableEq, Repr

structure EngineQueryP where
  res : Res
  first : Nat
  count : Nat
  rsvd : Nat := 0
  deriving DecidableEq, Repr

/-- Geometry of an overlay layer: X and Y signed (Table 10.1). -/
structure LayerGeom where
  x : Int := 0
  y : Int := 0
  cropX : Nat := 0
  cropY : Nat := 0
  cropW : Nat := 0
  cropH : Nat := 0
  galpha : Nat := 4096
  deriving DecidableEq, Repr

/-- One entry of LAYER_SET (Table 10.1). -/
structure LayerEntry where
  layer : Nat
  enable : Bool := false
  follow : Bool := false
  setBuf : Bool := false
  z : Nat := 1
  tag : Nat := 0
  geom : LayerGeom := {}
  slot : Nat := 0
  buf : Nat := 0
  rsvd : Nat := 0
  deriving DecidableEq, Repr

structure LayerSetP where
  output : Nat
  count : Nat
  entries : List LayerEntry
  rsvd : Nat := 0
  deriving DecidableEq, Repr

/-- LAYER_FLIP (Table 10.3); `geom` is present with GEOM. -/
structure LayerFlipP where
  output : Nat
  layer : Nat
  sel : Nat := 0
  buf : Nat
  slot : Nat := 0
  fence : Nat := 0
  fenced : Bool := false
  geom : Option LayerGeom := none
  fenceValue : Nat := 0
  frame : Nat := 0
  expire : Nat := 0
  rsvd : Nat := 0
  deriving DecidableEq, Repr

/-- LAYER_QUERY. -/
structure OutputQueryP where
  res : Res
  output : Nat
  rsvd : Nat := 0
  deriving DecidableEq, Repr

structure CompSetP where
  output : Nat
  dl : Nat
  rsvd : Nat := 0
  deriving DecidableEq, Repr

structure FenceBindP where
  fence : Nat
  point : Nat
  rsvd : Nat := 0
  deriving DecidableEq, Repr

structure FenceSignalP where
  fence : Nat
  reset : Bool := false
  value : Nat
  rsvd : Nat := 0
  deriving DecidableEq, Repr

structure FenceQueryP where
  res : Res
  fence : Nat
  rsvd : Nat := 0
  deriving DecidableEq, Repr

/-- GROUP_SET: members as (output, layer). -/
structure GroupSetP where
  group : Nat
  members : List (Nat × Nat)
  rsvd : Nat := 0
  deriving DecidableEq, Repr

/-- STATIC_SET (Table 10.5). -/
structure StaticSetP where
  output : Nat
  run : Nat
  op : Nat
  zlo : Nat := 1
  zhi : Nat := 1
  bufA : Nat := 0
  bufB : Nat := 0
  rsvd : Nat := 0
  deriving DecidableEq, Repr

/-- One entry of AUDIO_ROUTE (Table 11.4). -/
structure AudioEntry where
  dst : Nat
  src : Nat
  gain : Int := 0
  invert : Bool := false
  mute : Bool := false
  hard : Bool := false
  ctrlOnly : Bool := false
  rsvd : Nat := 0
  deriving DecidableEq, Repr

structure AudioRouteP where
  count : Nat
  entries : List AudioEntry
  rsvd : Nat := 0
  deriving DecidableEq, Repr

/-- AUDIO_EMBED (Table 11.6). -/
structure AudioEmbedP where
  output : Nat
  enable : Bool
  rate : Nat := 2
  blkLen : Nat := 0
  slots : Nat := 2
  ring : Nat := 0
  gEmb : Nat := 270000
  lsTol : Nat := 0
  rsvd : Nat := 0
  deriving DecidableEq, Repr

/-- ASRC_BIND (Table 11.5). -/
structure AsrcBindP where
  group : Nat
  op : Nat
  target : Nat := 0
  tport : Nat := 0
  outRate : Nat := 2
  bw : Nat := 0
  first : Nat := 0
  count : Nat := 1
  rsvd : Nat := 0
  deriving DecidableEq, Repr

/-- APORT_SET (Table 11.7). -/
structure AportSetP where
  port : Nat
  enable : Bool
  role : Nat := 0
  rate : Nat := 2
  slots : Nat := 8
  width : Nat := 32
  offset : Nat := 1
  fsLow : Bool := false
  edge : Bool := false
  unusedZero : Bool := false
  houseB : Bool := false
  fsWidth : Nat := 1
  portDelay : Nat := 1350000
  diMask : Nat := 0
  doMask : Nat := 0
  rsvd : Nat := 0
  deriving DecidableEq, Repr

structure AportMaskP where
  port : Nat
  fadeIn : Bool := false
  diMask : Nat
  doMask : Nat
  rsvd : Nat := 0
  deriving DecidableEq, Repr

/-- AUDIO_RING_BIND (Table 13.10); DELAY is signed. -/
structure AudioRingBindP where
  handle : Nat
  kind : Nat
  rate : Nat := 2
  house : Nat := 0
  hostFlow : Bool := false
  first : Nat := 0
  count : Nat := 1
  delay : Int := 0
  rsvd : Nat := 0
  deriving DecidableEq, Repr

structure AudioQueryP where
  res : Res
  side : Nat
  channels : List Nat
  rsvd : Nat := 0
  deriving DecidableEq, Repr

/-- REF_SET (Table 13.11). -/
structure RefSetP where
  port : Nat
  enable : Bool
  lineSync : Bool := false
  fsFall : Bool := false
  scale : Nat := 0
  freqHz : Nat := 148500000
  rsvd : Nat := 0
  deriving DecidableEq, Repr

/-- SYNTH_SET (Table 13.11). -/
structure SynthSetP where
  synth : Nat
  policy : Nat := 0
  bw : Nat := 0
  slew : Nat := 0
  lockN : Nat := 1024
  lossM : Nat := 64
  window : Nat := 1000
  spread : Nat := 0
  sscKhz : Nat := 0
  phaseMode : Nat := 0
  freq : Nat := 0
  rsvd : Nat := 0
  deriving DecidableEq, Repr

/-- BAND_TABLE_SET: entries as (F_LO, BAND). -/
structure BandTableSetP where
  synth : Nat
  ceiling : Nat
  entries : List (Nat × Nat)
  rsvd : Nat := 0
  deriving DecidableEq, Repr

structure ClkoutSetP where
  clkout : Nat
  synth : Nat
  enable : Bool
  divider : Nat := 1
  delay : Nat := 0
  rsvd : Nat := 0
  deriving DecidableEq, Repr

structure ClkoutSyncP where
  synth : Nat
  rsvd : Nat := 0
  deriving DecidableEq, Repr

structure PairSetP where
  role : Nat
  rsvd : Nat := 0
  deriving DecidableEq, Repr

/-- PAIR_RESYNC and PAIR_TRANSFER: reserved bytes alone. -/
structure EmptyP where
  rsvd : Nat := 0
  deriving DecidableEq, Repr

/-- KEY_WRITE (Table 13.13): KEY as a 256-bit number, first byte highest. -/
structure KeyWriteP where
  slot : Nat
  usage : Nat
  parent : Nat
  key : Nat
  rsvd : Nat := 0
  deriving DecidableEq, Repr

structure KeyDeriveP where
  slot : Nat
  parent : Nat
  usage : Nat
  label : List Byte := []
  context : List Byte := []
  rsvd : Nat := 0
  deriving DecidableEq, Repr

structure KeyInvalidateP where
  slot : Nat
  rsvd : Nat := 0
  deriving DecidableEq, Repr

structure QueueAuthP where
  queue : Nat
  slot : Nat
  rsvd : Nat := 0
  deriving DecidableEq, Repr

structure LaneCryptSetP where
  point : Nat
  dir : Nat
  slot : Nat
  deriving DecidableEq, Repr

structure AttestP where
  res : Res
  slot : Nat
  nonce : Nat
  rsvd : Nat := 0
  deriving DecidableEq, Repr

structure TamperSetP where
  enables : Nat
  wake : Nat
  clear : Bool := false
  rsvd : Nat := 0
  deriving DecidableEq, Repr

structure NvReadP where
  res : Res
  addr : Nat
  bytes : Nat
  deriving DecidableEq, Repr

structure NvWriteP where
  addr : Nat
  data : List Byte
  rsvd : Nat := 0
  deriving DecidableEq, Repr

structure NvProtectP where
  field : Nat
  lock : Bool := false
  unlock : Bool := false
  rsvd : Nat := 0
  deriving DecidableEq, Repr

structure NvCounterP where
  res : Res
  counter : Nat
  op : Nat
  rsvd : Nat := 0
  deriving DecidableEq, Repr

structure AuditReadP where
  res : Res
  first : Nat
  count : Nat
  rsvd : Nat := 0
  deriving DecidableEq, Repr

structure CounterReadP where
  res : Res
  clearOvf : Bool := false
  ids : List Nat
  rsvd : Nat := 0
  deriving DecidableEq, Repr

structure CounterSnapshotP where
  op : Nat
  rsvd : Nat := 0
  deriving DecidableEq, Repr

structure MonitorSetP where
  monitor : Nat
  port : Nat
  raster : Nat
  lines : Nat
  deriving DecidableEq, Repr

structure MonitorReadP where
  res : Res
  first : Nat
  count : Nat
  deriving DecidableEq, Repr

structure EventRouteP where
  first : Nat
  count : Nat
  targets : Nat
  cls : Nat
  rsvd : Nat := 0
  deriving DecidableEq, Repr

structure GpioSetP where
  pin : Nat
  dir : Nat
  level : Nat
  owner : Nat
  deriving DecidableEq, Repr

structure GpioEdgeP where
  mask : Nat
  value : Nat
  deriving DecidableEq, Repr

/-- CPB_LOAD; `image` is what the host memory at HOST_ADDR holds, body and trailer. -/
structure CpbLoadP where
  start : Bool := false
  addr : Nat
  hostAddr : Nat := 0
  bytes : Nat
  image : List Byte
  rsvd : Nat := 0
  deriving DecidableEq, Repr

structure CpbCtrlP where
  op : Nat
  entry : Nat := 0
  rsvd : Nat := 0
  deriving DecidableEq, Repr

/-- The parameter block of a packet: one constructor per opcode of Table 13.1, and `unknown` for any other opcode. -/
inductive Params where
  | sysIdentify (p : ResP) | sysCaps (p : ResP) | sysMode (p : SysModeP) | barrier (p : BarrierP)
  | sysRestart (p : SysRestartP) | sysWakeSet (p : SysWakeSetP) | sysFaultRead (p : SysFaultReadP)
  | rasterSet (p : RasterSetP) | rasterQuery (p : RasterQueryP) | stcSet (p : StcSetP) | stcRead (p : ResP)
  | schedCancel (p : SchedCancelP)
  | bundleSet (p : BundleSetP) | bundleStatus (p : BundleStatusP) | laneTrain (p : LaneTrainP)
  | bundleSleep (p : BundleDirP) | bundleWake (p : BundleDirP) | loopbackSet (p : LoopbackSetP) | prbsSet (p : PrbsSetP)
  | streamSet (p : StreamSetP) | routeTake (p : RouteTakeP) | routeQuery (p : RouteQueryP) | lossSet (p : LossSetP)
  | presetStore (p : PresetStoreP) | presetRecall (p : PresetRecallP) | presetColdstart (p : PresetColdstartP)
  | bufCreate (p : BufCreateP) | bufDestroy (p : BufDestroyP) | bufQuery (p : BufQueryP) | bufXfer (p : BufXferP)
  | captureBind (p : CaptureBindP) | playoutBind (p : PlayoutBindP) | weirQuery (p : ResP)
  | kernelBind (p : KernelBindP) | kernelUpdate (p : KernelUpdateP) | kernelUnbind (p : KernelUnbindP)
  | engineReserve (p : EngineReserveP) | engineMigrate (p : EngineMigrateP) | engineQuery (p : EngineQueryP)
  | layerSet (p : LayerSetP) | layerFlip (p : LayerFlipP) | layerQuery (p : OutputQueryP) | compSet (p : CompSetP)
  | fenceBind (p : FenceBindP) | fenceSignal (p : FenceSignalP) | fenceQuery (p : FenceQueryP)
  | groupSet (p : GroupSetP) | staticSet (p : StaticSetP)
  | audioRoute (p : AudioRouteP) | audioEmbed (p : AudioEmbedP) | asrcBind (p : AsrcBindP) | aportSet (p : AportSetP)
  | aportMask (p : AportMaskP) | audioRingBind (p : AudioRingBindP) | audioQuery (p : AudioQueryP)
  | refSet (p : RefSetP) | synthSet (p : SynthSetP) | bandTableSet (p : BandTableSetP) | clkoutSet (p : ClkoutSetP)
  | clkoutSync (p : ClkoutSyncP) | clockStatus (p : ResP)
  | pairSet (p : PairSetP) | pairResync (p : EmptyP) | pairTransfer (p : EmptyP) | pairStatus (p : ResP)
  | keyWrite (p : KeyWriteP) | keyDerive (p : KeyDeriveP) | keyInvalidate (p : KeyInvalidateP) | keyQuery (p : ResP)
  | queueAuth (p : QueueAuthP) | laneCryptSet (p : LaneCryptSetP) | attest (p : AttestP) | tamperSet (p : TamperSetP)
  | tamperStatus (p : ResP)
  | nvRead (p : NvReadP) | nvWrite (p : NvWriteP) | nvProtect (p : NvProtectP) | nvCounter (p : NvCounterP)
  | auditRead (p : AuditReadP)
  | counterRead (p : CounterReadP) | counterSnapshot (p : CounterSnapshotP) | monitorSet (p : MonitorSetP)
  | monitorRead (p : MonitorReadP)
  | eventRoute (p : EventRouteP) | gpioSet (p : GpioSetP) | gpioEdge (p : GpioEdgeP) | gpioRead (p : ResP)
  | cpbLoad (p : CpbLoadP) | cpbCtrl (p : CpbCtrlP)
  | unknown (opcode : Nat)
  deriving DecidableEq, Repr

/-- A packet as the host placed it in a queue (R333). -/
structure Packet where
  hdr : Hdr
  params : Params
  deriving DecidableEq, Repr

/-! ### Operands of the event rows -/

/-- One superframe of one lane (R86, R87, R93): `comma` is the number of differing bits of the predicted comma (0 exact, above 2 missed),
`crcOk` the result of R90, `payload` the plain symbols of slots 7 to 4093 (symbols that are not listed are 0), and `adaptDue` says that a
tap or interpolator step is due (R121). A superframe on the line is given by `line`, its bits from the comma to the next comma: the
receiver then makes every other field but `adaptDue` from them. -/
structure Superframe where
  comma : Nat := 0
  laneId : Nat := 0
  active : Bool := true
  withdrawn : Bool := false
  sleep : Bool := false
  sfc : Nat := 0
  bc : Nat := 0
  fc : Nat := 0
  stuffBits : Nat := 0
  violations : Nat := 0
  crcOk : Bool := true
  payload : List Nat := []
  adaptDue : Bool := false
  line : List Bool := []
  deriving DecidableEq, Repr

/-- Receive settings of one lane (R107). -/
structure RxSet where
  peak : Nat := 7
  dcGain : Nat := 0
  dfe1 : Int := 0
  dfe2 : Int := 0
  dfe3 : Int := 0
  dfe4 : Int := 0
  dfe5 : Int := 0
  interp : Nat := 32
  deriving DecidableEq, Repr

/-- How a Brinen message arrives (R384, R385). -/
structure Arrival where
  crcOk : Bool := true
  copy : Bool := false
  deriving DecidableEq, Repr

/-- HELLO body (Table 14.3). -/
structure HelloBody where
  role : Nat
  authority : Bool
  fw : Nat
  lib : Nat
  frameA : Nat
  frameB : Nat
  stcOffset : Nat
  oOffsets : List (Nat × Nat) := []
  deriving DecidableEq, Repr

/-- CMD body: the whole packet reassembled from its fragments, with the LEAD's stamp and late judgement; in a
snapshot a KERNEL_BIND carries the version that the LEAD's task runs (R401). -/
structure CmdBody where
  rix : Nat
  raster : Nat
  frame : Nat
  line : Nat
  packet : Packet
  handle : Nat := 0
  version : Nat := 0
  deriving DecidableEq, Repr

/-- One signature of a granule (R389, R390). -/
structure GranuleSig where
  stream : Nat
  frame : Nat
  pos : Nat
  sig : Nat
  deriving DecidableEq, Repr

/-- What a TDM port receives up to an FS edge (R308 to R310): the bit clocks since the edge before, and the bits of each input slot of the
frame that this edge ends, as a number of WIDTH bits with the first bit highest. -/
structure TdmFrame where
  bits : Nat
  slots : List Nat := []
  deriving DecidableEq, Repr

/-- A Leat decision of a LEAD (R320): whether a destination underran in a block; the lock state and the grid offset of a domain for each
house, in 1/196 tick; the state, the measured source period and the phase error of an ASRC group at a block; whether a source pair is
non-audio; and the applied lip-sync delay of an output in ticks. -/
inductive LeatBody where
  | block (dest block : Nat) (under : Bool)
  | domain (id : Nat) (lockA lockB : Bool) (offA offB : Int)
  | asrc (group block st : Nat) (period phase : Int)
  | nonAudio (pair : Nat) (non : Bool)
  | delay (output da : Nat)
  deriving DecidableEq, Repr

/-- The commands of the block: one constructor per row of the opcode table, in its order. The first operand `t` is the
monotonic tick count at which the command reaches the device. A packet row carries its header and its parameters; a
register row the value written; an event row what the event brings from outside. -/
inductive Instr where
  | sysIdentify (t : Tick) (h : Hdr) (p : ResP)
  | sysCaps (t : Tick) (h : Hdr) (p : ResP)
  | sysMode (t : Tick) (h : Hdr) (p : SysModeP)
  | barrier (t : Tick) (h : Hdr) (p : BarrierP)
  | sysRestart (t : Tick) (h : Hdr) (p : SysRestartP)
  | sysWakeSet (t : Tick) (h : Hdr) (p : SysWakeSetP)
  | sysFaultRead (t : Tick) (h : Hdr) (p : SysFaultReadP)
  | rasterSet (t : Tick) (h : Hdr) (p : RasterSetP)
  | rasterQuery (t : Tick) (h : Hdr) (p : RasterQueryP)
  | stcSet (t : Tick) (h : Hdr) (p : StcSetP)
  | stcRead (t : Tick) (h : Hdr) (p : ResP)
  | schedCancel (t : Tick) (h : Hdr) (p : SchedCancelP)
  | bundleSet (t : Tick) (h : Hdr) (p : BundleSetP)
  | bundleStatus (t : Tick) (h : Hdr) (p : BundleStatusP)
  | laneTrain (t : Tick) (h : Hdr) (p : LaneTrainP)
  | bundleSleep (t : Tick) (h : Hdr) (p : BundleDirP)
  | bundleWake (t : Tick) (h : Hdr) (p : BundleDirP)
  | loopbackSet (t : Tick) (h : Hdr) (p : LoopbackSetP)
  | prbsSet (t : Tick) (h : Hdr) (p : PrbsSetP)
  | streamSet (t : Tick) (h : Hdr) (p : StreamSetP)
  | routeTake (t : Tick) (h : Hdr) (p : RouteTakeP)
  | routeQuery (t : Tick) (h : Hdr) (p : RouteQueryP)
  | lossSet (t : Tick) (h : Hdr) (p : LossSetP)
  | presetStore (t : Tick) (h : Hdr) (p : PresetStoreP)
  | presetRecall (t : Tick) (h : Hdr) (p : PresetRecallP)
  | presetColdstart (t : Tick) (h : Hdr) (p : PresetColdstartP)
  | bufCreate (t : Tick) (h : Hdr) (p : BufCreateP)
  | bufDestroy (t : Tick) (h : Hdr) (p : BufDestroyP)
  | bufQuery (t : Tick) (h : Hdr) (p : BufQueryP)
  | bufXfer (t : Tick) (h : Hdr) (p : BufXferP)
  | captureBind (t : Tick) (h : Hdr) (p : CaptureBindP)
  | playoutBind (t : Tick) (h : Hdr) (p : PlayoutBindP)
  | weirQuery (t : Tick) (h : Hdr) (p : ResP)
  | kernelBind (t : Tick) (h : Hdr) (p : KernelBindP)
  | kernelUpdate (t : Tick) (h : Hdr) (p : KernelUpdateP)
  | kernelUnbind (t : Tick) (h : Hdr) (p : KernelUnbindP)
  | engineReserve (t : Tick) (h : Hdr) (p : EngineReserveP)
  | engineMigrate (t : Tick) (h : Hdr) (p : EngineMigrateP)
  | engineQuery (t : Tick) (h : Hdr) (p : EngineQueryP)
  | layerSet (t : Tick) (h : Hdr) (p : LayerSetP)
  | layerFlip (t : Tick) (h : Hdr) (p : LayerFlipP)
  | layerQuery (t : Tick) (h : Hdr) (p : OutputQueryP)
  | compSet (t : Tick) (h : Hdr) (p : CompSetP)
  | fenceBind (t : Tick) (h : Hdr) (p : FenceBindP)
  | fenceSignal (t : Tick) (h : Hdr) (p : FenceSignalP)
  | fenceQuery (t : Tick) (h : Hdr) (p : FenceQueryP)
  | groupSet (t : Tick) (h : Hdr) (p : GroupSetP)
  | staticSet (t : Tick) (h : Hdr) (p : StaticSetP)
  | audioRoute (t : Tick) (h : Hdr) (p : AudioRouteP)
  | audioEmbed (t : Tick) (h : Hdr) (p : AudioEmbedP)
  | asrcBind (t : Tick) (h : Hdr) (p : AsrcBindP)
  | aportSet (t : Tick) (h : Hdr) (p : AportSetP)
  | aportMask (t : Tick) (h : Hdr) (p : AportMaskP)
  | audioRingBind (t : Tick) (h : Hdr) (p : AudioRingBindP)
  | audioQuery (t : Tick) (h : Hdr) (p : AudioQueryP)
  | refSet (t : Tick) (h : Hdr) (p : RefSetP)
  | synthSet (t : Tick) (h : Hdr) (p : SynthSetP)
  | bandTableSet (t : Tick) (h : Hdr) (p : BandTableSetP)
  | clkoutSet (t : Tick) (h : Hdr) (p : ClkoutSetP)
  | clkoutSync (t : Tick) (h : Hdr) (p : ClkoutSyncP)
  | clockStatus (t : Tick) (h : Hdr) (p : ResP)
  | pairSet (t : Tick) (h : Hdr) (p : PairSetP)
  | pairResync (t : Tick) (h : Hdr) (p : EmptyP)
  | pairTransfer (t : Tick) (h : Hdr) (p : EmptyP)
  | pairStatus (t : Tick) (h : Hdr) (p : ResP)
  | keyWrite (t : Tick) (h : Hdr) (p : KeyWriteP)
  | keyDerive (t : Tick) (h : Hdr) (p : KeyDeriveP)
  | keyInvalidate (t : Tick) (h : Hdr) (p : KeyInvalidateP)
  | keyQuery (t : Tick) (h : Hdr) (p : ResP)
  | queueAuth (t : Tick) (h : Hdr) (p : QueueAuthP)
  | laneCryptSet (t : Tick) (h : Hdr) (p : LaneCryptSetP)
  | attest (t : Tick) (h : Hdr) (p : AttestP)
  | tamperSet (t : Tick) (h : Hdr) (p : TamperSetP)
  | tamperStatus (t : Tick) (h : Hdr) (p : ResP)
  | nvRead (t : Tick) (h : Hdr) (p : NvReadP)
  | nvWrite (t : Tick) (h : Hdr) (p : NvWriteP)
  | nvProtect (t : Tick) (h : Hdr) (p : NvProtectP)
  | nvCounter (t : Tick) (h : Hdr) (p : NvCounterP)
  | auditRead (t : Tick) (h : Hdr) (p : AuditReadP)
  | counterRead (t : Tick) (h : Hdr) (p : CounterReadP)
  | counterSnapshot (t : Tick) (h : Hdr) (p : CounterSnapshotP)
  | monitorSet (t : Tick) (h : Hdr) (p : MonitorSetP)
  | monitorRead (t : Tick) (h : Hdr) (p : MonitorReadP)
  | eventRoute (t : Tick) (h : Hdr) (p : EventRouteP)
  | gpioSet (t : Tick) (h : Hdr) (p : GpioSetP)
  | gpioEdge (t : Tick) (h : Hdr) (p : GpioEdgeP)
  | gpioRead (t : Tick) (h : Hdr) (p : ResP)
  | cpbLoad (t : Tick) (h : Hdr) (p : CpbLoadP)
  | cpbCtrl (t : Tick) (h : Hdr) (p : CpbCtrlP)
  | sqTail (t : Tick) (q value : Nat) (written : List Packet)
  | cqHead (t : Tick) (q value : Nat)
  | queueEnable (t : Tick) (q : Nat) (irqEn : Bool) (vector : Nat)
  | queueDisable (t : Tick) (q : Nat) (irqEn : Bool) (vector : Nat)
  | queueResume (t : Tick) (q : Nat)
  | claim (t : Tick) (target id : Nat)
  | complete (t : Tick) (target id : Nat)
  | cntSel (t : Tick) (cpb : Bool) (id : Nat)
  | cntValOvfClear (t : Tick) (cpb : Bool)
  | stcLowRead (t : Tick)
  | q8SqTail (t : Tick) (value : Nat) (written : List Packet)
  | q8RrHead (t : Tick) (value : Nat)
  | swiSet (t : Tick) (id : Nat)
  | timecmp (t : Tick) (value : Nat)
  | timerDisarm (t : Tick)
  | timerFiredClear (t : Tick)
  | gpioOut (t : Tick) (value : Nat)
  | cpbAccessFault (t : Tick) (addr size : Nat) (store : Bool)
  | registerWrite (t : Tick) (cpb : Bool) (off size value : Nat)
  | writePacket (t : Tick) (pk : Packet) (bytes : Nat) (crcOk : Bool)
  | readReply (t : Tick) (clocked : Nat)
  | readStatus (t : Tick)
  | queueFetch (t : Tick) (q : Nat)
  | barrierRelease (t : Tick) (q : Nat)
  | barrierTimeout (t : Tick) (q : Nat)
  | rasterLineStart (t : Tick) (raster : Nat)
  | outputFrameStart (t : Tick) (output : Nat)
  | flattenComplete (t : Tick) (output run : Nat)
  | sluiceDecisionLine (t : Tick) (output : Nat)
  | engineFrameStart (t : Tick) (engine : Nat)
  | knownAnswerResult (t : Tick) (engine : Nat) (ok : Bool)
  | kernelLoadVerified (t : Tick) (engine : Nat) (ok : Bool)
  | motionEstimateDone (t : Tick) (engine : Nat)
  | superframeReceive (t : Tick) (bundle lane : Nat) (sf : Superframe)
  | superframeCrcResult (t : Tick) (point : Nat)
  | groupSuperframeBoundary (t : Tick) (point spread : Nat)
  | streamPresent (t : Tick) (point : Nat)
  | laneEnterSeed (t : Tick) (bundle lane : Nat)
  | laneEnterLocked (t : Tick) (bundle lane : Nat)
  | laneLossOfLock (t : Tick) (bundle lane : Nat)
  | misconnectionEvent (t : Tick) (bundle lane : Nat)
  | dllLock (t : Tick) (bundle : Nat)
  | forwardedClockLost (t : Tick) (bundle : Nat)
  | txSuperframe (t : Tick) (bundle : Nat)
  | directionSleepComplete (t : Tick) (bundle dir : Nat)
  | directionWakeComplete (t : Tick) (bundle dir : Nat)
  | prbsWindowCheck (t : Tick) (bundle lane : Nat) (received : List Bool)
  | trainingRoundStart (t : Tick) (bundle : Nat)
  | trainingPhaseTimeout (t : Tick) (bundle : Nat)
  | rxAdaptEnd (t : Tick) (bundle : Nat) (settings : List RxSet)
  | bcAckReceived (t : Tick) (bundle lane bc : Nat)
  | firDwellEnd (t : Tick) (bundle lane : Nat)
  | bcRequestUnanswered (t : Tick) (bundle lane : Nat)
  | verifyEnd (t : Tick) (bundle : Nat)
  | roundRetryWaitExpire (t : Tick) (bundle : Nat)
  | bcRequestReceived (t : Tick) (bundle lane bc : Nat)
  | bcDoneReceived (t : Tick) (bundle lane : Nat)
  | sleepRequestReceived (t : Tick) (bundle lane bc : Nat)
  | refFrameSyncPulse (t : Tick) (port : Nat) (offset : Int)
  | refLineSyncPulse (t : Tick) (port : Nat) (offset : Int)
  | refAbsent (t : Tick) (port : Nat)
  | refPresent (t : Tick) (port : Nat)
  | frameSyncMissing (t : Tick) (port : Nat)
  | synthLock (t : Tick) (synth : Nat)
  | synthLossOfLock (t : Tick) (synth : Nat)
  | bandMiss (t : Tick) (synth : Nat)
  | bandSearchDone (t : Tick) (synth band : Nat) (temp : Int)
  | syncInEdge (t : Tick)
  | fabricSynthLoss (t : Tick)
  | laneSynthLoss (t : Tick) (synth : Nat)
  | cpbTimerCompare (t : Tick)
  | inputRasterStale (t : Tick) (point : Nat)
  | destinationBlockService (t : Tick) (dest : Nat)
  | underrunHoldExpire (t : Tick) (dest : Nat)
  | embedBlockSend (t : Tick) (output : Nat)
  | tdmFsEdge (t : Tick) (port : Nat) (frame : TdmFrame)
  | tdmFsTimeout (t : Tick) (port : Nat)
  | domainLock (t : Tick) (domain house : Nat)
  | domainSampleTimeout (t : Tick) (domain : Nat)
  | asrcLock (t : Tick) (group : Nat)
  | asrcSourceTimeout (t : Tick) (group : Nat)
  | nonaudioRevert (t : Tick) (pair : Nat)
  | msgHello (t : Tick) (a : Arrival) (m : HelloBody)
  | linkUp (t : Tick)
  | msgCmd (t : Tick) (a : Arrival) (m : CmdBody)
  | msgVerdict (t : Tick) (a : Arrival) (rix status : Nat)
  | commitPoint (t : Tick) (rix : Nat)
  | msgCommit (t : Tick) (a : Arrival) (rix : Nat) (commit : Bool)
  | msgClass (t : Tick) (a : Arrival) (output frame cls srcFrame : Nat)
  | msgDecide (t : Tick) (a : Arrival) (output frame bitmap : Nat)
  | msgLeat (t : Tick) (a : Arrival) (d : LeatBody)
  | msgSig (t : Tick) (a : Arrival) (sigs : List GranuleSig) (keyBits : List Nat)
  | msgReport (t : Tick) (a : Arrival) (kind unit value : Nat)
  | msgState (t : Tick) (a : Arrival) (seq : Nat) (last : Bool) (rix libVersion : Nat) (items : List CmdBody)
  | msgXfer (t : Tick) (a : Arrival) (seq addr : Nat) (content : List Byte)
  | msgFail (t : Tick) (a : Arrival) (source : Nat)
  | msgHandover (t : Tick) (a : Arrival) (rix raster frame line : Nat)
  | decisionDeadlineMiss (t : Tick)
  | granuleSignature (t : Tick) (g : GranuleSig)
  | signatureUnmatched (t : Tick) (g : GranuleSig)
  | attributionWindowEnd (t : Tick) (output : Nat)
  | resyncLockstep (t : Tick)
  | resyncTimeout (t : Tick)
  | transferComplete (t : Tick)
  | faultNAssert (t : Tick)
  | scrubGranule (t : Tick) (granule result : Nat)
  | lockstepMismatch (t : Tick) (core : Nat)
  | controlRestartEnd (t : Tick)
  | normalInterruptRecognise (t : Tick) (cp : Nat)
  | fastInterruptRecognise (t : Tick) (cp : Nat)
  | entryCommit (t : Tick) (cp : Nat)
  | mret (t : Tick) (cp : Nat)
  | exitCommit (t : Tick) (cp : Nat)
  | gpioInputEdge (t : Tick) (pin : Nat) (level : Bool)
  | resetNAssert (t : Tick) (done : Nat)
  | resetNDeassert (t : Tick)
  | nvRecallComplete (t : Tick)
  | bootVerifyEnd (t : Tick) (ok : Bool)
  | firmwareReady (t : Tick)
  | selfTestEnd (t : Tick)
  | startupComplete (t : Tick)
  | coldstartRecall (t : Tick)
  | pciePerstN (t : Tick) (level : Bool)
  | railFault (t : Tick) (row : Nat)
  | nvPowerFail (t : Tick) (done : Nat)
  | nvWriteDone (t : Tick)
  | refreshPassStart (t : Tick)
  | refreshWord (t : Tick) (weak : List Nat) (corrected : Bool)
  | auditAppend (t : Tick)
  | tamperAlarm (t : Tick) (source : Nat)
  | tamperCountStore (t : Tick)
  | thermalSample (t : Tick) (temp : Int)
  | wakeNLow (t : Tick)
  | wakeTimer (t : Tick)
  | quietEntryEnd (t : Tick)
  | wakeEnd (t : Tick)
  | monitorWindowClose (t : Tick) (monitor bytes : Nat)
  | xferComplete (t : Tick) (id : Nat)
  | cpbLoadChecked (t : Tick)
  | exactCommaFound (t : Tick) (bundle lane : Nat)
  | eccUncorrectableError (t : Tick) (source unit addr user : Nat) (corrected : Bool)
  | datapathLockstepMismatch (t : Tick) (block : Nat)
  | endToEndCrcMismatch (t : Tick) (unit : Nat)
  | pfwNDeassert (t : Tick)
  | tamperSourceInactive (t : Tick) (source : Nat)
  | vaonPowerUp (t : Tick)
  | keyOperationEnd (t : Tick) (id : Nat)
  deriving DecidableEq, Repr

end Sys2Proof
end

