-- ==== Sys2Proof/Config.lean ====
section
/-! DEFINITION. What an implementation fixes and what the spec leaves free. Each is opaque: no proof can see its value, so a
claim holds whatever it is. -/

namespace Sys2Proof.Config

/-- The k-th free value a run draws: `State.fresh` counts them (assumption 4). -/
opaque free : Nat → Nat

/-- 16-byte device identity from the vendor area (Table 13.2 UID). -/
opaque uid : Nat → Byte

/-- OA512-CB 0 or OA512-XB 1 (Table 0.2). -/
opaque grade : Bool

/-- Firmware image version (FW_VERSION). An image is numbered by the boot that verified it: what the boot flash holds then is outside the
machine. -/
opaque fwVersion : Nat → Nat

/-- Boot ROM version (ROM_VERSION). -/
opaque romVersion : Nat

/-- Kernel library version of an image (LIB_VERSION: [31:16] major, [15:0] minor). -/
opaque libVersion : Nat → Nat

/-- SHA-384 of an image (FW_DIGEST). -/
opaque fwDigest : Nat → Nat → Byte

/-- Whether the raised-cosine table of R293 rounds w_n of a transition over N samples up to its next 2^-20, or down. -/
opaque weightUp : Nat → Nat → Bool

/-- Coefficients of one phase of SCALE's windowed sinc, whose window the spec does not state (R233): taps, the cutoff as a fraction of the
input Nyquist frequency (numerator and denominator), phase in 64ths. -/
opaque coefficients : Nat → Nat → Nat → Nat → List Int

/-- Error of COLOR's piecewise polynomials on a signal (R245), in 2^-16ths of a native code: whether they decode, the transfer code, and
the signal; taken within the bound of 2 codes. -/
opaque curveError : Bool → Nat → Nat → Int

/-- The best of the five directions of DEINT's EDGE 1 (R237), which a rule the spec does not state picks from the lines above and below: the
first components of these two lines, and the column. -/
opaque edgeSlope : (Int → Int) → (Int → Int) → Nat → Int

/-- Whether a field fits a film cadence of 2:2 or 3:2 after the fields before it, and whether its partner field is the one after it
(R237), by a test that the spec does not state: kernel version, and the samples of the field, the one before it and the one before
that, by line and column. -/
opaque cadenceFits : Nat → (Nat → Nat → Int) → (Nat → Nat → Int) → (Nat → Nat → Int) → Bool
opaque cadencePartner : Nat → (Nat → Nat → Int) → (Nat → Nat → Int) → (Nat → Nat → Int) → Bool

/-- Current version of each kernel of an image's library, and the three released before it (R219). -/
opaque kernelVersion : Nat → Nat → Nat
opaque earlierVersion : Nat → Nat → Nat → Nat

/-- Motion estimation of FRC_MC (R240, R241), whose vectors and confidences the spec does not state, from the kernel version and the samples
of two units by column, line and component: a byte of a vector bank, the confidence of a block, and the component that interpolation
along a block's vector gives at a phase in 64ths. -/
opaque vectorByte : Nat → (Nat → Nat → Nat → Nat) → (Nat → Nat → Nat → Nat) → Nat → Byte
opaque blockConfidence : Nat → (Nat → Nat → Nat → Nat) → (Nat → Nat → Nat → Nat) → Nat → Nat
opaque motionPixel : Nat → (Nat → Nat → Nat → Nat) → (Nat → Nat → Nat → Nat) → Nat → Nat → Nat → Nat → Nat

/-- ASRC output (R298, R299), whose filter and loop the spec does not state: the source period that the group measured and its phase error,
the stored input samples as times and values, and the source time of the output sample. -/
opaque asrcSample : Int → Int → List (Int × Int) → Int → Int

/-- Channel-status bit of an altering path and of a pair with no source (R319), laid out by AES3: destination rate, place in the
block, and the bit received. -/
opaque statusBit : Nat → Nat → Option Bool → Bool

/-- The multiple of its input that firmware chooses for the VCO of a house or outlet synthesizer, and the frequency offset and
phase error a synthesizer measures (Table 15.1, Table 13.11). -/
opaque vcoMultiple : Nat → Nat → Nat
opaque measured : Nat → Nat → Nat

/-- What other messages leave of the Brinen link's capacity at a tick, in MB/s (R402). -/
opaque linkRoom : Nat → Nat

/-- Level of pin KEY_WE at a tick: the board drives it, and no row of the table brings its changes (R353, R432). -/
opaque keyWe : Nat → Bool

/-- WAKE_N is low at a tick, as a SYS_WAKE_SET finds it (Table 20.5). -/
opaque wakeLow : Nat → Bool

/-- MSPI_CS_N is low at a tick, as a sleep commit point finds it (Table 20.5). -/
opaque csLow : Nat → Bool

end Sys2Proof.Config
end

