-- ==== Sys2Proof/Machine/State.lean ====
section
/-! DEFINITION. The state of the Oaras as plain data: one record per block of the spec, gathered in `State`, and
`State.reset`, the device right after RESET_N is released. A table (`Tbl`) lists only the units that differ from the
block's reset record, so the 512 outputs, 18,432 channels and 262,144 bytes of the spec need no listing at reset. -/

namespace Sys2Proof.Machine

/-- Why a step stops: no command of this device stops it, so nothing is listed and nothing raises a fault. Safe. -/
inductive Fault where
  deriving DecidableEq, Repr

/-- Why a command has no meaning. -/
inductive Refusal where
  /-- Raised by no meaning of this model; kept for an arm that is rejected by name. Safe: the model stops there. -/
  | notModelled (mnemonic : String)
  deriving DecidableEq, Repr

/-! ### Modes, start-up, faults, Quiet (chapters 0, 13, 20) -/

/-- System modes (Table 0.4). -/
inductive Mode where
  | bringup | service | test | recovery | quiet | failed
  deriving DecidableEq, Repr

/-- Start-up (Table 20.2): the stage that runs, or `done` after start-up, or `held` when firmware verification failed. -/
inductive Stage where
  | inReset | s1 | s2 | s3 | s4 | s5 | s6 | done | held
  deriving DecidableEq, Repr

/-- Progress of Quiet (R509 to R512). -/
inductive QuietPhase where
  | awake | entering | asleep | waking
  deriving DecidableEq, Repr

/-- The fault record of SYS_FAULT_READ (Table 13.2, R357), with the user of the Millpond whose read found the error (R165). -/
structure FaultRec where
  source : Nat
  unit : Nat
  modeBefore : Mode
  addr : Nat
  stc : Nat
  position : Nat
  user : Nat := 0
  deriving DecidableEq, Repr

/-- Fail-silent progress (R398): superframes still to send per transmit direction are held in the directions. `image` is the firmware image
that runs, numbered by the boot that verified it (R192). -/
structure Sys where
  mode : Mode := .bringup
  stage : Stage := .s1
  nvRecalling : Bool := true
  pcieUp : Bool := true
  coldRecall : Bool := false
  restart : Bool := false
  restartByFault : Bool := false
  restartFailed : Bool := false
  faultRestartEnd : Option Tick := none
  fault : Option FaultRec := none
  replaced : Nat := 0
  quiet : QuietPhase := .awake
  modeBefore : Mode := .bringup
  commitT : Tick := 0
  wakeT : Tick := 0
  wakeEnables : Nat := 3
  wakeTimer : Nat := 0
  wakeLatch : Nat := 0
  image : Nat := 0
  deriving DecidableEq, Repr

/-! ### Time and rasters (chapter 2) -/

/-- Where the STC takes its rate from (R48). -/
inductive Discipline where
  | houseA | houseB | crystal
  deriving DecidableEq, Repr

structure Clk where
  mono : Tick := 0
  offset : BitVec 64 := 0
  source : Discipline := .crystal
  deriving DecidableEq, Repr

/-- State of a house raster (R35). -/
inductive HouseState where
  | locked | coasting | free
  deriving DecidableEq, Repr

/-- A house raster: descriptor, position and the times of its current line and of line 1 of its current frame; a realignment that waits for
the next line start, or for the line that a LEAD has stamped (R36, R414). -/
structure House where
  desc : RasterDesc := {}
  st : HouseState := .free
  started : Bool := false
  frame : BitVec 48 := 0
  line : Nat := 1
  lineT : Tick := 0
  frameT : Tick := 0
  stepPending : Bool := false
  stepAt : Option (Nat × Nat) := none
  deriving DecidableEq, Repr

/-- An extension of an output frame (R41): the first frame of the new relation, the offset O it fixes and the frame just ended. -/
structure Extension where
  first : Nat
  newO : Nat
  ended : Nat
  deriving DecidableEq, Repr

/-- An output raster (R42): it exists while the output has a transmit group. -/
structure OutRaster where
  desc : RasterDesc := {}
  frame : BitVec 48 := 0
  o : Nat := 0
  line : Nat := 1
  lineT : Tick := 0
  frameT : Tick := 0
  started : Bool := false
  relation : Bool := false
  owed : Bool := false
  adopted : Bool := false
  ext : Option Extension := none
  deriving DecidableEq, Repr

/-! ### Lanes (chapters 4 and 5) -/

/-- Lane lock states (Table 4.5), with TEST of R126. -/
inductive LaneSt where
  | idle | hunt | confirm | seed | locked | test
  deriving DecidableEq, Repr

/-- What the FIR search does next on a lane (R113). -/
inductive FirStep where
  | preset | tap (tap : Nat) (inc : Bool) | undo (tap : Nat) (inc : Bool) | ended | restore
  deriving DecidableEq, Repr

/-- The FIR search of one lane (R113, R114): the request sent last waits for its acknowledge, `asked` is its BC, and `pre`, `main` and `post`
are what the partner's FIR was before the round. -/
structure Fir where
  step : FirStep := .ended
  waiting : Bool := false
  resent : Bool := false
  asked : Nat := 0
  requests : Nat := 0
  best : Option Nat := none
  seq : Nat := 0
  pre : Nat := 4
  main : Nat := 47
  post : Nat := 12
  deriving DecidableEq, Repr

/-- Receive settings that the status words show at reset (Table 5.9), before any are applied. -/
def unsetRx : RxSet := { peak := 0, interp := 0 }

/-- A test pattern on a lane (R126, R127): the bits that a generator has sent, or the register of a checker that is synchronised. -/
structure Prbs where
  pattern : Nat
  invert : Bool
  sent : Nat := 0
  reg : Option Nat := none
  deriving DecidableEq, Repr

/-- A receive lane: its state with the state it had before its last change and the time of that change (R101), the runs of Table 4.5, its
settings and search, the errors and the number of superframes of the dwell in progress (R113), and the superframe that it completed
last. -/
structure RxLane where
  st : LaneSt := .idle
  stWas : LaneSt := .idle
  stT : Tick := 0
  confirms : Nat := 0
  missRun : Nat := 0
  crcRun : Nat := 0
  sfcRun : Nat := 0
  seedRun : Nat := 0
  seedSfc : Option Nat := none
  seedOk : Bool := false
  sfc : Nat := 0
  cleanRun : Nat := 0
  withdrawn : Bool := false
  bcIn : Nat := 0
  set : RxSet := unsetRx
  saved : RxSet := unsetRx
  atLimit : Bool := false
  prbs : Option Prbs := none
  fir : Fir := {}
  partnerPre : Nat := 4
  partnerMain : Nat := 47
  partnerPost : Nat := 12
  dwell : Nat := 0
  dwellN : Nat := 0
  held : Option Superframe := none
  delivered : Bool := false
  arrival : Nat := 0
  deriving DecidableEq, Repr

/-- Training phases (Table 5.3), with the wait between rounds. -/
inductive TrainPhase where
  | none | waitClk | rxAdapt | acquire | fir | verify | waiting
  deriving DecidableEq, Repr

/-- A receive direction (R84); the lanes in order. -/
structure RxDir where
  enable : Bool := true
  mask : Nat := 255
  rate : Nat := 0
  trainAuto : Bool := true
  adapt : Bool := true
  expectBase : Option Nat := none
  spread : Nat := 0
  dll : Bool := false
  asleep : Bool := false
  loopback : Nat := 0
  phase : TrainPhase := .none
  phaseT : Tick := 0
  fails : Nat := 0
  noPartner : Bool := false
  trained : Nat := 0
  lanes : List RxLane := List.replicate 8 {}
  deriving DecidableEq, Repr

/-- A transmit lane: its FIR (R105) and whether that came from a TRAINED record (R129), the request sequence last taken and the request
that its next superframe applies (R109), the back-channel value it sends, the last two superframes it sent, newest first, and the elastic
buffer of the far-end path, oldest first (R125). -/
structure TxLane where
  pre : Nat := 0
  main : Nat := 47
  post : Nat := 0
  fromRecord : Bool := false
  lastSeq : Option Nat := none
  request : Option Nat := none
  training : Bool := false
  changed : Bool := false
  bcOut : Nat := 0
  prbs : Option Prbs := none
  sent : List Superframe := []
  loop : List Superframe := []
  deriving DecidableEq, Repr

/-- Why a transmit direction sends WITHDRAWN superframes before it goes idle (R122, R398, R416). -/
inductive WithdrawFor where
  | sleep | fail | retune | quiet
  deriving DecidableEq, Repr

/-- What a transmit direction sends. -/
inductive TxPhase where
  | idle | sending | withdrawing (left : Nat) (why : WithdrawFor)
  deriving DecidableEq, Repr

/-- A transmit direction. -/
structure TxDir where
  enable : Bool := true
  mask : Nat := 255
  rate : Nat := 0
  swing : Nat := 80
  trainAuto : Bool := true
  adapt : Bool := true
  asleep : Bool := false
  phase : TxPhase := .sending
  sfc : Nat := 0
  loopback : Nat := 0
  lanes : List TxLane := List.replicate 8 {}
  deriving DecidableEq, Repr

/-! ### Streams (chapter 3) -/

/-- A segment of a frame as it entered (R62, R66): active line from 0, first pixel, native components. -/
structure Segment where
  frame : Nat
  line : Nat
  pixel0 : Nat
  comps : List Nat
  deriving DecidableEq, Repr

/-- An ANC packet that arrived at `t` in a source frame, after active line `after` had begun, with its header symbol. -/
structure AncPacket where
  frame : Nat
  after : Nat
  t : Tick
  symbols : List Nat
  deriving DecidableEq, Repr

/-- The newest AUD block of a stream or an output: its frame, its order there, and the symbols of its samples and side bits (R389). -/
structure AudBlock where
  frame : Nat
  order : Nat := 0
  symbols : List Nat := []
  deriving DecidableEq, Repr

/-- The active line that an output sent last, from 1: its codes and the ANC packets that go with it (R389). -/
structure SentLine where
  frame : Nat
  line : Nat
  codes : List Nat := []
  anc : List (List Nat) := []
  deriving DecidableEq, Repr

/-- What a decision reads of a stream (R20, R21). -/
structure RxView where
  present : Bool := false
  stale : Bool := false
  formatOk : Bool := true
  marked : Bool := false
  frame : Nat := 0
  markT : Tick := 0
  period : Nat := 0
  deriving DecidableEq, Repr

/-- A receive lane group and its input raster (R43, R71, R72): `ending` while the stream of an old group that a change of G ended
waits for its next superframe boundary (R363), `got` counts the samples of the frame in progress, `missed` lists the
lanes with an adaptation step due and not taken in it (R121), `lap` the frames that went by since the last marker without one of their
own, `phaseA` and `phaseB` the phase against each house raster metered at the marker (R20), `pix` and `anc` the content of the last
three frames, an ANC packet with its arrival; `audT` the times of each slot's recent blocks (R75), and `views` what decisions saw before
each recent change (R21). -/
structure RxStream where
  cfg : StreamSetP
  ending : Bool := false
  present : Bool := false
  cleanRun : Nat := 0
  skew : Bool := false
  marked : Bool := false
  fmt : RasterDesc := {}
  frame : Nat := 0
  line : Nat := 0
  markT : Tick := 0
  markStc : BitVec 64 := 0
  period : Nat := 0
  stale : Bool := false
  formatOk : Bool := true
  lastLine : Nat := 0
  nextPixel : Nat := 0
  frameGood : Bool := false
  fieldGood : Bool := false
  got : Nat := 0
  missed : List Nat := []
  pix : List Segment := []
  anc : List AncPacket := []
  crypt : Option Nat := none
  cryptNext : Option (Option Nat) := none
  keyDead : Bool := false
  audT : Tbl (List (Int × Int)) := []
  lap : Nat := 0
  phaseA : Int := 0
  phaseB : Int := 0
  views : List (Tick × RxView) := []
  aud : Option AudBlock := none
  deriving DecidableEq, Repr

/-- A transmit lane group: the output of R17, with the packets that wait for a superframe, oldest first (R59), and the dither generator
(R68). -/
structure TxStream where
  cfg : StreamSetP
  crypt : Option Nat := none
  cryptNext : Option (Option Nat) := none
  keyDead : Bool := false
  idle : Bool := true
  withdrawLeft : Nat := 0
  dither : Nat := 0
  queue : List (List Nat) := []
  sent : Option SentLine := none
  aud : Option AudBlock := none
  deriving DecidableEq, Repr

/-! ### Command protocol (chapters 12 and 13) -/

/-- A status reply (Table 12.10). -/
structure Reply where
  seq : Nat
  tag : Nat
  status : Nat
  detail : Nat
  position : Nat
  stc : Nat
  deriving DecidableEq, Repr

/-- A completion queue entry or queue 8 reply entry (Table 12.7). -/
structure CqEntry where
  reply : Reply
  queue : Nat
  phase : Bool
  deriving DecidableEq, Repr

/-- Registers and packets of one command queue (Tables 12.3, 12.5, 12.6 and 18.1). -/
structure Queue where
  enable : Bool := false
  stopping : Bool := false
  irqEn : Bool := false
  vector : Nat := 0
  error : Bool := false
  errCause : Nat := 0
  dbErr : Bool := false
  stall : Bool := false
  sqHead : Nat := 0
  sqTail : Nat := 0
  ring : List Packet := []
  cqBase : Nat := 0
  cqSize : Nat := 6
  cqHead : Nat := 0
  cqTail : Nat := 0
  phase : Bool := true
  entries : List CqEntry := []
  heldReplies : List Reply := []
  lastSeq : BitVec 32 := 0
  macSlot : Option Nat := none
  macSeq : Option (BitVec 32) := none
  deriving DecidableEq, Repr

/-- What a job waits for. -/
inductive JobKind where
  /-- an effect at a line of a raster; `none` of the frame means the next frame start -/
  | apply
  /-- an immediate command of a pair, executed at its stamped line (R387) -/
  | exec
  /-- an immediate command that an event completes -/
  | event
  /-- an action that fell due in Quiet: it completes CANCELLED, detail 4, after the wake (R513) -/
  | parked
  deriving DecidableEq, Repr

/-- A command between its execution point and its completion: an action of the scheduled-action table (`sched`), an
immediate command that waits for its boundary, or one that waits for an event. -/
structure Job where
  id : Nat
  kind : JobKind
  queue : Nat
  seq : Nat
  tag : Nat
  early : Bool := false
  sched : Bool := false
  silent : Bool := false
  raster : Nat := 0
  frame : Option Nat := none
  line : Nat := 1
  armLines : Nat := 2
  params : Params
  aux : List Nat := []
  rix : Option Nat := none
  verdict : Option Nat := none
  committed : Bool := true
  hdr : Hdr := {}
  deadline : Option Tick := none
  res : Option Res := none
  result : List Byte := []
  preset : Option PresetBody := none
  deriving DecidableEq, Repr

/-- The management SPI port (R331, R332). -/
structure Spi where
  buffer : Option Packet := none
  overrun : Bool := false
  crcErr : Bool := false
  fifo : List (List Byte) := []
  deriving DecidableEq, Repr

/-- What leaves the device, newest first: a record kept for the reader of a run. No rule reads it. -/
inductive Out where
  | msix (vector : Nat)
  | dma (queue addr : Nat) (bytes : List Byte)
  | spi (bytes : List Byte)
  | read (value : Nat)
  | brinen (kind : Nat) (body : List Nat)
  | flatten (output run flattener : Nat)
  | faultN (low : Bool)
  | superframe (bundle : Nat) (lanes : List (Nat × Superframe))
  | pattern (bundle lane pattern : Nat) (invert : Bool) (from_ : Nat)
  | aud (output block : Nat) (samples : List (Int × Nat))
  | tdm (port : Nat) (bits : List (Option Bool))
  | layer0 (output frame shows : Nat)
  | repeatCorrection (addr : Nat)
  | kernelReloaded (engine version : Nat)
  deriving DecidableEq, Repr

/-! ### Control Hub (chapter 18) -/

/-- State of an interrupt source (R483). -/
inductive SrcSt where
  | idle | pending | active | activePending
  deriving DecidableEq, Repr

/-- An interrupt source: target mask ([0] CP_A, [1] CP_B, [2] HOST), class and claimant. -/
structure Source where
  st : SrcSt := .idle
  mask : Nat := 0
  fast : Bool := false
  claimant : Nat := 3
  deriving DecidableEq, Repr

/-- Where a core stands between handlers (R487). -/
inductive CoreSeq where
  | run
  | entryNormal
  | entryFast (id : Nat) (chained : Bool)
  | exitNormal (chain : Option Nat)
  | exitFast (chain : Option Nat)
  deriving DecidableEq, Repr

/-- The processor state that R486 to R488 name, for CP_A and CP_B. -/
structure Core where
  running : Bool := true
  fresh : Bool := true
  priv : Nat := 3
  pc : BitVec 64 := 0
  mepc : BitVec 64 := 0
  mcause : BitVec 64 := 0
  mtval : BitVec 64 := 0
  mstatus : BitVec 64 := 0
  mtvec : BitVec 64 := 0
  mie : BitVec 64 := 0
  mfepc : BitVec 64 := 0
  mfstatus : BitVec 64 := 0
  mftvec : BitVec 64 := 0
  bank : Tbl (BitVec 64) := []
  shadow : Tbl (BitVec 64) := []
  inFast : Bool := false
  fastId : Option Nat := none
  seq : CoreSeq := .run
  deriving DecidableEq, Repr

/-- A counter latch (CNT_SEL, CNT_VAL, CNT_STC). -/
structure CntLatch where
  sel : Nat := 0
  value : Nat := 0
  ovf : Bool := false
  stc : BitVec 64 := 0
  deriving DecidableEq, Repr

/-- A GPIO pin (R375, R479). -/
structure Gpio where
  dir : Nat := 0
  level : Bool := false
  input : Bool := false
  cpb : Bool := false
  edgeStc : Nat := 0
  edgeLevel : Bool := false
  deriving DecidableEq, Repr

structure Hub where
  srcs : Tbl Source := []
  claimHost : Nat := 1023
  claimA : Nat := 1023
  claimB : Nat := 1023
  cpA : Core := {}
  cpB : Core := { running := false }
  sqBase8 : Nat := 0
  sqSize8 : Nat := 4096
  rrBase8 : Nat := 0
  sram : List Host.Cell := []
  timecmp : Nat := 0
  armed : Bool := false
  fired : Bool := false
  gpio : Tbl Gpio := []
  stcLatch : Nat := 0
  latchHost : CntLatch := {}
  latchB : CntLatch := {}
  msix : Tbl Nat := []
  pba : Tbl Bool := []
  msixT : Tbl Nat := []
  deriving DecidableEq, Repr

/-! ### Counters (chapter 19) -/

/-- An event counter: 48-bit value and sticky overflow (R493). -/
structure Counter where
  value : BitVec 48 := 0
  ovf : Bool := false
  deriving DecidableEq, Repr

/-- A bandwidth monitor (R497): its settings, whether a window is open and the line starts left in it, when the window began, when
a window that is due to be stored ended, and the window stored last. -/
structure Monitor where
  running : Bool := false
  port : Nat := 0
  raster : Nat := 0
  lines : Nat := 0
  open_ : Bool := false
  left : Nat := 0
  startStc : BitVec 64 := 0
  edge : BitVec 64 := 0
  lastBytes : Nat := 0
  lastStart : BitVec 64 := 0
  lastEnd : BitVec 64 := 0
  due : Bool := false
  deriving DecidableEq, Repr

structure Cnt where
  live : Tbl Counter := []
  frozen : Option (Tbl Counter × BitVec 64) := none
  mons : Tbl Monitor := []
  deriving DecidableEq, Repr

/-! ### Redundant pair (chapter 14) -/

inductive Role where
  | solo | lead | mate
  deriving DecidableEq, Repr

inductive Sync where
  | apart | resync | lockstep
  deriving DecidableEq, Repr

/-- A route class or flip bitmap or Leat decision received from the LEAD, or its own; `run` is what a LEAD's judgement left (R141). -/
structure Decision where
  kind : Nat
  unit : Nat
  key : Nat
  value : Nat
  extra : Nat := 0
  run : Nat := 0
  deriving DecidableEq, Repr

/-- The redundant pair: role and link, the last HELLO with how far its house counts lie ahead of the own, the partner's FC field,
the counts of PAIR_STATUS, decisions received, granule signatures of both members, the partner's usable transmit keys, tainted
content (kind, unit, frame), attribution windows, the frame from which each output has matched, the time from which the 10 s of a resynchronisation count, slot
content CRCs (own or the partner's), the snapshot received, and the commands forwarded behind it. -/
structure Pair where
  role : Role := .solo
  authority : Bool := false
  up : Bool := false
  sync : Sync := .apart
  hello : Option HelloBody := none
  deltaA : Int := 0
  deltaB : Int := 0
  adopt : Bool := false
  conflict : Bool := false
  mateFw : Nat := 0
  mateLib : Nat := 0
  mateFailed : Bool := false
  mateFc : Nat := 0
  inMismatch : Nat := 0
  outMismatch : Nat := 0
  lastStc : Nat := 0
  forwarded : Nat := 0
  nextRix : Nat := 0
  received : List Decision := []
  own : List (GranuleSig × Tick) := []
  partner : List (GranuleSig × Tick) := []
  partnerKeys : List Nat := []
  taint : List (Nat × Nat × Nat) := []
  windows : Tbl (Option Tick) := []
  lastBad : Tbl Nat := []
  resyncT : Tick := 0
  crcs : List (Nat × Nat × Bool) := []
  seqIn : Nat := 0
  snapshot : List CmdBody := []
  snapRix : Nat := 0
  snapReady : Bool := false
  after : List CmdBody := []
  deriving DecidableEq, Repr

/-! ### Clocks (chapter 15) -/

structure Ref where
  enable : Bool := false
  lineSync : Bool := false
  fsFall : Bool := false
  scale : Nat := 0
  freqHz : Nat := 0
  present : Bool := false
  everPresent : Bool := false
  returned : Bool := false
  fsMissing : Bool := false
  deriving DecidableEq, Repr

/-- What the last band choice of a synthesizer rested on (R419). -/
inductive BandFrom where
  | none | table | stored | search
  deriving DecidableEq, Repr

/-- A synthesizer: settings of SYNTH_SET and BAND_TABLE_SET, then its lock, retune and phase state. -/
structure Synth where
  policy : Nat := 0
  bw : Nat := 100
  slew : Nat := 0
  lockN : Nat := 1024
  lossM : Nat := 64
  window : Nat := 1000
  spread : Nat := 0
  sscKhz : Nat := 0
  phaseMode : Nat := 0
  freq : Nat := 0
  ceiling : Option Nat := none
  table : List (Nat × Nat) := []
  locked : Bool := false
  everLocked : Bool := false
  lost : Bool := false
  retuning : Bool := false
  searching : Bool := false
  band : Nat := 0
  bandFrom : BandFrom := .none
  retunes : Nat := 0
  lockT : Tick := 0
  history : Bool := false
  aligned : Bool := false
  buildout : Int := 0
  slewLeft : Int := 0
  slewing : Bool := false
  phaseErr : Int := 0
  policyChanged : Bool := false
  bypass : Bool := false
  phaseKnown : Bool := false
  deriving DecidableEq, Repr

/-- A clock output: `synth` 0 while no CLKOUT_SET has assigned it; the delay it moves from, since `delayT` (R424). -/
structure ClkOut where
  synth : Nat := 0
  enable : Bool := false
  divider : Nat := 1
  delay : Nat := 0
  oldDelay : Nat := 0
  delayT : Tick := 0
  resetT : Tick := 0
  deriving DecidableEq, Repr

structure Clocks where
  fabricLocked : Bool := true
  refs : Tbl Ref := []
  synths : Tbl Synth := []
  outs : Tbl ClkOut := []
  stepsReplaced : Nat := 0
  deriving DecidableEq, Repr

/-! ### Keys and tamper (chapter 16) -/

/-- A key slot (Table 16.1): STATE 0 empty, 1 valid, 2 revoked, 3 zeroised; PARENT 255 for none. -/
structure Slot where
  key : Nat := 0
  usage : Nat := 0
  parent : Nat := 255
  st : Nat := 0
  gen : BitVec 32 := 0
  deriving DecidableEq, Repr

/-- A running derivation or attestation (R435): the job it completes and the slot whose key it uses. -/
structure KeyOp where
  job : Nat
  slot : Nat
  parent : Nat
  derive_ : Bool
  key : Nat
  changed : Bool := false
  result : List Byte := []
  deriving DecidableEq, Repr

structure Keys where
  slots : Tbl Slot := []
  ops : List KeyOp := []
  latched : Nat := 0
  latchStc : Nat := 0
  pendingCount : Nat := 0
  enables : Nat := 127
  active : Nat := 0
  used : List (Nat × Nat × Nat) := []
  deriving DecidableEq, Repr

/-! ### Parameter Store (chapter 17) -/

/-- What a page write or byte program is for, so that its end can complete its command. -/
inductive NvFor where
  | command (job : Nat)
  | lastOf (job : Nat)
  | record
  | audit (entry : List Byte) (key pos : Nat)
  | refresh
  deriving DecidableEq, Repr

/-- A write in the order firmware issued it: the address, the bytes, and how many are programmed. -/
structure NvWrite where
  addr : Nat
  bytes : List Byte
  done : Nat := 0
  why : NvFor
  deriving DecidableEq, Repr

/-- An audit entry that waits to be appended (Table 17.6). -/
structure AuditEntry where
  kind : Nat
  arg : Nat := 0
  a : Nat := 0
  b : Nat := 0
  stc : Nat
  key : Option Nat := none
  deriving DecidableEq, Repr

structure Nv where
  cells : List Host.Cell := []
  writes : List NvWrite := []
  stopped : Bool := false
  audit : List AuditEntry := []
  auditLost : Nat := 0
  newest : Option Nat := none
  nextSeq : Nat := 0
  chain : List Byte := List.replicate 32 0
  refresh : Option Nat := none
  torn : List Nat := []
  deriving DecidableEq, Repr

/-! ### Pins (chapter 21) -/

/-- Instructions of the JTAG port (R530). -/
inductive Jtag where
  | bypass | idcode | sample | extest | clamp | highZ | extestPulse | extestTrain
  deriving DecidableEq, Repr

/-- FAULT_N: high impedance until stage 2 has passed, then driven (R503). -/
inductive FaultPin where
  | hiZ | high | low
  deriving DecidableEq, Repr

structure Pins where
  faultN : FaultPin := .hiZ
  resetN : Bool := true
  thermLow : Bool := false
  pfwLow : Bool := false
  perstLow : Bool := false
  hotRun : Nat := 0
  temp : Int := 25
  jtag : Jtag := .idcode
  deriving DecidableEq, Repr

/-! ### Routes (chapter 6) -/

/-- A capture writer's frame in progress: slot, source frame count, line 1, and whether every segment so far arrived. -/
structure Writing where
  slot : Nat
  frame : Nat
  good : Bool := true
  deriving DecidableEq, Repr

/-- A complete frame of a reservation's ring: slot, source frame count, completion and line 1 on the monotonic count. -/
structure RingFrame where
  slot : Nat
  frame : Nat
  doneT : Tick
  line1T : Tick
  deriving DecidableEq, Repr

/-- What the format check of Table 6.5 compares; `fmt` is a memory format code, whose first five are the packing modes. -/
structure Fmt where
  w : Nat
  h : Nat
  tl : Nat
  rate : Nat
  scan : Nat
  fmt : Nat
  deriving DecidableEq, Repr

/-- A SYNC reservation (R144): its capture writer and playout reader groups, its ring in the Millpond with the format it was made for,
when its source last became absent (R148), and the complete frames there, newest first. -/
structure Resv where
  cw : Nat
  pb : Nat
  g : Nat
  base : Nat
  size : Nat
  slots : Nat
  slotSize : Nat
  fmt : Fmt
  stopT : Option Tick := none
  writing : Option Writing := none
  done : List RingFrame := []
  deriving DecidableEq, Repr

/-- Route class, coded as in Table 6.7. -/
inductive Cls where
  | unrouted | cut | sync | none
  deriving DecidableEq, Repr

/-- The route of a destination group, keyed by its first destination point: `shown` is the source frame that layer 0 shows, `lost`
the samples of it that the elastic store lost (frame, line, first pixel, count), `badT` when a marker of another format came (R141). -/
structure Route where
  src : Nat
  g : Nat
  syncRes : Bool := false
  forceSync : Bool := false
  autoCut : Bool := false
  extra : Nat := 0
  cls : Cls := .none
  run : Nat := 0
  formatOk : Bool := true
  lead : Nat := 0
  latency : Nat := 0
  loss : Nat := 1
  resv : Option Resv := none
  last : Option Nat := none
  played : Option Nat := none
  shown : Option Nat := none
  lost : List (Nat × Nat × Nat × Nat) := []
  badT : Option Tick := none
  deriving DecidableEq, Repr

/-- A route entry that waits for its frame start (R137): `due` once the named position has been reached. -/
structure RouteWait where
  job : Nat
  entry : RouteEntry
  resv : Option Resv := none
  keep : Bool := false
  due : Bool := true
  immediate : Bool := true
  fromFrame : Nat := 0
  deriving DecidableEq, Repr

/-- Loss behaviour of an output (R151, R152), the class of its route in the frame before (R149), and the engines on its path then
(R304: a migration that switched has changed them). -/
structure Loss where
  policy : Nat := 0
  limit : Nat := 0
  inLoss : Bool := false
  heldRun : Nat := 0
  cls : Cls := .unrouted
  path : List Nat := []
  deriving DecidableEq, Repr

/-- The Millrace: routes, waiting entries, loss behaviour, the recall report, and the routes that engine inputs had before each recent
take (R205). -/
structure Routes where
  routes : Tbl (Option Route) := []
  waits : List RouteWait := []
  losses : Tbl Loss := []
  recalling : Bool := false
  report : Option (Nat × Nat × Nat) := none
  skipped : Nat := 0
  past : List (Tick × Nat × Option Route) := []
  deriving DecidableEq, Repr

/-! ### Millpond and Weir (chapter 7) -/

/-- A buffer object (R163, R171): parameters, address, rounded size, and the tag of the stream captured into each slot, none
for a slot that no capture wrote (R266). -/
structure Buf where
  params : BufParams
  addr : Nat
  size : Nat
  tags : Tbl (Option Nat) := []
  deriving DecidableEq, Repr

/-- A charge the Weir holds: the user kind (row of Table 7.5, 8 for host windows), who holds it, and MB/s. -/
structure Charge where
  kind : Nat
  holder : Nat
  sub : Nat := 0
  mb : Nat
  deriving DecidableEq, Repr

/-- A capture bind: the frame in progress, the slot written last, the source frame begun last with that instant, and the one begun before that
instant (R256). -/
structure CapBind where
  p : CaptureBindP
  writing : Option Writing := none
  lastSlot : Option Nat := none
  lastFrame : Option Nat := none
  lastT : Tick := 0
  prevFrame : Option Nat := none
  job : Option Nat := none
  stopped : Bool := false
  deriving DecidableEq, Repr

/-- A playout bind: the slot its reader shows, the frame it showed last, whether it showed one before each recent choice (R21), the last
frames shown with their slots, and how many lines of the frame in progress the reader has emitted. -/
structure PlayBind where
  p : PlayoutBindP
  slot : Option Nat := none
  last : Option Nat := none
  shows : List (Nat × Nat) := []
  sent : Nat := 0
  past : List (Tick × Bool) := []
  deriving DecidableEq, Repr

/-- A host window transfer in progress (R179). -/
structure Xfer where
  job : Nat
  p : BufXferP
  buf : Nat
  toDevice : Bool
  torn : Bool := false
  deriving DecidableEq, Repr

/-- The Millpond: memory, objects, the Weir's charges, binds and transfers; the patrol scrub with the granules it corrected in this pass
and the last, and the address of the latest repeat correction (R166). -/
structure Pond where
  mem : List Host.Cell := []
  bufs : Tbl (Option Buf) := []
  gens : Tbl Nat := []
  charges : List Charge := []
  caps : Tbl (Option CapBind) := []
  plays : Tbl (Option PlayBind) := []
  xfers : List Xfer := []
  scrubAt : Nat := 0
  scrubNow : List Nat := []
  scrubLast : List Nat := []
  repeatAt : Option Nat := none
  deriving DecidableEq, Repr

/-! ### Engines (chapters 8 and 9) -/

/-- A unit of a captured task's history (R224): its slot, source frame, field, start and completion on the monotonic count, whether its
motion estimation is done (R240), the line on which its frame's second field starts, and how many fields up to it have matched a film
cadence, with the side its partner field lies on (R237). -/
structure HUnit where
  slot : Nat
  frame : Nat
  field : Nat := 0
  start : Tick
  done : Tick
  est : Bool := true
  f2 : Nat := 1
  cadence : Nat := 0
  partnerNext : Bool := false
  deriving DecidableEq, Repr

/-- The input frame that an output frame consumes (R202): its source point and frame count, and the slot and layout it is read from where
a reservation plays it. -/
structure Fed where
  src : Nat
  frame : Nat
  slot : Option (Nat × Fmt) := none
  deriving DecidableEq, Repr

/-- An output frame of a task: its count, whether it is present, the kernel block that makes it, the frames its timed inputs consume, and of
a captured kernel the units in use and the phase alpha in 64ths (R202, R225). -/
structure Made where
  frame : Nat
  present : Bool
  block : KBlock
  fed0 : Option Fed := none
  fed1 : Option Fed := none
  a : Option HUnit := none
  b : Option HUnit := none
  alpha : Nat := 0
  deriving DecidableEq, Repr

/-- A task (R195), keyed by its first engine: parameters, added latency A (R223), the latency it reports (R203), the output frame
in progress, and for a captured kernel its history and the units in use (R225). `lost` lists the units newer than the last used one whose
slots the writer took again, `made` what its last frames are made from, newest first, `sent` the lines of the frame in progress that its
output has emitted, and `past` whether the output was present before each recent change. -/
structure Task where
  p : KernelBindP
  added : Nat := 0
  latency : Nat := 0
  loaded : Bool := false
  job : Option Nat := none
  present : Bool := false
  cause : Nat := 1
  started : Bool := false
  frame : Nat := 0
  eoT : Int := 0
  history : List HUnit := []
  lost : List HUnit := []
  writing : Option Writing := none
  lastSlot : Option Nat := none
  f2 : Nat := 0
  lastA : Option HUnit := none
  useB : Option HUnit := none
  made : List Made := []
  sent : Nat := 0
  mvBank : Nat := 0
  migrate : Option (Nat × Nat) := none
  past : List (Tick × Bool) := []
  deriving DecidableEq, Repr

/-- State of an engine (Table 8.6). -/
inductive EngSt where
  | free | bound | spare | shadow
  deriving DecidableEq, Repr

structure Engine where
  st : EngSt := .free
  first : Nat := 0
  ceiling : Nat := 0
  version : Nat := 0
  kernel : Nat := 0
  verified : Bool := false
  slice : Option Tick := none
  deriving DecidableEq, Repr

structure Engines where
  eng : Tbl Engine := []
  tasks : Tbl (Option Task) := []
  deriving DecidableEq, Repr

/-! ### Compositing (chapter 10) -/

/-- The attributes of an overlay layer (R251, R252): `tag` none until a LAYER_SET sets it, `crop` none while it is whole. -/
structure LayerAttr where
  enable : Bool := false
  follow : Bool := false
  z : Nat := 1
  tag : Option Nat := none
  x : Int := 0
  y : Int := 0
  crop : Option (Nat × Nat × Nat × Nat) := none
  galpha : Nat := 4096
  buf : Option Nat := none
  slot : Nat := 0
  deriving DecidableEq, Repr

/-- Sluice states (Table 10.4). -/
inductive Sluice where
  | idle | pending | applying | flattening
  deriving DecidableEq, Repr

/-- A flip in a Sluice: the job it completes, decisions taken and deferrals so far, and when an immediate command placed it, none for one
that is scheduled at the decision line itself (R264, R266). -/
structure Flip where
  job : Nat
  p : LayerFlipP
  decisions : Nat := 0
  defer : Nat := 0
  chosen : Nat := 0
  follow : Bool := false
  sinceT : Option Tick := none
  deriving DecidableEq, Repr

/-- An overlay layer: attributes, group, Sluice, and the source frame that a line ring shows (R256). -/
structure Layer where
  a : LayerAttr := {}
  group : Option Nat := none
  sluice : Sluice := .idle
  pend : Option Flip := none
  decided : Option Flip := none
  lastFlip : Nat := 0
  ringF : Option Nat := none
  deriving DecidableEq, Repr

/-- A change of a static layer that waits for a flatten in progress (R279). -/
structure StaticChange where
  job : Nat
  layer : Nat
  a : LayerAttr
  deriving DecidableEq, Repr

/-- A flatten in progress (R275 to R278): first frame B, the buffer it builds in, the layers it builds from, the jobs that
contributed, its flattener, and its result once complete (0 OK, else the rejection status). -/
structure Flatten where
  first : Nat
  into : Nat
  from_ : List (Nat × LayerAttr)
  jobs : List Nat
  flattener : Nat
  result : Option Nat := none
  newCharge : Nat := 0
  deriving DecidableEq, Repr

/-- A static run (R273 to R279): its definition; the buffer of the shown image, the Z it is blended at and the layers it was
built from; the layers still shown one by one, as they were (R277); the attributes a rejection restores (R278), and the definition
(Z range, buffers) that a STATIC_SET replaced, none in it for a new run (R23); the flatten that is wanted or in progress, and the
changes that wait for it. -/
structure StaticRun where
  zlo : Nat
  zhi : Nat
  bufA : Nat
  bufB : Nat
  shown : Option Nat := none
  zAt : Nat := 1
  built : List (Nat × LayerAttr) := []
  indiv : List (Nat × LayerAttr) := []
  prior : List (Nat × LayerAttr) := []
  was : Option (Option (Nat × Nat × Nat × Nat)) := none
  want : Bool := false
  wantT : Tick := 0
  waited : Bool := false
  wantJobs : List Nat := []
  flat : Option Flatten := none
  waiting : List StaticChange := []
  deriving DecidableEq, Repr

/-- The compositor of one output: DL, layers 1 to 7, two static runs, whether an overlay is active in the frame in progress, and in a
pair whether the pipeline is engaged in it and for which frame ahead (R142). -/
structure CompOut where
  dl : Nat := 2
  layers : List Layer := (List.range 7).map fun i => { a := { z := i + 1 } }
  runs : List (Option StaticRun) := [none, none]
  decisionFor : Option Nat := none
  active : Bool := false
  engaged : Bool := false
  engagedFor : Option Nat := none
  deriving DecidableEq, Repr

structure Fence where
  value : BitVec 32 := 0
  stamp : Nat := 0
  point : Option Nat := none
  discarded : Nat := 0
  stampT : Tick := 0
  prev : BitVec 32 := 0
  deriving DecidableEq, Repr

/-- An atomic group (R270): `taking` lists the members that have still to take the decision, each with whether its own
decision line has come at or after the group's. -/
structure Group where
  members : List (Nat × Nat) := []
  flip : Bool := false
  taking : List (Nat × Nat × Bool) := []
  deriving DecidableEq, Repr

structure Comp where
  outs : Tbl CompOut := []
  fences : Tbl Fence := []
  groups : Tbl Group := []
  flatteners : Tbl (Option (Nat × Nat)) := []
  deriving DecidableEq, Repr

/-! ### Audio (chapter 11). Times in 1/196 of a tick, in which every sample period of Table 11.2 is whole. -/

/-- A stored source sample (R284, R294): source time, arrival, value, the V, U, C, Z bits that travel with it, its place in the
channel-status block, and whether its pair is non-audio there (R317). -/
structure Samp where
  t : Int
  arrived : Tick
  value : Int
  side : Nat := 0
  pos : Option Nat := none
  non : Bool := false
  deriving DecidableEq, Repr

structure AudRoute where
  src : Nat
  gain : Int := 0
  invert : Bool := false
  mute : Bool := false
  deriving DecidableEq, Repr

/-- A transition of R293 and what follows its last sample. -/
structure Trans where
  old : Int
  new : Int
  n : Nat
  len : Nat
  deriving DecidableEq, Repr

structure AudPend where
  job : Nat
  entry : AudioEntry
  commitT : Tick
  deriving DecidableEq, Repr

/-- A destination channel: route, effective coefficient, transition, and the underrun state of R295; `ready` once data has returned at a
block boundary, until the first available sample is due. -/
structure Dst where
  route : Option AudRoute := none
  next : Option (Option AudRoute) := none
  e : Int := 0
  trans : Option Trans := none
  pend : List AudPend := []
  last : Int := 0
  lastSrc : Option Int := none
  under : Nat := 0
  zeroing : Option Nat := none
  heldZero : Bool := false
  ready : Bool := false
  unfit : Bool := false
  muting : Bool := false
  cutNon : Bool := false
  served : Option Int := none
  out : List (Int × Nat) := []
  deriving DecidableEq, Repr

/-- A domain (R286): per house the offset followed, the offset of the last sample, the run of samples within a quarter period,
and whether locked. -/
structure Domain where
  offA : Int := 0
  offB : Int := 0
  lastA : Int := 0
  lastB : Int := 0
  runA : Nat := 0
  runB : Nat := 0
  lockA : Bool := false
  lockB : Bool := false
  lastT : Option Tick := none
  deriving DecidableEq, Repr

inductive AsrcSt where
  | acquire | locked | range
  deriving DecidableEq, Repr

/-- A bound ASRC group (R297 to R299): its state and since when, whether it was locked before, and for the ratio the time of the
last block of its source, that block's samples, the source period measured and the phase error (1/196 tick). -/
structure Asrc where
  p : AsrcBindP
  inRate : Nat
  st : AsrcSt := .acquire
  sinceT : Tick := 0
  wasLocked : Bool := false
  lastT : Option Int := none
  lastN : Nat := 0
  per : Int := 0
  phase : Int := 0
  deriving DecidableEq, Repr

/-- Embedded audio of an output (R302 to R306): binding, applied and earlier lip-sync delay, when the change takes effect, whether
the ring is too short, the last block sent, and for the ring header the grid index of frame 0 and the frames written. -/
structure Embed where
  p : Option AudioEmbedP := none
  da : Nat := 0
  oldDa : Nat := 0
  fadeFrom : Option Int := none
  overflow : Bool := false
  sent : Option Int := none
  origin : Int := 0
  wr : Nat := 0
  deriving DecidableEq, Repr

structure MaskWait where
  job : Nat
  p : AportMaskP
  commitT : Tick
  deriving DecidableEq, Repr

/-- A TDM port (R307 to R312). -/
structure TdmPort where
  cfg : Option AportSetP := none
  next : Option AportSetP := none
  jobs : List Nat := []
  stopping : Bool := false
  framed : Bool := false
  good : Nat := 0
  bad : Nat := 0
  lastEdge : Option Tick := none
  frames : Nat := 0
  opened : Bool := false
  fade : Tbl Nat := []
  tail : List (Option Bool) := []
  masks : List MaskWait := []
  deriving DecidableEq, Repr

/-- A ring binding (R314): for a record binding the grid index of ring frame 0, and the frames written. -/
structure RingBind where
  p : AudioRingBindP
  origin : Int := 0
  wr : Nat := 0
  deriving DecidableEq, Repr

/-- The non-audio judgement of a source pair (R317). -/
structure PairJudge where
  non : Bool := false
  clean : Nat := 0
  pos : Option Nat := none
  prof : Bool := false
  bit1 : Bool := false
  cs : List Bool := []
  prevWord : Int := 0
  deriving DecidableEq, Repr

structure Audio where
  dsts : Tbl Dst := []
  store : Tbl (List Samp) := []
  rates : Tbl Nat := []
  domains : Tbl Domain := []
  asrc : Tbl (Option Asrc) := []
  embeds : Tbl Embed := []
  ports : Tbl TdmPort := []
  rings : List RingBind := []
  pairs : Tbl PairJudge := []
  deriving DecidableEq, Repr

/-! ### The device -/

/-- The whole state: the queue of commands that wait, then one record per block of the spec; `out` records what left the
device and `fresh` counts the free values drawn (the model's own fields, assumptions 3 and 4). -/
structure State where
  pending : List Instr := []
  clk : Clk := {}
  sys : Sys := {}
  houses : List House := [{}, {}]
  rasters : Tbl (Option OutRaster) := []
  rx : Tbl RxDir := []
  tx : Tbl TxDir := []
  rxStreams : Tbl (Option RxStream) := []
  txStreams : Tbl (Option TxStream) := []
  queues : Tbl Queue := []
  spi : Spi := {}
  jobs : List Job := []
  nextJob : Nat := 1
  hub : Hub := {}
  cnt : Cnt := {}
  pair : Pair := {}
  clocks : Clocks := {}
  keys : Keys := {}
  nv : Nv := {}
  pins : Pins := {}
  routes : Routes := {}
  pond : Pond := {}
  engines : Engines := {}
  comp : Comp := {}
  audio : Audio := {}
  out : List Out := []
  fresh : Nat := 0
  deriving DecidableEq, Repr

/-- The device right after RESET_N is released (R500, R504): BRINGUP, stage 1 of start-up, every register at its reset value. -/
def State.reset : State := {}

end Sys2Proof.Machine
end

