-- ==== Sys2Proof/Machine/Ops.lean ====
section
/-! DEFINITION. The named operations over State that every meaning shares: tables, memories, bytes, time, rasters and
positions, events and counters, replies and free values. -/

namespace Sys2Proof.Machine

/-! ### Tables -/

/-- Entry `k` of a table whose unlisted entries are `d`. -/
def fget {α : Type} (d : α) : Tbl α → Nat → α
  | [], _ => d
  | (j, v) :: r, k => if j = k then v else fget d r k

/-- Entry `k` set to `v`, in canonical form. -/
def fset {α : Type} [DecidableEq α] (d : α) : Tbl α → Nat → α → Tbl α
  | [], k, v => if v = d then [] else [(k, v)]
  | (j, w) :: r, k, v =>
    if j = k then (if v = d then r else (k, v) :: r)
    else if k < j then (if v = d then (j, w) :: r else (k, v) :: (j, w) :: r)
    else (j, w) :: fset d r k v

/-- Entry `k` changed by `f`. -/
def fmod {α : Type} [DecidableEq α] (d : α) (m : Tbl α) (k : Nat) (f : α → α) : Tbl α :=
  fset d m k (f (fget d m k))

/-- Every listed entry changed by `f`, in canonical form. -/
def tmap {α : Type} [DecidableEq α] (d : α) (f : Nat → α → α) : Tbl α → Tbl α
  | [] => []
  | (k, v) :: r => if f k v = d then tmap d f r else (k, f k v) :: tmap d f r

/-- The keys of the listed entries that a test picks. -/
def tkeys {α : Type} (f : Nat → α → Bool) (m : Tbl α) : List Nat := (m.filter fun e => f e.1 e.2).map (·.1)

/-- Canonical form of a table: keys strictly rising, no entry equal to the default. -/
def tblWf {α : Type} [DecidableEq α] (d : α) : Tbl α → Bool
  | [] => true
  | (k, v) :: r => v != d && (r.head?.all fun x => decide (k < x.1)) && tblWf d r

/-! ### Memories of bytes -/

/-- Byte at `a` of a memory whose unlisted bytes are given by `d`. -/
def mget (d : Nat → Byte) : List Host.Cell → Nat → Byte
  | [], a => d a
  | (b, v) :: r, a => if b = a then v else mget d r a

/-- Byte at `a` written, in canonical form. -/
def mset (d : Nat → Byte) : List Host.Cell → Nat → Byte → List Host.Cell
  | [], a, v => if v = d a then [] else [(a, v)]
  | (b, w) :: r, a, v =>
    if b = a then (if v = d a then r else (a, v) :: r)
    else if a < b then (if v = d a then (b, w) :: r else (a, v) :: (b, w) :: r)
    else (b, w) :: mset d r a v

/-- Canonical form of a memory: addresses strictly rising, no entry equal to what an unlisted address reads as. -/
def memWf (d : Nat → Byte) : List Host.Cell → Bool
  | [] => true
  | (a, v) :: r => v != d a && (r.head?.all fun x => decide (a < x.1)) && memWf d r

/-- `n` bytes from `a` upward. -/
def mread (d : Nat → Byte) (m : List Host.Cell) (a : Nat) : Nat → List Byte
  | 0 => []
  | n + 1 => mget d m a :: mread d m (a + 1) n

/-- Bytes written from `a` upward. -/
def mwrite (d : Nat → Byte) (m : List Host.Cell) (a : Nat) : List Byte → List Host.Cell
  | [] => m
  | b :: r => mwrite d (mset d m a b) (a + 1) r

/-- What a Millpond or SRAM byte that nothing has written reads as (assumption 6). -/
def zeroByte (_ : Nat) : Byte := 0

/-! ### Bytes and bits -/

/-- The low `n` bytes of `v`, little-endian (R11). -/
def leBytes : Nat → Nat → List Byte
  | 0, _ => []
  | n + 1, v => BitVec.ofNat 8 v :: leBytes n (v / 256)

/-- The number that little-endian bytes spell (R11). -/
def leNat : List Byte → Nat
  | [] => 0
  | b :: r => b.toNat + 256 * leNat r

/-- Bit `i` of `v`. -/
def bit (v i : Nat) : Bool := v.testBit i

/-- Bits `hi` to `lo` of `v`. -/
def bits (v hi lo : Nat) : Nat := v / 2 ^ lo % 2 ^ (hi + 1 - lo)

/-- `b` as a number. -/
def b2n (b : Bool) : Nat := if b then 1 else 0

/-- Two's-complement encoding of `v` in `w` bits. -/
def encInt (w : Nat) (v : Int) : Nat := (v % (2 ^ w : Nat)).toNat

/-- Two's-complement value of the low `w` bits of `v`. -/
def decInt (w v : Nat) : Int :=
  let u := v % 2 ^ w
  if u < 2 ^ (w - 1) then u else (u : Int) - (2 ^ w : Nat)

/-- `a / b` rounded up. -/
def ceilDiv (a b : Nat) : Nat := (a + b - 1) / b

/-- Comparison of R260: `v` reaches `t`. -/
def reaches (v t : BitVec 32) : Bool := decide ((v - t).toNat < 2 ^ 31)

/-- A list with no two equal elements. -/
def distinct {α : Type} [DecidableEq α] : List α → Bool
  | [] => true
  | x :: r => !(r.contains x) && distinct r

/-- Sum of a measure over a list. -/
def total {α : Type} (f : α → Nat) : List α → Nat
  | [] => 0
  | x :: r => f x + total f r

/-! ### What a decision sees (R21) -/

/-- Ticks for which what went before a change is kept: longer than any frame. -/
def lookBack : Nat := 2 ^ 25

/-- The changes of a value, newest first, after it goes from `old` to `new` at `now`: each as the time and the value before. Of several
changes at one time the first counts. -/
def noteChange {α : Type} [DecidableEq α] (now : Tick) (old new : α) (h : List (Tick × α)) : List (Tick × α) :=
  if old = new || h.any (fun e => e.1 == now) then h else (now, old) :: h.filter fun e => decide (now ≤ e.1 + lookBack)

/-- The value that events strictly before `t` have established, `cur` being the value now. -/
def valueBefore {α : Type} (t : Int) (cur : α) : List (Tick × α) → α
  | [] => cur
  | (c, v) :: r => if t ≤ (c : Int) then valueBefore t v r else cur

/-! ### Status codes (Table 12.13) -/

def stOk : Nat := 0x0000
def stAccepted : Nat := 0x0001
def stBadOpcode : Nat := 0x0101
def stBadLength : Nat := 0x0102
def stBadParam : Nat := 0x0103
def stBadMac : Nat := 0x0104
def stReplay : Nat := 0x0105
def stBusy : Nat := 0x0201
def stNotInMode : Nat := 0x0202
def stLate : Nat := 0x0203
def stNoResource : Nat := 0x0204
def stLedgerExhausted : Nat := 0x0205
def stLinebufShort : Nat := 0x0206
def stColorMismatch : Nat := 0x0207
def stFlattenOverBudget : Nat := 0x0208
def stProtected : Nat := 0x0209
def stNvRecalling : Nat := 0x020A
def stKeyRevoked : Nat := 0x020B
def stKeyAbsent : Nat := 0x020C
def stTampered : Nat := 0x020D
def stPairDiverged : Nat := 0x020E
def stSleepRefused : Nat := 0x020F
def stTrainNoPartner : Nat := 0x0210
def stCancelled : Nat := 0x0211

/-- Outcome of a check: none passes, else the status and detail of the first failed check. -/
abbrev Check := Option (Nat × Nat)

/-- Fails with `st` when `c` holds. -/
def failIf (c : Bool) (st : Nat) (detail : Nat := 0) : Check := if c then some (st, detail) else none

/-- First failure of a check made on every element of a list. -/
def firstFail {α : Type} (f : α → Check) : List α → Check
  | [] => none
  | x :: r => match f x with
    | some e => some e
    | none => firstFail f r

/-! ### Time -/

/-- Time reaches `t`: the monotonic tick count never runs backward (R48, R49). -/
def State.advance (s : State) (t : Tick) : State := { s with clk := { s.clk with mono := max s.clk.mono t } }

/-- The monotonic tick count. -/
def State.now (s : State) : Tick := s.clk.mono

/-- The STC: the monotonic count plus the offset (R49). -/
def State.stc (s : State) : Nat := (BitVec.ofNat 64 s.clk.mono + s.clk.offset).toNat

/-- The STC of a time on the monotonic count, under the offset in force. -/
def State.stcOf (s : State) (t : Int) : Nat := ((t + s.clk.offset.toNat) % 2 ^ 64).toNat

/-- A free value (assumption 4): the next of the run. -/
def State.freeNat (s : State) : Nat × State := (Config.free s.fresh, { s with fresh := s.fresh + 1 })

/-- A record of what left the device. -/
def State.emit (s : State) (o : Out) : State := { s with out := o :: s.out }

/-! ### Rasters and positions (chapter 2) -/

/-- STC ticks in one frame at a rate of Table 2.2, exact. -/
def frameTicks (num den : Nat) : Nat := 270000000 * den / num

def descPeriod (d : RasterDesc) : Nat := frameTicks d.rateNum d.rateDen

/-- Where a raster stands: descriptor, frame count, line, and the ticks at which the line and the frame started. -/
structure Standing where
  desc : RasterDesc
  frame : Nat
  line : Nat
  lineT : Tick
  frameT : Tick
  deriving DecidableEq, Repr

def House.standing (h : House) : Standing := ⟨h.desc, h.frame.toNat, h.line, h.lineT, h.frameT⟩

def OutRaster.standing (o : OutRaster) : Standing := ⟨o.desc, o.frame.toNat, o.line, o.lineT, o.frameT⟩

/-- House raster A (0) or B. -/
def State.house (s : State) (x : Nat) : House :=
  match s.houses with
  | [a, b] => if x = 0 then a else b
  | _ => {}

def State.setHouse (s : State) (x : Nat) (h : House) : State :=
  match s.houses with
  | [a, b] => { s with houses := if x = 0 then [h, b] else [a, h] }
  | _ => s

def State.outRaster (s : State) (n : Nat) : Option OutRaster := fget none s.rasters n

def State.setOutRaster (s : State) (n : Nat) (o : Option OutRaster) : State :=
  { s with rasters := fset none s.rasters n o }

/-- The raster of an identifier that may be a schedule target (Table 2.4, R42, R44). -/
def State.raster? (s : State) (r : Nat) : Option Standing :=
  if r < 2 then some (s.house r).standing
  else if r < 514 then (s.outRaster (r - 2)).map OutRaster.standing
  else none

/-- `line_stc` of R47 on the monotonic count, rounded down to a whole tick. -/
def Standing.lineT' (p : Standing) (f l : Nat) : Int :=
  (p.frameT : Int) + ((f : Int) - p.frame) * descPeriod p.desc + ((l - 1) * descPeriod p.desc / p.desc.totalLines : Nat)

/-- `add_lines` of R47, n lines backward. -/
def linesBefore (f l n t : Nat) : Int × Nat :=
  let k : Int := (l : Int) - 1 - n
  ((f : Int) + k / t, (k % t).toNat + 1)

/-- Sample of the current line (R46), held at the last sample while an event is late. -/
def Standing.sample (p : Standing) (now : Tick) : Nat :=
  min ((now - p.lineT) * p.desc.totalSamples * p.desc.totalLines / max (descPeriod p.desc) 1) (p.desc.totalSamples - 1)

/-- A position in schedule-field layout (Table 2.5). -/
def posField (r f l : Nat) : Nat := (l % 65536) * 2 ^ 48 + (f % 2 ^ 32) * 65536 + r % 65536

/-- Current position on raster `r`; house A's when `r` is none or does not exist (R336). -/
def State.position (s : State) (r : Option Nat) : Nat :=
  match r.bind fun i => (s.raster? i).map fun p => posField i p.frame p.line with
  | some v => v
  | none => posField 0 (s.house 0).frame.toNat (s.house 0).line

/-- R47: the full frame count that the low 32 bits name, none for a frame before the raster began. -/
def expandFrame (f32 cur : Nat) : Option Nat :=
  let base : Int := (cur : Int) - 2 ^ 31
  let f := base + ((f32 : Int) - base) % 2 ^ 32
  if f < 0 then none else some f.toNat

/-- Lines from arming point to target: two in SOLO and apart, four in a pair that runs together (R53). -/
def State.armLines (s : State) : Nat :=
  if s.pair.role = .solo || s.pair.sync = .apart then 2 else 4

/-! ### Events and interrupts (chapter 18) -/

def State.source (s : State) (i : Nat) : Source := fget {} s.hub.srcs i

def State.setSource (s : State) (i : Nat) (x : Source) : State :=
  { s with hub := { s.hub with srcs := fset {} s.hub.srcs i x } }

/-- Vector control word of an MSI-X table entry: masked until the host clears bit 0 (assumption 14). -/
def State.vectorMasked (s : State) (v : Nat) : Bool := bit (fget 1 s.hub.msix (4 * v + 3)) 0

/-- An MSI-X vector is sent, or its pending bit is set while it is masked (R485). An endpoint in reset sends none (R529). -/
def State.msixSend (s : State) (v : Nat) : State :=
  if !s.sys.pcieUp then s
  else if s.vectorMasked v then { s with hub := { s.hub with pba := fset false s.hub.pba v true } }
  else s.emit (.msix v)

/-- The message of an event word: presentations within 1 us are merged into one (R485). -/
def State.eventMessage (s : State) (word : Nat) : State :=
  let last := fget 0 s.hub.msixT word
  if last ≠ 0 && s.now < last - 1 + 270 then s
  else { s with hub := { s.hub with msixT := fset 0 s.hub.msixT word (s.now + 1) } }.msixSend (32 + word)

/-- A source that becomes presented notifies the host when HOST is in its mask (R483, R485). -/
def State.presented (s : State) (i : Nat) : State :=
  if bit (s.source i).mask 2 then s.eventMessage (i / 32) else s

/-- A reserved identifier of Table 18.2, which never fires. -/
def sourceReserved (i : Nat) : Bool :=
  (decide (26 ≤ i) && decide (i ≤ 63)) || i == 969 || (decide (973 ≤ i) && decide (i ≤ 975)) ||
  (decide (981 ≤ i) && decide (i ≤ 983)) || (decide (987 ≤ i) && decide (i ≤ 991)) || decide (1023 ≤ i)

/-- A source fires (R483): a firing of a pending source merges into it. -/
def State.fire (s : State) (i : Nat) : State :=
  if sourceReserved i then s
  else
    let x := s.source i
    match x.st with
    | .idle => (s.setSource i { x with st := .pending }).presented i
    | .pending => s
    | .active => s.setSource i { x with st := .activePending }
    | .activePending => s

/-! ### Counters (chapter 19) -/

/-- Counter identifier (Table 19.1). -/
def cntId (block unit event : Nat) : Nat := block * 2 ^ 20 + unit * 32 + event

/-- A counter adds `n` (R493): past 2^48 - 1 it keeps its low 48 bits, sets OVF and fires source 992 + BLOCK. -/
def State.count (s : State) (block unit event : Nat) (n : Nat := 1) : State :=
  if n = 0 then s
  else
    let id := cntId block unit event
    let c := fget {} s.cnt.live id
    let v := c.value.toNat + n
    let beyond := decide (2 ^ 48 ≤ v)
    let s' := { s with cnt := { s.cnt with live := fset {} s.cnt.live id ⟨BitVec.ofNat 48 v, c.ovf || beyond⟩ } }
    if beyond then s'.fire (992 + block) else s'

def State.counter (s : State) (block unit event : Nat) : Nat := (fget {} s.cnt.live (cntId block unit event)).value.toNat

/-! ### Fault record (R357) -/

/-- A fault is latched: it replaces the record held, unless the device is in FAILED. -/
def State.latchFault (s : State) (source unit addr : Nat) : State :=
  if s.sys.mode = .failed then s
  else
    let r : FaultRec := { source := source, unit := unit, modeBefore := s.sys.mode, addr := addr, stc := s.stc,
                          position := s.position none }
    let rep := if s.sys.fault.isSome then min 255 (s.sys.replaced + 1) else s.sys.replaced
    { s with sys := { s.sys with fault := some r, replaced := rep } }.fire 5

/-! ### Replies (chapter 12) -/

def State.queue (s : State) (q : Nat) : Queue := fget {} s.queues q

def State.setQueue (s : State) (q : Nat) (x : Queue) : State := { s with queues := fset {} s.queues q x }

def Reply.bytes (r : Reply) : List Byte :=
  leBytes 4 r.seq ++ leBytes 2 r.tag ++ leBytes 2 r.status ++ leBytes 2 r.detail ++ leBytes 8 r.position ++ leBytes 6 r.stc

def CqEntry.bytes (e : CqEntry) : List Byte :=
  e.reply.bytes ++ leBytes 1 e.queue ++ leBytes 1 (b2n e.phase) ++ leBytes 6 0

/-- Bytes written to CP_B SRAM (Table 18.1: 1 MiB). -/
def State.sramWrite (s : State) (a : Nat) (bs : List Byte) : State :=
  { s with hub := { s.hub with sram := mwrite zeroByte s.hub.sram a bs } }

def State.sramRead (s : State) (a n : Nat) : List Byte := mread zeroByte s.hub.sram a n

/-- One completion entry is written at the tail (R328), for queues 0 to 7 to host memory and for queue 8 to CP_B SRAM. -/
def State.putEntry (s : State) (q : Nat) (r : Reply) : State :=
  let x := s.queue q
  let e : CqEntry := ⟨r, q, x.phase⟩
  let next := (x.cqTail + 1) % 2 ^ x.cqSize
  let x' := { x with entries := x.entries ++ [e], cqTail := next, phase := if next = 0 then !x.phase else x.phase }
  let s' := s.setQueue q x'
  if q = 8 then
    let s'' := s'.sramWrite (s.hub.rrBase8 + 32 * x.cqTail) e.bytes
    if x.irqEn then s''.fire 25 else s''
  else
    let s'' := s'.emit (.dma q (x.cqBase + 32 * x.cqTail) e.bytes)
    if x.irqEn then s''.msixSend x.vector else s''

/-- Replies held for a queue are posted, oldest first, while they fit (R330). -/
def State.flushReplies (s : State) (q : Nat) : List Reply → State
  | [] => s
  | r :: rest =>
    let x := s.queue q
    if x.enable && decide (x.entries.length < 2 ^ x.cqSize) then
      State.flushReplies ((s.setQueue q { x with heldReplies := x.heldReplies.drop 1 }).putEntry q r) q rest
    else s

/-- A reply is posted (R328, R330, R331): held while its queue is disabled or its ring has no entry free, and in the SPI FIFO
for queue 9. A queue that stops still takes the replies of the packet in execution. -/
def State.post (s : State) (q : Nat) (r : Reply) : State :=
  let x := s.queue q
  if q = 9 then { s with spi := { s.spi with fifo := s.spi.fifo ++ [r.bytes] } }
  else if (x.enable || x.stopping) && x.heldReplies.isEmpty && decide (x.entries.length < 2 ^ x.cqSize) then s.putEntry q r
  else s.setQueue q { x with heldReplies := x.heldReplies ++ [r] }

/-- The reply to a command (R336): POSITION on raster `ras`, house A's when none. -/
def State.reply (s : State) (q seq tag status detail : Nat) (ras : Option Nat) : State :=
  s.post q { seq := seq, tag := tag, status := status, detail := detail, position := s.position ras, stc := s.stc % 2 ^ 48 }

/-- Q_LASTSEQ follows a command that is done (R343). -/
def State.markDone (s : State) (q seq : Nat) : State :=
  s.setQueue q { s.queue q with lastSeq := BitVec.ofNat 32 seq }

/-- An immediate command of queue `q` has not completed: it holds its queue (R343). -/
def State.holds (s : State) (q : Nat) : Bool := s.jobs.any fun j => j.queue == q && !j.sched && !j.silent

/-- A queue whose ENABLE was written 0 drops its packets once the packet in execution is done (R330): its indices go to 0, and
its doorbell and error flags clear. -/
def State.finishStop (s : State) (q : Nat) : State :=
  let x := s.queue q
  if x.stopping && !s.holds q then
    s.setQueue q { x with stopping := false, ring := [], sqHead := 0, sqTail := 0, cqHead := 0, cqTail := 0, entries := [],
                          phase := true, error := false, errCause := 0, dbErr := false, stall := false }
  else s

/-- A result in records of 24 bytes, the last padded with zero (R351). -/
def records : Nat → List Byte → List (List Byte)
  | 0, _ => []
  | n + 1, bs => (bs.take 24 ++ List.replicate (24 - (bs.take 24).length) 0) :: records n (bs.drop 24)

/-- A result is written: to host memory, CP_B memory, or behind the reply in the SPI FIFO (R350, R351). -/
def State.deliver (s : State) (q : Nat) (res : Res) (bs : List Byte) : State :=
  if q = 9 then { s with spi := { s.spi with fifo := s.spi.fifo ++ records (ceilDiv bs.length 24) bs } }
  else if q = 8 then s.sramWrite res.addr bs
  else s.emit (.dma q res.addr bs)

/-! ### Jobs -/

/-- A reply with its result: written before the reply, or behind it on queue 9 (R350, R351). -/
def State.replyResult (s : State) (q seq tag status : Nat) (res : Res) (bs : List Byte) (ras : Option Nat) : State :=
  let words := min 0xFFFF (ceilDiv bs.length 4)
  if q = 9 then (s.reply q seq tag status words ras).deliver q res bs
  else (s.deliver q res bs).reply q seq tag status words ras

/-- A job completes (R336, R343): it leaves the table, its final reply is posted, and an immediate command is done. A device
in FAILED posts no further replies on queues 0 to 8 (R7, R399). -/
def State.complete (s : State) (j : Job) (status detail : Nat) (ras : Option Nat) : State :=
  let s1 := { s with jobs := s.jobs.filter fun x => x.id != j.id }
  let s2 := if j.silent || (s.sys.mode == .failed && j.queue != 9) then s1
    else match j.res with
      | some r => if status = stOk ∨ status = stKeyRevoked then s1.replyResult j.queue j.seq j.tag status r j.result ras
                  else s1.reply j.queue j.seq j.tag status detail ras
      | none => s1.reply j.queue j.seq j.tag status detail ras
  if j.sched || j.silent then s2 else (s2.markDone j.queue j.seq).finishStop j.queue

/-- The job of identifier `id`, where it is still held, completes. -/
def State.completeId (s : State) (id status detail : Nat) (ras : Option Nat) : State :=
  match s.jobs.find? fun j => j.id == id with
  | some j => s.complete j status detail ras
  | none => s

/-- Several jobs complete alike. -/
def State.completeAll (s : State) (status detail : Nat) (ras : Option Nat) : List Nat → State
  | [] => s
  | id :: r => State.completeAll (s.completeId id status detail ras) status detail ras r

/-- A job replaced by its changed record. -/
def State.setJob (s : State) (j : Job) : State :=
  { s with jobs := s.jobs.map fun x => if x.id = j.id then j else x }

/-- The first job that a test picks, oldest first. -/
def State.jobOf (s : State) (f : Params → Bool) : Option Job := s.jobs.find? fun j => f j.params

/-- The jobs that a test picks complete alike. -/
def State.completeWhere (s : State) (f : Job → Bool) (status detail : Nat) (ras : Option Nat) : State :=
  s.completeAll status detail ras ((s.jobs.filter f).map Job.id)

/-! ### Answers of a command -/

/-- What the owning chapter needs to know of a packet: its queue and header. -/
structure Ctx where
  queue : Nat
  hdr : Hdr
  deriving DecidableEq, Repr

/-- How a validated command answers (R336): it fails with no effect (R23); completes at execution, on raster `ras`; completes
at execution with a result (R350); waits as the job of identifier `s.nextJob`; or gives no reply at all. -/
inductive Ans where
  | fail (status : Nat) (detail : Nat := 0)
  | done (s : State) (ras : Option Nat := none)
  | result (s : State) (res : Res) (bytes : List Byte)
  | later (s : State) (kind : JobKind) (raster : Nat := 0) (aux : List Nat := []) (res : Option (Res × List Byte) := none)
  | silent (s : State)
  deriving DecidableEq, Repr

/-- The checks pass, or their first failure is the answer. -/
def orAns (c : Check) (a : Ans) : Ans :=
  match c with
  | some (st, d) => .fail st d
  | none => a

/-- A number of a step done in order over a list of units. -/
def State.each {α : Type} (f : α → State → State) : List α → State → State
  | [], s => s
  | x :: r, s => State.each f r (f x s)

end Sys2Proof.Machine
end

