-- ==== Sys2Proof/Machine/Crypto.lean ====
section
/-! DEFINITION. SHA-256 (FIPS 180-4), HMAC-SHA-256, the counter-mode KDF of R434 and AES-256, over bytes. -/

namespace Sys2Proof.Machine

/-- The primes below `n`, rising, by trial division. -/
def primesBelow (n : Nat) : List Nat :=
  (List.range n).filter fun p => decide (2 ≤ p) && (List.range p).all fun d => decide (d < 2) || p % d != 0

/-- The largest number of `n` further bits, above what `r` holds, whose `k`-th power is at most `x`. -/
def rootFrom (k x : Nat) : Nat → Nat → Nat
  | 0, r => r
  | n + 1, r => rootFrom k x n (if (r + 2 ^ n) ^ k ≤ x then r + 2 ^ n else r)

/-- The first 32 bits of the fraction of the `k`-th root of `p`, for a root below 16. -/
def rootFraction (k p : Nat) : BitVec 32 := BitVec.ofNat 32 (rootFrom k (p * 2 ^ (32 * k)) 36 0)

/-- The constants of the 64 rounds, from cube roots, and the hash of no block, from square roots: its words A to D and E to H. -/
def roundWords : List (BitVec 32) := (primesBelow 312).map (rootFraction 3)
def hashStart : List (BitVec 32) := ((primesBelow 312).take 8).map (rootFraction 2)

/-- Exclusive or of `x` turned right by three amounts. -/
def turns (i j k : Nat) (x : BitVec 32) : BitVec 32 := x.rotateRight i ^^^ x.rotateRight j ^^^ x.rotateRight k

/-- Exclusive or of `x` turned right by two amounts and shifted right by a third. -/
def mixes (i j k : Nat) (x : BitVec 32) : BitVec 32 := x.rotateRight i ^^^ x.rotateRight j ^^^ (x >>> k)

/-- `n` words of the message schedule, from the window of its next sixteen. -/
def scheduleFrom : Nat → List (BitVec 32) → List (BitVec 32)
  | 0, _ => []
  | n + 1, win =>
    let at' (i : Nat) := win.getD i 0
    at' 0 :: scheduleFrom n (win.drop 1 ++ [at' 0 + mixes 7 18 3 (at' 1) + at' 9 + mixes 17 19 10 (at' 14)])

/-- The rounds of a block. The words A to D of one round are the last four that the words A took, and E to H those of E, so two
lists, newest first, hold the round's state. -/
def digestRounds : List (BitVec 32 × BitVec 32) → List (BitVec 32) → List (BitVec 32) → List (BitVec 32)
  | [], up, low => up.take 4 ++ low.take 4
  | (k, w) :: r, up, low =>
    let u (i : Nat) := up.getD i 0
    let l (i : Nat) := low.getD i 0
    let pick := l 2 ^^^ (l 0 &&& (l 1 ^^^ l 2))
    let most := (u 0 &&& u 1) ^^^ (u 2 &&& (u 0 ^^^ u 1))
    let both := l 3 + turns 6 11 25 (l 0) + pick + k + w
    digestRounds r ((both + turns 2 13 22 (u 0) + most) :: up.take 3) ((u 3 + both) :: low.take 3)

/-- The hash after one more block of sixteen words. -/
def digestBlock (h block : List (BitVec 32)) : List (BitVec 32) :=
  (digestRounds (roundWords.zip (scheduleFrom 64 block)) (h.take 4) (h.drop 4)).zipWith (· + ·) h

def beNat (l : List Byte) : Nat := l.foldl (fun a b => 256 * a + b.toNat) 0

/-- The low `n` bytes of `v`, big-endian. -/
def beBytes (n v : Nat) : List Byte := (leBytes n v).reverse

/-- The next `n` big-endian words of a byte string. -/
def wordsOf : Nat → List Byte → List (BitVec 32)
  | 0, _ => []
  | n + 1, l => BitVec.ofNat 32 (beNat (l.take 4)) :: wordsOf n (l.drop 4)

/-- The hash after `n` blocks of a padded string. -/
def digestBlocks : Nat → List (BitVec 32) → List Byte → List (BitVec 32)
  | 0, h, _ => h
  | n + 1, h, l => digestBlocks n (digestBlock h (wordsOf 16 l)) (l.drop 64)

/-- SHA-256 of a byte string: a 1 bit, zeros and the length in bits fill its last block. -/
def sha256 (m : List Byte) : List Byte :=
  let n := ceilDiv (m.length + 9) 64
  let padded := m ++ 0x80 :: List.replicate (64 * n - m.length - 9) 0 ++ beBytes 8 (8 * m.length)
  (digestBlocks n hashStart padded).flatMap fun w => beBytes 4 w.toNat

/-- HMAC-SHA-256 under a 256-bit key, given as a number with its first byte highest. -/
def hmac (key : Nat) (m : List Byte) : List Byte :=
  let k := beBytes 32 key ++ List.replicate 32 (0 : Byte)
  let pad (v : Byte) := k.map (· ^^^ v)
  sha256 (pad 0x5c ++ sha256 (pad 0x36 ++ m))

/-- The child key of R434. -/
def deriveKey (parent : Nat) (label context : List Byte) : Nat :=
  beNat (hmac parent (beBytes 4 1 ++ label ++ [0] ++ context ++ beBytes 4 256))

/-! ### AES-256 (FIPS 197), for the counter mode of R438 -/

/-- Multiplication by x in the field of AES. -/
def xtime (b : Nat) : Nat := if b < 128 then 2 * b else Nat.xor (2 * b - 256) 0x1b

/-- Product in the field of AES, over the low `n` bits of `b`. -/
def fieldMul : Nat → Nat → Nat → Nat
  | 0, _, _ => 0
  | n + 1, a, b => Nat.xor (if b % 2 = 1 then a else 0) (fieldMul n (xtime a) (b / 2))

/-- `b` to the power 2^n - 2; for n = 8 its inverse in the field of AES, and 0 for 0. -/
def fieldInverse : Nat → Nat → Nat
  | 0, _ => 1
  | n + 1, b => if n = 0 then 1 else
    let half := fieldMul 8 (fieldInverse n b) b
    fieldMul 8 half half

/-- A byte turned left by `n` bits. -/
def turnByte (n b : Nat) : Nat := (b * 2 ^ n + b / 2 ^ (8 - n)) % 256

/-- The substitution of AES: the inverse, then the affine map. -/
def substitute (b : Nat) : Nat :=
  let x := fieldInverse 8 b
  ([1, 2, 3, 4].map fun n => turnByte n x).foldl Nat.xor (Nat.xor x 0x63)

/-- The substitution of each byte, in order. -/
def aesBox : List Nat := (List.range 256).map substitute

def subByte (b : Nat) : Nat := aesBox.getD b 0

def xorBytes (a b : List Nat) : List Nat := a.zipWith Nat.xor b

/-- Key expansion: `w` holds the words so far, newest first, of which there are `i`. -/
def expandWords : Nat → Nat → Nat → List (List Nat) → List (List Nat)
  | 0, _, _, w => w
  | n + 1, i, rcon, w =>
    let prev := w.headD []
    let t := if i % 8 = 0 then
        match (prev.drop 1 ++ prev.take 1).map subByte with
        | x :: r => Nat.xor x rcon :: r
        | [] => []
      else if i % 8 = 4 then prev.map subByte else prev
    expandWords n (i + 1) (if i % 8 = 0 then xtime rcon else rcon) (xorBytes (w.getD 7 []) t :: w)

/-- The fifteen round keys of a 256-bit key of 32 bytes. -/
def roundKeys (key : List Nat) : List (List Nat) :=
  let w := (expandWords 52 8 1 ((List.range 8).map fun i => (key.drop (4 * i)).take 4).reverse).reverse
  (List.range 15).map fun i => ((w.drop (4 * i)).take 4).flatten

def shiftRows (b : List Nat) : List Nat := (List.range 16).map fun i => b.getD ((i + 4 * (i % 4)) % 16) 0

def mixColumn : List Nat → List Nat
  | [a, b, c, d] =>
    let m (x y z w : Nat) := [xtime x, xtime y, y, z, w].foldl Nat.xor 0
    [m a b c d, m b c d a, m c d a b, m d a b c]
  | l => l

def mixColumns (b : List Nat) : List Nat := (List.range 4).flatMap fun i => mixColumn ((b.drop (4 * i)).take 4)

def aesRounds : List (List Nat) → List Nat → List Nat
  | [], b => b
  | [k], b => xorBytes (shiftRows (b.map subByte)) k
  | k :: r, b => aesRounds r (xorBytes (mixColumns (shiftRows (b.map subByte))) k)

/-- One block of 16 bytes encrypted under a 256-bit key given as a number. -/
def aes256 (key : Nat) (block : List Nat) : List Nat :=
  match roundKeys ((beBytes 32 key).map (·.toNat)) with
  | k :: r => aesRounds r (xorBytes block k)
  | [] => block

/-- Counter block of R438. -/
def counterBlock (laneId sfc b : Nat) : Nat := laneId * 2 ^ 112 + sfc * 2 ^ 80 + b

/-- Keystream block b of a lane's superframe, as a 128-bit number whose highest bit comes first (R438). -/
def keyBlock (key laneId sfc b : Nat) : Nat :=
  (aes256 key ((beBytes 16 (counterBlock laneId sfc b)).map (·.toNat))).foldl (fun a x => 256 * a + x) 0

/-- Keystream bits of the payload symbol in slot 7 + i of a lane (R438). -/
def keySymbol (key laneId sfc i : Nat) : Nat :=
  let t := 20 * i
  let b := t / 128
  let two := keyBlock key laneId sfc b * 2 ^ 128 + (if t % 128 ≤ 108 then 0 else keyBlock key laneId sfc (b + 1))
  bits two (255 - t % 128) (236 - t % 128)

end Sys2Proof.Machine
end

