-- ==== Sys2Proof/Machine/Framing.lean ====
section
/-! DEFINITION. Fuley framing and packets as pure functions (chapters 3 and 4): keystream, CRC-32, stuffing, fill, header
symbols, packing, the output conversion with its dither generator, the packets of a group's payload and the back-channel
field. -/

namespace Sys2Proof.Machine

/-! ### Bits -/

/-- The low `w` bits of `v`, most significant first. -/
def bitsOf : Nat → Nat → List Bool
  | 0, _ => []
  | w + 1, v => v.testBit w :: bitsOf w v

/-- The number a bit list spells, most significant bit first. -/
def natOf (l : List Bool) : Nat := l.foldl (fun a b => 2 * a + b2n b) 0

/-- A bit string cut into pieces of `w` bits, the last padded with zero bits (R64). -/
def cutBits (w : Nat) : Nat → List Bool → List Nat
  | 0, _ => []
  | n + 1, l => natOf (l.take w ++ List.replicate (w - (l.take w).length) false) :: cutBits w n (l.drop w)

/-- A bit string cut into 20-bit symbols. -/
def symbolsOf (l : List Bool) : List Nat := cutBits 20 (ceilDiv l.length 20) l

/-- The bits of a list of symbols, in line order. -/
def lineBits (l : List Nat) : List Bool := l.flatMap (bitsOf 20)

/-! ### Scrambler (R89) and CRC (R90) -/

def scramblerSeed (laneId sfc : Nat) : Nat := 2 ^ 30 + laneId * 2 ^ 21 + sfc % 256 * 2 ^ 13 + 0x15A3

def keystreamFrom : Nat → Nat → List Bool
  | 0, _ => []
  | n + 1, s =>
    let k := s.testBit 30 != s.testBit 27
    k :: keystreamFrom n ((2 * s + b2n k) % 2 ^ 31)

/-- The first `n` keystream bits of a lane's superframe. -/
def keystreamBits (laneId sfc n : Nat) : List Bool := keystreamFrom n (scramblerSeed laneId sfc)

def crcStep (c : Nat) (b : Bool) : Nat :=
  let d := 2 * c % 2 ^ 32
  if c.testBit 31 != b then Nat.xor d 0x04C11DB7 else d

/-- CRC-32 of a bit string, without reflection. -/
def crc32 (l : List Bool) : Nat := Nat.xor (l.foldl crcStep 0xFFFFFFFF) 0xFFFFFFFF

/-- CRC-32 over bytes, each most significant bit first. -/
def crcBytes (l : List Byte) : Nat := crc32 (l.flatMap fun b => bitsOf 8 b.toNat)

/-! ### Stuffing and fill (R91 to R93) -/

/-- `stuff` with the value and length of the run so far. -/
def stuffFrom (v : Option Bool) (n : Nat) : List Bool → List Bool
  | [] => []
  | b :: r =>
    let m := if v = some b then n + 1 else 1
    if m = 20 then b :: (!b) :: stuffFrom none 0 r else b :: stuffFrom (some b) m r

def stuff (l : List Bool) : List Bool := stuffFrom none 0 l

/-- Fill: m bits, the last of them 0. -/
def fill : Nat → List Bool
  | 0 => []
  | m + 1 => (m % 2 == 1) :: fill m

/-- `destuff`: the data bits, the stuff violations and the stuff bits removed; `left` data bits are still to come, the rest being fill, and
`skip` holds the value of a run of 20 just ended. -/
def destuffFrom (left : Nat) (skip v : Option Bool) (n : Nat) : List Bool → List Bool × Nat × Nat
  | [] => ([], 0, 0)
  | b :: r =>
    match skip, left with
    | some x, _ =>
      let (d, k, c) := destuffFrom left none none 0 r
      (d, if b = x then k + 1 else k, c + 1)
    | none, 0 => ([], 0, 0)
    | none, left + 1 =>
      let m := if v = some b then n + 1 else 1
      let (d, k) := if m = 20 then destuffFrom left (some b) none 0 r else destuffFrom left none (some b) m r
      (b :: d, k)

/-- The 81,860 data bits of a superframe, from the bits after its comma. -/
def destuff (l : List Bool) : List Bool × Nat × Nat := destuffFrom 81860 none none 0 l

/-- The comma of R86: 28 ones, 28 zeros, then 1010. -/
def comma : List Bool := List.replicate 28 true ++ List.replicate 28 false ++ [true, false, true, false]

/-! ### Superframe header (Table 4.3) -/

def headerSymbols (laneId : Nat) (active withdrawn sleep : Bool) (sfc bc fc : Nat) : List Nat :=
  [laneId % 512 * 2 ^ 11 + b2n active * 2 ^ 10 + b2n withdrawn * 2 ^ 9 + b2n sleep * 2 ^ 8, sfc % 2 ^ 20,
   sfc / 2 ^ 20 % 2 ^ 12 * 2 ^ 8 + bc / 256 % 256, bc % 256 * 2 ^ 12 + fc % 4096]

/-- The plain bits of slots 3 to 4093. -/
def plainBits (f : Superframe) : List Bool :=
  lineBits (headerSymbols f.laneId f.active f.withdrawn f.sleep f.sfc f.bc f.fc ++ f.payload ++ List.replicate (4087 - f.payload.length) 0)

/-- Slots 3 to 4095 as stuffed: scrambled plain bits, then the CRC and 8 spare bits. -/
def stuffedBits (f : Superframe) : List Bool :=
  let plain := plainBits f
  let crc := crc32 plain
  stuff (plain.zipWith (· != ·) (keystreamBits f.laneId f.sfc plain.length) ++ lineBits [crc / 2 ^ 12, crc % 2 ^ 12 * 2 ^ 8])

/-- One superframe on the line: comma, stuffed slots, fill (Table 4.2). -/
def superframeBits (f : Superframe) : List Bool :=
  let l := stuffedBits f
  comma ++ l ++ fill (81860 + 4096 - l.length)

/-- The superframe as a transmitter sends it: its stuff bits counted, and its bits. -/
def onLine (f : Superframe) : Superframe :=
  { f with comma := 0, violations := 0, stuffBits := (stuffedBits f).length - 81860, line := superframeBits f }

/-- What the receiver makes of a superframe's bits with the keystream of a LANE_ID and an SFC (R86, R89, R90, R93). -/
def decodeLine (laneId sfc : Nat) (line : List Bool) : Superframe :=
  let (data, violations, removed) := destuff (line.drop 60)
  let plain := (data.take 81820).zipWith (· != ·) (keystreamBits laneId sfc 81820)
  let h (i : Nat) : Nat := natOf ((plain.drop (20 * i)).take 20)
  { comma := 60 - ((line.zip comma).filter fun e => e.1 == e.2).length
    laneId := h 0 / 2 ^ 11, active := (h 0).testBit 10, withdrawn := (h 0).testBit 9, sleep := (h 0).testBit 8
    sfc := h 1 + 2 ^ 20 * (h 2 / 256), bc := h 2 % 256 * 256 + h 3 / 2 ^ 12, fc := h 3 % 2 ^ 12
    stuffBits := removed, violations := violations
    crcOk := plain.length == 81820 && crc32 plain == natOf ((data.drop 81820).take 32)
    payload := symbolsOf (plain.drop 80) }

/-- A candidate for SFC mod 256 matches a superframe (R99). -/
def seedMatch (expected : Nat) (line : List Bool) (c : Nat) : Option Superframe :=
  let f := decodeLine expected c line
  if f.laneId == expected && f.sfc % 256 == c && f.crcOk then some f else none

/-- A superframe as a lane in SEED or in LOCKED receives it: with the candidate that matches, else with the predicted SFC. -/
def receivedFrame (seeding : Bool) (expected sfc : Nat) (f : Superframe) : Superframe :=
  if f.line.isEmpty then f
  else
    let g := match (if seeding then (List.range 256).findSome? (seedMatch expected f.line) else none) with
      | some g => g
      | none => let g := decodeLine expected sfc f.line
        { g with crcOk := g.crcOk && !seeding }
    { g with adaptDue := f.adaptDue }

/-! ### Test patterns (Table 5.7, R126, R127) -/

/-- Stages of a pattern's register, and the stage beside the last that feeds back. -/
def prbsStages : Nat → Nat
  | 1 => 7 | 2 => 15 | _ => 31

def prbsTap : Nat → Nat
  | 1 => 6 | 2 => 14 | _ => 28

/-- The next bit of a pattern after the register's last bits. DESIGN CHOICE (assumption 39): a generator sends the bit that it feeds back. -/
def prbsNext (pattern reg : Nat) : Bool := reg.testBit (prbsStages pattern - 1) != reg.testBit (prbsTap pattern - 1)
def prbsShift (pattern reg : Nat) (b : Bool) : Nat := (2 * reg + b2n b) % 2 ^ prbsStages pattern

/-- The next `n` bits of a pattern. -/
def prbsBits (pattern : Nat) : Nat → Nat → List Bool
  | _, 0 => []
  | reg, n + 1 =>
    let b := prbsNext pattern reg
    b :: prbsBits pattern (prbsShift pattern reg b) n

/-- The bits of a generator, which starts from the all-ones state. -/
def generated (pattern : Nat) (invert : Bool) (n : Nat) : List Bool :=
  (prbsBits pattern (2 ^ prbsStages pattern - 1) n).map (· != invert)

/-- The differing bits of a synchronised checker, and its register after them. -/
def prbsErrors (pattern : Nat) : Nat → List Bool → Nat × Nat
  | reg, [] => (0, reg)
  | reg, b :: r =>
    let e := prbsNext pattern reg
    let (n, q) := prbsErrors pattern (prbsShift pattern reg e) r
    (n + b2n (b != e), q)

/-- One window of a checker: it loads its register first where it is not synchronised. -/
def prbsWindow (pattern : Nat) (invert : Bool) (reg : Option Nat) (received : List Bool) : Nat × Nat :=
  let l := received.map (· != invert)
  match reg with
  | some q => prbsErrors pattern q l
  | none => prbsErrors pattern (natOf (l.take (prbsStages pattern))) (l.drop (prbsStages pattern))

/-! ### Back-channel field (Table 5.2) -/

def bcKind (bc : Nat) : Nat := bits bc 15 14
def bcTap (bc : Nat) : Nat := bits bc 13 12
def bcAction (bc : Nat) : Nat := bits bc 11 10
def bcPreset (bc : Nat) : Nat := bits bc 9 6
def bcStatus (bc : Nat) : Nat := bits bc 5 4
def bcSeq (bc : Nat) : Nat := bits bc 3 0

def bcField (kind tap action preset status seq : Nat) : Nat :=
  kind * 2 ^ 14 + tap * 2 ^ 12 + action * 2 ^ 10 + preset * 2 ^ 6 + status * 2 ^ 4 + seq % 16

/-! ### Packing modes (Table 3.4) -/

/-- Pixels and symbols of a packing group. -/
def groupPixels : Nat → Nat
  | 1 => 5 | 2 => 2 | 3 => 5 | _ => 1

def groupSymbols : Nat → Nat
  | 0 => 1 | 1 => 6 | 2 => 3 | 3 => 9 | 4 => 2 | _ => 3

def modeAlign : Nat → Nat
  | 0 => 2 | 1 => 10 | 2 => 2 | 3 => 5 | _ => 1

def modeBits : Nat → Nat
  | 0 => 20 | 1 => 24 | 2 => 30 | 3 => 36 | 4 => 40 | _ => 60

/-- Bits of one component. -/
def modeDepth : Nat → Nat
  | 1 | 3 => 12 | 5 => 20 | _ => 10

/-- Components of one pixel. -/
def modeComponents : Nat → Nat
  | 0 | 1 => 2 | 4 => 4 | _ => 3

/-- Sampling structure (R69): 0 4:2:2, 1 4:4:4, 2 RGBA. -/
def modeStructure (m : Nat) : Nat := if m ≤ 1 then 0 else if m = 4 then 2 else 1

/-- A component raised to the native 20 bits (R66). -/
def toNative (mode v : Nat) : Nat := v * 2 ^ (20 - modeDepth mode)

/-- One packing group from the components of its pixels, in pixel and component order (R64). -/
def packGroup (mode : Nat) (comps : List Nat) : List Nat := symbolsOf (comps.flatMap (bitsOf (modeDepth mode)))

/-- The native components of a packing group's symbols; a partial last group drops its padding (R63, R66). -/
def unpackGroup (mode pixels : Nat) (syms : List Nat) : List Nat :=
  (cutBits (modeDepth mode) (pixels * modeComponents mode) (lineBits syms)).map (toNative mode)

/-! ### Output conversion and dither (R67, R68) -/

/-- One step of the 32-bit Galois LFSR of polynomial x^32 + x^22 + x^2 + x + 1. DESIGN CHOICE (assumption 39): the spec gives the polynomial
only; the register shifts to the right and its bit 0 is the output. -/
def ditherStep (s : Nat) : Nat := if s.testBit 0 then Nat.xor (s / 2) 0x80200003 else s / 2

/-- `draw(k)`: the next k bits, and the generator after them. DESIGN CHOICE (assumption 39): the first bit drawn is the most significant. -/
def draw : Nat → Nat → Nat × Nat
  | 0, s => (0, s)
  | k + 1, s =>
    let (v, s') := draw k (ditherStep s)
    (s % 2 * 2 ^ k + v, s')

def ditherSeed (output frame : Nat) : Nat := (output + 1) * 2 ^ 16 + frame % 2 ^ 16

/-- `to_output`: native x at depth n; the code sent and the generator after it. -/
def toOutput (x n : Nat) (dither exclude : Bool) (g : Nat) : Nat × Nat :=
  if n = 20 then (x, g)
  else
    let k := 20 - n
    let (d1, g1) := if dither && x % 2 ^ k != 0 then draw k g else (0, g)
    let (d2, g2) := if dither && x % 2 ^ k != 0 then draw k g1 else (0, g1)
    let y : Int := ((x : Int) + 2 ^ (k - 1) + d1 - d2) / 2 ^ k
    let lo : Int := if exclude then (if n = 10 then 4 else 16) else 0
    let hi : Int := if exclude then (if n = 10 then 2 ^ n - 5 else 2 ^ n - 17) else 2 ^ n - 1
    ((min (max y lo) hi).toNat, g2)

/-! ### Packets of a group's payload (R59, R61, R82) -/

/-- Payload symbol j of a group travels on lane j mod g in slot 7 + floor(j / g). -/
def interleave (lanes : List (List Nat)) (j n : Nat) : List Nat :=
  match n with
  | 0 => []
  | n + 1 => ((lanes.getD (j % lanes.length) []).getD (j / lanes.length) 0) :: interleave lanes (j + 1) n

/-- A packet: its header fields, the index of its first symbol and the symbols that follow the header. -/
structure LanePacket where
  typ : Nat
  tag : Nat
  length : Nat
  at_ : Nat
  body : List Nat
  deriving DecidableEq, Repr

/-- The packets of a payload of `total` symbols whose listed part is `l`: zero symbols are one-symbol IDL packets, and a
LENGTH that runs past the last symbol ends the parse with `over`. -/
def parsePackets : Nat → Nat → Nat → List Nat → List LanePacket × Bool
  | 0, _, _, _ => ([], false)
  | _ + 1, _, _, [] => ([], false)
  | fuel + 1, total, j, h :: r =>
    let len := h % 4096
    if total < j + 1 + len then ([], true)
    else if h = 0 then parsePackets fuel total (j + 1) r
    else
      let body := r.take len ++ List.replicate (len - (r.take len).length) 0
      let (ps, o) := parsePackets fuel total (j + 1 + len) (r.drop len)
      (⟨h / 2 ^ 17, h / 2 ^ 12 % 32, len, j, body⟩ :: ps, o)

/-! ### Colour-space tag (Table 13.6) and black (R83) -/

def tagFull (t : Nat) : Bool := t.testBit 5
def tagRgb (t : Nat) : Bool := t.testBit 4

/-- Black of a colour-space tag for component c of a pixel at native precision: alpha at full opacity. -/
def blackOf (tag component : Nat) : Nat :=
  if component = 3 then 2 ^ 20 - 1
  else if tagRgb tag || component = 0 then (if tagFull tag then 0 else 64 * 2 ^ 10)
  else 512 * 2 ^ 10

/-! ### Audio blocks (R75 to R77) -/

def blockSamples (blklen : Nat) : Nat := 16 * (blklen + 1)

def audSampleSymbols (nch b : Nat) : Nat := ceilDiv (6 * nch * b) 5

def audSideSymbols (nch b : Nat) : Nat := 5 * ceilDiv nch 2 * b / 16

/-- Samples of a block in order, as 24-bit two's complement. -/
def audSamples (nch b : Nat) (syms : List Nat) : List Int :=
  (cutBits 24 (nch * b) (lineBits syms)).map (decInt 24)

/-- Bits V, U (of channel c), C and Z of frame i in a block's side information. -/
def audSide (syms : List Nat) (c b i : Nat) : Nat :=
  let grp := (c / 2) * (b / 16) + i / 16
  let bs := lineBits ((syms.drop (5 * grp)).take 5)
  let o := 6 * (i % 16)
  b2n (bs.getD (o + 2 * (c % 2)) false) + 2 * b2n (bs.getD (o + 2 * (c % 2) + 1) false) + 4 * b2n (bs.getD (o + 4) false) +
    8 * b2n (bs.getD (o + 5) false)

/-- The sample symbols of a block, whose values come frame by frame (R76). -/
def audSampleList (l : List Int) : List Nat := symbolsOf (l.flatMap fun v => bitsOf 24 (encInt 24 v))

/-- The side symbols of a block of `b` frames (R77): for each pair and each 16 frames, 96 bits and 4 zero bits. `side f c` gives bits V, U, C
and Z of channel `c` in frame `f`; the odd channel of an odd last pair carries zero. -/
def audSideList (nch b : Nat) (side : Nat → Nat → Nat) : List Nat :=
  let frame (p f : Nat) : List Bool :=
    let e := side f (2 * p)
    let o := if 2 * p + 1 < nch then side f (2 * p + 1) else 0
    [e.testBit 0, e.testBit 1, o.testBit 0, o.testBit 1, e.testBit 2, e.testBit 3]
  (List.range (ceilDiv nch 2)).flatMap fun p => (List.range (b / 16)).flatMap fun g =>
    symbolsOf (((List.range 16).flatMap fun i => frame p (16 * g + i)) ++ List.replicate 4 false)

/-- An AUD packet of TAG 0 (Table 3.8). -/
def audSymbols (rate nch b tsOffset : Nat) (samples : List Int) (side : Nat → Nat → Nat) : List Nat :=
  let body := [(b / 16 - 1) * 2 ^ 18 + rate * 2 ^ 15 + (nch - 1) * 2 ^ 10, tsOffset % 2 ^ 20] ++ audSampleList samples ++ audSideList nch b side
  (4 * 2 ^ 17 + body.length) :: body

/-- A VID packet (Table 3.3): `line` counts from 1, and `codes` are the components of whole packing groups but for the last. -/
def vidSymbols (mode line pixel0 : Nat) (last : Bool) (codes : List Nat) : List Nat :=
  let data := symbolsOf (codes.flatMap (bitsOf (modeDepth mode)))
  let n := ceilDiv (codes.length / max (modeComponents mode) 1) (groupPixels mode) * groupSymbols mode
  [2 ^ 17 + (2 + n), mode * 2 ^ 16 + line, b2n last * 2 ^ 19 + pixel0] ++ data ++ List.replicate (n - data.length) 0

/-- Pixels of the longest segment that a superframe of one lane holds: 4,084 data symbols of whole groups, a multiple of the alignment. -/
def segmentPixels (mode : Nat) : Nat := 4084 / groupSymbols mode * groupPixels mode / modeAlign mode * modeAlign mode

/-- The VID packets of a line from pixel `x0` on; `n` bounds their number. -/
def vidPackets (mode line : Nat) : Nat → Nat → List Nat → List (List Nat)
  | 0, _, _ => []
  | n + 1, x0, codes =>
    let k := segmentPixels mode * modeComponents mode
    if codes.length ≤ k then (if codes.isEmpty then [] else [vidSymbols mode line x0 true codes])
    else vidSymbols mode line x0 false (codes.take k) :: vidPackets mode line n (x0 + segmentPixels mode) (codes.drop k)

/-- The symbols of lane `k` of `g` among a group's symbols (R59). -/
def laneShare (g : Nat) : Nat → List Nat → List Nat
  | _, [] => []
  | 0, v :: r => v :: laneShare g (g - 1) r
  | k + 1, _ :: r => laneShare g k r

/-- The packets that fit in the `room` symbols left of a superframe, in order, and those that wait (R59). -/
def fitPackets : Nat → List (List Nat) → List (List Nat) × List (List Nat)
  | _, [] => ([], [])
  | room, p :: r =>
    if p.length ≤ room then
      let (a, b) := fitPackets (room - p.length) r
      (p :: a, b)
    else ([], p :: r)

end Sys2Proof.Machine
end

