-- ==== Sys2Proof/Machine/Slots.lean ====
section
/-! DEFINITION. The bytes of the Millpond, its memory formats, the object that a handle names, and the slots of its rings
(chapter 7). -/

namespace Sys2Proof.Machine

/-- User capacity (R161). -/
def pondSize : Nat := 68719476736

def State.pondByte (s : State) (a : Nat) : Byte := mget zeroByte s.pond.mem a
def State.pondRead (s : State) (a n : Nat) : List Byte := mread zeroByte s.pond.mem a n
def State.pondWrite (s : State) (a : Nat) (bs : List Byte) : State :=
  { s with pond := { s.pond with mem := mwrite zeroByte s.pond.mem a bs } }
def State.pondNat (s : State) (a n : Nat) : Nat := leNat (s.pondRead a n)

/-! ### Memory formats (Table 7.1, R169) -/

def memDepth : Nat → Nat
  | 0 | 2 | 4 => 10 | 1 | 3 => 12 | _ => 20

def memComponents : Nat → Nat
  | 0 | 1 | 7 => 2 | 4 | 6 => 4 | _ => 3

def memBits (f : Nat) : Nat := memDepth f * memComponents f

/-- Sampling structure: 0 4:2:2, 1 4:4:4, 2 RGBA. -/
def memStructure (f : Nat) : Nat := match memComponents f with
  | 2 => 0
  | 4 => 2
  | _ => 1

/-- Line pitch in bytes. -/
def pitch (w f : Nat) : Nat := 256 * ceilDiv (w * memBits f) 2048

/-! ### Objects and slots (R163, Table 7.3) -/

def slotSize (w h f : Nat) : Nat := 16640 + pitch w f * h

/-- The object a handle names (R163): index in [13:0], generation in [31:14]. -/
def State.bufAt (s : State) (handle : Nat) : Option Buf :=
  if fget 0 s.pond.gens (handle % 16384) = handle / 16384 then fget none s.pond.bufs (handle % 16384) else none

/-- Address of slot `k` of a ring at `base`. -/
def slotAddr (base size k : Nat) : Nat := base + 256 + k * size

def State.slotState (s : State) (a : Nat) : Nat := s.pondNat (a + 24) 4
def State.slotFrame (s : State) (a : Nat) : Nat := s.pondNat a 8
def State.slotDone (s : State) (a : Nat) : Nat := s.pondNat (a + 16) 8

def State.setSlotState (s : State) (a st : Nat) : State := s.pondWrite (a + 24) (leBytes 4 st)

/-- A writer takes a slot for a frame: STATE 1, an empty ANC area, the reserved bytes 0. -/
def State.openSlot (s : State) (a frame line1 : Nat) : State :=
  s.pondWrite a (leBytes 8 frame ++ leBytes 8 line1 ++ leBytes 8 0 ++ leBytes 4 1 ++ leBytes 228 0)

/-- A frame ends at `t`: complete with DONE_STC, the STC of that time, or STATE 3. -/
def State.closeSlot (s : State) (a : Nat) (good : Bool) (t : Tick) : State :=
  if good then (s.pondWrite (a + 16) (leBytes 8 (s.stcOf t))).setSlotState a 2 else s.setSlotState a 3

def isRing (b : Buf) : Bool := b.params.typ == 0 || b.params.typ == 2

/-- A ring's slot header address. -/
def Buf.slot (b : Buf) (k : Nat) : Nat := slotAddr b.addr (slotSize b.params.width b.params.height b.params.format) k

/-- The handles that a kernel block names (R243, Tables 9.7 and 9.8). -/
def blockHandles : KBlock → List Nat
  | .deint b => [b.hist]
  | .frcMc b => [b.hist, b.mv]
  | .frcBlend b => [b.hist]
  | _ => []

/-- NB of R228. -/
def blocksOf (w h : Nat) : Nat := ceilDiv w 16 * ceilDiv h 16

/-- The bytes of a bank of an FRC_MC task's vector field (R239), by address and number: the bank that the running task uses, or the other. -/
def State.vectorBank (s : State) (t : Task) (other : Bool) : Option (Nat × Nat) :=
  match t.p.block with
  | .frcMc b => (s.bufAt b.mv).map fun v =>
      let n := 64 * blocksOf t.p.in0.width t.p.in0.height
      (v.addr + (t.mvBank + b2n other) % 2 * n, n)
  | _ => none

/-- The vectors of tasks are zero (R242). -/
def State.resetVectors (s : State) (es : List Nat) : State :=
  State.each (fun e s => match (fget none s.engines.tasks e).bind fun t => s.vectorBank t false with
    | some (a, n) => s.pondWrite a (leBytes n 0)
    | none => s) es s

/-- The ring that a captured task writes (R224). -/
def State.histBuf (s : State) (t : Task) : Option Buf := (blockHandles t.p.block).head?.bind s.bufAt

/-- The slots of frames left unfinished take STATE 3 (R174). -/
def State.failSlots (l : List Nat) (s : State) : State := State.each (fun a s => s.setSlotState a 3) l s

/-- The slot a reservation's writer is in. -/
def resvWriting (v : Resv) : Option Nat := v.writing.map fun w => slotAddr v.base v.slotSize w.slot

/-- The ring slot a capture writer is in. -/
def State.capWriting (s : State) (c : CapBind) : Option Nat :=
  c.writing.bind fun w => (s.bufAt c.p.handle).bind fun b => if isRing b then some (b.slot w.slot) else none

/-- The slot a captured task's writer is in. -/
def State.taskWriting (s : State) (t : Task) : Option Nat :=
  t.writing.bind fun w => (s.histBuf t).map fun b => b.slot w.slot

end Sys2Proof.Machine
end

