-- ==== Sys2Proof/Machine/Lanes.lean ====
section
/-! DEFINITION. Lanes and bundles: lock states, the lane receiver, groups and presence, sleep, loopbacks, test patterns and
the commands of Table 13.4 but LANE_TRAIN (chapters 4 and 5). Bundle 64 is the Brinen link. -/

namespace Sys2Proof.Machine

def State.rxDir (s : State) (b : Nat) : RxDir := fget {} s.rx b
def State.txDir (s : State) (b : Nat) : TxDir := fget {} s.tx b
def State.setRx (s : State) (b : Nat) (d : RxDir) : State := { s with rx := fset {} s.rx b d }
def State.setTx (s : State) (b : Nat) (d : TxDir) : State := { s with tx := fset {} s.tx b d }

def rxLaneOf (d : RxDir) (k : Nat) : RxLane := d.lanes.getD k {}
def txLaneOf (d : TxDir) (k : Nat) : TxLane := d.lanes.getD k {}

/-- A lane of a list changed. -/
def setAt {α : Type} : List α → Nat → α → List α
  | [], _, _ => []
  | _ :: r, 0, v => v :: r
  | x :: r, k + 1, v => x :: setAt r k v

/-- Elements changed by a function of index and element. -/
def mapAt {α : Type} (f : Nat → α → α) : Nat → List α → List α
  | _, [] => []
  | i, x :: r => f i x :: mapAt f (i + 1) r

def State.setRxLane (s : State) (b k : Nat) (l : RxLane) : State :=
  s.setRx b { s.rxDir b with lanes := setAt (s.rxDir b).lanes k l }

def State.setTxLane (s : State) (b k : Nat) (l : TxLane) : State :=
  s.setTx b { s.txDir b with lanes := setAt (s.txDir b).lanes k l }

/-- Counter unit of a lane (Table 19.2). -/
def laneUnit (b k : Nat) : Nat := if b = 64 then 512 + k else 8 * b + k

/-- The event of a receive bundle (Table 18.2); the Brinen link has its own, source 976. -/
def State.rxEvent (s : State) (b : Nat) : State := if b = 64 then s.fire 976 else s.fire (64 + b)

/-- Superframe length in ticks at a rate of Table 4.1, rounded down: 86,016 bit periods of 9/400 tick at 12.0 Gb/s. -/
def superframeTicks (rate : Nat) : Nat := 86016 * 9 * 2 ^ rate / 400

/-- The lanes a direction runs: those of its mask while it is enabled. -/
def RxDir.live (d : RxDir) (k : Nat) : Bool := d.enable && !d.asleep && d.mask.testBit k

/-- Expected LANE_ID (R99). DESIGN CHOICE (assumption 39): with an EXPECT_BASE above 504 it wraps at 512, the width of LANE_ID. -/
def RxDir.expected (d : RxDir) (b k : Nat) : Nat := (d.expectBase.getD (if b = 64 then 0 else 8 * b) + k) % 512

/-- A lane in a state, with every run of Table 4.5 counted from zero. -/
def RxLane.moveTo (l : RxLane) (st : LaneSt) : RxLane :=
  { l with st := st, confirms := 0, missRun := 0, crcRun := 0, sfcRun := 0, seedRun := 0, seedSfc := none, seedOk := false,
           cleanRun := 0, bcIn := 0, held := none, delivered := false }

/-- The state that a lane held strictly before `now` (R101). -/
def RxLane.stBefore (l : RxLane) (now : Tick) : LaneSt := if l.stT = now then l.stWas else l.st

/-- A lane moves to a state of Table 4.5; an exit from LOCKED is counted and raises the bundle's event (R100). -/
def State.laneTo (s : State) (b k : Nat) (st : LaneSt) : State :=
  let l := rxLaneOf (s.rxDir b) k
  let s' := s.setRxLane b k { l.moveTo st with stWas := l.stBefore s.now, stT := s.now }
  if l.st = .locked && st != .locked then (s'.count 1 (laneUnit b k) 7).rxEvent b else s'

/-- The lanes of a direction in ascending order: eight, or four on the Brinen link. -/
def lanesOf (b : Nat) : List Nat := List.range (if b = 64 then 4 else 8)

/-- Every lane of the direction, but those under test, goes to IDLE (R98). -/
def State.lanesIdle (s : State) (b : Nat) : State :=
  State.each (fun k s => if (rxLaneOf (s.rxDir b) k).st = .test then s else s.laneTo b k .idle) (lanesOf b) s

/-- Lanes that are idle and may run leave IDLE while the DLL holds lock (R98). -/
def State.lanesHunt (s : State) (b : Nat) : State :=
  State.each (fun k s =>
    let d := s.rxDir b
    if d.dll && d.live k && (rxLaneOf d k).st = .idle then s.laneTo b k .hunt else s) (lanesOf b) s

/-- A receive direction takes every lane to IDLE and reacquires with its current settings (R124, R128). -/
def State.reacquire (s : State) (b : Nat) : State := (s.lanesIdle b).lanesHunt b

/-- Some lane of a receive direction has a checker, or of a transmit direction a generator. -/
def RxDir.prbs (d : RxDir) : Bool := d.lanes.any fun l => l.prbs.isSome
def TxDir.prbs (d : TxDir) : Bool := d.lanes.any fun l => l.prbs.isSome

/-- A training round runs (Table 5.3). -/
def RxDir.training (d : RxDir) : Bool := d.phase != .none && d.phase != .waiting

/-! ### The lane receiver -/

/-- EXACT_COMMA_FOUND: a lane in HUNT finds the comma (R96, R98). -/
def doExactComma (b k : Nat) (s : State) : State :=
  if (rxLaneOf (s.rxDir b) k).st = .hunt then s.laneTo b k .confirm else s

/-- What a superframe does to its lane's counters in SEED and LOCKED (R96, R100): line symbols are counted in LOCKED only, where alone an SFC
is predicted. -/
def State.countLane (s : State) (b k : Nat) (sf : Superframe) (locked : Bool) (expected : Nat) : State :=
  let u := laneUnit b k
  let s1 := (s.count 1 u 0 (if locked then 4096 else 0)).count 1 u 1 sf.stuffBits
  let s2 := (s1.count 1 u 2 sf.violations).count 1 u 3 (b2n (!sf.crcOk))
  let s3 := s2.count 1 u 4 (b2n (decide (sf.comma = 1 ∨ sf.comma = 2)))
  (s3.count 1 u 5 (b2n (decide (2 < sf.comma)))).count 1 u 6 (b2n (locked && sf.sfc != expected))

/-- The 1 bits of a symbol. -/
def ones (v : Nat) : Nat := total b2n (bitsOf 20 v)

/-- What a superframe adds to the error count of a dwell (R113). -/
def dwellErrors (sf : Superframe) : Nat := if sf.crcOk && decide (sf.comma ≤ 2) then total ones sf.payload else 81740

/-- A step of the receiver on one superframe (R96, R98, R99): the runs that Table 4.5 judges. -/
def superframeLane (d : RxDir) (b k : Nat) (sf : Superframe) (now : Tick) (l : RxLane) : RxLane :=
  let miss := if 2 < sf.comma then l.missRun + 1 else 0
  match l.st with
  | .confirm => if sf.comma = 0 then { l with confirms := l.confirms + 1 } else l.moveTo .hunt
  | .seed =>
    let ok := sf.crcOk && sf.laneId == d.expected b k
    { l with missRun := miss, seedRun := l.seedRun + 1, seedSfc := if ok then some sf.sfc else none,
             seedOk := ok && l.seedSfc == some ((sf.sfc + 2 ^ 32 - 1) % 2 ^ 32), sfc := sf.sfc }
  | .locked =>
    let e := (l.sfc + 1) % 2 ^ 32
    { l with missRun := miss, crcRun := if sf.crcOk then 0 else l.crcRun + 1,
             sfcRun := if sf.sfc = e then 0 else l.sfcRun + 1, sfc := e,
             cleanRun := if sf.withdrawn then 0 else l.cleanRun + 1, withdrawn := sf.withdrawn,
             bcIn := if sf.crcOk then sf.bc else l.bcIn, held := some sf, delivered := false,
             arrival := now - superframeTicks d.rate,
             dwell := l.dwell + dwellErrors sf, dwellN := l.dwellN + 1 }
  | _ => l

/-- A lane's adaptation step: at most one code per tap, of values the spec does not state (R121). -/
def State.adaptLane (s : State) (b k : Nat) : State :=
  let l := rxLaneOf (s.rxDir b) k
  let (v, s1) := s.freeNat
  let nudge (x : Int) (i : Nat) (m : Int) : Int := max (-m) (min m (x + ((v / 3 ^ i % 3 : Nat) : Int) - 1))
  s1.setRxLane b k { l with set := { l.set with
    dfe1 := nudge l.set.dfe1 0 63, dfe2 := nudge l.set.dfe2 1 31, dfe3 := nudge l.set.dfe3 2 31,
    dfe4 := nudge l.set.dfe4 3 31, dfe5 := nudge l.set.dfe5 4 31,
    interp := (max 0 (min 63 ((l.set.interp : Int) + ((v / 3 ^ 5 % 3 : Nat) : Int) - 1))).toNat } }

/-- A step of the CTLE and DFE adaptation that goes on throughout FIR (R113), by codes the spec does not state. -/
def State.adaptFir (s : State) (b k : Nat) : State :=
  let s1 := s.adaptLane b k
  let l := rxLaneOf (s1.rxDir b) k
  let (v, s2) := s1.freeNat
  let near (x n i : Nat) : Nat := min n (x + v / 3 ^ i % 3 - 1)
  s2.setRxLane b k { l with set := { l.set with peak := near l.set.peak 15 0, dcGain := near l.set.dcGain 7 1 } }

/-- Lane `k` belongs to a stream that is present. -/
def State.inPresent (s : State) (b k : Nat) : Bool :=
  s.rxStreams.any fun e => e.2.any fun (x : RxStream) =>
    x.present && x.cfg.bundle == b && decide (x.cfg.lane ≤ k) && decide (k < x.cfg.lane + x.cfg.g)

/-- The superframe that reaches lane `k`'s receiver: on a near-end path the last one that its own transmitter has sent whole, and no pin
(Table 5.6); otherwise the one on its pins. -/
def State.arriving (s : State) (b k : Nat) (f : Superframe) : Option Superframe :=
  let d := s.rxDir b
  let l := rxLaneOf d k
  if d.loopback = 1 then ((txLaneOf (s.txDir b) k).sent[1]?).map fun g => { g with adaptDue := f.adaptDue }
  else if d.loopback = 2 then ((txLaneOf (s.txDir b) k).sent[1]?).map fun g => { g with stuffBits := 0, adaptDue := f.adaptDue }
  else some (receivedFrame (l.st == .seed) (d.expected b k) ((l.sfc + 1) % 2 ^ 32) f)

/-- Lanes on which a transmit direction sends framing. -/
def TxDir.framing (d : TxDir) (b : Nat) : List Nat := (lanesOf b).filter fun k => d.mask.testBit k && (txLaneOf d k).prbs.isNone

/-- A slip of the far-end path is counted on every lane (R125). -/
def State.slip (s : State) (b : Nat) : State := State.each (fun k s => s.count 2 (laneUnit b k) 2 1) ((s.txDir b).framing b) s

def TxLane.push (k : Nat) (f : Superframe) (drop : Bool) (i : Nat) (l : TxLane) : TxLane :=
  let r := if drop then l.loop.drop 1 else l.loop
  { l with loop := if i = k then r ++ [f] else r }

/-- A received superframe enters its lane's buffer of the far-end path, which holds two: at an overflow every lane drops its oldest (R125). -/
def State.loopIn (s : State) (b k : Nat) (f : Superframe) : State :=
  let d := s.txDir b
  if d.loopback != 3 then s
  else
    let full := decide (2 ≤ (txLaneOf d k).loop.length)
    (if full then s.slip b else s).setTx b { d with lanes := mapAt (TxLane.push k f full) 0 d.lanes }

/-- SUPERFRAME_RECEIVE: a lane receives a superframe; SLEEP = 1 takes its direction to IDLE (R98, R122). DESIGN CHOICE (assumption 39): the
SLEEP flag of a superframe whose CRC fails does not act, while its WITHDRAWN flag does. -/
def doSuperframe (b k : Nat) (sf : Superframe) (s0 : State) : State :=
  match s0.arriving b k sf with
  | none => s0
  | some f =>
    let st := (rxLaneOf (s0.rxDir b) k).st
    let s := if st = .locked && (s0.rxDir b).phase = .fir then s0.adaptFir b k
      else if f.adaptDue && st = .locked && (s0.rxDir b).adapt && !s0.inPresent b k then s0.adaptLane b k else s0
    let d := s.rxDir b
    let l := rxLaneOf d k
    let s1 := if st = .locked || st = .seed then s.countLane b k f (st == .locked) ((l.sfc + 1) % 2 ^ 32) else s
    let s2 := s1.setRxLane b k (superframeLane d b k f s.now l)
    let s3 := if st = .locked then s2.loopIn b k f else s2
    if st = .locked && f.crcOk && f.sleep then s3.lanesIdle b else s3

/-- LANE_ENTER_SEED: three further exact commas (Table 4.5). -/
def doEnterSeed (b k : Nat) (s : State) : State :=
  let l := rxLaneOf (s.rxDir b) k
  if l.st = .confirm && 3 ≤ l.confirms then s.laneTo b k .seed else s

/-- MISCONNECTION_EVENT: 16 consecutive superframes completed in SEED without a confirmed seed (R99). DESIGN CHOICE (assumption 39): the count
starts again, so the event repeats after each further 16. -/
def doMisconnection (b k : Nat) (s : State) : State :=
  let l := rxLaneOf (s.rxDir b) k
  if l.st = .seed && 16 ≤ l.seedRun && !l.seedOk then
    (s.setRxLane b k { l with seedRun := 0 }).rxEvent b
  else s

/-- LANE_LOSS_OF_LOCK: the runs of Table 4.5 take a lane to HUNT. -/
def doLossOfLock (b k : Nat) (s : State) : State :=
  let l := rxLaneOf (s.rxDir b) k
  if (l.st = .seed && 2 ≤ l.missRun) || (l.st = .locked && (2 ≤ l.missRun || 4 ≤ l.crcRun || 2 ≤ l.sfcRun)) then
    s.laneTo b k .hunt
  else s

/-- FORWARDED_CLOCK_LOST: every lane of the bundle goes to IDLE at once (R95). -/
def doClockLost (b : Nat) (s : State) : State :=
  let d := s.rxDir b
  if d.dll then (s.setRx b { d with dll := false }).lanesIdle b else s

/-! ### Groups and presence -/

def State.rxStream (s : State) (n : Nat) : Option RxStream := fget none s.rxStreams n
def State.txStream (s : State) (n : Nat) : Option TxStream := fget none s.txStreams n

/-- What a decision reads of a stream, and a stream with that put back. -/
def RxStream.view (x : RxStream) : RxView := ⟨x.present, x.stale, x.formatOk, x.marked, x.frame, x.markT, x.period⟩
def RxStream.withView (x : RxStream) (v : RxView) : RxStream :=
  { x with present := v.present, stale := v.stale, formatOk := v.formatOk, marked := v.marked, frame := v.frame, markT := v.markT,
           period := v.period }

/-- A stream set, with what decisions saw of it before (R21). -/
def State.setRxStream (s : State) (n : Nat) (x : Option RxStream) : State :=
  let old : RxView := ((fget none s.rxStreams n).map RxStream.view).getD {}
  { s with rxStreams := fset none s.rxStreams n (x.map fun y => { y with views := noteChange s.now old y.view y.views }) }
def State.setTxStream (s : State) (n : Nat) (x : Option TxStream) : State := { s with txStreams := fset none s.txStreams n x }

/-- Packets of output `n` wait for its next superframes; a group that sends IDL, or whose lane key is dead, makes none (R110, R123, R441). -/
def State.queuePackets (s : State) (n : Nat) (ps : List (List Nat)) : State :=
  match s.txStream n with
  | some x => if x.idle || x.keyDead then s else s.setTxStream n (some { x with queue := x.queue ++ ps })
  | none => s

/-- The stream whose first IN point is `n` is present (R19). -/
def State.present (s : State) (n : Nat) : Bool :=
  match s.rxStream n with
  | some x => x.present
  | none => false

/-- The lanes of a receive group. -/
def groupLanes (c : StreamSetP) : List Nat := (List.range c.g).map (c.lane + ·)

/-- Any stream of a receive direction is present. -/
def State.anyPresent (s : State) (b : Nat) : Bool :=
  s.rxStreams.any fun e => match e.2 with
    | some x => x.cfg.bundle == b && x.present
    | none => false

/-- A capture writer's frame in progress is marked incomplete, so it never completes (R19, R145). -/
def spoil (w : Option Writing) : Option Writing := w.map fun x => { x with good := false }

/-- A reservation whose source becomes absent: the frames it holds are no candidates any more (R148). -/
def stopResv (now : Tick) (v : Resv) : Resv := { v with writing := spoil v.writing, stopT := some now }

def stopCapture (c : CapBind) : CapBind := { c with writing := spoil c.writing }

/-- A captured task's history is emptied, the frame in progress with it (R226). -/
def emptyHistory (t : Task) : Task := { t with writing := none, history := [], lost := [] }

/-- Every writer fed from source point `n` stops: its frame in progress is left unfinished (Table 1.2, R145, R174, R226). -/
def State.stopWriters (s : State) (n : Nat) : State :=
  let fed (e : Nat × Option Route) : Bool := match e.2 with
    | some r => r.src == n
    | none => false
  let feeds := s.routes.routes.filter fed
  let dests := feeds.map (·.1)
  let open_ : List Nat :=
    (feeds.filterMap fun e => e.2.bind fun (r : Route) => r.resv.bind resvWriting) ++
    (s.routes.waits.filterMap fun (w : RouteWait) => if w.entry.src = n then w.resv.bind resvWriting else none) ++
    (s.pond.caps.filterMap fun e => if dests.contains (896 + e.1) then e.2.bind s.capWriting else none) ++
    (s.engines.tasks.filterMap fun e => if dests.contains (512 + 2 * e.1) then e.2.bind s.taskWriting else none)
  let s1 := s.failSlots open_
  let rs := tmap none (fun _ (e : Option Route) => e.map fun r =>
    if r.src = n then { r with resv := r.resv.map (stopResv s.now) } else r) s1.routes.routes
  let caps := tmap none (fun k (e : Option CapBind) =>
    if dests.contains (896 + k) then e.map stopCapture else e) s1.pond.caps
  let tasks := tmap none (fun k (e : Option Task) =>
    if dests.contains (512 + 2 * k) then e.map emptyHistory else e) s1.engines.tasks
  let s2 : State := { s1 with routes := { s1.routes with routes := rs, waits := s1.routes.waits.map fun w =>
                                if w.entry.src = n then { w with resv := w.resv.map (stopResv s.now) } else w },
                              pond := { s1.pond with caps := caps },
                              engines := { s1.engines with tasks := tasks } }
  s2.resetVectors (s1.engines.tasks.filterMap fun e => if dests.contains (512 + 2 * e.1) then some e.1 else none)

/-- The history of the task at `e` is emptied, a slot in progress left unfinished (R226, R174), and motion vectors set to zero (R242). -/
def State.dropHistory (s : State) (e : Nat) : State :=
  match fget none s.engines.tasks e with
  | some t =>
    let s1 := s.failSlots (s.taskWriting t).toList
    State.resetVectors { s1 with engines := { s1.engines with tasks := fset none s1.engines.tasks e (some (emptyHistory t)) } } [e]
  | none => s

/-- What a withdrawal does to the parser: no segment is in order before the next frame marker. -/
def absentNow (x : RxStream) : RxStream :=
  { x with present := false, cleanRun := 0, frameGood := false, fieldGood := false, lastLine := x.cfg.activeLines,
           nextPixel := x.cfg.activeSamples }

/-- A stream is withdrawn and absent from this boundary (R101, R19). -/
def State.withdraw (s : State) (n : Nat) : State :=
  match s.rxStream n with
  | some x =>
    if x.present then
      (((s.setRxStream n (some (absentNow x))).count 3 n 13).stopWriters n).rxEvent x.cfg.bundle
    else s.setRxStream n (some { x with cleanRun := 0 })
  | none => s

/-- The superframe that ends carried a VID packet of the lane's group. -/
def carriesVid (ls : List RxLane) : Bool :=
  let pay := ls.map fun l => (l.held.map (·.payload)).getD []
  let n := total List.length pay
  (parsePackets n (4087 * ls.length) 0 (interleave pay 0 (ls.length * (pay.map List.length).foldl max 0))).1.any
    fun p => p.typ == 1

/-- Adaptation at a group's boundary (R121): a due step is taken when the superframe carried no VID packet. -/
def State.adapt (s : State) (b : Nat) (ks : List Nat) (vid : Bool) : State :=
  if (s.rxDir b).adapt then
    State.each (fun k s =>
      let l := rxLaneOf (s.rxDir b) k
      if l.st = .locked && (l.held.map (·.adaptDue)).getD false && !vid then s.adaptLane b k else s) ks s
  else s

/-- The lanes with a step due in this superframe that a VID packet forbids, kept until one is taken (R121). -/
def adaptMiss (cfg : StreamSetP) (d : RxDir) (vid : Bool) (x : RxStream) : RxStream :=
  let due := (groupLanes cfg).filter fun k => ((rxLaneOf d k).held.map (·.adaptDue)).getD false
  { x with missed := if vid then (x.missed ++ due).eraseDups else x.missed.filter fun k => !due.contains k }

/-- The group that a change of G ended is absent from this boundary (R363, R101). -/
def State.endOld (s : State) (n : Nat) (x : RxStream) : State :=
  if x.ending then ((s.setRxStream n (some { x with ending := false })).count 3 n 13).rxEvent x.cfg.bundle else s

/-- GROUP_SUPERFRAME_BOUNDARY: the Headrace decides the presence of the group that begins at point `n` (R97, R101). DEDUCED (assumption 39):
the SFCs compared are those of superframes whose CRC passes. DESIGN CHOICE (assumption 39): superframes that complete during a training round
do not count towards the 16 of R102. -/
def doGroupBoundary (n spread : Nat) (s : State) : State :=
  match s.rxStream n with
  | none => s
  | some x =>
    let b := x.cfg.bundle
    let d := s.rxDir b
    let ls := (groupLanes x.cfg).map (rxLaneOf d)
    let sfcs := ls.filterMap fun l => l.held.bind fun f => if f.crcOk then some f.sfc else none
    let skew := decide (64 < spread) || !(sfcs.all fun v => some v == sfcs.head?)
    let locked := ls.all fun l => l.stBefore s.now == .locked
    let flagged := ls.any (·.withdrawn)
    let clean := locked && !skew && !flagged && !d.training && ls.all (fun l => decide (1 ≤ l.cleanRun))
    let vid := x.present && carriesVid ls
    let x' := adaptMiss x.cfg d vid { x with ending := false, skew := skew, cleanRun := if clean then x.cleanRun + 1 else 0 }
    let x' := match x'.cryptNext with
      | some c => { x' with crypt := c, cryptNext := none, keyDead := false }
      | none => x'
    let s1 := (s.endOld n x).setRxStream n (some x')
    let s2 := if skew && !x.skew then s1.rxEvent b else s1
    let s3 := if x.present then s2.adapt b (groupLanes x.cfg) vid else s2
    if !locked || skew || flagged || d.training then s3.withdraw n else s3

/-- Whole measured frame periods since the last marker. -/
def RxStream.lapAt (x : RxStream) (t : Int) : Nat := if x.period = 0 then 0 else ((t - x.markT) / (x.period : Int)).toNat

/-- STREAM_PRESENT: 16 clean superframes completed before the boundary (R102). -/
def doStreamPresent (n : Nat) (s : State) : State :=
  match s.rxStream n with
  | none => s
  | some x =>
    if !x.present && 16 ≤ x.cleanRun && !x.skew then
      (s.setRxStream n (some { x with present := true, lap := x.lapAt s.now })).rxEvent x.cfg.bundle
    else s

/-! ### Transmit directions -/

/-- A transmit direction makes framing, and sends it: on the near-end serial path its pins are idle (Table 5.6). -/
def TxDir.runs (d : TxDir) : Bool := d.enable && !d.asleep && d.phase != .idle
def TxDir.sends (d : TxDir) : Bool := d.runs && d.loopback != 1

def State.anySends (s : State) : Bool := (List.range 65).any fun b => (s.txDir b).sends

/-- Every transmit direction that sends framing sends withdrawn superframes before it goes idle (R398, R511). -/
def State.withdrawAll (s : State) (n : Nat) (why : WithdrawFor) : State :=
  State.each (fun b s => if (s.txDir b).sends then s.setTx b { s.txDir b with phase := .withdrawing n why } else s)
    (List.range 65) s

/-- A transmit direction goes electrically idle. -/
def State.txIdle (s : State) (b : Nat) : State := s.setTx b { s.txDir b with phase := .idle }

/-- A transmit direction starts: SFC at 0 (R88), its groups idle until the output's next frame start (R123). -/
def State.txStart (s : State) (b : Nat) : State :=
  let d := s.txDir b
  let s1 := s.setTx b { d with phase := .sending, sfc := 0, asleep := false, lanes := d.lanes.map fun l => { l with sent := [], loop := [] } }
  { s1 with txStreams := tmap none (fun _ (e : Option TxStream) => match e with
      | some x => if x.cfg.bundle = b then some { x with idle := true } else e
      | none => e) s1.txStreams }

/-! ### Commands -/

def rateOk (r : Nat) : Bool := decide (r < 3)

/-- A declared spread (Tables 13.4 and 13.11). -/
def spreadOk (v : Nat) : Bool :=
  if v.testBit 7 then v == 128 else decide (v ≤ 10)

/-- BUNDLE_SET checks (R360, R361). -/
def chkBundleSet (p : BundleSetP) (s : State) : Check :=
  failIf (decide (64 ≤ p.bundle) || decide (2 ≤ p.dir) || !rateOk p.rate || decide (256 ≤ p.laneMask) || p.rsvd != 0) stBadParam
  <|> failIf (p.dir == 0 && (p.swing != 0 || (511 < p.expectBase && p.expectBase != 0xFFFF) || !spreadOk p.spread)) stBadParam
  <|> failIf (p.dir == 1 && (decide (p.swing < 40) || decide (100 < p.swing) || p.expectBase != 0 || p.spread != 0)) stBadParam
  <|> failIf (if p.dir = 0 then (s.rxDir p.bundle).loopback != 0 || (s.rxDir p.bundle).prbs
        else (s.txDir p.bundle).loopback != 0 || (s.txDir p.bundle).prbs) stBusy

/-- A running round ends without counting as a failure, and a pending LANE_TRAIN is cancelled (R118). -/
def State.dropRound (s : State) (b : Nat) : State :=
  let d := s.rxDir b
  let s1 := if d.phase = .none then s
    else s.setRx b { d with phase := .none, lanes := d.lanes.map fun l => { l with fir := { l.fir with waiting := false } } }
  s1.completeWhere (fun j => match j.params with
    | .laneTrain p => p.bundle == b
    | _ => false) stCancelled 0 none

/-- A new EXPECT_BASE acts at once on every lane in SEED or LOCKED (R99). -/
def State.reseed (s : State) (b : Nat) : State :=
  State.each (fun k s =>
    let st := (rxLaneOf (s.rxDir b) k).st
    if st = .seed || st = .locked then s.laneTo b k .seed else s) (lanesOf b) s

/-- BUNDLE_SET on a receive direction (R84, R99, R361); the round after a change of rate starts with it. -/
def setRxBundle (p : BundleSetP) (s : State) : State :=
  let b := p.bundle
  let d := s.rxDir b
  let base := if p.expectBase = 0xFFFF then none else some p.expectBase
  let d' := { d with enable := p.enable, mask := p.laneMask, rate := p.rate, trainAuto := p.trainAuto, adapt := p.adapt,
                     expectBase := base, spread := p.spread }
  let rateChange := d.rate != p.rate
  let s1 := if rateChange then s.dropRound b else s
  let s2 := s1.setRx b { d' with phase := (s1.rxDir b).phase, lanes := (s1.rxDir b).lanes }
  let s3 := if rateChange then s2.lanesIdle b else s2
  let s4 := State.each (fun k s =>
    let l := rxLaneOf (s.rxDir b) k
    if !(s.rxDir b).live k && l.st != .idle && l.st != .test then s.laneTo b k .idle else s) (lanesOf b) s3
  let s5 := if d.expected b 0 != d'.expected b 0 then s4.reseed b else s4
  let s6 := if rateChange then s5 else s5.lanesHunt b
  if rateChange then s6.setRx b { s6.rxDir b with dll := false } else s6

/-- BUNDLE_SET on a transmit direction; only BUNDLE_WAKE wakes one that is asleep (R122). -/
def setTxBundle (p : BundleSetP) (s : State) : State :=
  let b := p.bundle
  let d := s.txDir b
  let d' := { d with enable := p.enable, mask := p.laneMask, rate := p.rate, trainAuto := p.trainAuto, adapt := p.adapt,
                     swing := p.swing }
  let s1 := s.setTx b d'
  if (d.rate != p.rate || (p.enable && !d.enable)) && !d.asleep then s1.txStart b else s1

def startBundleSet (p : BundleSetP) (s : State) : Ans :=
  orAns (chkBundleSet p s) (.done (if p.dir = 0 then setRxBundle p s else setTxBundle p s))

def chkBundleDir (p : BundleDirP) : Check :=
  failIf (decide (64 ≤ p.bundle) || decide (2 ≤ p.dir) || p.rsvd != 0) stBadParam

/-- A lane asks its partner's transmitter on the paired transmit lane, with a new SEQ (R108). DESIGN CHOICE (assumption 39): a transmit lane has
one BC value, and the latest replaces what it sent before, an acknowledge too. -/
def State.askPartner (s : State) (b k tap action preset : Nat) (waits : Bool) : State :=
  let l := rxLaneOf (s.rxDir b) k
  let seq := (l.fir.seq + 1) % 16
  let bc := bcField 1 tap action preset 0 seq
  let s1 := s.setRxLane b k { l with fir := { l.fir with seq := seq, asked := bc, waiting := waits, resent := false } }
  s1.setTxLane b k { txLaneOf (s1.txDir b) k with bcOut := bc }

/-- BUNDLE_SLEEP (R122). The receive direction also sends a sleep request on the paired transmit direction (R111). -/
def startBundleSleep (p : BundleDirP) (s : State) : Ans :=
  let b := p.bundle
  orAns (chkBundleDir p
    <|> failIf (if p.dir = 0 then (s.rxDir b).loopback != 0 || (s.rxDir b).prbs
          else (s.txDir b).loopback != 0 || (s.txDir b).prbs) stBusy)
    (if p.dir = 0 then
      if (s.rxDir b).asleep then .done s
      else
        let s1 := (s.dropRound b).lanesIdle b
        let s2 := s1.setRx b { s1.rxDir b with asleep := true, dll := false }
        .later (if (s2.txDir b).asleep then s2 else State.each (fun k s => s.askPartner b k 3 3 0 false) (lanesOf b) s2) .event
    else
      if (s.txDir b).asleep then .done s
      else if (s.txDir b).sends then .later (s.setTx b { s.txDir b with phase := .withdrawing 3 .sleep }) .event
      else .done (s.setTx b { s.txDir b with asleep := true, phase := .idle }))

/-- BUNDLE_WAKE (R123). -/
def startBundleWake (p : BundleDirP) (s : State) : Ans :=
  let b := p.bundle
  orAns (chkBundleDir p)
    (if p.dir = 0 then (if (s.rxDir b).asleep then .later s .event else .done s)
     else if (s.txDir b).asleep then .later s .event else .done s)

/-- The job of a bundle direction command that waits. -/
def bundleDirJob (sleep : Bool) (b dir : Nat) (q : Params) : Bool :=
  match q with
  | .bundleSleep p => sleep && p.bundle == b && p.dir == dir
  | .bundleWake p => !sleep && p.bundle == b && p.dir == dir
  | _ => false

/-- DIRECTION_SLEEP_COMPLETE: the lanes are idle, or the receivers off (R122). -/
def doSleepComplete (b dir : Nat) (s : State) : State :=
  match s.jobOf (bundleDirJob true b dir) with
  | none => s
  | some j =>
    if dir = 1 then
      if (s.txDir b).phase = .idle then s.complete j stOk 0 none else s
    else s.complete j stOk 0 none

/-- DIRECTION_WAKE_COMPLETE: a receive direction enters IDLE with its records applied, a transmit direction sends its first
comma (R123); `apply` applies the stored records (R120). -/
def doWakeComplete (apply : Nat → Nat → State → State) (b dir : Nat) (s : State) : State :=
  match s.jobOf (bundleDirJob false b dir) with
  | none => s
  | some j =>
    let s1 := if dir = 0 then (s.setRx b { s.rxDir b with asleep := false }).lanesHunt b else s.txStart b
    (apply b dir s1).complete j stOk 0 none

/-- LOOPBACK_SET (R124): a change of path ends a round, and none runs on it. -/
def startLoopback (p : LoopbackSetP) (s : State) : Ans :=
  let b := p.port
  orAns (failIf (decide (64 ≤ b) || decide (4 ≤ p.path) || p.rsvd != 0) stBadParam
    <|> failIf ((s.rxDir b).asleep || (s.txDir b).asleep || (s.rxDir b).rate != (s.txDir b).rate) stBusy)
    (if (s.rxDir b).loopback = p.path then .done s
     else
      let s0 := s.dropRound b
      let s1 := s0.setRx b { s0.rxDir b with loopback := p.path }
      let s2 := s1.setTx b { s1.txDir b with loopback := p.path }
      .done ((s2.txStart b).reacquire b))

/-- A generator of PRBS_SET on transmit lane `k`, or none for pattern 0. -/
def setGenerator (p : PrbsSetP) (k : Nat) (l : TxLane) : TxLane :=
  if p.laneMask.testBit k then
    { l with prbs := if p.pattern = 0 then none else some { pattern := p.pattern, invert := p.invert } }
  else l

/-- PRBS_SET (R126, R361). -/
def startPrbs (p : PrbsSetP) (s : State) : Ans :=
  let b := p.bundle
  let on := p.pattern != 0
  orAns (failIf (decide (64 ≤ b) || decide (2 ≤ p.dir) || decide (4 ≤ p.pattern) || decide (256 ≤ p.laneMask) || p.rsvd != 0)
      stBadParam
    <|> failIf (if p.dir = 0 then (s.rxDir b).asleep else (s.txDir b).asleep) stBusy)
    (if p.dir = 0 then
      .done ((State.each (fun k s =>
        if p.laneMask.testBit k then
          let s1 := s.laneTo b k (if on then .test else .idle)
          s1.setRxLane b k { rxLaneOf (s1.rxDir b) k with prbs := if on then some { pattern := p.pattern, invert := p.invert } else none }
        else s) (lanesOf b) (if on then s.dropRound b else s)).lanesHunt b)
    else
      .done (s.setTx b { s.txDir b with lanes := mapAt (setGenerator p) 0 (s.txDir b).lanes }))

/-- PRBS_WINDOW_CHECK: a window of 1,024 bits of a checker (R127). Loading its register synchronises it, and every later bit is compared. -/
def doPrbsWindow (b k : Nat) (received : List Bool) (s : State) : State :=
  let l := rxLaneOf (s.rxDir b) k
  match l.prbs with
  | none => s
  | some c =>
    let (n, q) := prbsWindow c.pattern c.invert c.reg received
    if 64 < n then (s.setRxLane b k { l with prbs := some { c with reg := none } }).count 1 (laneUnit b k) 9
    else (s.setRxLane b k { l with prbs := some { c with reg := some q } }).count 1 (laneUnit b k) 8 n

/-- A mode change out of TEST ends every loopback, generator and checker; the directions that had one start again (R128). -/
def State.leaveTest (s : State) : State :=
  State.each (fun b s =>
    let d := s.rxDir b
    let e := s.txDir b
    let s1 := s.setRx b { d with loopback := 0, lanes := d.lanes.map fun l => if l.prbs.isSome then { l.moveTo .idle with prbs := none } else l }
    let s2 := s1.setTx b { e with loopback := 0, lanes := e.lanes.map fun l => { l with prbs := none } }
    let s3 := if (e.loopback != 0 || e.prbs) && !e.asleep then s2.txStart b else s2
    if d.loopback != 0 || d.prbs then s3.reacquire b else s3)
    ((List.range 64).filter fun b => (s.rxDir b).loopback != 0 || (s.rxDir b).prbs || (s.txDir b).prbs) s

/-! ### Status words (Tables 5.8 and 5.9) -/

def maskOf (f : Nat → Bool) : Nat := total (fun k => if f k then 2 ^ k else 0) (List.range 8)

def TrainPhase.code : TrainPhase → Nat
  | .none => 0 | .waitClk => 1 | .rxAdapt => 2 | .acquire => 3 | .fir => 4 | .verify => 5 | .waiting => 6

def LaneSt.code : LaneSt → Nat
  | .idle => 0 | .hunt => 1 | .confirm => 2 | .seed => 3 | .locked => 4 | .test => 5

/-- Words of Table 5.8. DESIGN CHOICE (assumption 39): ENABLED_MASK reads 0 while the direction's ENABLE is 0. -/
def rxDirWord (d : RxDir) : Nat :=
  maskOf (fun k => (rxLaneOf d k).st == .locked) * 2 ^ 56 + (if d.enable then d.mask else 0) * 2 ^ 48 + d.trained * 2 ^ 40 +
  min d.fails 15 * 2 ^ 36 + d.phase.code * 2 ^ 33 + b2n d.noPartner * 2 ^ 32 + d.rate * 2 ^ 30 + b2n d.dll * 2 ^ 29 +
  b2n d.asleep * 2 ^ 28 + d.loopback * 2 ^ 26 + b2n d.trainAuto * 2 ^ 25 + b2n d.adapt * 2 ^ 24

def txDirWord (d : TxDir) : Nat :=
  maskOf (fun k => d.sends && d.mask.testBit k && (txLaneOf d k).prbs.isNone) * 2 ^ 56 + (if d.enable then d.mask else 0) * 2 ^ 48 +
  maskOf (fun k => (txLaneOf d k).fromRecord) * 2 ^ 40 + d.rate * 2 ^ 30 + b2n d.asleep * 2 ^ 28 + d.loopback * 2 ^ 26 + b2n d.trainAuto * 2 ^ 25 + b2n d.adapt * 2 ^ 24 +
  b2n (d.lanes.any (·.training)) * 2 ^ 23

def rxLaneWord (l : RxLane) : Nat :=
  l.st.code * 2 ^ 28 + l.set.peak * 2 ^ 24 + l.set.interp * 2 ^ 18 + encInt 7 l.set.dfe1 * 2 ^ 11 +
  b2n ((l.prbs.bind (·.reg)).isSome) * 2 ^ 10 + b2n l.atLimit * 2 ^ 9

def txLaneWord (l : TxLane) : Nat := (if l.prbs.isSome then 5 * 2 ^ 28 else 0) + l.post * 2 ^ 4 + l.pre

/-- BUNDLE_STATUS (R129, Table 13.4). -/
def startBundleStatus (p : BundleStatusP) (s : State) : Ans :=
  let d := s.rxDir p.bundle
  let e := s.txDir p.bundle
  let base := leBytes 8 (rxDirWord d) ++ leBytes 8 (txDirWord e) ++ d.lanes.flatMap (fun l => leBytes 4 (rxLaneWord l)) ++
    e.lanes.flatMap (fun l => leBytes 4 (txLaneWord l))
  let ext := (lanesOf p.bundle).flatMap fun k =>
    let r := (rxLaneOf d k).set
    [BitVec.ofNat 8 r.dcGain, BitVec.ofNat 8 (encInt 8 r.dfe2), BitVec.ofNat 8 (encInt 8 r.dfe3), BitVec.ofNat 8 (encInt 8 r.dfe4),
     BitVec.ofNat 8 (encInt 8 r.dfe5), BitVec.ofNat 8 (txLaneOf e k).main, 0, 0]
  orAns (failIf (decide (64 ≤ p.bundle) || p.rsvd != 0) stBadParam) (.result s p.res (if p.extended then base ++ ext else base))

end Sys2Proof.Machine
end

