-- ==== Sys2Proof/Machine/Nv.lean ====
section
/-! DEFINITION. The Parameter Store (chapter 17): array, page writes, recall, protection, wear-spread counters, the audit log
with its chain value, refresh, and the commands of Table 13.14. -/

namespace Sys2Proof.Machine

/-- What the array holds as it leaves the factory (R467, R470): counters at zero, audit entries empty; the bytes the spec
does not give are 0 (assumption 7). -/
def nvDefault (a : Nat) : Byte :=
  if 0x4000 ≤ a && a < 0x5000 then
    let o := a % 64
    if o = 6 || o = 7 || o = 12 || o = 13 || 16 ≤ o then 0xFF else 0
  else if 0x5000 ≤ a && a < 0x15000 then (if 14 ≤ a % 16 then 0xFF else 0)
  else 0

/-- Stored byte. -/
def State.nvByte (s : State) (a : Nat) : Byte := mget nvDefault s.nv.cells a

/-- The byte as it will stand once every issued write is programmed. -/
def State.nvView (s : State) (a : Nat) : Byte :=
  s.nv.writes.foldl (fun v w => if w.addr ≤ a && a < w.addr + w.bytes.length then w.bytes.getD (a - w.addr) v else v) (s.nvByte a)

def nvBytes (f : Nat → Byte) (a n : Nat) : List Byte := (List.range n).map fun i => f (a + i)

/-- A page write or byte program is issued behind the writes issued before it (R458). -/
def State.nvIssue (s : State) (w : NvWrite) : State := { s with nv := { s.nv with writes := s.nv.writes ++ [w] } }

/-- A tagged page is written whole with a page count (R455). -/
def State.nvPage (s : State) (page count : Nat) (data : List Byte) (why : NvFor) : State :=
  s.nvIssue { addr := 64 * page, bytes := leBytes 2 count ++ (data ++ List.replicate 60 0).take 60 ++ leBytes 2 count, why := why }

/-- Page count (HEAD) of a page as it will stand. -/
def State.nvHead (s : State) (page : Nat) : Nat := leNat (nvBytes s.nvView (64 * page) 2)

/-- Bytes of a tagged page are replaced, read-merge-write, under the next page count (R455, R473). -/
def State.nvMerge (s : State) (page off : Nat) (bytes : List Byte) (why : NvFor) : State :=
  let d := nvBytes s.nvView (64 * page + 2) 60
  s.nvPage page ((s.nvHead page + 1) % 65536) (d.take (off - 2) ++ bytes ++ d.drop (off - 2 + bytes.length)) why

/-- A tagged page is whole when HEAD equals TAG (R455). -/
def State.nvWhole (s : State) (page : Nat) : Bool :=
  nvBytes s.nvByte (64 * page) 2 == nvBytes s.nvByte (64 * page + 62) 2

/-! ### Protection (R460 to R462) -/

def State.nvBp (s : State) : Nat := (s.nvByte (0x15000 + 2)).toNat % 4
def State.nvLock (s : State) : Bool := (s.nvByte (0x15000 + 2)).toNat.testBit 2

/-- Address protected by BP (Table 17.3), in free space and the preset region alone. -/
def State.nvProtected (s : State) (a : Nat) : Bool :=
  match s.nvBp with
  | 1 => decide (0x30000 ≤ a)
  | 2 => decide (0x20000 ≤ a)
  | 3 => decide (0x150C0 ≤ a)
  | _ => false

/-! ### Wear-spread counters (R467 to R469) -/

structure WearRead where
  rec1 : Bool
  base : Nat
  epoch : Nat
  tally : Nat
  deriving DecidableEq, Repr

def WearRead.value (w : WearRead) : Nat := w.base + w.tally

/-- `current` and `read` of R468 on the bytes `f`. -/
def wearOf (f : Nat → Byte) (n : Nat) : WearRead :=
  let p := 0x4000 + 64 * n
  let num (o k : Nat) := leNat (nvBytes f (p + o) k)
  let e0 := num 4 2
  let e1 := num 12 2
  let v0 := num 6 2 == Nat.xor e0 0xFFFF
  let v1 := num 14 2 == Nat.xor e1 0xFFFF
  let d := (e0 + 65536 - e1) % 65536
  let use1 := v1 && (!v0 || !(decide (1 ≤ d) && decide (d < 32768)))
  let e := if use1 then e1 else e0
  { rec1 := use1, base := if use1 then num 8 4 else num 0 4, epoch := e,
    tally := ((nvBytes f (p + 16) 48).filter fun b => b.toNat == e % 256).length }

/-- A counter as it will stand once every increment issued is programmed, and as its last completed one left it. -/
def State.wear (s : State) (n : Nat) : WearRead := wearOf s.nvView n
def State.wearNow (s : State) (n : Nat) : WearRead := wearOf s.nvByte n

/-- `increment` of R468: one tally byte, or a base record followed by a tally byte. -/
def State.wearIncrement (s : State) (n : Nat) (why : NvFor) : State :=
  let p := 0x4000 + 64 * n
  let w := s.wear n
  if w.tally = 48 then
    let e := (w.epoch + 1) % 65536
    let r := leBytes 4 (w.base + 48) ++ leBytes 2 e ++ leBytes 2 (Nat.xor e 0xFFFF)
    let s1 := s.nvIssue { addr := p + (if w.rec1 then 0 else 8), bytes := r, why := .record }
    s1.nvIssue { addr := p + 16, bytes := leBytes 1 (e % 256), why := why }
  else s.nvIssue { addr := p + 16 + w.tally, bytes := leBytes 1 (w.epoch % 256), why := why }

/-! ### Audit log (R470 to R472, R442) -/

/-- An entry is queued for the audit log; a full queue of 1,024 drops it (R471). -/
def State.queueAudit (s : State) (e : AuditEntry) : State :=
  if 1024 ≤ s.nv.audit.length then
    ({ s with nv := { s.nv with auditLost := s.nv.auditLost + 1 } }.count 14 0 2).fire 972
  else { s with nv := { s.nv with audit := s.nv.audit ++ [e] } }

/-- An audit entry of a change that applies now. -/
def State.audit (s : State) (kind arg a b : Nat) : State :=
  s.queueAudit { kind := kind, arg := arg, a := a, b := b, stc := s.stc }

def auditBytes (seq : Nat) (e : AuditEntry) : List Byte :=
  leBytes 2 seq ++ leBytes 1 e.kind ++ leBytes 1 e.arg ++ leBytes 2 e.a ++ leBytes 2 e.b ++ leBytes 6 e.stc ++ leBytes 2 seq

/-- Stored bytes of entry `i`. -/
def State.auditEntry (s : State) (i : Nat) : List Byte := nvBytes s.nvByte (0x5000 + 16 * (i % 4096)) 16

def entrySeq (e : List Byte) : Nat := leNat (e.take 2)

def entryWhole (e : List Byte) : Bool := e.take 2 == e.drop 14

/-- The key that seals the audit log: slot 1 while valid with MAC usage, else 32 zero bytes (R442). -/
def State.sealKey (s : State) : Nat :=
  let k := fget {} s.keys.slots 1
  if k.st = 1 && k.usage.testBit 0 then k.key else 0

/-- Control firmware runs: start-up stage 3 has passed and no restart is in progress. -/
def State.firmwareRuns (s : State) : Bool :=
  !s.sys.restart && !s.sys.restartFailed && (s.sys.stage == .s4 || s.sys.stage == .s5 || s.sys.stage == .s6 || s.sys.stage == .done)

/-- An append of an entry is under way. -/
def State.auditBusy (s : State) : Bool :=
  s.nv.writes.any fun w => match w.why with
    | .audit .. => true
    | _ => false

/-- AUDIT_APPEND: firmware appends the oldest queued entry at the position after the newest whole entry (R471). -/
def doAuditAppend (s : State) : State :=
  match s.nv.audit with
  | [] => s
  | e :: rest =>
    if s.auditBusy || s.sys.nvRecalling || !s.firmwareRuns then s
    else
      let pos := match s.nv.newest with
        | some i => (i + 1) % 4096
        | none => 0
      let bs := auditBytes s.nv.nextSeq e
      let more := if 0 < s.nv.auditLost then [{ kind := 7, a := min 65535 s.nv.auditLost, stc := s.stc : AuditEntry }] else []
      let s1 := { s with nv := { s.nv with audit := rest ++ more, auditLost := 0 } }
      s1.nvIssue { addr := 0x5000 + 16 * pos, bytes := bs, why := .audit bs (e.key.getD s.sealKey) pos }

/-- The older of checkpoint pages A and B (R472): the one whose page count is not the later. -/
def State.olderCheckpoint (s : State) : Nat :=
  let a := s.nvHead 0x541
  let b := s.nvHead 0x542
  if (a + 65536 - b) % 65536 < 32768 && a != b then 0x542 else 0x541

/-- A checkpoint: SEQ of the entry and the chain value after it; its count follows the later page's (R472). -/
def State.checkpoint (s : State) (seq : Nat) (chain : List Byte) : State :=
  let p := s.olderCheckpoint
  let other := if p = 0x541 then 0x542 else 0x541
  s.nvPage p ((s.nvHead other + 1) % 65536) (leBytes 2 seq ++ chain) .record

/-- NV_WRITE_DONE: the write in progress ends (R458): its command completes, or the audit chain advances (R472). -/
def doNvWriteDone (s : State) : State :=
  match s.nv.writes with
  | [] => s
  | w :: rest =>
    if s.nv.stopped then s
    else
      let s1 := { s with nv := { s.nv with cells := mwrite nvDefault s.nv.cells w.addr w.bytes, writes := rest } }
      match w.why with
      | .lastOf j => s1.completeId j stOk 0 none
      | .audit e key pos =>
        let chain := hmac key (s1.nv.chain ++ e)
        let seq := entrySeq e
        let s2 := { s1 with nv := { s1.nv with chain := chain, newest := some pos, nextSeq := (seq + 1) % 65536 } }
        if seq % 64 = 63 || (e.getD 2 0).toNat = 5 then s2.checkpoint seq chain else s2
      | _ => s1

/-- The write in progress stops after the byte in progress (R456): `done` bytes of it read new. -/
def State.nvStop (s : State) (done : Nat) : State :=
  match s.nv.writes with
  | [] => s
  | w :: rest =>
    let n := min done w.bytes.length
    let s1 := { s with nv := { s.nv with cells := mwrite nvDefault s.nv.cells w.addr (w.bytes.take n) } }
    { s1 with nv := { s1.nv with writes := { w with done := n } :: rest } }

/-! ### Recall (R459) -/

/-- Units of `n` bytes from `lo` to `hi` in which some byte is listed. Outside them the array is as it left the factory, where
tagged pages are whole and audit entries empty. -/
def State.nvUnits (s : State) (lo hi n : Nat) : List Nat :=
  ((s.nv.cells.filter fun c => decide (lo ≤ c.1) && decide (c.1 < hi)).map fun c => (c.1 - lo) / n).eraseDups

/-- The newest whole audit entry: a whole entry that the next position does not follow. -/
def State.newestEntry (s : State) : Option Nat :=
  (s.nvUnits 0x5000 0x15000 16).find? fun i =>
    let e := s.auditEntry i
    let n := s.auditEntry (i + 1)
    entryWhole e && !(entryWhole n && entrySeq n == (entrySeq e + 1) % 65536)

/-- The chain value recomputed over `n` entries from position `i` (R472). -/
def State.chainFrom (s : State) : Nat → Nat → List Byte → List Byte
  | 0, _, c => c
  | n + 1, i, c => s.chainFrom n (i + 1) (hmac s.sealKey (c ++ s.auditEntry i))

/-- The checkpoint in use: a written, whole one with the later SEQ. -/
def State.bestCheckpoint (s : State) : Option (Nat × List Byte) :=
  let read (p : Nat) : Option (Nat × List Byte) :=
    if s.nvWhole p && s.nvHead p != 0 then some (leNat (nvBytes s.nvByte (64 * p + 2) 2), nvBytes s.nvByte (64 * p + 4) 32) else none
  match read 0x541, read 0x542 with
  | some a, some b => if (a.1 + 65536 - b.1) % 65536 < 32768 then some a else some b
  | some a, none => some a
  | none, b => b

/-- Newest entry, next SEQ and chain value after a recall. -/
def State.recallAudit (s : State) : State :=
  match s.newestEntry with
  | none => { s with nv := { s.nv with newest := none, nextSeq := 0, chain := List.replicate 32 0 } }
  | some i =>
    let seq := entrySeq (s.auditEntry i)
    let (from_, c) := match s.bestCheckpoint with
      | some (q, c) => ((seq + 65536 - q) % 65536, c)
      | none => (i + 1, List.replicate 32 0)
    let n := min from_ 4096
    { s with nv := { s.nv with newest := some i, nextSeq := (seq + 1) % 65536, chain := s.chainFrom n (i + 4097 - n) c } }

/-- Tagged pages found not whole: all but the counter area and the audit log. -/
def State.tornPages (s : State) : List Nat :=
  (s.nvUnits 0 0x40000 64).filter fun p => !(0x100 ≤ p && p < 0x540) && !s.nvWhole p

/-- NV_RECALL_COMPLETE: the recall of start-up ends (R459, R464, R472). -/
def doRecallComplete (s : State) : State :=
  if s.sys.nvRecalling then
    let torn := s.tornPages
    let s1 := { s with sys := { s.sys with nvRecalling := false }, nv := { s.nv with torn := torn } }.recallAudit
    let s2 := (s1.count 14 0 1 torn.length).fire 970
    if torn.isEmpty then s2 else s2.fire 971
  else s

/-! ### Power fail and refresh -/

/-- NV_POWER_FAIL: no new byte starts (R456). -/
def doNvPowerFail (done : Nat) (s : State) : State :=
  let s1 := if s.nv.stopped then s else s.nvStop done
  { s1 with nv := { s1.nv with stopped := true }, pins := { s1.pins with pfwLow := true } }

/-- PFW_N_DEASSERT: the write resumes at the stop point (R456). -/
def doPfwDeassert (s : State) : State :=
  { s with nv := { s.nv with stopped := false }, pins := { s.pins with pfwLow := false } }

/-- REFRESH_PASS_START (R463). -/
def doRefreshStart (s : State) : State :=
  if s.sys.quiet = .awake && s.nv.refresh.isNone then { s with nv := { s.nv with refresh := some 0 } } else s

/-- REFRESH_WORD: one word is margin-read; a rewrite writes the byte's present value (R463, R453). -/
def doRefreshWord (corrected : Bool) (s : State) : State :=
  match s.nv.refresh with
  | none => s
  | some w =>
    if s.sys.quiet != .awake || s.sys.restart then s
    else
      let s1 := { s with nv := { s.nv with refresh := if w + 1 < 16384 then some (w + 1) else none } }
      if corrected then (s1.count 14 0 0).fire 970 else s1

/-! ### Commands (Table 13.14) -/

def startNvRead (p : NvReadP) (s : State) : Ans :=
  orAns (failIf (decide (p.bytes < 1) || decide (65536 < p.bytes) || decide (262144 < p.addr + p.bytes)) stBadParam)
    (.result s p.res (nvBytes s.nvByte p.addr p.bytes))

/-- NV_WRITE (R373, R473). -/
def startNvWrite (p : NvWriteP) (s : State) : Ans :=
  let n := p.data.length
  let page := p.addr / 64
  let off := p.addr % 64
  orAns (failIf (decide (n < 1) || decide (64 < n) || decide (262144 < p.addr + n) || p.rsvd != 0 || decide (64 < off + n)) stBadParam
    <|> failIf (decide (p.addr < 0x150C0) || decide (0x20000 < p.addr + n) || decide (off < 2) || decide (62 < off + n) ||
          s.nvProtected p.addr || s.nvProtected (p.addr + n - 1)) stProtected)
    (.later (s.nvMerge page off p.data (.lastOf s.nextJob)) .event)

/-- NV_PROTECT (R461). -/
def startNvProtect (p : NvProtectP) (s : State) : Ans :=
  orAns (failIf (decide (4 ≤ p.field) || p.rsvd != 0) stBadParam <|> failIf (s.nvLock && !p.unlock) stProtected)
    (.later (s.nvMerge 0x540 2 (leBytes 1 (p.field + 4 * b2n p.lock)) (.lastOf s.nextJob)) .event)

/-- NV_COUNTER (R468, R469). -/
def startNvCounter (p : NvCounterP) (s : State) : Ans :=
  let w := s.wear p.counter
  let res (x : WearRead) := leBytes 4 x.value ++ leBytes 2 x.epoch ++ leBytes 2 0
  orAns (failIf (decide (64 ≤ p.counter) || decide (2 ≤ p.op) || p.rsvd != 0 || (p.op == 1 && p.counter == 63)) stBadParam
    <|> failIf (p.op == 1 && !(s.sys.mode == .bringup || s.sys.mode == .service || s.sys.mode == .test)) stNotInMode
    <|> failIf (p.op == 1 && decide (48000000 ≤ w.value)) stNoResource)
    (if p.op = 0 then .result s p.res (res (s.wearNow p.counter))
     else
       let s1 := s.wearIncrement p.counter (.lastOf s.nextJob)
       .later s1 .event 0 [] (some (p.res, res (s1.wear p.counter))))

/-- AUDIT_READ (R472). -/
def startAuditRead (p : AuditReadP) (s : State) : Ans :=
  orAns (failIf (decide (4096 ≤ p.first) || decide (p.count < 1) || decide (4096 < p.count) || p.rsvd != 0) stBadParam)
    (.result s p.res (leBytes 4 (s.nv.newest.getD 0xFFFFFFFF) ++ leBytes 4 0 ++ s.nv.chain ++
      (List.range p.count).flatMap fun i => s.auditEntry (p.first + i)))

end Sys2Proof.Machine
end

