-- ==== Sys2Proof/Machine/Flags.lean ====
section
/-! DEFINITION. Status words the device computes from its state: mode and role codes, DEV_STATUS (Table 12.4), Q_STATUS
(Table 12.6) and the SPI status byte (Table 12.9). -/

namespace Sys2Proof.Machine

/-- DEV_STATUS.MODE (Table 12.4). -/
def Mode.code : Mode → Nat
  | .bringup => 0 | .service => 1 | .test => 2 | .recovery => 3 | .quiet => 4 | .failed => 5

def modeOf : Nat → Mode
  | 0 => .bringup | 1 => .service | 2 => .test | 3 => .recovery | 4 => .quiet | _ => .failed

/-- ROLE as PAIR_SET codes it. -/
def Role.code : Role → Nat
  | .solo => 0 | .lead => 1 | .mate => 2

/-- The modes of the configuration row of Table 12.14. -/
def Mode.config (m : Mode) : Bool := m == .bringup || m == .service || m == .test

/-- DEV_STATUS (Table 12.4). -/
def State.devStatus (s : State) : Nat :=
  b2n s.sys.fault.isSome * 2 ^ 10 + s.pair.role.code * 2 ^ 8 + b2n (s.sys.quiet == .waking) * 2 ^ 7 +
  b2n s.sys.nvRecalling * 2 ^ 6 + b2n s.sys.restart * 2 ^ 5 + b2n s.firmwareRuns * 2 ^ 4 + s.sys.mode.code

/-- A BARRIER of queue `q` waits. -/
def State.barrierJob (s : State) (q : Nat) : Option Job :=
  s.jobs.find? fun j => j.queue == q && (match j.params with
    | .barrier _ => true
    | _ => false)

/-- The modes and conditions in which queue `q` is fetched (R342, R506, R511). -/
def State.fetches (s : State) (q : Nat) : Bool :=
  if q = 9 then
    s.sys.stage == .done || s.sys.stage == .held || s.sys.stage == .s4 || s.sys.stage == .s5 || s.sys.stage == .s6
  else s.firmwareRuns && s.sys.quiet == .awake && s.sys.mode != .quiet && s.sys.mode != .failed

/-- Q_STATUS (Table 12.6). -/
def State.qStatus (s : State) (q : Nat) : Nat :=
  let x := s.queue q
  x.errCause * 2 ^ 6 + b2n x.stall * 2 ^ 5 + b2n (s.barrierJob q).isSome * 2 ^ 4 + b2n x.macSlot.isSome * 2 ^ 3 +
  b2n x.dbErr * 2 ^ 2 + b2n x.error * 2 + b2n ((x.enable || x.stopping) && !x.error && s.fetches q)

/-- RX_READY (R332, R351, R506): the packet buffer is free and the port serves packets. -/
def State.rxReady (s : State) : Bool := s.fetches 9 && s.spi.buffer.isNone

/-- SPI status byte (Table 12.9). -/
def State.spiStatus (s : State) : Nat :=
  b2n s.sys.restart * 2 ^ 6 + b2n (s.sys.mode == .quiet) * 2 ^ 5 + b2n (s.sys.mode == .failed) * 2 ^ 4 +
  b2n s.spi.overrun * 2 ^ 3 + b2n s.spi.crcErr * 2 ^ 2 + b2n (!s.spi.fifo.isEmpty) * 2 + b2n s.rxReady

/-! ### JTAG port (R530, R531): its register is state, and no command of the table shifts it -/

/-- IDCODE: version, part 0x0512 and manufacturer of R530. -/
def jtagIdcode : Nat := 3 * 2 ^ 28 + 0x0512 * 2 ^ 12 + 0x556 * 2 + 1

/-- The instruction as it acts: while RESET_N is high, those that would control pins act as BYPASS (R531). -/
def Pins.jtagActs (p : Pins) : Jtag :=
  match p.jtag with
  | .extest | .extestPulse | .extestTrain | .clamp | .highZ => if p.resetN then .bypass else p.jtag
  | i => i

end Sys2Proof.Machine
end

