-- ==== Sys2Proof/Machine/Schedule.lean ====
section
/-! DEFINITION. Scheduling (chapter 2): arming points, lateness, the scheduled-action table, and the stamp of an immediate
command in a pair (R387). A raster's place in time is its line in State: an instant lies before a line start exactly while the
raster stands on an earlier line. -/

namespace Sys2Proof.Machine

/-- Positions on one raster compare frame first, then line (R47). -/
def posBefore (a b : Int × Nat) : Bool := decide (a.1 < b.1) || (a.1 == b.1 && decide (a.2 < b.2))

/-- R53: now lies strictly before the arming point of `f:l`, `n` lines ahead of it. -/
def Standing.onTime (p : Standing) (f l n : Nat) : Bool :=
  posBefore ((p.frame : Int), p.line) (linesBefore f l n p.desc.totalLines)

/-- R41: the frame is not skipped by an extension in progress. -/
def State.frameExists (s : State) (r f : Nat) : Bool :=
  if r < 2 then true
  else match (s.outRaster (r - 2)).bind (·.ext) with
    | some e => decide (f ≤ e.ended) || decide (e.first ≤ f)
    | none => true

/-- First existing frame at or after `f`. -/
def State.existFrom (s : State) (r f : Nat) : Nat :=
  if r < 2 then f
  else match (s.outRaster (r - 2)).bind (·.ext) with
    | some e => if e.ended < f && f < e.first then e.first else f
    | none => f

/-- R54, NEXT: the first existing frame after `f` whose line `l` has its arming point ahead. -/
def State.nextFrame (s : State) (r : Nat) (p : Standing) (f l n : Nat) : Nat :=
  let (a, m) := linesBefore 0 l n p.desc.totalLines
  let least : Int := (p.frame : Int) - a + (if p.line < m then 0 else 1)
  s.existFrom r (max (f + 1) least.toNat)

/-- R47, R53, R54: the frame a scheduled command is resident for; none when it is LATE under REJECT. -/
def State.target (s : State) (r f32 l n : Nat) (reject : Bool) : Option Nat :=
  match s.raster? r with
  | none => none
  | some p =>
    match expandFrame f32 p.frame with
    | some f =>
      if s.frameExists r f && p.onTime f l n then some f
      else if reject then none
      else some (s.nextFrame r p f l n)
    | none => if reject then none else some (s.nextFrame r p 0 l n)

/-- Actions in the scheduled-action table (R51). -/
def State.resident (s : State) : Nat := total (fun j => b2n (j.sched && j.kind == .apply)) s.jobs

/-- A job joins the list, behind every job before it (residency order, R28). -/
def State.addJob (s : State) (j : Job) : State :=
  let s1 := { s with jobs := s.jobs ++ [{ j with id := s.nextJob }], nextJob := s.nextJob + 1 }
  if j.sched && s1.resident = 15361 then s1.fire 3 else s1

/-- Where a job stands in residency order: a record of a recall in the recall's place (R28), every other job by its own identifier. -/
def Job.place (j : Job) : Nat := if j.silent && !j.sched && j.kind != .exec && j.rix.isNone then j.aux.headD j.id else j.id

/-- The first of some jobs in residency order. -/
def firstPlaced : List Job → Option Job
  | [] => none
  | j :: r => match firstPlaced r with
    | some x => if x.place < j.place then some x else some j
    | none => some j

/-- R387: the k-th house A line start ahead that meets both conditions of a stamp. -/
def stampFrom (p : Standing) (ready : Nat) : Nat → Nat → Nat × Nat
  | 0, k => let q := p.line - 1 + k; (p.frame + q / p.desc.totalLines, q % p.desc.totalLines + 1)
  | n + 1, k =>
    let q := p.line - 1 + k
    let f := p.frame + q / p.desc.totalLines
    let l := q % p.desc.totalLines + 1
    if (ready : Int) ≤ p.lineT' f l then (f, l) else stampFrom p ready n (k + 1)

/-- R387: the house A line start at which an immediate command of `bytes` packet bytes executes in a pair. -/
def State.stamp (s : State) (bytes : Nat) : Nat × Nat :=
  stampFrom (s.house 0).standing (s.now + 1350 + ceilDiv (bytes * 108) 1000) 256 5

end Sys2Proof.Machine
end

