-- ==== Sys2Proof/Machine/System.lean ====
section
/-! DEFINITION. System modes, faults and fail-silent entry, control firmware restarts, wake latches and the Quiet commit, and
the commands of Table 13.2 (chapters 0, 13, 14, 18, 20). -/

namespace Sys2Proof.Machine

/-! ### Claims (R484) -/

/-- The service of source `i` ends: active becomes idle; active and pending becomes pending and is presented. -/
def State.endService (s : State) (i : Nat) : State :=
  let x := s.source i
  match x.st with
  | .active => s.setSource i { x with st := .idle, claimant := 3 }
  | .activePending => (s.setSource i { x with st := .pending, claimant := 3 }).presented i
  | _ => s

/-- Every claim a target holds is completed. -/
def State.releaseClaims (s : State) (target : Nat) : State :=
  State.each (fun i s => if (s.source i).claimant = target then s.endService i else s)
    ((s.hub.srcs.filter fun e => e.2.claimant == target).map (·.1)) s

/-! ### Members of a pair (chapter 14) -/

/-- A MATE that runs with its LEAD: it takes no decision of its own (R142, R272, R320, R401). -/
def State.isMate (s : State) : Bool := s.pair.role == Role.mate && s.pair.sync != Sync.apart

/-- A LEAD that runs with its MATE: it stamps and forwards commands and sends its decisions (R386, R388, R401). -/
def State.isLead (s : State) : Bool := s.pair.role == Role.lead && s.pair.sync != Sync.apart

/-- A member that does not run apart from its partner. -/
def State.runsPaired (s : State) : Bool := s.pair.role != Role.solo && s.pair.sync != Sync.apart

def State.setPair (s : State) (p : Pair) : State := { s with pair := p }

/-- The member runs apart (R381). -/
def State.dropApart (s : State) : State :=
  if s.pair.sync = .apart then s else (s.setPair { s.pair with sync := .apart, own := [], partner := [], windows := [] }).fire 980

/-- Content that is tainted (R392): kind 0 an input, 1 a buffer object, 2 an output, with its frame or slot. The newest 1,024 are kept. -/
def State.taint (s : State) (kind unit frame : Nat) : State :=
  if s.pair.taint.contains (kind, unit, frame) then s
  else { s with pair := { s.pair with taint := ((kind, unit, frame) :: s.pair.taint).take 1024 } }

/-- An input mismatch is established (R393). -/
def State.inputMismatch (s : State) : State :=
  ({ s with pair := { s.pair with inMismatch := s.pair.inMismatch + 1, lastStc := s.stc } }.count 13 0 0).fire 978

/-- A MATE reports content that an output lacks (R147, R272, R320). -/
def State.reportMissing (s : State) (n : Nat) : State :=
  let f := ((s.outRaster n).map fun o => o.frame.toNat).getD 0
  (s.inputMismatch.taint 2 n f).emit (.brinen 9 [0, n, f])

/-! ### Mode changes -/

/-- A mode change (R6): TEST ends its loopbacks and patterns (R128); SERVICE, QUIET and FAILED release a counter snapshot
(R495); source 0 fires. -/
def State.setMode (s : State) (m : Mode) : State :=
  let s1 := if s.sys.mode = .test then s.leaveTest else s
  let s2 := if m = .service || m = .quiet || m = .failed then { s1 with cnt := { s1.cnt with frozen := none } } else s1
  { s2 with sys := { s2.sys with mode := m } }.fire 0

/-- The FAIL message of Table 14.9 on the Brinen link, once. -/
def State.failNotice (s : State) (source : Nat) : State :=
  if s.pair.role = Role.solo then s else s.emit (.brinen 12 [source])

/-- SYS_MODE. -/
def isModeCommand (q : Params) : Bool := match q with
  | .sysMode _ => true
  | _ => false

/-- ENTER_FAILED (R25, R398): the record is latched last, every transmit direction that sends framing starts its two withdrawn
superframes, no command that has not completed takes place or is answered (R7, R8, R342; log 11), a wake is abandoned (R514). -/
def State.enterFailed (s : State) (source unit addr : Nat) : State :=
  if s.sys.mode = .failed || s.sys.stage = .inReset then s
  else
    let s1 := (s.latchFault source unit addr).setMode .failed
    let s2 := { s1 with sys := { s1.sys with restart := false, quiet := .awake }, jobs := [],
                        routes := { s1.routes with waits := [] } }
    (s2.withdrawAll 2 .fail).failNotice source

/-- A fault of a Millpond or engine memory, recorded with the user whose read found it (R165). -/
def State.memoryFault (s : State) (source unit addr user : Nat) : State :=
  if s.sys.mode = .failed || s.sys.stage = .inReset then s
  else
    let s1 := s.enterFailed source unit addr
    { s1 with sys := { s1.sys with fault := s1.sys.fault.map fun r => { r with user := user } } }

/-- A control firmware restart begins (R489): RECOVERY, source 1, CP_A's claims completed and its cores reset; a restarting
member drops to apart (R403). -/
def State.beginRestart (s : State) (byFault : Bool) : State :=
  let s1 := if s.sys.mode.config then s.setMode .recovery else s
  let s2 := { s1 with sys := { s1.sys with restart := true, restartByFault := byFault, restartFailed := false } }
  let s3 := (s2.dropApart.fire 1).releaseClaims 0
  { s3 with hub := { s3.hub with cpA := {}, claimA := 1023 } }

/-! ### Wake latches (Table 20.5) and Quiet -/

/-- The latches that are set, in the bit order of ENABLES; `req` is the job of the request itself. -/
def State.latches (s : State) (req : Option Nat) : Nat :=
  let held := s.spi.buffer.isSome || Config.csLow s.now ||
    s.jobs.any fun j => j.queue == 9 && !j.sched && some j.id != req
  let w := s.sys.wakeLatch
  b2n (bit w 0) + 2 * b2n (bit w 1 || held) + 4 * b2n (bit w 2 || decide (s.sys.wakeTimer ≤ s.stc)) +
  8 * b2n (bit w 3) + 16 * b2n (s.keys.latched != 0)

/-- A task starts again as at bind: no history, and no output until its first input that fits (R194, R205). -/
def unloadTask (now : Tick) (t : Task) : Task :=
  { (emptyHistory t) with loaded := false, present := false, cause := 1, started := false, lastA := none, made := [],
                          past := noteChange now t.present false t.past }

/-- An engine that holds a kernel loads the current version of its library again; others only end their slice. -/
def reloadEngine (image : Nat) (x : Engine) : Engine :=
  if x.st = .bound || x.st = .shadow then { x with verified := false, version := Config.kernelVersion image x.kernel, slice := none }
  else { x with slice := none }

/-- The engines are powered again: every bound one loads the current library, and the version of each task whose version changes is
reported (R194). -/
def State.reloadEngines (s : State) : State :=
  let eng := tmap {} (fun _ (x : Engine) => reloadEngine s.sys.image x) s.engines.eng
  let changed := eng.filter fun e => e.2.first == e.1 && e.2.st == .bound && (fget {} s.engines.eng e.1).version != e.2.version
  let s1 := { s with engines := { s.engines with eng := eng, tasks := tmap none (fun _ (t : Option Task) => t.map (unloadTask s.now)) s.engines.tasks } }
  State.each (fun e s => s.emit (.kernelReloaded e.1 e.2.version)) changed (s1.resetVectors (s1.engines.tasks.map (·.1)))

/-- A wake begins (R512): it ends exactly 4.0 ms later, and the engines reload in it (R194); latches set during a wake begin no second
wake. -/
def State.beginWake (s : State) : State :=
  if s.sys.quiet = .asleep then { s with sys := { s.sys with quiet := .waking, wakeT := s.now } }.reloadEngines else s

/-- A wake latch is set; in QUIET an enabled one begins the wake. -/
def State.setLatch (s : State) (b : Nat) : State :=
  let s1 := { s with sys := { s.sys with wakeLatch := Nat.lor s.sys.wakeLatch (2 ^ b) } }
  if bit s.sys.wakeEnables b then s1.beginWake else s1

/-- Every writer stops, its frame in progress left unfinished (R511, R174). -/
def State.stopAllWriters (s : State) : State :=
  let open_ : List Nat :=
    (s.routes.routes.filterMap fun e => e.2.bind fun (r : Route) => r.resv.bind resvWriting) ++
    (s.pond.caps.filterMap fun e => e.2.bind s.capWriting) ++ (s.engines.tasks.filterMap fun e => e.2.bind s.taskWriting)
  let s1 := s.failSlots open_
  let routes := tmap none (fun _ (e : Option Route) => e.map fun r =>
    { r with resv := r.resv.map fun v => { v with writing := spoil v.writing } }) s1.routes.routes
  let tasks := tmap none (fun _ (e : Option Task) => e.map fun t => { t with writing := spoil t.writing }) s1.engines.tasks
  { s1 with routes := { s1.routes with routes := routes },
            pond := { s1.pond with caps := tmap none (fun _ (e : Option CapBind) => e.map stopCapture) s1.pond.caps },
            engines := { s1.engines with tasks := tasks } }

/-- Quiet entry begins (R511): routed audio fades to zero, ports stop, lanes are withdrawn or idle, writers stop. -/
def State.beginQuiet (s : State) : State :=
  let s1 := { s with sys := { s.sys with quiet := .entering, modeBefore := s.sys.mode, commitT := s.now,
                                         wakeLatch := Nat.land s.sys.wakeLatch 6 },
                     audio := { s.audio with
                       dsts := tmap {} (fun _ (d : Dst) => { d with muting := d.route.isSome || d.muting }) s.audio.dsts,
                       ports := tmap {} (fun _ (p : TdmPort) => { p with next := if p.stopping then p.next else p.cfg,
                                                                         stopping := p.cfg.isSome || p.stopping }) s.audio.ports } }
  let s2 := (s1.withdrawAll 3 .quiet).stopAllWriters
  State.each (fun b s => (s.setRx b { s.rxDir b with dll := false }).lanesIdle b) (List.range 65) s2

/-! ### Commands of Table 13.2 -/

def fwDigestBytes (image : Nat) : List Byte := (List.range 48).map (Config.fwDigest image)

/-- SYS_IDENTIFY (R4, Table 0.3). -/
def startIdentify (p : ResP) (s : State) : Ans :=
  .result s p.res (leBytes 2 0x1D8B ++ leBytes 2 0x0512 ++ [0x42, 0x31] ++ leBytes 1 (b2n Config.grade) ++
    leBytes 1 s.pair.role.code ++ leBytes 1 s.sys.mode.code ++ leBytes 3 0 ++ leBytes 4 (Config.fwVersion s.sys.image) ++
    leBytes 4 Config.romVersion ++ leBytes 4 (Config.libVersion s.sys.image) ++ (List.range 16).map Config.uid ++ fwDigestBytes s.sys.image ++ leBytes 8 0)

/-- SYS_CAPS (Table 13.2). -/
def startCaps (p : ResP) (s : State) : Ans :=
  .result s p.res ([512, 512, 192, 512, 4096, 256, 128, 16, 256, 32, 32, 16384, 64, 3150, 16384, 0].flatMap (leBytes 2))

/-- Table 0.5: the transitions that a mode command may request. -/
def transitionOk : Mode → Mode → Bool
  | .bringup, .service | .bringup, .test | .bringup, .quiet | .service, .bringup | .service, .quiet => true
  | .test, .bringup | .recovery, .test | .recovery, .service | .recovery, .bringup => true
  | _, _ => false

/-- Some house synthesizer has policy STEP (R355). -/
def State.stepPolicy (s : State) : Bool := (List.range 2).any fun i => (fget {} s.clocks.synths i : Synth).policy == 2

/-- R355, R509: the checks of a mode command in the mode that holds. -/
def chkModeNow (m : Mode) (s : State) : Check :=
  failIf (!transitionOk s.sys.mode m || s.sys.quiet != .awake) stNotInMode
  <|> failIf (m == .service && (s.sys.coldRecall || s.stepPolicy)) stBusy
  <|> failIf (m == .quiet && s.pair.role != .solo) stBusy 6

/-- SYS_MODE checks at validation (R355). -/
def chkSysMode (p : SysModeP) (s : State) : Check :=
  failIf (decide (6 ≤ p.mode) || p.rsvd != 0) stBadParam
  <|> if s.sys.mode = .quiet then
    failIf (!bit s.sys.wakeEnables 1) stNotInMode <|> failIf (modeOf p.mode != s.sys.modeBefore) stBadParam
  else chkModeNow (modeOf p.mode) s

/-- A mode command takes effect (R355, R510): the reply's status and detail, and the state after it. -/
def State.modeEffect (s : State) (m : Mode) (req : Option Nat) : (Nat × Nat) × State :=
  match chkModeNow m s with
  | some e => (e, s)
  | none =>
    if m = .quiet then
      let set := Nat.land (s.latches req) s.sys.wakeEnables
      if set = 0 then ((stOk, 0), s.beginQuiet) else ((stSleepRefused, set), s)
    else ((stOk, 0), s.setMode m)

/-- SYS_MODE immediate; in QUIET it sets the SPI wake latch and completes when the wake ends. -/
def startSysMode (p : SysModeP) (s : State) : Ans :=
  match chkSysMode p s with
  | some (st, d) => .fail st d
  | none =>
    if s.sys.mode = .quiet then .later (s.setLatch 1) .event
    else match s.modeEffect (modeOf p.mode) none with
      | ((st, d), s') => if st = stOk then .done s' else .fail st d

/-- A SYS_MODE that became resident in Quiet asks for the wake (R355): its `aux` says so. -/
def isWakeRequest (j : Job) : Bool :=
  j.aux == [1] && isModeCommand j.params

/-- SYS_MODE at its line (R355, R489, R510); a permitted one during a restart waits for its end. -/
def applySysMode (j : Job) (p : SysModeP) (s : State) : State :=
  if s.sys.mode = .quiet then (s.setJob { j with kind := .event }).setLatch 1
  else if isWakeRequest j then s.complete j stOk 0 (some j.raster)
  else if s.sys.restart && transitionOk s.sys.mode (modeOf p.mode) then s.setJob { j with kind := .event }
  else match s.modeEffect (modeOf p.mode) (some j.id) with
    | ((st, d), s') => s'.complete j st d (some j.raster)

/-- SYS_RESTART (R356); a LEAD in lockstep hands over at a stamped line first (R403). -/
def startRestart (c : Ctx) (p : SysRestartP) (reset : State → State) (s : State) : Ans :=
  if 2 ≤ p.kind || p.rsvd != 0 || (s.sys.mode = .failed && p.kind = 0) then .fail stBadParam
  else if p.kind = 1 then .silent (reset s)
  else if s.pair.role = Role.lead && s.pair.sync = Sync.lockstep then
    let (f, l) := s.stamp (4 * c.hdr.length)
    .later (s.emit (.brinen 13 [s.pair.nextRix, f, l])) .exec 0 [f, l]
  else .later (s.beginRestart false) .event

/-- The handover at its stamped line (R403): the old LEAD becomes a MATE that is apart and restarts. -/
def applyHandover (j : Job) (s : State) : State :=
  let s1 := ((s.setPair { s.pair with role := .mate, authority := false }).fire 977).dropApart
  (s1.setJob { j with kind := .event }).beginRestart false

/-- SYS_WAKE_SET (R510, Table 20.5): every latch clears whose condition no longer holds. -/
def startWakeSet (p : SysWakeSetP) (s : State) : Ans :=
  orAns (failIf (decide (32 ≤ p.enables) || p.rsvd != 0) stBadParam)
    (.done { s with sys := { s.sys with
      wakeEnables := p.enables, wakeTimer := p.timer,
      wakeLatch := b2n (bit s.sys.wakeLatch 0 && Config.wakeLow s.now) + 4 * b2n (decide (p.timer ≤ s.stc)) } })

/-- SYS_FAULT_READ (R357, Table 13.2). -/
def startFaultRead (p : SysFaultReadP) (s : State) : Ans :=
  let bs := match s.sys.fault with
    | some r => leBytes 1 1 ++ leBytes 1 r.source ++ leBytes 2 r.unit ++ leBytes 1 r.modeBefore.code ++
        leBytes 1 s.sys.replaced ++ leBytes 2 0 ++ leBytes 8 r.addr ++ leBytes 8 r.stc ++ leBytes 8 r.position ++ leBytes 16 0
    | none => leBytes 48 0
  orAns (failIf (p.rsvd != 0) stBadParam <|> failIf (p.clear && s.sys.mode == .failed) stNotInMode)
    (.result (if p.clear then { s with sys := { s.sys with fault := none, replaced := 0 } } else s) p.res bs)

/-! ### Events -/

/-- Stage 2 of start-up has passed: FAULT_N is driven from then on (R503). -/
def State.pastBoot (s : State) : Bool :=
  s.sys.stage == .s3 || s.sys.stage == .s4 || s.sys.stage == .s5 || s.sys.stage == .s6 || s.sys.stage == .done

/-- FAULT_N_ASSERT: the pin goes low once no transmit direction sends framing in FAILED, where it is driven or could be (R398, R503). -/
def doFaultN (s : State) : State :=
  if s.sys.mode = .failed && !s.anySends && (s.pins.faultN = .high || s.pins.faultN = .hiZ && s.pastBoot) then
    { s with pins := { s.pins with faultN := .low } }.emit (.faultN true)
  else s

/-- An uncorrectable internal fault of the sources of Table 13.2 (R25). -/
def doFault (source unit addr : Nat) (s : State) : State := s.enterFailed source unit addr

/-- WAKE_N_LOW: the latch is set (R510). -/
def doWakeNLow (s : State) : State := s.setLatch 0

/-- WAKE_TIMER: the STC reaches TIMER (R510). -/
def doWakeTimer (s : State) : State := if s.sys.wakeTimer ≤ s.stc then s.setLatch 2 else s

/-- CONTROL_RESTART_END: RESTART clears, source 1 fires, the restart command completes, and mode changes that fell due take
effect (R489, R356). -/
def doRestartEnd (s : State) : State :=
  if s.sys.restart then
    let s1 := { s with sys := { s.sys with restart := false,
                                           faultRestartEnd := if s.sys.restartByFault then some s.now else none } }.fire 1
    State.each (fun j s => match j.params with
      | .sysRestart _ => s.complete j stOk 0 none
      | .sysMode p =>
        match s.modeEffect (modeOf p.mode) (some j.id) with
        | ((st, d), s') => s'.complete j st d (some j.raster)
      | _ => s) (s1.jobs.filter fun j => j.kind == .event) s1
  else s

end Sys2Proof.Machine
end

