-- ==== Sys2Proof/Machine/Keys.lean ====
section
/-! DEFINITION. The key store, authentication bindings, lane encryption settings, attestation and tamper response (chapter 16). -/

namespace Sys2Proof.Machine

def State.slot (s : State) (i : Nat) : Slot := fget {} s.keys.slots i

def State.setSlot (s : State) (i : Nat) (x : Slot) : State := { s with keys := { s.keys with slots := fset {} s.keys.slots i x } }

/-- The PARENT chain of a slot, nearest first. -/
def State.ancestors (s : State) : Nat → Nat → List Nat
  | 0, _ => []
  | n + 1, i => let p := (s.slot i).parent; if p < 32 then p :: s.ancestors n p else []

/-- Every slot whose PARENT chain reaches `i` (R433). -/
def State.descendants (s : State) (i : Nat) : List Nat :=
  (List.range 32).filter fun k => k != i && (s.ancestors 32 k).contains i

/-- Levels of the tree that results when `i` becomes a child of `p` (255 none): the chain above `i`, `i`, and the tallest chain
below it (R432, R434). -/
def State.depthUnder (s : State) (i p : Nat) : Nat :=
  let above := if p < 32 then 1 + (s.ancestors 32 p).length else 0
  let below := ((s.descendants i).map fun k => ((s.ancestors 32 k).takeWhile (· != i)).length + 1).foldl max 0
  above + 1 + below

/-- R430 for a slot named for a use: its STATE, then its USAGE. -/
def State.useSlot (s : State) (use i : Nat) : Check :=
  let x := s.slot i
  failIf (x.st == 0 || x.st == 3) stKeyAbsent <|> failIf (x.st == 2) stKeyRevoked <|> failIf (!bit x.usage use) stBadParam

/-- A slot is valid (Table 16.1). -/
def State.slotValid (s : State) (i : Nat) : Bool := (s.slot i).st == 1

/-- A running operation whose key is one of `is` is overtaken (R435). -/
def overtake (is : List Nat) (o : KeyOp) : KeyOp :=
  if is.contains (if o.derive_ then o.parent else o.slot) then { o with changed := true } else o

/-- A change of slot `i` by `f` (R433): every descendant is revoked, generations increment, running operations are overtaken,
a change of slot 1 is recorded under the key in force before it (R442), and a revocation raises event 985. -/
def State.changeSlot (s : State) (i : Nat) (f : Slot → Slot) : State :=
  let ds := s.descendants i
  let sk := s.sealKey
  let x := f (s.slot i)
  let s1 := s.setSlot i { x with gen := (s.slot i).gen + 1 }
  let s2 := State.each (fun k s => s.setSlot k { s.slot k with st := 2, gen := (s.slot k).gen + 1 }) ds s1
  let s3 := { s2 with keys := { s2.keys with ops := s2.keys.ops.map (overtake (i :: ds)) } }
  let s4 := if (i :: ds).contains 1 then s3.queueAudit { kind := 5, arg := (s3.slot 1).st, stc := s3.stc, key := some sk } else s3
  if !ds.isEmpty || ((s.slot i).st = 1 && x.st = 2) then s4.fire 985 else s4

/-- A key operation runs on or with slot `i` (R432, R434, R372). -/
def State.slotRuns (s : State) (i : Nat) : Bool := s.keys.ops.any fun o => o.slot == i || o.parent == i

/-- A LANE_CRYPT_SET binding names slot `i`. -/
def State.laneBound (s : State) (i : Nat) : Bool :=
  s.rxStreams.any (fun e => e.2.any fun (x : RxStream) => x.crypt == some i || x.cryptNext == some (some i)) ||
  s.txStreams.any (fun e => e.2.any fun (x : TxStream) => x.crypt == some i || x.cryptNext == some (some i))

/-! ### Commands of Table 13.13 -/

/-- PARENT's part of the tree checks: not the slot itself, not below it, at most 8 levels. -/
def chkTree (s : State) (slot parent : Nat) : Check :=
  failIf (parent == slot || (s.descendants slot).contains parent || decide (8 < s.depthUnder slot parent)) stBadParam

/-- KEY_WRITE (R432). -/
def startKeyWrite (p : KeyWriteP) (s : State) : Ans :=
  orAns (failIf (decide (32 ≤ p.slot) || decide (16 ≤ p.usage) || p.rsvd != 0) stBadParam
    <|> failIf (s.keys.latched != 0) stTampered
    <|> failIf (p.parent != 255 && !(decide (p.parent < 32) && s.slotValid p.parent)) stBadParam
    <|> (if p.parent = 255 then none else chkTree s p.slot p.parent)
    <|> failIf (s.slotRuns p.slot) stBusy 0
    <|> failIf (s.laneBound p.slot) stBusy 1)
    (.done (s.changeSlot p.slot fun x => { x with key := p.key, usage := p.usage, parent := p.parent, st := 1 }))

/-- KEY_DERIVE (R434): the child is written when the operation ends. -/
def startKeyDerive (p : KeyDeriveP) (s : State) : Ans :=
  orAns (failIf (decide (32 ≤ p.slot) || decide (32 ≤ p.parent) || decide (16 ≤ p.usage) || decide (64 < p.label.length) ||
        decide (64 < p.context.length) || p.rsvd != 0) stBadParam
    <|> failIf (s.keys.latched != 0) stTampered
    <|> failIf (!bit (s.slot p.parent).usage 2) stBadParam
    <|> chkTree s p.slot p.parent
    <|> s.useSlot 2 p.parent
    <|> failIf (s.slotRuns p.slot) stBusy)
    (let op : KeyOp := { job := s.nextJob, slot := p.slot, parent := p.parent, derive_ := true,
                         key := deriveKey (s.slot p.parent).key p.label p.context }
     .later { s with keys := { s.keys with ops := s.keys.ops ++ [op] } } .event)

/-- KEY_INVALIDATE (R433). -/
def startKeyInvalidate (p : KeyInvalidateP) (s : State) : Ans :=
  orAns (failIf (decide (32 ≤ p.slot) || p.rsvd != 0) stBadParam)
    (.done (s.changeSlot p.slot fun x => if x.st = 1 then { x with st := 2, key := 0 } else x))

/-- KEY_QUERY: attributes alone, never key material (R429). -/
def startKeyQuery (p : ResP) (s : State) : Ans :=
  .result s p.res ((List.range 32).flatMap fun i =>
    let x := s.slot i
    leBytes 1 x.usage ++ leBytes 1 x.parent ++ leBytes 1 x.st ++ leBytes 1 0 ++ leBytes 4 x.gen.toNat)

/-- QUEUE_AUTH (R436). -/
def startQueueAuth (p : QueueAuthP) (s : State) : Ans :=
  orAns (failIf (decide (10 ≤ p.queue) || (decide (32 ≤ p.slot) && p.slot != 255) || p.rsvd != 0) stBadParam
    <|> (if p.slot = 255 then none else s.useSlot 0 p.slot))
    (.done (s.setQueue p.queue { s.queue p.queue with
      macSlot := if p.slot = 255 then none else some p.slot, macSeq := none }))

/-- The setting a LANE_CRYPT_SET asks for. -/
def cryptOf (slot : Nat) : Option Nat := if slot = 255 then none else some slot

/-- LANE_CRYPT_SET checks (R437, R430). -/
def chkLaneCrypt (p : LaneCryptSetP) (s : State) : Check :=
  failIf (decide (2 ≤ p.dir) || (decide (32 ≤ p.slot) && p.slot != 255) ||
    (if p.dir = 0 then (s.rxStream p.point).isNone else (s.txStream p.point).isNone)) stBadParam
  <|> (if p.slot = 255 then none else s.useSlot 1 p.slot)

/-- The setting waits for the group's next superframe (R439). -/
def State.awaitCrypt (s : State) (p : LaneCryptSetP) : State :=
  if p.dir = 0 then s.setRxStream p.point ((s.rxStream p.point).map fun x => { x with cryptNext := some (cryptOf p.slot) })
  else s.setTxStream p.point ((s.txStream p.point).map fun x => { x with cryptNext := some (cryptOf p.slot) })

/-- LANE_CRYPT_SET immediate: a receive change waits for a superframe boundary, a transmit change for the output's frame start. -/
def startLaneCrypt (p : LaneCryptSetP) (s : State) : Ans :=
  orAns (chkLaneCrypt p s)
    (if p.dir = 0 then .later (s.awaitCrypt p) .event else .later s .apply (2 + p.point))

/-- LANE_CRYPT_SET at its line. -/
def applyLaneCrypt (j : Job) (p : LaneCryptSetP) (s : State) : State := (s.awaitCrypt p).setJob { j with kind := .event }

/-- The commands that wait for the group at `point` complete; DETAIL gives SFC[15:0] of the first superframe under the new
setting (R439). -/
def State.cryptSwitched (s : State) (dir point sfc : Nat) : State :=
  State.each (fun j s => s.complete j stOk (sfc % 65536) (if j.sched || dir = 1 then some j.raster else none))
    (s.jobs.filter fun j => j.kind == .event && (match j.params with
      | .laneCryptSet p => p.dir == dir && p.point == point
      | _ => false)) s

/-- Uses of a slot generation by a lane: rows (direction and lane, slot, generation) (R440). -/
def State.keyUsed (s : State) (dirLane slot : Nat) : Bool :=
  s.keys.used.contains (dirLane, slot, (s.slot slot).gen.toNat)

def State.useKey (s : State) (dirLane slot : Nat) : State :=
  if s.keyUsed dirLane slot then s
  else { s with keys := { s.keys with used := (dirLane, slot, (s.slot slot).gen.toNat) :: s.keys.used } }

/-- Counter reuse (R440): the event and its counter. -/
def State.counterReuse (s : State) : State := (s.count 14 0 4).fire 986

/-- An encrypted lane leaves IDLE: counter reuse when its slot generation was used on it before (R440). -/
def State.leaveIdle (s : State) (dirLane : Nat) (crypt : Option Nat) : State :=
  match crypt with
  | some k => if s.keyUsed dirLane k then s.counterReuse else s
  | none => s

/-- A superframe boundary of a receive group, once the setting has switched (R439 to R441). -/
def State.rxKeyBoundary (s : State) (n : Nat) (switched : Bool) : State :=
  match s.rxStream n with
  | none => s
  | some x =>
    let d := s.rxDir x.cfg.bundle
    let sfc := ((rxLaneOf d x.cfg.lane).sfc + 1) % 2 ^ 32
    let s1 := if switched then s.cryptSwitched 0 n sfc else s
    match x.crypt with
    | none => s1
    | some k =>
      let s2 := State.each (fun l s => s.useKey (d.expected x.cfg.bundle l) k) (groupLanes x.cfg) s1
      let s3 := if sfc = 0xF0000000 then s2.counterReuse else s2
      if !s.slotValid k && !x.keyDead then (s3.setRxStream n (some { x with keyDead := true })).fire 986 else s3

/-- The first superframe of a transmit group under a new setting, and each superframe it sends encrypted (R439 to R441). -/
def State.txKeyBoundary (s : State) (n sfc : Nat) : State :=
  match s.txStream n with
  | none => s
  | some x =>
    let y := match x.cryptNext with
      | some c => { x with crypt := c, cryptNext := none, keyDead := false }
      | none => x
    let s1 := s.setTxStream n (some y)
    let s2 := if x.cryptNext.isSome then s1.cryptSwitched 1 n sfc else s1
    match y.crypt with
    | none => s2
    | some k =>
      let s3 := State.each (fun l s => s.useKey (512 + 8 * x.cfg.bundle + l) k) (groupLanes x.cfg) s2
      let s4 := if sfc = 0xF0000000 then s3.counterReuse else s3
      if !s.slotValid k && !y.keyDead then (s4.setTxStream n (some { y with keyDead := true })).fire 986 else s4

/-- The route table of R443: 8 bytes for each destination group that has a source, in ascending DEST order. -/
def State.routeTable (s : State) : List Byte :=
  s.routes.routes.flatMap fun e => match e.2 with
    | some r => leBytes 2 e.1 ++ leBytes 2 r.src ++ leBytes 1 r.g ++
        leBytes 1 (b2n r.syncRes + 2 * b2n r.forceSync + 4 * b2n r.autoCut) ++ leBytes 1 r.extra ++ leBytes 1 0
    | none => []

/-- ATTEST (R443): sampled at execution, answered when the operation ends. -/
def startAttest (p : AttestP) (s : State) : Ans :=
  let body := beBytes 32 p.nonce ++ (List.range 16).map Config.uid ++ fwDigestBytes s.sys.image ++ sha256 s.routeTable ++
    leBytes 8 s.stc ++ leBytes 8 0
  let bs := body ++ hmac (s.slot p.slot).key body
  orAns (failIf (decide (32 ≤ p.slot) || p.rsvd != 0) stBadParam <|> failIf (s.keys.latched != 0) stTampered <|> s.useSlot 3 p.slot)
    (let op : KeyOp := { job := s.nextJob, slot := p.slot, parent := p.slot, derive_ := false, key := 0 }
     .later { s with keys := { s.keys with ops := s.keys.ops ++ [op] } } .event 0 [] (some (p.res, bs)))

/-- TAMPER_SET (R445, R448). -/
def startTamperSet (p : TamperSetP) (s : State) : Ans :=
  let cleared := Nat.land s.keys.enables (Nat.xor 127 (Nat.land p.enables 127)) != 0
  orAns (failIf (decide (128 ≤ p.enables) || decide (2 ≤ p.wake) || p.rsvd != 0 || (cleared && !p.clear)) stBadParam)
    (let latched := if p.clear then Nat.land s.keys.latched s.keys.active else s.keys.latched
     .done { s with keys := { s.keys with enables := p.enables, latched := latched },
                    sys := { s.sys with wakeEnables := s.sys.wakeEnables % 16 + 16 * p.wake } })

/-- TAMPER_STATUS (R447). -/
def startTamperStatus (p : ResP) (s : State) : Ans :=
  .result s p.res (leBytes 2 s.keys.latched ++ leBytes 2 0 ++ leBytes 4 ((s.wear 63).value + s.keys.pendingCount) ++
    leBytes 8 s.keys.latchStc)

/-! ### Events -/

/-- USAGE that the KEY_DERIVE of job `id` gives its child. -/
def State.derivedUsage (s : State) (id : Nat) : Nat :=
  match s.jobs.find? fun (j : Job) => j.id == id with
  | some j => (match j.params with
    | .keyDerive p => p.usage
    | _ => 0)
  | none => 0

/-- KEY_OPERATION_END: the operation of job `id` completes (R434, R435, Table 16.3). -/
def doKeyOpEnd (id : Nat) (s : State) : State :=
  match s.keys.ops.find? fun o => o.job == id with
  | none => s
  | some o =>
    let s1 := { s with keys := { s.keys with ops := s.keys.ops.filter fun x => x.job != id } }
    let st := if o.changed then stKeyRevoked else stOk
    if o.derive_ then
      let s2 := s1.changeSlot o.slot fun x =>
        { x with key := o.key, usage := s.derivedUsage id, parent := o.parent, st := if o.changed then 2 else 1 }
      (if o.changed then s2.fire 985 else s2).completeId id st 0 none
    else s1.completeId id st 0 none

/-- An audit seal in progress is abandoned and its entry is sealed again under the state that follows (R449); the entry of a
seal key change keeps the key in force before it (R442). -/
def reseal (w : NvWrite) : NvWrite :=
  match w.why with
  | .audit e key pos => { w with why := .audit e (if (e.getD 2 0).toNat = 5 then key else 0) pos }
  | _ => w

/-- Zeroisation of every slot (R446): operations abort with TAMPERED and release no partial result (R449). -/
def State.zeroise (s : State) : State :=
  let sk := s.sealKey
  let s1 := State.each (fun i s => s.setSlot i { s.slot i with key := 0, st := 3, gen := (s.slot i).gen + 1 }) (List.range 32) s
  let s2 := s1.queueAudit { kind := 5, arg := 3, stc := s1.stc, key := some sk }
  let ops := s2.keys.ops
  let s3 := { s2 with keys := { s2.keys with ops := [] }, nv := { s2.nv with writes := s2.nv.writes.map reseal } }
  (s3.completeAll stTampered 0 none (ops.map (·.job))).fire 985

/-- TAMPER_ALARM: a source becomes active; an enabled one zeroises, latches its cause and may wake the device (R444 to R447). -/
def doTamperAlarm (source : Nat) (s : State) : State :=
  if 7 ≤ source || bit s.keys.active source then s
  else
    let s1 := { s with keys := { s.keys with active := Nat.lor s.keys.active (2 ^ source) } }
    if !bit s.keys.enables source then s1
    else
      let k := s1.keys
      let s2 := { s1 with keys := { k with latched := Nat.lor k.latched (2 ^ source),
                                           latchStc := if k.latched = 0 then s1.stc else k.latchStc,
                                           pendingCount := min 255 (k.pendingCount + 1) } }
      let s3 := s2.zeroise.fire 984
      if bit s3.sys.wakeEnables 4 then s3.beginWake else s3

/-- TAMPER_SOURCE_INACTIVE (R444, R448). -/
def doTamperInactive (source : Nat) (s : State) : State :=
  if bit s.keys.active source then { s with keys := { s.keys with active := s.keys.active - 2 ^ source } } else s

/-- Counter 63 rises by `n`. -/
def State.tallyTampers : Nat → State → State
  | 0, s => s
  | n + 1, s => State.tallyTampers n (s.wearIncrement 63 .record)

/-- TAMPER_COUNT_STORE: firmware moves the pending count into counter 63 and records the cause (R447). -/
def doTamperStore (s : State) : State :=
  if s.firmwareRuns && !s.sys.nvRecalling && 0 < s.keys.pendingCount then
    let s1 := State.tallyTampers s.keys.pendingCount s
    ({ s1 with keys := { s1.keys with pendingCount := 0 } }).audit 6 0 s1.keys.latched 0
  else s

/-- VAON_POWER_UP: every slot empty, every source enabled, the tamper wake bit clear (R429, R445). -/
def doVaonPowerUp (s : State) : State :=
  { s with keys := {}, sys := { s.sys with wakeEnables := s.sys.wakeEnables % 16 } }

end Sys2Proof.Machine
end

