-- ==== Sys2Proof/Machine/Training.lean ====
section
/-! DEFINITION. Training (chapter 5): the round and its FIR search, the transmitter's side of the back channel, stored lane
records, LANE_TRAIN, and the lane events that a round waits for. -/

namespace Sys2Proof.Machine

/-! ### Stored lane records (R119, R120): their places in the vendor area are the model's (assumption 16) -/

def rxRecordAt (u : Nat) : Nat × Nat := (16 + u / 7, 2 + 8 * (u % 7))
def txRecordAt (u : Nat) : Nat × Nat := (96 + u / 15, 2 + 4 * (u % 15))

def rxRecord (rate : Nat) (r : RxSet) : List Byte :=
  leBytes 1 (rate + 12) ++ leBytes 1 (r.peak + 16 * r.dcGain) ++ leBytes 1 r.interp ++
    [r.dfe1, r.dfe2, r.dfe3, r.dfe4, r.dfe5].map fun v => BitVec.ofNat 8 (encInt 8 v)

/-- The bytes of a record that may be used: its page whole, VALID set, its rate the direction's. -/
def State.record (s : State) (place : Nat × Nat) (n rate : Nat) : Option (List Byte) :=
  let bs := nvBytes s.nvByte (64 * place.1 + place.2) n
  let h := (bs.getD 0 0).toNat
  if s.nvWhole place.1 && bit h 2 && h % 4 = rate then some bs else none

/-- Receive settings of a lane on its record, or the defaults of R107; and whether the record is TRAINED. -/
def State.storedRx (s : State) (b k : Nat) : RxSet × Bool :=
  match s.record (rxRecordAt (laneUnit b k)) 8 (s.rxDir b).rate with
  | some bs =>
    let v (i : Nat) := (bs.getD i 0).toNat
    ({ peak := v 1 % 16, dcGain := v 1 / 16 % 8, interp := v 2 % 64, dfe1 := decInt 8 (v 3), dfe2 := decInt 8 (v 4),
       dfe3 := decInt 8 (v 5), dfe4 := decInt 8 (v 6), dfe5 := decInt 8 (v 7) }, bit (v 0) 3)
  | none => ({}, false)

/-- A receive direction takes its stored settings (R120). -/
def State.useRxRecords (s : State) (b : Nat) : State :=
  let d := s.rxDir b
  s.setRx b { d with
    lanes := mapAt (fun k l => { l with set := (s.storedRx b k).1 }) 0 d.lanes,
    trained := total (fun k => if (s.storedRx b k).2 then 2 ^ k else 0) (lanesOf b) }

/-- A transmit lane on its record, or on P4 (R106, R120). -/
def storedTxLane (s : State) (b k : Nat) (l : TxLane) : TxLane :=
  match s.record (txRecordAt (laneUnit b k)) 4 (s.txDir b).rate with
  | some bs => { l with pre := (bs.getD 1 0).toNat, main := (bs.getD 2 0).toNat, post := (bs.getD 3 0).toNat,
                        fromRecord := bit (bs.getD 0 0).toNat 3 }
  | none => { l with pre := 4, main := 47, post := 12, fromRecord := false }

/-- A direction applies its records on a wake (R120). -/
def applyRecords (b dir : Nat) (s : State) : State :=
  if dir = 0 then s.useRxRecords b
  else s.setTx b { s.txDir b with lanes := mapAt (storedTxLane s b) 0 (s.txDir b).lanes }

/-- The records of the lanes that a successful round has trained are written (R119). -/
def State.writeRxRecords (s : State) (b : Nat) : State :=
  State.each (fun k s =>
    let at_ := rxRecordAt (laneUnit b k)
    s.nvMerge at_.1 at_.2 (rxRecord (s.rxDir b).rate (rxLaneOf (s.rxDir b) k).set) .record) ((lanesOf b).filter (s.rxDir b).live) s

/-- The transmit record of a lane (R119). DESIGN CHOICE (assumption 39): TRAINED is 0, since whether the partner's round succeeded is not told
here. -/
def State.writeTxRecord (s : State) (b k : Nat) : State :=
  let at_ := txRecordAt (laneUnit b k)
  let l := txLaneOf (s.txDir b) k
  s.nvMerge at_.1 at_.2 (leBytes 1 ((s.txDir b).rate + 4) ++ leBytes 1 l.pre ++ leBytes 1 l.main ++ leBytes 1 l.post) .record

/-! ### Presets and taps -/

/-- Table 5.1. -/
def firPreset : Nat → Nat × Nat × Nat
  | 0 => (0, 63, 0) | 1 => (0, 55, 8) | 2 => (0, 51, 12) | 3 => (0, 47, 16)
  | 4 => (4, 47, 12) | 5 => (6, 43, 14) | 6 => (8, 39, 16) | _ => (10, 33, 20)

/-- R105: the ranges of the three taps. -/
def firOk (pre main post : Nat) : Bool :=
  decide (pre ≤ 12) && decide (20 ≤ main) && decide (main ≤ 63) && decide (post ≤ 24) && decide (pre + main + post ≤ 63)

/-- One step of a tap (0 PRE, 1 MAIN, 2 POST), where it stays in range. -/
def firStep (tap : Nat) (inc : Bool) (f : Nat × Nat × Nat) : Option (Nat × Nat × Nat) :=
  let m (v : Nat) : Nat := if inc then v + 1 else v - 1
  let (a, b, c) := f
  let ok0 := inc || decide (0 < (if tap = 0 then a else if tap = 1 then b else c))
  let g := if tap = 0 then (m a, b, c) else if tap = 1 then (a, m b, c) else (a, b, m c)
  if ok0 && firOk g.1 g.2.1 g.2.2 then some g else none

/-! ### The transmitter's side (R109 to R111) -/

/-- What a request does to a transmit lane: its lane and the acknowledge's STATUS. -/
def applyRequest (bc : Nat) (l : TxLane) : TxLane × Nat :=
  let tap := bcTap bc
  let act := bcAction bc
  if 8 ≤ bcPreset bc then (l, 2)
  else if act = 0 then (l, 0)
  else if tap = 3 then
    if act = 1 then
      let (a, b, c) := firPreset (bcPreset bc)
      ({ l with pre := a, main := b, post := c, changed := true, fromRecord := false }, 0)
    else (l, 2)
  else if act = 3 then (l, 2)
  else match firStep tap (act == 1) (l.pre, l.main, l.post) with
    | some (a, b, c) => ({ l with pre := a, main := b, post := c, changed := true, fromRecord := false }, 0)
    | none => (l, 1)

/-- The output group that holds transmit lane `k` of bundle `b`. -/
def State.groupOfLane (s : State) (b k : Nat) : Option (Nat × TxStream) :=
  (s.txStreams.find? fun e => e.2.any fun (x : TxStream) =>
    x.cfg.bundle == b && decide (x.cfg.lane ≤ k) && decide (k < x.cfg.lane + x.cfg.g)).bind fun e => e.2.map fun x => (e.1, x)

/-- The back channel says `bc` on lane `k`: a superframe whose CRC passed brought it, and the lane is LOCKED (R108). -/
def State.hears (s : State) (b k bc : Nat) : Bool :=
  (rxLaneOf (s.rxDir b) k).st == .locked && (rxLaneOf (s.rxDir b) k).bcIn == bc

/-- BC_REQUEST_RECEIVED: a new SEQ is taken, to be applied at the start of the next superframe, and the lane enters training transmission
(R109, R110). -/
def doBcRequest (b k bc : Nat) (s : State) : State :=
  let l := txLaneOf (s.txDir b) k
  if !s.hears b k bc || bcKind bc != 1 || (bcTap bc = 3 && bcAction bc = 3) || l.lastSeq = some (bcSeq bc) then s
  else
    let s1 := s.setTxLane b k { l with lastSeq := some (bcSeq bc), request := some bc, training := true }
    match s.groupOfLane b k with
    | some (n, x) => if l.training then s1 else s1.setTxStream n (some { x with idle := true, withdrawLeft := 2 })
    | none => s1

/-- The request taken last acts as the next superframe starts, which carries its acknowledge already (R109). -/
def TxLane.answer (l : TxLane) : TxLane :=
  match l.request with
  | some bc =>
    let (l1, st) := applyRequest bc l
    { l1 with request := none, bcOut := bcField 2 (bcTap bc) (bcAction bc) (bcPreset bc) st (bcSeq bc) }
  | none => l

/-- BC_DONE_RECEIVED: training transmission ends; the group resumes at the output's next frame start (R110, R119). -/
def doBcDone (b k : Nat) (s : State) : State :=
  let l := txLaneOf (s.txDir b) k
  if l.training && (rxLaneOf (s.rxDir b) k).st == .locked && bcKind (rxLaneOf (s.rxDir b) k).bcIn == 3 then
    let s1 := s.setTxLane b k { l with training := false, changed := false, bcOut := 0 }
    if l.changed then s1.writeTxRecord b k else s1
  else s

/-- SLEEP_REQUEST_RECEIVED: acknowledged as applied, with the partner-sleep-request event, once for each new SEQ (R109, R111). -/
def doSleepRequest (b k bc : Nat) (s : State) : State :=
  let l := txLaneOf (s.txDir b) k
  if s.hears b k bc && bcKind bc = 1 && bcTap bc = 3 && bcAction bc = 3 && l.lastSeq != some (bcSeq bc) then
    (s.setTxLane b k { l with lastSeq := some (bcSeq bc), request := none,
                              bcOut := bcField 2 3 3 (bcPreset bc) (if 8 ≤ bcPreset bc then 2 else 0) (bcSeq bc) }).rxEvent b
  else s

/-! ### The receiver's search (R113) -/

/-- A lane sends a new request on the paired transmit lane and waits for its acknowledge. DESIGN CHOICE (assumption 39): the request replaces
an acknowledge that the transmit lane owes, as `askPartner` says. -/
def State.sendRequest (s : State) (b k tap action preset : Nat) : State :=
  let s1 := s.askPartner b k tap action preset true
  let l := rxLaneOf (s1.rxDir b) k
  s1.setRxLane b k { l with fir := { l.fir with requests := l.fir.requests + 1 } }

/-- The search order of R113. -/
def firNext : FirStep → FirStep
  | .preset => .tap 2 true
  | .tap 2 true | .undo 2 true => .tap 2 false
  | .tap 2 false | .undo 2 false => .tap 0 true
  | .tap 0 true | .undo 0 true => .tap 0 false
  | .tap 0 false | .undo 0 false => .tap 1 true
  | .tap 1 true | .undo 1 true => .tap 1 false
  | _ => .ended

def State.setFirStep (s : State) (b k : Nat) (st : FirStep) : State :=
  let l := rxLaneOf (s.rxDir b) k
  s.setRxLane b k { l with fir := { l.fir with step := st } }

/-- Every lane of the direction has ended its search: VERIFY starts on all of them (R113). -/
def State.maybeVerify (s : State) (b : Nat) : State :=
  let d := s.rxDir b
  if d.phase = .fir && (lanesOf b).all fun k => !d.live k || (rxLaneOf d k).fir.step == .ended then
    s.setRx b { d with phase := .verify, phaseT := s.now, lanes := d.lanes.map fun l => { l with dwell := 0, dwellN := 0 } }
  else s

/-- The lane goes to a step: the request that begins it, while fewer than 48 have been sent; else the search ends with holds. -/
def State.firGo (s : State) (b k : Nat) (st : FirStep) : State :=
  let l := rxLaneOf (s.rxDir b) k
  match st with
  | .tap tap inc =>
    if l.fir.requests < 48 then (s.setFirStep b k st).sendRequest b k tap (if inc then 1 else 2) 0
    else ((s.setFirStep b k .ended).sendRequest b k 3 0 0).maybeVerify b
  | .undo tap inc => (s.setFirStep b k st).sendRequest b k tap (if inc then 2 else 1) 0
  | _ => ((s.setFirStep b k .ended).sendRequest b k 3 0 0).maybeVerify b

/-- FIR begins on every live lane with a preset load of P4 (R113). -/
def State.startFir (s : State) (b : Nat) : State :=
  let d := s.rxDir b
  State.each (fun k s =>
    if (s.rxDir b).live k then
      let l := rxLaneOf (s.rxDir b) k
      (s.setRxLane b k { l with fir := { l.fir with step := .preset, best := none, requests := 0 } }).sendRequest b k 3 1 4
    else s) (lanesOf b) (s.setRx b { d with phase := .fir, phaseT := s.now })

/-- ACQUIRE ends when every live lane is LOCKED (Table 5.3). -/
def State.maybeFir (s : State) (b : Nat) : State :=
  let d := s.rxDir b
  if d.phase = .acquire && (lanesOf b).all fun k => !d.live k || (rxLaneOf d k).st == .locked then s.startFir b else s

/-- The partner's FIR after an applied request. -/
def trackPartner (bc : Nat) (l : RxLane) : RxLane :=
  let r := applyRequest bc { pre := l.partnerPre, main := l.partnerMain, post := l.partnerPost }
  { l with partnerPre := r.1.pre, partnerMain := r.1.main, partnerPost := r.1.post }

/-- The request that brings the partner's FIR nearer to what it was before the round: a preset load where a preset is that FIR, else a step
of one tap, decrements first; none where it is there (R115). -/
def towards (l : RxLane) : Option (Nat × Nat × Nat) :=
  let old := (l.fir.pre, l.fir.main, l.fir.post)
  let tap (i now was : Nat) : Option (Nat × Nat × Nat) := if was < now then some (i, 2, 0) else none
  let raise (i now was : Nat) : Option (Nat × Nat × Nat) := if now < was then some (i, 1, 0) else none
  if old = (l.partnerPre, l.partnerMain, l.partnerPost) then none
  else match (List.range 8).find? fun p => firPreset p == old with
    | some p => some (3, 1, p)
    | none => tap 2 l.partnerPost l.fir.post <|> tap 0 l.partnerPre l.fir.pre <|> tap 1 l.partnerMain l.fir.main <|>
        raise 2 l.partnerPost l.fir.post <|> raise 0 l.partnerPre l.fir.pre <|> raise 1 l.partnerMain l.fir.main

/-- A lane sends DONE. -/
def State.laneDone (s : State) (b k : Nat) : State :=
  let l := rxLaneOf (s.rxDir b) k
  let s1 := s.setRxLane b k { l with fir := { l.fir with step := .ended, waiting := false } }
  s1.setTxLane b k { txLaneOf (s1.txDir b) k with bcOut := bcField 3 3 0 0 0 l.fir.seq }

/-- After a failed round a lane restores the partner's FIR, with a hold where nothing has changed, and then sends DONE (R115). DESIGN CHOICE
(assumption 39): a FIR that is no preset is restored by steps. -/
def State.restoreFir (s : State) (b k : Nat) (first : Bool) : State :=
  match towards (rxLaneOf (s.rxDir b) k) with
  | some (tap, action, preset) => (s.setFirStep b k .restore).sendRequest b k tap action preset
  | none => if first then (s.setFirStep b k .restore).sendRequest b k 3 0 0 else s.laneDone b k

/-- BC_ACK_RECEIVED: the search continues, a dwell beginning where the request was applied (R113); an ended lane holds until all have
ended. A failed round's lane restores the partner's FIR (R115), and a probe's acknowledge raises the partner-answering event (R116). -/
def doBcAck (b k bc : Nat) (s : State) : State :=
  let d := s.rxDir b
  let l := rxLaneOf d k
  if !s.hears b k bc || bcKind bc != 2 || !l.fir.waiting || bcSeq bc != l.fir.seq then s
  else
    let l1 := { l with atLimit := bcStatus bc == 1, dwell := 0, dwellN := 0, fir := { l.fir with waiting := false } }
    let l2 := if bcStatus bc = 0 then trackPartner bc l1 else l1
    let s1 := s.setRxLane b k l2
    if d.phase = .fir then
      match l.fir.step with
      | .tap tap inc => if bcStatus bc = 0 then s1 else s1.firGo b k (firNext (.tap tap inc))
      | .undo tap inc => s1.firGo b k (firNext (.undo tap inc))
      | .ended => s1.sendRequest b k 3 0 0
      | _ => s1
    else if d.phase = .waiting && l.fir.step = .restore then
      if bcStatus bc = 0 then s1.restoreFir b k false else s1.laneDone b k
    else if d.phase = .waiting && d.noPartner then s1.rxEvent b
    else s1

/-- The errors of a dwell of `n` superframes: one that never came counts as one whose comma was missed (R113). -/
def RxLane.errors (l : RxLane) (n : Nat) : Nat := l.dwell + 81740 * (n - l.dwellN)

/-- FIR_DWELL_END: the error count of 64 superframes decides the next step (R113). -/
def doFirDwell (b k : Nat) (s : State) : State :=
  let d := s.rxDir b
  let l := rxLaneOf d k
  let errors := l.errors 64
  if d.phase != .fir || l.fir.waiting then s
  else
    let best := { l with fir := { l.fir with best := some errors } }
    match l.fir.step with
    | .preset => (s.setRxLane b k best).firGo b k (.tap 2 true)
    | .tap tap inc =>
      if errors < l.fir.best.getD 0 then
        let s1 := s.setRxLane b k best
        s1.firGo b k (if l.fir.requests < 48 then .tap tap inc else firNext (.tap tap inc))
      else s.firGo b k (.undo tap inc)
    | _ => s

/-! ### The round (R112, R115 to R117) -/

/-- Every live lane sends DONE. -/
def State.sendDone (s : State) (b : Nat) : State := State.each (fun k s => s.laneDone b k) ((lanesOf b).filter (s.rxDir b).live) s

def isTrain (b : Nat) (j : Job) : Bool :=
  match j.params with
  | .laneTrain p => p.bundle == b
  | _ => false

/-- TRAINING_ROUND_START: settings are kept aside, the stored ones are the starting point, WAIT_CLK begins (R112, R115, R120). -/
def State.startRound (s : State) (b : Nat) : State :=
  let d := s.rxDir b
  let keep (l : RxLane) : RxLane := { l with saved := l.set, fir := { l.fir with
    step := .ended, waiting := false, requests := 0, pre := l.partnerPre, main := l.partnerMain, post := l.partnerPost } }
  let s1 := s.setRx b { d with lanes := d.lanes.map keep }
  let kept := (s1.rxDir b).trained
  let s2 := s1.useRxRecords b
  s2.setRx b { s2.rxDir b with trained := kept, phase := if d.dll then .rxAdapt else .waitClk, phaseT := s.now }

/-- A round may start on the direction. -/
def RxDir.mayTrain (d : RxDir) : Bool := d.enable && !d.asleep && d.loopback == 0 && !d.prbs && !d.training

def doRoundStart (b : Nat) (s : State) : State :=
  if (s.rxDir b).mayTrain && !s.sys.restart && s.sys.quiet == .awake then s.startRound b else s

/-- With TRAIN_AUTO a round is due while the DLL holds lock and some enabled lane is not LOCKED (R117). -/
def RxDir.roundDue (d : RxDir) : Bool :=
  d.trainAuto && d.dll && (List.range d.lanes.length).any fun k => d.live k && (rxLaneOf d k).st != .locked

/-- TRAINING_ROUND_START: the direction's own round (R117); start-up, LANE_TRAIN and a rate change start theirs with the command. -/
def doRoundDue (b : Nat) (s : State) : State := if (s.rxDir b).roundDue then doRoundStart b s else s

/-- ROUND_FAIL: the settings before the round return, the partner's FIR with them, and the wait starts; the eighth failure in a row brings
the stored settings and NO_PARTNER (R115, R116). -/
def State.failRound (s : State) (b : Nat) : State :=
  let d := s.rxDir b
  let back (l : RxLane) : RxLane := { l with set := l.saved, fir := { l.fir with waiting := false } }
  let s0 := s.setRx b { d with lanes := d.lanes.map back, phase := .waiting, phaseT := s.now, fails := d.fails + 1 }
  let s1 := State.each (fun k s => s.restoreFir b k true) ((lanesOf b).filter d.live) s0
  if d.fails + 1 < 8 then s1
  else
    let s2 := if d.fails + 1 = 8 then (s1.useRxRecords b).rxEvent b else s1
    let s3 := s2.setRx b { s2.rxDir b with noPartner := true }
    s3.completeWhere (isTrain b) stTrainNoPartner 0 none

/-- TRAINING_PHASE_TIMEOUT: the limit of WAIT_CLK or ACQUIRE (Table 5.3). -/
def doPhaseTimeout (b : Nat) (s : State) : State :=
  let p := (s.rxDir b).phase
  if p = .waitClk || p = .acquire then s.failRound b else s

/-- RX_ADAPT_END: the adapted settings, then ACQUIRE. -/
def doRxAdaptEnd (b : Nat) (sets : List RxSet) (s : State) : State :=
  let d := s.rxDir b
  if d.phase = .rxAdapt then
    let put (k : Nat) (l : RxLane) : RxLane := if d.live k then { l with set := sets.getD k l.set } else l
    (s.setRx b { d with lanes := mapAt put 0 d.lanes, phase := .acquire, phaseT := s.now }).maybeFir b
  else s

/-- BC_REQUEST_UNANSWERED: sent again once with its SEQ, then the round fails (R114). -/
def doUnanswered (b k : Nat) (s : State) : State :=
  let d := s.rxDir b
  let l := rxLaneOf d k
  if !l.fir.waiting then s
  else if !l.fir.resent then
    (s.setRxLane b k { l with fir := { l.fir with resent := true } }).setTxLane b k { txLaneOf (s.txDir b) k with bcOut := l.fir.asked }
  else if d.phase = .fir || d.phase = .verify then s.failRound b
  else if l.fir.step = .restore then s.laneDone b k
  else s.setRxLane b k { l with fir := { l.fir with waiting := false } }

/-- VERIFY_END: success when every live lane counts no error over 1,024 superframes (R113, R115, R119). -/
def doVerifyEnd (b : Nat) (s : State) : State :=
  let d := s.rxDir b
  if d.phase != .verify then s
  else if (lanesOf b).all fun k => !d.live k || (rxLaneOf d k).errors 1024 == 0 then
    let s1 := s.setRx b { d with phase := .none, phaseT := s.now, fails := 0, noPartner := false,
                                 trained := maskOf fun k => d.live k }
    ((s1.sendDone b).writeRxRecords b).completeWhere (isTrain b) stOk 0 none
  else s.failRound b

/-- ROUND_RETRY_WAIT_EXPIRE: the next round, or a probe of hold requests while a stream is present (R116). -/
def doRetryWait (b : Nat) (s : State) : State :=
  let d := s.rxDir b
  if d.phase != .waiting || !d.mayTrain || s.sys.restart || s.sys.quiet != .awake then s
  else if d.noPartner && s.anyPresent b then
    State.each (fun k s => if (s.rxDir b).live k then s.sendRequest b k 3 0 0 else s) (lanesOf b)
      (s.setRx b { d with phaseT := s.now })
  else s.startRound b

/-- LANE_TRAIN (R117, R118). -/
def startLaneTrain (p : LaneTrainP) (s : State) : Ans :=
  let d := s.rxDir p.bundle
  orAns (failIf (decide (64 ≤ p.bundle) || p.rsvd != 0) stBadParam
    <|> failIf (d.training || d.asleep || d.loopback != 0 || d.prbs) stBusy)
    (.later (s.startRound p.bundle) .event)

/-! ### Lane events a round waits for -/

/-- DLL_LOCK: enabled lanes leave IDLE (R95, R98); WAIT_CLK ends. -/
def doDllLock (b : Nat) (s : State) : State :=
  let d := s.rxDir b
  if d.dll || d.asleep || !d.enable || s.sys.quiet != .awake then s
  else
    let s1 := s.setRx b { d with dll := true,
                                 phase := if d.phase = .waitClk then .rxAdapt else d.phase,
                                 phaseT := if d.phase = .waitClk then s.now else d.phaseT }
    s1.lanesHunt b

/-- LANE_ENTER_LOCKED: two consecutive superframes confirm the seed (R99); an encrypted lane left IDLE (R440). -/
def doEnterLocked (b k : Nat) (s : State) : State :=
  let l := rxLaneOf (s.rxDir b) k
  if l.st = .seed && l.seedOk then
    let s1 := s.laneTo b k .locked
    let crypt := (s.rxStreams.find? fun e => e.2.any fun (x : RxStream) =>
      x.cfg.bundle == b && (groupLanes x.cfg).contains k).bind fun e => e.2.bind (·.crypt)
    (s1.leaveIdle ((s.rxDir b).expected b k) crypt).maybeFir b
  else s

end Sys2Proof.Machine
end

