-- ==== Sys2Proof/Machine/Raster.lean ====
section
/-! DEFINITION. Raster descriptors, relations of output rasters and the commands of Table 13.3 (chapter 2). -/

namespace Sys2Proof.Machine

/-- Table 2.2: the permitted frame rates, in row order. -/
def rateTable : List (Nat × Nat) :=
  [(24000, 1001), (24, 1), (25, 1), (30000, 1001), (30, 1), (50, 1), (60000, 1001), (60, 1), (100, 1), (120000, 1001), (120, 1)]

/-- Active lines of the first and second field (R540). -/
def firstLines (d : RasterDesc) : Nat := if d.scan = 0 then d.activeLines else ceilDiv d.activeLines 2
def secondLines (d : RasterDesc) : Nat := if d.scan = 0 then 0 else d.activeLines / 2

/-- Ranges and relations of a raster descriptor (R37, R38, R540). -/
def descOk (d : RasterDesc) (house : Bool) : Bool :=
  decide (32 ≤ d.totalLines ∧ d.totalLines ≤ 8192) && decide (64 ≤ d.totalSamples ∧ d.totalSamples ≤ 16384) &&
  rateTable.contains (d.rateNum, d.rateDen) && decide (d.scan < 3) && d.rsvd == 0 &&
  (if d.scan = 0 then d.field2Line == 0 && d.activeLine2 == 0 && decide (d.activeLine1 + d.activeLines ≤ d.totalLines + 1)
   else decide (2 ≤ d.field2Line ∧ d.field2Line ≤ d.totalLines) && decide (d.activeLine1 + firstLines d ≤ d.field2Line) &&
     decide (d.field2Line ≤ d.activeLine2) && decide (d.activeLine2 + secondLines d ≤ d.totalLines + 1)) &&
  decide (1 ≤ d.activeLine1) && decide (d.activeSample0 < d.totalSamples) &&
  decide (d.activeSample0 + d.activeSamples ≤ d.totalSamples) &&
  (if house then d.house == 0 && d.ratio == 0 && d.phaseLines == 0 && d.phaseSamples == 0
   else decide (d.house < 2) && decide (d.ratio < 3) && decide (d.phaseLines < d.totalLines) && decide (d.phaseSamples < d.totalSamples))

/-- R39: the frame rates relate as RATIO states. -/
def ratioOk (o h : RasterDesc) : Bool :=
  match o.ratio with
  | 0 => descPeriod o == descPeriod h
  | 1 => 2 * descPeriod o == descPeriod h
  | 2 => descPeriod o == 2 * descPeriod h
  | _ => false

/-- The frame of the active line `k`, counted from 0: its raster line (R540, R223). -/
def activeLineNo (d : RasterDesc) (k : Nat) : Nat :=
  if k < firstLines d then d.activeLine1 + k else d.activeLine2 + (k - firstLines d)

/-- Active line index of a raster line, none outside the active fields. -/
def activeIndex (d : RasterDesc) (l : Nat) : Option Nat :=
  if d.activeLine1 ≤ l && l < d.activeLine1 + firstLines d then some (l - d.activeLine1)
  else if d.activeLine2 ≤ l && l < d.activeLine2 + secondLines d then some (firstLines d + l - d.activeLine2)
  else none

/-! ### Line-peak rate (R60, R104) -/

/-- Lowest instantaneous bit rate of a declared spread, in 2,000ths of the nominal rate. -/
def spreadLow (v : Nat) : Nat := if v.testBit 7 then 1995 else 2000 - v % 16

/-- R60 with R104: the line-peak rate is at most 95 % of the payload of `g` lanes. -/
def linePeakOk (samples lines num den mode g rate spread : Nat) : Bool :=
  decide (samples * modeBits mode * lines * num * (100 * 86016 * 2000 * 2 ^ rate) ≤
    95 * g * 12000000000 * 81740 * spreadLow spread * den)

/-- The spread a transmit bundle carries (R415). -/
def State.txSpread (s : State) (b : Nat) : Nat := (fget {} s.clocks.synths (16 + b / 4) : Synth).spread

/-- R60 for a transmit group under a raster. -/
def State.txPeakOk (s : State) (cfg : StreamSetP) (d : RasterDesc) : Bool :=
  linePeakOk d.activeSamples d.totalLines d.rateNum d.rateDen cfg.mode cfg.g (s.txDir cfg.bundle).rate (s.txSpread cfg.bundle)

/-! ### Reference cycles (R407) -/

/-- R407: a house frame holds a whole number of reference clock cycles. -/
def wholeCycles (freqHz : Nat) (d : RasterDesc) : Bool :=
  freqHz * d.rateDen % (d.rateNum * (if d.rateDen = 1001 then 1001 else 1)) == 0

/-! ### Output raster relation (R39, R41) -/

/-- The phase offset P in ticks, and the first frame count under R39 whose start is not before `now` (a start that the
whole-tick clock rounds counts as now), with that start. -/
def relationCount (o : RasterDesc) (h : House) (now : Tick) : Int × Int :=
  let tf : Int := descPeriod o
  let p : Int := ((o.phaseLines * o.totalSamples + o.phaseSamples) * descPeriod o / (o.totalLines * o.totalSamples) : Nat)
  let hf : Int := h.frame.toNat
  let base : Int := match o.ratio with
    | 0 => (h.frameT : Int) + p - hf * tf
    | 1 => (h.frameT : Int) + p - 2 * hf * tf
    | _ => (h.frameT : Int) + p - hf * (descPeriod h.desc)
  let c := -((base - ((now : Int) - 1)) / tf)
  (c, base + c * tf)

/-- What R39 makes the relation from: house, RATIO, and the phase offset as a part of the frame in lowest terms. -/
def relKey (d : RasterDesc) : Nat × Nat × Nat × Nat :=
  let p := d.phaseLines * d.totalSamples + d.phaseSamples
  let k := Nat.gcd p (d.totalLines * d.totalSamples)
  (d.house, d.ratio, p / k, d.totalLines * d.totalSamples / k)

/-- R41: the first frame of a new relation, the offset O it fixes, and whether its start lies ahead (an extension). An offset that a
MATE has just adopted from its LEAD stays as it is (R45). -/
def newRelation (o : OutRaster) (d : RasterDesc) (h : House) (ended : Nat) (now : Tick) : Nat × Nat × Bool :=
  let (c, at_) := relationCount d h now
  let n : Int := c + o.o
  let up : Nat := if o.adopted then 0 else ((ended : Int) + 1 - n).toNat
  ((n + up).toNat, o.o + up, decide ((now : Int) + 1 < at_))

/-! ### RASTER_SET -/

/-- Outputs on a house raster. -/
def State.outputsOn (s : State) (house : Nat) : List (Nat × OutRaster) :=
  s.rasters.filterMap fun e => match e.2 with
    | some o => if o.desc.house = house then some (e.1, o) else none
    | none => none

/-- A frame-bound command names line 1 of its own raster, or is immediate (R40, R52). -/
def onFrame (h : Hdr) (raster : Nat) : Check := failIf (h.sched && (h.raster != raster || h.line != 1)) stBadParam

/-- RASTER_SET checks (R37, R39, R40, R359, R407). -/
def chkRasterSet (h : Hdr) (p : RasterSetP) (s : State) : Check :=
  if p.raster < 2 then
    let r : Ref := fget {} s.clocks.refs p.raster
    failIf (p.rsvd != 0) stBadParam
    <|> failIf (s.sys.mode != .bringup && s.sys.mode != .test) stNotInMode
    <|> failIf (!descOk p.desc true || !((s.outputsOn p.raster).all fun e => ratioOk e.2.desc p.desc) ||
          (r.enable && !wholeCycles r.freqHz p.desc)) stBadParam
    <|> onFrame h p.raster
  else match s.raster? p.raster, s.txStream (p.raster - 2) with
    | some _, some x => failIf (p.rsvd != 0 || !descOk p.desc false || !ratioOk p.desc (s.house p.desc.house).desc ||
        !s.txPeakOk x.cfg p.desc) stBadParam <|> onFrame h p.raster
    | _, _ => some (stBadParam, 0)

/-- RASTER_SET immediate: it waits for the raster's next frame start. -/
def startRasterSet (h : Hdr) (p : RasterSetP) (s : State) : Ans :=
  orAns (chkRasterSet h p s) (.later s .apply p.raster)

/-- Pending actions on raster `r` beyond the new TOTAL_LINES are cancelled (R40). -/
def State.cutLines (s : State) (r lines : Nat) : State :=
  s.completeWhere (fun j => j.sched && j.kind == .apply && j.raster == r && decide (lines < j.line)) stCancelled 0 (some r)

/-- RASTER_SET of a house raster at its frame start: its outputs take their relation anew at their next frame starts. DESIGN CHOICE
(assumption 39): pending actions beyond its new TOTAL_LINES are cancelled, as R40 says of an output raster. -/
def applyHouseSet (j : Job) (p : RasterSetP) (s : State) : State :=
  let h := s.house p.raster
  let s1 := s.setHouse p.raster { h with desc := p.desc }
  let s2 := if descPeriod h.desc = descPeriod p.desc then s1
    else State.each (fun e s => s.setOutRaster e.1 (some { e.2 with relation := true })) (s1.outputsOn p.raster) s1
  let s3 := if h.desc.totalLines = p.desc.totalLines then s2 else s2.cutLines p.raster p.desc.totalLines
  s3.complete j stOk 0 (some p.raster)

/-- RASTER_SET at its line. The work of an output raster is done where its frame starts, so the job waits there. -/
def applyRasterSet (j : Job) (p : RasterSetP) (s : State) : State :=
  if p.raster < 2 then applyHouseSet j p s else s.setJob { j with kind := .event }

/-- The RASTER_SET commands that wait to govern output raster `n`. -/
def State.setsFor (s : State) (n : Nat) : List (Job × RasterSetP) :=
  s.jobs.filterMap fun j => match j.params with
    | .rasterSet p => if p.raster = 2 + n && j.kind == .event then some (j, p) else none
    | _ => none

/-! ### RASTER_QUERY -/

def descBytes (d : RasterDesc) : List Byte :=
  leBytes 2 d.totalLines ++ leBytes 2 d.totalSamples ++ leBytes 4 d.rateNum ++ leBytes 4 d.rateDen ++ leBytes 1 d.scan ++
  leBytes 1 0 ++ leBytes 2 d.field2Line ++ leBytes 2 d.activeLine1 ++ leBytes 2 d.activeLines ++ leBytes 2 d.activeLine2 ++
  leBytes 2 d.activeSample0 ++ leBytes 2 d.activeSamples ++ leBytes 1 d.house ++ leBytes 1 d.ratio ++ leBytes 2 d.phaseLines ++
  leBytes 2 d.phaseSamples

def HouseState.code : HouseState → Nat
  | .locked => 0 | .coasting => 1 | .free => 2

/-- A standing raster's result of RASTER_QUERY. -/
def State.rasterResult (s : State) (q : RasterQueryP) (p : Standing) (st : Nat) : List Byte :=
  let pred := if q.predLine = 0 then 0 else s.stcOf (p.lineT' q.predFrame q.predLine)
  descBytes p.desc ++ leBytes 1 st ++ leBytes 1 0 ++ leBytes 6 0 ++ leBytes 8 p.frame ++ leBytes 2 p.line ++
  leBytes 2 (p.sample s.now) ++ leBytes 4 0 ++ leBytes 8 (s.stcOf p.frameT) ++ leBytes 8 (descPeriod p.desc) ++ leBytes 8 0 ++
  leBytes 8 pred

/-- Signed ticks from line 1 of a house raster to a source's line 1 at `t`, as the phase meter takes it at a frame marker (R20, R43): from
the house frame that holds the mark. -/
def State.metered (s : State) (t : Tick) (house : Nat) : Int :=
  let h := s.house house
  ((t : Int) - h.frameT) % descPeriod h.desc

/-- An input raster's result (R43, R358). -/
def inputResult (q : RasterQueryP) (x : RxStream) : List Byte :=
  descBytes x.fmt ++ leBytes 1 0 ++ leBytes 1 (b2n x.present + 2 * b2n x.stale) ++ leBytes 6 0 ++ leBytes 8 x.frame ++
  leBytes 2 x.line ++ leBytes 2 0 ++ leBytes 4 0 ++ leBytes 8 x.markStc.toNat ++ leBytes 8 x.period ++
  leBytes 8 (if x.marked then encInt 64 (if q.house = 0 then x.phaseA else x.phaseB) else 0) ++ leBytes 8 0

/-- RASTER_QUERY (R43, R358). -/
def startRasterQuery (p : RasterQueryP) (s : State) : Ans :=
  if p.rsvd != 0 || 2 ≤ p.house then .fail stBadParam
  else match s.raster? p.raster with
    | some r =>
      if r.desc.totalLines < p.predLine || 2 ^ 48 ≤ p.predFrame then .fail stBadParam
      else .result s p.res (s.rasterResult p r (if p.raster < 2 then (s.house p.raster).st.code else 0))
    | none =>
      match (if 1024 ≤ p.raster && p.raster < 1536 then s.rxStream (p.raster - 1024) else none) with
      | some x => .result s p.res (inputResult p x)
      | none => .fail stBadParam

/-! ### STC -/

/-- STC_SET checks (R49). -/
def chkStcSet (h : Hdr) (p : StcSetP) : Check :=
  failIf (decide (2 ≤ p.op) || p.rsvd != 0 || (h.sched && h.raster != 0)) stBadParam

/-- STC_SET immediate: it waits for the next house A line start, whichever line that is. -/
def startStcSet (h : Hdr) (p : StcSetP) (s : State) : Ans := orAns (chkStcSet h p) (.later s .event)

/-- CP_B's timer compare fires the first time the STC is at or above it after it is armed (R50). -/
def State.timerCompare (s : State) : State :=
  if s.hub.armed && decide (s.hub.timecmp ≤ s.stc) then
    ({ s with hub := { s.hub with armed := false, fired := true } }).fire 6
  else s

/-- STC_SET at a house A line start (R49, R50). A timer wake condition that holds sets its latch before the STC moves back. -/
def applyStcSet (j : Job) (p : StcSetP) (s : State) : State :=
  let s0 := if s.sys.wakeTimer ≤ s.stc then { s with sys := { s.sys with wakeLatch := Nat.lor s.sys.wakeLatch 4 } } else s
  let s1 := s0.timerCompare
  let off : BitVec 64 := if p.op = 0 then BitVec.ofNat 64 p.value - BitVec.ofNat 64 s1.clk.mono
    else s1.clk.offset + BitVec.ofNat 64 p.value
  (({ s1 with clk := { s1.clk with offset := off } }).timerCompare).complete j stOk 0 (some 0)

/-- STC_READ (R358). -/
def startStcRead (p : ResP) (s : State) : Ans :=
  let pos (x : Nat) := let h := s.house x
    leBytes 8 h.frame.toNat ++ leBytes 2 h.line ++ leBytes 2 (h.standing.sample s.now) ++ leBytes 1 h.st.code ++ leBytes 3 0
  .result s p.res (leBytes 8 s.stc ++ leBytes 8 s.now ++ pos 0 ++ pos 1)

/-! ### SCHED_CANCEL -/

/-- A pending action of `queue` and `seq`: the newest of that name. -/
def State.pendingAction (s : State) (q seq : Nat) : Option Job :=
  (s.jobs.filter fun j => j.sched && j.kind == .apply && j.queue == q && j.seq == seq).getLast?

/-- The job's arming point lies ahead (R55, R541). -/
def State.beforeArming (s : State) (j : Job) : Bool :=
  match s.raster? j.raster, j.frame with
  | some p, some f => p.onTime f j.line j.armLines
  | _, _ => false

/-- SCHED_CANCEL (R55). -/
def startSchedCancel (release : Job → State → State) (p : SchedCancelP) (s : State) : Ans :=
  if p.rsvd != 0 || 10 ≤ p.queue then .fail stBadParam
  else match s.pendingAction p.queue p.seq with
    | none => .fail stBadParam
    | some j => if s.beforeArming j then .done ((release j s).complete j stCancelled 0 (some j.raster)) else .fail stLate

end Sys2Proof.Machine
end

