-- ==== Sys2Proof/Machine/Clocks.lean ====
section
/-! DEFINITION. Reference ports, synthesizers, retunes, bypass, clock outputs and the commands of Table 13.11 (chapter 15).
Phases are in picoseconds. -/

namespace Sys2Proof.Machine

def State.ref (s : State) (p : Nat) : Ref := fget {} s.clocks.refs p
def State.setRef (s : State) (p : Nat) (r : Ref) : State := { s with clocks := { s.clocks with refs := fset {} s.clocks.refs p r } }
def State.synth (s : State) (i : Nat) : Synth := fget {} s.clocks.synths i
def State.setSynth (s : State) (i : Nat) (x : Synth) : State := { s with clocks := { s.clocks with synths := fset {} s.clocks.synths i x } }
def State.clkout (s : State) (i : Nat) : ClkOut := fget {} s.clocks.outs i
def State.setClkout (s : State) (i : Nat) (x : ClkOut) : State := { s with clocks := { s.clocks with outs := fset {} s.clocks.outs i x } }

def isHouse (i : Nat) : Bool := decide (i < 2)
def isLane (i : Nat) : Bool := decide (16 ≤ i) && decide (i < 32)
def isOutlet (i : Nat) : Bool := decide (32 ≤ i) && decide (i < 36)

/-- The house synthesizer that feeds an outlet (Table 15.1). -/
def outletHouse (i : Nat) : Nat := if i < 34 then 0 else 1

/-- The event source of a synthesizer (Table 15.4). -/
def synthEvent (i : Nat) : Nat := if isHouse i then 960 + i else if isLane i then 964 else 933 + i

/-! ### Frequencies (mHz) -/

/-- Clock frequency after SCALE in mHz, taken at the house raster's rate family (R407). -/
def State.scaledRef (s : State) (p : Nat) : Nat :=
  let r := s.ref p
  let f := if (s.house p).desc.rateDen = 1001 then r.freqHz * 1000000 / 1001 else r.freqHz * 1000
  match r.scale with
  | 1 => 2 * f
  | 2 => f / 2
  | _ => f

/-- Period of the scaled reference in picoseconds. -/
def State.refPeriod (s : State) (p : Nat) : Int := 10 ^ 15 / (max (s.scaledRef p) 1 : Nat)

/-- A multiple of `f` between 4.8 and 6.4 GHz that firmware chooses. -/
def vcoOf (i f : Nat) : Nat :=
  let lo := ceilDiv 4800000000000 (max f 1)
  let hi := 6400000000000 / max f 1
  f * (lo + Config.vcoMultiple i f % (hi + 1 - lo))

/-- Configured VCO frequency (R415, Table 15.1). -/
def State.vco (s : State) (i : Nat) (x : Synth) : Nat :=
  if isLane i then (if x.spread.testBit 7 then 6015000000000 else 6000000000000)
  else if isHouse i then vcoOf i (s.scaledRef i)
  else vcoOf i x.freq

/-! ### States of a synthesizer -/

/-- CLOCK_STATUS STATE (Tables 13.11 and 15.2, R425). -/
def State.synthState (s : State) (i : Nat) : Nat :=
  let x := s.synth i
  if isOutlet i && (x.bypass || (x.locked && x.phaseMode == 0 && !x.phaseKnown)) then 3
  else if x.retuning then 4
  else if x.locked then 1
  else if isHouse i then
    (if !(s.ref i).everPresent then 5
     else if x.everLocked && (x.lost || !(s.ref i).present) then 2
     else 0)
  else 0

/-- The house raster's state follows its synthesizer's (Table 15.2). -/
def State.syncHouse (s : State) (i : Nat) : State :=
  let x := s.synth i
  s.setHouse i { s.house i with st := if x.locked then .locked else if x.everLocked then .coasting else .free }

/-- R48: the discipline source of the STC. -/
def State.syncStc (s : State) : State :=
  let ok (i : Nat) := (s.house i).st == .locked || ((s.house i).st == .coasting && (s.synth i).history)
  { s with clk := { s.clk with source := if ok 0 then .houseA else if ok 1 then .houseB else .crystal } }

/-- An outlet is on bypass while it retunes or is unlocked, and while its house synthesizer is free-running, unlocked or
retuning (R423); each switch raises its event, and the divider phase is known again after it in `DETERMINISTIC` (R425, R426). -/
def State.syncOutlet (s : State) (i : Nat) : State :=
  let x := s.synth i
  let h := s.synthState (outletHouse i)
  let on := x.retuning || !x.locked || h == 0 || h == 4 || h == 5
  if x.freq = 0 || on = x.bypass then s
  else (s.setSynth i { x with bypass := on, phaseKnown := !on && x.phaseMode == 1 }).fire (synthEvent i)

/-- Everything that follows a change of a house synthesizer or outlet. -/
def State.syncClocks (s : State) : State :=
  State.each (fun i s => s.syncOutlet i) [32, 33, 34, 35] (((s.syncHouse 0).syncHouse 1).syncStc)

/-! ### Stored search results (R420): 8 records for each of the 22 synthesizers, three to a page from page 140 (assumption 16) -/

def synthIndex (i : Nat) : Nat := if isHouse i then i else i - 14

def searchAt (k : Nat) : Nat × Nat := (140 + k / 3, 2 + 16 * (k % 3))

/-- Record `k` as it will stand: valid only on a whole page. -/
def State.searchRecord (s : State) (k : Nat) : Option (List Byte) :=
  let (page, off) := searchAt k
  let r := nvBytes s.nvView (64 * page + off) 16
  if nvBytes s.nvView (64 * page) 2 == nvBytes s.nvView (64 * page + 62) 2 && (r.getD 1 0).toNat.testBit 7 then some r else none

def searchSlots (i : Nat) : List Nat := (List.range 8).map (8 * synthIndex i + ·)

/-- A stored result within 0.1 % of the target and 20 °C of the present temperature: its slot and band. -/
def State.storedBand (s : State) (i f : Nat) : Option (Nat × Nat) :=
  (searchSlots i).findSome? fun k =>
    match s.searchRecord k with
    | none => none
    | some r =>
      let fr := leNat ((r.drop 4).take 8)
      let dt := decInt 8 (r.getD 2 0).toNat - s.pins.temp
      if 1000 * fr ≤ 1001 * f && 999 * f ≤ 1000 * fr && decide (-20 ≤ dt) && decide (dt ≤ 20) then
        some (k, (r.getD 1 0).toNat % 64)
      else none

def State.writeSearch (s : State) (k i band : Nat) (temp : Int) (f used : Nat) : State :=
  let (page, off) := searchAt k
  s.nvMerge page off (leBytes 1 i ++ leBytes 1 (128 + band % 64) ++ leBytes 1 (encInt 8 temp) ++ leBytes 1 0 ++ leBytes 8 f ++
    leBytes 4 used) .record

/-- The slot a new result takes: the first without a record, else the one least recently used. -/
def State.searchVictim (s : State) (i : Nat) : Nat :=
  let used (k : Nat) : Nat := match s.searchRecord k with
    | none => 0
    | some r => 1 + leNat (r.drop 12)
  (searchSlots i).foldl (fun a k => if used k < used a then k else a) (8 * synthIndex i)

/-! ### Retunes (R419, R421) -/

/-- The band table entry that covers `f` (R417). -/
def tableBand (x : Synth) (f : Nat) : Option Nat :=
  match x.ceiling with
  | none => none
  | some c => if c ≤ f then none else ((x.table.filter fun e => e.1 ≤ f).getLast?).map (·.2)

/-- A band search starts (R419). -/
def State.startSearch (s : State) (i : Nat) : State :=
  s.setSynth i { s.synth i with searching := true, bandFrom := .search }

/-- A house synthesizer that gives up its lock now has held it long enough for a frequency history (R411). -/
def State.lockHistory (s : State) (i : Nat) (x : Synth) : Bool := isHouse i && decide (x.lockT + 270000000 ≤ s.now)

/-- A retune begins: lock is given up, outputs go to bypass, the band is chosen. -/
def State.retune (s : State) (i : Nat) : State :=
  let x0 := s.synth i
  let x := { x0 with retuning := true, locked := false, lost := false, retunes := x0.retunes + 1,
                     history := if x0.locked then s.lockHistory i x0 else x0.history }
  let f := s.vco i x
  let s1 := s.setSynth i x
  let s2 := match tableBand x f with
    | some b => s1.setSynth i { x with band := b, bandFrom := .table }
    | none => match s1.storedBand i f with
      | some (k, b) =>
        (s1.setSynth i { x with band := b, bandFrom := .stored }).writeSearch k i b
          (decInt 8 (((s1.searchRecord k).getD []).getD 2 0).toNat) (leNat ((((s1.searchRecord k).getD []).drop 4).take 8)) x.retunes
      | none => s1.startSearch i
  s2.syncClocks

/-- The transmit directions that a lane synthesizer serves (Table 15.1). -/
def servedBy (i : Nat) : List Nat := (List.range 4).map (4 * (i - 16) + ·) ++ (if i = 31 then [64] else [])

/-- A lane retune takes its directions to idle behind two withdrawn superframes (R416). -/
def State.laneBypass (s : State) (i : Nat) : State :=
  State.each (fun b s => if (s.txDir b).sends then s.setTx b { s.txDir b with phase := .withdrawing 2 .retune } else s) (servedBy i) s

/-! ### Clock record (R427, R466): one slice for each port, synthesizer and CLKOUT, in a layout of the model's own (assumption 17) -/

def clockPage (copy : Nat) : Nat := 0x802 + 16 * copy

/-- A copy is valid when every page is whole and all 16 counts are equal; its generation. -/
def State.clockGen (s : State) (copy : Nat) : Option Nat :=
  let g := s.nvHead (clockPage copy)
  let ok (k : Nat) : Bool :=
    let a := 64 * (clockPage copy + k)
    leNat (nvBytes s.nvView a 2) == g && leNat (nvBytes s.nvView (a + 62) 2) == g
  if (List.range 16).all ok then some g else none

/-- The copy in use and its generation. -/
def State.clockCopy (s : State) : Option (Nat × Nat) :=
  match s.clockGen 0, s.clockGen 1 with
  | some a, some b => if (a + 65536 - b) % 65536 < 32768 then some (0, a) else some (1, b)
  | some a, none => some (0, a)
  | none, some b => some (1, b)
  | none, none => none

/-- The 960 data bytes of the record in use, zeros without one. -/
def State.clockData (s : State) : List Byte :=
  match s.clockCopy with
  | some (c, _) => (List.range 16).flatMap fun k => nvBytes s.nvView (64 * (clockPage c + k) + 2) 60
  | none => List.replicate 960 0

/-- A setting is kept in the other copy; an update that finds its pages protected is skipped and counted (R462). -/
def State.saveClock (s : State) (off : Nat) (bs : List Byte) : State :=
  let (c, g) := match s.clockCopy with
    | some (c, g) => (1 - c, (g + 1) % 65536)
    | none => (0, (max (s.nvHead 0x802) (s.nvHead 0x812) + 1) % 65536)
  if s.nvProtected (64 * clockPage c) then (s.count 14 0 3).fire 972
  else
    let d := s.clockData
    let d' := d.take off ++ bs ++ d.drop (off + bs.length)
    State.each (fun k s => s.nvPage (clockPage c + k) g ((d'.drop (60 * k)).take 60) .record) (List.range 16) s

def refSlice (p : RefSetP) : List Byte :=
  leBytes 1 1 ++ leBytes 1 (b2n p.enable + 2 * b2n p.lineSync + 4 * b2n p.fsFall) ++ leBytes 1 p.scale ++ leBytes 4 p.freqHz

def synthSlice (p : SynthSetP) : List Byte :=
  leBytes 1 1 ++ leBytes 1 p.policy ++ leBytes 2 p.bw ++ leBytes 2 p.slew ++ leBytes 2 p.lockN ++ leBytes 2 p.lossM ++
  leBytes 2 p.window ++ leBytes 1 p.spread ++ leBytes 1 p.sscKhz ++ leBytes 1 p.phaseMode ++ leBytes 8 p.freq

def clkoutSlice (p : ClkoutSetP) : List Byte :=
  leBytes 1 1 ++ leBytes 1 p.synth ++ leBytes 1 (b2n p.enable) ++ leBytes 4 p.divider ++ leBytes 2 p.delay

/-! ### REF_SET -/

def chkRefSet (p : RefSetP) (s : State) : Check :=
  let r := s.ref p.port
  let s' := s.setRef p.port { r with enable := p.enable, scale := p.scale, freqHz := p.freqHz }
  let retunes := r.enable != p.enable || r.freqHz != p.freqHz || r.scale != p.scale
  failIf (decide (2 ≤ p.port) || decide (3 ≤ p.scale) || decide (p.freqHz < 10000000) || decide (200000000 < p.freqHz) || p.rsvd != 0)
    stBadParam
  <|> failIf (p.enable && !wholeCycles p.freqHz (s.house p.port).desc) stBadParam
  <|> failIf ((s.synth p.port).ceiling.any fun c => decide (c < s'.vco p.port (s.synth p.port))) stBadParam
  <|> failIf (retunes && (s.synth p.port).retuning) stBusy

/-- REF_SET applied (R407): a change of ENABLE, FREQ_HZ or SCALE retunes the house synthesizer. -/
def State.setReference (s : State) (p : RefSetP) : State :=
  let r := s.ref p.port
  let retunes := r.enable != p.enable || r.freqHz != p.freqHz || r.scale != p.scale
  let s1 := s.setRef p.port { r with enable := p.enable, lineSync := p.lineSync, fsFall := p.fsFall, scale := p.scale,
                                     freqHz := p.freqHz, present := r.present && !retunes }
  if retunes then s1.retune p.port else s1

def startRefSet (p : RefSetP) (s : State) : Ans :=
  orAns (chkRefSet p s) (.done ((s.setReference p).saveClock (7 * p.port) (refSlice p)))

/-! ### SYNTH_SET -/

/-- R426: FREQ / DIVIDER against the scaled reference is P/Q with P and Q at most 1,024. -/
def State.ratioFits (s : State) (synth freq divider : Nat) : Bool :=
  let h := outletHouse synth
  let r := s.ref h
  let fam := if (s.house h).desc.rateDen = 1001 then 1001 else 1000
  let a := freq * fam * 2
  let b := divider * r.freqHz * 1000 * 1000 * (match r.scale with
    | 1 => 4
    | 2 => 1
    | _ => 2)
  let g := Nat.gcd a b
  decide (0 < a ∧ 0 < b) && decide (a / g ≤ 1024) && decide (b / g ≤ 1024)

/-- CLKOUTs assigned to an outlet. -/
def State.clkoutsOf (s : State) (synth : Nat) : List Nat := (List.range 16).filter fun k => (s.clkout k).synth == synth

def chkSynthFields (p : SynthSetP) : Bool :=
  decide (16 ≤ p.lockN) && decide (p.lockN < 65536) && decide (1 ≤ p.lossM) && decide (p.lossM < 65536) &&
  decide (10 ≤ p.window) && decide (p.window ≤ 10000) && p.rsvd == 0 &&
  (if isHouse p.synth then
     decide (p.policy < 3) && decide (1 ≤ p.bw) && decide (p.bw ≤ 1000) &&
     (if p.policy = 1 then decide (1 ≤ p.slew) && decide (p.slew ≤ 100) else p.slew == 0)
   else p.policy == 0 && p.bw == 0 && p.slew == 0) &&
  (if isLane p.synth then
     spreadOk p.spread && (if p.spread = 0 then p.sscKhz == 0 else decide (30 ≤ p.sscKhz) && decide (p.sscKhz ≤ 33)) &&
     (p.spread == 0 || p.synth != 31)
   else p.spread == 0 && p.sscKhz == 0) &&
  (if isOutlet p.synth then decide (p.phaseMode < 2) && decide (1000000000 ≤ p.freq) && decide (p.freq ≤ 800000000000)
   else p.phaseMode == 0 && p.freq == 0)

/-- SYNTH_SET changes what retunes the synthesizer (R416, R422). -/
def synthRetunes (x : Synth) (p : SynthSetP) : Bool :=
  if isLane p.synth then x.spread != p.spread || x.sscKhz != p.sscKhz || x.lockN != p.lockN || x.lossM != p.lossM || x.window != p.window
  else if isOutlet p.synth then x.freq != p.freq || x.phaseMode != p.phaseMode
  else false

def synthWith (x : Synth) (p : SynthSetP) : Synth :=
  { x with policy := p.policy, bw := if isHouse p.synth then p.bw else x.bw, slew := p.slew, lockN := p.lockN, lossM := p.lossM,
           window := p.window, spread := p.spread, sscKhz := p.sscKhz, phaseMode := p.phaseMode, freq := p.freq }

/-- SYNTH_SET checks (R370, R415, R418, R421, R426). -/
def chkSynthSet (p : SynthSetP) (s : State) : Check :=
  let x := s.synth p.synth
  failIf (!(isHouse p.synth || isLane p.synth || isOutlet p.synth) || !chkSynthFields p) stBadParam
  <|> failIf (p.policy == 2 && s.sys.mode != .bringup && s.sys.mode != .test) stNotInMode
  <|> failIf (x.searching || (p.synth == 31 && s.pair.up) || (x.retuning && synthRetunes x p)) stBusy
  <|> failIf (x.ceiling.any fun c => decide (c < s.vco p.synth (synthWith x p))) stBadParam
  <|> failIf (isOutlet p.synth && p.phaseMode == 1 &&
        !((s.clkoutsOf p.synth).all fun k => s.ratioFits p.synth p.freq (s.clkout k).divider)) stBadParam

/-- SYNTH_SET applied. A new policy takes up a held build-out offset at the next frame start (R412). -/
def State.setSynthesizer (s : State) (p : SynthSetP) : State :=
  let x := s.synth p.synth
  let y := synthWith x p
  let s1 := s.setSynth p.synth { y with policyChanged := x.policyChanged || (x.policy != p.policy && x.buildout != 0) }
  if synthRetunes x p then (if isLane p.synth then (s1.laneBypass p.synth).retune p.synth else s1.retune p.synth) else s1

def startSynthSet (p : SynthSetP) (s : State) : Ans :=
  orAns (chkSynthSet p s) (.done ((s.setSynthesizer p).saveClock (14 + 23 * synthIndex p.synth) (synthSlice p)))

/-! ### BAND_TABLE_SET, CLKOUT_SET, CLKOUT_SYNC, CLOCK_STATUS -/

def ascending : List (Nat × Nat) → Bool
  | a :: b :: r => decide (a.1 < b.1) && ascending (b :: r)
  | _ => true

/-- BAND_TABLE_SET (R417, R370): the table governs the next retune. -/
def startBandTable (p : BandTableSetP) (s : State) : Ans :=
  let x := s.synth p.synth
  orAns (failIf (!(isHouse p.synth || isLane p.synth || isOutlet p.synth) || p.rsvd != 0 || p.entries.isEmpty ||
        decide (64 < p.entries.length) || !(p.entries.all fun e => decide (e.2 < 64)) || !ascending p.entries ||
        (p.entries.getLast?.any fun e => decide (p.ceiling ≤ e.1)) || decide (p.ceiling < s.vco p.synth x)) stBadParam
    <|> failIf (x.retuning || x.searching) stBusy)
    (.done (s.setSynth p.synth { x with ceiling := some p.ceiling, table := p.entries }))

def chkClkoutSet (p : ClkoutSetP) (s : State) : Check :=
  let x := s.synth p.synth
  failIf (decide (16 ≤ p.clkout) || !isOutlet p.synth || decide (p.divider < 1) || decide (65535 < p.divider) || decide (2047 < p.delay) ||
    p.rsvd != 0 || decide (800000000000 * p.divider < x.freq) ||
    (x.phaseMode == 1 && !s.ratioFits p.synth x.freq p.divider)) stBadParam

/-- The delay in force at `t`, in 5 ps steps: it moves toward its new value by one step an output period of FREQ / DIVIDER (R424). -/
def ClkOut.delayAt (c : ClkOut) (freq t : Nat) : Nat :=
  let periods := (t - c.delayT) * freq / (270000000000 * max c.divider 1)
  if c.oldDelay ≤ c.delay then min c.delay (c.oldDelay + periods) else max c.delay (c.oldDelay - periods)

/-- CLKOUT_SET applied (R424). -/
def State.setClockOut (s : State) (p : ClkoutSetP) : State :=
  let c := s.clkout p.clkout
  s.setClkout p.clkout { c with synth := p.synth, enable := p.enable, divider := p.divider, delay := p.delay,
                                oldDelay := c.delayAt (s.synth c.synth).freq s.now, delayT := s.now }

def State.clkoutSet (s : State) (p : ClkoutSetP) : State := (s.setClockOut p).saveClock (520 + 9 * p.clkout) (clkoutSlice p)

def startClkoutSet (p : ClkoutSetP) (s : State) : Ans := orAns (chkClkoutSet p s) (.done (s.clkoutSet p))

def applyClkoutSet (j : Job) (p : ClkoutSetP) (s : State) : State :=
  match chkClkoutSet p s with
  | some (st, d) => s.complete j st d (some j.raster)
  | none => (s.clkoutSet p).complete j stOk 0 (some j.raster)

/-- The dividers of an outlet are reset (R425). -/
def State.resetDividers (s : State) (i : Nat) : State :=
  let s1 := State.each (fun k s => s.setClkout k { s.clkout k with resetT := s.now }) (s.clkoutsOf i) s
  s1.setSynth i { s1.synth i with phaseKnown := !(s1.synth i).bypass }

def chkClkoutSync (p : ClkoutSyncP) (s : State) : Check :=
  failIf (!isOutlet p.synth || p.rsvd != 0) stBadParam <|> failIf ((s.synth p.synth).phaseMode != 0) stBusy

def startClkoutSync (p : ClkoutSyncP) (s : State) : Ans := orAns (chkClkoutSync p s) (.done (s.resetDividers p.synth))

def applyClkoutSync (j : Job) (p : ClkoutSyncP) (s : State) : State :=
  match chkClkoutSync p s with
  | some (st, d) => s.complete j st d (some j.raster)
  | none => (s.resetDividers p.synth).complete j stOk 0 (some j.raster)

/-- The phase error a house synthesizer reports; of another synthesizer a measured, free value (Table 13.11). -/
def State.phaseError (s : State) (i : Nat) : Nat :=
  if isHouse i then encInt 32 (s.synth i).phaseErr else Config.measured (2 * i) s.fresh % 2 ^ 32

def State.clockRecord (s : State) (i : Nat) : List Byte :=
  if i = 255 then leBytes 1 255 ++ leBytes 1 (b2n s.clocks.fabricLocked) ++ leBytes 14 0
  else if 64 ≤ i then leBytes 1 i ++ leBytes 1 (b2n (s.ref (i - 64)).present) ++ leBytes 2 0 ++ leBytes 4 0 ++
    leBytes 4 (Config.measured (2 * i + 1) s.fresh) ++ leBytes 4 0
  else leBytes 1 i ++ leBytes 1 (s.synthState i) ++ leBytes 1 (s.synth i).band ++ leBytes 1 0 ++ leBytes 4 (s.phaseError i) ++
    leBytes 4 (Config.measured (2 * i + 1) s.fresh) ++ leBytes 4 0

/-- CLOCK_STATUS: 25 records (R369). Measured offsets are free values, drawn anew at each query. -/
def startClockStatus (p : ResP) (s : State) : Ans :=
  .result { s with fresh := s.fresh + 1 } p.res
    (([255, 0, 1] ++ (List.range 20).map (16 + ·) ++ [64, 65]).flatMap s.clockRecord)

/-! ### Events -/

/-- REF_ABSENT (R408, R409, R411): the house synthesizer loses lock at once and coasts. -/
def doRefAbsent (p : Nat) (s : State) : State :=
  let r := s.ref p
  if !r.present then s
  else
    let x := s.synth p
    let s1 := (s.setRef p { r with present := false }).fire (962 + p)
    let s2 := if x.locked then
        (s1.setSynth p { x with locked := false, lost := true, history := s.lockHistory p x }).fire (960 + p)
      else s1
    s2.syncClocks

/-- REF_PRESENT: present after 100 ms (R408); the reference appearance of the wake rules (R510). -/
def doRefPresent (p : Nat) (s : State) : State :=
  let r := s.ref p
  if r.present || !r.enable then s
  else
    let s1 := (s.setRef p { r with present := true, everPresent := true, returned := r.everPresent }).setSynth p { s.synth p with lost := false }
    (s1.fire (962 + p)).syncClocks.setLatch 3

/-- FRAME_SYNC_MISSING (R408). -/
def doFrameSyncMissing (p : Nat) (s : State) : State :=
  let r := s.ref p
  if r.present then (s.setRef p { r with fsMissing := true }).fire (962 + p) else s

/-- The shorter way round the frame period, lengthening when both are equal (R412). -/
def shorterWay (off frame : Int) : Int :=
  let m := off % frame
  if 2 * m ≤ frame then m else m - frame

/-- Frame period of a house raster in picoseconds. -/
def House.framePs (h : House) : Int := descPeriod h.desc * 1000000 / 270

/-- The raster realigns at the next line start (R36), on a LEAD at the house line start that it stamps (R387, R414). -/
def State.realign (s : State) (p : Nat) : State :=
  s.setHouse p { s.house p with stepPending := true,
                                stepAt := if s.isLead then some (stampFrom (s.house p).standing (s.now + 1350) 256 5) else none }

/-- A phase jump of `off` under a policy (R412). A slew begins at the next house frame start (Table 15.5). -/
def State.jump (s : State) (p : Nat) (off : Int) : State :=
  let x := s.synth p
  match x.policy with
  | 1 => s.setSynth p { x with slewLeft := shorterWay off (s.house p).framePs, buildout := 0 }
  | 2 => (s.setSynth p { x with buildout := 0 }).realign p
  | _ => s.setSynth p { x with buildout := off }

/-- PHASE_ERR as a pulse leaves it, in ps (R412). -/
def phaseOf (off : Int) : Int := max (-2147483647) (min 2147483647 off)

/-- REF_FRAME_SYNC_PULSE: the pulse falls `off` after line 1, sample 0 of the house raster. The first lock aligns the raster
(R413); a jump follows the policy, while the synthesizer is locked or with the first pulse of a reference that returns (R412); a MATE ignores its own judgement (R414). -/
def doFramePulse (p : Nat) (off : Int) (s : State) : State :=
  let r := s.ref p
  let x := s.synth p
  if !r.present then s
  else
    let s1 := (s.setRef p { r with fsMissing := false, returned := false }).setSynth p { x with phaseErr := phaseOf off }
    if !(x.locked || (r.returned && x.aligned)) || s.isMate then s1
    else if !x.aligned then
      (s1.setSynth p { s1.synth p with aligned := true }).realign p
    else if decide (s.refPeriod p < (off - x.buildout).natAbs) && (x.slewLeft = 0 || decide (s.refPeriod p < (off - x.slewLeft).natAbs)) then
      (s1.jump p off).fire (960 + p)
    else s1

/-- REF_LINE_SYNC_PULSE: with LINE_SYNC, a phase measurement of a present reference: the pulse falls `off` after its line of the house raster
(R408). DEDUCED (assumption 21): PHASE_ERR takes it, and no jump is judged on it, since R412 judges frame-sync pulses. -/
def doLinePulse (p : Nat) (off : Int) (s : State) : State :=
  if (s.ref p).present && (s.ref p).lineSync then s.setSynth p { s.synth p with phaseErr := phaseOf off } else s

/-- A house frame start takes up a policy change on a held build-out offset (R412), and a slew that waits for it. -/
def State.policyFrame (s : State) (p : Nat) : State :=
  let x := s.synth p
  let s1 := if x.policyChanged then (s.setSynth p { x with policyChanged := false, buildout := 0 }).jump p x.buildout else s
  if (s1.synth p).slewLeft = 0 then s1 else s1.setSynth p { s1.synth p with slewing := true }

/-- A house line start of a slew: the line is lengthened or shortened by SLEW until one reference period is left (R412). -/
def State.slewLine (s : State) (p : Nat) : State :=
  let x := s.synth p
  if !x.slewing then s
  else
    let h := s.house p
    let d : Int := h.framePs * x.slew / (10000000 * h.desc.totalLines)
    let rest := if 0 < x.slewLeft then x.slewLeft - d else x.slewLeft + d
    let ended := decide ((rest.natAbs : Int) ≤ s.refPeriod p) || decide (rest * x.slewLeft ≤ 0)
    s.setSynth p { x with slewLeft := if ended then 0 else rest, slewing := !ended }

/-- SYNTH_LOCK (R409, R421): the end of a retune; a lane synthesizer's directions resume as a wake does (R416). -/
def doSynthLock (i : Nat) (s : State) : State :=
  let x := s.synth i
  let may := if isHouse i then (s.ref i).present else if isOutlet i then x.freq != 0 else isLane i
  if x.locked || x.searching || !may then s
  else
    let s1 := (s.setSynth i { x with locked := true, everLocked := true, lost := false, retuning := false, lockT := s.now }).fire (synthEvent i)
    let s2 := if isLane i && x.retuning then
        State.each (fun b s =>
          let d := s.txDir b
          if d.enable && !d.asleep && d.phase = .idle && s.sys.mode != .failed then applyRecords b 1 (s.txStart b) else s) (servedBy i) s1
      else s1
    s2.syncClocks

/-- SYNTH_LOSS_OF_LOCK of a house or outlet synthesizer (R409, R411, R423). -/
def doSynthLoss (i : Nat) (s : State) : State :=
  let x := s.synth i
  if !x.locked || isLane i then s
  else
    ((s.setSynth i { x with locked := false, lost := true,
                            history := s.lockHistory i x }).fire (synthEvent i)).syncClocks

/-- BAND_MISS: a band from the table or a stored result gave no lock within 100 us (R419). -/
def doBandMiss (i : Nat) (s : State) : State :=
  let x := s.synth i
  if x.retuning && !x.searching && (x.bandFrom == .table || x.bandFrom == .stored) then (s.startSearch i).fire (synthEvent i) else s

/-- BAND_SEARCH_DONE: the band is chosen and its record written (R419, R420). -/
def doBandSearch (i band : Nat) (temp : Int) (s : State) : State :=
  let x := s.synth i
  if x.searching then
    (s.setSynth i { x with searching := false, band := band % 64 }).writeSearch (s.searchVictim i) i band temp (s.vco i x) x.retunes
  else s

/-- SYNC_IN_EDGE: every outlet in `SYNCRESET` resets its dividers (R425). -/
def doSyncIn (s : State) : State :=
  State.each (fun i s => if (s.synth i).freq != 0 && (s.synth i).phaseMode == 0 then s.resetDividers i else s) [32, 33, 34, 35] s

/-- FABRIC_SYNTH_LOSS (R406). -/
def doFabricLoss (s : State) : State :=
  ({ s with clocks := { s.clocks with fabricLocked := false } }).enterFailed 8 255 0

/-- LANE_SYNTH_LOSS: outside a retune it is an internal fault (R416). -/
def doLaneLoss (i : Nat) (s : State) : State :=
  if isLane i && (s.synth i).locked then (s.setSynth i { s.synth i with locked := false }).enterFailed 10 i 0 else s

/-! ### Clock record at cold start (R427) -/

/-- Firmware applies the record; a stored policy `STEP` becomes `BUILDOUT` and is counted. -/
def State.applyClockRecord (s : State) : State :=
  let d := s.clockData
  let n (o k : Nat) : Nat := leNat ((d.drop o).take k)
  let s1 := State.each (fun p s =>
    let o := 7 * p
    if n o 1 = 1 then s.setReference { port := p, enable := (n (o + 1) 1).testBit 0, lineSync := (n (o + 1) 1).testBit 1,
                                       fsFall := (n (o + 1) 1).testBit 2, scale := n (o + 2) 1, freqHz := n (o + 3) 4 }
    else s) [0, 1] s
  let s2 := State.each (fun i s =>
    let o := 14 + 23 * synthIndex i
    if n o 1 = 1 then
      let step := n (o + 1) 1 = 2
      let s' := if step then { s with clocks := { s.clocks with stepsReplaced := s.clocks.stepsReplaced + 1 } } else s
      s'.setSynthesizer { synth := i, policy := if step then 0 else n (o + 1) 1, bw := n (o + 2) 2, slew := n (o + 4) 2,
                          lockN := n (o + 6) 2, lossM := n (o + 8) 2, window := n (o + 10) 2, spread := n (o + 12) 1,
                          sscKhz := n (o + 13) 1, phaseMode := n (o + 14) 1, freq := n (o + 15) 8 }
    else s) ([0, 1] ++ (List.range 20).map (16 + ·)) s1
  State.each (fun k s =>
    let o := 520 + 9 * k
    if n o 1 = 1 then s.setClockOut { clkout := k, synth := n (o + 1) 1, enable := n (o + 2) 1 = 1, divider := n (o + 3) 4, delay := n (o + 7) 2 }
    else s) (List.range 16) s2

end Sys2Proof.Machine
end

