-- ==== Sys2Proof/Machine/Millpond.lean ====
section
/-! DEFINITION. The Millpond: formats, buffer objects, slots, the patrol scrub, and the Weir ledger with the commands of Table 13.7
(chapter 7). -/

namespace Sys2Proof.Machine

/-- Bytes of whole granules that a port (Table 19.3) reads (event 0) or writes (event 1) from address `a`: they count on the port
and on each channel (R161, R496). -/
def State.traffic (s : State) (port event a bytes : Nat) : State :=
  let n := ceilDiv bytes 256
  let first := a / 256
  State.each (fun c s => s.count 9 (5888 + c) event (256 * (n / 64 + b2n (decide ((c + 64 - first % 64) % 64 < n % 64)))))
    (List.range 64) (s.count 9 port event (256 * n))

/-- Values of `d` bits placed in order, each least significant bit first. -/
def placeBits (d : Nat) : List Nat → Nat
  | [] => 0
  | v :: r => v % 2 ^ d + 2 ^ d * placeBits d r

/-- The first `n` values of `d` bits in a bit string. -/
def pickBits (d : Nat) : Nat → Nat → List Nat
  | 0, _ => []
  | n + 1, v => v % 2 ^ d :: pickBits d n (v / 2 ^ d)

/-- Native components of pixels from `pixel0` of the line at `a` are stored in format `f` (R169, R170). -/
def State.storePixels (s : State) (a f pixel0 : Nat) (comps : List Nat) : State :=
  let d := memDepth f
  let o := pixel0 * memBits f
  let n := comps.length * d
  let b0 := o / 8
  let bytes := ceilDiv (o % 8 + n) 8
  let old := leNat (s.pondRead (a + b0) bytes)
  let v := placeBits d (comps.map fun x => (toOutput x d false false 0).1)
  let lo := 2 ^ (o % 8)
  let hi := 2 ^ (o % 8 + n)
  s.pondWrite (a + b0) (leBytes bytes (old / hi * hi + v * lo + old % lo))

/-- A line of `w` pixels at `a` is whole: zero from the end of its bit string to the end of the pitch (R169). -/
def State.padLine (s : State) (a w f : Nat) : State :=
  let n := w * memBits f
  let b := n / 8
  let part := if n % 8 = 0 then 0 else leNat (s.pondRead (a + b) 1) % 2 ^ (n % 8)
  s.pondWrite (a + b) (leBytes (pitch w f - b) part)

/-- Native components of `n` pixels from `pixel0` of the line at `a`. -/
def State.loadPixels (s : State) (a f pixel0 n : Nat) : List Nat :=
  let o := pixel0 * memBits f
  let v := leNat (s.pondRead (a + o / 8) (ceilDiv (o % 8 + n * memBits f) 8)) / 2 ^ (o % 8)
  (pickBits (memDepth f) (n * memComponents f) v).map (· * 2 ^ (20 - memDepth f))

/-! ### Sizes (R163, R173 to R177) -/

def roundPond (n : Nat) : Nat := ceilDiv n 16384 * 16384

/-- Bytes of a sparse layer's occupancy map (R176). -/
def tilePositions (w h : Nat) : Nat := ceilDiv w 64 * ceilDiv h 64
def mapBytes (w h : Nat) : Nat := 256 * ceilDiv (tilePositions w h) 2048 + 256 * ceilDiv (4 * tilePositions w h) 256

/-- Header of a line ring with its table. -/
def lineRingHeader (count : Nat) : Nat := 256 + ceilDiv (8 * count) 256 * 256

def bufBytes (b : BufParams) : Nat :=
  match b.typ with
  | 0 => 256 + b.count * slotSize b.width b.height b.format
  | 1 => lineRingHeader b.count + b.count * pitch b.width b.format
  | 2 => 256 + slotSize b.width b.height b.format
  | 3 => 256 + mapBytes b.width b.height + b.count * 40960
  | 4 => 256 + b.size * b.count * 4
  | 5 => b.size
  | _ => 0

/-! ### Objects -/

/-- Extents in use: objects and the rings of reservations, those waiting to apply among them. -/
def State.extents (s : State) : List (Nat × Nat) :=
  (s.pond.bufs.filterMap fun e => e.2.bind fun (b : Buf) => if b.size = 0 then none else some (b.addr, b.size)) ++
  (s.routes.routes.filterMap fun e => e.2.bind fun (r : Route) => r.resv.map fun v => (v.base, v.size)) ++
  (s.routes.waits.filterMap fun (w : RouteWait) => w.resv.map fun v => (v.base, v.size))

def insertExtent (e : Nat × Nat) : List (Nat × Nat) → List (Nat × Nat)
  | [] => [e]
  | x :: r => if e.1 ≤ x.1 then e :: x :: r else x :: insertExtent e r

def sortExtents (l : List (Nat × Nat)) : List (Nat × Nat) := l.foldr insertExtent []

/-- Free extents between extents in rising order, from address `a`. -/
def gaps : Nat → List (Nat × Nat) → List (Nat × Nat)
  | a, [] => if a < pondSize then [(a, pondSize - a)] else []
  | a, (b, n) :: r => if a < b then (a, b - a) :: gaps (b + n) r else gaps (max a (b + n)) r

def State.freeExtents (s : State) (more : List (Nat × Nat)) : List (Nat × Nat) := gaps 0 (sortExtents (s.extents ++ more))

/-- The lowest free extent of `size` bytes (assumption 18), `more` taken beside what is in use. -/
def State.findExtent (s : State) (more : List (Nat × Nat)) (size : Nat) : Option Nat :=
  ((s.freeExtents more).find? fun e => decide (size ≤ e.2)).map (·.1)

/-! ### Weir (R182 to R189) -/

/-- Whole MB/s of a count of bytes times a rate, rounded up once (R183). -/
def mbps (bytes num den : Nat) : Nat := ceilDiv (bytes * num) (den * 1000000)

def rateOf (row : Nat) : Nat × Nat := rateTable.getD row (60, 1)

/-- Capture writer (rows 1 and 2 of Table 7.5). -/
def writerCharge (b : BufParams) : Nat :=
  let (n, d) := rateOf b.rate
  mbps (pitch b.width b.format * b.tlines + (if b.typ = 1 then 256 else 16640)) n d

/-- Playout reader (row 3). -/
def readerCharge (w f : Nat) (r : RasterDesc) : Nat := mbps (pitch w f * r.totalLines + 16640) r.rateNum r.rateDen

/-- Layer reader (row 4), `w` the displayed width after crop. -/
def layerCharge (w f : Nat) (r : RasterDesc) : Nat := mbps (256 * (ceilDiv (w * memBits f) 2048 + 1) * r.totalLines) r.rateNum r.rateDen

/-- Sparse layer reader (row 5). -/
def sparseCharge (tRow w h : Nat) (r : RasterDesc) : Nat := mbps (tRow * 640 * r.totalLines + mapBytes w h) r.rateNum r.rateDen

def isGrant (c : Charge) : Bool := decide (c.kind < 8)

def totalMb (l : List Charge) : Nat := total (fun (c : Charge) => c.mb) l

def State.grantHeld (s : State) : Nat := totalMb (s.pond.charges.filter isGrant)
def State.windowHeld (s : State) : Nat := totalMb (s.pond.charges.filter fun c => !isGrant c)

/-- R184: a shortfall in GB/s, rounded up and saturating, or none. -/
def shortfall (want budget : Nat) : Check :=
  if want ≤ budget then none else some (stLedgerExhausted, min 0xFFFF (ceilDiv (want - budget) 1000))

/-- The admission test of R184: charges released at once and charges added. -/
def State.admission (s : State) (gone : Charge → Bool) (adds : List Charge) : Check :=
  let keep := s.pond.charges.filter fun c => !gone c
  let now := keep ++ adds
  (if adds.any isGrant then shortfall (totalMb (now.filter isGrant)) 3150000 else none)
  <|> (if adds.any fun c => !isGrant c then shortfall (totalMb (now.filter fun c => !isGrant c)) 8000 else none)

/-- Charges released and added; an admission is counted on its budget (Table 19.2). -/
def State.charge (s : State) (gone : Charge → Bool) (adds : List Charge) : State :=
  let s1 := { s with pond := { s.pond with charges := (s.pond.charges.filter fun c => !gone c) ++ adds } }
  match adds with
  | [] => s1
  | c :: _ => s1.count 8 (if isGrant c then 0 else 3) 0

/-- The charge of one user. -/
def ofUser (kind holder : Nat) (c : Charge) : Bool := c.kind == kind && c.holder == holder

/-- One ANC symbol joins a slot's ANC area (R173); false when the area is full. -/
def State.addAnc (s : State) (a v : Nat) : Bool × State :=
  let n := s.pondNat (a + 28) 2
  if 4096 ≤ n then (false, s)
  else (true, (s.pondWrite (a + 256 + 4 * n) (leBytes 4 (v % 2 ^ 20))).pondWrite (a + 28) (leBytes 2 (n + 1)))

/-- Address of active line `k` (from 0) of the frame in a slot. -/
def slotLine (a w f k : Nat) : Nat := a + 16640 + pitch w f * k

/-- The complete slots of an object whose header carries `frame`: those that a pending SEL 1 flip holds (R266). -/
def State.frameSlots (s : State) (handle frame : Nat) : List Nat :=
  match s.bufAt handle with
  | some b => if isRing b then (List.range b.params.count).filter fun k => s.slotState (b.slot k) == 2 && s.slotFrame (b.slot k) == frame else []
  | none => []

/-- The slots that a flip holds before its decision: the one it names, or those of its frame (R174, R266). -/
def State.flipSlots (s : State) (handle : Nat) (p : LayerFlipP) : List Nat :=
  if p.buf != handle then [] else match p.sel with
  | 0 => [p.slot]
  | 1 => s.frameSlots handle p.frame
  | _ => []

/-- The slots that a captured task reads: the units of the output frame in progress (R225). -/
def taskSlots (handle : Nat) (t : Task) : List Nat :=
  if t.present && (blockHandles t.p.block).head? == some handle then (t.lastA.toList ++ t.useB.toList).map (·.slot) else []

/-- The slots of `handle` that the layers of a static run read one by one, or a flatten reads (R174, R277). -/
def runSlots (handle : Nat) (r : StaticRun) : List Nat :=
  (r.indiv ++ (r.flat.map (·.from_)).getD []).filterMap fun a => if a.2.enable && a.2.buf == some handle then some a.2.slot else none

/-- The slots of `handle` that a reader holds (R174): playout readers, engines, the current buffers of enabled layers, those of flips, and
those of static runs. -/
def State.heldSlots (s : State) (handle : Nat) : List Nat :=
  (s.engines.tasks.flatMap fun e => (e.2.map (taskSlots handle)).getD []) ++
  (s.pond.plays.filterMap fun e => e.2.bind fun (b : PlayBind) => if b.p.handle = handle then b.slot else none) ++
  (s.comp.outs.flatMap fun e => e.2.runs.flatMap fun r => (r.map (runSlots handle)).getD []) ++
  s.comp.outs.flatMap fun e => e.2.layers.flatMap fun (l : Layer) =>
    (if l.a.enable && l.a.buf == some handle then [l.a.slot] else []) ++
    (match l.pend with
     | some f => s.flipSlots handle f.p
     | none => []) ++
    (match l.decided with
     | some f => if f.p.buf = handle then [f.chosen] else []
     | none => [])

/-- The first slot after `last` in ring order that is not excluded. -/
def nextSlot (count : Nat) (skip : Nat → Bool) : Nat → Nat → Option Nat
  | 0, _ => none
  | n + 1, k => if skip (k % count) then nextSlot count skip n (k + 1) else some (k % count)

/-- A writer that starts to overwrite slot `k` of `handle` tears a device-to-host transfer from it (R180). -/
def tear (handle lo hi : Nat) (x : Xfer) : Xfer :=
  if x.buf = handle && !x.toDevice && x.p.offset < hi && lo < x.p.offset + x.p.bytes then { x with torn := true } else x

def State.tearXfers (s : State) (handle lo hi : Nat) : State :=
  { s with pond := { s.pond with xfers := s.pond.xfers.map (tear handle lo hi) } }

/-! ### BUF_CREATE, BUF_DESTROY, BUF_QUERY -/

def between (a v b : Nat) : Bool := decide (a ≤ v) && decide (v ≤ b)

/-- Table 7.2: fields in range, fields the type does not use 0. -/
def bufParamsOk (b : BufParams) (s : State) : Bool :=
  b.rsvd == 0 && decide (b.typ < 7) &&
  (if b.typ < 3 then
    decide (b.format < 8) && between 32 b.tlines 8192 && decide (b.rate < 11) && decide (b.scan < 3) && decide (b.height ≤ b.tlines) &&
    (match b.typ with
     | 0 => between 2 b.count 64
     | 1 => between 16 b.count 256
     | _ => b.count == 1)
   else b.tlines == 0 && b.rate == 0 && b.scan == 0 &&
    (match b.typ with
     | 3 => b.format == 6 && between 1 b.count 65535
     | 4 => b.format == 0 && between 1 b.count 32
     | _ => b.format == 0 && b.count == 0)) &&
  (if b.typ < 4 then between 64 b.width 16384 && between 32 b.height 8192 else b.width == 0 && b.height == 0) &&
  (match b.typ with
   | 4 => between 48 b.size 1048576
   | 5 => between 16384 b.size 268435456
   | _ => b.size == 0) &&
  (if b.typ = 6 then between 1 b.hwRate 8000 && decide (b.dir < 2) && (match s.bufAt b.target with
     | some t => t.params.typ != 6
     | none => false)
   else b.target == 0 && b.hwRate == 0 && b.dir == 0)

/-- Indices of the handles that a LEAD has chosen for BUF_CREATE commands still to execute (R387). -/
def State.stampedHandles (s : State) : List Nat :=
  s.jobs.filterMap fun j => if j.kind == .exec then (match j.params with
    | .bufCreate _ => j.aux.head?.map (· % 16384)
    | _ => none) else none

/-- The lowest free object index (assumption 18). -/
def State.freeIndex (s : State) : Option Nat :=
  let used := s.pond.bufs.map (·.1) ++ s.stampedHandles
  if 16384 ≤ used.length then none else (List.range (used.length + 1)).find? fun i => !used.contains i

/-- An object is created: its handle, and the state with every slot header at STATE 0. -/
def State.createBuf (s : State) (b : BufParams) (i a : Nat) : Nat × State :=
  let g := fget 0 s.pond.gens i % 262143 + 1
  let h := g * 16384 + i
  let buf : Buf := { params := b, addr := a, size := roundPond (bufBytes b) }
  let s1 := { s with pond := { s.pond with bufs := fset none s.pond.bufs i (some buf), gens := fset 0 s.pond.gens i g } }
  let n := if b.typ = 0 || b.typ = 2 then b.count else 0
  let s2 := State.each (fun k s => s.pondWrite (slotAddr a (slotSize b.width b.height b.format) k) (leBytes 256 0)) (List.range n) s1
  (h, if b.typ = 6 then s2.charge (fun _ => false) [{ kind := 8, holder := h, sub := b.target, mb := b.hwRate }] else s2)

/-- BUF_CREATE (R163, R171, R179, R186). -/
def startBufCreate (p : BufCreateP) (s : State) : Ans :=
  let b := p.params
  let size := roundPond (bufBytes b)
  orAns (failIf (!bufParamsOk b s) stBadParam)
    (match s.freeIndex, (if size = 0 then some 0 else s.findExtent [] size) with
     | some i, some a =>
       orAns (if b.typ = 6 then s.admission (fun _ => false) [{ kind := 8, holder := 0, mb := b.hwRate }] else none)
         (let (h, s1) := s.createBuf b i a
          .result s1 p.res (leBytes 4 h))
     | _, _ => .fail stNoResource)

/-- BUF_CREATE in a pair, under the handle that the LEAD chose (R387). -/
def startBufCreateAt (h : Nat) (p : BufCreateP) (s : State) : Ans :=
  let b := p.params
  let size := roundPond (bufBytes b)
  let i := h % 16384
  orAns (failIf (!bufParamsOk b s) stBadParam <|> failIf (fget none s.pond.bufs i).isSome stNoResource)
    (match (if size = 0 then some 0 else s.findExtent [] size) with
     | some a =>
       orAns (if b.typ = 6 then s.admission (fun _ => false) [{ kind := 8, holder := 0, mb := b.hwRate }] else none)
         (let s0 := { s with pond := { s.pond with gens := fset 0 s.pond.gens i (h / 16384 - 1) } }
          .result (s0.createBuf b i a).2 p.res (leBytes 4 h))
     | none => .fail stNoResource)

/-- The buffers that a command's parameters name (R172). -/
def namedBufs : Params → List Nat
  | .kernelBind p => blockHandles p.block
  | .kernelUpdate p => blockHandles p.block
  | .layerSet p => (p.entries.filter (·.setBuf)).map (·.buf)
  | .layerFlip p => [p.buf]
  | .staticSet p => [p.bufA, p.bufB]
  | .audioEmbed p => [p.ring]
  | _ => []

/-- A user of R172 names the object; a reader that a waiting command has admitted is one (R184). -/
def State.bufUsed (s : State) (h : Nat) : Bool :=
  (s.pond.caps.any fun e => e.2.any fun (c : CapBind) => c.p.handle == h) ||
  (s.pond.plays.any fun e => e.2.any fun (c : PlayBind) => c.p.handle == h) ||
  (s.pond.bufs.any fun e => e.2.any fun (b : Buf) => b.params.typ == 6 && b.params.target == h) ||
  (s.pond.xfers.any fun x => x.buf == h || x.p.window == h) ||
  (s.comp.outs.any fun e =>
    (e.2.layers.any fun (l : Layer) => l.a.buf == some h || l.pend.any (fun (f : Flip) => f.p.buf == h) ||
      l.decided.any fun (f : Flip) => f.p.buf == h) ||
    e.2.runs.any fun r => r.any fun (x : StaticRun) => x.bufA == h || x.bufB == h || x.shown == some h ||
      x.indiv.any (fun a => a.2.buf == some h) || (x.waiting.any fun w => w.a.buf == some h) ||
      x.flat.any fun (f : Flatten) => f.into == h || f.from_.any fun a => a.2.buf == some h) ||
  (s.engines.tasks.any fun e => e.2.any fun (t : Task) => (blockHandles t.p.block).contains h) ||
  (s.audio.rings.any fun (b : RingBind) => b.p.handle == h) ||
  (s.audio.embeds.any fun e => e.2.p.any fun (p : AudioEmbedP) => p.ring == h) ||
  (s.jobs.any fun j => (j.sched || j.kind == .apply) && (namedBufs j.params).contains h)

/-- BUF_DESTROY (R172). -/
def startBufDestroy (p : BufDestroyP) (s : State) : Ans :=
  orAns (failIf (s.bufAt p.handle).isNone stBadParam <|> failIf (s.bufUsed p.handle) stBusy)
    (.done ({ s with pond := { s.pond with bufs := fset none s.pond.bufs (p.handle % 16384) none } }.charge (ofUser 8 p.handle) []))

def bufParamBytes (b : BufParams) : List Byte :=
  leBytes 1 b.typ ++ leBytes 1 b.format ++ leBytes 2 b.count ++ leBytes 2 b.width ++ leBytes 2 b.height ++ leBytes 2 b.tlines ++
  leBytes 1 b.rate ++ leBytes 1 b.scan ++ leBytes 4 b.size ++ leBytes 4 b.target ++ leBytes 2 b.hwRate ++ leBytes 1 b.dir ++ leBytes 1 0

/-- BUF_QUERY (Table 13.7). -/
def startBufQuery (p : BufQueryP) (s : State) : Ans :=
  match s.bufAt p.handle with
  | none => .fail stBadParam
  | some b =>
    let cs := s.pond.charges.filter fun c => c.sub == p.handle && c.kind != 7
    orAns (failIf (p.rsvd != 0) stBadParam)
      (.result s p.res (bufParamBytes b.params ++ leBytes 8 b.addr ++ leBytes 8 b.size ++ leBytes 4 (totalMb cs) ++
        leBytes 2 cs.length ++ leBytes 18 0))

/-! ### BUF_XFER -/

/-- The slots of a ring that `[lo, hi)` of its bytes touches. -/
def slotsIn (b : Buf) (lo hi : Nat) : List Nat :=
  let n := slotSize b.params.width b.params.height b.params.format
  (List.range b.params.count).filter fun k => decide (lo < 256 + (k + 1) * n) && decide (256 + k * n < hi)

/-- BUF_XFER (R179, R180, R316): the window's target is checked now, and the data moves by the end. -/
def startBufXfer (p : BufXferP) (s : State) : Ans :=
  match s.bufAt p.window with
  | none => .fail stBadParam
  | some w =>
    match (if w.params.typ = 6 then s.bufAt w.params.target else none) with
    | none => .fail stBadParam
    | some t =>
      let h := w.params.target
      let into := w.params.dir == 1
      let touched := slotsIn t p.offset (p.offset + p.bytes) ++ (if p.markComplete then [p.slot] else [])
      orAns (failIf (p.rsvd != 0 || p.offset % 256 != 0 || p.hostAddr % 256 != 0 || p.bytes % 256 != 0 || p.bytes == 0 ||
            decide (t.size < p.offset + p.bytes) || (p.markComplete && !(into && isRing t && decide (p.slot < t.params.count))) ||
            (p.p3 && t.params.typ != 4)) stBadParam
        <|> failIf (into && isRing t && touched.any fun k => (s.heldSlots h).contains k) stBusy
        <|> failIf (into && t.params.typ == 3 && (s.comp.outs.any fun e => e.2.runs.any fun r => r.any fun (x : StaticRun) =>
              x.bufA == h || x.bufB == h)) stBusy
        <|> failIf (into && t.params.typ == 5 && (s.engines.tasks.any fun e => e.2.any fun (k : Task) =>
              (blockHandles k.p.block).contains h)) stBusy)
        (.later { s with pond := { s.pond with xfers := s.pond.xfers ++ [{ job := s.nextJob, p := p, buf := h, toDevice := into }] } } .event)

/-- P3 to P4: each three bytes become a word with [7:0] zero (R316). -/
def toP4 : Nat → List Byte → List Byte
  | 0, _ => []
  | n + 1, l => 0 :: (l.take 3 ++ List.replicate (3 - (l.take 3).length) 0) ++ toP4 n (l.drop 3)

def toP3 : Nat → List Byte → List Byte
  | 0, _ => []
  | n + 1, l => (l.take 4).drop 1 ++ toP3 n (l.drop 4)

/-- XFER_COMPLETE: the last granule of the transfer of job `id` has moved (R179, R180). -/
def doXferComplete (id : Nat) (s : State) : State :=
  match s.pond.xfers.find? fun x => x.job == id with
  | none => s
  | some x =>
    let s1 := { s with pond := { s.pond with xfers := s.pond.xfers.filter fun y => y.job != id } }
    match s.bufAt x.buf with
    | none => s1.completeId id stOk 0 none
    | some t =>
      let a := t.addr + x.p.offset
      if x.toDevice then
        let bytes := x.p.bytes
        let host := x.p.data ++ List.replicate (bytes - x.p.data.length) 0
        let s2 := s1.pondWrite a (if x.p.p3 then toP4 (bytes / 4) host else host.take bytes)
        let h := slotAddr t.addr (slotSize t.params.width t.params.height t.params.format) x.p.slot
        let s3 := if x.p.markComplete then
            ((s2.pondWrite h (leBytes 8 (x.p.frame % 2 ^ 48))).pondWrite (h + 16) (leBytes 8 x.p.doneStc)).setSlotState h 2
          else s2
        (s3.traffic 5840 1 a bytes).completeId id stOk 0 none
      else
        let d := s1.pondRead a x.p.bytes
        ((s1.traffic 5840 0 a x.p.bytes).emit (.dma 0 x.p.hostAddr (if x.p.p3 then toP3 (x.p.bytes / 4) d else d))).completeId id stOk (b2n x.torn) none

/-! ### CAPTURE_BIND and PLAYOUT_BIND (R181) -/

def groupSizeOk (g : Nat) : Bool := g == 1 || g == 2 || g == 4 || g == 8

/-- Groups of points overlap. -/
def overlap (a n b m : Nat) : Bool := decide (a < b + m) && decide (b < a + n)

/-- A capture writer or playout reader group of row three: in range and aligned (R132). -/
def bindPointOk (point g : Nat) : Bool := groupSizeOk g && between 896 point 1407 && (point - 896) % g == 0

/-- A reservation holds a point of the group: its CW or PB group, from index `m`. -/
def State.resvHolds (s : State) (m g : Nat) : Bool :=
  (s.routes.routes.any fun e => e.2.any fun (r : Route) => r.resv.any fun v => overlap v.cw v.g m g) ||
  s.routes.waits.any fun (w : RouteWait) => w.resv.any fun v => overlap v.cw v.g m g

def State.resvHoldsPb (s : State) (m g : Nat) : Bool :=
  (s.routes.routes.any fun e => e.2.any fun (r : Route) => r.resv.any fun v => overlap v.pb v.g m g) ||
  s.routes.waits.any fun (w : RouteWait) => w.resv.any fun v => overlap v.pb v.g m g

/-- A route, in place or waiting, ends at the destination group. -/
def State.destRouted (s : State) (dest g : Nat) : Bool :=
  (s.routes.routes.any fun e => e.2.any fun (r : Route) => overlap e.1 r.g dest g) ||
  s.routes.waits.any fun (w : RouteWait) => w.entry.src != 0xFFFF && overlap w.entry.dest w.entry.g dest g

/-- A route, in place or waiting, starts at the source group. -/
def State.srcRouted (s : State) (src g : Nat) : Bool :=
  (s.routes.routes.any fun e => e.2.any fun (r : Route) => overlap r.src r.g src g) ||
  s.routes.waits.any fun (w : RouteWait) => w.entry.src != 0xFFFF && overlap w.entry.src w.entry.g src g

/-- The one-shot bind of a writer completes (R181). -/
def State.endOneShot (s : State) (c : CapBind) (status : Nat) : State :=
  match c.job with
  | some id => s.completeId id status 0 none
  | none => s

/-- The binding that a new command at its point replaces ends (R181). -/
def endBind (c : Option CapBind) (s : State) : State := match c with
  | some c => s.endOneShot c stCancelled
  | none => s

def State.setCap (s : State) (m : Nat) (c : Option CapBind) : State := { s with pond := { s.pond with caps := fset none s.pond.caps m c } }
def State.setPlay (s : State) (m : Nat) (c : Option PlayBind) : State := { s with pond := { s.pond with plays := fset none s.pond.plays m c } }

/-- CAPTURE_BIND (R181). -/
def startCaptureBind (p : CaptureBindP) (s : State) : Ans :=
  let m := p.cw - 896
  let old := fget none s.pond.caps m
  let buf := s.bufAt p.handle
  let add : List Charge := if p.handle = 0 then [] else match buf with
    | some b => [{ kind := if b.params.typ = 1 then 1 else 0, holder := p.cw, sub := p.handle, mb := writerCharge b.params }]
    | none => []
  let mine (c : Charge) : Bool := decide (c.kind < 2) && c.holder == p.cw
  orAns (failIf (!bindPointOk p.cw p.g || p.rsvd != 0 || (p.handle == 0 && p.oneShot)) stBadParam
    <|> failIf (p.handle != 0 && !(buf.any fun b => decide (b.params.typ < 3) && (!p.oneShot || b.params.typ == 2))) stBadParam
    <|> failIf (s.destRouted p.cw p.g || s.resvHolds m p.g ||
          (s.pond.caps.any fun e => e.2.any fun (c : CapBind) => overlap e.1 c.p.g m p.g && (e.1 != m || c.p.g != p.g))) stBusy
    <|> s.admission mine add)
    (if p.handle = 0 then
       .done (endBind old ((s.setCap m none).charge mine []))
     else
       let bind : CapBind := { p := p, job := if p.oneShot then some s.nextJob else none }
       let s2 := ((endBind old s).setCap m (some bind)).charge mine add
       if p.oneShot then .later s2 .event else .done s2)

/-- PLAYOUT_BIND (R181). -/
def startPlayoutBind (p : PlayoutBindP) (s : State) : Ans :=
  let m := p.pb - 896
  let buf := s.bufAt p.handle
  let add : List Charge := match buf, s.raster? p.raster with
    | some b, some r => [{ kind := 2, holder := p.pb, sub := p.handle, mb := readerCharge b.params.width b.params.format r.desc }]
    | _, _ => []
  orAns (failIf (!bindPointOk p.pb p.g || p.rsvd != 0) stBadParam
    <|> failIf (p.handle != 0 && !(decide (p.mode < 3) && (p.mode != 0 || decide (p.extra ≤ 5)) && (s.raster? p.raster).isSome &&
          buf.any fun b => isRing b && (p.mode != 2 || decide (p.slot < b.params.count)))) stBadParam
    <|> failIf (s.srcRouted p.pb p.g || s.resvHoldsPb m p.g ||
          (s.pond.plays.any fun e => e.2.any fun (c : PlayBind) => overlap e.1 c.p.g m p.g && (e.1 != m || c.p.g != p.g))) stBusy
    <|> s.admission (ofUser 2 p.pb) add)
    (.done ((s.setPlay m (if p.handle = 0 then none else some { p := p })).charge
      (ofUser 2 p.pb) add))

/-- The cutoff of a LIVE reader at a frame start of its raster, as an STC (R181): that frame start, in a pair the arming point of R142. -/
def State.liveCutoff (s : State) (r : Nat) : Nat :=
  match (if s.pair.role = .solo || s.pair.sync = .apart then none else s.raster? r) with
  | some p => s.stcOf (p.lineT' (p.frame - 1) (p.desc.totalLines - 3))
  | none => s.stc

/-- The playout reader's choice at a frame start of its raster (R146, R181): none plays a slot that is not complete (R174). -/
def State.playPick (s : State) (b : PlayBind) : Option Nat × Option Nat :=
  match s.bufAt b.p.handle with
  | none => (none, b.last)
  | some t =>
    let n := slotSize t.params.width t.params.height t.params.format
    let at_ (k : Nat) : Nat := slotAddr t.addr n k
    let full := (List.range t.params.count).filter fun k => s.slotState (at_ k) == 2
    let frame (k : Nat) : Nat := s.slotFrame (at_ k)
    match b.p.mode with
    | 2 => (if full.contains b.p.slot then some b.p.slot else none, b.last)
    | 1 =>
      let above := full.filter fun k => b.last.all fun l => decide (l < frame k)
      match above with
      | [] => (b.slot, b.last)
      | k :: r => let m := r.foldl (fun a x => if frame x < frame a then x else a) k
        (some m, some (frame m))
    | _ =>
      let cands := full.filter fun k => decide (s.slotDone (at_ k) < s.liveCutoff b.p.raster)
      let older (k : Nat) : Nat := (cands.filter fun x => decide (frame k < frame x)).length
      match cands.find? fun k => older k == min b.p.extra (cands.length - 1) with
      | none => (none, b.last)
      | some k => if b.last.any fun l => decide (frame k ≤ l) then (b.slot, b.last) else (some k, some (frame k))

/-- A frame start of raster `r`: every playout reader timed by it chooses its frame. -/
def State.playoutFrame (s : State) (r : Nat) : State :=
  State.each (fun m s => match fget none s.pond.plays m with
    | some b =>
      if b.p.raster = r then
        let (k, l) := s.playPick b
        let shown := (k.map fun i => (l.getD (((s.raster? r).map (·.frame)).getD 0), i)).toList
        let s0 := s.setPlay m (some { b with slot := k, last := l, past := noteChange s.now b.slot.isSome k.isSome b.past,
                                             shows := shown ++ b.shows.take 2, sent := 0 })
        let s1 := if b.slot.isSome && k.isNone then s0.stopWriters (896 + m) else s0
        match k, s.bufAt b.p.handle with
        | some k, some t =>
          let n := slotSize t.params.width t.params.height t.params.format
          s1.traffic (512 + m) 0 (slotAddr t.addr n k) n
        | _, _ => s1
      else s
    | none => s) (s.pond.plays.map (·.1)) s

/-! ### WEIR_QUERY (R189) -/

def startWeirQuery (p : ResP) (s : State) : Ans :=
  let rec_ (size held : Nat) : List Byte := leBytes 4 size ++ leBytes 4 held ++ leBytes 4 (size - held)
  let free := s.freeExtents []
  .result s p.res (rec_ 3150000 s.grantHeld ++ rec_ 4000 4000 ++ rec_ 32000 32000 ++ rec_ 8000 s.windowHeld ++ rec_ 6000 0 ++
    ((List.range 8).flatMap fun k => leBytes 4 (totalMb (s.pond.charges.filter fun c => c.kind == k))) ++ leBytes 4 0 ++
    leBytes 8 (total (·.2) free) ++ leBytes 8 ((free.map (·.2)).foldl max 0))

/-! ### Patrol scrub (R164 to R167) -/

/-- The port of the patrol scrub (Table 19.3). -/
def scrubPort : Nat := 5841

/-- SCRUB_GRANULE: the scrub reads `granule`; result 0 clean, 1 corrected, 2 uncorrectable. A pass runs in ascending order, so
an index at or below the last read begins the next pass. A repeat correction is raised with the granule's address (R166); Table 18.2 gives
it no interrupt source. -/
def doScrub (granule result : Nat) (s : State) : State :=
  if s.sys.quiet != .awake then s
  else
    let p := s.pond
    let p1 := if granule < p.scrubAt then { p with scrubLast := p.scrubNow, scrubNow := [] } else p
    let ch := granule % 64
    let s1 := ({ s with pond := { p1 with scrubAt := granule + 1 } }.count 7 ch 2).traffic scrubPort 0 (256 * granule) 256
    if result = 1 then
      let s2 := ({ s1 with pond := { s1.pond with scrubNow := granule :: s1.pond.scrubNow } }.count 7 ch 0).traffic 5843 1 (256 * granule) 256
      if s1.pond.scrubLast.contains granule then
        ({ s2 with pond := { s2.pond with repeatAt := some (256 * granule) } }.count 7 ch 1).emit (.repeatCorrection (256 * granule))
      else s2
    else if result = 2 then s1.memoryFault 1 ch (256 * granule) scrubPort
    else s1

end Sys2Proof.Machine
end

