-- ==== Sys2Proof/Machine/Routes.lean ====
section
/-! DEFINITION. Millrace routes: points and formats, ROUTE_TAKE with its checks, reservations and application, route class, the
frame synchroniser, loss behaviour, and ROUTE_QUERY and LOSS_SET (chapter 6). -/

namespace Sys2Proof.Machine

/-! ### Formats (Tables 6.5 and 8.3) -/

/-- Row of Table 2.2. -/
def rateRow (num den : Nat) : Nat := rateTable.idxOf (num, den)

def streamFmt (c : StreamSetP) : Fmt := ⟨c.activeSamples, c.activeLines, c.totalLines, c.rate, c.scan, c.mode⟩
def rasterFmt (d : RasterDesc) (mode : Nat) : Fmt :=
  ⟨d.activeSamples, d.activeLines, d.totalLines, rateRow d.rateNum d.rateDen, d.scan, mode⟩
def portFmt (p : PortFmt) (tl : Nat) : Fmt := ⟨p.width, p.height, tl, p.rate, p.scan, p.format⟩
def bufFmt (b : BufParams) : Fmt := ⟨b.width, b.height, b.tlines, b.rate, b.scan, b.format⟩

/-- R196: index within its row of the IN1 or OUT1 group of a task. -/
def secondPort (first g0 g1 : Nat) : Nat := ceilDiv (2 * first + g0) g1 * g1

def State.task (s : State) (e : Nat) : Option Task := fget none s.engines.tasks e

/-- The task whose input group of `g` points begins at EI point `dest`, and its port. -/
def State.eiPort (s : State) (dest g : Nat) : Option (Nat × PortFmt) :=
  s.engines.tasks.findSome? fun e => e.2.bind fun (t : Task) =>
    if dest = 512 + 2 * e.1 && g = t.p.in0.g && g != 0 then some (e.1, t.p.in0)
    else if t.p.in1.g != 0 && g = t.p.in1.g && dest = 512 + secondPort e.1 t.p.in0.g t.p.in1.g then some (e.1, t.p.in1)
    else none

/-- The task whose output group of `g` points begins at EO point `src`. -/
def State.eoTask (s : State) (src g : Nat) : Option (Nat × Task) :=
  s.engines.tasks.findSome? fun e => e.2.bind fun (t : Task) =>
    if src = 512 + 2 * e.1 && g = t.p.out0.g then some (e.1, t) else none

/-- The task whose output group begins at EO point `src`, whatever its size. -/
def State.eoAt (s : State) (src : Nat) : Option (Nat × Task) :=
  if 512 ≤ src && src < 896 && src % 2 = 0 then (s.task ((src - 512) / 2)).map fun t => ((src - 512) / 2, t) else none

/-- The engine task that an EI point belongs to. -/
def State.taskAtEi (s : State) (dest : Nat) : Option Nat :=
  (s.engines.tasks.find? fun e => e.2.any fun (t : Task) => decide (512 + 2 * e.1 ≤ dest) && decide (dest < 512 + 2 * e.1 + 2 * t.p.gang)).map (·.1)

/-- FRC and DEINT kernels take captured inputs (R202). -/
def capturedKernel (k : KBlock) : Bool := match k with
  | .deint _ | .frcMc _ | .frcBlend _ => true
  | _ => false

def State.rasterLines (s : State) (r : Nat) : Nat := ((s.raster? r).map fun p => p.desc.totalLines).getD 0

/-- Format of the configured source group of `g` points at `src` (Table 6.5). -/
def State.srcFmt (s : State) (src g : Nat) : Option Fmt :=
  if src < 512 then (s.rxStream src).bind fun x => if x.cfg.g = g then some (streamFmt x.cfg) else none
  else if src < 896 then (s.eoTask src g).map fun e => portFmt e.2.p.out0 (s.rasterLines e.2.p.raster)
  else (fget none s.pond.plays (src - 896)).bind fun (b : PlayBind) =>
    if b.p.g = g then (s.bufAt b.p.handle).map fun t => bufFmt t.params else none

/-- The reservation of a route in place or waiting whose writer group of `g` points begins at `cw`. -/
def State.cwReserved (s : State) (cw g : Nat) : Bool :=
  (s.routes.routes.any fun e => e.2.any fun (r : Route) => r.resv.any fun v => 896 + v.cw == cw && v.g == g) ||
  s.routes.waits.any fun (w : RouteWait) => w.resv.any fun v => 896 + v.cw == cw && v.g == g

/-- Format of the configured destination group of `g` points at `dest`. A writer held by a reservation is configured too and
has no format of its own here. -/
def State.dstFmt (s : State) (dest g : Nat) : Option Fmt :=
  if dest < 512 then
    match s.txStream dest, s.outRaster dest with
    | some x, some o => if x.cfg.g = g then some (rasterFmt o.desc x.cfg.mode) else none
    | _, _ => none
  else if dest < 896 then (s.eiPort dest g).map fun e => portFmt e.2 0
  else (fget none s.pond.caps (dest - 896)).bind fun (c : CapBind) =>
    if c.p.g = g then (s.bufAt c.p.handle).map fun t => bufFmt t.params else none

/-- The format check of Table 6.5, with R69 for OUT, R181 for CW and PB, and R196 for EI. -/
def fmtFits (src dest : Nat) (a b : Fmt) : Bool :=
  a.w == b.w && a.h == b.h && a.scan == b.scan && a.rate == b.rate &&
  (if 512 ≤ dest && dest < 896 then true
   else memStructure a.fmt == memStructure b.fmt && ((decide (dest < 512) && decide (src < 896)) || a.tl == b.tl))

/-! ### Source state (R140, R72) -/

def State.srcPresent (s : State) (src : Nat) : Bool :=
  if src < 512 then s.present src
  else if src < 896 then match s.eoAt src with
    | some (_, t) => t.present
    | none => false
  else match fget none s.pond.plays (src - 896) with
    | some b => b.slot.isSome
    | none => false

def State.srcStale (s : State) (src : Nat) : Bool :=
  if src < 512 then ((s.rxStream src).map (·.stale)).getD false else false

/-- R72: the source's markers have declared another format. -/
def State.srcFormatOk (s : State) (src : Nat) : Bool :=
  if src < 512 then ((s.rxStream src).map (·.formatOk)).getD true else true

def RxStream.asOf (t : Int) (x : RxStream) : RxStream := x.withView (valueBefore t x.view x.views)
def PlayBind.asOf (t : Int) (b : PlayBind) : PlayBind :=
  { b with slot := if valueBefore t b.slot.isSome b.past then some (b.slot.getD 0) else none }
def Task.asOf (t : Int) (k : Task) : Task := { k with present := valueBefore t k.present k.past }

/-- The routes of engine inputs as they stood before `t`. -/
def routesBefore (t : Int) (m : Routes) : Tbl (Option Route) :=
  (m.past.filter fun e => decide (t ≤ (e.1 : Int))).foldl (fun r e => fset none r e.2.1 e.2.2) m.routes

/-- The state as a decision of time `t` sees its sources and the routes of engine inputs: what events strictly before `t` have
established (R21). -/
def State.asOf (s : State) (t : Int) : State :=
  { s with rxStreams := tmap none (fun _ (e : Option RxStream) => e.map (RxStream.asOf t)) s.rxStreams,
           engines := { s.engines with tasks := tmap none (fun _ (e : Option Task) => e.map (Task.asOf t)) s.engines.tasks },
           pond := { s.pond with plays := tmap none (fun _ (e : Option PlayBind) => e.map (PlayBind.asOf t)) s.pond.plays },
           routes := { s.routes with routes := routesBefore t s.routes } }

/-- What a decision taken now sees. -/
def State.seen (s : State) : State := s.asOf s.now

/-- The last known frame start of a source: line 1 on the monotonic count, frame count, frame period (0 unknown). -/
def State.srcMark (s : State) (src : Nat) : Option (Int × Nat × Nat) :=
  if src < 512 then (s.rxStream src).bind fun x => if x.marked then some (x.markT, x.frame, x.period) else none
  else if src < 896 then (s.eoAt src).bind fun (_, t) =>
    if t.started then some (t.eoT, t.frame, ((s.raster? t.p.raster).map fun r => descPeriod r.desc).getD 0) else none
  else (fget none s.pond.plays (src - 896)).bind fun (b : PlayBind) =>
    (s.raster? b.p.raster).map fun r => ((r.frameT : Int), b.last.getD r.frame, descPeriod r.desc)

/-- R140: the latest line-1 start of the source at or before `x`, with its frame count. -/
def State.srcLine1 (s : State) (src : Nat) (x : Int) : Option (Int × Nat) :=
  (s.srcMark src).bind fun (t, f, p) =>
    if p = 0 then (if t ≤ x then some (t, f) else none)
    else
      let k := (x - t) / (p : Int)
      some (t + k * p, ((f : Int) + k).toNat)

/-- Phase lead λ of R140 at `tOut` with D ticks. -/
def State.phaseLead (s : State) (src : Nat) (tOut : Int) (d : Nat) : Option (Nat × Nat) :=
  (s.srcLine1 src (tOut - d)).map fun (t, f) => ((tOut - d - t).toNat, f)

/-! ### Class (R141) -/

/-- The window test of R140 and R141. -/
def State.cutOk (s : State) (src : Nat) (tOut : Int) (d : Nat) : Bool :=
  !s.srcStale src && (match s.phaseLead src tOut d with
    | some (l, _) => decide (l < 1080)
    | none => false)

/-- The procedure of R141: class, and run. -/
def State.judge (s : State) (r : Route) (tOut : Int) (d : Nat) : Cls × Nat :=
  if !s.srcPresent r.src || !r.formatOk then (.none, 0)
  else
    let ok := s.cutOk r.src tOut d
    let run := if ok then r.run + 1 else 0
    (if r.forceSync then .sync
     else if r.cls = .sync && !(r.autoCut && decide (16 ≤ run)) then .sync
     else if ok then .cut
     else if r.syncRes then .sync
     else .none, run)

def State.route (s : State) (dest : Nat) : Option Route := fget none s.routes.routes dest
def State.setRoute (s : State) (dest : Nat) (r : Option Route) : State :=
  { s with routes := { s.routes with routes := fset none s.routes.routes dest r } }

/-- What a LEAD decided for a route (R142, R147): the class, the frame it picked, and on the LEAD itself the run of R141. -/
structure Given where
  cls : Cls
  pick : Option Nat := none
  run : Option Nat := none
  deriving DecidableEq, Repr

/-- The destination is the input of a captured task (R202). -/
def State.capturedAt (s : State) (dest : Nat) : Option Nat :=
  if 512 ≤ dest && dest < 896 then (s.taskAtEi dest).bind fun e =>
    (s.task e).bind fun t => if capturedKernel t.p.block && dest = 512 + 2 * e then some e else none
  else none

/-- A route judged at a frame start of its destination, `given` the class by a LEAD (R142). The format check of each frame
clears `format_ok`, and so does a marker of another format since (R141). -/
def State.judgeAt (s : State) (dest : Nat) (r : Route) (tOut : Int) (d : Nat) (given : Option Given) : Route :=
  let ok := r.formatOk && !(r.badT.any fun b => decide ((b : Int) < min tOut s.now)) && s.srcFormatOk r.src && (match s.srcFmt r.src r.g, s.dstFmt dest r.g with
    | some a, some b => fmtFits r.src dest a b
    | _, _ => false)
  let r1 := { r with formatOk := ok, lead := ((s.phaseLead r.src tOut d).map (·.1)).getD r.lead }
  let (c, run) := s.judge r1 tOut d
  { r1 with cls := (given.map Given.cls).getD c, run := (given.bind Given.run).getD run }

/-! ### Frame synchroniser (R145, R146) -/

/-- Insertion by falling frame count. -/
def insertFrame (x : RingFrame) : List RingFrame → List RingFrame
  | [] => [x]
  | y :: r => if y.frame ≤ x.frame then x :: y :: r else y :: insertFrame x r

def sortFrames (l : List RingFrame) : List RingFrame := l.foldr insertFrame []

/-- The frame that the procedure of R146 picks: the `extra`-th below the newest, never behind the frame last shown. A frame that was
complete when the source last became absent is no candidate (R148). -/
def pickFrame (done : List RingFrame) (stopT : Option Tick) (extra : Nat) (last : Option Nat) (cutoff : Int) : Option Nat :=
  let cands := sortFrames (done.filter fun f => decide ((f.doneT : Int) < cutoff) && stopT.all fun t => decide (t < f.doneT))
  match cands[min extra (cands.length - 1)]? with
  | none => none
  | some f => match last with
    | some l => if f.frame ≤ l then some l else some f.frame
    | none => some f.frame

/-- Repeats and drops that playing `pick` after `last` counts (R146). -/
def repeatsDrops (last : Option Nat) (pick : Nat) : Nat × Nat :=
  match last with
  | some l => if pick = l then (1, 0) else (0, pick - l - 1)
  | none => (0, 0)

/-- The complete frame of a count in a ring. -/
def ringFrame (done : List RingFrame) (f : Nat) : Option RingFrame := done.find? fun x => x.frame == f

/-- The frame that HOLD shows (Table 6.6): the frame last shown, or the newest complete one. -/
def heldFrame (v : Resv) (last : Option Nat) : Option RingFrame :=
  match last.bind (ringFrame v.done) with
  | some f => some f
  | none => (sortFrames v.done).head?

/-- The slot for a reservation's next frame (R145): after the last written, not the slot played, not the slots of the newest
`keep` complete frames. -/
def resvSlot (v : Resv) (played : Option Nat) (keep : Nat) : Nat :=
  let newest := ((sortFrames v.done).take keep).map (·.slot)
  let inPlay := (played.bind (ringFrame v.done)).map (·.slot)
  let skip (k : Nat) : Bool := newest.contains k || inPlay == some k
  let from_ := match v.writing, v.done with
    | some w, _ => w.slot + 1
    | none, f :: _ => f.slot + 1
    | none, [] => 0
  (nextSlot v.slots skip v.slots from_).getD 0

/-- The source has the width, height, structure and depth that the ring was made for. -/
def Resv.holds (v : Resv) (a : Fmt) : Bool := v.fmt.w == a.w && v.fmt.h == a.h && v.fmt.fmt == a.fmt

/-- A reservation's writer starts a source frame, where its format fits the ring. -/
def resvStart (v : Resv) (a : Option Fmt) (played : Option Nat) (keep frame : Nat) : Resv :=
  let k := resvSlot v played keep
  if !(a.any v.holds) then { v with writing := none }
  else { v with writing := some { slot := k, frame := frame }, done := v.done.filter fun f => f.slot != k }

/-- A reservation's frame in progress ends: complete when every segment arrived and no spoiling happened. -/
def resvEnd (v : Resv) (frame : Nat) (good : Bool) (doneT line1T : Tick) : Resv :=
  match v.writing with
  | some w =>
    if w.frame = frame then
      if w.good && good then { v with done := ⟨w.slot, frame, doneT, line1T⟩ :: v.done, writing := none }
      else { v with writing := some { w with good := false } }
    else v
  | none => v

/-- Every reservation fed from `src`, of routes in place and of takes that wait, changed by `f`, which is told the frame its
route plays and its EXTRA. -/
def State.eachResv (s : State) (src : Nat) (f : Option Nat → Nat → Resv → Resv) : State :=
  { s with routes := { s.routes with
      routes := tmap none (fun _ (e : Option Route) => e.map fun r =>
        if r.src = src then { r with resv := r.resv.map (f r.played r.extra) } else r) s.routes.routes,
      waits := s.routes.waits.map fun w =>
        if w.entry.src = src then { w with resv := w.resv.map (f none w.entry.extra) } else w } }

/-! ### ROUTE_TAKE checks (Table 6.5) -/

def pointRow (p : Nat) : Nat × Nat := if p < 512 then (0, 512) else if p < 896 then (512, 384) else (896, 512)

/-- R132: a group is aligned within its row and lies wholly in it. -/
def groupAt (p g : Nat) : Bool :=
  let (b, n) := pointRow p
  decide (p < 1408) && groupSizeOk g && (p - b) % g == 0 && decide (p - b + g ≤ n)

def isClear (e : RouteEntry) : Bool := e.src == 0xFFFF

/-- Edges between tasks that routes make, `es` over the routes in place. -/
def State.taskEdges (s : State) (es : List RouteEntry) : List (Nat × Nat) :=
  let kept := s.routes.routes.filterMap fun e => e.2.bind fun (r : Route) =>
    if es.any fun x => x.dest == e.1 then none else some (r.src, e.1)
  let added := (es.filter fun e => !isClear e).map fun e => (e.src, e.dest)
  (kept ++ added).filterMap fun (a, b) =>
    if 512 ≤ a && a < 896 && 512 ≤ b && b < 896 then
      match s.eoAt a, s.taskAtEi b with
      | some (x, _), some y => some (x, y)
      | _, _ => none
    else none

/-- Nodes reached from `l` by at most `n` edges. -/
def reachFrom (es : List (Nat × Nat)) : Nat → List Nat → List Nat
  | 0, l => l
  | n + 1, l =>
    let new := (es.filter fun e => l.contains e.1 && !l.contains e.2).map (·.2)
    if new.isEmpty then l else reachFrom es n (l ++ new.eraseDups)

def hasCycle (es : List (Nat × Nat)) : Bool := es.any fun e => (reachFrom es es.length [e.2]).contains e.1

/-- The rows of Table 6.5 before the resources. -/
def State.chkEntries (s : State) (es : List RouteEntry) : Check :=
  let bad (f : RouteEntry → Bool) : Check := failIf (es.any f) stBadParam
  let live (e : RouteEntry) : Bool := !isClear e
  bad (fun e => !groupAt e.dest e.g || (live e && !groupAt e.src e.g))
  <|> bad (fun e => (s.dstFmt e.dest e.g).isNone && !(decide (896 ≤ e.dest) && s.cwReserved e.dest e.g))
  <|> bad (fun e => live e && ((s.srcFmt e.src e.g).isNone || (decide (896 ≤ e.src) && s.resvHoldsPb (e.src - 896) e.g)))
  <|> failIf (!distinct (es.map (·.dest))) stBadParam
  <|> bad (fun e => live e && (match s.srcFmt e.src e.g, s.dstFmt e.dest e.g with
        | some a, some b => !fmtFits e.src e.dest a b
        | _, _ => !s.cwReserved e.dest e.g))
  <|> failIf (hasCycle (s.taskEdges es)) stBadParam
  <|> bad (fun e => ((e.forceSync || e.extra != 0) && !e.syncRes) || decide (5 < e.extra) || (e.autoCut && e.forceSync) ||
        (e.syncRes && (decide (896 ≤ e.dest) || (decide (512 ≤ e.dest) && ((s.taskAtEi e.dest).bind s.task).any
          fun t => capturedKernel t.p.block))) ||
        (isClear e && (e.syncRes || e.forceSync || e.autoCut || e.extra != 0)) || e.rsvd != 0)
  <|> failIf (es.any fun e => decide (896 ≤ e.dest) && s.resvHolds (e.dest - 896) e.g) stBusy

/-! ### Reservations and admission (R138, R144) -/

/-- R138: the entry keeps the reservation of the route in place. -/
def State.keepsResv (s : State) (e : RouteEntry) : Bool :=
  e.syncRes && (match s.route e.dest with
    | some r => r.resv.isSome && r.syncRes && r.src == e.src && r.g == e.g
    | none => false)

/-- A free aligned writer and reader group of size `g`, the lowest (assumption 18); `taken` by entries before. -/
def State.freeGroup (s : State) (g : Nat) (taken : List (Nat × Nat)) : Option Nat :=
  ((List.range 512).filter fun m => m % g == 0).find? fun m =>
    !(taken.any fun x => overlap x.1 x.2 m g) && !s.resvHolds m g && !s.resvHoldsPb m g &&
    !(s.pond.caps.any fun e => e.2.any fun (c : CapBind) => overlap e.1 c.p.g m g) &&
    !(s.pond.plays.any fun e => e.2.any fun (c : PlayBind) => overlap e.1 c.p.g m g)

/-- Raster of a destination's reader charge. -/
def State.dstRate (s : State) (dest g : Nat) : Nat × Nat × Nat :=
  match s.dstFmt dest g with
  | some b => if dest < 512 then (b.tl, rateOf b.rate)
      else match (s.taskAtEi dest).bind s.task with
        | some t => (s.rasterLines t.p.raster, rateOf b.rate)
        | none => (b.tl, rateOf b.rate)
  | none => (0, 60, 1)

/-- Charge of a SYNC reservation (Table 7.5): a writer at the source's raster and a reader at the destination's. -/
def State.resvCharge (s : State) (e : RouteEntry) (a : Fmt) : Nat :=
  let p := pitch a.w a.fmt
  let (n, d) := rateOf a.rate
  let (tl, n', d') := s.dstRate e.dest e.g
  mbps (p * a.tl + 16640) n d + mbps (p * tl + 16640) n' d'

/-- The waits of a take: each entry with its reservation, or the first resource that fails (last rows of Table 6.5). -/
def State.planEntries (s : State) (id : Nat) (imm : Bool) : List RouteEntry → List RouteWait → List Charge →
    Check × List RouteWait × List Charge
  | [], ws, cs => (none, ws, cs)
  | e :: rest, ws, cs =>
    let w : RouteWait := { job := id, entry := e, due := false, immediate := imm, fromFrame := 0 }
    if !e.syncRes then State.planEntries s id imm rest (ws ++ [w]) cs
    else if s.keepsResv e then State.planEntries s id imm rest (ws ++ [{ w with keep := true }]) cs
    else
      let held := ws.filterMap (·.resv)
      match s.srcFmt e.src e.g, s.freeGroup e.g (held.map fun v => (v.cw, v.g)) with
      | some a, some m =>
        let ss := slotSize a.w a.h a.fmt
        let size := roundPond (256 + (3 + e.extra) * ss)
        (match s.findExtent (held.map fun v => (v.base, v.size)) size with
         | some base =>
           let v : Resv := { cw := m, pb := m, g := e.g, base := base, size := size, slots := 3 + e.extra, slotSize := ss, fmt := a }
           State.planEntries s id imm rest (ws ++ [{ w with resv := some v }])
             (cs ++ [{ kind := 7, holder := 896 + m, mb := s.resvCharge e a }])
         | none => (some (stNoResource, 0), [], []))
      | _, _ => (some (stNoResource, 0), [], [])

def ofResv (v : Resv) (c : Charge) : Bool := c.kind == 7 && c.holder == 896 + v.cw

/-- A reservation ends: its charge is released. -/
def State.endResv (s : State) (v : Option Resv) : State :=
  match v with
  | some v => s.charge (ofResv v) []
  | none => s

/-! ### Completion and supersession (R138, R139) -/

/-- Silent jobs that a PRESET_RECALL spawned name it first in `aux`. -/
def childOf (id : Nat) (j : Job) : Bool := j.silent && j.kind != .exec && j.rix.isNone && j.aux.head? == some id

/-- A take with no entry left, and no record of its preset left, completes. -/
def State.settleTake (s : State) (id : Nat) : State :=
  if s.routes.waits.any (fun w => w.job == id) || s.jobs.any (childOf id) then s
  else match s.jobs.find? fun j => j.id == id with
    | some j =>
      let n := j.aux.headD 0
      s.complete j (if n = 0 then stOk else stCancelled) n (some j.raster)
    | none => s

/-- A superseded entry is counted on its command. -/
def tallyEntry (id n : Nat) (j : Job) : Job := if j.id = id then { j with aux := [j.aux.headD 0 + n] } else j

/-- An entry leaves the waiting list, applied or superseded. -/
def State.leaveWait (s : State) (w : RouteWait) (superseded : Bool) : State :=
  let s1 := { s with routes := { s.routes with waits := s.routes.waits.filter fun x => !(x.job == w.job && x.entry.dest == w.entry.dest) },
                     jobs := s.jobs.map (tallyEntry w.job (b2n superseded)) }
  s1.settleTake w.job

/-- An entry that will never apply: a reservation admitted for it is released at once. -/
def State.dropWait (s : State) (w : RouteWait) : State := (s.endResv w.resv).leaveWait w true

def State.dropWaits (s : State) (f : RouteWait → Bool) : State :=
  State.each (fun w s => s.dropWait w) (s.routes.waits.filter f) s

/-- The frame that a capture writer was writing is left unfinished (R174); a captured task empties its history, since a take
sets the class to NONE where it applies (R141, R226). -/
def State.abandonWriter (s : State) (dest : Nat) : State :=
  if 896 ≤ dest then
    match fget none s.pond.caps (dest - 896) with
    | some c => (s.failSlots (s.capWriting c).toList).setCap (dest - 896) (some { c with writing := none })
    | none => s
  else if 512 ≤ dest then
    match (s.taskAtEi dest).bind fun k => (s.task k).map fun t => (k, t) with
    | some (k, t) => if capturedKernel t.p.block then s.dropHistory k else s
    | none => s
  else s

/-- The route that an engine input had before a take now is kept for the decisions that look back (R205). -/
def State.noteRoute (s : State) (dest : Nat) (old : Option Route) : State :=
  if 512 ≤ dest && dest < 896 then
    { s with routes := { s.routes with past := (s.now, dest, old) :: s.routes.past.filter fun e => decide (s.now ≤ e.1 + lookBack) } }
  else s

def entryFlags (e : RouteEntry) : Nat := b2n e.syncRes + 2 * b2n e.forceSync + 4 * b2n e.autoCut

/-- A route entry applies (R137, R138, R141, R160). DEDUCED: a reservation that is kept keeps the EXTRA that its ring was made
for (R138, R144). -/
def State.applyWait (s : State) (w : RouteWait) : State :=
  let e := w.entry
  let old := s.route e.dest
  let kept := if w.keep then old.bind (·.resv) else none
  let s1 := if w.keep then s else s.endResv (old.bind (·.resv))
  let new : Option Route := if isClear e then none else some
    { src := e.src, g := e.g, syncRes := e.syncRes, forceSync := e.forceSync, autoCut := e.autoCut,
      extra := if w.keep then (old.map (·.extra)).getD e.extra else e.extra,
      resv := if w.keep then kept else w.resv, loss := if e.dest < 512 then 1 else 0 }
  let s2 := (((s1.setRoute e.dest new).noteRoute e.dest old).abandonWriter e.dest).audit 1 (e.g + 16 * entryFlags e) e.dest e.src
  let s3 := s2.leaveWait w false
  if w.keep then s3 else s3.dropWaits fun x => x.keep && x.entry.dest == e.dest

/-- No entry of the same destination that became due before waits ahead of `w` (R28, R138). -/
def State.first (s : State) (w : RouteWait) : Bool :=
  (s.routes.waits.find? fun x => x.due && x.entry.dest == w.entry.dest).all fun x => x.job == w.job

/-- R137: an EI or CW entry applies at once. -/
def State.atOnce (s : State) (e : RouteEntry) : Bool :=
  decide (512 ≤ e.dest) && (match s.route e.dest with
    | none => true
    | some r => if isClear e then !s.srcPresent r.src else !s.srcPresent e.src)

/-- The named position of a take is reached: its entries are due, and those that apply at once do. -/
def State.dueTake (s : State) (id : Nat) : State :=
  let imm := (s.jobs.find? fun j => j.id == id).all fun j => !j.sched
  let first (e : RouteEntry) : Nat :=
    if e.dest < 512 then
      match s.outRaster e.dest with
      | some o => if imm then s.nextFrame (2 + e.dest) o.standing o.frame.toNat 1 s.armLines else 0
      | none => 0
    else s.now
  let s1 := { s with routes := { s.routes with waits := s.routes.waits.map fun w =>
    if w.job = id then { w with due := true, fromFrame := first w.entry } else w } }
  let s2 := State.each (fun w s => if s.seen.atOnce w.entry && s.first w then s.applyWait w else s) (s1.routes.waits.filter fun w => w.job == id) s1
  s2.settleTake id

/-- An output's frame start: the entries due for it apply, in residency order (R22 step 1). -/
def State.applyOutWaits (s : State) (n frame : Nat) : State :=
  State.each (fun w s => s.applyWait w)
    (s.routes.waits.filter fun w => w.due && w.entry.dest == n && decide (w.fromFrame ≤ frame)) s

/-- A source's frame start at `line1T`: the entries of EI and CW destinations that wait for it apply (R137), those of one destination
in order (R138). -/
def State.applySrcWaits (s : State) (src : Nat) (line1T : Int) : State :=
  State.each (fun w s => if s.first w then s.applyWait w else s)
    (s.routes.waits.filter fun w => w.due && decide (512 ≤ w.entry.dest) && decide ((w.fromFrame : Int) ≤ line1T) &&
      (if isClear w.entry then (match s.route w.entry.dest with
        | some r => r.src == src
        | none => false) else w.entry.src == src)) s

/-- An output that ceases to exist loses its route and its waiting entries (R56). -/
def State.dropOutput (s : State) (n : Nat) : State :=
  let s1 := s.dropWaits fun w => w.entry.dest == n
  let s2 := (s1.endResv ((s1.route n).bind (·.resv))).setRoute n none
  { s2 with routes := { s2.routes with losses := fmod {} s2.routes.losses n fun (l : Loss) => { l with inLoss := false, heldRun := 0, cls := .unrouted } } }

/-! ### ROUTE_TAKE -/

/-- The raster an immediate take reports on (R139). -/
def takeRaster (es : List RouteEntry) : Nat := ((es.find? fun e => decide (e.dest < 512)).map fun e => 2 + e.dest).getD 0

/-- A state with the entries of an immediate take's destinations superseded. -/
def State.superseding (s : State) (es : List RouteEntry) : State :=
  s.dropWaits fun w => w.immediate && es.any fun e => e.dest == w.entry.dest

/-- The waits and charges of a take, or the failure (Table 6.5, last rows; R138). -/
def State.takePlan (s : State) (id : Nat) (imm : Bool) (es : List RouteEntry) : Check × State :=
  match s.planEntries id imm es [] [] with
  | (some f, _, _) => (some f, s)
  | (none, ws, cs) => (s.admission (fun _ => false) cs,
      ({ s with routes := { s.routes with waits := s.routes.waits ++ ws } }).charge (fun _ => false) cs)

/-- ROUTE_TAKE checks (R135, R136, R137). -/
def chkRouteTake (h : Hdr) (p : RouteTakeP) (s : State) : Check :=
  failIf (decide (p.count < 1) || decide (64 < p.count) || p.count != p.entries.length) stBadLength
  <|> failIf (h.sched && h.line != 1) stBadParam
  <|> failIf s.routes.recalling stBusy
  <|> failIf (p.rsvd != 0) stBadParam <|> s.chkEntries p.entries
  <|> ((if h.sched then s else s.superseding p.entries).takePlan 0 (!h.sched) p.entries).1

/-- A take becomes resident, or executes: its reservations are admitted and its entries wait. -/
def planTake (h : Hdr) (id : Nat) (es : List RouteEntry) (s : State) : State :=
  ((if h.sched then s else s.superseding es).takePlan id (!h.sched) es).2

def startRouteTake (h : Hdr) (p : RouteTakeP) (s : State) : Ans :=
  orAns (chkRouteTake h p s) (.later (planTake h s.nextJob p.entries s) .event (takeRaster p.entries))

/-- A take at its line: it waits on as an event until its entries have applied. -/
def applyRouteTake (j : Job) (s : State) : State := (s.setJob { j with kind := .event }).dueTake j.id

/-- A cancelled take's entries never apply. -/
def releaseTake (j : Job) (s : State) : State :=
  let ws := s.routes.waits.filter fun w => w.job == j.id
  State.each (fun (w : RouteWait) s => s.endResv w.resv) ws
    { s with routes := { s.routes with waits := s.routes.waits.filter fun w => w.job != j.id } }

/-! ### Loss behaviour (R151 to R154) -/

def State.loss (s : State) (n : Nat) : Loss := fget {} s.routes.losses n
def State.setLoss (s : State) (n : Nat) (l : Loss) : State := { s with routes := { s.routes with losses := fset {} s.routes.losses n l } }

/-- Line 1 of the source's frame `f`, by whole frame periods from the frame last marked. -/
def State.srcLineOf (s : State) (src f : Nat) : Int :=
  ((s.srcMark src).map fun (t, g, p) => t + ((f : Int) - g) * p).getD 0

/-- What layer 0 shows: kind (0 routed, 1 black, 2 held, 3 passed), source frame, latency, and the frame read from the ring. -/
structure Shown where
  kind : Nat
  frame : Option Nat := none
  latency : Nat := 0
  ring : Option Nat := none
  deriving DecidableEq, Repr

/-- Table 6.6 for a judged route; `pick` is the synchroniser's choice. DEDUCED (assumption 39): a repeat of the frame last shown through CUT
is no loss where the ring does not hold that frame complete: it is shown as it arrived. -/
def State.showOf (s : State) (l : Loss) (r : Route) (tOut : Int) (d : Nat) (pick : Option Nat) : Shown :=
  let through (kind : Nat) : Shown := match s.srcLine1 r.src (tOut - d) with
    | some (t, f) => { kind := kind, frame := some f, latency := (tOut - t).toNat }
    | none => { kind := 1 }
  let fromRing (kind : Nat) (f : RingFrame) : Shown :=
    { kind := kind, frame := some f.frame, latency := (tOut - f.line1T).toNat, ring := some f.frame }
  match r.cls with
  | .unrouted => { kind := 1 }
  | .cut => through 0
  | .sync => match pick with
    | some f => (match r.resv.bind fun v => ringFrame v.done f with
      | some x => fromRing 0 x
      | none => if r.last = some f then { kind := 0, frame := some f, latency := (tOut - s.srcLineOf r.src f).toNat } else { kind := 1 })
    | none => { kind := 1 }
  | .none =>
    if !s.srcPresent r.src || !r.formatOk then
      if l.policy = 1 && (l.limit = 0 || decide (l.heldRun < l.limit)) then
        match r.resv.bind fun v => heldFrame v r.last with
        | some f => fromRing 2 f
        | none => { kind := 1 }
      else { kind := 1 }
    else if l.policy = 2 then through 3
    else { kind := 1 }

/-- Complete frames of the ring that a jump from SYNC to CUT at source frame `f` never shows (R149). -/
def framesBetween (r : Route) (f : Nat) : Nat :=
  match r.resv, r.last with
  | some v, some q => total (fun (x : RingFrame) => b2n (decide (q < x.frame) && decide (x.frame < f))) v.done
  | _, _ => 0

/-- Steps 2 and 3 of R22 at a frame start of output `n`: class, synchroniser, loss, counters and events. `given` is the class
and the pick of a LEAD (R142, R147), `cutoff` the instant before which candidates completed. -/
def State.routeStep (s : State) (n frame : Nat) (tOut : Int) (d : Nat) (given : Option Given) (cutoff : Int) : State :=
  let l := s.loss n
  let r0 := s.route n
  let r1 := r0.map fun r => s.seen.judgeAt n r tOut d given
  let s1 := if (r0.any (·.formatOk)) && !(r1.all (·.formatOk)) then s.fire (384 + n) else s
  let cls := (r1.map (·.cls)).getD .unrouted
  let pick := r1.bind fun r => if r.cls = .sync then (match given with
      | some x => x.pick
      | none => r.resv.bind fun v => pickFrame v.done v.stopT r.extra r.last cutoff) else none
  let sh := match r1 with
    | some r => s1.seen.showOf l r tOut d pick
    | none => { kind := 1 }
  let inLoss := sh.kind != 0
  let last := match r1 with
    | some r => (match cls, sh.frame with
      | .sync, some f => some f
      | .cut, some f => some f
      | _, _ => r.last)
    | none => none
  let (rep, drop) := match r1 with
    | some r => (match cls, sh.frame with
      | .sync, some f => repeatsDrops r.last f
      | .cut, some f => (0, if l.cls = Cls.sync then framesBetween r f else 0)
      | _, _ => (0, 0))
    | none => (0, 0)
  let s2 := s1.setRoute n (r1.map fun r => { r with last := last, played := sh.ring, shown := sh.frame, latency := sh.latency, loss := sh.kind })
  let held := if sh.kind = 2 then l.heldRun + 1 else if inLoss then l.heldRun else 0
  let s3 := s2.setLoss n { l with inLoss := inLoss, heldRun := held, cls := cls }
  let s4 := ((s3.count 5 n 0 (b2n inLoss)).count 5 n 1 (b2n (sh.kind == 2))).count 5 n 2 rep
  let s5 := (s4.count 5 n 3 drop).count 5 n 6 (b2n (l.cls != cls))
  let s6 := if l.cls != cls then s5.fire (384 + n) else s5
  (if inLoss != l.inLoss then s6.fire (384 + n) else s6).emit
    (.layer0 n frame (match sh.frame with
      | some f => 4 * f + sh.kind
      | none => sh.kind))

/-- LOSS_SET checks (R151). -/
def chkLossSet (h : Hdr) (p : LossSetP) (s : State) : Check :=
  failIf s.routes.recalling stBusy
  <|> failIf (decide (3 ≤ p.policy) || decide (65535 < p.holdLimit) || p.rsvd != 0 || decide (512 ≤ p.output) ||
        (s.txStream p.output).isNone || (h.sched && h.line != 1)) stBadParam

/-- LOSS_SET immediate: it waits for the output's next frame start. -/
def startLossSet (h : Hdr) (p : LossSetP) (s : State) : Ans := orAns (chkLossSet h p s) (.later s .apply (2 + p.output))

def State.setPolicy (s : State) (p : LossSetP) : State :=
  s.setLoss p.output { s.loss p.output with policy := p.policy, limit := p.holdLimit }

def applyLossSet (j : Job) (p : LossSetP) (s : State) : State := (s.setPolicy p).complete j stOk 0 (some j.raster)

/-! ### ROUTE_QUERY (R155) -/

/-- Size of the configured group that begins at `dest`, 0 for none. -/
def State.groupSizeAt (s : State) (dest : Nat) : Nat :=
  ([1, 2, 4, 8].find? fun g => (s.dstFmt dest g).isSome || (decide (896 ≤ dest) && s.cwReserved dest g)).getD 0

/-- Class now shown for a route: that of a CW or captured destination follows its source, the latter while its format fits (R202). -/
def State.classNow (s : State) (dest : Nat) (r : Route) : Cls :=
  if 896 ≤ dest then (if s.srcPresent r.src then .cut else .none)
  else if (s.capturedAt dest).isSome then
    (if s.srcPresent r.src && (s.judgeAt dest r s.now 32 none).formatOk then .cut else .none)
  else r.cls

def Cls.code : Cls → Nat
  | .unrouted => 0 | .cut => 1 | .sync => 2 | .none => 3

def clsOf : Nat → Cls
  | 0 => .unrouted | 1 => .cut | 2 => .sync | _ => .none

def State.pendingSeq (s : State) (dest : Nat) : Nat :=
  ((s.routes.waits.find? fun w => w.entry.dest == dest).bind fun w => (s.jobs.find? fun j => j.id == w.job).map (·.seq)).getD 0

def State.routeRecord (s : State) (dest : Nat) : List Byte :=
  match s.route dest with
  | some r =>
    leBytes 2 dest ++ leBytes 2 r.src ++ leBytes 1 r.g ++ leBytes 1 (s.classNow dest r).code ++
    leBytes 1 (b2n r.syncRes + 2 * b2n r.forceSync + 4 * b2n r.autoCut) ++ leBytes 1 r.loss ++
    leBytes 2 ((r.resv.map fun v => 896 + v.cw).getD 0xFFFF) ++ leBytes 2 ((r.resv.map fun v => 896 + v.pb).getD 0xFFFF) ++
    leBytes 4 (min r.lead 0xFFFFFFFF) ++ leBytes 4 (min r.latency 0xFFFFFFFF) ++ leBytes 4 (s.pendingSeq dest)
  | none =>
    let g := s.groupSizeAt dest
    leBytes 2 dest ++ leBytes 2 0xFFFF ++ leBytes 1 g ++ leBytes 2 0 ++ leBytes 1 (b2n (g != 0 && decide (dest < 512))) ++
    leBytes 2 0xFFFF ++ leBytes 2 0xFFFF ++ leBytes 8 0 ++ leBytes 4 (if g = 0 then 0 else s.pendingSeq dest)

def startRouteQuery (p : RouteQueryP) (s : State) : Ans :=
  orAns (failIf (p.dests.isEmpty || decide (1408 < p.dests.length)) stBadLength
    <|> failIf (p.rsvd != 0 || p.dests.any fun d => decide (1407 < d)) stBadParam)
    (.result s p.res (p.dests.flatMap s.routeRecord))

/-! ### Decisions of a LEAD (R142, R147) -/

/-- The class and pick that a LEAD decided for frame `f` of the destination `n`, an output or an engine input, on either member. -/
def State.givenClass (s : State) (n f : Nat) : Option Given :=
  if s.pair.role = .solo || s.pair.sync = .apart then none
  else (s.pair.received.find? fun d => d.kind == 0 && d.unit == n && d.key == f).map fun d =>
    { cls := clsOf d.value, pick := if d.value = 2 then (if d.extra = 0 then none else some (d.extra - 1)) else none,
      run := if s.pair.role = .lead then some d.run else none }

/-! ### Path latency (R150, R203) -/

/-- Latency from the pins to source point `src`, engine by engine. -/
def State.srcLatency (s : State) : Nat → Nat → Nat
  | 0, _ => 0
  | n + 1, src =>
    match s.eoAt src with
    | some (e, t) => t.latency + (if capturedKernel t.p.block then 0 else
        ((s.route (512 + 2 * e)).map (·.latency)).getD 0) +
        (match s.route (512 + 2 * e) with
         | some r => State.srcLatency s n r.src
         | none => 0)
    | none => 0

/-- Latency of output `n` from the pins (step 4 of R22). -/
def State.pathLatency (s : State) (n : Nat) : Nat :=
  match s.route n with
  | some r => r.latency + s.srcLatency 192 r.src
  | none => 0

end Sys2Proof.Machine
end

