-- ==== Sys2Proof/Machine/Engines.lean ====
section
/-! DEFINITION. Conversion engines: tasks and their checks, added latency, charges, selection of captured units, presence,
spares and migration, known-answer slices, and the commands of Table 13.8 (chapter 8, and the rules of chapter 9 that the
engine applies to every kernel). -/

namespace Sys2Proof.Machine

def State.engine (s : State) (e : Nat) : Engine := fget {} s.engines.eng e
def State.setEngine (s : State) (e : Nat) (x : Engine) : State := { s with engines := { s.engines with eng := fset {} s.engines.eng e x } }
/-- A task set, with whether its output was present before (R21). -/
def State.setTask (s : State) (e : Nat) (t : Option Task) : State :=
  let old := ((fget none s.engines.tasks e).map Task.present).getD false
  { s with engines := { s.engines with tasks := fset none s.engines.tasks e (t.map fun k => { k with past := noteChange s.now old k.present k.past }) } }

def gangOf (p : KernelBindP) : List Nat := (List.range p.gang).map (p.engine + ·)

/-! ### Kernels (Tables 9.1 and 9.2) -/

/-- Kernel identifier of a block. -/
def kernelId : KBlock → Nat
  | .scale _ => 0x0101 | .deint _ => 0x0102 | .frcMc _ => 0x0103 | .frcBlend _ => 0x0104
  | .color _ => 0x0105 | .chroma _ => 0x0106 | .key _ => 0x0107 | .other _ => 0

def blockBytes : KBlock → Nat
  | .scale _ => 32 | .deint _ => 16 | .frcMc _ => 16 | .frcBlend _ => 8
  | .color b => if b.lut.isEmpty then 152 else 215776
  | .chroma _ => 16 | .key _ => 32 | .other n => n

/-- Block sizes the library gives an identifier. -/
def kernelSizes : Nat → List Nat
  | 0x0101 => [32] | 0x0102 => [16] | 0x0103 => [16] | 0x0104 => [8] | 0x0105 => [152, 215776] | 0x0106 => [16] | 0x0107 => [32]
  | _ => []

/-- V of R199. -/
def tapsV : KBlock → Nat
  | .scale b => b.vtaps | .deint _ => 6 | .frcMc _ => 8 | .frcBlend _ => 1 | .color _ => 0
  | .chroma b => if b.in420 = 1 || b.out420 = 1 then 4 else 0
  | .key _ => 0 | .other _ => 0

def ovMin : KBlock → Nat
  | .scale b => b.htaps | .deint _ => 4 | .frcMc _ => 32 | .frcBlend _ => 0 | .color _ => 6 | .chroma _ => 6 | .key _ => 6 | .other _ => 0

/-- K in pixels per second, by IN0 structure. -/
def pixelRate (b : KBlock) (structure_ : Nat) : Nat :=
  match b with
  | .scale _ => if structure_ = 0 then 1800000000 else if structure_ = 1 then 1200000000 else 900000000
  | .deint _ => 600000000 | .frcMc _ => 300000000 | .frcBlend _ => 2400000000
  | .color _ => 1200000000 | .chroma _ => 2400000000 | .key _ => 1200000000 | .other _ => 0

/-- W of R213. -/
def warmUp : KBlock → Nat
  | .deint _ => 3 | .frcMc _ => 4 | .frcBlend _ => 2 | _ => 1

/-- P of R223. -/
def pipeP : KBlock → Nat
  | .chroma _ => 135 | _ => 270

def geometryOf : KBlock → Option Geometry
  | .scale b => some b.geo | .color b => some b.geo | .chroma b => some b.geo | .key b => some b.geo | _ => none

/-! ### Formats that a kernel accepts -/

def portOk (p : PortFmt) : Bool :=
  between 64 p.width 16384 && between 32 p.height 8192 && decide (p.format ≤ 5) && decide (p.rate < 11) && decide (p.scan < 3) &&
  groupSizeOk p.g

def sameSize (a b : PortFmt) : Bool := a.width == b.width && a.height == b.height
def sameRaster (a b : PortFmt) : Bool := sameSize a b && a.rate == b.rate && a.scan == b.scan
def structOf (p : PortFmt) : Nat := memStructure p.format

/-- Rate row `b` is twice rate row `a`. -/
def doubleRate (a b : Nat) : Bool :=
  let (n, d) := rateOf a
  let (m, e) := rateOf b
  2 * n * e == m * d

/-- R247: conversions that CHROMA permits. -/
def chromaOk (i o : Nat) (b : ChromaBlk) : Bool :=
  match i, o with
  | 0, 1 => b.out420 == 0
  | 1, 0 => b.in420 == 0
  | 0, 0 => b.in420 != b.out420
  | 1, 2 | 2, 1 => b.in420 == 0 && b.out420 == 0
  | _, _ => false

/-- R230, R205: the kernel accepts source structure `i` for its bound output. A 4:4:4 source of CHROMA carries no 4:2:0 content, so IN_420
does not concern it (the example of R248). -/
def acceptsStruct (p : KernelBindP) (i : Nat) : Bool :=
  match p.block with
  | .chroma b => chromaOk i (structOf p.out0) (if i = 0 then b else { b with in420 := 0 })
  | .key _ => decide (i < 2)
  | _ => i == structOf p.in0

/-- Ports against the kernel's combinations (R222, R232, R236, R240, R243, R245, R247, R249). -/
def portsFit (p : KernelBindP) (r : RasterDesc) : Bool :=
  let i := p.in0
  let o := p.out0
  let str := structOf i == structOf o
  portOk i && portOk o && p.out1.g == 0 && o.width == r.activeSamples && o.height == r.activeLines &&
  o.scan == r.scan && o.rate == rateRow r.rateNum r.rateDen && acceptsStruct p (structOf i) &&
  (match p.block with
   | .chroma b => chromaOk (structOf i) (structOf o) b
   | _ => true) &&
  (match p.block with
   | .key b => o.format == 4 && sameRaster i o && (if b.mode = 2 then portOk p.in1 && sameRaster p.in1 i else p.in1.g == 0)
   | _ => p.in1.g == 0) &&
  (match p.block with
   | .scale _ => str && i.rate == o.rate && i.scan == o.scan && i.scan != 1
   | .deint b => str && decide (structOf i < 2) && sameSize i o && o.scan == 0 &&
       ((i.scan == 1 && (if b.mode = 0 then doubleRate i.rate o.rate else i.rate == o.rate)) ||
        (i.scan == 2 && b.mode == 1 && i.rate == o.rate))
   | .frcMc _ => str && decide (structOf i < 2) && sameSize i o && i.scan != 1 && o.scan != 1
   | .frcBlend b => str && sameSize i o && (if b.mode = 0 then i.scan == o.scan else i.scan != 1 && o.scan != 1)
   | .color _ => str && sameRaster i o
   | .chroma _ => sameRaster i o
   | _ => true)

/-! ### SCALE rectangles (R232) -/

/-- Effective crop and destination rectangle of SCALE. -/
structure ScaleRect where
  cx : Nat
  cy : Nat
  cw : Nat
  ch : Nat
  dx : Nat
  dy : Nat
  dw : Nat
  dh : Nat
  deriving DecidableEq, Repr

def even (n : Nat) : Nat := n / 2 * 2

def scaleRect (b : ScaleBlk) (wo ho : Nat) : ScaleRect :=
  match b.aspect with
  | 1 =>
    if wo * b.cropH ≤ b.cropW * ho then
      let dh := wo * b.cropH / b.cropW
      ⟨b.cropX, b.cropY, b.cropW, b.cropH, (wo - even wo) / 2, (ho - dh) / 2, even wo, dh⟩
    else
      let dw := even (ho * b.cropW / b.cropH)
      ⟨b.cropX, b.cropY, b.cropW, b.cropH, (wo - dw) / 2, 0, dw, ho⟩
  | 2 =>
    if wo * b.cropH < b.cropW * ho then
      let cw := even (b.cropH * wo / ho)
      ⟨b.cropX + (b.cropW - cw) / 2, b.cropY, cw, b.cropH, 0, 0, wo, ho⟩
    else
      let ch := b.cropW * ho / wo
      ⟨b.cropX, b.cropY + (b.cropH - ch) / 2, b.cropW, ch, 0, 0, wo, ho⟩
  | _ => ⟨b.cropX, b.cropY, b.cropW, b.cropH, b.dx, b.dy, b.dw, b.dh⟩

/-! ### Kernel blocks -/

def tapOk (n m : Nat) : Bool := n % 2 == 0 && between 2 n m

/-- Table 9.4: no second active line when the source is progressive. -/
def geoOk (g : Geometry) (p : PortFmt) : Bool := between 32 g.inTLines 8192 && (p.scan != 0 || g.inALine2 == 0)

def scaleOk (b : ScaleBlk) (p : KernelBindP) : Bool :=
  let r := scaleRect b p.out0.width p.out0.height
  b.rsvd == 0 && tapOk b.htaps 16 && tapOk b.vtaps 8 && decide (b.sharp < 16) && decide (b.aspect < 3) &&
  between 16 b.cropW p.in0.width && decide (b.cropX + b.cropW ≤ p.in0.width) &&
  between 16 b.cropH p.in0.height && decide (b.cropY + b.cropH ≤ p.in0.height) &&
  (if b.aspect = 0 then decide (16 ≤ b.dw) && decide (16 ≤ b.dh) && decide (b.dx + b.dw ≤ p.out0.width) &&
      decide (b.dy + b.dh ≤ p.out0.height)
   else b.dx == 0 && b.dy == 0 && b.dw == 0 && b.dh == 0) &&
  (structOf p.in0 != 0 || [b.cropX, b.cropW, b.dx, b.dw].all fun v => v % 2 == 0) &&
  decide (r.cw ≤ 8 * r.dw) && decide (r.dw ≤ 8 * r.cw) && decide (r.ch ≤ 8 * r.dh) && decide (r.dh ≤ 8 * r.ch)

/-- Nine coefficients of 18 bits (R244). -/
def matrixOk (m : List Int) : Bool := m.length == 9 && m.all fun c => decide (-131072 ≤ c) && decide (c < 131072)
def offsetsOk (m : List Int) : Bool := m.length == 3 && m.all fun c => decide (-1048576 ≤ c) && decide (c ≤ 1048576)

/-- A colour-space tag (R364, Table 13.6). -/
def tagOk (t : Nat) : Bool := decide (t < 64) && t % 4 != 3 && t / 4 % 4 != 3

/-- A tag's RGB bit fits the sampling structure: 1 for RGBA, 0 for 4:2:2 (R364). -/
def tagFits (structure_ tag : Nat) : Bool := tagOk tag && (structure_ != 2 || tagRgb tag) && (structure_ != 0 || !tagRgb tag)

def colorOk (b : ColorBlk) (out : PortFmt) : Bool :=
  b.rsvd == 0 && decide (b.stages < 64) && decide (b.decodeTf < 3) && decide (b.encodeTf < 3) && tagFits (structOf out) b.outTag &&
  between 48 b.sdrWhite 1000 && between 100 b.hlgLw 4000 && matrixOk b.inMatrix && offsetsOk b.inOffset && matrixOk b.gamut &&
  matrixOk b.outMatrix && offsetsOk b.outOffset && b.stages.testBit 4 == !b.lut.isEmpty &&
  (b.lut.isEmpty || b.lut.length == 107811)

def deintOk (b : DeintBlk) : Bool :=
  b.rsvd == 0 && decide (b.mode < 2) && decide (b.edge < 2) && decide (b.cadence < 2) && between 1 b.mgain 64 && decide (b.mthresh < 4096)

def keyOk (b : KeyBlk) : Bool :=
  b.rsvd == 0 && decide (b.mode < 3) && decide (b.matrix < 2) && decide (b.invert < 2) && decide (b.spill < 2) &&
  (b.spill == 0 || b.mode == 1) && decide (b.clip < 2 ^ 20) && between 1 b.gain 4096 && decide (b.hue < 360) && between 1 b.accept 90

/-- R224: HIST is a frame ring of IN0's format that nothing else names. -/
def State.histOk (s : State) (h : Nat) (p : PortFmt) (least : Nat) (mine : Bool) : Bool :=
  match s.bufAt h with
  | some b => b.params.typ == 0 && b.params.format == p.format && b.params.width == p.width && b.params.height == p.height &&
      b.params.rate == p.rate && b.params.scan == p.scan && decide (least ≤ b.params.count) && (mine || !s.bufUsed h)
  | none => false

/-- The buffer under which a task's charge is listed. -/
def histOf (b : KBlock) : Nat := (blockHandles b).headD 0

/-- A kernel block is valid for its ports; `mine` when the task already holds its buffers. -/
def State.blockOk (s : State) (p : KernelBindP) (mine : Bool) : Bool :=
  match p.block with
  | .scale b => geoOk b.geo p.in0 && scaleOk b p
  | .deint b => deintOk b && s.histOk b.hist p.in0 3 mine
  | .frcMc b => b.rsvd == 0 && decide (b.fallback < 2) && decide (b.conf < 256) && s.histOk b.hist p.in0 4 mine && b.mv != b.hist &&
      (match s.bufAt b.mv with
       | some v => v.params.typ == 5 && decide (128 * blocksOf p.in0.width p.in0.height ≤ v.params.size) && (mine || !s.bufUsed b.mv)
       | none => false)
  | .frcBlend b => b.rsvd == 0 && decide (b.mode < 2) && s.histOk b.hist p.in0 3 mine
  | .color b => geoOk b.geo p.in0 && colorOk b p.out0
  | .chroma b => geoOk b.geo p.in0 && b.rsvd == 0 && decide (b.filter < 2) && decide (b.in420 < 2) && decide (b.out420 < 2)
  | .key b => geoOk b.geo p.in0 && keyOk b
  | .other _ => false

/-! ### Line buffer, engine count, charge -/

/-- Stripe width W_s of R199. -/
def stripeWidth (p : KernelBindP) (ov : Nat) : Nat := if p.gang ≤ 1 then p.in0.width else ceilDiv p.in0.width p.gang + 2 * ov

/-- B of Table 8.5. -/
def bytesPerPixel : Nat → Nat
  | 0 => 5 | 1 => 8 | _ => 10

/-- N of R199 with an input structure. -/
def lineBuffer (p : KernelBindP) (structure_ : Nat) : Nat := (tapsV p.block + 1) * stripeWidth p p.ov * bytesPerPixel structure_

/-- R221: the per-engine load does not exceed K. -/
def loadOk (p : KernelBindP) (r : RasterDesc) : Bool :=
  let k := pixelRate p.block (structOf p.in0)
  let fits1 (px num den : Nat) : Bool :=
    decide (px * num * 16 ≤ k * den * 15) && decide (px * num * r.totalLines ≤ k * den * r.activeLines)
  let (ni, di) := rateOf p.in0.rate
  let (no, do_) := rateOf p.out0.rate
  fits1 (stripeWidth p (ovMin p.block) * p.in0.height) ni di && fits1 (ceilDiv p.out0.width p.gang * p.out0.height) no do_

/-- DMA charge of one engine (Table 9.5). -/
def State.engineCharge (s : State) (p : KernelBindP) : Nat :=
  match (blockHandles p.block).head?.bind s.bufAt with
  | none => 0
  | some h =>
    let ws := stripeWidth p p.ov
    let b := h.params
    let pt := if p.gang ≤ 1 then pitch b.width b.format else 256 * (ceilDiv (ws * memBits b.format) 2048 + 1)
    let nb := blocksOf ws p.in0.height
    let (ni, di) := rateOf b.rate
    let (no, do_) := rateOf p.out0.rate
    let two (a c : Nat) : Nat := ceilDiv (a * ni * do_ + c * no * di) (2 * di * do_ * 1000000)
    match p.block with
    | .deint _ => two (2 * (4 * pt * b.tlines + 16640)) 0
    | .frcMc _ => two (2 * (3 * pt * b.tlines + 16640 + 64 * nb)) (5 * pt * b.tlines + 32 * nb)
    | .frcBlend k => two (2 * (pt * b.tlines + 16640)) (2 * ((k.mode + 1) * pt * b.tlines + 512))
    | _ => 0

/-! ### Added latency (R223) -/

/-- Raster line of active line `k` (R223, R540). -/
def lpos (k h a1 a2 : Nat) : Nat := if a2 = 0 || 2 * k < h then a1 + k else a2 + k - ceilDiv h 2

/-- Last active line of the field that holds active line `k` (R540). -/
def fieldEnd (k h : Nat) (fields : Bool) : Nat := if fields && k < ceilDiv h 2 then ceilDiv h 2 - 1 else h - 1

/-- Need function of R223: last input active line that output active line `k` uses, none for -1 (R234, R245, R248, R249). -/
def needLine (p : KernelBindP) (k : Nat) : Option Nat :=
  match p.block with
  | .scale b =>
    let r := scaleRect b p.out0.width p.out0.height
    if k < r.dy || r.dy + r.dh ≤ k then none
    else
      let pos : Int := (2 * r.dh * r.cy + (2 * (k - r.dy) + 1) * r.ch : Nat) - (r.dh : Nat)
      let n : Int := pos / ((2 * r.dh : Nat) : Int) + (b.vtaps / 2 : Nat)
      some (min (max n r.cy) ((r.cy + r.ch : Nat) - 1 : Int)).toNat
  | .chroma b =>
    let n := k + (if b.out420 = 1 then 2 else if b.in420 = 1 then 1 else 0)
    some (min n (fieldEnd k p.in0.height (p.in0.scan != 0)))
  | _ => some k

/-- A of R223, in ticks. -/
def addedLatency (p : KernelBindP) (r : RasterDesc) : Nat :=
  match geometryOf p.block with
  | none => 0
  | some g =>
    let t : Int := descPeriod r
    let worst := (List.range p.out0.height).foldl (fun (w : Int) k => match needLine p k with
      | some n => max w (t * ((lpos n p.in0.height g.inALine1 g.inALine2 * r.totalLines : Nat) -
          (((lpos k p.out0.height r.activeLine1 r.activeLine2 - 1) * g.inTLines : Nat) : Int)))
      | none => w) 0
    ceilDiv worst.toNat (g.inTLines * r.totalLines) + pipeP p.block

def newer (a b : HUnit) : Bool := decide (b.start < a.start)

/-- The newest unit that a test picks. -/
def newestUnit (f : HUnit → Bool) (l : List HUnit) : Option HUnit :=
  (l.filter f).foldl (fun a u => match a with
    | some x => if newer u x then some u else some x
    | none => some u) none

/-- Selection lead L of a captured kernel (R220, R238), FIELD2_LINE being that of the newest unit's frame. -/
def State.leadL (s : State) (t : Task) : Nat :=
  let f2 := ((newestUnit (fun _ => true) t.history).map (·.f2)).getD 1
  let (n, d) := rateOf t.p.in0.rate
  let tin := frameTicks n d
  match t.p.block with
  | .deint b =>
    if b.mode = 1 then tin + 1080
    else
      let tl := ((s.bufAt b.hist).map fun h => h.params.tlines).getD 1
      max (f2 - 1) (tl + 1 - f2) * tin / tl + 1080
  | .frcMc _ => 5 * tin / 2 + 1080
  | .frcBlend b => (if b.mode = 0 then 3 * tin / 2 else 2 * tin) + 1080
  | _ => 0

/-! ### KERNEL_BIND (Table 8.4) -/

/-- Second input group of a task, one past its last point, relative to the task's first. -/
def portsEnd (p : KernelBindP) : Nat :=
  if p.in1.g = 0 then p.in0.g else secondPort p.engine p.in0.g p.in1.g + p.in1.g - 2 * p.engine

def ofEngine (e : Nat) (c : Charge) : Bool := c.kind == 6 && c.holder == e

/-- The charges of a task on a gang. -/
def State.taskCharges (s : State) (p : KernelBindP) : List Charge :=
  let mb := s.engineCharge p
  if mb = 0 then [] else (gangOf p).map fun e => { kind := 6, holder := e, sub := histOf p.block, mb := mb }

/-- A resident KERNEL_BIND has taken the engine for its task: no other command may have it meanwhile. DEDUCED: the checks and
the admission of a scheduled bind are those of residency, so that it cannot fail at its line. -/
def State.bindPending (s : State) (e : Nat) : Bool :=
  s.jobs.any fun j => j.sched && j.kind == .apply && match j.params with
    | .kernelBind p => (gangOf p).contains e
    | _ => false

/-- KERNEL_BIND checks (Table 8.4, R196 to R199). -/
def chkKernelBind (h : Hdr) (p : KernelBindP) (s : State) : Check :=
  let sizes := kernelSizes p.kernel
  failIf (!sizes.isEmpty && !sizes.contains (blockBytes p.block)) stBadLength
  <|> failIf (p.rsvd != 0 || decide (191 < p.engine) || !(p.gang == 1 || p.gang == 2 || p.gang == 4) || p.engine % max p.gang 1 != 0 ||
        decide (64 < p.ov) || (p.gang == 1 && p.ov != 0)) stBadParam
  <|> (match s.raster? p.raster with
    | none => some (stBadParam, 0)
    | some r =>
      failIf (sizes.isEmpty || kernelId p.block != p.kernel || !portsFit p r.desc || (h.sched && (h.raster != p.raster || h.line != 1)))
        stBadParam
      <|> failIf (decide (2 * p.gang < portsEnd p) || decide (2 * p.gang < p.out0.g) || !loadOk p r.desc || decide (1 < p.gang && p.ov < ovMin p.block) ||
            !s.blockOk p false) stBadParam)
  <|> failIf (!(gangOf p).all fun e => (s.engine e).st == .free && !s.bindPending e) stBusy
  <|> (let n := lineBuffer p (structOf p.in0)
       failIf (decide (262144 < n)) stLinebufShort (min 0xFFFF (ceilDiv n 256)))
  <|> s.admission (fun _ => false) (s.taskCharges p)

/-- Admission of a bind, at residency or execution. -/
def planKernelBind (p : KernelBindP) (s : State) : State := s.charge (fun _ => false) (s.taskCharges p)

/-- An engine loads the current version of a kernel for the task at `first` (R193). -/
def loading (image first kernel : Nat) (x : Engine) : Engine :=
  { x with first := first, kernel := kernel, version := Config.kernelVersion image kernel, verified := false }

/-- The engines of a gang are bound to a task and load; the command `job` completes when every engine has verified (R193). -/
def State.bindTask (job : Nat) (p : KernelBindP) (s : State) : State :=
  let a := ((s.raster? p.raster).map fun r => addedLatency p r.desc).getD 0
  let s1 := s.setTask p.engine (some { p := p, added := a, job := some job })
  State.each (fun e s => s.setEngine e { loading s.sys.image p.engine p.kernel (s.engine e) with st := .bound }) (gangOf p) s1

/-- A scheduled KERNEL_BIND applies at its line (R193, R198). -/
def applyKernelBind (j : Job) (p : KernelBindP) (s : State) : State :=
  if (gangOf p).all fun e => (s.engine e).st == .free then (s.bindTask j.id p).setJob { j with kind := .event }
  else (s.charge (fun c => (gangOf p).any fun e => ofEngine e c) []).complete j stBusy 0 (some j.raster)

def releaseKernelBind (p : KernelBindP) (s : State) : State := s.charge (fun c => (gangOf p).any fun e => ofEngine e c) []

/-- What a bind that still loads leaves when its task ends (R210). DESIGN CHOICE (assumption 26): it completes CANCELLED. -/
def State.endLoading (s : State) (t : Task) : State :=
  match t.job with
  | some id => s.completeId id stCancelled 0 (some t.p.raster)
  | none => s

/-- KERNEL_BIND immediate: the task is bound and loads at execution; the output comes with the first frame that fits
(R193, R198). DEDUCED: R198 binds a scheduled line and the first presence of the output, not the load, to a frame. -/
def startKernelBind (h : Hdr) (p : KernelBindP) (s : State) : Ans :=
  orAns (chkKernelBind h p s) (.later ((planKernelBind p s).bindTask s.nextJob p) .event p.raster)

/-- The gang of a task has verified: a bind that still waited for that completes (R193, R198). -/
def State.finishLoad (s : State) (first : Nat) : State :=
  match s.task first with
  | some t =>
    if !t.loaded && (gangOf t.p).all fun k => (s.engine k).verified then
      let s1 := s.setTask first (some { t with loaded := true, job := none })
      match t.job with
      | some id => s1.completeId id stOk 0 (some t.p.raster)
      | none => s1
    else s
  | none => s

/-- KERNEL_LOAD_VERIFIED: the check of one engine's program ends (R193). -/
def doKernelLoaded (e : Nat) (ok : Bool) (s : State) : State :=
  let x := s.engine e
  if x.verified || (x.st != .bound && x.st != .spare && x.st != .shadow) || x.kernel = 0 then s
  else if !ok then s.enterFailed 4 e 0
  else
    let s1 := s.setEngine e { x with verified := true }
    if x.st = .bound then s1.finishLoad x.first else s1

/-! ### KERNEL_UPDATE (R209, R229) -/

/-- The new block with every field that an update may not change taken from the old one must be itself (Table 9.2). -/
def updatable (old new : KBlock) : Bool :=
  match old, new with
  | .scale a, .scale b => a.geo == b.geo && a.htaps == b.htaps && a.vtaps == b.vtaps
  | .deint a, .deint b => { a with edge := b.edge, cadence := b.cadence, mgain := b.mgain, mthresh := b.mthresh, rsvd := b.rsvd } == b
  | .frcMc a, .frcMc b => { a with fallback := b.fallback, conf := b.conf, rsvd := b.rsvd } == b
  | .color a, .color b => a.geo == b.geo && a.stages.testBit 4 == b.stages.testBit 4
  | .chroma a, .chroma b => { a with filter := b.filter, rsvd := b.rsvd } == b
  | .key a, .key b => a.geo == b.geo && a.mode == b.mode
  | _, _ => false

/-- Lines of arming for an effect at t_eo(F) (R541): `base` lines before the latest line start at or before it. -/
def State.armEo (s : State) (raster adv base : Nat) : Nat :=
  match s.raster? raster with
  | some r => base + ceilDiv (adv * r.desc.totalLines) (max (descPeriod r.desc) 1)
  | none => base

/-- Lines by which a migration must be resident ahead of F:1, to be on time (R213). -/
def State.migrateLines (s : State) (t : Task) : Nat :=
  let ahead := if capturedKernel t.p.block then s.leadL t else t.added
  s.armEo t.p.raster (t.p.outAdv + ahead) s.armLines + warmUp t.p.block * s.rasterLines t.p.raster

/-- Arming lines of R541 of a command bound to a task. -/
def State.taskArm (s : State) (e : Nat) : Nat :=
  match s.task e with
  | some t => s.armEo t.p.raster t.p.outAdv s.armLines
  | none => s.armLines

/-- A pending migration of the task at `e`. -/
def State.migrating (s : State) (e : Nat) : Bool := match s.task e with
  | some t => t.migrate.isSome
  | none => false

def chkKernelUpdate (h : Hdr) (p : KernelUpdateP) (s : State) : Check :=
  match s.task p.engine with
  | none => some (stBadParam, 0)
  | some t =>
    let q := { t.p with block := p.block }
    failIf (blockBytes p.block != blockBytes t.p.block) stBadLength
    <|> failIf (p.rsvd != 0 || !updatable t.p.block p.block || !s.blockOk q true || (h.sched && (h.raster != t.p.raster || h.line != 1)) ||
          (match s.raster? t.p.raster with
           | some r => decide (t.added < addedLatency q r.desc)
           | none => false)) stBadParam
    <|> (let n := lineBuffer q (structOf q.in0)
         failIf (decide (262144 < n)) stLinebufShort (min 0xFFFF (ceilDiv n 256)))

/-- The first frame of a task's raster whose arming point, `n` lines ahead, follows execution. -/
def State.firstFrame (s : State) (raster n : Nat) : Nat :=
  match s.raster? raster with
  | some p => s.nextFrame raster p p.frame 1 n
  | none => 0

/-- KERNEL_UPDATE immediate: it applies at the first t_eo(F) whose arming point is ahead. -/
def startKernelUpdate (h : Hdr) (p : KernelUpdateP) (s : State) : Ans :=
  let r := ((s.task p.engine).map fun t => t.p.raster).getD 0
  orAns (chkKernelUpdate h p s) (.later s .apply r [s.firstFrame r (s.taskArm p.engine)])

/-! ### KERNEL_UNBIND, ENGINE_RESERVE, ENGINE_MIGRATE -/

/-- A route names one of the points `[a, a + n)` of either scale. -/
def State.pointsRouted (s : State) (a n : Nat) : Bool := s.destRouted a n || s.srcRouted a n

/-- A job that has executed or become resident names the task of `gang` engines from `e`. -/
def namesTask (gang e : Nat) (j : Job) : Bool :=
  match j.params with
  | .kernelUpdate p => p.engine == e
  | .engineMigrate p => p.engine == e
  | .routeTake p => j.sched && p.entries.any fun x => overlap x.dest x.g (512 + 2 * e) (2 * gang) || overlap x.src x.g (512 + 2 * e) (2 * gang)
  | _ => false

def startKernelUnbind (p : KernelUnbindP) (s : State) : Ans :=
  match s.task p.engine with
  | none => .fail stBadParam
  | some t =>
    orAns (failIf (p.rsvd != 0) stBadParam
      <|> failIf (s.pointsRouted (512 + 2 * p.engine) (2 * t.p.gang) || s.jobs.any (namesTask t.p.gang p.engine) || t.migrate.isSome) stBusy)
      (.done (State.each (fun e s => s.setEngine e { slice := (s.engine e).slice }) (gangOf t.p)
        (((s.endLoading t).setTask p.engine none).charge (fun c => (gangOf t.p).any fun e => ofEngine e c) [])))

/-- A pending migration names spare `e`. -/
def State.spareTaken (s : State) (e : Nat) : Bool :=
  s.engines.tasks.any fun k => k.2.any fun (t : Task) => t.migrate.any fun m => decide (m.1 ≤ e) && decide (e < m.1 + t.p.gang)

def startEngineReserve (p : EngineReserveP) (s : State) : Ans :=
  let es := (List.range p.count).map (p.first + ·)
  let add : List Charge := if p.ceiling = 0 then [] else es.map fun e => { kind := 6, holder := e, mb := p.ceiling }
  orAns (failIf (decide (191 < p.first) || decide (p.count < 1) || decide (192 < p.first + p.count) || p.rsvd != 0) stBadParam
    <|> (if p.release then
          firstFail (fun e => match (s.engine e).st with
            | .free => some (stBadParam, 0)
            | .spare => failIf (s.spareTaken e) stBusy
            | _ => some (stBusy, 0)) es
         else failIf (!es.all fun e => (s.engine e).st == .free && !s.bindPending e) stBusy)
    <|> (if p.release then none else s.admission (fun _ => false) add))
    (if p.release then
       .done ((State.each (fun e s => s.setEngine e { slice := (s.engine e).slice }) es s).charge (fun c => es.any fun e => ofEngine e c) [])
     else
       .done ((State.each (fun e s => s.setEngine e { s.engine e with st := .spare, ceiling := p.ceiling }) es s).charge (fun _ => false) add))

def spareGroup (p : EngineMigrateP) (t : Task) : List Nat := (List.range t.p.gang).map (p.target + ·)

/-- The spares' charge while a migration is pending: T where it exceeds their ceiling (R212). -/
def State.migrateCharges (s : State) (p : EngineMigrateP) (t : Task) : (Charge → Bool) × List Charge :=
  let tMb := s.engineCharge t.p
  let beyond := (spareGroup p t).filter fun e => decide ((s.engine e).ceiling < tMb)
  let add (e : Nat) : Charge := { kind := 6, holder := e, sub := histOf t.p.block, mb := tMb }
  (fun c => beyond.any fun e => ofEngine e c, beyond.map add)

def chkEngineMigrate (h : Hdr) (p : EngineMigrateP) (s : State) : Check :=
  match s.task p.engine with
  | none => some (stBadParam, 0)
  | some t =>
    failIf (p.rsvd != 0 || decide (191 < p.target) || p.target % max t.p.gang 1 != 0 || decide (192 < p.target + t.p.gang) ||
      (h.sched && (h.raster != t.p.raster || h.line != 1))) stBadParam
    <|> failIf (t.migrate.isSome || !((spareGroup p t).all fun e => (s.engine e).st == .spare && !s.spareTaken e)) stBusy
    <|> s.admission (s.migrateCharges p t).1 (s.migrateCharges p t).2

/-- A migration becomes resident: its spares load the kernel, and the overlap is charged. -/
def planEngineMigrate (id : Nat) (p : EngineMigrateP) (s : State) : State :=
  match s.task p.engine with
  | none => s
  | some t =>
    let s1 := s.charge (s.migrateCharges p t).1 (s.migrateCharges p t).2
    let s2 := State.each (fun e s => s.setEngine e (loading s.sys.image p.engine t.p.kernel (s.engine e))) (spareGroup p t) s1
    s2.setTask p.engine (some { t with migrate := some (p.target, id) })

def startEngineMigrate (h : Hdr) (p : EngineMigrateP) (s : State) : Ans :=
  match s.task p.engine with
  | none => .fail stBadParam
  | some t => orAns (chkEngineMigrate h p s)
      (.later (planEngineMigrate s.nextJob p s) .apply t.p.raster [s.firstFrame t.p.raster (s.migrateLines t)])

/-- A cancelled migration: the spares return to SPARE at once, at their ceiling (R215). -/
def releaseMigrate (p : EngineMigrateP) (s : State) : State :=
  match s.task p.engine with
  | none => s
  | some t =>
    let es := spareGroup p t
    let back : List Charge := (es.filter fun e => (s.engine e).ceiling != 0).map fun e => { kind := 6, holder := e, mb := (s.engine e).ceiling }
    let s1 := { s with pond := { s.pond with charges := (s.pond.charges.filter fun c => !(es.any fun e => ofEngine e c)) ++ back } }
    let s2 := State.each (fun e s => s.setEngine e { s.engine e with st := .spare, first := 0, kernel := 0, version := 0, verified := false }) es s1
    s2.setTask p.engine (some { t with migrate := none })

/-- A point of a moved task's group takes the same offset of the spares' points. -/
def movePoint (old new gang p : Nat) : Nat :=
  if 512 + 2 * old ≤ p && p < 512 + 2 * old + 2 * gang then p - 2 * old + 2 * new else p

def moveEntry (old new gang : Nat) (e : RouteEntry) : RouteEntry :=
  { e with dest := movePoint old new gang e.dest, src := movePoint old new gang e.src }

/-- A resident action that names the old points names the new ones. -/
def moveParams (old new gang : Nat) : Params → Params
  | .routeTake p => .routeTake { p with entries := p.entries.map (moveEntry old new gang) }
  | .kernelUpdate p => .kernelUpdate { p with engine := if p.engine = old then new else p.engine }
  | q => q

def moveWait (old new gang : Nat) (w : RouteWait) : RouteWait := { w with entry := moveEntry old new gang w.entry }
def moveJob (old new gang : Nat) (j : Job) : Job := if j.sched || j.kind == .apply then { j with params := moveParams old new gang j.params } else j

/-- A spare takes a task over. -/
def taken (target : Nat) (x : Engine) : Engine := { x with st := .bound, first := target, ceiling := 0 }

/-- R214: the switch of a migration at t_eo(F). -/
def State.switchTask (s : State) (e : Nat) (t : Task) (target : Nat) : State :=
  let g := t.p.gang
  let tMb := s.engineCharge t.p
  let olds := gangOf t.p
  let news := (List.range g).map (target + ·)
  let ceil_ (e : Nat) : Nat := max (s.engine e).ceiling tMb
  let rs := State.each (fun (x : Nat × Option Route) (m : State) =>
      m.setRoute (movePoint e target g x.1) (x.2.map fun r => { r with src := movePoint e target g r.src })) s.routes.routes
    { s with routes := { s.routes with routes := [] } }
  let charges := (rs.pond.charges.filter fun c => !((olds ++ news).any fun e => ofEngine e c)) ++
    (if tMb = 0 then [] else news.map fun e => { kind := 6, holder := e, sub := histOf t.p.block, mb := tMb : Charge }) ++
    ((olds.zip news).filter fun x => ceil_ x.2 != 0).map fun x => { kind := 6, holder := x.1, mb := ceil_ x.2 : Charge }
  let s1 := { rs with routes := { rs.routes with waits := rs.routes.waits.map (moveWait e target g) }
                      jobs := rs.jobs.map (moveJob e target g), pond := { rs.pond with charges := charges } }
  let s2 := (s1.setTask e none).setTask target (some { t with p := { t.p with engine := target }, migrate := none, mvBank := 1 - t.mvBank,
                                                                  loaded := false })
  let s3 := State.each (fun (x : Nat × Nat) s =>
      (s.setEngine x.1 { st := .spare, ceiling := ceil_ x.2, slice := (s.engine x.1).slice }).setEngine x.2
        (taken target (s.engine x.2))) (olds.zip news) s2
  (s3.finishLoad target).audit 4 0 e target

/-! ### Known-answer slices (R217, R218) -/

/-- An engine starts its slice. -/
def State.startSlice (s : State) (e : Nat) : State :=
  (s.setEngine e { s.engine e with slice := some s.now }).count 6 e 3

/-- KNOWN_ANSWER_RESULT: the comparison of the running slice is decided. -/
def doKnownAnswer (e : Nat) (ok : Bool) (s : State) : State :=
  match (s.engine e).slice with
  | none => s
  | some _ =>
    let s1 := s.setEngine e { s.engine e with slice := none }
    if ok then s1 else s1.enterFailed 3 e 0

/-- Some engine on the path of output `n` (R393). -/
def State.pathEngines (s : State) : Nat → Nat → List Nat
  | 0, _ => []
  | k + 1, src => match s.eoAt src with
    | some (e, t) => gangOf t.p ++ (match s.route (512 + 2 * e) with
      | some r => State.pathEngines s k r.src
      | none => [])
    | none => []

/-! ### Selection of captured units (R225) -/

def unitReady (mc : Bool) (eo : Int) (u : HUnit) : Bool := decide ((u.done : Int) < eo - 270) && (!mc || u.est)

/-- The unit that follows `a`. -/
def unitAfter (a : HUnit) (l : List HUnit) : Option HUnit :=
  (l.filter fun u => newer u a).foldl (fun b u => match b with
    | some x => if newer x u then some u else some x
    | none => some u) none

/-- Choice of R225: units a and b, alpha in 64ths, and what is counted as substitutions, repeats and drops. -/
structure Choice where
  a : HUnit
  b : Option HUnit
  alpha : Nat
  subs : Nat
  repeats : Nat
  drops : Nat
  deriving DecidableEq, Repr

def chooseUnits (l lost : List HUnit) (lastA : Option HUnit) (mc : Bool) (eo : Int) (lead : Nat) : Option Choice :=
  let ready := unitReady mc eo
  match newestUnit ready l with
  | none => none
  | some fallback =>
    let tau := eo - lead
    let a0 := newestUnit (fun u => decide ((u.start : Int) ≤ tau)) l
    let ok := a0.any ready
    let a1 := if ok then a0.getD fallback else fallback
    let b1 := if ok then (unitAfter a1 l).filter ready else none
    let back := lastA.any fun x => newer x a1
    let a := if back then lastA.getD a1 else a1
    let b := if back then none else b1
    let alpha := match b with
      | some u => min 63 ((64 * (tau - a.start)) / ((u.start : Int) - a.start)).toNat
      | none => 0
    some { a := a, b := b, alpha := alpha, subs := b2n (!ok), repeats := b2n (lastA == some a && b.isNone),
           drops := match lastA with
             | some x => ((l ++ lost).filter fun u => newer u x && newer a u).length
             | none => 0 }

/-! ### Presence (R204 to R207) -/

/-- A take changed the route of an engine input at or after `t`. -/
def State.takenSince (s : State) (dest : Nat) (t : Int) : Bool :=
  s.routes.past.any fun e => e.2.1 == dest && decide (t ≤ (e.1 : Int))

/-- A judged route of an engine input is kept, unless a take has replaced it since `t`. -/
def State.putInput (s : State) (dest : Nat) (t : Int) (r : Route) : State :=
  if s.takenSince dest t then s else s.setRoute dest (some r)

/-- A timed input's route judged at t_in, on what the state strictly before t_in gave (R202, R205, R206); in a pair the LEAD's class and
pick for frame `f` hold (R216). The input frame it gives output frame `f`, and the state with the route judged. -/
def State.judgeInput (s : State) (dest f : Nat) (tIn : Int) : Option Fed × State :=
  let v := s.asOf tIn
  match v.route dest with
  | none => (none, s)
  | some r =>
    let given := s.givenClass dest f
    let r1 := v.judgeAt dest r tIn 32 given
    let pick := match given with
      | some g => g.pick
      | none => r1.resv.bind fun v => pickFrame v.done v.stopT r1.extra r1.last tIn
    match r1.cls with
    | .cut => match v.srcLine1 r.src (tIn - 32) with
      | some (t, k) => (some { src := r.src, frame := k },
          s.putInput dest tIn { r1 with last := some k, played := none, latency := (tIn - t).toNat, loss := 0 })
      | none => (none, s.putInput dest tIn r1)
    | .sync => match r1.resv.bind fun v => (pick.bind (ringFrame v.done)).map fun x => (v, x) with
      | some (v, x) => (some { src := r.src, frame := x.frame, slot := some (slotAddr v.base v.slotSize x.slot, v.fmt) },
          s.putInput dest tIn { r1 with last := some x.frame, played := some x.frame, latency := (tIn - x.line1T).toNat, loss := 0 })
      | none => (none, s.putInput dest tIn { r1 with played := none, latency := 0 })
    | _ => (none, s.putInput dest tIn { r1 with played := none, latency := 0 })

/-- A captured input's route: CUT while its source is present and its format fits; a route that leaves CUT empties the task's
history (R202, R226). -/
def State.judgeCaptured (s : State) (e dest f : Nat) : State :=
  match s.route dest with
  | none => s.dropHistory e
  | some r =>
    let r1 := s.seen.judgeAt dest r s.now 32 none
    let cut : Bool := match s.givenClass dest f with
      | some g => g.cls == .cut
      | none => s.seen.srcPresent r.src && r1.formatOk
    let s1 := s.setRoute dest (some { r1 with cls := if cut then .cut else .none, run := 0, latency := 0, loss := 0 })
    if cut then s1 else s1.dropHistory e

/-- Format check of an input's source against its port, now (R205, second condition), and the source's structure. -/
def State.inputFmt (s : State) (dest g : Nat) : Bool × Option Nat :=
  match s.route dest with
  | some r => match s.srcFmt r.src r.g, s.dstFmt dest g with
    | some a, some b => (fmtFits r.src dest a b && s.srcFormatOk r.src, some (memStructure a.fmt))
    | _, _ => (false, none)
  | none => (false, none)

/-- The first failing condition of R205, 0 when every used input fits; `usable` answers the first condition. -/
def State.absentCause (s : State) (e : Nat) (t : Task) (usable : Bool) : Nat :=
  let (ok0, st0) := s.inputFmt (512 + 2 * e) t.p.in0.g
  let ok1 := t.p.in1.g == 0 || (s.inputFmt (512 + secondPort e t.p.in0.g t.p.in1.g) t.p.in1.g).1
  if !usable then 1
  else if !ok0 || !ok1 then 2
  else if !(st0.any (acceptsStruct t.p)) then 3
  else if 262144 < lineBuffer t.p (st0.getD 0) then 4
  else 0

/-- Actions bound to t_eo(F) of the task at `e`, oldest first. -/
def State.eoJobs (s : State) (e frame : Nat) : List Job :=
  s.jobs.filter fun j => j.kind == .apply && namesTask 1 e j && (match j.params with
    | .routeTake _ => false
    | _ => match j.frame with
      | some f => decide (f ≤ frame)
      | none => decide (j.aux.headD 0 ≤ frame))

/-- An update applies to the running task, and to its spares (R209, R215). -/
def State.applyUpdate (s : State) (e : Nat) (b : KBlock) : State :=
  match s.task e with
  | some t => s.setTask e (some { t with p := { t.p with block := b } })
  | none => s

/-- Step of ENGINE_FRAME_START: the actions at t_eo(F) in residency order; answers where the task now stands. -/
def State.runEo : List Job → Nat → State → Nat × State
  | [], e, s => (e, s)
  | j :: r, e, s =>
    match j.params with
    | .kernelUpdate p => State.runEo r e ((s.applyUpdate e p.block).complete j stOk 0 (some j.raster))
    | .engineMigrate p => match s.task e with
      | some t => State.runEo r p.target ((s.switchTask e t p.target).complete j stOk 0 (some j.raster))
      | none => State.runEo r e s
    | _ => State.runEo r e s

/-- Busy cycles of an engine in a frame: a number the spec does not state (assumption 4). -/
def State.busy (s : State) (e : Nat) : State :=
  let (v, s1) := s.freeNat
  s1.count 6 e 0 v

/-- The output frame F of the task at `e` (R204, R205, R225): every input is judged, units are chosen, presence is decided on the state
strictly before t_eo(F). -/
def State.taskFrame (s : State) (e f : Nat) (eo : Int) : State :=
  match s.task e with
  | none => s
  | some t0 =>
    let d0 := 512 + 2 * e
    let cap := capturedKernel t0.p.block
    let (u0, s1) := if cap then (none, s.judgeCaptured e d0 f) else s.judgeInput d0 f (eo - t0.added)
    let (u1, s2) := if t0.p.in1.g = 0 then (none, s1) else s1.judgeInput (512 + secondPort e t0.p.in0.g t0.p.in1.g) f (eo - t0.added)
    let usable := (cap || u0.isSome) && (t0.p.in1.g == 0 || u1.isSome)
    let t := (s2.task e).getD t0
    let mc := match t.p.block with
      | .frcMc _ => true
      | _ => false
    let ch := if cap && t.loaded then chooseUnits t.history t.lost t.lastA mc eo (s2.leadL t) else none
    let cause := if !t.loaded then 1 else s2.seen.absentCause e t (usable && (!cap || ch.isSome))
    let present := t.loaded && cause == 0
    let lat := match ch with
      | some c => (eo - ((c.b.getD c.a).start : Nat)).toNat
      | none => t.added
    let t1 := { t with present := present, cause := if present then 0 else cause, started := true, frame := f, eoT := eo,
                       latency := if cap then lat else t.added, useB := ch.bind (·.b), sent := 0,
                       made := { frame := f, present := present, block := t.p.block, fed0 := u0, fed1 := u1, a := ch.map (·.a), b := ch.bind (·.b),
                                 alpha := (ch.map (·.alpha)).getD 0 } :: t.made.take 2,
                       lost := t.lost.filter fun u => ch.all fun c => newer u c.a,
                       lastA := (ch.map (·.a)).orElse fun _ => t.lastA }
    let s3 := s2.setTask e (some t1)
    let s3 := match ch with
      | some c => ((s3.count 6 e 4 c.subs).count 6 e 5 c.repeats).count 6 e 6 c.drops
      | none => s3
    let s3 := if t.present && !present then s3.stopWriters (512 + 2 * e) else s3
    let s4 := if present then s3 else s3.count 6 e 1
    let s5 := if (present && !t.present && t.started) || (!present && (t.present || !t.started)) then s4.fire (192 + e) else s4
    State.each (fun k s => if present then (s.startSlice k).busy k else s.startSlice k) (gangOf t.p) s5

/-- Frame F of a raster whose t_eo is due now: the last one that starts by now plus OUT_ADV. -/
def State.eoFrame (s : State) (p : KernelBindP) : Option (Nat × Int) :=
  (s.raster? p.raster).bind fun r =>
    let k : Int := ((s.now : Int) + p.outAdv - r.frameT) / (max (descPeriod r.desc) 1 : Nat)
    let f : Int := (r.frame : Int) + k
    if f < 0 then none else some (f.toNat, r.lineT' f.toNat 1 - p.outAdv)

/-- ENGINE_FRAME_START of an engine with no task, or of a spare: its slice starts. Of the first engine of a task: t_eo(F). -/
def doEngineFrame (e : Nat) (s : State) : State :=
  let x := s.engine e
  if s.sys.quiet != .awake then s
  else match x.st with
    | .free | .spare => s.startSlice e
    | .shadow => s.startSlice e
    | .bound => match s.task e with
      | none => s
      | some t => match s.eoFrame t.p with
        | some (f, eo) =>
          if t.started && f ≤ t.frame then s
          else
            let (e', s1) := State.runEo (s.eoJobs e f) e s
            s1.taskFrame e' f eo
        | none => s

/-- The unit that started first, the earliest listed of several. -/
def older : Option HUnit → HUnit → Option HUnit
  | none, u => some u
  | some x, u => if newer x u then some u else some x

def oldestUnit (l : List HUnit) : Option HUnit := l.foldl older none

/-! ### ENGINE_QUERY (Table 13.8) -/

def EngSt.code : EngSt → Nat
  | .free => 0 | .bound => 1 | .spare => 2 | .shadow => 3

def State.engineRecord (s : State) (e : Nat) : List Byte :=
  let x := s.engine e
  let t := if x.st = .free || x.st = .spare then none else s.task x.first
  leBytes 1 x.st.code ++ leBytes 1 ((t.map fun k => k.p.gang).getD 0) ++ leBytes 2 x.first ++ leBytes 2 x.kernel ++
  leBytes 2 ((t.map fun k => k.p.raster).getD 0) ++ leBytes 4 x.version ++ leBytes 2 ((t.map fun k => k.p.outAdv).getD 0) ++
  leBytes 1 ((t.map (·.cause)).getD 0) ++ leBytes 1 0 ++
  leBytes 4 (if x.st = .spare then x.ceiling else totalMb (s.pond.charges.filter (ofEngine e))) ++ leBytes 4 0 ++
  leBytes 8 (s.counter 6 e 0) ++ leBytes 8 (s.counter 6 e 1) ++ leBytes 8 (s.counter 6 e 2) ++ leBytes 8 (s.counter 6 e 3) ++
  leBytes 8 s.stc

def startEngineQuery (p : EngineQueryP) (s : State) : Ans :=
  orAns (failIf (decide (191 < p.first) || decide (p.count < 1) || decide (192 < p.first + p.count) || p.rsvd != 0) stBadParam)
    (.result s p.res ((List.range p.count).flatMap fun i => s.engineRecord (p.first + i)))

end Sys2Proof.Machine
end

