-- ==== Sys2Proof/Machine/Pixels.lean ====
section
/-! DEFINITION. Pictures and the arithmetic on native components: chroma filters, blending and conversion in a compositor
(chapter 10), and what each kernel of the library computes (chapter 9). Where the spec does not state a value to the bit the
arithmetic calls an opaque function of Config. -/

namespace Sys2Proof.Machine

/-- A picture: active width and height, sampling structure (0 4:2:2, 1 4:4:4, 2 RGBA), and the native component `c` of the pixel
in column `x` of active line `y`. A 4:2:2 pixel has the components C and Y of Table 3.4. -/
structure Pic where
  w : Nat
  h : Nat
  st : Nat
  at_ : Nat → Nat → Nat → Nat

/-- Highest native code. -/
def a20 : Nat := 1048575

def clampNative (v : Int) : Nat := (min (max v 0) a20).toNat

/-- `n / d` rounded half up. -/
def roundUp (n : Int) (d : Nat) : Int := (2 * n + d) / ((2 * d : Nat) : Int)

/-- A column or line index with the edge replicated. -/
def edge (i : Int) (n : Nat) : Nat := (min (max i 0) ((n : Int) - 1)).toNat

def dot (l : List (Int × Int)) : Int := l.foldl (fun a x => a + x.1 * x.2) 0

/-! ### CHROMA filters (Table 9.12) -/

/-- Chroma sample `i` of line `y` of a 4:2:2 picture: component 1 Cb, 2 Cr. -/
def chroma422 (p : Pic) (c y : Nat) (i : Int) : Int := p.at_ (2 * edge i (ceilDiv p.w 2) + (c - 1)) y 0

/-- Horizontal up of FILTER 0 (or sample repeat) at column `x`. -/
def chromaUp (filter : Nat) (sample : Int → Int) (x : Nat) : Int :=
  let i : Int := (x / 2 : Nat)
  if x % 2 = 0 || filter = 1 then sample i
  else roundUp (dot ([(-3, -3), (-2, 12), (-1, -37), (0, 156), (1, 156), (2, -37), (3, 12), (4, -3)].map
    fun t => (t.2, sample (i + t.1)))) 256

/-- Horizontal down at an even column `x`. -/
def chromaDown (filter : Nat) (full : Int → Int) (x : Nat) : Int :=
  if filter = 1 then full x
  else roundUp (dot ([(-5, 1), (-3, -9), (-1, 40), (0, 64), (1, 40), (3, -9), (5, 1)].map
    fun t => (t.2, full ((x : Int) + t.1)))) 128

/-- Component `c` (0 Y, 1 Cb, 2 Cr) of a 4:2:2 picture reconstructed to 4:4:4. -/
def full422 (filter : Nat) (p : Pic) (x y c : Nat) : Nat :=
  if c = 0 then p.at_ x y 1 else clampNative (chromaUp filter (chroma422 p c y) x)

/-- A picture in 4:4:4, alpha kept. -/
def to444 (filter : Nat) (p : Pic) : Pic :=
  if p.st = 0 then { p with st := 1, at_ := full422 filter p } else p

/-- A 4:4:4 picture decimated to 4:2:2. -/
def to422 (filter : Nat) (p : Pic) : Pic :=
  let pixel (x y c : Nat) : Nat :=
    if c = 1 then p.at_ x y 0
    else
      let comp := if x % 2 = 0 then 1 else 2
      clampNative (chromaDown filter (fun i => (p.at_ (edge i p.w) y comp : Nat)) (x - x % 2))
  { p with st := 0, at_ := pixel }

/-! ### Blending (R259) -/

/-- `blend`. -/
def blend (d p z a galpha : Nat) : Nat :=
  let ga : Nat := (a * galpha + 2048) / 4096
  let s : Int := (((p : Int) - z) * galpha + 2048) / 4096
  let k : Int := (((d : Int) - z) * (a20 - ga : Nat) + 524287) / (a20 : Nat)
  clampNative (z + s + k)

/-- `blend_alpha`. -/
def blendAlpha (d a galpha : Nat) : Nat :=
  let ga := (a * galpha + 2048) / 4096
  ga + (d * (a20 - ga) + 524287) / a20

/-! ### Angles (R250, R293) -/

/-- 2^140 π, to the nearest. -/
def piFix : Nat := 4378741080330103799233250808471022728399425

/-- Terms `k` on of the cosine series at 2^140, of which `term` is the first and `x2` the square of the angle. -/
def cosTail (x2 : Int) : Nat → Int → Int → Int
  | 0, _, _ => 0
  | fuel + 1, k, term => term + cosTail x2 fuel (k + 1) (-(term * x2) / (2 ^ 140 * ((2 * k + 1) * (2 * k + 2))))

/-- The cosine of π × num / den at 2^100, to the nearest: exact where the cosine is 0, 1/2 or 1. -/
def cosPi (num den : Nat) : Int :=
  let x : Int := ((piFix * (num % (2 * den)) / den : Nat) : Int)
  roundUp (cosTail (x * x / 2 ^ 140) 60 0 (2 ^ 140)) (2 ^ 40)

/-- The sine of an angle of `deg` degrees, and its cosine, at 2^100. -/
def cosDeg (deg : Nat) : Int := cosPi deg 180
def sinDeg (deg : Nat) : Int := cosPi (deg + 270) 180

/-- 1 / tan of half an angle of `deg` degrees, from 1 to 90, at 2^100. -/
def cotHalfDeg (deg : Nat) : Int := roundUp (cosPi deg 360 * 2 ^ 100) (cosPi (deg + 540) 360).toNat

/-! ### Kernel matrices (R250) -/

/-- kr, kgb, kgr, kb in 100,000ths. -/
def matrixCoef (matrix : Nat) : Int × Int × Int × Int :=
  if matrix = 0 then (157480, 18730, 46810, 185560) else (147460, 16455, 57135, 188140)

/-- Luma and chroma scales of a tag's range, in native codes. -/
def rangeScale (tag : Nat) : Nat × Nat := if tagFull tag then (1047552, 1047552) else (897024, 917504)

/-- The components of a premultiplied YCbCr pixel as R, G, B about black, by the matrix of its tag's colorimetry (R258, R250). -/
def matrixToRgb (tag : Nat) (v : List Int) : List Nat :=
  let (kr, kgb, kgr, kb) := matrixCoef (tag % 4)
  let (l, k) := rangeScale tag
  let y := v.getD 0 0 * 100000 * k
  let cb := (v.getD 1 0 - 524288) * l
  let cr := (v.getD 2 0 - 524288) * l
  [y + kr * cr, y - kgb * cb - kgr * cr, y + kb * cb].map fun n => clampNative (roundUp n (100000 * k))

/-- The components of a premultiplied RGB pixel as Y, Cb, Cr about black, by the inverse of `matrixToRgb`. -/
def matrixToYcc (tag : Nat) (v : List Int) : List Nat :=
  let (kr, kgb, kgr, kb) := matrixCoef (tag % 4)
  let (l, k) := rangeScale tag
  let z : Int := blackOf tag 0
  let r := v.getD 0 0 - z
  let g := v.getD 1 0 - z
  let b := v.getD 2 0 - z
  let d := kb * kr + kgb * kr + kgr * kb
  let y := g * kb * kr + b * kgb * kr + r * kgr * kb
  [clampNative (z + roundUp y d.toNat), clampNative (524288 + roundUp ((b * d - y) * 100000 * k) (kb * d * l).toNat),
   clampNative (524288 + roundUp ((r * d - y) * 100000 * k) (kr * d * l).toNat)]

/-- Red, green and blue less narrow-range black, over 917,504 × 100,000, from Y, Cb, Cr less their zero points. -/
def rgbOver (matrix : Nat) (y cb cr : Int) : List Int :=
  let (kr, kgb, kgr, kb) := matrixCoef matrix
  let l := y * 917504 * 100000
  [l + 2 * kr * cr * 897024, l - 2 * kgb * cb * 897024 - 2 * kgr * cr * 897024, l + 2 * kb * cb * 897024]

/-- A rational clamped to [0, 1], as numerator over its own denominator. -/
def unit01 (n : Int) (d : Nat) : Int := min (max n 0) d

/-- The denominator of the key value: every division of R250 up to it. -/
def keyUnit : Nat := 897024 * 917504 * 2 ^ 100

/-- The key value k of R250 over `keyUnit`, and the fill's chroma after spill suppression in 2^-100ths of a native code. -/
def keyValue (b : KeyBlk) (y cb cr y1 : Int) : Int × Int × Int :=
  let c := cb - 524288
  let r := cr - 524288
  let plain (v : Int) : Int × Int × Int := ((v - 65536) * 917504 * 2 ^ 100, c * 2 ^ 100, r * 2 ^ 100)
  match b.mode with
  | 0 => plain y
  | 2 => plain y1
  | _ =>
    let p := c * cosDeg b.hue + r * sinDeg b.hue
    let q := Int.natAbs (r * cosDeg b.hue - c * sinDeg b.hue)
    let half := p - q * cotHalfDeg b.accept / 2 ^ 100
    let cut := if b.spill = 1 && 0 < half then half else 0
    (2 * half * 897024, c * 2 ^ 100 - cut * cosDeg b.hue / 2 ^ 100, r * 2 ^ 100 - cut * sinDeg b.hue / 2 ^ 100)

/-- KEY (R250): R, G, B, A of one pixel from the fill's Y, Cb, Cr and the key signal's first component. -/
def keyPixel (b : KeyBlk) (y cb cr y1 : Int) : List Nat :=
  let (k, c, r) := keyValue b y cb cr y1
  let d : Nat := 16 * 2 ^ 20 * keyUnit
  let a0 := unit01 ((k * 2 ^ 20 - b.clip * keyUnit) * b.gain) d
  let a1 := if b.mode = 1 then d - a0 else a0
  let a := if b.invert = 1 then d - a1 else a1
  let rgb := rgbOver b.matrix ((y - 65536) * 2 ^ 100) c r
  rgb.map (fun v => clampNative (65536 + roundUp (v * a) (917504 * 100000 * 2 ^ 100 * d))) ++ [clampNative (roundUp (a * a20) d)]

/-! ### SCALE (R232, R233) -/

/-- Position over a crop of `size` from `first`, in 64ths, of the output sample of `n` whose centre lies `centre` half samples from the start
of the destination. -/
def scalePos (centre n size first : Nat) : Int := 64 * first + 64 * ((centre * size : Nat) - (n : Int)) / ((2 * n : Nat) : Int)

/-- The filter's cutoff as a fraction of the input Nyquist frequency: min(1, output / crop) × (0.85 + 0.02 × SHARP). -/
def scaleCutoff (sharp size n : Nat) : Nat × Nat := (min n size * (85 + 2 * sharp), size * 100)

/-- Coefficients that a phase may have: 18-bit signed, with the sum 2^15. -/
def phaseOk (taps : Nat) (l : List Int) : Bool :=
  l.length == taps && l.all (fun c => decide (-131072 ≤ c) && decide (c < 131072)) && l.foldl (· + ·) 0 == 2 ^ 15

/-- Coefficients of one phase: whatever the window gives within the bounds that R233 states. -/
def phaseCoefs (taps sharp size n phase : Nat) : List Int :=
  let (a, b) := scaleCutoff sharp size n
  let l := Config.coefficients taps a b phase
  if phaseOk taps l then l else (List.range taps).map fun k => if k + 1 = taps / 2 then 2 ^ 15 else 0

/-- One filtered sample: taps around the position, the crop's edge replicated. -/
def scaleTap (taps sharp centre n size first : Nat) (sample : Nat → Nat) : Nat :=
  let pos := scalePos centre n size first
  let at0 := pos / 64 - (taps / 2 : Nat) + 1
  let clip (k : Int) : Nat := (min (max k first) ((first + size : Nat) - 1 : Int)).toNat
  let cs := phaseCoefs taps sharp size n (pos % 64).toNat
  clampNative (roundUp (dot (mapAt (fun k x => ((x : Int × Int).1, (sample (clip (at0 + k)) : Int))) 0 (cs.map fun c => (c, 0)))) (2 ^ 15))

/-- SCALE at an output pixel. The chroma of a 4:2:2 pixel lies where its column's pair lies, Cb in even columns of the output and Cr in odd
ones, wherever a derived DX puts the destination. -/
def scalePixel (b : ScaleBlk) (wo ho tag : Nat) (p : Pic) (x y c : Nat) : Nat :=
  let r := scaleRect b wo ho
  if x < r.dx || r.dx + r.dw ≤ x || y < r.dy || r.dy + r.dh ≤ y then
    (if p.st = 0 then (if c = 0 then blackOf tag 1 else blackOf tag 0) else blackOf tag c)
  else
    let line (yy : Nat) : Nat :=
      if p.st = 0 && c = 0 then
        scaleTap b.htaps b.sharp (2 * (x / 2) + 1 - r.dx) (r.dw / 2) (r.cw / 2) (r.cx / 2) (fun k => p.at_ (2 * k + x % 2) yy 0)
      else scaleTap b.htaps b.sharp (2 * (x - r.dx) + 1) r.dw r.cw r.cx (fun k => p.at_ k yy c)
    scaleTap b.vtaps b.sharp (2 * (y - r.dy) + 1) r.dh r.ch r.cy line

/-! ### Transfer functions (R245, Table 9.10), in fixed point at 2^64 -/

/-- The natural logarithms of 2 and 10 at 2^64, to the nearest. -/
def ln2Fix : Int := 12786308645202655660
def ln10Fix : Int := 42475197399893398429

/-- Terms of the inverse hyperbolic tangent from `term` on, the power `2 * k + 1` of its argument, whose square is `z2`. -/
def atanhTail (z2 : Int) : Nat → Nat → Int → Int
  | 0, _, _ => 0
  | fuel + 1, k, term => term / (2 * k + 1 : Nat) + atanhTail z2 fuel (k + 1) (term * z2 / 2 ^ 64)

/-- The natural logarithm of n / d, both positive: that of a part between 1/2 and 2, and whole powers of 2. -/
def lnFix (n d : Nat) : Int :=
  let i := Nat.log2 n
  let j := Nat.log2 d
  let a : Int := n * 2 ^ (j - i)
  let b : Int := d * 2 ^ (i - j)
  let z := (a - b) * 2 ^ 64 / (a + b)
  ((i : Int) - j) * ln2Fix + 2 * atanhTail (z * z / 2 ^ 64) 40 0 z

/-- Terms of the exponential series from `term` on, the `k`-th. -/
def expTail (x : Int) : Nat → Nat → Int → Int
  | 0, _, _ => 0
  | fuel + 1, k, term => term + expTail x fuel (k + 1) (term * x / (2 ^ 64 * ((k + 1 : Nat) : Int)))

/-- e to the power `x`. -/
def expFix (x : Int) : Int :=
  let k := x / ln2Fix
  let m := expTail (x - k * ln2Fix) 40 0 (2 ^ 64)
  if 0 ≤ k then m * 2 ^ k.toNat else m / 2 ^ (-k).toNat

/-- The power `p / q` of a value, 0 of a value that is not positive. -/
def powFix (x : Int) (p q : Int) : Int := if x ≤ 0 then 0 else expFix (lnFix x.toNat (2 ^ 64) * p / q)

def clampFix (x : Int) : Int := min (max x 0) (2 ^ 64)

/-- Relative luminance of BT.2100. -/
def lumaOf (v : List Int) : Int := (2627 * v.getD 0 0 + 6780 * v.getD 1 0 + 593 * v.getD 2 0) / 10000

/-- HLG's system gamma. -/
def hlgGamma (lw : Nat) : Int := 12 * 2 ^ 64 / 10 + 42 * (lnFix lw 1000 * 2 ^ 64 / ln10Fix) / 100

/-- The PQ EOTF of BT.2100 of a signal, as light of 10,000 cd/m². -/
def pqDecode (e : Int) : Int :=
  let n := powFix e 32 2523
  let num := n - 3424 * 2 ^ 64 / 4096
  let den := 2413 * 2 ^ 64 / 128 - 2392 * n / 128
  powFix (num * 2 ^ 64 / max den 1) 16384 2610

def pqEncode (l : Int) : Int :=
  let y := powFix l 2610 16384
  powFix ((3424 * 2 ^ 64 / 4096 + 2413 * y / 128) * 2 ^ 64 / (2 ^ 64 + 2392 * y / 128)) 2523 32

/-- HLG's inverse OETF and OETF; a, b and c of BT.2100 are 0.17883277, 0.28466892 and 0.55991073. -/
def hlgInverse (e : Int) : Int :=
  if 2 * e ≤ 2 ^ 64 then e * e / (3 * 2 ^ 64)
  else (expFix ((e - 55991073 * 2 ^ 64 / 100000000) * 100000000 / 17883277) + 28466892 * 2 ^ 64 / 100000000) / 12

def hlgForward (x : Int) : Int :=
  if 12 * x ≤ 2 ^ 64 then powFix (3 * x) 1 2
  else lnFix (12 * x - 28466892 * 2 ^ 64 / 100000000).toNat (2 ^ 64) * 17883277 / 100000000 + 55991073 * 2 ^ 64 / 100000000

/-- The error of the device's polynomials, within 2 native codes, in 2^-16ths of a code. -/
def curveError (decodes : Bool) (tf : Nat) (v : Int) : Int := min (max (Config.curveError decodes tf v.toNat) (-131072)) 131072

/-- DECODE of three native components to light, 1.0 being 10,000 cd/m². -/
def decodeLight (tf white lw : Nat) (v : List Int) : List Int :=
  let e := v.map fun x => clampFix ((x * 65536 + curveError true tf x) * 2 ^ 28)
  match tf with
  | 0 => e.map fun x => white * powFix x 12 5 / 10000
  | 1 => e.map pqDecode
  | _ =>
    let l := e.map hlgInverse
    let gain := powFix (lumaOf l) (hlgGamma lw - 2 ^ 64) (2 ^ 64)
    l.map fun x => clampFix (lw * (x * gain / 2 ^ 64) / 10000)

/-- ENCODE of three components of light: light above the encoding's peak clips. -/
def encodeLight (tf white lw : Nat) (l : List Int) : List Int :=
  let e := match tf with
    | 0 => l.map fun x => powFix (clampFix (x * 10000 / (max white 1 : Nat))) 5 12
    | 1 => l.map fun x => pqEncode (clampFix x)
    | _ =>
      let f := l.map fun x => clampFix (x * 10000 / (max lw 1 : Nat))
      let g := hlgGamma lw
      let gain := powFix (lumaOf f) (2 ^ 64 - g) g
      f.map fun x => hlgForward (clampFix (x * gain / 2 ^ 64))
  e.map fun x => ((clampNative (roundUp (x + curveError false tf (x / 2 ^ 44) * 2 ^ 28) (2 ^ 44)) : Nat) : Int)

/-! ### COLOR (R244 to R246) -/

def matrixStage (m o : List Int) (v : List Int) : List Int :=
  (List.range 3).map fun i =>
    (clampNative (roundUp (dot ((List.range 3).map fun k => (m.getD (3 * i + k) 0, v.getD k 0))) (2 ^ 15) + o.getD i 0) : Nat)

/-- LUT entry of a grid point, native (R246). -/
def lutEntry (l : List Nat) (i0 i1 i2 c : Nat) : Int := l.getD (3 * (i0 + 33 * i1 + 1089 * i2) + c) 0 * 16

/-- Tetrahedral interpolation: the three axes in falling order of their fractions. -/
def lutStage (l : List Nat) (v : List Int) : List Int :=
  let ix := v.map fun x => min (x.toNat / 32768) 31
  let fr := v.map fun x => x.toNat - 32768 * min (x.toNat / 32768) 31
  let f (k : Nat) : Nat := fr.getD k 0
  let order := if f 1 ≤ f 0 then (if f 2 ≤ f 1 then [0, 1, 2] else if f 2 ≤ f 0 then [0, 2, 1] else [2, 0, 1])
    else (if f 2 ≤ f 0 then [1, 0, 2] else if f 2 ≤ f 1 then [1, 2, 0] else [2, 1, 0])
  let pt (axes : List Nat) (c : Nat) : Int :=
    let g (k : Nat) : Nat := ix.getD k 0 + b2n (axes.contains k)
    lutEntry l (g 0) (g 1) (g 2) c
  let o (k : Nat) : Nat := order.getD k 0
  (List.range 3).map fun c =>
    let p0 := pt [] c
    let p1 := pt [o 0] c
    let p2 := pt [o 0, o 1] c
    let p3 := pt [0, 1, 2] c
    (clampNative (roundUp (p0 * 32768 + (p1 - p0) * f (o 0) + (p2 - p1) * f (o 1) + (p3 - p2) * f (o 2)) 32768) : Nat)

/-- The GAMUT stage on linear light, clamped to the range of light. -/
def gamutStage (m : List Int) (v : List Int) : List Int :=
  (List.range 3).map fun i => clampFix (roundUp (dot ((List.range 3).map fun k => (m.getD (3 * i + k) 0, v.getD k 0))) (2 ^ 15))

/-- The stages that act on linear light. DESIGN CHOICE (assumption 5): between a native value and light at 2^64, without DECODE or ENCODE, the
value stands for itself as a part of the range. -/
def lightStages (b : ColorBlk) (v : List Int) : List Int :=
  let on (k : Nat) : Bool := b.stages.testBit k
  let v1 := if on 1 then decodeLight b.decodeTf b.sdrWhite b.hlgLw v else v.map (· * 2 ^ 44)
  let v2 := if on 2 then gamutStage b.gamut v1 else v1
  if on 3 then encodeLight b.encodeTf b.sdrWhite b.hlgLw v2 else v2.map fun x => ((clampNative (roundUp x (2 ^ 44)) : Nat) : Int)

/-- The enabled stages of Table 9.10 on three components. -/
def colorStages (b : ColorBlk) (v : List Int) : List Int :=
  let on (k : Nat) : Bool := b.stages.testBit k
  let v1 := if on 0 then matrixStage b.inMatrix b.inOffset v else v
  let v4 := if on 1 || on 2 || on 3 then lightStages b v1 else v1
  let v5 := if on 4 then lutStage b.lut v4 else v4
  if on 5 then matrixStage b.outMatrix b.outOffset v5 else v5

def colorPixel (b : ColorBlk) (p : Pic) (x y c : Nat) : Nat :=
  if c = 3 then p.at_ x y 3
  else clampNative ((colorStages b ((List.range 3).map fun k => (p.at_ x y k : Int))).getD c 0)

def colorPic (b : ColorBlk) (p : Pic) : Pic :=
  if b.stages = 0 then p
  else
    let q := to444 0 p
    let r : Pic := { q with at_ := colorPixel b q }
    if p.st = 0 then to422 0 r else r

/-! ### CHROMA (R247, R248) -/

/-- Fields of a picture: the first line and the length of the field that holds line `y`. -/
def fieldOf (h : Nat) (fields : Bool) (y : Nat) : Nat × Nat :=
  if !fields then (0, h) else if y < ceilDiv h 2 then (0, ceilDiv h 2) else (ceilDiv h 2, h / 2)

/-- Chroma of a 4:2:0 carrier raised to every line: `c` of the pair that holds line `y`, vertically filtered. -/
def up420 (filter : Nat) (fields : Bool) (p : Pic) (x y : Nat) : Nat :=
  let (f0, n) := fieldOf p.h fields y
  let k := y - f0
  let pairs := ceilDiv n 2
  let pair (j : Int) : Int := p.at_ x (f0 + 2 * edge j pairs) 0
  let j : Int := (k / 2 : Nat)
  if filter = 1 then (pair j).toNat
  else clampNative (roundUp (3 * pair j + (if k % 2 = 0 then pair (j - 1) else pair (j + 1))) 4)

/-- Chroma of a line pair for a 4:2:0 carrier. -/
def down420 (filter : Nat) (fields : Bool) (h : Nat) (chroma : Nat → Nat) (y : Nat) : Nat :=
  let (f0, n) := fieldOf h fields y
  let j := (y - f0) / 2
  let c (i : Int) : Int := chroma (f0 + edge i n)
  if filter = 1 then (c (2 * j : Nat)).toNat
  else clampNative (roundUp (c ((2 * j : Nat) - 1 : Int) + 3 * c (2 * j : Nat) + 3 * c (2 * j + 1 : Nat) + c (2 * j + 2 : Nat)) 8)

def chromaPic (b : ChromaBlk) (fields : Bool) (out : Nat) (p : Pic) : Pic :=
  let p1 : Pic := if b.in420 = 1 && p.st = 0 then { p with at_ := fun x y c => if c = 0 then up420 b.filter fields p x y else p.at_ x y c } else p
  let p2 : Pic := if out = 2 then { p1 with st := 2, at_ := fun x y c => if c = 3 then a20 else p1.at_ x y c }
    else if out = 1 then (if p1.st = 0 then to444 b.filter p1 else { p1 with st := 1 })
    else if p1.st = 0 then p1 else to422 b.filter p1
  if b.out420 = 1 then { p2 with at_ := fun x y c => if c = 0 then down420 b.filter fields p2.h (fun i => p2.at_ x i 0) y else p2.at_ x y c }
  else p2

/-! ### KEY -/

def keyPic (b : KeyBlk) (fill : Pic) (key : Option Pic) : Pic :=
  let f := to444 0 fill
  let y1 (x y : Nat) : Int := match key with
    | some k => if k.st = 0 then k.at_ x y 1 else k.at_ x y 0
    | none => 0
  { w := fill.w, h := fill.h, st := 2,
    at_ := fun x y c => (keyPixel b (f.at_ x y 0) (f.at_ x y 1) (f.at_ x y 2) (y1 x y)).getD c 0 }

/-! ### FRC_BLEND and FRC_MC (R241, R243) -/

/-- Blend at phase alpha in 64ths. -/
def mix64 (alpha a b : Nat) : Nat := clampNative (roundUp ((64 - alpha : Nat) * (a : Int) + alpha * b) 64)

/-- Confidence of block `k` of the frame between two units, 0 to 255 (R241). -/
def confidence (version : Nat) (a q : Pic) (k : Nat) : Nat := Config.blockConfidence version a.at_ q.at_ k % 256

/-- The mean confidence of a frame of `n` blocks lies below CONF: the whole frame is made by the fallback. -/
def meanBelow (conf version n : Nat) (a q : Pic) : Bool :=
  decide (total (confidence version a q) (List.range n) < conf * n)

/-- The fallback of FRC_MC: a blend, or the nearest frame. -/
def fallbackAt (b : FrcMcBlk) (alpha : Nat) (a q : Pic) (x y c : Nat) : Nat :=
  if b.fallback = 0 then mix64 alpha (a.at_ x y c) (q.at_ x y c) else if alpha < 32 then a.at_ x y c else q.at_ x y c

/-- FRC_MC between two units at phase alpha (R241): a block below CONF uses the fallback for itself. -/
def motionPic (b : FrcMcBlk) (version alpha : Nat) (a : Pic) (q : Pic) : Pic :=
  let n := blocksOf a.w a.h
  let whole := meanBelow b.conf version n a q
  { a with at_ := fun x y c =>
      if whole || decide (confidence version a q (y / 16 * ceilDiv a.w 16 + x / 16) < b.conf) then fallbackAt b alpha a q x y c
      else Config.motionPixel version a.at_ q.at_ alpha y x c % 2 ^ 20 }

/-- Fallback frames and blocks that a frame between two units counts. -/
def fallbackCounts (b : FrcMcBlk) (version : Nat) (a q : Pic) : Nat × Nat :=
  let n := blocksOf a.w a.h
  if meanBelow b.conf version n a q then (1, 0)
  else (0, ((List.range n).filter fun k => decide (confidence version a q k < b.conf)).length)

def frcPic (mode alpha : Nat) (a : Pic) (b : Option Pic) : Pic :=
  match b with
  | none => a
  | some q => if mode = 0 then (if alpha < 32 then a else q) else { a with at_ := fun x y c => mix64 alpha (a.at_ x y c) (q.at_ x y c) }

/-! ### DEINT (R237) -/

/-- Luma, or first component, of a picture. -/
def lumaAt (p : Pic) (x y : Nat) : Int := if p.st = 0 then p.at_ x y 1 else p.at_ x y 0

/-- A field of a frame as stored: picture line of the field's line `k`. -/
def fieldLine (h field k : Nat) : Nat := if field = 0 then k else ceilDiv h 2 + k

/-- The spatial sample of a line that the current field lacks, at picture line `y` of the deinterlaced frame: the sum of the two samples whose
mean it is, rounded only with the result. -/
def spatial (b : DeintBlk) (cur : Pic) (field x y c : Nat) : Int :=
  let n := if field = 0 then ceilDiv cur.h 2 else cur.h / 2
  let above : Int := if field = 0 then ((y : Int) - 1) / 2 else (y : Int) / 2 - 1
  let below : Int := if field = 0 then ((y : Int) + 1) / 2 else (y : Int) / 2
  let line (k : Int) (i : Int) : Int := lumaAt cur (edge i cur.w) (fieldLine cur.h field (edge k n))
  let slope : Int := if b.edge = 1 then min (max (Config.edgeSlope (line above) (line below) x) (-2)) 2 else 0
  let step : Int := if cur.st = 0 && c = 0 then 2 * slope else slope
  let g (k : Int) (dx : Int) : Int := cur.at_ (edge ((x : Int) + dx) cur.w) (fieldLine cur.h field (edge k n)) c
  g above (-step) + g below step

/-- DEINT of field `field` of unit picture `cur`, with the fields one and two before it where history holds them, and the partner field
of a locked cadence (R237). -/
def deintPixel (b : DeintBlk) (cur : Pic) (field : Nat) (prev prev2 partner : Option Pic) (x y c : Nat) : Nat :=
  let mine := y % 2 == field
  if mine then cur.at_ x (fieldLine cur.h field (y / 2)) c
  else
    let other := 1 - field
    let opposite (p : Pic) : Int := (p.at_ x (fieldLine cur.h other (y / 2)) c : Int)
    let sp := spatial b cur field x y c
    match partner with
    | some p => clampNative (opposite p)
    | none =>
      match prev.map opposite with
      | none => clampNative (roundUp sp 2)
      | some wv =>
        match prev2 with
        | none => clampNative (roundUp sp 2)
        | some q =>
          let n := if field = 0 then ceilDiv cur.h 2 else cur.h / 2
          let nb : List (Int × Int) := [(-1, -1), (0, -1), (1, -1), (-1, 0), (0, 0), (1, 0), (-1, 1), (0, 1), (1, 1)]
          let diff (d : Int × Int) : Int :=
            let xx := edge ((x : Int) + d.1) cur.w
            let yy := fieldLine cur.h field (edge (((y / 2 : Nat) : Int) + d.2) n)
            Int.natAbs (lumaAt cur xx yy - lumaAt q xx yy)
          let m9 := (nb.map diff).foldl (· + ·) 0
          let den : Nat := 9 * 65536
          let am := unit01 ((m9 - 9 * 256 * b.mthresh) * b.mgain) den
          clampNative (roundUp (am * sp + 2 * (den - am) * wv) (2 * den))

end Sys2Proof.Machine
end

