-- ==== Sys2Proof/Machine/Layers.lean ====
section
/-! DEFINITION. Layers, Sluice flips, fences and atomic groups (chapter 10): their commands, the decision line, and what a frame
start of the output does. The image of a static run is in Static. -/

namespace Sys2Proof.Machine

/-! ### Access -/

def State.compOut (s : State) (n : Nat) : CompOut := fget {} s.comp.outs n
def State.setCompOut (s : State) (n : Nat) (c : CompOut) : State := { s with comp := { s.comp with outs := fset {} s.comp.outs n c } }
def layerOf (c : CompOut) (l : Nat) : Layer := c.layers.getD (l - 1) {}
def setLayer (c : CompOut) (l : Nat) (x : Layer) : CompOut := { c with layers := setAt c.layers (l - 1) x }
def setAttr (c : CompOut) (l : Nat) (a : LayerAttr) : CompOut := setLayer c l { layerOf c l with a := a }
def runAt (c : CompOut) (k : Nat) : Option StaticRun := c.runs.getD k none
def setRun (c : CompOut) (k : Nat) (r : Option StaticRun) : CompOut := { c with runs := setAt c.runs k r }
def layerNos : List Nat := [1, 2, 3, 4, 5, 6, 7]

def State.modLayer (s : State) (n l : Nat) (f : Layer → Layer) : State :=
  let c := s.compOut n
  s.setCompOut n (setLayer c l (f (layerOf c l)))

def State.modRun (s : State) (n k : Nat) (f : StaticRun → StaticRun) : State :=
  let c := s.compOut n
  s.setCompOut n (setRun c k ((runAt c k).map f))

/-- The output's colour-space tag, and its sampling structure. -/
def State.outTag (s : State) (n : Nat) : Nat := ((s.txStream n).map fun x => x.cfg.tag).getD 0
def State.outStructure (s : State) (n : Nat) : Nat := ((s.txStream n).map fun x => modeStructure x.cfg.mode).getD 0

/-! ### Static layers (R273) -/

def inRange (r : StaticRun) (a : LayerAttr) : Bool := decide (r.zlo ≤ a.z) && decide (a.z ≤ r.zhi)
def isStatic (r : StaticRun) (a : LayerAttr) : Bool := inRange r a && a.enable && a.buf.isSome

/-- The run whose range holds a layer's Z. -/
def rangeRun (c : CompOut) (a : LayerAttr) : Option Nat := [0, 1].find? fun k => (runAt c k).any fun r => inRange r a

def staticLayers (c : CompOut) (r : StaticRun) : List (Nat × LayerAttr) :=
  layerNos.filterMap fun l => let a := (layerOf c l).a
    if isStatic r a then some (l, a) else none

/-- The attributes under which a layer is still shown alone though its run is not yet flattened (R277). -/
def frozenAttr (c : CompOut) (l : Nat) : Option LayerAttr :=
  c.runs.findSome? fun r => r.bind fun (x : StaticRun) => (x.indiv.find? fun e => e.1 == l).map (·.2)

/-- The layer is part of an image that is shown. -/
def inImage (c : CompOut) (l : Nat) : Bool :=
  c.runs.any fun r => r.any fun (x : StaticRun) => x.shown.isSome && x.built.any fun e => e.1 == l

/-- The attributes under which a layer is shown by its own reader (R251), none when it is not. -/
def shownAttr (c : CompOut) (l : Nat) : Option LayerAttr :=
  match frozenAttr c l with
  | some a => some a
  | none =>
    let a := (layerOf c l).a
    if !inImage c l && a.enable && a.buf.isSome && (rangeRun c a).isNone then some a else none

/-- R257: the output has an active overlay. -/
def overlayActive (c : CompOut) : Bool :=
  (layerNos.any fun l => (shownAttr c l).isSome) || c.runs.any fun r => r.any fun (x : StaticRun) => x.shown.isSome

/-! ### Layer reader charges (R254, R263, Table 7.6) -/

def bufWidth (s : State) (h : Nat) : Nat := ((s.bufAt h).map fun b => b.params.width).getD 0

/-- Charge of a reader of buffer `h` under a crop. -/
def State.readerMb (s : State) (n h : Nat) (crop : Option (Nat × Nat × Nat × Nat)) : Nat :=
  match s.bufAt h, s.outRaster n with
  | some b, some o => layerCharge ((crop.map fun c => c.2.2.1).getD b.params.width) b.params.format o.desc
  | _, _ => 0

def cropOf (g : LayerGeom) : Nat × Nat × Nat × Nat := (g.cropX, g.cropY, g.cropW, g.cropH)
def cropAfter (a : LayerAttr) (g : Option LayerGeom) : Option (Nat × Nat × Nat × Nat) :=
  match g with
  | some x => some (cropOf x)
  | none => a.crop

/-- The larger of the charges that a reader may need, with the buffer it reads. -/
def maxNeed : List (Nat × Nat) → Option (Nat × Nat)
  | [] => none
  | x :: r => match maxNeed r with
    | some y => if x.2 < y.2 then some y else some x
    | none => some x

def flipsOf (x : Layer) : List Flip := x.pend.toList ++ x.decided.toList

/-- The reader that layer `l` holds in a configuration: its buffer and charge. -/
def State.needOf (s : State) (n : Nat) (c : CompOut) (l : Nat) : Option (Nat × Nat) :=
  match frozenAttr c l with
  | some a => a.buf.map fun h => (h, s.readerMb n h a.crop)
  | none =>
    let x := layerOf c l
    if x.a.enable && (rangeRun c x.a).isNone then
      maxNeed ((x.a.buf.toList.map fun h => (h, s.readerMb n h x.a.crop)) ++
        (flipsOf x).map fun f => (f.p.buf, s.readerMb n f.p.buf (cropAfter x.a f.p.geom)))
    else none

/-! ### What a command leaves -/

def entryAttr (old : LayerAttr) (e : LayerEntry) : LayerAttr :=
  { enable := e.enable, follow := e.follow, z := e.z, tag := some e.tag, x := e.geom.x, y := e.geom.y,
    crop := some (cropOf e.geom), galpha := e.geom.galpha,
    buf := if e.setBuf then (if e.buf = 0 then none else some e.buf) else old.buf,
    slot := if e.setBuf then e.slot else old.slot }

def withEntries (c : CompOut) (es : List LayerEntry) : CompOut :=
  es.foldl (fun c e => setAttr c e.layer (entryAttr (layerOf c e.layer).a e)) c

/-- The attributes a flip leaves: its target, and its geometry with GEOM. -/
def flipAttr (a : LayerAttr) (p : LayerFlipP) (slot : Nat) : LayerAttr :=
  let b := { a with buf := some p.buf, slot := slot }
  match p.geom with
  | some g => { b with x := g.x, y := g.y, crop := some (cropOf g), galpha := g.galpha }
  | none => b

def withPend (c : CompOut) (p : LayerFlipP) : CompOut :=
  let x := layerOf c p.layer
  setLayer c p.layer { x with pend := some { job := 0, p := p } }

/-- The changes that wait for a flatten in progress, applied. -/
def settled (c : CompOut) : CompOut :=
  c.runs.foldl (fun c r => match r with
    | some x => x.waiting.foldl (fun c w => setAttr c w.layer w.a) c
    | none => c) c

def newRun (p : StaticSetP) (old : Option StaticRun) : StaticRun :=
  match old with
  | some r => { r with zlo := p.zlo, zhi := p.zhi, bufA := p.bufA, bufB := p.bufB }
  | none => { zlo := p.zlo, zhi := p.zhi, bufA := p.bufA, bufB := p.bufB }

/-- What STATIC_SET leaves: its run, or none. -/
def afterStatic (c0 : CompOut) (p : StaticSetP) : CompOut :=
  let c := settled c0
  setRun c p.run (if p.op = 0 then none else some (newRun p (runAt c p.run)))

/-- What a command that is resident will leave on output `n`. -/
def afterJob (c : CompOut) (n : Nat) (j : Job) : Option CompOut :=
  if j.kind = .apply then
    match j.params with
    | .layerSet p => if p.output = n then some (withEntries c p.entries) else none
    | .layerFlip p => if p.output = n then some (withPend c p) else none
    | .staticSet p => if p.output = n then some (afterStatic c p) else none
    | _ => none
  else none

/-! ### Holding readers -/

def ofLayers (n : Nat) (c : Charge) : Bool := c.kind == 3 && c.holder / 7 == n

/-- The reader charges of output `n`, now, after each resident command, and in the configurations `more`. -/
def State.layerCharges (s : State) (n : Nat) (more : List CompOut) : List Charge :=
  let c := s.compOut n
  let all := c :: s.jobs.filterMap (afterJob c n) ++ more
  layerNos.filterMap fun l => (maxNeed (all.filterMap fun x => s.needOf n x l)).map fun (h, mb) =>
    { kind := 3, holder := 7 * n + l - 1, sub := h, mb := mb }

/-- Table 10.2: the reader count and the Weir. -/
def State.admitLayers (s : State) (n : Nat) (after : CompOut) : Check :=
  let new := s.layerCharges n [after]
  let others := (s.pond.charges.filter fun c => c.kind == 3 && !ofLayers n c).length
  failIf (decide (4096 < others + new.length)) stNoResource <|> s.admission (ofLayers n) new

/-- The output holds the readers it needs, with those of the configurations `more`; new ones count as an admission. -/
def State.holdLayers (s : State) (n : Nat) (more : List CompOut) : State :=
  let new := s.layerCharges n more
  let old := s.pond.charges.filter (ofLayers n)
  { s with pond := { s.pond with charges := (s.pond.charges.filter fun c => !ofLayers n c) ++ new } }.count 8 0 0
    (b2n (new.any fun x => !(old.any fun y => y.holder == x.holder && decide (x.mb ≤ y.mb))))

/-! ### Flatten work (R276) -/

/-- Crop of a layer's buffer: column, line, width, height. -/
def State.cropNow (s : State) (a : LayerAttr) : Nat × Nat × Nat × Nat :=
  a.crop.getD (match a.buf.bind s.bufAt with
    | some b => (0, 0, b.params.width, b.params.height)
    | none => (0, 0, 0, 0))

/-- The interval `[x, x+n)` clipped to `[0, w)` meets `[lo, lo+64)`. -/
def meets (x : Int) (n w lo : Nat) : Bool := decide (max (max x 0) lo < min (min (x + n) w) ((lo + 64 : Nat) : Int))

/-- Tile positions that the clipped rectangles of `ls` touch. -/
def State.touchedTiles (s : State) (w h : Nat) (ls : List (Nat × LayerAttr)) : Nat :=
  let cols := ceilDiv w 64
  total (fun p => b2n (ls.any fun e => let c := s.cropNow e.2
    meets e.2.x c.2.2.1 w (64 * (p % cols)) && meets e.2.y c.2.2.2 h (64 * (p / cols)))) (List.range (tilePositions w h))

def State.flattenWork (s : State) (n : Nat) (ls : List (Nat × LayerAttr)) : Nat :=
  match s.outRaster n with
  | some o =>
    let w := o.desc.activeSamples
    let h := o.desc.activeLines
    total (fun (e : Nat × LayerAttr) => match e.2.buf.bind s.bufAt with
      | some b => let c := s.cropNow e.2
        256 * (ceilDiv (c.2.2.1 * memBits b.params.format) 2048 + 1) * c.2.2.2
      | none => 0) ls + 40960 * s.touchedTiles w h ls + mapBytes w h
  | none => 0

/-- DL in force: at least 2 in a pair (R272). -/
def State.dlInForce (s : State) (c : CompOut) : Nat := if s.pair.role = Role.solo then c.dl else max 2 c.dl

def State.flattenCap (s : State) (n : Nat) (c : CompOut) : Nat :=
  match s.outRaster n with
  | some o => 2000000000 * (2 * o.desc.totalLines - s.dlInForce c - 1) * o.desc.rateDen / (o.desc.totalLines * o.desc.rateNum)
  | none => 0

/-- Every run whose static layers a command changes keeps within its capacity. -/
def State.workOk (s : State) (n : Nat) (before after : CompOut) : Bool :=
  [0, 1].all fun k => match runAt after k with
    | some r =>
      let ls := staticLayers after r
      (match runAt before k with
       | some r0 => r0 == r && staticLayers before r0 == ls
       | none => false) || decide (s.flattenWork n ls ≤ s.flattenCap n after)
    | none => true

/-! ### Geometry checks (Table 10.2) -/

def State.outScan (s : State) (n : Nat) : Nat := ((s.outRaster n).map fun o => o.desc.scan).getD 0

/-- A buffer that a layer of output `n` may show from `slot`. -/
def State.layerBufOk (s : State) (n : Nat) (b : Buf) (slot : Nat) : Bool :=
  decide (b.params.typ < 3) && decide (slot < b.params.count) && b.params.scan == s.outScan n

def cropIn (b : Buf) (c : Nat × Nat × Nat × Nat) : Bool :=
  decide (1 ≤ c.2.2.1) && decide (1 ≤ c.2.2.2) && decide (c.1 + c.2.2.1 ≤ b.params.width) && decide (c.2.1 + c.2.2.2 ≤ b.params.height)

/-- Odd columns on 4:2:2, odd lines on fields. -/
def State.evenOk (s : State) (n : Nat) (b : Option Buf) (a : LayerAttr) (c : Nat × Nat × Nat × Nat) : Bool :=
  let sub := s.outStructure n == 0 || b.any fun x => memStructure x.params.format == 0
  (!sub || (a.x % 2 == 0 && c.1 % 2 == 0 && c.2.2.1 % 2 == 0)) && (s.outScan n == 0 || (a.y % 2 == 0 && c.2.1 % 2 == 0))

/-! ### LAYER_SET -/

/-- The buffer that LAYER_SET checks an entry's crop against. -/
def State.entryBuf (s : State) (x : Layer) (e : LayerEntry) : Option Buf :=
  if e.setBuf then s.bufAt e.buf
  else match x.a.buf with
    | some h => s.bufAt h
    | none => x.pend.bind fun f => s.bufAt f.p.buf

/-- Rows 3 and 4 of Table 10.2 for one entry. -/
def State.entryBufOk (s : State) (n : Nat) (x : Layer) (e : LayerEntry) : Bool :=
  let b := s.entryBuf x e
  (!e.setBuf || (if e.buf = 0 then e.slot == 0 else b.any fun t => s.layerBufOk n t e.slot)) &&
  decide (1 ≤ e.geom.cropW) && decide (1 ≤ e.geom.cropH) && b.all fun t => cropIn t (cropOf e.geom)

def isLineRing (s : State) (a : LayerAttr) : Bool := (a.buf.bind s.bufAt).any fun b => b.params.typ == 1

/-- Row 5 of Table 10.2, with the layers that R273 keeps out of a run. -/
def State.entryRunOk (s : State) (x : Layer) (c : CompOut) (l : Nat) : Bool :=
  let a := (layerOf c l).a
  let static := (rangeRun c a).isSome
  (!a.follow || ((a.buf.bind s.bufAt).any (fun b => b.params.typ == 0) && !static && x.group.isNone)) &&
  (!static || (x.group.isNone && !isLineRing s a))

/-- LAYER_SET checks (R253, Table 10.2). -/
def chkLayerSet (h : Hdr) (p : LayerSetP) (s : State) : Check :=
  let c0 := s.compOut p.output
  let c := settled c0
  let after := withEntries c p.entries
  let old (e : LayerEntry) : Layer := layerOf c0 e.layer
  failIf (decide (p.count < 1) || decide (7 < p.count) || p.count != p.entries.length) stBadLength
  <|> failIf (decide (512 ≤ p.output) || (s.txStream p.output).isNone || !(p.entries.all fun e => between 1 e.layer 7) ||
        !distinct (p.entries.map (·.layer)) || !(p.entries.all fun e => between 1 e.z 7) ||
        !distinct (layerNos.map fun l => (layerOf after l).a.z) || (p.entries.any fun e => decide (4096 < e.geom.galpha)) ||
        p.rsvd != 0 || (p.entries.any fun e => e.rsvd != 0 || (!e.setBuf && (e.slot != 0 || e.buf != 0))) ||
        (h.sched && h.line != 1)) stBadParam
  <|> failIf (!(p.entries.all fun e => s.entryBufOk p.output (old e) e)) stBadParam
  <|> failIf (!(p.entries.all fun e => s.evenOk p.output (s.entryBuf (old e) e) (layerOf after e.layer).a (cropOf e.geom))) stBadParam
  <|> failIf (!(p.entries.all fun e => s.entryRunOk (old e) after e.layer)) stBadParam
  <|> failIf (p.entries.any fun e => e.setBuf && ((old e).sluice == .pending || (old e).sluice == .applying)) stBusy
  <|> failIf (p.entries.any fun e => e.tag != s.outTag p.output) stColorMismatch
  <|> s.admitLayers p.output (withEntries c0 p.entries)
  <|> failIf (!s.workOk p.output c after) stFlattenOverBudget

/-- LAYER_SET becomes resident: its readers are held. -/
def planLayerSet (p : LayerSetP) (s : State) : State := s.holdLayers p.output [withEntries (s.compOut p.output) p.entries]

/-- LAYER_SET immediate: it waits for the output's next frame start. -/
def startLayerSet (h : Hdr) (p : LayerSetP) (s : State) : Ans :=
  orAns (chkLayerSet h p s) (.later (planLayerSet p s) .apply (2 + p.output))

/-! ### Changes of a layer at a frame start (R267, R277 to R279) -/

/-- A run wants a flatten to which `job` contributes; `shown` the layer's attributes if it was shown alone. -/
def wantFlatten (now : Tick) (job l : Nat) (old : LayerAttr) (shown : Option LayerAttr) (joins : Bool) (r : StaticRun) : StaticRun :=
  { r with want := true, wantT := if r.want then r.wantT else now,
           wantJobs := if job = 0 || r.wantJobs.contains job then r.wantJobs else r.wantJobs ++ [job],
           indiv := (match shown with
             | some a => if joins && !(r.indiv.any fun e => e.1 == l) then r.indiv ++ [(l, a)] else r.indiv
             | none => r.indiv),
           prior := if r.prior.any (fun e => e.1 == l) then r.prior else r.prior ++ [(l, old)] }

/-- Layer `l` takes the attributes `a`. The answer says that the change contributes to a flatten: one that is wanted from now,
or, where a flatten of its run is in progress, the next (R279). -/
def State.changeLayer (s : State) (n l : Nat) (a : LayerAttr) (job : Nat) : Bool × State :=
  let c := s.compOut n
  let x := layerOf c l
  let hit (k : Nat) : Bool := (runAt c k).any fun r => isStatic r x.a || isStatic r a
  let ks := [0, 1].filter hit
  if x.a = a || ks.isEmpty then (false, s.setCompOut n (setAttr c l a))
  else match ks.find? fun k => (runAt c k).any fun r => r.flat.isSome with
    | some k => (true, s.modRun n k fun r => { r with waiting := r.waiting ++ [{ job := job, layer := l, a := a }] })
    | none =>
      let shown := shownAttr c l
      let c1 := setAttr c l a
      (true, s.setCompOut n (ks.foldl (fun d k => setRun d k ((runAt d k).map fun r =>
        wantFlatten s.now job l x.a shown (isStatic r a) r)) c1))

/-- LAYER_SET at its line: the job moves to the output's frame start (R542), and there each listed layer takes its entry. -/
def applyLayerSet (j : Job) (p : LayerSetP) (s : State) : State :=
  if j.raster != 2 + p.output then s.setJob { j with raster := 2 + p.output, frame := none, line := 1 }
  else
    let s0 := s.setJob { j with kind := .event }
    let (any_, s1) := p.entries.foldl (fun (acc : Bool × State) e =>
      let (b, t) := acc.2.changeLayer p.output e.layer (entryAttr (layerOf (settled (acc.2.compOut p.output)) e.layer).a e) j.id
      (acc.1 || b, t)) (false, s0)
    let s2 := s1.holdLayers p.output []
    if any_ then s2 else s2.complete j stOk 0 (some (2 + p.output))

/-- A cancelled LAYER_SET gives up its readers. -/
def releaseLayerSet (j : Job) (n : Nat) (s : State) : State :=
  let s1 := ({ s with jobs := s.jobs.filter fun x => x.id != j.id }).holdLayers n []
  { s1 with jobs := s.jobs }

/-! ### Fences (R260 to R262) -/

def State.fence (s : State) (f : Nat) : Fence := fget {} s.comp.fences f
def State.setFence (s : State) (f : Nat) (x : Fence) : State := { s with comp := { s.comp with fences := fset {} s.comp.fences f x } }

/-- A fence takes a value, stamped now. What it held before this instant stays visible to a decision at this instant (R262). -/
def State.signal (s : State) (f : Nat) (v : BitVec 32) : State :=
  let x := s.fence f
  s.setFence f { x with value := v, stamp := s.stc, stampT := s.now + 1,
                        prev := if x.stampT = s.now + 1 then x.prev else x.value }

/-- The value established strictly before now. -/
def State.fenceBefore (s : State) (f : Nat) : BitVec 32 :=
  let x := s.fence f
  if x.stampT = s.now + 1 then x.prev else x.value

/-- The value advances the fence (R80, R261). -/
def advances (v cur : BitVec 32) : Bool := between 1 (v - cur).toNat (2 ^ 31 - 1)

/-- A FEN packet of the stream at IN `n` (R80). -/
def State.fenPacket (s : State) (n f v : Nat) : State :=
  let x := s.fence f
  let w := BitVec.ofNat 32 v
  if x.point = some n && advances w x.value then s.signal f w else s.setFence f { x with discarded := x.discarded + 1 }

/-- A pending flip names the fence. -/
def State.fenceNamed (s : State) (f : Nat) : Bool :=
  s.comp.outs.any fun e => e.2.layers.any fun (l : Layer) => l.pend.any fun p => p.p.fenced && p.p.fence == f

/-- FENCE_SIGNAL's checks on the fence itself (R261), made where it executes. -/
def chkSignalNow (p : FenceSignalP) (s : State) : Check :=
  if p.reset then failIf (s.fenceNamed p.fence) stBusy
  else let v := BitVec.ofNat 32 p.value
    failIf (v != (s.fence p.fence).value && !advances v (s.fence p.fence).value) stBadParam

def chkFenceSignal (p : FenceSignalP) (_s : State) : Check := failIf (p.rsvd != 0 || decide (256 ≤ p.fence)) stBadParam

def signalNow (p : FenceSignalP) (s : State) : State :=
  let v := BitVec.ofNat 32 p.value
  if v = (s.fence p.fence).value && !p.reset then s else s.signal p.fence v

def startFenceSignal (p : FenceSignalP) (s : State) : Ans :=
  orAns (chkFenceSignal p s <|> chkSignalNow p s) (.done (signalNow p s))

/-- FENCE_SIGNAL at its line. -/
def applyFenceSignal (j : Job) (p : FenceSignalP) (s : State) : State :=
  match chkSignalNow p s with
  | some (st, d) => s.complete j st d (some j.raster)
  | none => (signalNow p s).complete j stOk 0 (some j.raster)

/-- FENCE_BIND (R260). -/
def startFenceBind (p : FenceBindP) (s : State) : Ans :=
  orAns (failIf (p.rsvd != 0 || decide (256 ≤ p.fence) || (decide (512 ≤ p.point) && p.point != 0xFFFF)) stBadParam)
    (.done (s.setFence p.fence { s.fence p.fence with point := if p.point = 0xFFFF then none else some p.point }))

/-- FENCE_QUERY (R261, Table 13.9). -/
def startFenceQuery (p : FenceQueryP) (s : State) : Ans :=
  let x := s.fence p.fence
  orAns (failIf (p.rsvd != 0 || decide (256 ≤ p.fence)) stBadParam)
    (.result s p.res (leBytes 4 x.value.toNat ++ leBytes 2 (x.point.getD 0xFFFF) ++ leBytes 2 0 ++ leBytes 8 x.stamp ++
      leBytes 8 x.discarded))

/-! ### LAYER_FLIP (R263, R264) -/

/-- LAYER_FLIP checks. -/
def chkLayerFlip (h : Hdr) (p : LayerFlipP) (s : State) : Check :=
  let c0 := s.compOut p.output
  let c := settled c0
  let x := layerOf c0 p.layer
  let a := flipAttr (layerOf c p.layer).a p p.slot
  let b := s.bufAt p.buf
  let crop := s.cropNow a
  let line := ((s.outRaster p.output).map fun o => o.desc.totalLines - s.dlInForce c + 1).getD 0
  let after := setAttr c p.layer a
  failIf (decide (512 ≤ p.output) || (s.txStream p.output).isNone || !between 1 p.layer 7 || decide (3 ≤ p.sel) ||
        decide (256 ≤ p.fence) || p.rsvd != 0 || (p.sel != 0 && p.slot != 0) || (p.sel == 1 && decide (2 ^ 48 ≤ p.frame)) ||
        (p.geom.any fun g => decide (4096 < g.galpha)) || (h.sched && (h.raster != 2 + p.output || h.line != line))) stBadParam
  <|> failIf (!(b.any fun t => s.layerBufOk p.output t p.slot && cropIn t crop) || !s.evenOk p.output b a crop ||
        ((rangeRun c a).isSome && isLineRing s a)) stBadParam
  <|> failIf x.a.follow stBusy
  <|> s.admitLayers p.output (withPend c0 p)
  <|> failIf (!s.workOk p.output c after) stFlattenOverBudget

def planLayerFlip (p : LayerFlipP) (s : State) : State := s.holdLayers p.output [withPend (s.compOut p.output) p]

def pendLayer (id : Nat) (p : LayerFlipP) (since : Option Tick) (x : Layer) : Layer :=
  { x with pend := some { job := id, p := p, sinceT := since }, sluice := if x.sluice = .idle then .pending else x.sluice }

/-- A flip becomes pending (R264), at the instant `since` where an immediate command places it: one that is pending already is replaced
and completes CANCELLED. -/
def State.pendFlip (s : State) (id : Nat) (p : LayerFlipP) (since : Option Tick) : State :=
  let x := layerOf (s.compOut p.output) p.layer
  let s1 := match x.pend with
    | some f => s.completeId f.job stCancelled 0 (some (2 + p.output))
    | none => s
  (s1.modLayer p.output p.layer (pendLayer id p since)).holdLayers p.output []

/-- LAYER_FLIP immediate. -/
def startLayerFlip (h : Hdr) (p : LayerFlipP) (s : State) : Ans :=
  orAns (chkLayerFlip h p s) (.later ((planLayerFlip p s).pendFlip s.nextJob p (some s.now)) .event (2 + p.output))

/-- The descriptor that output `n` takes at its next frame start: that of the last RASTER_SET due there. -/
def State.comingDesc (s : State) (n : Nat) (o : OutRaster) : RasterDesc :=
  s.jobs.foldl (fun d j => match j.params with
    | .rasterSet p => if p.raster = 2 + n && j.committed && j.kind == .apply && j.frame.all fun f => decide (f ≤ o.frame.toNat + 1) then p.desc else d
    | _ => d) o.desc

/-- Line starts from `a` that come before `b`, half a line at least: the clock rounds both down to whole ticks. -/
def linesUntil (d : RasterDesc) (a b : Int) : Nat := ((2 * (b - a) * d.totalLines / (descPeriod d : Int) + 1) / 2).toNat

/-- What ends the frame that output `n` is in, as its raster stands: the count and the start of the next frame, and how many line starts the
frame in progress has until there (R41, R265). -/
def State.comingFrame (s : State) (n : Nat) (o : OutRaster) : Nat × Int × Nat :=
  match o.ext with
  | some e =>
    let t := (relationCount o.desc (s.house o.desc.house) s.now).2
    (e.first, t, o.desc.totalLines + linesUntil o.desc o.frameT t)
  | none =>
    let plain := o.standing.lineT' (o.frame.toNat + 1) 1
    let d := s.comingDesc n o
    if o.relation || relKey o.desc != relKey d then
      let f := (newRelation o d (s.house d.house) o.frame.toNat plain.toNat).1
      let t := (relationCount d (s.house d.house) plain.toNat).2
      (f, t, o.desc.totalLines + linesUntil o.desc plain t)
    else (o.frame.toNat + 1, plain, o.desc.totalLines)

/-- The line start of output `n` that is DL lines before its next frame start (R265). -/
def State.decisionLine (s : State) (n : Nat) (o : OutRaster) : Nat :=
  (s.comingFrame n o).2.2 - s.dlInForce (s.compOut n) + 1

/-- LAYER_FLIP at its line: pending from there, unless the decision line has moved (R265). -/
def applyLayerFlip (j : Job) (p : LayerFlipP) (s : State) : State :=
  match s.outRaster p.output with
  | some o =>
    if j.line = s.decisionLine p.output o then (s.setJob { j with kind := .event }).pendFlip j.id p none
    else (releaseLayerSet j p.output s).complete j stCancelled 0 (some j.raster)
  | none => s.complete j stCancelled 0 (some j.raster)

/-! ### Readiness (R256, R266) -/

/-- Order of complete slots: FRAME, DONE_STC, then the lower index. -/
def State.slotNewer (s : State) (b : Buf) (i k : Nat) : Bool :=
  let at_ (m : Nat) : Nat := slotAddr b.addr (slotSize b.params.width b.params.height b.params.format) m
  let fi := s.slotFrame (at_ i)
  let fk := s.slotFrame (at_ k)
  let di := s.slotDone (at_ i)
  let dk := s.slotDone (at_ k)
  decide (fk < fi) || (fi == fk && (decide (dk < di) || (di == dk && decide (i < k))))

/-- The slots that became complete strictly before now. -/
def State.completeSlots (s : State) (b : Buf) : List Nat :=
  (List.range b.params.count).filter fun k =>
    let a := slotAddr b.addr (slotSize b.params.width b.params.height b.params.format) k
    s.slotState a == 2 && decide (s.slotDone a < s.stc)

def State.newestOf (s : State) (b : Buf) (l : List Nat) : Option Nat :=
  l.find? fun i => l.all fun k => k == i || s.slotNewer b i k

/-- A slot filled by a capture carries the layer's tag; one that the host wrote takes it. -/
def State.slotTagOk (s : State) (n : Nat) (b : Buf) (a : LayerAttr) (k : Nat) : Bool :=
  (fget none b.tags k).all fun t => t == a.tag.getD (s.outTag n)

/-- R256: a line ring is ready while its writer is bound and its source present. -/
def State.ringReady (s : State) (h : Nat) : Bool :=
  s.pond.caps.any fun e => e.2.any fun (c : CapBind) =>
    c.p.handle == h && (s.seen.route (896 + e.1)).any fun r => s.seen.srcPresent r.src

/-- The slot a flip takes if its target is ready now, without its fence. -/
def State.chooseSlot (s : State) (n : Nat) (a : LayerAttr) (p : LayerFlipP) : Option Nat :=
  (s.bufAt p.buf).bind fun b =>
    if b.params.typ = 1 then (if s.ringReady p.buf then some p.slot else none)
    else
      let full := s.completeSlots b
      let pick := match p.sel with
        | 0 => if full.contains p.slot then some p.slot else none
        | 1 => full.find? fun k => s.slotFrame (slotAddr b.addr (slotSize b.params.width b.params.height b.params.format) k) == p.frame
        | _ => s.newestOf b full
      pick.bind fun k => if s.slotTagOk n b a k then some k else none

/-- The pending flip that a decision taken now finds: not one that an immediate command placed in this instant (R21, R266). -/
def State.pendAt (s : State) (x : Layer) : Option Flip := x.pend.filter fun f => f.sinceT != some s.now

/-- R142: in a pair whose arming point lies before the decision line, the next frame of output `n` is not engaged. -/
def State.notEngaged (s : State) (n : Nat) : Bool :=
  s.runsPaired && decide (s.dlInForce (s.compOut n) ≤ 3) &&
  (s.outRaster n).any fun o => (s.compOut n).engagedFor != some (s.comingFrame n o).1

/-- R266: the slot of a flip that is ready at this decision line. -/
def State.flipReady (s : State) (n : Nat) (x : Layer) (f : Flip) : Option Nat :=
  if s.notEngaged n then none
  else if f.p.fenced && !reaches (s.fenceBefore f.p.fence) (BitVec.ofNat 32 f.p.fenceValue) then none
  else s.chooseSlot n x.a f.p

/-- R268: the slot that a FOLLOW layer changes to. Complete slots are ordered (R266): one that is not comes before them all. -/
def State.followSlot (s : State) (n : Nat) (x : Layer) : Option (Nat × Nat) :=
  x.a.buf.bind fun h => (s.bufAt h).bind fun b =>
    if b.params.typ != 0 then none
    else (s.newestOf b ((s.completeSlots b).filter (s.slotTagOk n b x.a))).bind fun k =>
      if s.slotState (b.slot x.a.slot) != 2 || s.slotNewer b k x.a.slot then some (h, k) else none

/-! ### The decision line (R265 to R271) -/

/-- A pending flip repeats: a deferral, and the end of a flip whose EXPIRE decisions have been taken. -/
def State.deferFlip (s : State) (n l : Nat) : State :=
  let s1 := s.count 5 n 9
  let x := layerOf (s1.compOut n) l
  match x.pend with
  | some f =>
    let f1 := { f with decisions := f.decisions + 1, defer := f.defer + 1 }
    if f.p.expire != 0 && decide (f.p.expire ≤ f1.decisions) then
      let s2 := s1.modLayer n l fun x => { x with pend := none, sluice := if x.sluice = .pending then .idle else x.sluice }
      ((s2.count 5 n 10).holdLayers n []).completeId f.job stCancelled 1 (some (2 + n))
    else s1.modLayer n l fun x => { x with pend := some f1 }
  | none => s1

/-- A layer repeats: a deferral of the flip that the decision found, and of a group member in any case (R267, R270). -/
def State.repeatLayer (s : State) (n l : Nat) : State :=
  let x := layerOf (s.compOut n) l
  if x.pend.isSome && (s.pendAt x).isNone then s.count 5 n 9 else s.deferFlip n l

/-- A flip is decided with its slot: APPLYING until its frame start. -/
def State.decideFlip (s : State) (n l : Nat) (f : Flip) (slot : Nat) : State :=
  s.modLayer n l fun x => { x with pend := none, decided := some { f with chosen := slot }, sluice := .applying }

/-- The flip of a group member that is pending and ready. -/
def State.memberReady (s : State) (m : Nat × Nat) : Option (Flip × Nat) :=
  let x := layerOf (s.compOut m.1) m.2
  if x.sluice = .pending then (s.pendAt x).bind fun f => (s.flipReady m.1 x f).map fun k => (f, k) else none

/-- An open group decides once for all members (R270). -/
def State.decideGroup (s : State) (g : Nat) : State :=
  let x := fget {} s.comp.groups g
  if x.members.isEmpty || !x.taking.isEmpty then s
  else
    let flip := x.members.all fun m => (s.memberReady m).isSome
    let x1 : Group := { x with flip := flip, taking := x.members.map fun m => (m.1, m.2, false) }
    let s1 := { s with comp := { s.comp with groups := fset {} s.comp.groups g x1 } }
    State.each (fun m t => match (if flip then s.memberReady m else none) with
      | some (f, k) => t.decideFlip m.1 m.2 f k
      | none => (t.repeatLayer m.1 m.2).count 5 m.1 11) x.members s1

/-- An ungrouped layer decides. -/
def State.decideLayer (s : State) (n l : Nat) : State :=
  let x := layerOf (s.compOut n) l
  if x.group.isSome then s
  else if x.sluice = .pending then
    match s.pendAt x with
    | some f => (match s.flipReady n x f with
      | some k => s.decideFlip n l f k
      | none => s.deferFlip n l)
    | none => s
  else if x.a.follow && x.sluice = .idle then
    match s.followSlot n x with
    | some (h, k) => s.decideFlip n l { job := 0, p := { output := n, layer := l, buf := h }, follow := true } k
    | none => s
  else s

/-- Members of output `n` in a group's decision: their decision line has come. -/
def markTaking (n : Nat) (g : Group) : Group :=
  { g with taking := g.taking.map fun t => if t.1 = n then (t.1, t.2.1, true) else t }

/-- The member of a group has still to take a decision, and may take it at its next frame start. -/
def State.mayTake (s : State) (n l : Nat) (x : Layer) : Bool :=
  match x.group with
  | some g => (fget {} s.comp.groups g).taking.contains (n, l, true)
  | none => true

/-- The decision bitmap of an output: bit l - 1 for each layer that flips at its next frame start (R272). -/
def State.decisionMap (s : State) (n : Nat) : Nat :=
  total (fun l => let x := layerOf (s.compOut n) l
    b2n (x.decided.isSome && s.mayTake n l x) * 2 ^ (l - 1)) layerNos

/-- The output stands on its decision line (R265). -/
def State.atDecision (s : State) (n : Nat) (o : OutRaster) : Bool :=
  o.started && o.line == s.decisionLine n o

/-- SLUICE_DECISION_LINE. -/
def doDecisionLine (n : Nat) (s : State) : State :=
  match s.outRaster n with
  | none => s
  | some o =>
    if !s.atDecision n o || (s.compOut n).decisionFor.isSome || s.sys.quiet != .awake then s
    else
      let f := (s.comingFrame n o).1
      let s1 := s.setCompOut n { s.compOut n with decisionFor := some f }
      if s.isMate then s1
      else
        let gs := ((layerNos.filterMap fun l => (layerOf (s1.compOut n) l).group).eraseDups)
        let s2 := State.each (fun g s => s.decideGroup g) gs s1
        let s3 := { s2 with comp := { s2.comp with groups := tmap {} (fun _ g => markTaking n g) s2.comp.groups } }
        let s4 := State.each (fun l s => s.decideLayer n l) layerNos s3
        if s4.isLead then s4.emit (.brinen 6 [n, f, s4.decisionMap n]) else s4

/-! ### COMP_SET and GROUP_SET -/

def chkCompSet (h : Hdr) (p : CompSetP) (s : State) : Check :=
  failIf (p.rsvd != 0 || decide (512 ≤ p.output) || (s.txStream p.output).isNone || !between 1 p.dl 16 || (h.sched && h.line != 1)) stBadParam

def startCompSet (h : Hdr) (p : CompSetP) (s : State) : Ans := orAns (chkCompSet h p s) (.later s .apply (2 + p.output))

def applyCompSet (j : Job) (p : CompSetP) (s : State) : State :=
  if j.raster != 2 + p.output then s.setJob { j with raster := 2 + p.output, frame := none, line := 1 }
  else
    let c := { s.compOut p.output with dl := p.dl }
    let s1 := s.setCompOut p.output c
    s1.complete j stOk (if s1.dlInForce c = p.dl then 0 else s1.dlInForce c) (some (2 + p.output))

/-- GROUP_SET (R270). -/
def startGroupSet (p : GroupSetP) (s : State) : Ans :=
  let g := fget {} s.comp.groups p.group
  let ok (m : Nat × Nat) : Bool :=
    let c := settled (s.compOut m.1)
    let x := layerOf c m.2
    decide (m.1 < 512) && (s.txStream m.1).isSome && between 1 m.2 7 && !x.a.follow && (rangeRun c x.a).isNone &&
    x.group.all fun k => k == p.group
  let join (k : Option Nat) (s : State) (ms : List (Nat × Nat)) : State :=
    State.each (fun m s => s.modLayer m.1 m.2 fun x => { x with group := k }) ms s
  orAns (failIf (decide (64 < p.members.length)) stBadLength
    <|> failIf (p.rsvd != 0 || decide (128 ≤ p.group) || !distinct p.members || !p.members.all ok) stBadParam
    <|> failIf (!g.taking.isEmpty) stBusy)
    (let s1 := join (some p.group) (join none s g.members) p.members
     .done { s1 with comp := { s1.comp with groups := fset {} s1.comp.groups p.group { members := p.members } } })

/-! ### LAYER_QUERY (R280) -/

def Sluice.code : Sluice → Nat
  | .idle => 0 | .pending => 1 | .applying => 2 | .flattening => 3

def State.layerRecord (s : State) (n l : Nat) : List Byte :=
  let c := s.compOut n
  let x := layerOf c l
  let mb := ((s.pond.charges.find? fun k => k.kind == 3 && k.holder == 7 * n + l - 1).map fun k => k.mb).getD 0
  let seq := ((x.pend.bind fun f => s.jobs.find? fun j => j.id == f.job).map (·.seq)).getD 0
  let flags := b2n x.a.enable + 2 * b2n x.a.follow + 8 * b2n (shownAttr c l).isSome + 16 * b2n (c.runs.any fun r => r.any fun y => isStatic y x.a) +
    32 * b2n x.group.isSome
  leBytes 1 l ++ leBytes 1 flags ++ leBytes 1 x.a.z ++ leBytes 1 x.sluice.code ++ leBytes 4 (x.a.buf.getD 0) ++ leBytes 2 x.a.slot ++
  leBytes 2 (x.group.getD 0xFFFF) ++ leBytes 4 seq ++ leBytes 4 ((x.pend.map (·.defer)).getD 0) ++ leBytes 4 mb ++ leBytes 8 x.lastFlip

def startLayerQuery (p : OutputQueryP) (s : State) : Ans :=
  orAns (failIf (p.rsvd != 0 || decide (512 ≤ p.output) || (s.txStream p.output).isNone) stBadParam)
    (.result s p.res (layerNos.flatMap (s.layerRecord p.output)))

/-! ### The frame start -/

def flipped (later : Bool) (stc : Nat) (y : Layer) : Layer :=
  { y with decided := none, lastFlip := stc, sluice := if later then .flattening else if y.pend.isSome then .pending else .idle }

/-- A decided flip takes effect (R267). A flip of a static layer contributes to a flatten and completes there. -/
def State.takeFlip (s : State) (n l : Nat) (f : Flip) : State :=
  let x := layerOf (s.compOut n) l
  let (later, s1) := s.changeLayer n l (flipAttr x.a f.p f.chosen) f.job
  let s2 := s1.modLayer n l (flipped later s1.stc)
  let s3 := (s2.count 5 n 8).holdLayers n []
  if later || f.follow then s3 else s3.completeId f.job stOk 0 (some (2 + n))

/-- The slot that a flip's target becomes while no complete one fits: the one that it names, or the one whose frame has begun, or the first
that is not complete. The layer is transparent until it completes (R272). DESIGN CHOICE (assumption 28). -/
def State.awaitedSlot (s : State) (p : LayerFlipP) : Nat :=
  ((s.bufAt p.buf).bind fun b =>
    let open_ := (List.range b.params.count).filter fun k => s.slotState (b.slot k) != 2
    match p.sel with
    | 0 => none
    | 1 => (open_.find? fun k => s.slotFrame (b.slot k) == p.frame) <|> open_.head?
    | _ => (open_.find? fun k => s.slotState (b.slot k) == 1) <|> open_.head?).getD p.slot

/-- The flip that a MATE takes on its LEAD's word, of its pending flip or of a FOLLOW layer, with the slot it finds now; a target that is not
complete is an input mismatch (R272). -/
def State.mateFlip (s : State) (n l : Nat) : State :=
  let x := layerOf (s.compOut n) l
  let take (f : Flip) (found : Option Nat) : State :=
    let s1 := s.modLayer n l fun y => { y with pend := none }
    match found with
    | some k => s1.takeFlip n l { f with chosen := k }
    | none => (s1.takeFlip n l { f with chosen := s.awaitedSlot f.p }).reportMissing n
  match x.pend, x.a.buf with
  | some f, _ => take f (s.chooseSlot n x.a f.p)
  | none, some h => if x.a.follow then
      take { job := 0, p := { output := n, layer := l, buf := h, sel := 2 }, follow := true } ((s.followSlot n x).map (·.2))
    else s
  | none, none => s

/-- Members of output `n` have taken the group's decision. -/
def clearTaking (n : Nat) (g : Group) : Group := { g with taking := g.taking.filter fun t => !(t.1 == n && t.2.2) }

/-- The bitmap that the LEAD sent for frame `f` of output `n`. -/
def State.leadMap (s : State) (n f : Nat) : Nat :=
  ((s.pair.received.find? fun d => d.kind == 1 && d.unit == n && d.key == f).map (·.value)).getD 0

/-- Decided flips take effect at the start of frame `f` of output `n`, before the scheduled actions of R22. -/
def State.flipFrame (s : State) (n f : Nat) : State :=
  let step (l : Nat) (s : State) : State :=
    let x := layerOf (s.compOut n) l
    if s.isMate then
      (if bit (s.leadMap n f) (l - 1) then s.mateFlip n l else if x.sluice = .pending then s.deferFlip n l else s)
    else match x.decided with
      | some d => if s.mayTake n l x then s.takeFlip n l d else s
      | none => s
  let s1 := State.each step layerNos s
  let s2 := { s1 with comp := { s1.comp with groups := tmap {} (fun _ g => clearTaking n g) s1.comp.groups } }
  s2.setCompOut n { s2.compOut n with decisionFor := none }

/-- Source frame that the writer of a line ring began most recently before now (R256). -/
def State.ringFrameOf (s : State) (h : Nat) : Option Nat :=
  (s.pond.caps.findSome? fun e => e.2.bind fun (c : CapBind) =>
    if c.p.handle = h then some (if c.lastT = s.now then c.prevFrame else c.lastFrame) else none).bind id

/-- The overlay state of a frame, as flips and actions left it (R256, R257). -/
def State.overlayFrame (s : State) (n : Nat) : State :=
  let c := s.compOut n
  let c1 := layerNos.foldl (fun c l => let x := layerOf c l
    setLayer c l { x with ringF := if isLineRing s x.a then x.a.buf.bind s.ringFrameOf else none }) c
  let f := (s.outRaster n).map fun o => o.frame.toNat
  s.setCompOut n { c1 with active := overlayActive c1, engaged := c1.engagedFor.isSome && c1.engagedFor == f, engagedFor := none }

/-! ### An engaged pipeline (R142) -/

/-- A layer is enabled with a buffer or a flip to come, or a static run exists. -/
def engagedOut (c : CompOut) : Bool :=
  (c.layers.any fun x => x.a.enable && (x.a.buf.isSome || x.pend.isSome || x.decided.isSome)) || c.runs.any Option.isSome

/-- The arming point of frame `f` of output `n` in a pair: whether the pipeline is engaged for it. -/
def State.engage (s : State) (n f : Nat) : State :=
  let c := s.compOut n
  let after := s.jobs.filterMap fun j => if j.frame.all fun x => decide (x ≤ f) then afterJob c n j else none
  s.setCompOut n { c with engagedFor := if engagedOut c || after.any engagedOut then some f else none }

end Sys2Proof.Machine
end

