-- ==== Sys2Proof/Machine/Static.lean ====
section
/-! DEFINITION. Stillwater (chapter 10): static runs, flattens, their images in the Millpond, swaps and rejections; the pictures of
layers; and what the end of an output does to its compositor. -/

namespace Sys2Proof.Machine

/-! ### Pictures of buffers and layers (R255 to R258) -/

/-- The frame in slot `k` of a ring or still. -/
def State.slotPic (s : State) (b : Buf) (k : Nat) : Pic :=
  let p := b.params
  let a := slotAddr b.addr (slotSize p.width p.height p.format) k
  { w := p.width, h := p.height, st := memStructure p.format,
    at_ := fun x y c => (s.loadPixels (slotLine a p.width p.format y) p.format x 1).getD c 0 }

/-- Address of the line at index `i` of a line ring, and of its table entry: frame in bytes 0 to 5, line in bytes 6 and 7. -/
def ringLineAt (b : Buf) (i : Nat) : Nat := b.addr + lineRingHeader b.params.count + i * pitch b.params.width b.params.format
def ringEntryAt (b : Buf) (i : Nat) : Nat := b.addr + 256 + 8 * i

/-- Active line `k` (from 0) of source frame `f` is in the ring (R175). -/
def State.ringHolds (s : State) (b : Buf) (f k : Nat) : Bool :=
  let e := ringEntryAt b (k % max b.params.count 1)
  s.pondNat e 6 == f && s.pondNat (e + 6) 2 == k + 1

def State.linePic (s : State) (b : Buf) : Pic :=
  let p := b.params
  { w := p.width, h := p.height, st := memStructure p.format,
    at_ := fun x y c => (s.loadPixels (ringLineAt b (y % max p.count 1)) p.format x 1).getD c 0 }

/-- A picture with four components in an output's representation (R258): a layer of tag `tag`, on an output that is RGB or YCbCr. -/
def overPic (tag : Nat) (rgbOut : Bool) (p : Pic) : Pic :=
  let q := to444 0 p
  let rgb := p.st == 2 || (p.st == 1 && tagRgb tag)
  let alpha (x y : Nat) : Nat := if p.st = 2 then p.at_ x y 3 else a20
  { q with st := 2, at_ := fun x y c =>
      if c = 3 then alpha x y
      else if rgb == rgbOut then q.at_ x y c
      else ((if rgbOut then matrixToRgb tag else matrixToYcc tag) ((List.range 3).map fun k => (q.at_ x y k : Int))).getD c 0 }

def State.outRgb (s : State) (n : Nat) : Bool := s.outStructure n == 2 || (s.outStructure n == 1 && tagRgb (s.outTag n))

/-- The pixel of a layer at output pixel (x, y): four components, none where the layer shows nothing. A slot that is not complete is
not played: its layer is transparent (R174, R272). -/
def State.layerPixel (s : State) (n : Nat) (a : LayerAttr) (ringF : Option Nat) (x y : Nat) : Option (List Nat) :=
  (a.buf.bind s.bufAt).bind fun b =>
    let (cx, cy, cw, ch) := s.cropNow a
    let c : Int := (x : Int) - a.x
    let r : Int := (y : Int) - a.y
    if c < 0 || r < 0 || (cw : Int) ≤ c || (ch : Int) ≤ r then none
    else
      let px := cx + c.toNat
      let py := cy + r.toNat
      let p := overPic (a.tag.getD (s.outTag n)) (s.outRgb n) (if b.params.typ = 1 then s.linePic b else s.slotPic b a.slot)
      if (if b.params.typ = 1 then !(ringF.any fun f => s.ringHolds b f py) else s.slotState (b.slot a.slot) != 2) then none
      else some ((List.range 4).map (p.at_ px py))

/-- Layers in ascending Z. -/
def insertZ (e : Nat × LayerAttr) : List (Nat × LayerAttr) → List (Nat × LayerAttr)
  | [] => [e]
  | x :: r => if e.2.z ≤ x.2.z then e :: x :: r else x :: insertZ e r

def sortZ (l : List (Nat × LayerAttr)) : List (Nat × LayerAttr) := l.foldr insertZ []

/-- One layer blended over a four-component pixel (R259). -/
def blendOver (tag galpha : Nat) (d : List Nat) (p : List Nat) : List Nat :=
  let a := p.getD 3 0
  ((List.range 3).map fun c => blend (d.getD c 0) (p.getD c 0) (blackOf tag c) a galpha) ++ [blendAlpha (d.getD 3 0) a galpha]

/-- Pixel (x, y) of a flattened image (R274). -/
def State.flatPixel (s : State) (n : Nat) (ls : List (Nat × LayerAttr)) (x y : Nat) : List Nat :=
  let tag := s.outTag n
  (sortZ ls).foldl (fun d e => match s.layerPixel n e.2 none x y with
    | some p => blendOver tag e.2.galpha d p
    | none => d) [blackOf tag 0, blackOf tag 1, blackOf tag 2, 0]

/-! ### The sparse tiled layer (R176, R274) -/

/-- Pixel (x, y) of tile position `p`, transparent beyond the picture edge. -/
def State.tilePixel (s : State) (n : Nat) (ls : List (Nat × LayerAttr)) (w h p x y : Nat) : List Nat :=
  let cols := ceilDiv w 64
  let px := 64 * (p % cols) + x
  let py := 64 * (p / cols) + y
  if px < w && py < h then s.flatPixel n ls px py
  else [blackOf (s.outTag n) 0, blackOf (s.outTag n) 1, blackOf (s.outTag n) 2, 0]

/-- The tile positions with a pixel whose alpha is not 0. -/
def State.occupiedTiles (s : State) (n : Nat) (ls : List (Nat × LayerAttr)) (w h : Nat) : List Nat :=
  (List.range (tilePositions w h)).filter fun p => (List.range 4096).any fun i =>
    (s.tilePixel n ls w h p (i % 64) (i / 64)).getD 3 0 != 0

/-- Occupied tiles of the densest tile row. -/
def densestRow (w : Nat) (occ : List Nat) : Nat :=
  (occ.map fun p => (occ.filter fun q => q / ceilDiv w 64 == p / ceilDiv w 64).length).foldl max 0

def State.tileBytes (s : State) (n : Nat) (ls : List (Nat × LayerAttr)) (w h p : Nat) : List Byte :=
  (List.range 64).flatMap fun y => leBytes 640 (placeBits 20 ((List.range 64).flatMap fun x => s.tilePixel n ls w h p x y))

/-- The image written to a sparse tiled layer: bitmap, tile index, and the occupied tiles in rising position (assumption 18). -/
def State.writeImage (s : State) (n : Nat) (ls : List (Nat × LayerAttr)) (b : Buf) (occ : List Nat) : State :=
  let w := b.params.width
  let h := b.params.height
  let t := tilePositions w h
  let map0 := b.addr + 256
  let index0 := map0 + 256 * ceilDiv t 2048
  let bitmap := (List.range (256 * ceilDiv t 2048)).map fun i =>
    BitVec.ofNat 8 (total (fun k => b2n (occ.contains (8 * i + k)) * 2 ^ k) (List.range 8))
  let index := (List.range t).flatMap fun p => leBytes 4 (if occ.contains p then occ.idxOf p else 0xFFFFFFFF)
  State.each (fun p u => u.pondWrite (map0 + mapBytes w h + 40960 * occ.idxOf p) (s.tileBytes n ls w h p)) occ
    ((s.pondWrite map0 bitmap).pondWrite index0 index)

/-! ### Flattens (R275 to R278) -/

def ofSparse (n k : Nat) (c : Charge) : Bool := c.kind == 4 && c.holder == 2 * n + k

def State.sparseHeld (s : State) (n k : Nat) : Nat := totalMb (s.pond.charges.filter (ofSparse n k))

/-- The sparse charge of a run becomes `mb`, without an admission. -/
def State.setSparse (s : State) (n k : Nat) (buf mb : Nat) : State :=
  let keep := s.pond.charges.filter fun c => !ofSparse n k c
  { s with pond := { s.pond with charges := if mb = 0 then keep else keep ++ [{ kind := 4, holder := 2 * n + k, sub := buf, mb := mb }] } }

def State.freeFlattener (s : State) (f : Nat) : State :=
  { s with comp := { s.comp with flatteners := fset none s.comp.flatteners f none } }

/-- Place of a waiting flatten in the order of R275. -/
def aheadOf (a b : Nat × Nat × Nat) : Bool :=
  decide (a.1 < b.1) || (a.1 == b.1 && (decide (a.2.1 < b.2.1) || (a.2.1 == b.2.1 && decide (a.2.2 < b.2.2))))

/-- The runs, of any output, that already wait for a flattener. -/
def State.waitingRuns (s : State) : List (Nat × Nat × Nat) :=
  s.comp.outs.flatMap fun e => [0, 1].filterMap fun k => (runAt e.2 k).bind fun r =>
    if r.want && r.waited && r.flat.isNone then some (r.wantT, e.1, k) else none

/-- The flattener that a flatten of run `k` of output `n` may take now. -/
def State.flattenerFor (s : State) (n k : Nat) (r : StaticRun) : Option Nat :=
  let free := (List.range 16).filter fun f => (fget none s.comp.flatteners f).isNone
  free[(s.waitingRuns.filter fun w => aheadOf w (r.wantT, n, k)).length]?

/-- A wanted flatten begins at the start of frame `f`, or waits for a flattener. -/
def State.beginFlatten (s : State) (n k f : Nat) : State :=
  match runAt (s.compOut n) k with
  | none => s
  | some r =>
    if !r.want || r.flat.isSome then s
    else match s.flattenerFor n k r with
      | some g =>
        let x : Flatten := { first := f, into := if r.shown = some r.bufA then r.bufB else r.bufA,
                             from_ := staticLayers (s.compOut n) r, jobs := r.wantJobs, flattener := g }
        let s1 := s.modRun n k fun r => { r with want := false, waited := false, wantJobs := [], flat := some x }
        let s2 := { s1 with comp := { s1.comp with flatteners := fset none s1.comp.flatteners g (some (n, k)) } }
        (s2.count 5 n 13).emit (.flatten n k g)
      | none =>
        if r.waited then s
        else ((s.modRun n k fun r => { r with waited := true }).count 5 n 14).fire (384 + n)

/-- FLATTEN_COMPLETE (R278): the tiles are counted, the new charge is admitted, the image is in its buffer. -/
def doFlattenComplete (n k : Nat) (s : State) : State :=
  match runAt (s.compOut n) k, s.outRaster n with
  | some r, some o =>
    (match r.flat with
     | some x =>
       if x.result.isSome || s.sys.quiet != .awake then s
       else match s.bufAt x.into with
         | none => s
         | some b =>
           let w := b.params.width
           let h := b.params.height
           let occ := s.occupiedTiles n x.from_ w h
           let new := sparseCharge (densestRow w occ) w h o.desc
           let mb := max (s.sparseHeld n k) new
           let add : Charge := { kind := 4, holder := 2 * n + k, sub := x.into, mb := mb }
           let end_ (s : State) (st : Nat) : State :=
             (s.modRun n k fun r => { r with flat := some { x with result := some st, newCharge := new } }).freeFlattener x.flattener
           if b.params.count < occ.length then end_ s stNoResource
           else match s.admission (ofSparse n k) [add] with
             | some _ => end_ (s.count 8 0 1) stFlattenOverBudget
             | none => end_ ((s.charge (ofSparse n k) [add]).writeImage n x.from_ b occ) stOk
     | none => s)
  | _, _ => s

/-! ### Swap and rejection (R278, R279) -/

/-- A contributing command completes, once no run of its output waits with it any more. -/
def State.finishStatic (s : State) (n status : Nat) (job : Nat) : State :=
  let waits := (s.compOut n).runs.any fun r => r.any fun (x : StaticRun) => x.wantJobs.contains job ||
    x.flat.any (fun f => f.jobs.contains job) || x.waiting.any fun w => w.job == job
  if status = stOk && waits then s else s.completeId job status 0 (some (2 + n))

/-- Layers of a run leave FLATTENING, but for those whose change still waits. -/
def leaveFlattening (k : Nat) (r : StaticRun) (x : Flatten) (c : CompOut) : CompOut :=
  layerNos.foldl (fun c l =>
    let y := layerOf c l
    if y.sluice = .flattening && (rangeRun c y.a = some k || x.from_.any fun e => e.1 == l) &&
        !(r.waiting.any fun w => w.layer == l) then
      setLayer c l { y with sluice := if y.pend.isSome then .pending else .idle }
    else c) c

/-- The changes that waited for a flatten apply, and the next is wanted with them. -/
def State.applyWaiting (s : State) (n k : Nat) (ws : List StaticChange) : State :=
  State.each (fun w s =>
    let (later, s1) := s.changeLayer n w.layer w.a w.job
    if later then s1 else s1.finishStatic n stOk w.job) ws (s.modRun n k fun r => { r with waiting := [] })

/-- A run after its flatten was rejected: a definition that a STATIC_SET gave with it is undone, and a run that it formed is gone (R23,
R278). -/
def undone (r : StaticRun) : Option StaticRun :=
  let r1 := { r with prior := [], flat := none, was := none }
  match r.was with
  | none => some r1
  | some none => none
  | some (some (zlo, zhi, a, b)) => some { r1 with zlo := zlo, zhi := zhi, bufA := a, bufB := b }

/-- A flatten that began at frame B ends at frame start B + 2: the image swaps in, or the flatten is rejected. -/
def State.endFlatten (s : State) (n k f : Nat) : State :=
  match runAt (s.compOut n) k with
  | none => s
  | some r =>
    match r.flat with
    | none => s
    | some x =>
      match x.result with
      | none => s
      | some st =>
        if f < x.first + 2 then s
        else
          let c1 := leaveFlattening k r x (s.compOut n)
          let s1 := if st = stOk then
              let c2 := setRun c1 k (some { r with shown := some x.into, zAt := r.zlo, built := x.from_, indiv := [], prior := [], was := none, flat := none })
              (s.setCompOut n c2).setSparse n k x.into x.newCharge
            else
              let c2 := r.prior.foldl (fun c e => setAttr c e.1 e.2) c1
              (((s.setCompOut n (setRun c2 k (undone r))).count 5 n 15).fire (384 + n))
          let s2 := State.each (fun j s => s.finishStatic n st j) x.jobs s1
          (s2.applyWaiting n k r.waiting).holdLayers n []

/-- Both runs of an output at the start of its frame `f`, before the flips. -/
def State.swapFrame (s : State) (n f : Nat) : State := (s.endFlatten n 0 f).endFlatten n 1 f

/-- Both runs at the end of the frame start's actions. -/
def State.flattenFrame (s : State) (n f : Nat) : State := (s.beginFlatten n 0 f).beginFlatten n 1 f

/-! ### STATIC_SET (R273, R279) -/

/-- A sparse tiled layer of the output's active size. -/
def State.sparseOk (s : State) (n h : Nat) : Bool :=
  match s.bufAt h, s.outRaster n with
  | some b, some o => b.params.typ == 3 && b.params.width == o.desc.activeSamples && b.params.height == o.desc.activeLines
  | _, _ => false

/-- Another run names the buffer. -/
def State.namedByRun (s : State) (n k h : Nat) : Bool :=
  s.comp.outs.any fun e => [0, 1].any fun i => !(e.1 == n && i == k) &&
    (runAt e.2 i).any fun r => r.bufA == h || r.bufB == h || r.shown == some h

def chkStaticSet (h : Hdr) (p : StaticSetP) (s : State) : Check :=
  let c := settled (s.compOut p.output)
  let r := newRun p (runAt c p.run)
  let after := setRun c p.run (if p.op = 0 then none else some r)
  let badLayer (l : Nat) : Bool := let x := layerOf c l
    inRange r x.a && (x.group.isSome || x.a.follow || isLineRing s x.a)
  failIf (p.rsvd != 0 || decide (512 ≤ p.output) || (s.txStream p.output).isNone || decide (2 ≤ p.run) || decide (2 ≤ p.op) ||
        (h.sched && h.line != 1)) stBadParam
  <|> failIf (p.op == 1 && (!between 1 p.zlo 7 || !between p.zlo p.zhi 7 ||
        ((runAt c (1 - p.run)).any fun x => decide (p.zlo ≤ x.zhi) && decide (x.zlo ≤ p.zhi)) || layerNos.any badLayer ||
        p.bufA == p.bufB || !s.sparseOk p.output p.bufA || !s.sparseOk p.output p.bufB ||
        s.namedByRun p.output p.run p.bufA || s.namedByRun p.output p.run p.bufB)) stBadParam
  <|> s.admitLayers p.output after <|> failIf (p.op == 1 && !s.workOk p.output c after) stFlattenOverBudget

/-- STATIC_SET holds the readers of the layers it returns to individual display (R184, R279). -/
def planStaticSet (p : StaticSetP) (s : State) : State := s.holdLayers p.output [afterStatic (s.compOut p.output) p]

def startStaticSet (h : Hdr) (p : StaticSetP) (s : State) : Ans :=
  orAns (chkStaticSet h p s) (.later (planStaticSet p s) .apply (2 + p.output))

/-- A run is dissolved: its flatten is dropped, its waiting changes apply, its sparse charge is released; the jobs that waited. -/
def State.dissolve (s : State) (n k : Nat) : List Nat × State :=
  match runAt (s.compOut n) k with
  | none => ([], s)
  | some r =>
    let c0 := r.waiting.foldl (fun c w => setAttr c w.layer w.a) (s.compOut n)
    let c1 := layerNos.foldl (fun c l => let y := layerOf c l
      if y.sluice = .flattening && rangeRun c y.a = some k then
        setLayer c l { y with sluice := if y.pend.isSome then .pending else .idle } else c) c0
    let s1 := (s.setCompOut n (setRun c1 k none)).setSparse n k 0 0
    let s2 := match r.flat with
      | some x => if x.result.isNone then s1.freeFlattener x.flattener else s1
      | none => s1
    (r.wantJobs ++ (r.flat.map (·.jobs)).getD [] ++ r.waiting.map (·.job), s2)

/-- A run is formed or redefined: its layers stay shown as they were until the image swaps in (R277). -/
def formRun (now : Tick) (job : Nat) (p : StaticSetP) (c : CompOut) : CompOut :=
  let old := runAt c p.run
  let r := newRun p old
  let alone := layerNos.filterMap fun l =>
    if isStatic r (layerOf c l).a then (shownAttr c l).map fun a => (l, a) else none
  let def_ (x : StaticRun) : Nat × Nat × Nat × Nat := (x.zlo, x.zhi, x.bufA, x.bufB)
  setRun c p.run (some { r with was := some (r.was.getD (old.map def_)), want := true, wantT := if r.want then r.wantT else now, wantJobs := r.wantJobs ++ [job],
                                indiv := r.indiv ++ alone.filter fun e => !(r.indiv.any fun i => i.1 == e.1) })

/-- STATIC_SET at its line. Forming waits for a flatten of the run to end (R279). -/
def applyStaticSet (j : Job) (p : StaticSetP) (s : State) : State :=
  let n := p.output
  if j.raster != 2 + n then s.setJob { j with raster := 2 + n, frame := none, line := 1 }
  else if p.op = 0 then
    let (jobs, s1) := s.dissolve n p.run
    (State.each (fun i s => s.finishStatic n stOk i) jobs (s1.complete j stOk 0 (some (2 + n)))).holdLayers n []
  else if (runAt (s.compOut n) p.run).any fun r => r.flat.isSome then s.setJob { j with frame := none }
  else
    let s1 := s.setJob { j with kind := .event }
    (s1.setCompOut n (formRun s.now j.id p (s1.compOut n))).holdLayers n []

def releaseStaticSet (j : Job) (p : StaticSetP) (s : State) : State := releaseLayerSet j p.output s

/-! ### The end of an output (R270) -/

def leaveGroup (n : Nat) (g : Group) : Group :=
  { g with members := g.members.filter fun m => m.1 != n, taking := g.taking.filter fun m => m.1 != n }

/-- The compositor of an output that ceases to exist. -/
def State.dropComp (s : State) (n : Nat) : State :=
  let c := s.compOut n
  let flips := c.layers.flatMap fun x => (flipsOf x).map (·.job)
  let (j0, s0) := s.dissolve n 0
  let (j1, s1) := s0.dissolve n 1
  let s2 := s1.completeAll stCancelled 0 (some (2 + n)) (flips ++ j0 ++ j1)
  let s3 := s2.completeWhere (fun j => (afterJob c n j).isSome || (match j.params with
    | .compSet p => p.output == n
    | .staticSet p => p.output == n
    | _ => false)) stCancelled 0 (some (2 + n))
  { s3 with comp := { s3.comp with outs := fset {} s3.comp.outs n {}, groups := tmap {} (fun _ g => leaveGroup n g) s3.comp.groups },
            pond := { s3.pond with charges := s3.pond.charges.filter fun x => !ofLayers n x && !ofSparse n 0 x && !ofSparse n 1 x } }

/-! ### Line-ring misses (R256) -/

/-- Misses on output active line `k`: layers on line rings whose row there is not in the ring. -/
def State.ringMisses (s : State) (n k : Nat) : State :=
  let c := s.compOut n
  s.count 5 n 12 (total (fun l => match shownAttr c l with
    | some a => (match a.buf.bind s.bufAt with
      | some b =>
        let (_, cy, _, ch) := s.cropNow a
        let r : Int := (k : Int) - a.y
        b2n (b.params.typ == 1 && decide (0 ≤ r) && decide (r < ch) && !((layerOf c l).ringF.any fun f => s.ringHolds b f (cy + r.toNat)))
      | none => 0)
    | none => 0) layerNos)

/-! ### The composed picture (R258, R259) -/

/-- Pixel of a sparse tiled layer: transparent where its tile is not occupied. -/
def State.sparsePixel (s : State) (b : Buf) (tag x y : Nat) : List Nat :=
  let w := b.params.width
  let t := tilePositions w b.params.height
  let p := y / 64 * ceilDiv w 64 + x / 64
  let e := s.pondNat (b.addr + 256 + 256 * ceilDiv t 2048 + 4 * p) 4
  if e = 0xFFFFFFFF then [blackOf tag 0, blackOf tag 1, blackOf tag 2, 0]
  else s.loadPixels (b.addr + 256 + mapBytes w b.params.height + 40960 * e + 640 * (y % 64)) 6 (x % 64) 1

/-- What is blended over layer 0, in ascending Z: each as the pixel it shows at (x, y), with its global alpha, and whether it is a
4:2:2 layer, which a 4:2:2 output blends as it stands (R258). -/
def State.overlays (s : State) (n : Nat) : List (Nat × (Nat → Nat → Option (List Nat)) × Nat × Bool) :=
  let c := s.compOut n
  let alone := layerNos.filterMap fun l => (shownAttr c l).map fun a =>
    (a.z, (fun x y => s.layerPixel n a (layerOf c l).ringF x y), a.galpha, (a.buf.bind s.bufAt).any fun b => memStructure b.params.format == 0)
  let images := c.runs.filterMap fun r => r.bind fun (x : StaticRun) => (x.shown.bind s.bufAt).map fun b =>
    (x.zAt, (fun i y => some (s.sparsePixel b (s.outTag n) i y)), 4096, false)
  (List.range 8).flatMap fun z => (alone ++ images).filter fun e => e.1 == z

/-- One overlay blended over the pixels of an output picture. On 4:2:2 its chroma and chroma alpha are decimated, but for a 4:2:2
layer, whose cosited samples stand in the even columns (R258). -/
def overlayPic (tag : Nat) (px : Nat → Nat → Option (List Nat)) (galpha : Nat) (cosited : Bool) (d : Pic) : Pic :=
  let val (x y c : Nat) : Nat := match px x y with
    | some p => p.getD c 0
    | none => if c = 3 then 0 else blackOf tag c
  if d.st = 0 then
    let down (x y c : Nat) : Nat := if cosited then val (x - x % 2) y c
      else clampNative (chromaDown 0 (fun i => (val (edge i d.w) y c : Nat)) (x - x % 2))
    { d with at_ := fun x y c =>
        if c = 1 then blend (d.at_ x y 1) (val x y 0) (blackOf tag 0) (val x y 3) galpha
        else
          let k := if x % 2 = 0 then 1 else 2
          blend (d.at_ x y 0) (down x y k) (blackOf tag k) (down x y 3) galpha }
  else
    { d with at_ := fun x y c =>
        if c = 3 then blendAlpha (d.at_ x y 3) (val x y 3) galpha
        else blend (d.at_ x y c) (val x y c) (blackOf tag c) (val x y 3) galpha }

/-- The output's picture over layer 0. -/
def State.composed (s : State) (n : Nat) (layer0 : Pic) : Pic :=
  (s.overlays n).foldl (fun d e => overlayPic (s.outTag n) e.2.1 e.2.2.1 e.2.2.2 d) layer0

end Sys2Proof.Machine
end

