-- ==== Sys2Proof/Machine/Audio.lean ====
section
/-! DEFINITION. The Leat (chapter 11): channels, domains, the sample store, sample-rate conversion, and what a destination carries at
each sample. Times are in 1/196 tick, in which every sample period of Table 11.2 is whole. -/

namespace Sys2Proof.Machine

/-! ### Rates (Table 11.2) -/

def rateFs : Nat → Nat
  | 0 => 32000 | 1 => 44100 | 2 => 48000 | 3 => 88200 | 4 => 96000 | _ => 192000

def rateK : Nat → Nat
  | 3 | 4 => 2 | 5 => 4 | _ => 1

def rateN : Nat → Nat
  | 0 => 160 | 1 => 221 | 2 => 240 | 3 => 441 | 4 => 480 | _ => 960

/-- Sample period. -/
def samplePeriod (r : Nat) : Int := 52920000000 / rateFs r

def tick196 (t : Int) : Int := 196 * t

/-! ### Access -/

def State.dst (s : State) (c : Nat) : Dst := fget {} s.audio.dsts c
def State.setDst (s : State) (c : Nat) (d : Dst) : State := { s with audio := { s.audio with dsts := fset {} s.audio.dsts c d } }
def State.embed (s : State) (n : Nat) : Embed := fget {} s.audio.embeds n
def State.setEmbed (s : State) (n : Nat) (e : Embed) : State := { s with audio := { s.audio with embeds := fset {} s.audio.embeds n e } }
def State.port (s : State) (p : Nat) : TdmPort := fget {} s.audio.ports p
def State.setPort (s : State) (p : Nat) (x : TdmPort) : State := { s with audio := { s.audio with ports := fset {} s.audio.ports p x } }
def State.domain (s : State) (d : Nat) : Domain := fget {} s.audio.domains d
def State.setDomain (s : State) (d : Nat) (x : Domain) : State := { s with audio := { s.audio with domains := fset {} s.audio.domains d x } }
def State.asrc (s : State) (g : Nat) : Option Asrc := fget none s.audio.asrc g
def State.setAsrc (s : State) (g : Nat) (x : Option Asrc) : State := { s with audio := { s.audio with asrc := fset none s.audio.asrc g x } }

/-- Identifiers of measured domains: the audio of stream `n` at rate `r`, and the input slots of port `p`. -/
def streamDomain (n r : Nat) : Nat := 8 * n + r
def portDomain (p : Nat) : Nat := 4096 + p

/-! ### House grids (R285) -/

/-- Time of sample 0 of a house's grid, as its current frame places it. -/
def State.gridZero (s : State) (house : Nat) : Int :=
  let h := s.house house
  tick196 ((h.frameT : Int) - h.frame.toNat * descPeriod h.desc)

/-- First grid index at or after a time, and last at or before. -/
def indexFrom (zero per t : Int) : Int := -((zero - t) / per)
def indexTo (zero per t : Int) : Int := (t - zero) / per

/-- The sample of a grid that a time within half a period of it stands for. -/
def gridIndex (zero per t : Int) : Int := (2 * (t - zero) + per) / (2 * per)

/-! ### Domains (R286) -/

/-- Signed difference of two phases, in (-P/2, P/2]. -/
def phaseDiff (a b per : Int) : Int :=
  let d := (a - b) % per
  if per < 2 * d then d - per else d

/-- One house's judgement of `n` samples from time `t`: the offset, the offset of the last sample, run and lock. -/
def domainHouse (zero per t : Int) (n : Nat) (off last : Int) (run : Nat) (lock fresh : Bool) : Int × Int × Nat × Bool :=
  let now := if fresh then phaseDiff t zero per else last + phaseDiff (t - zero) last per
  if fresh then (now, now, n, false)
  else if lock then (if per < 2 * Int.natAbs (now - off) then (now, now, n, false) else (off, now, run, true))
  else if 4 * (Int.natAbs (now - off) : Int) ≤ per then (off, now, min (run + n) 262144, false)
  else (now, now, n, false)

/-- Source 64 + n / 8 of a stream's domain, on a change of its lock. -/
def State.domainEvent (s : State) (d : Nat) : State := if d < 4096 then s.fire (64 + d / 64) else s

/-- A Leat decision that a LEAD has taken goes to its MATE (R320). -/
def State.sendLeat (s : State) (body : List Nat) : State := if s.isLead then s.emit (.brinen 7 body) else s

/-- A domain's locks and offsets as a LEAT message carries them. -/
def domainBody (d : Nat) (x : Domain) : List Nat := [1, d, b2n x.lockA, b2n x.lockB, encInt 64 x.offA, encInt 64 x.offB]

/-- `n` samples of a measured domain arrive, the first of source time `t`. A MATE's locks and offsets are its LEAD's (R320). -/
def State.measure (s : State) (d rate : Nat) (t : Int) (n : Nat) : State :=
  let x := s.domain d
  let per := samplePeriod rate
  let fresh := x.lastT.isNone
  let (oa, la, ra, ka) := domainHouse (s.gridZero 0) per t n x.offA x.lastA x.runA x.lockA fresh
  let (ob, lb, rb, kb) := domainHouse (s.gridZero 1) per t n x.offB x.lastB x.runB x.lockB fresh
  let y : Domain := { offA := oa, offB := ob, lastA := la, lastB := lb, runA := ra, runB := rb, lockA := ka, lockB := kb, lastT := some s.now }
  if s.isMate then s.setDomain d { y with offA := x.offA, offB := x.offB, lockA := x.lockA, lockB := x.lockB }
  else
    let s1 := s.setDomain d y
    if (x.lockA && !ka) || (x.lockB && !kb) then (s1.domainEvent d).sendLeat (domainBody d y) else s1

/-- DOMAIN_LOCK (R286). -/
def doDomainLock (d house : Nat) (s : State) : State :=
  let x := s.domain d
  let y := if house = 0 then { x with lockA := x.lockA || decide (262144 ≤ x.runA) } else { x with lockB := x.lockB || decide (262144 ≤ x.runB) }
  if x = y || s.isMate then s else ((s.setDomain d y).domainEvent d).sendLeat (domainBody d y)

/-- DOMAIN_SAMPLE_TIMEOUT (R286). -/
def doDomainTimeout (d : Nat) (s : State) : State :=
  let x := s.domain d
  match x.lastT with
  | some t => if t + 270000000 ≤ s.now && !s.isMate then
      let s1 := s.setDomain d {}
      if x.lockA || x.lockB then (s1.domainEvent d).sendLeat (domainBody d {}) else s1
    else s
  | none => s

/-! ### ASRC groups (R297 to R299) -/

/-- The channels of a group, from its first at spacing k of its input rate. -/
def asrcChannels (a : Asrc) : List Nat := (List.range a.p.count).map fun i => a.p.first + rateK a.inRate * i

/-- The group that converts a source channel. -/
def State.asrcOf (s : State) (ch : Nat) : Option (Nat × Asrc) :=
  s.audio.asrc.findSome? fun e => e.2.bind fun (a : Asrc) => if (asrcChannels a).contains ch then some (e.1, a) else none

/-- A group changes state: event and counter. -/
def State.asrcTo (s : State) (g : Nat) (a : Asrc) (st : AsrcSt) : State :=
  ((s.setAsrc g (some { a with st := st, sinceT := s.now, wasLocked := a.st == .locked })).count 12 (32 + g) 1).fire (928 + g / 8)

/-- The ratio of source period `per` to the target's lies in [0.9, 1.1]. -/
def ratioIn (per out : Int) : Bool := decide (9 * per ≤ 10 * out) && decide (10 * out ≤ 11 * per)

/-- A block of `n` samples at time `t` reaches a group: the ratio is measured, and the state follows it (R299). -/
def State.asrcTrack (s : State) (g : Nat) (a : Asrc) (t : Int) (n : Nat) : State :=
  let nominal := samplePeriod a.inRate
  let per := match a.lastT with
    | some t0 => if a.lastN = 0 then nominal else (t - t0) / a.lastN
    | none => nominal
  let err : Int := match a.lastT with
    | some t0 => if a.per = 0 then 0 else t - t0 - a.lastN * a.per
    | none => 0
  let slipped := decide (nominal < 2 * Int.natAbs err)
  let b := { a with lastT := some t, lastN := n, per := per, phase := err }
  let s1 := s.setAsrc g (some (if s.isMate then { a with lastT := some t, lastN := n } else b))
  let inside := ratioIn per (samplePeriod a.p.outRate)
  if s.isMate then s1
  else match a.st with
  | .range => if inside then s1.asrcTo g b .acquire else s1
  | .locked => if !inside then s1.asrcTo g b .range else if slipped then s1.asrcTo g b .acquire else s1
  | .acquire => if !inside then s1.asrcTo g b .range
      else if nominal ≤ 64 * Int.natAbs err then s1.setAsrc g (some { b with sinceT := s.now }) else s1

/-- ASRC_LOCK: the phase error has stayed small for 250 ms. -/
def doAsrcLock (g : Nat) (s : State) : State :=
  match s.asrc g with
  | some a => if a.st = .acquire && a.lastT.isSome && a.sinceT + 67500000 ≤ s.now && !s.isMate then s.asrcTo g a .locked else s
  | none => s

/-- ASRC_SOURCE_TIMEOUT: no sample of the source domain for 100 ms. -/
def doAsrcTimeout (g : Nat) (s : State) : State :=
  match s.asrc g with
  | some a =>
    let quiet := match a.lastT with
      | some t => decide (t + tick196 27000000 ≤ tick196 s.now)
      | none => false
    if a.st = .locked && quiet && !s.isMate then s.asrcTo g { a with lastT := none, per := 0 } .acquire else s
  | none => s

/-! ### Non-audio judgement (R317) -/

/-- A burst preamble pair in two consecutive samples of a pair, as 16, 20 or 24-bit left-justified words. -/
def preamble (a b : Int) : Bool :=
  let u := encInt 24 a
  let v := encInt 24 b
  (u == 0xF87200 && v == 0x4E1F00) || (u == 0x6F8720 && v == 0x54E1F0) || (u == 0x96F872 && v == 0xA54E1F)

/-- A pair judges one sample frame: its two values, and the C and Z bits where it carries channel status. -/
def judgeFrame (x : PairJudge) (a b : Int) (cz : Option (Bool × Bool)) : PairJudge :=
  let burst := preamble x.prevWord a || preamble a b
  let x1 : PairJudge := { x with prevWord := b, clean := if burst then 0 else min 4096 (x.clean + 1), non := x.non || burst }
  match cz with
  | none => x1
  | some (c, z) =>
    let full := z && x.cs.length == 192
    let pro := x.cs.getD 0 false
    let bit1 := x.cs.getD 1 false
    let x2 : PairJudge := if full then { x1 with prof := pro, bit1 := bit1, non := x1.non || (pro && bit1) } else x1
    { x2 with cs := if z then [c] else if x.cs.isEmpty then [] else (x.cs ++ [c]).take 192,
              pos := if z then some 0 else x.pos.bind fun k => if k < 191 then some (k + 1) else none }

/-- NONAUDIO_REVERT: 4,096 frames without a preamble, and the last channel-status block has bit 1 clear. -/
def doNonaudioRevert (pair : Nat) (s : State) : State :=
  let x : PairJudge := fget {} s.audio.pairs pair
  if x.non && x.clean = 4096 && !x.bit1 && !s.isMate then
    ({ s with audio := { s.audio with pairs := fset {} s.audio.pairs pair { x with non := false } } }).sendLeat [3, pair, 0]
  else s

/-! ### The sample store (R294) -/

/-- Ticks that a source channel's samples are kept: the window of R294, and the lip-sync rings behind it (R306). -/
def State.keepTicks (s : State) (ch : Nat) : Nat :=
  2160000 + (s.audio.dsts.map fun e => if e.1 < 16384 && (e.2.route.any fun (r : AudRoute) => r.src == ch) then
    let x := s.embed (e.1 / 32)
    max x.da x.oldDa + (x.p.map fun (p : AudioEmbedP) => p.gEmb).getD 0 else 0).foldl max 0

/-- Samples of channel `ch` from time `t` join the store; late ones are discarded and counted, as is a whole block that reaches
past the window's end. -/
def State.storeChannel (s : State) (ch rate : Nat) (t : Int) (vals : List (Int × Nat)) (pos : List (Option Nat)) (non : List Bool) : State :=
  let per := samplePeriod rate
  let n := vals.length
  let endT := tick196 (s.now + 720000)
  let low := tick196 ((s.now : Int) - 2160000)
  let s1 := { s with audio := { s.audio with rates := fset 0 s.audio.rates ch (rate + 1) } }
  if endT ≤ t + per * ((n : Int) - 1) then s1.count 11 ch 1
  else
    let all : List Samp := (List.range n).map fun (i : Nat) =>
      { t := t + per * (i : Int), arrived := s.now, value := (vals.getD i (0, 0)).1, side := (vals.getD i (0, 0)).2, pos := pos.getD i none, non := non.getD i false }
    let good := all.filter fun x => decide (low ≤ x.t)
    let keep := tick196 ((s.now : Int) - s.keepTicks ch)
    let old := (fget [] s1.audio.store ch).filter fun (x : Samp) => decide (keep ≤ x.t)
    ({ s1 with audio := { s1.audio with store := fset [] s1.audio.store ch (good.reverse ++ old) } }).count 11 ch 0 (n - good.length)

/-- The frames of a pair's block judged in order: the judgement, and per frame the status position and the verdict. -/
def judgeBlock : PairJudge → List (Int × Int × Option (Bool × Bool)) → PairJudge × List (Option Nat × Bool)
  | x, [] => (x, [])
  | x, (a, b, cz) :: r =>
    let y := judgeFrame x a b cz
    let (z, l) := judgeBlock y r
    (z, (y.pos, x.non) :: l)

/-- A pair of source channels receives a block. A MATE's pairs are non-audio where its LEAD says so (R320). -/
def State.storePair (s : State) (ch0 ch1 rate : Nat) (t : Int) (a : List (Int × Nat)) (b : Option (List (Int × Nat))) (status : Bool) : State :=
  let frames := (List.range a.length).map fun i =>
    let v := a.getD i (0, 0)
    let w := (b.getD []).getD i (0, 0)
    (v.1, w.1, if status then some (v.2.testBit 2, v.2.testBit 3) else none)
  let x : PairJudge := fget {} s.audio.pairs (ch0 / 2)
  let (own, marks) := judgeBlock x frames
  let j : PairJudge := if s.isMate then { own with non := x.non } else own
  let l := if s.isMate then marks.map fun m => (m.1, x.non) else marks
  let s0 := { s with audio := { s.audio with pairs := fset {} s.audio.pairs (ch0 / 2) j } }
  let s1 := if j.non = x.non then s0 else s0.sendLeat [3, ch0 / 2, b2n j.non]
  let s2 := s1.storeChannel ch0 rate t a (l.map (·.1)) (l.map (·.2))
  match b with
  | some v => s2.storeChannel ch1 rate t v (l.map (·.1)) (l.map (·.2))
  | none => s2

/-- A block of a domain has arrived: its domain is measured, and the groups on its channels track it. -/
def State.blockArrived (s : State) (d rate : Nat) (chans : List Nat) (t : Int) (n : Nat) : State :=
  let gs := (chans.filterMap fun c => (s.asrcOf c).map (·.1)).eraseDups
  State.each (fun g s => match s.asrc g with
    | some a => s.asrcTrack g a t n
    | none => s) gs (s.measure d rate t n)

/-! ### Sources (R281, R296) -/

/-- How a source channel's time relates to the grids. -/
inductive SrcDom where
  | measured (d : Nat)
  | grid (house : Nat)
  deriving DecidableEq, Repr

/-- The ring binding of a kind that holds channel index `m`. -/
def State.ringOf (s : State) (kind m : Nat) : Option RingBind :=
  s.audio.rings.find? fun b => b.p.kind == kind && decide (b.p.first ≤ m) && decide (m < b.p.first + b.p.count)

/-- Slot of a TDM channel number at a rate, and the port. -/
def tdmPortOf (c : Nat) : Nat := (c - 16384) / 32
def tdmSlotOf (c rate : Nat) : Nat := (c - 16384) % 32 / rateK rate

/-- A source channel that exists: its rate and its domain; the rate of an embedded channel is that of its last block. -/
def State.srcInfo (s : State) (c : Nat) : Option (Nat × SrcDom) :=
  if c < 16384 then
    (s.rxStream (c / 32)).map fun _ => let r := fget 0 s.audio.rates c - 1
      (r, .measured (streamDomain (c / 32) r))
  else if c < 17408 then
    let p := tdmPortOf c
    ((s.port p).cfg).bind fun k => if tdmSlotOf c k.rate < k.slots then
        some (k.rate, if k.role = 0 then .grid (b2n k.houseB) else .measured (portDomain p))
      else none
  else if c < 18432 then (s.ringOf 1 (c - 17408)).map fun b => (b.p.rate, .grid b.p.house)
  else none

/-- The source is present but for its rate (R296). -/
def State.srcThere (s : State) (c : Nat) : Bool :=
  if c < 16384 then s.present (c / 32)
  else if c < 17408 then
    let x := s.port (tdmPortOf c)
    match x.cfg with
    | some k => x.framed && k.diMask.testBit (tdmSlotOf c k.rate)
    | none => false
  else true

/-- The rate and domain in which a destination finds a source: a group's target when one converts it. -/
def State.srcFound (s : State) (c : Nat) : Option (Nat × SrcDom × Option (Nat × Asrc)) :=
  (s.srcInfo c).map fun (r, d) => match s.asrcOf c with
    | some (g, a) => (a.p.outRate, (if a.p.target < 2 then .grid a.p.target else .measured (portDomain a.p.tport)), some (g, a))
    | none => (r, d, none)

/-- A channel converted by a group arrives at a rate other than the group's (R297). -/
def State.asrcUnfit (s : State) (c : Nat) : Bool :=
  match s.asrcOf c, s.srcInfo c with
  | some (_, a), some (r, _) => r != a.inRate
  | _, _ => false

/-! ### Destinations (R281, R287) -/

/-- A destination as Table 11.3 gives it: rate, domain, time of its sample 0, block length, lag of its service time, delay. -/
structure DstInfo where
  rate : Nat
  dom : SrcDom
  zero : Int
  block : Nat
  lag : Int
  delay : Int
  deriving DecidableEq, Repr

/-- Time of TDM frame 0 of a framed target port. -/
def State.framesZero (s : State) (p rate : Nat) : Int := tick196 ((s.port p).lastEdge.getD 0) - samplePeriod rate * (s.port p).frames

/-- House of an output's raster. -/
def State.houseOf (s : State) (n : Nat) : Nat := ((s.outRaster n).map fun o => o.desc.house).getD 0

def State.dstInfo (s : State) (c : Nat) : Option DstInfo :=
  if c < 16384 then
    let n := c / 32
    ((s.embed n).p).bind fun p => if c % 32 < p.slots && (s.txStream n).isSome then
        some { rate := p.rate, dom := .grid (s.houseOf n), zero := s.gridZero (s.houseOf n), block := blockSamples p.blkLen,
               lag := tick196 p.gEmb, delay := tick196 (s.embed n).da }
      else none
  else if c < 17408 then
    let p := tdmPortOf c
    let x := s.port p
    x.cfg.bind fun k => if k.slots ≤ tdmSlotOf c k.rate then none
      else
        let base : DstInfo := { rate := k.rate, dom := .grid (b2n k.houseB), zero := s.gridZero (b2n k.houseB), block := 16,
                                lag := tick196 (-2700), delay := tick196 k.portDelay }
        if k.role = 0 then some base
        else if x.framed then some { base with dom := .measured (portDomain p), zero := s.framesZero p k.rate }
        else none
  else if c < 18432 then
    (s.ringOf 0 (c - 17408)).map fun b =>
      { rate := b.p.rate, dom := .grid b.p.house, zero := s.gridZero b.p.house, block := 16, lag := 0, delay := tick196 b.p.delay }
  else none

/-- Locks and offsets of a measured domain. -/
def lockOf (x : Domain) (house : Nat) : Option Int :=
  if house = 0 then (if x.lockA then some x.offA else none) else (if x.lockB then some x.offB else none)

/-- R288: the offset of a direct fetch, none where the pairing slips. -/
def State.directOffset (s : State) (src dst : SrcDom) : Option Int :=
  if src = dst then some 0
  else match src, dst with
    | .grid x, .grid y => if x = y then some 0 else none
    | .measured d, .grid x => lockOf (s.domain d) x
    | .grid x, .measured d => (lockOf (s.domain d) x).map fun o => -o
    | .measured d, .measured e =>
      match lockOf (s.domain d) 0, lockOf (s.domain e) 0, lockOf (s.domain d) 1, lockOf (s.domain e) 1 with
      | some a, some b, _, _ => some (a - b)
      | _, _, some a, some b => some (a - b)
      | _, _, _, _ => none

/-! ### Fetching (R288, R298, R314) -/

/-- A fetched sample: its source time, value, side bits, status position and non-audio mark. -/
abbrev Fetched := Samp

/-- The weight w_n of R293 at 2^-20 after sample `n` of a transition over `len`: the raised cosine, rounded as the table has it. -/
def weight (len n : Nat) : Nat :=
  if n = 0 then 0
  else if len ≤ n then 2 ^ 20
  else
    let w := ((2 ^ 100 - cosPi n len) / 2).toNat
    min (w / 2 ^ 80 + b2n (decide (w % 2 ^ 80 ≠ 0) && Config.weightUp len n)) (2 ^ 20)

/-- The group's output level after its last change of state, in 2^-20: the transitions of R299. -/
def asrcLevel (a : Asrc) (t : Int) : Nat :=
  let n := ((t - tick196 a.sinceT) / samplePeriod a.p.outRate + 1).toNat
  match a.st with
  | .locked => weight (rateN a.p.outRate) n
  | .acquire => if a.wasLocked then 2 ^ 20 - weight (rateN a.p.outRate) n else 0
  | .range => 0

/-- A sample limited to 24 bits. -/
def clamp24 (v : Int) : Int := min (max v (-8388608)) 8388607

/-- ROUND of R292: `x` by a coefficient in 2^-20. -/
def scaleSample (x e : Int) : Int := (x * e + 2 ^ 19) / 2 ^ 20

/-- The converted sample of a group at source time `t`, available once the input reaches 32 periods further. -/
def State.asrcFetch (s : State) (c : Nat) (a : Asrc) (t service : Int) : Option Fetched :=
  let l := (fget [] s.audio.store c).filter fun (x : Samp) => decide (tick196 x.arrived < service)
  if l.any fun x => decide (t + 32 * samplePeriod a.inRate ≤ x.t) then
    some { t := t, arrived := 0, value := scaleSample (clamp24 (Config.asrcSample a.per a.phase (l.map fun x => (x.t, x.value)) t)) (asrcLevel a t),
           non := ((l.find? fun x => decide (x.t ≤ t)).map (·.non)).getD false }
  else none

/-- Frame `i` of a ring, channel `k`: the P4 word's sample (R313, R316). -/
def State.ringSample (s : State) (b : Buf) (i k : Nat) : Int :=
  decInt 24 (s.pondNat (b.addr + 256 + 4 * (b.params.count * (i % max b.params.size 1) + k)) 4 / 256)

/-- Non-audio of a playout pair at ring frame `i`: a preamble in the 4,096 frames before it. -/
def State.ringNon (s : State) (b : Buf) (i k : Nat) : Bool :=
  let e := k / 2 * 2
  (List.range (min i (min b.params.size 4096))).any fun d =>
    let f := i - 1 - d
    preamble (s.ringSample b f e) (s.ringSample b f (e + 1)) || (1 ≤ f && preamble (s.ringSample b (f - 1) (e + 1)) (s.ringSample b f e))

/-- Source time of frame `i` of a playout ring (R313, R314). -/
def State.ringTime (s : State) (r : RingBind) (b : Buf) (i : Int) : Int :=
  tick196 (((BitVec.ofNat 64 (s.pondNat (b.addr + 8) 8) - s.clk.offset).toNat : Int) + r.p.delay) + i * samplePeriod r.p.rate

/-- A playout channel's sample at or before source time `t` (R314); the ring holds its last SIZE written frames (R296). -/
def State.ringFetch (s : State) (r : RingBind) (m : Nat) (t : Int) : Option Fetched :=
  (s.bufAt r.p.handle).bind fun b =>
    let i := (t - s.ringTime r b 0) / samplePeriod r.p.rate
    if i < 0 || (s.pondNat b.addr 8 : Int) ≤ i || i + b.params.size < s.pondNat b.addr 8 then none
    else some { t := s.ringTime r b i, arrived := 0, value := s.ringSample b i.toNat (m - r.p.first), non := s.ringNon b i.toNat (m - r.p.first) }

/-- The sample a destination needs at source time `t`, none when it is not available before `service` (R287, R288). -/
def State.fetch (s : State) (c : Nat) (dst : DstInfo) (t service : Int) : Option Fetched :=
  match s.srcFound c with
  | none => none
  | some (rate, dom, group) =>
    let per := samplePeriod rate
    if rate != dst.rate || !s.srcThere c || s.asrcUnfit c then none
    else
      let off := s.directOffset dom dst.dom
      match group with
      | some (_, a) =>
        let zero := match dom with
          | .grid x => s.gridZero x
          | .measured d => s.framesZero (d - 4096) rate
        s.asrcFetch c a (zero + (t - zero) / per * per) service
      | none =>
        if 17408 ≤ c then (s.ringOf 1 (c - 17408)).bind fun r => s.ringFetch r (c - 17408) t
        else
          let l := (fget [] s.audio.store c).filter fun (x : Samp) => decide (tick196 x.arrived < service)
          match off with
          | some o => l.find? fun x => gridIndex dst.zero per (x.t - o) == (t - dst.zero) / per
          | none => l.find? fun x => decide (x.t ≤ t) && decide (2 * (t - x.t) < 3 * per) && l.all fun y => decide (y.t ≤ x.t) || decide (t < y.t)

/-- Data for source time `t` or later has returned before `service` (R295). -/
def State.returned (s : State) (c : Nat) (dst : DstInfo) (t service : Int) : Bool :=
  (s.fetch c dst t service).isSome ||
  ((s.srcFound c).any fun (rate, _, _) => rate == dst.rate) && s.srcThere c && !s.asrcUnfit c &&
    (if 17408 ≤ c then (s.ringOf 1 (c - 17408)).any fun r => (s.bufAt r.p.handle).any fun b =>
        decide (t < s.ringTime r b 0) && decide (0 < s.pondNat b.addr 8)
     else (fget [] s.audio.store c).any fun (x : Samp) => decide (tick196 x.arrived < service) && decide (t ≤ x.t))

/-- The destination's pairing with its source slips (R288). -/
def State.slips (s : State) (c : Nat) (dst : DstInfo) : Bool :=
  (s.srcFound c).any fun (_, dom, _) => (s.directOffset dom dst.dom).isNone

/-! ### Coefficients (R292, R293) -/

/-- Whether n - 1/2 is at most 10^(g/2000) × 2^20. -/
def gainAtLeast (g : Int) (n : Nat) : Bool :=
  if 0 ≤ g then decide ((2 * n - 1) ^ 2000 ≤ 10 ^ g.toNat * 2 ^ 42000)
  else decide ((2 * n - 1) ^ 2000 * 10 ^ (-g).toNat ≤ 2 ^ 42000)

/-- Largest value below `2 ^ k` more than `acc` that still holds, by halving. -/
def gainSearch (g : Int) : Nat → Nat → Nat
  | 0, acc => acc
  | k + 1, acc => if gainAtLeast g (acc + 2 ^ k) then gainSearch g k (acc + 2 ^ k) else gainSearch g k acc

/-- The gain coefficient c of R292, rounded to nearest; -32,768 stands for minus infinity. -/
def gainCoef (g : Int) : Int := if g = -32768 then 0 else gainSearch g 23 0

/-- Effective coefficient of a route. -/
def routeE (r : AudRoute) : Int := if r.mute then 0 else if r.invert then -gainCoef r.gain else gainCoef r.gain

/-- What the destination's coefficient heads for: 0 while unrouted, muted as Quiet or its port stops, before its port has opened, and
while its ring is too short (R306). -/
def State.wantE (s : State) (c : Nat) (d : Dst) : Int :=
  let held := d.muting || (decide (c < 16384) && (s.embed (c / 32)).overflow) ||
    (decide (16384 ≤ c) && decide (c < 17408) && (!(s.port (tdmPortOf c)).opened || (s.port (tdmPortOf c)).stopping))
  match d.route with
  | some r => if held then 0 else routeE r
  | none => 0

/-- One step of the coefficient: a new transition where the goal has moved, and at the end of a transition to 0 the source that
waits for it. -/
def stepE (want : Int) (len : Nat) (d : Dst) : Dst :=
  let goal : Int := if d.next.isSome then 0 else want
  let aim := (d.trans.map (·.new)).getD d.e
  let d1 := if aim = goal then d else { d with trans := some { old := d.e, new := goal, n := 0, len := len } }
  match d1.trans with
  | none => d1
  | some t =>
    let n := t.n + 1
    let e := t.old + (t.new - t.old) * weight t.len n / 2 ^ 20
    if t.len ≤ n then
      let d2 := { d1 with e := t.new, trans := none }
      if t.new = 0 then { d2 with route := d2.next.getD d2.route, next := none } else d2
    else { d1 with e := e, trans := some { t with n := n } }

/-! ### Block boundaries (R291, R293, R295) -/

/-- An entry applies at a block boundary. -/
def applyEntry (e : AudioEntry) (d : Dst) : Dst :=
  let new : AudRoute := { src := e.src, gain := e.gain, invert := e.invert, mute := e.mute }
  if e.ctrlOnly then
    { d with route := d.route.map fun r => { r with gain := e.gain, invert := e.invert, mute := e.mute },
             next := d.next.map fun n => n.map fun r => { r with gain := e.gain, invert := e.invert, mute := e.mute } }
  else if e.src = 0xFFFF then (if d.e = 0 && d.trans.isNone then { d with route := none, next := none } else { d with next := some none })
  else match d.route with
    | none => { d with route := some new, next := none }
    | some r =>
      if e.hard || r.src = e.src || (d.e = 0 && d.trans.isNone) then { d with route := some new, next := none }
      else { d with next := some (some new) }

/-- A job of AUDIO_ROUTE completes when no entry of it waits any more. -/
def State.settleAudio (s : State) (id : Nat) : State :=
  if s.audio.dsts.any fun e => e.2.pend.any fun p => p.job == id then s
  else match s.jobs.find? fun j => j.id == id with
    | some j => s.complete j stOk 0 (if j.sched then some j.raster else none)
    | none => s

/-- Events of a destination (Table 11.10). DESIGN CHOICE (assumption 29): a non-audio mute of a TDM or record destination, which the table does
not list, has the source of that destination's rate mismatch. -/
def dstEvent (c : Nat) : Nat := if c < 16384 then 384 + c / 32 else if c < 17408 then 896 + tdmPortOf c else 960

/-- The source's rate differs from the destination's. -/
def State.unfitNow (s : State) (d : Dst) (i : DstInfo) : Bool :=
  d.route.any fun r => (match s.srcFound r.src with
    | some (rate, _, _) => rate != i.rate || s.asrcUnfit r.src
    | none => false)

/-- Grid block of a presentation time of a destination. -/
def DstInfo.blockOf (i : DstInfo) (g : Int) : Nat := ((g - i.zero) / samplePeriod i.rate / i.block).toNat

/-- What a LEAD decided for a block of destination `c`: 0 carried, 1 underrun (R320). -/
def State.leatSays (s : State) (c block : Nat) : Option Nat :=
  if s.isMate then (s.pair.received.find? fun d => d.kind == 2 && d.unit == c && d.key == block).map (·.value) else none

/-- The coefficient from which a destination resumes: 0 after its held value has gone to zero, and what is left of it within that
transition. -/
def resumeE (d : Dst) (len : Nat) : Int :=
  if d.heldZero then 0
  else match d.zeroing with
    | some n => d.e * (2 ^ 20 - weight len n : Nat) / 2 ^ 20
    | none => d.e

/-- A destination carries its source again: its underrun is over (R295). -/
def resumed (d : Dst) (len : Nat) : Dst :=
  { d with under := 0, zeroing := none, heldZero := false, ready := false, lastSrc := none, e := resumeE d len,
           trans := if d.heldZero || d.zeroing.isSome then none else d.trans }

/-- The block boundary at presentation time `g`: pending entries apply, a TDM port opens, and a destination whose data has returned
realigns: from here it waits for its first available sample (R295). -/
def State.blockBoundary (s : State) (c : Nat) (i : DstInfo) (g : Int) : State :=
  let d := s.dst c
  let lead := s.leatSays c (i.blockOf g)
  let (now, later) := d.pend.partition fun p => decide (tick196 p.commitT ≤ g)
  let d1 := now.foldl (fun x p => applyEntry p.entry x) { d with pend := later }
  let unfit := s.unfitNow d1 i
  let here := d1.route.any fun r => (s.fetch r.src i (g - i.delay) (g + i.lag)).isSome
  let back := d1.under != 0 && (match lead with
    | some v => v == 0
    | none => d1.route.any fun r => s.returned r.src i (g - i.delay) (g + i.lag))
  let d2 := if back then { d1 with ready := true } else d1
  let s0 := if lead = some 0 && d1.route.isSome && !here then s.reportMissing (if c < 16384 then c / 32 else 512 + c) else s
  let s1 := s0.setDst c { d2 with unfit := unfit, under := if lead = some 1 then max 1 d2.under else d2.under }
  let s2 := if unfit && !d.unfit then s1.fire (dstEvent c) else s1
  let s3 := if 16384 ≤ c && c < 17408 then
      let p := tdmPortOf c
      if (s2.port p).framed && !(s2.port p).opened then s2.setPort p { s2.port p with opened := true } else s2
    else s2
  State.each (fun j s => s.settleAudio j) ((now.map (·.job)).eraseDups) s3

/-! ### Non-audio paths (R318, R319) -/

/-- The partner of a destination channel in its pair: even and odd, at the spacing of its rate. -/
def pairOf (c k : Nat) : Nat × Nat :=
  let e := c / (2 * k) * (2 * k)
  (e, e + k)

/-- The destination's pair carries the source's pair on a transparent path. -/
def State.transparent (s : State) (c : Nat) (i : DstInfo) : Bool :=
  let k := rateK i.rate
  let (e, o) := pairOf c k
  let a := s.dst e
  let b := s.dst o
  match a.route, b.route with
  | some x, some y =>
    let (se, so) := pairOf x.src k
    let direct := match s.srcFound x.src with
      | some (_, dom, none) => (s.directOffset dom i.dom).isSome
      | _ => false
    x.src == se && y.src == so && direct && a.e == 2 ^ 20 && b.e == 2 ^ 20 && a.trans.isNone && b.trans.isNone &&
    routeE x == 2 ^ 20 && routeE y == 2 ^ 20 && a.next.isNone && b.next.isNone
  | _, _ => false

/-! ### One sample of a destination -/

/-- The crossfade of R305 between the reads at two delays, `n` of `len`. -/
def crossfade (a b : Int) (n len : Nat) : Int := a + (b - a) * n / max len 1

/-- The sample needed at presentation time `g`: at the delay in force, or crossfaded from the delay before (R304, R305). -/
def State.fetchDelayed (s : State) (c src : Nat) (i : DstInfo) (g : Int) : Option Fetched :=
  let new := s.fetch src i (g - i.delay) (g + i.lag)
  if 16384 ≤ c then new
  else
    let x := s.embed (c / 32)
    match x.fadeFrom with
    | none => new
    | some t0 =>
      if g < t0 then s.fetch src i (g - tick196 x.oldDa) (g + i.lag)
      else
        let n := ((g - t0) / samplePeriod i.rate + 1).toNat
        let len := rateFs i.rate / 1000
        if len ≤ n then new
        else match new, s.fetch src i (g - tick196 x.oldDa) (g + i.lag) with
          | some b, some a => if b.non then some b else some { b with value := crossfade a.value b.value n len }
          | r, _ => r

/-- Appends an output sample; the newest 64 are kept. -/
def pushOut (d : Dst) (j : Int) (v : Int × Nat) : Dst := { d with served := some j, out := (v :: d.out).take 64 }

/-- A destination in underrun repeats its held value, or its transition to zero. -/
def heldValue (d : Dst) (len : Nat) : Int × Dst :=
  match d.zeroing with
  | some n =>
    if len ≤ n + 1 then (0, { d with zeroing := none, heldZero := true })
    else (scaleSample d.last (2 ^ 20 - weight len (n + 1) : Nat), { d with zeroing := some (n + 1) })
  | none => (if d.heldZero then 0 else d.last, d)

/-- Slips between the last source time and this one, at a same-rate pairing (R288). -/
def slipped (last : Option Int) (t per : Int) : Bool :=
  match last with
  | some l => t == l || decide (3 * per < 2 * (t - l))
  | none => false

/-- The channel-status bits of AES3 that an altering path rewrites (R319): the sampling frequency, of a professional block in bits 6 and 7 and
35 to 38, of a consumer block in bits 24 to 27, and the CRC byte, bits 184 to 191. PRESUMED (assumption 39): the spec names AES3 for the
places. -/
def rewritten (k : Nat) : Bool := k == 6 || k == 7 || (decide (24 ≤ k) && decide (k ≤ 27)) || (decide (35 ≤ k) && decide (k ≤ 38)) || decide (184 ≤ k)

/-- V, U, C and Z that leave with a sample (R318, R319): on an altering path U is 0 and C is rewritten; without a channel-status
source the block is the device's own, placed by the sample's index. -/
def sideOut (rate : Nat) (j : Int) (x : Fetched) (alt cut : Bool) : Nat :=
  let own := (j % 192).toNat
  let u := x.side.testBit 1 && !alt
  let c := match x.pos with
    | some k => if alt && rewritten k then Config.statusBit rate k (some (x.side.testBit 2)) else x.side.testBit 2
    | none => Config.statusBit rate own none
  let z := match x.pos with
    | some _ => x.side.testBit 3
    | none => own == 0
  b2n (x.side.testBit 0 || cut) + 2 * b2n u + 4 * b2n c + 8 * b2n z

/-- Side bits of an unrouted channel: V = 1. -/
def sideNone (rate : Nat) (j : Int) : Nat := sideOut rate j { t := 0, arrived := 0, value := 0 } true true

/-- The Leat carries sample `j` of destination `c`. -/
def State.serveSample (s0 : State) (c : Nat) (j : Int) : State :=
  match s0.dstInfo c with
  | none => s0
  | some i =>
    let per := samplePeriod i.rate
    let g := i.zero + j * per
    let s := if j % i.block = 0 then s0.blockBoundary c i g else s0
    let d0 := s.dst c
    match d0.route with
    | none =>
      let d1 := { d0 with e := 0, trans := none, next := none, under := 0, zeroing := none, heldZero := false, ready := false, last := 0, lastSrc := none, cutNon := false }
      s.setDst c (pushOut d1 j (0, sideNone i.rate j))
    | some r =>
      let got := if d0.under = 0 || d0.ready then s.fetchDelayed c r.src i g else none
      match got with
      | none =>
        let (x, d1) := heldValue { d0 with under := d0.under + 1 } (rateN i.rate)
        let d2 := stepE (s.wantE c d1) (rateN i.rate) d1
        let y := scaleSample x d2.e
        ((s.setDst c (pushOut d2 j (clamp24 y, sideOut i.rate j { t := 0, arrived := 0, value := 0 } true false))).count 10 c 2).count 10 c 4
          (b2n (clamp24 y != y))
      | some x =>
        let alt := !s.transparent c i
        let cut := x.non && alt
        let dr := if d0.under = 0 then d0 else resumed d0 (rateN i.rate)
        let d1 := stepE (s.wantE c dr) (rateN i.rate) dr
        let d2 := if cut && (s.wantE c d0 = 0 || d1.next = some none) then
            { d1 with e := 0, trans := none, route := d1.next.getD d1.route, next := none } else d1
        let y := scaleSample x.value d2.e
        let slip := s.slips r.src i && slipped d0.lastSrc x.t per
        let v : Int × Nat := (if cut then 0 else clamp24 y, sideOut i.rate j x alt cut)
        let d3 := pushOut { d2 with last := if cut then 0 else x.value, lastSrc := some x.t, cutNon := cut } j v
        let s1 := (((s.setDst c d3).count 10 c 3 (b2n slip)).count 10 c 4 (b2n (!cut && clamp24 y != y))).count 10 c 5 (b2n cut)
        if cut && !d0.cutNon then s1.fire (dstEvent c) else s1

/-- A sample word in P4 packing (R316). -/
def p4Word (v : Int) : List Byte := leBytes 4 (256 * encInt 24 v)

/-- Ring frame `i`, channel `k`, written. -/
def State.ringPut (s : State) (b : Buf) (i k : Nat) (v : Int) : State :=
  s.pondWrite (b.addr + 256 + 4 * (b.params.count * (i % max b.params.size 1) + k)) (p4Word v)

/-- Sample `j` of a record channel or an embedded channel goes to its ring (R302, R314, R315): WR_INDEX advances after a whole
block, and a block that HOST_FLOW has no room for is discarded. -/
def State.ringWrite (s : State) (c : Nat) (j : Int) : State :=
  let v := (((s.dst c).out.head?).map (·.1)).getD 0
  if c < 16384 then
    let n := c / 32
    let x := s.embed n
    match x.p with
    | some p => (match s.bufAt p.ring with
      | some b =>
        let k := c % 32 / rateK p.rate
        let i := j - x.origin
        if i < 0 then s
        else
          let s1 := s.ringPut b i.toNat k v
          if k + 1 = p.slots / rateK p.rate && (i + 1) % blockSamples p.blkLen = 0 then
            (s1.setEmbed n { x with wr := i.toNat + 1 }).pondWrite b.addr (leBytes 8 (i.toNat + 1))
          else s1
      | none => s)
    | none => s
  else if 17408 ≤ c then
    match s.ringOf 0 (c - 17408) with
    | some r => (match s.bufAt r.p.handle with
      | some b =>
        let k := c - 17408 - r.p.first
        let i := j - r.origin
        if i < 0 then s
        else
          let full := i.toNat / 16 * 16 + 16
          if r.p.hostFlow && decide (s.pondNat (b.addr + 16) 8 + b.params.size < full) then s.count 10 c 1 (b2n (i % 16 == 0))
          else
            let s1 := s.ringPut b i.toNat k v
            if k + 1 = r.p.count && (i + 1) % 16 = 0 then
              ({ s1 with audio := { s1.audio with rings := s1.audio.rings.map fun (y : RingBind) => if y.p = r.p then { y with wr := i.toNat + 1 } else y } }).pondWrite
                b.addr (leBytes 8 (i.toNat + 1))
            else s1
      | none => s)
    | none => s
  else s

/-- Samples `j + 1` to `j + n`. -/
def State.serveMany (s : State) (c : Nat) (j : Int) : Nat → State
  | 0 => s
  | n + 1 => ((s.serveSample c (j + 1)).ringWrite c (j + 1)).serveMany c (j + 1) n

/-- Destination `c` is served up to sample `j`: from its last sample, or from the start of j's block. -/
def State.serveTo (s : State) (c : Nat) (j : Int) : State :=
  match s.dstInfo c with
  | none => s
  | some i =>
    let start := j - j % i.block - 1
    let last := match (s.dst c).served with
      | some l => if start ≤ l + 1048576 && l ≤ j then l else if j < l then l else start
      | none => start
    s.serveMany c last (j - last).toNat

/-- The last sample of destination `c` whose service time has come. -/
def State.dueSample (s : State) (i : DstInfo) : Int := indexTo i.zero (samplePeriod i.rate) (tick196 s.now - i.lag)

/-- UNDERRUN_HOLD_EXPIRE (R295). -/
def doHoldExpire (c : Nat) (s : State) : State :=
  let d := s.dst c
  match s.dstInfo c with
  | some i => if rateFs i.rate / 50 ≤ d.under && d.zeroing.isNone && !d.heldZero then s.setDst c { d with zeroing := some 0 } else s
  | none => s

end Sys2Proof.Machine
end

