-- ==== Sys2Proof/Machine/Ports.lean ====
section
/-! DEFINITION. Audio commands, embedded audio and lip sync, TDM ports, and audio ring bindings (chapter 11, Table 13.10). -/

namespace Sys2Proof.Machine

/-! ### AUDIO_ROUTE (R289 to R291) -/

/-- A channel that exists on the source or the destination side, at a multiple of its k. -/
def State.srcValid (s : State) (c : Nat) : Bool := (s.srcInfo c).any fun (r, _) => c % rateK r == 0
def State.dstRateOf (s : State) (c : Nat) : Option Nat :=
  if c < 16384 then ((s.embed (c / 32)).p).bind fun p => if c % 32 < p.slots && (s.txStream (c / 32)).isSome then some p.rate else none
  else if c < 17408 then ((s.port (tdmPortOf c)).cfg).bind fun k => if tdmSlotOf c k.rate < k.slots then some k.rate else none
  else if c < 18432 then (s.ringOf 0 (c - 17408)).map fun b => b.p.rate
  else none
def State.dstValid (s : State) (c : Nat) : Bool := (s.dstRateOf c).any fun r => c % rateK r == 0

def chkAudioRoute (p : AudioRouteP) (s : State) : Check :=
  failIf (decide (p.count < 1) || decide (256 < p.count) || p.count != p.entries.length) stBadLength
  <|> failIf (p.rsvd != 0 || !(p.entries.all fun e => s.dstValid e.dst && (e.src == 0xFFFF || s.srcValid e.src) && e.rsvd == 0 &&
        (e.gain == -32768 || (decide (-12000 ≤ e.gain) && decide (e.gain ≤ 1200)))) || !distinct (p.entries.map (·.dst))) stBadParam

/-- The entries wait at their destinations for the first block boundary at or after the commit point. -/
def State.commitRoutes (s : State) (job : Nat) (es : List AudioEntry) : State :=
  es.foldl (fun s e => let d := s.dst e.dst
    s.setDst e.dst { d with pend := d.pend ++ [{ job := job, entry := e, commitT := s.now }] }) s

def startAudioRoute (p : AudioRouteP) (s : State) : Ans := orAns (chkAudioRoute p s) (.later (s.commitRoutes s.nextJob p.entries) .event)

def applyAudioRoute (j : Job) (p : AudioRouteP) (s : State) : State := (s.setJob { j with kind := .event }).commitRoutes j.id p.entries

/-- Destinations that cease to exist: their routes end, and entries that wait for them never apply. -/
def State.dropDsts (s : State) (f : Nat → Bool) : State :=
  let gone := s.audio.dsts.filter fun e => f e.1
  let s1 := { s with audio := { s.audio with dsts := s.audio.dsts.filter fun e => !f e.1 } }
  State.each (fun j s => s.settleAudio j) ((gone.flatMap fun e => e.2.pend.map (·.job)).eraseDups) s1

/-! ### Service -/

def asrcCode : AsrcSt → Nat
  | .acquire => 0 | .locked => 1 | .range => 2

/-- DESTINATION_BLOCK_SERVICE (R287). A LEAD sends what it decided for the block (R320). -/
def doBlockService (c : Nat) (s : State) : State :=
  match s.dstInfo c with
  | some i =>
    if s.sys.quiet = .asleep then s
    else
      let s1 := s.serveTo c (s.dueSample i)
      let k := i.blockOf (i.zero + s.dueSample i * samplePeriod i.rate)
      let s2 := s1.sendLeat [0, c, k, b2n ((s1.dst c).under != 0)]
      match (s2.dst c).route.bind fun r => s2.asrcOf r.src with
      | some (g, a) => s2.sendLeat [2, g, k, asrcCode a.st, encInt 64 a.per, encInt 64 a.phase]
      | none => s2
  | none => s

/-- What destination `c` carried at sample `j`: zero with V = 1 where it carried nothing. -/
def State.outAt (s : State) (c rate : Nat) (j : Int) : Int × Nat :=
  let d := s.dst c
  match d.served with
  | some l => if l < j then (0, sideNone rate j) else d.out.getD (l - j).toNat (0, sideNone rate j)
  | none => (0, sideNone rate j)

/-! ### Embedded audio (R302, R303) -/

/-- Charge of an audio delay line at a rate (Table 7.5). -/
def lineMb (s : State) (h rate : Nat) : Nat := ((s.bufAt h).map fun b => mbps (8 * b.params.count * rateFs rate) 1 1).getD 0

def ofEmbed (n : Nat) (c : Charge) : Bool := c.kind == 5 && c.holder == n

/-- The ring charges of an output's embedding: the binding in force, each resident command, and `more`. -/
def State.embedCharges (s : State) (n : Nat) (more : List AudioEmbedP) : List Charge :=
  let ps := ((s.embed n).p).toList ++ (s.jobs.filterMap fun j => match j.params with
    | .audioEmbed p => if p.output = n && j.kind == .apply then some p else none
    | _ => none) ++ more
  let on := ps.filter (·.enable)
  ((on.map (·.ring)).eraseDups).map fun h =>
    { kind := 5, holder := n, sub := h, mb := ((on.filter fun p => p.ring == h).map fun p => lineMb s h p.rate).foldl max 0 }

/-- Charges of the rings that the binding list names: 8 × COUNT × fs once, and 4 × COUNT × fs for each further playout binding. -/
def ringChargesOf (s : State) (seen : List Nat) : List RingBind → List Charge
  | [] => []
  | b :: r =>
    let first := !seen.contains b.p.handle
    let n := ((s.bufAt b.p.handle).map fun x => x.params.count).getD 0
    let mb := if first then mbps (8 * n * rateFs b.p.rate) 1 1 else if b.p.kind = 1 then mbps (4 * n * rateFs b.p.rate) 1 1 else 0
    { kind := 5, holder := 65536 + b.p.handle, sub := b.p.handle, mb := mb } :: ringChargesOf s (b.p.handle :: seen) r

def ofRings (c : Charge) : Bool := c.kind == 5 && decide (65536 ≤ c.holder)

/-- The rings that outputs name for their embedded audio. -/
def embedRings (l : List Charge) : List Nat := (l.filter fun c => c.kind == 5 && !ofRings c).map (·.sub)

/-- The charges with those of the rings bound: each ring once while any binding names it (R314). -/
def withRings (s : State) (l : List RingBind) (others : List Charge) : List Charge := others ++ ringChargesOf s (embedRings others) l

def State.holdEmbed (s : State) (n : Nat) (more : List AudioEmbedP) : State :=
  let new := s.embedCharges n more
  let old := s.pond.charges.filter (ofEmbed n)
  let all := withRings s s.audio.rings ((s.pond.charges.filter fun c => !ofEmbed n c && !ofRings c) ++ new)
  { s with pond := { s.pond with charges := all } }.count 8 0 0
    (b2n (new.any fun x => !(old.any fun y => y.sub == x.sub && decide (x.mb ≤ y.mb))))

/-- Another binding names the ring. -/
def State.ringTaken (s : State) (n h : Nat) : Bool :=
  (s.audio.rings.any fun (b : RingBind) => b.p.handle == h) || s.pond.charges.any fun c => c.kind == 5 && c.sub == h && !ofEmbed n c

def chkAudioEmbed (h : Hdr) (p : AudioEmbedP) (s : State) : Check :=
  let k := rateK p.rate
  let ring := (s.bufAt p.ring).bind fun b => if b.params.typ = 4 then some b else none
  failIf (p.rsvd != 0 || decide (512 ≤ p.output) || (s.txStream p.output).isNone || decide (6 ≤ p.rate) || decide (4 ≤ p.blkLen) ||
        !between k p.slots 32 || p.slots % k != 0 || decide (490000 < p.gEmb) || decide (10800000 < p.lsTol) ||
        !(ring.any fun b => decide (p.slots / k ≤ b.params.count))) stBadParam
  <|> onFrame h (2 + p.output)
  <|> failIf (s.ringTaken p.output p.ring) stBusy
  <|> s.admission (ofEmbed p.output) (s.embedCharges p.output [p])

def planAudioEmbed (p : AudioEmbedP) (s : State) : State := s.holdEmbed p.output [p]
def startAudioEmbed (h : Hdr) (p : AudioEmbedP) (s : State) : Ans :=
  orAns (chkAudioEmbed h p s) (.later (planAudioEmbed p s) .apply (2 + p.output))

/-- Header of an audio delay line (Table 11.9). -/
def ringHeader (wr stc rate mode flow : Nat) : List Byte :=
  leBytes 8 wr ++ leBytes 8 stc ++ leBytes 8 0 ++ leBytes 1 rate ++ leBytes 1 mode ++ leBytes 1 flow ++ leBytes 5 0 ++ leBytes 224 0

/-- The least multiple of `block` at or above `i`. -/
def upTo (i : Int) (block : Nat) : Int := (-((-i) / block)) * block

/-- The first grid index at or after now that begins a block, for ring frame 0. -/
def State.ringOrigin (s : State) (house rate block : Nat) : Int :=
  upTo (indexFrom (s.gridZero house) (samplePeriod rate) (tick196 s.now)) block

def State.originStc (s : State) (house rate : Nat) (i : Int) : Nat := s.stcOf ((s.gridZero house + i * samplePeriod rate) / 196)

/-- AUDIO_EMBED at its frame start. -/
def applyAudioEmbed (j : Job) (p : AudioEmbedP) (s : State) : State :=
  let n := p.output
  let x := s.embed n
  let house := s.houseOf n
  let i := s.ringOrigin house p.rate (blockSamples p.blkLen)
  let s1 := if p.enable then
      let fresh := x.p.all fun q => q.rate != p.rate || q.blkLen != p.blkLen || q.ring != p.ring
      let y : Embed := if fresh then { x with p := some p, origin := i, wr := 0, sent := none } else { x with p := some p }
      let s2 := s.setEmbed n y
      if fresh then
        let s3 := { s2 with audio := { s2.audio with dsts := tmap {} (fun c (d : Dst) =>
          if c < 16384 && c / 32 = n then { d with served := none, out := [] } else d) s2.audio.dsts } }
        (match s3.bufAt p.ring with
         | some b => s3.pondWrite b.addr (ringHeader 0 (s3.originStc house p.rate i) p.rate 0 0)
         | none => s3)
      else s2
    else (s.setEmbed n {}).dropDsts fun c => decide (c < 16384) && c / 32 == n
  (s1.complete j stOk 0 (some (2 + n))).holdEmbed n []

def releaseAudioEmbed (j : Job) (n : Nat) (s : State) : State :=
  let s1 := ({ s with jobs := s.jobs.filter fun x => x.id != j.id }).holdEmbed n []
  { s1 with jobs := s.jobs }

/-- The newest block of an output that is due now. -/
def State.dueBlock (s : State) (n : Nat) (p : AudioEmbedP) : Int :=
  indexTo (s.gridZero (s.houseOf n)) (samplePeriod p.rate * blockSamples p.blkLen) (tick196 ((s.now : Int) - p.gEmb)) - 1

/-- The block of embedded audio that follows the last one sent; one too far behind is left out. -/
def State.nextBlock (s : State) (n : Nat) (p : AudioEmbedP) : Int :=
  match (s.embed n).sent with
  | some l => if l + 64 < s.dueBlock n p then s.dueBlock n p else l + 1
  | none => s.dueBlock n p

/-- The block after `old`: `f` is the frame that it falls in (R390). -/
def followingBlock (old : Option AudBlock) (f : Nat) (symbols : List Nat) : AudBlock :=
  { frame := f, order := (old.map fun b => if b.frame = f then b.order + 1 else 0).getD 0, symbols := symbols }

/-- The samples and side bits of an AUD packet: its symbols but for its header's three. -/
def audContent (symbols : List Nat) : List Nat := symbols.drop 3

/-- Output `n` sends a block in its frame in progress (R389, R390). -/
def State.noteSent (s : State) (n : Nat) (symbols : List Nat) : State :=
  match s.txStream n, s.outRaster n with
  | some x, some o => s.setTxStream n (some { x with aud := some (followingBlock x.aud o.frame.toNat (audContent symbols)) })
  | _, _ => s

/-- EMBED_BLOCK_SEND (R303): the next block that is due becomes an AUD packet (R76, R77). C and Z of a pair come from its even channel, or from
its odd channel when the even one is unrouted (R319). When its first symbol leaves, within two superframes, is free (assumption 4), and with
it TS_OFFSET. -/
def doEmbedSend (n : Nat) (s : State) : State :=
  match (s.embed n).p with
  | none => s
  | some p =>
    let due := s.dueBlock n p
    let next := s.nextBlock n p
    if due < next || (s.txStream n).isNone || s.sys.quiet = .asleep then s
    else
      let b := blockSamples p.blkLen
      let k := rateK p.rate
      let nch := p.slots / k
      let chan (i : Nat) : Nat := 32 * n + k * i
      let s1 := (List.range nch).foldl (fun s i => s.serveTo (chan i) (next * b + b - 1)) s
      let routed (i : Nat) : Bool := (s1.dst (chan i)).route.isSome
      let sample (f i : Nat) : Int × Nat := s1.outAt (chan i) p.rate (next * b + f)
      let lead (i : Nat) : Nat := if routed (i / 2 * 2) || !routed (i / 2 * 2 + 1) then i / 2 * 2 else i / 2 * 2 + 1
      let side (f i : Nat) : Nat := (sample f i).2 % 4 + (sample f (lead i)).2 / 4 * 4
      let all := (List.range b).flatMap fun f => (List.range nch).map fun i => ((sample f i).1, side f i)
      let packet (offset : Nat) : List Nat := audSymbols p.rate nch b offset (all.map (·.1)) side
      let (v, s2) := ((s1.setEmbed n { s1.embed n with sent := some next }).noteSent n (packet 0)).freeNat
      if (s.txStream n).any (·.idle) then s2
      else
        let rate := ((s.txStream n).map fun x => (s.txDir x.cfg.bundle).rate).getD 0
        let since := (s.now : Int) - (s.gridZero (s.houseOf n) + next * b * samplePeriod p.rate) / 196
        let offset := min 1048575 (since.toNat + v % (2 * superframeTicks rate + 1))
        (s2.emit (.aud n next.toNat all)).queuePackets n [packet offset]

/-! ### Lip sync (R304 to R306) -/

/-- The applied delay of output `n` is `da`, changed at `t`, and its ring holds that much or is too short (R304, R306). -/
def State.applyDelay (s : State) (n : Nat) (p : AudioEmbedP) (da : Nat) (t : Tick) : State :=
  let x := s.embed n
  let y := if da = x.da then x else { x with oldDa := x.da, da := da, fadeFrom := some (tick196 t) }
  let held := ((s.bufAt p.ring).map fun b => b.params.size).getD 0
  let short := decide (held * samplePeriod p.rate < tick196 (y.da + p.gEmb + 1350000 : Nat))
  let s1 := s.setEmbed n { y with overflow := short }
  if short && !x.overflow then s1.fire (384 + n) else s1

/-- Step 4 of R22 at a frame start of output `n`: `dt` is the path latency of what layer 0 shows, `jump` says that a take applied,
the class changed or a migration switched, `inLoss` that layer 0 is in loss. -/
def State.lipSync (s : State) (n dt : Nat) (jump inLoss : Bool) : State :=
  let x := s.embed n
  match x.p with
  | none => s
  | some p =>
    let far := decide (p.lsTol < dt - x.da + (x.da - dt))
    let moves := !inLoss && (jump || far) && dt != x.da && !s.isMate
    let s1 := s.applyDelay n p (if moves then dt else x.da) s.now
    if moves then s1.sendLeat [4, n, dt] else s1

/-! ### ASRC_BIND (R297) -/

def asrcRatesOk (i o : Nat) : Bool :=
  i == o || (i == 1 && o == 2) || (i == 2 && o == 1) || (i == 3 && o == 4) || (i == 4 && o == 3)

/-- All channels lie in one stream or one port. -/
def oneSource (first last : Nat) : Bool := first / 32 == last / 32 && decide (last < 17408)

def startAsrcBind (p : AsrcBindP) (s : State) : Ans :=
  let bad := failIf (p.rsvd != 0 || decide (256 ≤ p.group) || decide (2 ≤ p.op)) stBadParam
  if p.op = 0 then orAns bad (.done (s.setAsrc p.group none))
  else
    let rate := ((s.srcInfo p.first).map (·.1)).getD p.outRate
    let a : Asrc := { p := p, inRate := rate, sinceT := s.now }
    let chans := asrcChannels a
    orAns (bad
      <|> failIf (decide (3 ≤ p.target) || (if p.target = 2 then decide (32 ≤ p.tport) || !((s.port p.tport).cfg.any fun k => k.role == 1) else p.tport != 0) ||
            decide (6 ≤ p.outRate) || decide (3 ≤ p.bw) || !between 1 p.count 32 || p.first % rateK rate != 0 ||
            !oneSource p.first (chans.getLastD p.first) || !(chans.all fun c => (s.srcInfo c).isSome) ||
            decide (32 < p.count * max (rateK rate) (rateK p.outRate)) || !asrcRatesOk rate p.outRate) stBadParam
      <|> failIf ((s.asrc p.group).isSome || chans.any fun c => (s.asrcOf c).isSome) stBusy)
      (.done (s.setAsrc p.group (some a)))

/-! ### TDM ports (R307 to R312) -/

def widthOk (w : Nat) : Bool := w == 16 || w == 20 || w == 24 || w == 32

/-- Source and destination channel of slot `k` of a port. -/
def tdmChannel (port rate k : Nat) : Nat := 16384 + 32 * port + rateK rate * k

def chkAportSet (p : AportSetP) : Check :=
  failIf (p.rsvd != 0 || decide (32 ≤ p.port) || decide (2 ≤ p.role) || decide (6 ≤ p.rate) || !between 1 p.slots (32 / rateK p.rate) ||
    !widthOk p.width || decide (31 < p.offset) || !between 1 p.fsWidth (p.slots * p.width - 1) || decide (2100000 < p.portDelay) ||
    decide (50000000 < p.slots * p.width * rateFs p.rate) || decide (2 ^ p.slots ≤ p.diMask) || decide (2 ^ p.slots ≤ p.doMask)) stBadParam

/-- Only the masks and PORT_DELAY differ. -/
def sameTiming (a b : AportSetP) : Bool := { a with diMask := b.diMask, doMask := b.doMask, portDelay := b.portDelay } == b

def State.ofPort (port c : Nat) : Bool := decide (16384 ≤ c) && decide (c < 17408) && tdmPortOf c == port

/-- Slots of a port begin anew: what they served before is forgotten. -/
def State.restartSlots (s : State) (port : Nat) : State :=
  { s with audio := { s.audio with dsts := tmap {} (fun c (d : Dst) =>
      if State.ofPort port c then { d with served := none, out := [], e := 0, trans := none, under := 0 } else d) s.audio.dsts } }

/-- A controller that starts has restarted at its first FS edge (Table 12.16); DESIGN CHOICE (assumption 39): a target has at
once, when it begins to look for frames, since R307 does not say. -/
def startsLater (next : Option AportSetP) : Bool := next.any fun k => k.role == 0

/-- A port has stopped: it takes its next configuration, or is disabled. Masks that wait for another configuration never apply, and slots that
are gone end. -/
def State.endStop (s : State) (port : Nat) : State :=
  let x := s.port port
  let same := x.next == x.cfg
  let s0 := (s.setPort port { cfg := x.next, jobs := if startsLater x.next then x.jobs else [], masks := if same then x.masks else [] }).restartSlots port
  let s1 := s0.dropDsts fun c => State.ofPort port c && (s0.dstRateOf c).isNone
  let s2 := if same then s1 else State.each (fun (m : MaskWait) s => s.completeId m.job stCancelled 0 none) x.masks s1
  if startsLater x.next then s2 else s2.completeAll stOk 0 none x.jobs

/-- Every routed slot of a port is at zero. -/
def State.portSilent (s : State) (port : Nat) : Bool :=
  s.audio.dsts.all fun e => !State.ofPort port e.1 || (e.2.e == 0 && e.2.trans.isNone)

/-- APORT_SET (R307, R312). -/
def startAportSet (p : AportSetP) (s : State) : Ans :=
  let x := s.port p.port
  let next := if p.enable then some p else none
  orAns (chkAportSet p)
    (match x.cfg with
     | none =>
       if startsLater next then .later (s.setPort p.port { x with cfg := next, jobs := x.jobs ++ [s.nextJob] }) .event
       else .done (s.setPort p.port { x with cfg := next })
     | some k =>
       if p.enable && !x.stopping && sameTiming k p then .done (s.setPort p.port { x with cfg := next })
       else if x.opened || x.stopping then .later (s.setPort p.port { x with next := next, stopping := true, jobs := x.jobs ++ [s.nextJob] }) .event
       else if startsLater next then .later ((s.setPort p.port { x with next := next, jobs := x.jobs ++ [s.nextJob] }).endStop p.port) .event
       else .done ((s.setPort p.port { x with next := next }).endStop p.port))

/-- APORT_MASK checks (R311). -/
def chkAportMask (p : AportMaskP) (s : State) : Check :=
  failIf (p.rsvd != 0 || decide (32 ≤ p.port) || !((s.port p.port).cfg.any fun k => decide (p.diMask < 2 ^ k.slots) && decide (p.doMask < 2 ^ k.slots))) stBadParam

def State.waitMask (s : State) (job : Nat) (p : AportMaskP) : State :=
  let x := s.port p.port
  s.setPort p.port { x with masks := x.masks ++ [{ job := job, p := p, commitT := s.now }] }

def startAportMask (p : AportMaskP) (s : State) : Ans := orAns (chkAportMask p s) (.later (s.waitMask s.nextJob p) .event)
def applyAportMask (j : Job) (p : AportMaskP) (s : State) : State := (s.setJob { j with kind := .event }).waitMask j.id p

/-- Slots added to the output mask with FADE_IN begin their fade. -/
def fadeSlots (k : AportSetP) (p : AportMaskP) (f : Tbl Nat) : Tbl Nat :=
  (List.range k.slots).foldl (fun f i => if p.fadeIn && p.doMask.testBit i && !k.doMask.testBit i then fset 0 f i 1 else f) f

/-- The masks whose commit point has come, at an FS edge. -/
def State.applyMasks (s : State) (port : Nat) : State :=
  let x := s.port port
  let (now, later) := x.masks.partition fun m => decide (m.commitT ≤ s.now)
  let y := now.foldl (fun (x : TdmPort) (m : MaskWait) => match x.cfg with
    | some k => { x with cfg := some { k with diMask := m.p.diMask, doMask := m.p.doMask }, fade := fadeSlots k m.p x.fade }
    | none => x) { x with masks := later }
  State.each (fun (m : MaskWait) s => match s.jobs.find? fun j => j.id == m.job with
    | some j => s.complete j stOk 0 (if j.sched then some j.raster else none)
    | none => s) now (s.setPort port y)

/-- A slot's bits, most significant first (R308). -/
def slotBits (width : Nat) (v : Int) : List (Option Bool) :=
  ((bitsOf 24 (encInt 24 v) ++ List.replicate 8 false).take width).map some

/-- The sample that a received slot of `width` bits carries: left-justified, the bits that the slot does not carry 0, those beyond the 24th
ignored (R308). -/
def slotSample (width v : Nat) : Int := decInt 24 (v % 2 ^ width * 2 ^ (32 - width) / 256)

/-- Grid index, or frame count, of the TDM frame that begins now. -/
def State.tdmIndex (s : State) (x : TdmPort) (k : AportSetP) : Int :=
  if k.role = 0 then indexTo (s.gridZero (b2n k.houseB)) (samplePeriod k.rate) (tick196 s.now + 195) else x.frames

/-- The output slots of the TDM frame that begins now, bit clock by bit clock. -/
def State.sendFrame (s : State) (port : Nat) (k : AportSetP) : State :=
  let j := s.tdmIndex (s.port port) k
  let driven := (List.range k.slots).filter fun i => k.doMask.testBit i
  let s1 := if (s.port port).framed then driven.foldl (fun s i => s.serveTo (tdmChannel port k.rate i) j) s else s
  let x := s1.port port
  let value (i : Nat) : Int :=
    if x.opened && x.framed then
      let v := (s1.outAt (tdmChannel port k.rate i) k.rate j).1
      let n := fget 0 x.fade i
      if n = 0 then v else scaleSample v (weight 32 n : Nat)
    else 0
  let stream := (List.range k.slots).flatMap fun i =>
    if k.doMask.testBit i then slotBits k.width (value i) else List.replicate k.width (if k.unusedZero then some false else none)
  let off := k.offset % (k.slots * k.width)
  let lead := x.tail ++ List.replicate (off - x.tail.length) (if k.unusedZero then some false else none)
  let rest := k.slots * k.width - off
  let fade := tmap 0 (fun _ (n : Nat) => if 32 ≤ n then 0 else n + 1) x.fade
  (s1.setPort port { x with tail := stream.drop rest, fade := fade }).emit (.tdm port (lead.take off ++ stream.take rest))

/-- Input samples of the frame that an edge ends: its slots are sources at the frame's own edge (R284). -/
def State.receiveFrame (s : State) (port : Nat) (k : AportSetP) (t : Tick) (slots : List Nat) : State :=
  let on (i : Nat) : Bool := k.diMask.testBit i && decide (i < k.slots)
  let v (i : Nat) : List (Int × Nat) := [(slotSample k.width (slots.getD i 0), 0)]
  let chans := ((List.range k.slots).filter on).map (tdmChannel port k.rate)
  let s1 := (List.range (ceilDiv k.slots 2)).foldl (fun s i =>
    let a := 2 * i
    if on a then s.storePair (tdmChannel port k.rate a) (tdmChannel port k.rate (a + 1)) k.rate (tick196 t) (v a) (if on (a + 1) then some (v (a + 1)) else none) false
    else if on (a + 1) then s.storeChannel (tdmChannel port k.rate (a + 1)) k.rate (tick196 t) (v (a + 1)) [none] [false]
    else s) s
  if k.role = 1 then s1.blockArrived (portDomain port) k.rate chans (tick196 t) 1
  else State.each (fun g s => match s.asrc g with
    | some a => s.asrcTrack g a (tick196 t) 1
    | none => s) ((chans.filterMap fun c => (s1.asrcOf c).map (·.1)).eraseDups) s1

/-- A target becomes unframed. -/
def State.unframe (s : State) (port : Nat) : State :=
  let s1 := (s.setPort port { s.port port with framed := false, opened := false, good := 0, bad := 0, frames := 0 }).restartSlots port
  s1.fire (896 + port)

/-- Framing of a target at an FS edge `bits` bit clocks after the one before (R310). -/
def State.frameTarget (s : State) (port : Nat) (k : AportSetP) (bits : Nat) : State :=
  let x := s.port port
  let ok := x.lastEdge.isSome && bits == k.slots * k.width
  if x.framed then
    if ok then s.setPort port { x with bad := 0, frames := x.frames + 1 }
    else
      let s1 := ((s.setPort port { x with bad := x.bad + 1, frames := x.frames + 1 }).count 12 port 0).fire (896 + port)
      if 1 ≤ x.bad then s1.unframe port else s1
  else
    let good := if ok then x.good + 1 else 0
    if 4 ≤ good then ((s.setPort port { x with framed := true, good := 0, bad := 0, frames := 0 }).restartSlots port).fire (896 + port)
    else
      let s1 := s.setPort port { x with good := good }
      if x.lastEdge.isSome && !ok then (s1.count 12 port 0).fire (896 + port) else s1

/-- The first FS edge of a controller: it is framed, and the commands that wait for it complete (R307, R312). -/
def State.beginTdm (s : State) (port : Nat) : State :=
  let x := s.port port
  let s1 := (s.setPort port { x with framed := true, jobs := if x.stopping then x.jobs else [] }).restartSlots port
  if x.stopping then s1 else s1.completeAll stOk 0 none x.jobs

/-- TDM_FS_EDGE: the frame that ends is received, and the frame that begins is framed and sent. -/
def doTdmEdge (port : Nat) (fr : TdmFrame) (s : State) : State :=
  match (s.port port).cfg with
  | none => s
  | some k =>
    let x := s.port port
    if s.sys.quiet = .asleep || (s.sys.quiet = .entering && !x.stopping) then s
    else
      let whole := k.role == 0 || fr.bits == k.slots * k.width
      let s1 := match x.lastEdge with
        | some t => if x.framed && whole then s.receiveFrame port k t fr.slots else s
        | none => s
      if (s1.port port).stopping && s1.portSilent port then s1.endStop port
      else
        let s2 := if k.role = 1 then s1.frameTarget port k fr.bits
          else if x.framed then s1 else s1.beginTdm port
        let s3 := s2.setPort port { s2.port port with lastEdge := some s.now }
        let s4 := s3.applyMasks port
        match (s4.port port).cfg with
        | some k' => s4.sendFrame port k'
        | none => s4

/-- TDM_FS_TIMEOUT: no FS edge for 4 frame periods (R310). -/
def doTdmTimeout (port : Nat) (s : State) : State :=
  let x := s.port port
  match x.cfg, x.lastEdge with
  | some k, some t =>
    if k.role = 1 && x.framed && decide (tick196 t + 4 * samplePeriod k.rate ≤ tick196 s.now) then
      let s1 := s.unframe port
      if x.stopping then s1.endStop port else s1
    else s
  | _, _ => s

/-! ### AUDIO_RING_BIND (R313 to R315) -/

def rangesMeet (a n b m : Nat) : Bool := decide (a < b + m) && decide (b < a + n)

/-- The rings bound, with their charges. -/
def State.setRings (s : State) (l : List RingBind) : State :=
  { s with audio := { s.audio with rings := l },
           pond := { s.pond with charges := withRings s l (s.pond.charges.filter fun c => !ofRings c) } }

def startAudioRingBind (p : AudioRingBindP) (s : State) : Ans :=
  let bad := failIf (p.rsvd != 0 || decide (2 ≤ p.kind) || decide (6 ≤ p.rate) || decide (2 ≤ p.house) || decide (p.count < 1) ||
    decide (1024 < p.first + p.count)) stBadParam
  let same (b : RingBind) : Bool := b.p.kind == p.kind && rangesMeet b.p.first b.p.count p.first p.count
  if p.handle = 0 then
    let exact (b : RingBind) : Bool := b.p.kind == p.kind && b.p.first == p.first && b.p.count == p.count
    orAns (bad <|> failIf (s.audio.rings.any fun b => same b && !exact b) stBadParam)
      (let s1 := s.setRings (s.audio.rings.filter fun b => !exact b)
       .done (if p.kind = 0 then s1.dropDsts fun c => decide (17408 + p.first ≤ c) && decide (c < 17408 + p.first + p.count) else s1))
  else match s.bufAt p.handle with
    | none => .fail stBadParam
    | some b =>
      let i := s.ringOrigin p.house p.rate 16
      let l := s.audio.rings ++ [{ p := p, origin := i }]
      orAns (bad
        <|> failIf (b.params.typ != 4 || decide (b.params.count < p.count) ||
              (p.kind == 0 && (decide (p.delay < 0) || decide (2100000 < p.delay))) ||
              decide (p.delay < -2147483648) || decide (2147483647 < p.delay)) stBadParam
        <|> failIf (s.audio.rings.any fun x => same x || (x.p.kind == p.kind && x.p.handle == p.handle)) stBusy
        <|> s.admission ofRings (ringChargesOf s (embedRings s.pond.charges) l))
        (let s1 := (s.setRings l).count 8 0 0
         .done (if p.kind = 0 then s1.pondWrite b.addr (ringHeader 0 (s1.originStc p.house p.rate i) p.rate 1 (b2n p.hostFlow)) else s1))

/-! ### AUDIO_QUERY (R321) -/

def SrcDom.locks (s : State) : SrcDom → Nat
  | .grid h => h + 1
  | .measured d => let x := s.domain d
    b2n x.lockA + 2 * b2n x.lockB

/-- The pair of a source channel is non-audio. -/
def State.nonAudioNow (s : State) (c rate : Nat) : Bool := (fget {} s.audio.pairs ((pairOf c (rateK rate)).1 / 2) : PairJudge).non

def routeFlags (r : AudRoute) : Nat := b2n r.invert + 2 * b2n r.mute

def State.audioRecord (s : State) (side c : Nat) : List Byte :=
  let counters (block : Nat) : List Byte := (List.range 6).flatMap fun k => leBytes 8 (s.counter block c k)
  if side = 0 then
    let d := s.dst c
    let i := s.dstInfo c
    let rate := (s.dstRateOf c).getD 0
    leBytes 2 c ++ leBytes 2 ((d.route.map fun r => r.src).getD 0xFFFF) ++ leBytes 4 (encInt 32 d.e) ++ leBytes 1 rate ++
    leBytes 1 ((i.map fun x => x.dom.locks s).getD 0) ++ leBytes 1 (b2n (d.route.any fun r => s.nonAudioNow r.src rate)) ++
    leBytes 1 ((d.route.map routeFlags).getD 0) ++ leBytes 4 ((i.map fun x => (x.delay / 196).toNat).getD 0) ++ counters 10
  else
    let (rate, dom) := (s.srcInfo c).getD (0, .grid 0)
    leBytes 2 c ++ leBytes 2 0xFFFF ++ leBytes 4 0 ++ leBytes 1 rate ++ leBytes 1 (dom.locks s) ++ leBytes 1 (b2n (s.nonAudioNow c rate)) ++
    leBytes 1 0 ++ leBytes 4 0 ++ counters 11

def startAudioQuery (p : AudioQueryP) (s : State) : Ans :=
  orAns (failIf (p.channels.isEmpty || decide (1024 < p.channels.length)) stBadLength
    <|> failIf (p.rsvd != 0 || decide (2 ≤ p.side) ||
          !(p.channels.all fun c => if p.side = 0 then (s.dstRateOf c).isSome else (s.srcInfo c).isSome)) stBadParam)
    (.result s p.res (p.channels.flatMap (s.audioRecord p.side)))

/-! ### Quiet and the end of an output -/

/-- Every destination and port after a wake: muting ends, and ports that ran start again (R312, R513). -/
def State.wakeAudio (s : State) : State :=
  let s1 := State.each (fun (e : Nat × TdmPort) s => if e.2.stopping then s.endStop e.1 else s) s.audio.ports s
  { s1 with audio := { s1.audio with
      dsts := tmap {} (fun _ (d : Dst) => { d with muting := false, served := none, out := [] }) s1.audio.dsts,
      ports := tmap {} (fun _ (p : TdmPort) => { cfg := p.cfg, masks := p.masks, jobs := p.jobs : TdmPort }) s1.audio.ports,
      domains := [] } }

end Sys2Proof.Machine
end

