-- ==== Sys2Proof/Machine/Pictures.lean ====
section
/-! DEFINITION. The pictures that points carry: what a source group shows, what a task's output is, what an output composes (chapters 3, 6, 9
and 10). They are read off the state; a capture from an engine or a playout reader stores them. The units of a task's history and its motion
vectors stand here too. -/

namespace Sys2Proof.Machine

/-- Black of a tag for component `c` of a picture of structure `st`: a 4:2:2 pixel is C, Y. -/
def blackIn (tag st c : Nat) : Nat := if st = 0 then (if c = 0 then blackOf tag 1 else blackOf tag 0) else blackOf tag c

def blackPic (w h st tag : Nat) : Pic := { w := w, h := h, st := st, at_ := fun _ _ c => blackIn tag st c }

/-- Component `c` at (x, y) of frame `f` among received segments, black where none carries it (R83). -/
def segmentAt (l : List Segment) (f tag st : Nat) (x y c : Nat) : Nat :=
  let n := if st = 0 then 2 else if st = 1 then 3 else 4
  match l.find? fun g => g.frame == f && g.line == y && decide (g.pixel0 ≤ x) && decide (x < g.pixel0 + g.comps.length / n) with
  | some g => g.comps.getD ((x - g.pixel0) * n + c) 0
  | none => blackIn tag st c

/-- A picture whose components pass `to_output` at a format's depth, dither and exclusion off, and return to native (R222). -/
def atDepth (fmt : Nat) (p : Pic) : Pic :=
  let d := memDepth fmt
  { p with at_ := fun x y c => (toOutput (p.at_ x y c) d false false 0).1 * 2 ^ (20 - d) }

/-! ### Units of a history (R224, R237, R240) -/

/-- DEINT in MODE 0 keeps each field as a unit. -/
def byField (t : Task) : Bool := match t.p.block with
  | .deint b => b.mode == 0
  | _ => false

/-- The unit that holds a field of a source frame. -/
def unitAt (t : Task) (frame field : Nat) : Option HUnit :=
  t.history.find? fun u => u.frame == frame && (!byField t || u.field == field)

/-- The units around `a` that hold the field before its own and the field two before (R237). -/
def fieldsBefore (t : Task) (a : HUnit) : Option HUnit × Option HUnit :=
  if a.field = 1 then (unitAt t a.frame 0, if a.frame = 0 then none else unitAt t (a.frame - 1) 1)
  else if a.frame = 0 then (none, none)
  else (unitAt t (a.frame - 1) 1, unitAt t (a.frame - 1) 0)

/-- The unit that holds the field after `a`'s own. -/
def fieldAfter (t : Task) (a : HUnit) : Option HUnit := if a.field = 0 then unitAt t a.frame 1 else unitAt t (a.frame + 1) 0

/-- Luma of a field of a unit, by line of the field and column. -/
def State.fieldLuma (s : State) (b : Buf) (u : HUnit) (field : Nat) : Nat → Nat → Int :=
  let p := s.slotPic b u.slot
  fun k x => lumaAt p x (fieldLine p.h field k)

/-- How many fields up to unit `u`'s match a film cadence, and whether its partner is the field after it (R237). Without the two fields
before it no field matches. A frame unit stands for its first field; the second field of the unit before it counts too. -/
def State.cadenceOf (s : State) (version : Nat) (t : Task) (b : Buf) (u : HUnit) : Nat × Bool :=
  match fieldsBefore t u with
  | (some p, some q) =>
    let last := if byField t then q else p
    let f := s.fieldLuma b u u.field
    let f1 := s.fieldLuma b p (1 - u.field)
    let f2 := s.fieldLuma b last u.field
    let second : Bool := byField t || (match unitAt t (p.frame - 1) 1 with
      | some r => decide (0 < p.frame) && Config.cadenceFits version f1 f2 (s.fieldLuma b r 1)
      | none => false)
    let run := if byField t then p.cadence else if second then p.cadence + 1 else 0
    (if Config.cadenceFits version f f1 f2 then run + 1 else 0, Config.cadencePartner version f f1 f2)
  | _ => (0, false)

/-- A unit joins the history of the task at `e`: the first of an FRC_MC history has none before it to estimate against (R242), and a DEINT
unit continues or breaks a cadence. -/
def State.joinUnit (s : State) (e : Nat) (b : Buf) (u : HUnit) (t : Task) : Task :=
  let v := match t.p.block with
    | .frcMc _ => { u with est := t.history.isEmpty }
    | .deint k => if k.cadence = 1 then
        let (n, after) := s.cadenceOf (s.engine e).version t b u
        { u with cadence := n, partnerNext := after }
      else u
    | _ => u
  { t with history := v :: t.history }

/-- A bank of motion vectors is written from two units: 64 bytes for each block (R239, R240). -/
def State.writeVectors (s : State) (version : Nat) (t : Task) (other : Bool) (cur before : Pic) : State :=
  match s.vectorBank t other with
  | some (a, n) => s.pondWrite a ((List.range n).map (Config.vectorByte version cur.at_ before.at_))
  | none => s

/-- MOTION_ESTIMATE_DONE: the estimation of the oldest unit that waits for it ends (R240). The running task writes its bank of MV, and the
spares of a migration in SHADOW the other (R227, R239). -/
def doMotionDone (e : Nat) (s : State) : State :=
  match s.task e with
  | none => s
  | some t =>
    match oldestUnit (t.history.filter fun u => !u.est), s.histBuf t with
    | some u, some b =>
      let s1 := s.setTask e (some { t with history := t.history.map fun x => if x = u then { x with est := true } else x })
      (match newestUnit (newer u) t.history with
       | some v =>
         let cur := s.slotPic b u.slot
         let before := s.slotPic b v.slot
         let s2 := s1.writeVectors (s.engine e).version t false cur before
         (match t.migrate with
          | some (target, _) =>
            if (s.engine target).st = .shadow then s2.writeVectors (s.engine target).version t true cur before else s2
          | none => s2)
       | none => s1)
    | _, _ => s

/-- Picture of a captured task's frame from its history (R237, R241, R243). -/
def State.capturedPic (s : State) (e : Nat) (t : Task) (m : Made) : Option Pic :=
  m.a.bind fun a => (s.histBuf t).map fun b =>
    let pa := s.slotPic b a.slot
    let pb := m.b.map fun u => s.slotPic b u.slot
    match m.block with
    | .deint k =>
      if t.p.in0.scan = 2 then
        { pa with at_ := fun x y c => pa.at_ x (fieldLine pa.h (y % 2) (y / 2)) c }
      else
        let (p1, p2) := fieldsBefore t a
        let partner := if k.cadence = 1 && decide (10 ≤ a.cadence) then (if a.partnerNext then fieldAfter t a else p1) else none
        let pic (u : Option HUnit) : Option Pic := u.map fun u => s.slotPic b u.slot
        { pa with at_ := deintPixel k pa a.field (pic p1) (pic p2) (pic partner) }
    | .frcBlend k => frcPic k.mode m.alpha pa pb
    | .frcMc k => (match pb with
      | none => pa
      | some q => motionPic k (s.engine e).version m.alpha pa q)
    | _ => pa

/-- Colour-space tag of the content that source point `src` carries (R222, R266). -/
def State.srcTag (s : State) : Nat → Nat → Nat
  | 0, _ => 0
  | k + 1, src =>
    if src < 512 then ((s.rxStream src).map fun x => x.cfg.tag).getD 0
    else if src < 896 then
      match s.eoAt src with
      | some (e, t) => (match t.p.block with
        | .color b => b.outTag
        | _ => ((s.route (512 + 2 * e)).map fun r => State.srcTag s k r.src).getD 0)
      | none => 0
    else ((fget none s.pond.plays (src - 896)).bind fun (b : PlayBind) => (s.bufAt b.p.handle).bind fun t =>
      b.slot.bind fun i => fget none t.tags i).getD 0

/-- A frame of a ring, laid out as its reservation was made for. -/
def State.imageAt (s : State) (v : Fmt) (a : Nat) : Pic :=
  { w := v.w, h := v.h, st := memStructure v.fmt, at_ := fun x y c => (s.loadPixels (slotLine a v.w v.fmt y) v.fmt x 1).getD c 0 }

/-- Samples of source frame `f` that an elastic store lost are black (R143, R206). -/
def blackLost (lost : List (Nat × Nat × Nat × Nat)) (f tag : Nat) (p : Pic) : Pic :=
  let gone (x y : Nat) : Bool := lost.any fun g => g.1 == f && g.2.1 == y && decide (g.2.2.1 ≤ x) && decide (x < g.2.2.1 + g.2.2.2)
  { p with at_ := fun x y c => if gone x y then blackIn tag p.st c else p.at_ x y c }

/-- The kernel's output from the pictures of its inputs. -/
def kernelPic (p : KernelBindP) (block : KBlock) (tag : Nat) (i0 : Pic) (i1 : Option Pic) : Pic :=
  match block with
  | .scale b => { w := p.out0.width, h := p.out0.height, st := i0.st, at_ := scalePixel b p.out0.width p.out0.height tag i0 }
  | .color b => colorPic b i0
  | .chroma b => chromaPic b (p.in0.scan != 0) (structOf p.out0) i0
  | .key b => keyPic b i0 i1
  | _ => i0

/-- The picture that source point `src` carries in its frame `f`, through `k` engines at most. -/
def State.srcPic (s : State) : Nat → Nat → Nat → Pic
  | 0, _, _ => blackPic 0 0 1 0
  | k + 1, src, f =>
    let input (dest : Nat) (x : Fed) : Pic :=
      match x.slot with
      | some (a, v) => s.imageAt v a
      | none => blackLost (((s.route dest).map (·.lost)).getD []) x.frame (s.srcTag 192 x.src) (State.srcPic s k x.src x.frame)
    if src < 512 then
      match s.rxStream src with
      | some x =>
        let st := modeStructure x.cfg.mode
        { w := x.cfg.activeSamples, h := x.cfg.activeLines, st := st, at_ := segmentAt x.pix f x.cfg.tag st }
      | none => blackPic 0 0 1 0
    else if src < 896 then
      match s.eoAt src with
      | some (e, t) =>
        let tag := s.srcTag 192 src
        let black := blackPic t.p.out0.width t.p.out0.height (structOf t.p.out0) tag
        (match t.made.find? fun m => m.frame == f && m.present with
         | none => black
         | some m =>
           if capturedKernel m.block then atDepth t.p.out0.format ((s.capturedPic e t m).getD black)
           else match m.fed0 with
             | some x => atDepth t.p.out0.format
                 (kernelPic t.p m.block tag (input (512 + 2 * e) x) (m.fed1.map (input (512 + secondPort e t.p.in0.g t.p.in1.g))))
             | none => black)
      | none => blackPic 0 0 1 0
    else match (fget none s.pond.plays (src - 896)).bind fun (b : PlayBind) => (s.bufAt b.p.handle).bind fun t =>
        (b.shows.find? fun x => x.1 == f).map fun x => (t, x.2) with
      | some (t, i) => s.slotPic t i
      | none => blackPic 0 0 1 0

/-- Layer 0 of output `n` in the frame in progress (Table 6.6): samples that the elastic store lost are black. -/
def State.layer0Pic (s : State) (n : Nat) : Pic :=
  let (w, h) := ((s.outRaster n).map fun o => (o.desc.activeSamples, o.desc.activeLines)).getD (0, 0)
  let black := blackPic w h (s.outStructure n) (s.outTag n)
  match s.route n with
  | none => black
  | some r =>
    if r.loss = 1 then black
    else match r.played, r.resv with
      | some f, some v => ((ringFrame v.done f).map fun x => s.imageAt v.fmt (slotAddr v.base v.slotSize x.slot)).getD black
      | _, _ => (r.shown.map fun f => blackLost r.lost f (s.srcTag 193 r.src) (s.srcPic 193 r.src f)).getD black

/-- Output `n`'s picture: every layer composed, native. -/
def State.outputPic (s : State) (n : Nat) : Pic := s.composed n (s.layer0Pic n)

end Sys2Proof.Machine
end

