-- ==== Sys2Proof/Machine/Tailrace.lean ====
section
/-! DEFINITION. The Tailrace (egress stage): the packets of an output, formed as its lines end, and the superframes that carry them (chapters 3,
4, 5 and 14). -/

namespace Sys2Proof.Machine

/-! ### VID packets (R62 to R68) -/

/-- Components of a line at the output's depth, and the dither generator after them (R67, R68). -/
def sendComps (depth : Nat) (dither exclude : Bool) : List Nat → Nat → List Nat × Nat
  | [], g => ([], g)
  | v :: r, g =>
    let (y, g1) := toOutput v depth dither exclude g
    let (ys, g2) := sendComps depth dither exclude r g1
    (y :: ys, g2)

/-- Components of active line `y`, in pixel and component order. -/
def lineComps (mode : Nat) (p : Pic) (y : Nat) : List Nat :=
  (List.range p.w).flatMap fun x => (List.range (modeComponents mode)).map fun c => p.at_ x y c

/-- Active line `y` of frame `f` of output `n` is sent, with its ANC packets `anc`: its codes become VID packets, and the dither generator goes
on. -/
def State.sendVid (s : State) (n f y : Nat) (anc : List (List Nat)) : State :=
  match s.txStream n with
  | some x =>
    let m := x.cfg.mode
    let comps := lineComps m (s.outputPic n) y
    let (codes, g) := sendComps (modeDepth m) x.cfg.dither (!x.cfg.exclOff) comps x.dither
    let sent : SentLine := { frame := f, line := y + 1, codes := codes, anc := anc }
    (s.setTxStream n (some { x with dither := g, sent := some sent })).queuePackets n (vidPackets m (y + 1) codes.length 0 codes)
  | none => s

/-! ### Frame markers (R70, R72) -/

/-- The frame marker of an output's frame in progress, `offset` ticks after line 1, sample 0. -/
def State.marker (s : State) (n offset : Nat) : List Nat :=
  match s.outRaster n with
  | some o =>
    let f := o.frame.toNat
    [2 * 2 ^ 17 + 5, f % 2 ^ 20, f / 2 ^ 20 % 2 ^ 20, f / 2 ^ 40 * 2 ^ 12 + offset % 2 ^ 12,
     o.desc.scan * 2 ^ 18 + rateRow o.desc.rateNum o.desc.rateDen * 2 ^ 14 + o.desc.totalLines % 2 ^ 14, o.desc.field2Line % 2 ^ 16]
  | none => []

/-- An output's frame starts: the dither generator is seeded (R68), and the frame marker leaves within 200 ticks, when exactly is free
(assumption 4). -/
def State.sendMarker (s : State) (n : Nat) : State :=
  match s.txStream n, s.outRaster n with
  | some x, some o =>
    let (v, s1) := (s.setTxStream n (some { x with dither := ditherSeed n o.frame.toNat })).freeNat
    s1.queuePackets n [s1.marker n (v % 201)]
  | _, _ => s

/-! ### ANC packets (R74, R153) -/

/-- Packets of a slot's ANC area (R173), each with its header; `n` bounds their number. -/
def State.slotAnc (s : State) : Nat → Nat → Nat → List (List Nat)
  | 0, _, _ => []
  | n + 1, a, left =>
    let w (i : Nat) : Nat := s.pondNat (a + 4 * i) 4 % 2 ^ 20
    let len := w 0 % 4096 + 1
    if left < len then [] else (List.range len).map w :: State.slotAnc s n (a + 4 * len) (left - len)

def State.ancArea (s : State) (a : Nat) : List (List Nat) := s.slotAnc 4096 (a + 256) (s.pondNat (a + 28) 2)

/-- LINE of an ANC packet. -/
def ancLine (p : List Nat) : Nat := p.getD 1 0 % 2 ^ 16

/-- ANC packets of source frame `f` that the Tailrace has by `now` for line `l` of its output, `line` being when that line began: those of the
line, and on a CUT path those of earlier lines that came during it. -/
def State.sourceAnc (s : State) (src f l : Nat) (late : Bool) (lineT : Tick) : List (List Nat) :=
  if src < 512 then
    ((s.rxStream src).map fun x => (x.anc.filter fun a => a.frame == f && (ancLine a.symbols == l ||
      (late && decide (ancLine a.symbols < l) && decide (lineT ≤ a.t)))).map (·.symbols)).getD []
  else if 896 ≤ src then
    match (fget none s.pond.plays (src - 896)).bind fun (b : PlayBind) => (s.bufAt b.p.handle).bind fun t =>
        (b.shows.find? fun x => x.1 == f).map fun x => (t, x.2) with
    | some (t, i) => (s.ancArea (t.slot i)).filter fun p => ancLine p == l
    | none => []
  else []

/-- Line `l` of output `n` ends, which began at `lineT`: the ANC packets of that line, in the frame that carries their video (R74). A held
frame gives its own once; a passed frame those that reach the Tailrace in time (R153). -/
def State.lineAnc (s : State) (n l : Nat) (lineT : Tick) : List (List Nat) :=
  match s.route n with
  | some r =>
    (match r.played, r.resv with
      | some f, some v => ((ringFrame v.done f).map fun x => (s.ancArea (slotAddr v.base v.slotSize x.slot)).filter fun p => ancLine p == l).getD []
      | _, _ => (r.shown.map fun f => s.sourceAnc r.src f l (r.loss == 0) lineT).getD [])
  | none => []

/-- Line `l` of output `n`'s frame ends, which began at `lineT`. -/
def State.sendLine (s : State) (n l : Nat) (lineT : Tick) : State :=
  match s.outRaster n with
  | some o =>
    let anc := s.lineAnc n l lineT
    let s1 := match activeIndex o.desc l with
      | some y => s.sendVid n o.frame.toNat y anc
      | none => s
    s1.queuePackets n anc
  | none => s

/-! ### What a superframe says of the member -/

/-- ACTIVE of every transmit header (R378). -/
def State.active (s : State) : Bool :=
  s.pair.role == .solo || (s.pair.role == .lead && s.pair.authority && s.sys.mode != .failed)

/-- The FC field on the Brinen link (R383). -/
def State.pairFc (s : State) : Nat :=
  s.pair.role.code * 2 ^ 10 + b2n s.pair.authority * 2 ^ 9 + b2n (s.pair.sync == .lockstep) * 2 ^ 8 + s.pair.seqIn % 256

/-- Superframes that carry SLEEP: the last withdrawn one before a sleep or Quiet. -/
def sleeps (ph : TxPhase) : Bool := match ph with
  | .withdrawing 1 .sleep | .withdrawing 1 .quiet => true
  | _ => false

def txWithdrawn (ph : TxPhase) : Bool := match ph with
  | .withdrawing _ _ => true
  | _ => false

/-- The phase after one superframe. -/
def TxPhase.after : TxPhase → TxPhase
  | .withdrawing 0 _ | .withdrawing 1 _ => .idle
  | .withdrawing (n + 2) w => .withdrawing (n + 1) w
  | p => p

/-- Groups of a transmit bundle, by first point. -/
def State.txGroups (s : State) (b : Nat) : List (Nat × TxStream) :=
  s.txStreams.filterMap fun e => e.2.bind fun (x : TxStream) => if x.cfg.bundle = b then some (e.1, x) else none

def inGroup (x : TxStream) (k : Nat) : Bool := decide (x.cfg.lane ≤ k) && decide (k < x.cfg.lane + x.cfg.g)

/-- The lane is withdrawn: with its direction, or with its group before training transmission (R110, R122). -/
def State.laneWithdrawn (s : State) (b k : Nat) : Bool :=
  txWithdrawn (s.txDir b).phase || (s.txGroups b).any fun e => decide (0 < e.2.withdrawLeft) && inGroup e.2 k

/-- The identifier that lane `k` of transmit bundle `b` sends. -/
def txLaneId (b k : Nat) : Nat := if b = 64 then k else 8 * b + k

/-! ### Payload (R59, R110, R438) -/

/-- A packet's symbols from payload symbol `j` on, enciphered where a key is in force: VID, ANC and AUD bodies. -/
def encipher (key : Option Nat) (g : Nat) (id : Nat → Nat) (sfc j : Nat) (p : List Nat) : List Nat :=
  let typ := p.getD 0 0 / 2 ^ 17
  match key with
  | some k => if typ = 1 || typ = 3 || typ = 4 then
      mapAt (fun i v => if i = 0 then v else Nat.xor v (keySymbol k (id ((j + i) % g)) sfc ((j + i) / g))) 0 p
    else p
  | none => p

/-- The symbols of a group's packets, placed one after another from payload symbol `j` on. -/
def placePackets (key : Option Nat) (g : Nat) (id : Nat → Nat) (sfc : Nat) : Nat → List (List Nat) → List Nat
  | _, [] => []
  | j, p :: r => encipher key g id sfc j p ++ placePackets key g id sfc (j + p.length) r

/-- A group's superframe: the symbols it carries, and the group after it. A group that sends IDL, or whose lane key is dead, carries none and
keeps none. -/
def State.groupFrame (s : State) (x : TxStream) (sfc : Nat) : List Nat × TxStream :=
  if x.idle || x.keyDead then ([], { x with queue := [], withdrawLeft := x.withdrawLeft - 1 })
  else
    let (now_, later) := fitPackets (4087 * x.cfg.g) x.queue
    let key := x.crypt.map fun k => (s.slot k).key
    (placePackets key x.cfg.g (fun i => txLaneId x.cfg.bundle (x.cfg.lane + i)) sfc 0 now_,
     { x with queue := later, withdrawLeft := x.withdrawLeft - 1 })

/-- Payload of each lane, by the groups' symbols. -/
def lanePayload (gs : List (TxStream × List Nat)) (k : Nat) : List Nat :=
  match gs.find? fun e => inGroup e.1 k with
  | some (x, l) => laneShare x.cfg.g (k - x.cfg.lane) l
  | none => []

/-! ### TX_SUPERFRAME (R88, R110, R122, R398, R416) -/

/-- The superframe that a lane makes of its own. -/
def State.ownFrame (s : State) (b k : Nat) (gs : List (TxStream × List Nat)) : Superframe :=
  let d := s.txDir b
  { laneId := txLaneId b k, active := s.active, withdrawn := s.laneWithdrawn b k, sleep := sleeps d.phase, sfc := d.sfc,
    bc := (txLaneOf d k).bcOut, fc := if b = 64 then s.pairFc else 0, payload := lanePayload gs k }

/-- A lane after a superframe: it keeps the last two that it sent. -/
def TxLane.sentOne (fs : List (Nat × Superframe)) (k : Nat) (l : TxLane) : TxLane :=
  match fs.find? fun e => e.1 == k with
  | some e => { l with sent := e.2 :: l.sent.take 1, loop := l.loop.drop 1 }
  | none => l

/-- The far-end path sends the partner's superframes on: those next in the lanes' buffers, or where a buffer has run dry the last ones again, a
slip (R125). -/
def State.farFrames (s : State) (b : Nat) : List (Nat × Superframe) × Bool :=
  let d := s.txDir b
  let dry := (d.framing b).any fun k => (txLaneOf d k).loop.isEmpty
  ((d.framing b).filterMap fun k =>
    let l := txLaneOf d k
    ((if dry then l.sent.head? else l.loop.head?).map fun f => (k, { f with comma := 0, violations := 0, adaptDue := false, line := [] })),
   dry && (d.framing b).any fun k => !(txLaneOf d k).sent.isEmpty)

/-- What the lanes of a direction send is counted, and leaves the device where its pins are driven. Messages on the Brinen link have no layout
in the spec: what they add to its superframes is free (assumption 4). -/
def State.sendFrames (s : State) (b : Nat) (fs : List (Nat × Superframe)) : State :=
  let s1 := State.each (fun (e : Nat × Superframe) s =>
    let u := laneUnit b e.1
    let (v, s1) := if b = 64 then s.freeNat else (0, s)
    ((s1.count 2 u 0 4096).count 2 u 1 (if b = 64 then v % 4094 else (onLine e.2).stuffBits)).count 2 u 3 (b2n e.2.withdrawn)) fs s
  let s2 := s1.setTx b { s1.txDir b with lanes := mapAt (TxLane.sentOne fs) 0 (s1.txDir b).lanes }
  if (s.txDir b).sends then s2.emit (.superframe b (fs.map fun e => (e.1, onLine e.2))) else s2

/-- Bits of a superframe's time. -/
def superframeLength : Nat := 86016

/-- A generator sends its pattern for the time of a superframe (R126). -/
def TxLane.generate (l : TxLane) : TxLane := { l with prbs := l.prbs.map fun p => { p with sent := p.sent + superframeLength } }

def State.sendPatterns (s : State) (b : Nat) : State :=
  let d := s.txDir b
  let s1 := State.each (fun k s => match (txLaneOf d k).prbs with
    | some p => s.emit (.pattern b k p.pattern p.invert p.sent)
    | none => s) ((lanesOf b).filter d.mask.testBit) s
  if d.prbs then s1.setTx b { d with lanes := d.lanes.map TxLane.generate } else s1

/-- TX_SUPERFRAME: a transmit direction starts a superframe on its lanes. Requests of the partner act (R109), then every lane sends what its
group has to send, or on the far-end path what the partner sent. DESIGN CHOICE (assumption 39): a superframe carries the packets that wait as
it starts. -/
def doTxSuperframe (b : Nat) (s : State) : State :=
  if !(s.txDir b).runs then s
  else
    let d0 := s.txDir b
    let s0 := (s.setTx b { d0 with lanes := d0.lanes.map TxLane.answer }).sendPatterns b
    let d := s0.txDir b
    let s1 := State.each (fun (e : Nat × TxStream) s => s.txKeyBoundary e.1 d.sfc) (s0.txGroups b) s0
    let frames := (s1.txGroups b).map fun e => (e.1, s1.groupFrame e.2 d.sfc)
    let (far, slipped) := s1.farFrames b
    let own := (d.framing b).map fun k => (k, s1.ownFrame b k (frames.map fun e => (e.2.2, e.2.1)))
    let s2 := (if d.loopback = 3 && slipped then s1.slip b else s1).sendFrames b (if d.loopback = 3 then far else own)
    let s3 := State.each (fun (e : Nat × List Nat × TxStream) s => s.setTxStream e.1 (some e.2.2)) frames s2
    s3.setTx b { s3.txDir b with sfc := (d.sfc + 1) % 2 ^ 32, phase := d.phase.after,
                                 asleep := d.asleep || decide (d.phase = .withdrawing 1 .sleep) }

end Sys2Proof.Machine
end

