-- ==== Sys2Proof/Machine/Writers.lean ====
section
/-! DEFINITION. The Headrace parser and what it feeds: frame markers, segments, ANC, AUD and FEN packets, the elastic store of CUT
outputs, and every writer into the Millpond: capture writers, reservations and task histories (chapters 3, 6, 7, 9). -/

namespace Sys2Proof.Machine

/-! ### Arrival times (R71, R78) -/

/-- Receive-path latency of R71: 75 ns in whole ticks. -/
def pathTicks : Nat := 20

/-- Line bits sent before each 20-bit symbol of a stuffed bit string (R91): `v` and `n` are the run so far. -/
def symbolStarts (v : Option Bool) (n count pos : Nat) : List Bool → List Nat
  | [] => []
  | b :: r =>
    let m := if v = some b then n + 1 else 1
    let rest := if m = 20 then symbolStarts none 0 (count + 2) (pos + 1) r else symbolStarts (some b) m (count + 1) (pos + 1) r
    if pos % 20 = 0 then count :: rest else rest

/-- Arrival ticks of the first `n` payload symbols of a lane's superframe whose first bit is taken to arrive at `t0`: that of the group's
latest lane, as though every lane had arrived with it (R97). -/
def laneTimes (rate laneId n : Nat) (t0 : Tick) (l : RxLane) : List Tick :=
  match l.held with
  | none => []
  | some sf =>
    let pay := sf.payload.take n ++ List.replicate (n - sf.payload.length) 0
    let plain := lineBits (headerSymbols laneId sf.active sf.withdrawn sf.sleep sf.sfc sf.bc sf.fc ++ pay)
    let line := plain.zipWith (· != ·) (keystreamBits laneId sf.sfc plain.length)
    ((symbolStarts none 0 0 0 line).drop 4).map fun c => t0 + (60 + c) * 9 * 2 ^ rate / 400

/-! ### Routes fed by a source -/

/-- Destinations of the routes from `src`, with the routes. -/
def State.fedBy (s : State) (src : Nat) : List (Nat × Route) :=
  s.routes.routes.filterMap fun e => e.2.bind fun (r : Route) => if r.src = src then some (e.1, r) else none

/-- Reservations that capture `src`: those of its routes, and of takes that wait (R138). -/
def State.resvsOf (s : State) (src : Nat) : List Resv :=
  ((s.fedBy src).filterMap fun e => e.2.resv) ++
  s.routes.waits.filterMap fun (w : RouteWait) => if w.entry.src = src then w.resv else none

/-- Symbols `[at, at + n)` of a stream of `g` points reach every destination point that selects them (R133, Table 19.2). -/
def State.deliverSymbols (s : State) (src g at_ n : Nat) : State :=
  State.each (fun (e : Nat × Route) s => State.each (fun k s =>
    s.count 4 (e.1 + k) 0 (n / g + b2n (decide ((k + g - at_ % g) % g < n % g)))) (List.range g) s) (s.fedBy src) s

/-! ### Capture writers (R145, R174, R175) -/

/-- The route of a writer at a frame start of its source: whether the source's format fits now; a route that has lost its format stays lost
(R141), and the history of a captured task is emptied with it (R226). -/
def State.fitRoute (s : State) (dest : Nat) (r : Route) : State :=
  let ok := r.formatOk && s.srcFormatOk r.src && (match s.srcFmt r.src r.g, s.dstFmt dest r.g with
    | some a, some b => fmtFits r.src dest a b
    | _, _ => s.cwReserved dest r.g)
  if ok = r.formatOk then s
  else
    let s1 := s.setRoute dest (some { r with formatOk := ok })
    match s.capturedAt dest with
    | some e => s1.dropHistory e
    | none => s1

/-- A writer's frame that did not end is left unfinished (R174). -/
def State.unfinished (s : State) (c : CapBind) : State :=
  match c.writing, s.bufAt c.p.handle with
  | some w, some b => if isRing b then s.setSlotState (b.slot w.slot) 3 else s
  | _, _ => s

def State.setBuf (s : State) (handle : Nat) (b : Buf) : State :=
  { s with pond := { s.pond with bufs := fset none s.pond.bufs (handle % 16384) (some b) } }

/-- A bind whose writer begins source frame `f` now (R256). -/
def CapBind.begins (c : CapBind) (now : Tick) (slot f : Nat) : CapBind :=
  { c with writing := some { slot := slot, frame := f }, lastFrame := some f, lastT := now,
           prevFrame := if c.lastT = now then c.prevFrame else c.lastFrame }

/-! ### Taint of what is written (R392) -/

/-- What the content at a source point comes from: (0, input point, 0), (1, buffer object, slot). -/
def State.origins (s : State) : Nat → Nat → List (Nat × Nat × Nat)
  | 0, _ => []
  | n + 1, src =>
    if src < 512 then [(0, src, 0)]
    else if src < 896 then
      match s.eoAt src with
      | some (e, t) => (s.routes.routes.filterMap fun x => x.2.bind fun (r : Route) =>
          if decide (512 + 2 * e ≤ x.1) && decide (x.1 < 512 + 2 * e + 2 * t.p.gang) then some r.src else none).flatMap (State.origins s n)
      | none => []
    else match fget none s.pond.plays (src - 896) with
      | some b => (b.slot.map fun k => (1, b.p.handle, k)).toList
      | none => []

/-- Something among `os` is tainted: a slot until it is written anew, an input for the eight frames that follow (assumption 30). -/
def State.tainting (s : State) (os : List (Nat × Nat × Nat)) : Bool :=
  s.pair.taint.any fun (k, u, f) =>
    if k = 0 then os.contains (0, u, 0) && (s.rxStream u).all fun x => decide (x.frame < f + 8) else os.contains (k, u, f)

/-- A slot that capture writer `m` has written is tainted as its source is. -/
def State.taintSlot (s : State) (m handle slot : Nat) : State :=
  let s1 := { s with pair := { s.pair with taint := s.pair.taint.filter fun x => x != (1, handle, slot) } }
  if ((s.route (896 + m)).map fun r => s.tainting (s.origins 8 r.src)).getD false then s1.taint 1 handle slot else s1

/-- Capture writer `m` starts source frame `f` in the slot after the last it wrote that no reader holds; it drops the frame when every other
slot is held (R174). -/
def State.startCapture (s : State) (m f : Nat) (line1T : Int) (tag : Nat) : State :=
  match fget none s.pond.caps m with
  | none => s
  | some c =>
    let s1 := s.unfinished c
    match s1.bufAt c.p.handle with
    | none => s1
    | some b =>
      if !isRing b then s1.setCap m (some (c.begins s.now 0 f))
      else
        let held := s1.heldSlots c.p.handle
        let others := if c.lastSlot.isSome && decide (1 < b.params.count) then b.params.count - 1 else b.params.count
        match nextSlot b.params.count (fun k => held.contains k) others ((c.lastSlot.map (· + 1)).getD 0) with
        | none => (s1.setCap m (some { c with writing := none })).count 9 m 2
        | some k =>
          let n := slotSize b.params.width b.params.height b.params.format
          let s2 := ((s1.openSlot (b.slot k) f (s1.stcOf line1T)).tearXfers c.p.handle (256 + k * n) (256 + (k + 1) * n)).traffic m 1 (b.slot k) 256
          (s2.setBuf c.p.handle { b with tags := fset none b.tags k (some tag) }).setCap m 
            (some { c.begins s.now k f with lastSlot := some k })

/-- Pixels of a segment reach capture writer `m`. A line ring's entry is void until its line ends. -/
def State.writeCapture (s : State) (m : Nat) (g : Segment) (lineEnds : Bool) : State :=
  match fget none s.pond.caps m with
  | none => s
  | some c =>
    match c.writing, s.bufAt c.p.handle with
    | some w, some b =>
      if w.frame != g.frame then s
      else
        let p := b.params
        let a := if isRing b then slotLine (b.slot w.slot) p.width p.format g.line else ringLineAt b (g.line % max p.count 1)
        let s1 := s.storePixels a p.format g.pixel0 g.comps
        let s2 := if isRing b then s1
          else s1.pondWrite (ringEntryAt b (g.line % max p.count 1)) (leBytes 6 g.frame ++ leBytes 2 (if lineEnds then g.line + 1 else 0))
        if lineEnds then (s2.padLine a p.width p.format).traffic m 1 a (pitch p.width p.format) else s2
    | _, _ => s

/-- Frame `f` of capture writer `m` ends complete or not; a complete frame ends a one-shot bind (R181). -/
def State.endCapture (s : State) (m f : Nat) (good : Bool) (doneT : Tick) : State :=
  match fget none s.pond.caps m with
  | none => s
  | some c =>
    match c.writing, s.bufAt c.p.handle with
    | some w, some b =>
      if w.frame != f then s
      else if !isRing b then (s.taintSlot m c.p.handle w.slot).setCap m (some { c with writing := none })
      else
        let ok := good && w.good
        let s1 := ((s.closeSlot (b.slot w.slot) ok doneT).traffic m 1 (b.slot w.slot) 256).taintSlot m c.p.handle w.slot
        if ok && c.p.oneShot then
          match c.job with
          | some id => ((s1.setCap m none).charge (fun x => decide (x.kind < 2) && x.holder == c.p.cw) []).completeId id stOk 0 none
          | none => s1.setCap m (some { c with writing := none })
        else s1.setCap m (some { c with writing := none })
    | _, _ => s

/-- Symbols of an ANC packet join the ANC area of a slot; those beyond 4,096 are dropped and counted on the port. -/
def State.putAnc (s : State) (port a : Nat) : List Nat → State
  | [] => s
  | v :: r =>
    let (ok, s1) := s.addAnc a v
    State.putAnc (if ok then s1 else s1.count 9 port 3) port a r

/-! ### Histories (R224, R226) -/

/-- The writer of the task at `e` starts source frame `f`: its slot follows the last, past the units in use. -/
def State.startHistory (s : State) (e f : Nat) (line1T : Int) (f2 : Nat) : State :=
  match s.task e with
  | none => s
  | some t =>
    match s.histBuf t with
    | none => s
    | some b =>
      let used := (t.lastA.toList ++ t.useB.toList).map (·.slot)
      let s1 := match t.writing with
        | some w => s.setSlotState (b.slot w.slot) 3
        | none => s
      match nextSlot b.params.count (fun k => used.contains k) b.params.count ((t.lastSlot.map (· + 1)).getD 0) with
      | none => s1
      | some k =>
        let n := slotSize b.params.width b.params.height b.params.format
        ((s1.openSlot (b.slot k) f (s1.stcOf line1T)).tearXfers (histOf t.p.block) (256 + k * n) (256 + (k + 1) * n)).setTask e (some { t with
          writing := some { slot := k, frame := f }, lastSlot := some k, f2 := f2, history := t.history.filter fun u => u.slot != k,
          lost := (t.history.filter fun u => u.slot == k && t.lastA.any fun a => decide (a.start < u.start)) ++ t.lost })

/-- Pixels of a segment reach the history of the task at `e`. -/
def State.writeHistory (s : State) (e : Nat) (g : Segment) (lineEnds : Bool) : State :=
  match s.task e with
  | none => s
  | some t =>
    match t.writing, s.histBuf t with
    | some w, some b =>
      if w.frame != g.frame then s
      else
        let a := slotLine (b.slot w.slot) b.params.width b.params.format g.line
        let s1 := s.storePixels a b.params.format g.pixel0 g.comps
        if lineEnds then (s1.padLine a b.params.width b.params.format).traffic (5632 + e) 1 a (pitch b.params.width b.params.format) else s1
    | _, _ => s

/-- A field or frame of the task at `e` ends: `field` 0 or 1 for a field, 2 for the frame. A DEINT field unit stands on its own
field's segments; a frame unit on the whole frame. -/
def State.endHistory (s : State) (e f field : Nat) (good : Bool) (line1T : Int) (doneT : Tick) : State :=
  match s.task e with
  | none => s
  | some t =>
    match t.writing, s.histBuf t with
    | some w, some b =>
      if w.frame != f then s
      else if field = 2 then
        let ok := good && w.good
        let s1 := s.closeSlot (b.slot w.slot) ok doneT
        let t1 := { t with writing := none }
        let u : HUnit := { slot := w.slot, frame := f, start := line1T.toNat, done := doneT, f2 := t.f2 }
        s1.setTask e (some (if ok && !byField t then s1.joinUnit e b u t1 else t1))
      else if byField t && good && w.good then
        let (n, d) := rateOf t.p.in0.rate
        let start := if field = 0 then line1T else line1T + ((t.f2 - 1) * frameTicks n d / max b.params.tlines 1 : Nat)
        let u : HUnit := { slot := w.slot, frame := f, field := field, start := start.toNat, done := doneT, f2 := t.f2 }
        s.setTask e (some (s.joinUnit e b u t))
      else s
    | _, _ => s

/-! ### Every writer of a source -/

/-- The spares of a migration that is resident run in SHADOW from the first frame start of an input of their task (R213). -/
def State.shadowAt (s : State) (dest : Nat) : State :=
  match (if 512 ≤ dest && dest < 896 then (s.taskAtEi dest).bind s.task else none) with
  | some t => (match t.migrate with
    | some (target, _) => State.each (fun e s => if (s.engine e).st = .spare then s.setEngine e { s.engine e with st := .shadow } else s)
        ((List.range t.p.gang).map (target + ·)) s
    | none => s)
  | none => s

/-- Source `src` starts its frame `f`: routes that wait for it apply, and every writer starts the frame. -/
def State.startFrame (s : State) (src f : Nat) (line1T : Int) (f2 tag : Nat) : State :=
  let s0 := s.applySrcWaits src line1T
  let s1 := State.each (fun (e : Nat × Route) s => s.shadowAt e.1) (s0.fedBy src) s0
  let s2 := State.each (fun (e : Nat × Route) s => if 896 ≤ e.1 || (s.capturedAt e.1).isSome then s.fitRoute e.1 e.2 else s) (s1.fedBy src) s1
  if !s2.srcFormatOk src then s2
  else
    let s3 := s2.eachResv src fun played extra v => resvStart v (s2.srcFmt src v.g) played (extra + 1) f
    let s4 := State.each (fun (v : Resv) s => match v.writing with
        | some w => s.openSlot (slotAddr v.base v.slotSize w.slot) f (s.stcOf line1T)
        | none => s) (s3.resvsOf src) s3
    State.each (fun (e : Nat × Route) s =>
      if !e.2.formatOk then s
      else if 896 ≤ e.1 then s.startCapture (e.1 - 896) f line1T tag
      else match s.capturedAt e.1 with
        | some k => s.startHistory k f line1T f2
        | none => s) (s4.fedBy src) s4

/-- A segment whose superframe is good reaches every writer of its source (R103, R170). -/
def State.writeSegment (s : State) (src : Nat) (g : Segment) (lineEnds : Bool) : State :=
  let s1 := State.each (fun (v : Resv) s => match v.writing with
      | some w =>
        if w.frame != g.frame then s
        else
          let l := slotLine (slotAddr v.base v.slotSize w.slot) v.fmt.w v.fmt.fmt g.line
          let s1 := s.storePixels l v.fmt.fmt g.pixel0 g.comps
          if lineEnds then (s1.padLine l v.fmt.w v.fmt.fmt).traffic v.cw 1 l (pitch v.fmt.w v.fmt.fmt) else s1
      | none => s) (s.resvsOf src) s
  State.each (fun (e : Nat × Route) s =>
    if 896 ≤ e.1 then s.writeCapture (e.1 - 896) g lineEnds
    else match s.capturedAt e.1 with
      | some k => s.writeHistory k g lineEnds
      | none => s) (s1.fedBy src) s1

/-- A field of frame `f` ends at `doneT`. -/
def State.endField (s : State) (src f field : Nat) (good : Bool) (line1T : Int) (doneT : Tick) : State :=
  State.each (fun (e : Nat × Route) s => match s.capturedAt e.1 with
    | some k => s.endHistory k f field good line1T doneT
    | none => s) (s.fedBy src) s

/-- Frame `f` of source `src` ends at `doneT`: complete when every segment arrived (R145). -/
def State.endFrame (s : State) (src f : Nat) (good : Bool) (line1T : Int) (doneT : Tick) : State :=
  let s0 := State.each (fun (v : Resv) s => match v.writing with
      | some w => if w.frame = f then s.closeSlot (slotAddr v.base v.slotSize w.slot) (good && w.good) doneT else s
      | none => s) (s.resvsOf src) s
  let s1 := s0.eachResv src fun _ _ v => resvEnd v f good doneT line1T.toNat
  State.each (fun (e : Nat × Route) s =>
    if 896 ≤ e.1 then s.endCapture (e.1 - 896) f good doneT
    else match s.capturedAt e.1 with
      | some k => s.endHistory k f 2 good line1T doneT
      | none => s) (s1.fedBy src) s1

/-- An ANC packet reaches the slot of every writer of its source (R173). -/
def State.writeAnc (s : State) (src f : Nat) (symbols : List Nat) : State :=
  let s1 := State.each (fun (v : Resv) s => match v.writing with
      | some w => if w.frame = f then s.putAnc v.cw (slotAddr v.base v.slotSize w.slot) symbols else s
      | none => s) (s.resvsOf src) s
  State.each (fun (e : Nat × Route) s =>
    if 896 ≤ e.1 then
      match fget none s.pond.caps (e.1 - 896) with
      | some c => (match c.writing, s.bufAt c.p.handle with
        | some w, some b => if w.frame = f && isRing b then s.putAnc (e.1 - 896) (b.slot w.slot) symbols else s
        | _, _ => s)
      | none => s
    else match (s.capturedAt e.1).bind s.task with
      | some t => (match t.writing, s.histBuf t with
        | some w, some b => if w.frame = f then s.putAnc (5632 + (e.1 - 512) / 2) (b.slot w.slot) symbols else s
        | _, _ => s)
      | none => s) (s1.fedBy src) s1

/-! ### The elastic store (R143) -/

/-- Layer 0 of an output passes its source through the Tailrace: CUT, or PASS (Table 6.6). -/
def passes (dest : Nat) (r : Route) : Bool := decide (dest < 512) && (r.cls == .cut || r.loss == 3)

/-- D of R140 and R142 for output `n` in the frame in progress. -/
def State.pathD (s : State) (n : Nat) : Nat :=
  let c := s.compOut n
  if (if s.runsPaired then c.engaged else c.active) then 65 else 49

/-- The source raster where only a marker declares it: `period` and lines `tl` of the source. The spec lets no source declare where its active
lines and samples lie. DESIGN CHOICE (assumption 39): they lie as on the raster that it is passed to, those of a timed engine input by the
input geometry of its kernel block (R223). -/
def sampleTicks (d : RasterDesc) (tl period k x : Nat) : Nat :=
  ((activeLineNo d k - 1) * d.totalSamples + d.activeSample0 + x) * period / max (tl * d.totalSamples) 1

/-- A destination that passes its source sample by sample: the start of its frame in progress, the source frame that this shows, and the
raster that places the source's samples. -/
def State.passing (s : State) (dest : Nat) (r : Route) : Option (Int × Nat × RasterDesc) :=
  if dest < 512 then
    if passes dest r then (s.outRaster dest).bind fun o => r.shown.map fun f => ((o.frameT : Int), f, o.desc) else none
  else if dest < 896 && r.cls == .cut then
    (s.taskAtEi dest).bind fun e => (s.task e).bind fun t => (geometryOf t.p.block).bind fun g => (s.raster? t.p.raster).bind fun p =>
      r.last.map fun f => (t.eoT - t.added, f, { p.desc with totalLines := g.inTLines, activeLine1 := g.inALine1, activeLine2 := g.inALine2,
                                                             activeLines := t.p.in0.height, scan := t.p.in0.scan })
  else none

/-- A sample that reached the pins `beyond` ticks after its nominal source time comes too late for the store, which sends it λ after
that time. -/
def tooLate (lead beyond : Int) : Bool := decide (lead < beyond)

/-- It finds the store full. DEDUCED (assumption 39): the window is open at its early end, since a source at nominal timing whose λ is 1,080
ticks goes out black (R14, R143). -/
def tooEarly (lead beyond : Int) : Bool := decide (beyond ≤ lead - 1080)

/-- Samples that come too late, and too early, `beyond` nominal times each. -/
def elasticJudge (lead : Int) : List Int → Nat × Nat
  | [] => (0, 0)
  | t :: r =>
    let (late, early) := elasticJudge lead r
    (late + b2n (tooLate lead t), early + b2n (tooEarly lead t))

/-- First and number of each run of samples that the store loses, counted from the segment's first. -/
def lostRange (lead : Int) : Nat → List Int → List (Nat × Nat)
  | _, [] => []
  | i, t :: r =>
    let rest := lostRange lead (i + 1) r
    if tooLate lead t || tooEarly lead t then
      match rest with
      | (j, n) :: q => if j = i + 1 then (i, n + 1) :: q else (i, 1) :: rest
      | [] => [(i, 1)]
    else rest

/-- Samples that a destination's store lost are black there, and counted on an output. DEDUCED (assumption 39): the counters have no unit for
the store of an engine input. -/
def State.loseSamples (s : State) (dest : Nat) (r : Route) (lead : Int) (g : Segment) (beyond : List Int) : State :=
  let (late, early) := elasticJudge lead beyond
  if late + early = 0 then s
  else
    let lost := (lostRange lead 0 beyond).map fun x => (g.frame, g.line, g.pixel0 + x.1, x.2)
    let s1 := s.setRoute dest (some { r with lost := lost ++ r.lost.filter fun l => decide (g.frame ≤ l.1 + 3) })
    if dest < 512 then ((s1.count 5 dest 4 late).count 5 dest 5 early).count 5 dest 7 (late + early) else s1

/-- A segment on its way through the elastic store of every destination that passes its source: `period` and `tl` are the source's, `times`
when its samples were at the pins. t_src of the frame in progress is what that frame start judged (R140), other frames whole periods
from it. -/
def State.elastic (s : State) (src tl period : Nat) (g : Segment) (times : List Int) : State :=
  State.each (fun (e : Nat × Route) s =>
    match s.passing e.1 e.2 with
    | none => s
    | some (start, f, d) =>
      let t0 : Int := start - e.2.latency + ((g.frame : Int) - f) * period
      let beyond := mapAt (fun i (t : Int) => t - (t0 + sampleTicks d tl period g.line (g.pixel0 + i))) 0 times
      s.loseSamples e.1 e.2 e.2.lead g beyond) (s.fedBy src) s

/-- A line of an engine output or a playout reader is at nominal timing. -/
def State.elasticLocal (s : State) (src : Nat) (g : Segment) (w : Nat) : State :=
  State.each (fun (e : Nat × Route) s => if (s.passing e.1 e.2).isSome then s.loseSamples e.1 e.2 e.2.lead g (List.replicate w 0) else s)
    (s.fedBy src) s

/-- The frame in progress of stream `n` ends, and `more` frames after it of which nothing came: their missing samples went out black on
every output that passes the stream (R83). -/
def State.countMissing (s : State) (n : Nat) (more : Nat := 0) : State :=
  match s.rxStream n with
  | none => s
  | some x =>
    if x.marked then
      let whole := x.cfg.activeSamples * x.cfg.activeLines
      State.each (fun (e : Nat × Route) s => if passes e.1 e.2 then s.count 5 e.1 7 (whole - x.got + more * whole) else s) (s.fedBy n)
        (s.setRxStream n (some { x with got := whole }))
    else s

/-! ### Frame markers (R70 to R72) -/

/-- What the markers of a source declare. -/
def declared (scan rate tl f2 : Nat) : RasterDesc :=
  { totalLines := tl, totalSamples := 0, rateNum := (rateOf rate).1, rateDen := (rateOf rate).2, scan := scan, field2Line := f2,
    activeLine1 := 0, activeLines := 0, activeSamples := 0 }

/-- No marker has been seen. -/
def undeclared : RasterDesc :=
  { totalLines := 0, totalSamples := 0, rateNum := 0, rateDen := 0, activeLine1 := 0, activeLines := 0, activeSamples := 0 }

/-- Lanes with a due step not taken in the frame that ends (R121). -/
def State.countMissed (s : State) (x : RxStream) : State :=
  if (s.rxDir x.cfg.bundle).adapt then State.each (fun k s => s.count 1 (laneUnit x.cfg.bundle k) 10) x.missed s else s

/-- A marker of another format has come: every route from the stream is to lose its format, from the frame of that marker (R72, R141). -/
def State.clearFormats (s : State) (n : Nat) : State :=
  State.each (fun (e : Nat × Route) s => s.setRoute e.1 (some { e.2 with badT := some (e.2.badT.getD s.now) })) (s.fedBy n) s

/-- What a marker declares: SCAN, RATE and TOTAL_LINES. -/
def declares (d : RasterDesc) : Nat × Nat × Nat := (d.scan, rateRow d.rateNum d.rateDen, d.totalLines)

/-- A valid frame marker of stream `n` that arrived at `at_` (R70 to R72). The phase against each house raster is metered here (R20). DEDUCED
(assumption 39): a marker of another format raises the format-change event when it declares another format than the marker before it. -/
def State.frameMarker (s : State) (n : Nat) (body : List Nat) (at_ : Tick) : State :=
  match s.rxStream n with
  | none => s
  | some x =>
    let g (i : Nat) : Nat := body.getD i 0
    let frame := g 0 + 2 ^ 20 * g 1 + 2 ^ 40 * (g 2 / 4096)
    let scan := g 3 / 2 ^ 18
    let rate := g 3 / 2 ^ 14 % 16
    let tl := g 3 % 2 ^ 14
    let f2 := g 4 % 2 ^ 16
    let line1 := at_ - g 2 % 4096 - pathTicks
    let period := if x.marked && x.frame < frame then (line1 - x.markT) / (frame - x.frame) else x.period
    let fits := scan == x.cfg.scan && rate == x.cfg.rate && tl == x.cfg.totalLines
    let fmt := declared scan rate tl f2
    let laps := x.lapAt (line1 + x.period / 2 : Nat)
    let s1 := (s.countMissing n (laps - 1 - x.lap)).countMissed x
    let s2 := if !fits && (x.formatOk || declares fmt != declares x.fmt) then s1.rxEvent x.cfg.bundle else s1
    let s2 := if fits then s2 else s2.clearFormats n
    let y := { x with marked := true, fmt := fmt, frame := frame, line := 1, markT := line1, lap := 0,
                      phaseA := s.metered line1 0, phaseB := s.metered line1 1,
                      markStc := BitVec.ofNat 64 (s.stcOf line1), period := period, stale := false, formatOk := fits,
                      lastLine := 0, nextPixel := x.cfg.activeSamples, frameGood := true, fieldGood := true, got := 0, missed := [],
                      pix := x.pix.filter fun p => decide (frame ≤ p.frame + 2), anc := x.anc.filter fun a => decide (frame ≤ a.frame + 2) }
    (s2.setRxStream n (some y)).startFrame n frame line1 f2 x.cfg.tag

/-- A line marker against the raster of the frame marker (R71): its line starts nearest to where that raster has it. -/
def lineMarkerOk (x : RxStream) (line offset : Nat) (at_ : Tick) : Bool :=
  let tl := x.fmt.totalLines
  let t : Int := (at_ : Int) - offset - pathTicks - x.markT
  x.marked && between 1 line tl && (x.period == 0 || (2 * t * tl + x.period) / ((2 * x.period : Nat) : Int) == (line : Int) - 1)

/-- A TIM packet (R70, R71, Table 3.9). DESIGN CHOICE (assumption 39): the spec gives a TAG other than 0 and 1 no meaning; the packet is taken for
a line marker. -/
def State.timPacket (s : State) (n : Nat) (p : LanePacket) (at_ : Tick) : State :=
  match s.rxStream n with
  | none => s
  | some x =>
    if p.tag = 0 then
      let scan := p.body.getD 3 0 / 2 ^ 18
      let rate := p.body.getD 3 0 / 2 ^ 14 % 16
      if p.length != 5 || 3 ≤ scan || 11 ≤ rate then s.count 3 n 4 else s.frameMarker n p.body at_
    else if p.length != 2 then s.count 3 n 4
    else
      let line := p.body.getD 0 0 % 2 ^ 16
      if lineMarkerOk x line (p.body.getD 1 0 % 4096) at_ then s.setRxStream n (some { x with line := line })
      else s.count 3 n 9

/-! ### VID packets (R62 to R66, Table 3.9) -/

/-- A well-formed segment under a configuration: line from 0, whether it is flagged LAST, first pixel, pixels. DESIGN CHOICE (assumption 39): a
segment without LAST whose pixels are not a multiple of the alignment (R63) counts as one whose data are not whole groups. -/
def segmentOf (c : StreamSetP) (p : LanePacket) : Option (Nat × Bool × Nat × Nat) :=
  let h := p.body.getD 0 0
  let q := p.body.getD 1 0
  let line := h % 2 ^ 16
  let last := q.testBit 19
  let x0 := q % 2 ^ 16
  let syms := groupSymbols c.mode
  let px := (p.length - 2) / syms * groupPixels c.mode
  let w := c.activeSamples
  if p.length < 2 || h / 2 ^ 16 != c.mode || !between 1 line c.activeLines || x0 % modeAlign c.mode != 0 || (p.length - 2) % syms != 0 ||
     w ≤ x0 || (if last then w + groupPixels c.mode ≤ x0 + px else w < x0 + px || px % modeAlign c.mode != 0) then none
  else some (line - 1, last, x0, min px (w - x0))

/-- The segment follows the last in raster order. -/
def inOrder (x : RxStream) (line x0 : Nat) : Bool :=
  decide (x.lastLine < line + 1) || (x.lastLine == line + 1 && decide (x.nextPixel ≤ x0))

/-- No pixel is missing between the last segment and this one. -/
def contiguous (x : RxStream) (line x0 : Nat) : Bool :=
  if x.lastLine = line + 1 then x0 == x.nextPixel
  else x.lastLine == line && x0 == 0 && x.nextPixel == x.cfg.activeSamples

/-- The frame, counted from the last marked one, that a segment of active line `line` belongs to: its line start lies nearest to the line's in
that frame (R65). DEDUCED (assumption 39): a frame whose marker is lost keeps the source's raster, by whole measured periods. -/
def lapOf (x : RxStream) (line : Nat) (pinT : Int) : Nat :=
  x.lapAt (pinT - (line * x.period / max x.cfg.totalLines 1 : Nat) + (x.period / 2 : Nat))

/-- The parser goes on to a frame without a marker: it is incomplete (R145), and what was missing before it counts (R83). -/
def State.skipTo (s : State) (n lap : Nat) : State :=
  match s.rxStream n with
  | none => s
  | some x =>
    if x.lap < lap then
      let s1 := s.countMissing n (lap - 1 - x.lap)
      s1.setRxStream n (some { x with lap := lap, lastLine := 0, nextPixel := x.cfg.activeSamples, frameGood := false, fieldGood := false, got := 0 })
    else s

/-- A VID packet of stream `n` (R65, R83); after a marker of another format it is discarded (R72, R85, R141). `good` says that every lane's CRC
held, `times` gives the arrival of each symbol. -/
def State.vidPacket (s : State) (n : Nat) (p : LanePacket) (times : Nat → Tick) (good : Bool) : State :=
  match s.rxStream n with
  | none => s
  | some x0_ =>
    match segmentOf x0_.cfg p with
    | none => s.count 3 n 3
    | some (line, _, x0, px) =>
      let s := if x0_.formatOk && x0_.marked then s.skipTo n (lapOf x0_ line ((times p.at_ : Int) - pathTicks)) else s
      let x := (s.rxStream n).getD x0_
      if !x.formatOk || !inOrder x line x0 then s.count 3 n 3
      else
        let c := x.cfg
        let st := modeStructure c.mode
        let nc := modeComponents c.mode
        let comps := if x.keyDead then (List.range (px * nc)).map fun i => blackIn c.tag st (i % nc)
          else unpackGroup c.mode px (p.body.drop 2)
        let f := x.frame + x.lap
        let g : Segment := { frame := f, line := line, pixel0 := x0, comps := comps }
        let second := ceilDiv c.activeLines 2
        let opens := c.scan != 0 && line == second && x0 == 0
        let ok := contiguous x line x0
        let y := { x with lastLine := line + 1, nextPixel := x0 + px, got := x.got + px, line := x.line, pix := g :: x.pix,
                          frameGood := x.frameGood && ok && good, fieldGood := (if opens then true else x.fieldGood && ok) && good }
        let pins := (List.range px).map fun i => (times (p.at_ + 3 + i / groupPixels c.mode * groupSymbols c.mode) : Int) - pathTicks
        let period := if x.period = 0 then frameTicks (rateOf c.rate).1 (rateOf c.rate).2 else x.period
        let s1 := ((s.setRxStream n (some y)).elastic n c.totalLines period g pins).deliverSymbols n c.g p.at_ (p.length + 1)
        let ends := x0 + px == c.activeSamples
        let s2 := if good then s1.writeSegment n g ends else s1
        if !ends then s2
        else
          let s3 := if c.scan != 0 && (line + 1 == second || line + 1 == c.activeLines) then
              s2.endField n f (if line + 1 = second then 0 else 1) y.fieldGood x.markT s.now
            else s2
          if line + 1 = c.activeLines then s3.endFrame n f y.frameGood x.markT s.now else s3

/-! ### ANC packets (R73, R74) -/

/-- The ten-bit words of an ANC packet, from the symbol after its first. -/
def ancWords (body : List Nat) : List Nat := (body.drop 1).flatMap fun v => [v / 1024 % 1024, v % 1024]

/-- ST 291-1 checksum: the nine low bits of DID to the last user word, summed; bit 9 is bit 8 inverted. -/
def ancSumOk (words : List Nat) (dc : Nat) : Bool :=
  let sum := total (· % 512) (words.take (3 + dc)) % 512
  words.getD (3 + dc) 0 == sum + (if sum < 256 then 512 else 0)

/-- An ANC packet of stream `n`. -/
def State.ancPacket (s : State) (n : Nat) (p : LanePacket) (good : Bool) : State :=
  match s.rxStream n with
  | none => s
  | some x =>
    let words := ancWords p.body
    let dc := words.getD 2 0 % 256
    if p.length != 1 + ceilDiv (dc + 4) 2 then s.count 3 n 5
    else if x.keyDead then s
    else
      let s1 := if ancSumOk words dc then s else s.count 3 n 8
      let symbols := (p.typ * 2 ^ 17 + p.tag * 2 ^ 12 + p.length) :: p.body
      let s2 := (s1.setRxStream n (some { x with anc := x.anc ++ [{ frame := x.frame + x.lap, after := x.lastLine, t := s.now, symbols := symbols }] })).deliverSymbols n x.cfg.g p.at_ (p.length + 1)
      if good then s2.writeAnc n (x.frame + x.lap) symbols else s2

/-! ### AUD packets (R75 to R78, R282) -/

/-- Some channel of a block already has samples in the block's time. -/
def audOverlaps (x : RxStream) (slots : List Nat) (start len : Int) : Bool :=
  slots.any fun c => (fget [] x.audT c).any fun b => decide (b.1 < start + len) && decide (start < b.2)

/-- The latest by which a block may follow its first sample (R78), in ticks. -/
def lateBlock : Nat := 1048575

/-- A block's time joins those of its slots; times that no later block can reach leave the list. -/
def noteBlock (slots : List Nat) (start len : Int) (x : RxStream) : RxStream :=
  { x with audT := slots.foldl (fun m c => fset [] m c ((start, start + len) :: (fget [] m c).filter fun b =>
      decide (start < b.2 + tick196 (2 * lateBlock)))) x.audT }

/-- An AUD packet of stream `n` that arrived at `at_`. -/
def State.audPacket (s : State) (n : Nat) (p : LanePacket) (at_ : Tick) : State :=
  match s.rxStream n with
  | none => s
  | some x =>
    let h := p.body.getD 0 0
    let rate := h / 2 ^ 15 % 8
    let nch := h / 2 ^ 10 % 32 + 1
    let b := blockSamples (h / 2 ^ 18)
    if 6 ≤ rate || p.length != 2 + audSampleSymbols nch b + audSideSymbols nch b then s.count 3 n 6
    else if lateBlock < p.body.getD 1 0 then s.count 3 n 11
    else
      let k := rateK rate
      let t := tick196 ((at_ : Int) - p.body.getD 1 0 - pathTicks)
      let len := samplePeriod rate * b
      let slots := (List.range nch).map fun c => k * (p.tag + c)
      if slots.any fun c => decide (32 < c + k) then s.count 3 n 10
      else if audOverlaps x slots t len then s.count 3 n 10
      else
        let syms := (p.body.drop 2).take (audSampleSymbols nch b)
        let sideSyms := p.body.drop (2 + audSampleSymbols nch b)
        let vals := audSamples nch b syms
        let chan (c : Nat) : List (Int × Nat) := (List.range b).map fun i =>
          let side := audSide sideSyms c b i
          if x.keyDead then (0, Nat.lor side 1) else (vals.getD (nch * i + c) 0, side)
        let kept := if x.keyDead then (p.body.drop 2).map fun _ => 0 else p.body.drop 2
        let s1 := s.setRxStream n (some { noteBlock slots t len x with aud := some (followingBlock x.aud (x.frame + x.lap) kept) })
        let s2 := State.each (fun i s =>
          s.storePair (32 * n + k * (p.tag + 2 * i)) (32 * n + k * (p.tag + 2 * i + 1)) rate t (chan (2 * i))
            (if 2 * i + 1 < nch then some (chan (2 * i + 1)) else none) true) (List.range (ceilDiv nch 2)) s1
        s2.blockArrived (streamDomain n rate) rate (slots.map (32 * n + ·)) t b

/-! ### FEN packets (R79, R80) -/

/-- A FEN packet of stream `n`, stamped with the arrival of its first symbol. -/
def State.fenArrived (s : State) (n : Nat) (p : LanePacket) (at_ : Tick) : State :=
  if p.length != 2 then s.count 3 n 7
  else
    let f := p.body.getD 0 0 / 4096 % 256
    let v := p.body.getD 0 0 % 4096 + 4096 * p.body.getD 1 0
    let s1 := s.fenPacket n f v
    if s1.fence f = s.fence f || (s1.fence f).discarded != (s.fence f).discarded then s1
    else s1.setFence f { s1.fence f with stamp := s.stcOf at_ }

/-! ### SUPERFRAME_CRC_RESULT (R82, R103) -/

/-- Lane payloads of a group, as they arrived. -/
def groupPayload (ls : List RxLane) : List (List Nat) := ls.map fun l => (l.held.map (·.payload)).getD []

/-- The symbols of a group of lanes as far as any lane lists them. -/
def groupSymbolsOf (pay : List (List Nat)) : List Nat := interleave pay 0 (pay.length * (pay.map List.length).foldl max 0)

/-- A packet's body deciphered (R438): VID, ANC and AUD under a valid slot. -/
def decipher (key : Option Nat) (g : Nat) (ids sfcs : List Nat) (p : LanePacket) : LanePacket :=
  match key with
  | some k =>
    if p.typ = 1 || p.typ = 3 || p.typ = 4 then
      { p with body := mapAt (fun i v =>
          let j := p.at_ + 1 + i
          let lane := j % g
          Nat.xor v (keySymbol k (ids.getD lane 0) (sfcs.getD lane 0) (j / g))) 0 p.body }
    else p
  | none => p

/-- One packet at the Headrace. A superframe with a CRC failure passes only what a CUT path has sent on already (R103). -/
def State.headPacket (s : State) (n : Nat) (times : Nat → Tick) (good : Bool) (p : LanePacket) : State :=
  match p.typ with
  | 0 => s
  | 1 => s.vidPacket n p times good
  | 2 => if good then s.timPacket n p (times p.at_) else s
  | 3 => s.ancPacket n p good
  | 4 => if good then s.audPacket n p (times p.at_) else s
  | 5 => if good then s.fenArrived n p (times p.at_) else s
  | _ => if good then s.count 3 n 2 else s

def dropHeld (ks : List Nat) (k : Nat) (l : RxLane) : RxLane := if ks.contains k then { l with delivered := true } else l

/-- SUPERFRAME_CRC_RESULT: the CRC of every lane of the group that begins at point `n` is known. -/
def doCrcResult (n : Nat) (s : State) : State :=
  match s.rxStream n with
  | none => s
  | some x =>
    let b := x.cfg.bundle
    let d := s.rxDir b
    let ks := groupLanes x.cfg
    let ls := ks.map (rxLaneOf d)
    if !ls.all (fun l => l.held.isSome && !l.delivered) then s
    else
      let clear (s : State) : State := s.setRx b { s.rxDir b with lanes := mapAt (dropHeld ks) 0 (s.rxDir b).lanes }
      if !x.present then clear s
      else
        let good := ls.all fun l => (l.held.map (·.crcOk)).getD false
        let pay := groupPayload ls
        let g := x.cfg.g
        let (raw, beyond) := parsePackets (1 + (groupSymbolsOf pay).length) (4087 * g) 0 (groupSymbolsOf pay)
        let key := match x.crypt with
          | some k => if x.keyDead then none else some (s.slot k).key
          | none => none
        let ids := ks.map (d.expected b)
        let sfcs := ls.map fun l => (l.held.map (·.sfc)).getD 0
        let ps := raw.map (decipher key g ids sfcs)
        let need := (ps.map fun p => p.at_ + 1 + p.length).foldl max 0
        let t0 := (ls.map (·.arrival)).foldl max 0
        let lanes := (ls.zip ids).map fun e => laneTimes d.rate e.2 (ceilDiv need g) t0 e.1
        let times (j : Nat) : Tick := (lanes.getD (j % g) []).getD (j / g) s.now
        let s1 := if good then (if beyond then s.count 3 n 1 else s) else s.count 3 n 0
        let s2 := ps.foldl (fun s p => s.headPacket n times good p) s1
        let s3 := if good then s2
          else if (raw.any fun p => p.typ == 1 || p.typ == 3) && (s2.fedBy n).any fun e => passes e.1 e.2 then (s2.count 3 n 12).rxEvent b else s2
        let spoils := !good && raw.any fun p => p.typ == 1 || (p.typ == 2 && p.tag == 0)
        let s4 := if spoils then s3.setRxStream n ((s3.rxStream n).map fun y => { y with frameGood := false, fieldGood := false }) else s3
        clear s4

/-- INPUT_RASTER_STALE: no frame marker for 1.5 measured frame periods (R72). -/
def doInputStale (n : Nat) (s : State) : State :=
  match s.rxStream n with
  | some x =>
    if x.marked && x.period != 0 && !x.stale && decide (2 * x.markT + 3 * x.period ≤ 2 * s.now) then
      (s.setRxStream n (some { x with stale := true })).rxEvent x.cfg.bundle
    else s
  | none => s

/-! ### Sources that do not arrive on lanes (R145, R222) -/

/-- Every engine output or playout reader that is a source of some route, in place or waiting, by point. -/
def State.localSources (s : State) : List Nat :=
  (((s.routes.routes.filterMap fun e => e.2.map (·.src)) ++ s.routes.waits.map fun (w : RouteWait) => w.entry.src).filter fun p =>
    decide (512 ≤ p) && decide (p < 1408)).eraseDups

/-- The timing raster of a local source point. -/
def State.timingOf (s : State) (src : Nat) : Option Nat :=
  if src < 896 then (s.eoAt src).map fun e => e.2.p.raster
  else (fget none s.pond.plays (src - 896)).map fun (b : PlayBind) => b.p.raster

def State.localRaster (s : State) (src : Nat) : Option RasterDesc := ((s.timingOf src).bind s.raster?).map (·.desc)

/-- Lines of its frame in progress that a local source has emitted. -/
def State.sentOf (s : State) (src : Nat) : Nat :=
  if src < 896 then ((s.eoAt src).map fun e => e.2.sent).getD 0
  else ((fget none s.pond.plays (src - 896)).map fun (b : PlayBind) => b.sent).getD 0

def State.setSent (s : State) (src k : Nat) : State :=
  if src < 896 then (match s.eoAt src with
    | some (e, t) => s.setTask e (some { t with sent := k })
    | none => s)
  else match fget none s.pond.plays (src - 896) with
    | some b => s.setPlay (src - 896) (some { b with sent := k })
    | none => s

/-- A local source starts its frame: the writers it feeds start too. Symbols on its points are a number the spec does not
state (assumption 4). -/
def State.startLocal (s : State) (src f : Nat) (t : Int) : State :=
  if (s.fedBy src).isEmpty && !(s.routes.waits.any fun w => w.entry.src == src) then s
  else
    let (v, s0) := s.freeNat
    let s1 := State.each (fun (e : Nat × Route) s => State.each (fun k s => s.count 4 (e.1 + k) 0 v) (List.range e.2.g) s) (s0.fedBy src) s0
    let f2 := ((s.localRaster src).map fun d => if d.scan = 0 then 1 else d.field2Line).getD 1
    (s1.setSent src 0).startFrame src f t f2 (s1.srcTag 193 src)

/-- Some writer takes frame `f` of a local source, or a destination passes it outside the store's window. -/
def State.wantsLines (s : State) (src f : Nat) : Bool :=
  ((s.resvsOf src).any fun v => v.writing.any fun w => w.frame == f) || (s.fedBy src).any fun e =>
    (decide (896 ≤ e.1) && ((fget none s.pond.caps (e.1 - 896)).any fun (c : CapBind) => c.writing.any fun w => w.frame == f)) ||
    (((s.capturedAt e.1).bind s.task).any fun t => t.writing.any fun w => w.frame == f) ||
    (e.2.loss == 3 && decide (1080 ≤ e.2.lead))

/-- When active line `k` of a frame that started at `t` has been emitted: with its raster line. -/
def lineDone (d : RasterDesc) (t : Int) (k : Nat) : Int := t + activeLineNo d k * descPeriod d / max d.totalLines 1

/-- Active line `k` of frame `f` is emitted whole at `doneT`: it reaches every writer, and ends its field or frame. -/
def State.emitLine (s : State) (src f : Nat) (a : Fmt) (p : Pic) (t : Int) (k : Nat) (doneT : Tick) : State :=
  let comps := (List.range a.w).flatMap fun x => (List.range (memComponents a.fmt)).map fun c => p.at_ x k c
  let g : Segment := { frame := f, line := k, pixel0 := 0, comps := comps }
  let s1 := (s.elasticLocal src g a.w).writeSegment src g true
  let second := ceilDiv a.h 2
  let s2 := if a.scan != 0 && (k + 1 == second || k + 1 == a.h) then
      s1.endField src f (if k + 1 = second then 0 else 1) true t doneT
    else s1
  if k + 1 = a.h then s2.endFrame src f true t doneT else s2

/-- The next `n` lines of a frame, from line `k` on, as far as they end before `now_`. -/
def State.emitLines (src f : Nat) (a : Fmt) (p : Pic) (d : RasterDesc) (t now_ : Int) : Nat → Nat → State → State
  | 0, k, s => s.setSent src k
  | n + 1, k, s =>
    if lineDone d t k < now_ then State.emitLines src f a p d t now_ n (k + 1) (s.emitLine src f a p t k (lineDone d t k).toNat)
    else s.setSent src k

/-- A local source emits the lines of its frame in progress that end before `now_` (R145, R222). -/
def State.advanceSource (s : State) (src : Nat) (now_ : Int) : State :=
  match (if s.srcPresent src then s.srcMark src else none), s.localRaster src, [1, 2, 4, 8].findSome? (s.srcFmt src) with
  | some (t, f, _), some d, some a =>
    let k := s.sentOf src
    if k < a.h && decide (lineDone d t k < now_) && s.wantsLines src f then
      State.emitLines src f a (s.srcPic 193 src f) d t now_ (a.h - k) k s
    else s
  | _, _, _ => s

/-- Every local source emits the lines that end before `now_`. -/
def State.advanceSources (s : State) (now_ : Int) : State := State.each (fun src s => s.advanceSource src now_) s.localSources s

end Sys2Proof.Machine
end

