-- ==== Sys2Proof/Machine/Streams.lean ====
section
/-! DEFINITION. STREAM_SET and what it creates and ends: receive groups, transmit groups with their output rasters (R56, R58, R60, R104, R363,
R364). -/

namespace Sys2Proof.Machine

/-! ### Checks -/

/-- First point of a group (R17). -/
def pointOf (p : StreamSetP) : Nat := 8 * p.bundle + p.lane

/-- Lanes of a bundle that two groups share. -/
def sharesLane (a b : StreamSetP) : Bool := a.bundle == b.bundle && overlap a.lane a.g b.lane b.g

/-- MODE and TAG agree (R364). -/
def tagAgrees (mode tag : Nat) : Bool := tagFits (modeStructure mode) tag

/-- Transmit groups that wait to be configured count as configured (R58). -/
def State.txPending (s : State) (n : Nat) : List StreamSetP :=
  s.jobs.filterMap fun j => match j.params with
    | .streamSet p => if p.dir = 1 && p.g != 0 && pointOf p != n && j.kind == .apply then some p else none
    | _ => none

/-- A configured group of the direction, other than the one that begins at `n`, shares a lane. -/
def State.groupTaken (s : State) (p : StreamSetP) : Bool :=
  let n := pointOf p
  if p.dir = 0 then s.rxStreams.any fun e => e.1 != n && e.2.any fun (x : RxStream) => sharesLane x.cfg p
  else (s.txStreams.any fun e => e.1 != n && e.2.any fun (x : TxStream) => sharesLane x.cfg p) || (s.txPending n).any (sharesLane p)

/-- Format fields of a receive group (Tables 2.1 and 13.5). -/
def formatFieldsOk (p : StreamSetP) : Bool :=
  decide (p.rate < 11) && decide (p.scan < 3) && between 32 p.totalLines 8192 && decide (p.activeLines ≤ p.totalLines) &&
  decide (p.activeSamples ≤ 16384)

/-- The raster a transmit group is judged against: its own, or a copy of house A's (R363). -/
def State.groupRaster (s : State) (n : Nat) : RasterDesc :=
  match s.outRaster n with
  | some o => o.desc
  | none => { (s.house 0).desc with house := 0, ratio := 0, phaseLines := 0, phaseSamples := 0 }

/-- R60 and R104 for either direction. -/
def State.linePeakFits (s : State) (p : StreamSetP) : Bool :=
  if p.dir = 0 then
    let (n, d) := rateOf p.rate
    linePeakOk p.activeSamples p.totalLines n d p.mode p.g (s.rxDir p.bundle).rate (s.rxDir p.bundle).spread
  else s.txPeakOk p (s.groupRaster (pointOf p))

/-- A layer that holds the output to its tag (R254). -/
def layerHolds (x : Layer) (tag : Nat) : Bool :=
  (x.a.enable || x.a.buf.isSome || x.pend.isSome || x.decided.isSome) && x.a.tag.any fun t => t != tag

/-- The size of the group that begins where the command names. -/
def State.oldGroup (s : State) (p : StreamSetP) : Option Nat :=
  if p.dir = 0 then (s.rxStream (pointOf p)).map fun x => x.cfg.g else (s.txStream (pointOf p)).map fun x => x.cfg.g

/-- A route names a point of the group of `g` points at `n`. -/
def State.groupRouted (s : State) (p : StreamSetP) (g : Nat) : Bool :=
  if p.dir = 0 then s.srcRouted (pointOf p) g else s.destRouted (pointOf p) g

/-- STREAM_SET checks (R58, R60, R254, R363, R364). -/
def chkStreamSet (h : Hdr) (p : StreamSetP) (s : State) : Check :=
  let n := pointOf p
  let old := s.oldGroup p
  failIf (decide (2 ≤ p.dir) || decide (64 ≤ p.bundle) || decide (8 ≤ p.lane) || p.rsvd != 0) stBadParam
  <|> failIf (h.sched && (p.dir == 0 || h.raster != 2 + n || h.line != 1)) stBadParam
  <|> if p.g = 0 then
      failIf old.isNone stBadParam
      <|> failIf (s.groupRouted p (old.getD 1)) stBusy
      <|> failIf (p.dir == 1 && ((s.compOut n).layers.any (fun (x : Layer) => x.a.enable) || (s.embed n).p.any fun (e : AudioEmbedP) => e.enable)) stBusy
    else
      failIf (!groupSizeOk p.g || p.lane % p.g != 0 || decide (8 < p.lane + p.g) || s.groupTaken p || decide (5 < p.mode) ||
        !tagAgrees p.mode p.tag) stBadParam
      <|> failIf (if p.dir = 0 then p.dither || p.exclOff || !formatFieldsOk p
            else p.rate != 0 || p.activeSamples != 0 || p.activeLines != 0 || p.totalLines != 0 || p.scan != 0) stBadParam
      <|> failIf (!s.linePeakFits p) stBadParam
      <|> failIf (old.any fun g => g != p.g && s.groupRouted p g) stBusy
      <|> failIf (p.dir == 1 && (s.compOut n).layers.any fun x => layerHolds x p.tag) stColorMismatch

/-! ### Effects -/

/-- A pending lane key change of a group that ends never takes place. -/
def cryptOn (dir n : Nat) (j : Job) : Bool := match j.params with
  | .laneCryptSet p => p.dir == dir && p.point == n
  | _ => false

/-- STREAM_SET of a receive group, at execution. A change of G ends the old group, which is absent from its next superframe
boundary (R363). -/
def setReceive (p : StreamSetP) (s : State) : State :=
  let n := pointOf p
  match s.rxStream n with
  | some x =>
    if p.g = 0 then (((s.endOld n x).withdraw n).setRxStream n none).completeWhere (cryptOn 0 n) stCancelled 0 none
    else if p.g = x.cfg.g then
      let fits := !x.marked || (x.fmt.scan == p.scan && rateRow x.fmt.rateNum x.fmt.rateDen == p.rate && x.fmt.totalLines == p.totalLines)
      s.setRxStream n (some { x with cfg := p, formatOk := fits })
    else (s.stopWriters n).setRxStream n (some { cfg := p, ending := x.present || x.ending, fmt := undeclared, crypt := x.crypt, cryptNext := x.cryptNext })
  | none => s.setRxStream n (some { cfg := p, fmt := undeclared })

/-- The monitors timed by a raster that ceases stop and keep their last window (R497). -/
def stopMonitor (r : Nat) (m : Monitor) : Monitor := if m.running && m.raster = r then { m with running := false, open_ := false } else m

/-- A pending action on output raster `2 + n`, other than job `but`. -/
def actionOn (n but : Nat) (j : Job) : Bool :=
  j.id != but && j.raster == 2 + n && (j.kind == .apply || (match j.params with
    | .rasterSet _ => true
    | _ => false))

/-- Output `n` ceases to exist (R42, R56): its actions are cancelled and give back what they held (`release`), its route, layers,
audio and embedding end. -/
def State.endOutput (s : State) (release : Job → State → State) (n but : Nat) : State :=
  let s1 := (s.dropOutput n).dropComp n
  let s2 := State.each (fun j s => (release j s).complete j stCancelled 0 none) (s1.jobs.filter (actionOn n but)) s1
  let s3 := s2.completeWhere (cryptOn 1 n) stCancelled 0 none
  let s4 := s3.dropDsts fun c => decide (32 * n ≤ c) && decide (c < 32 * n + 32)
  let s5 := { (s4.setEmbed n {}) with cnt := { s4.cnt with mons := tmap {} (fun _ m => stopMonitor (2 + n) m) s4.cnt.mons } }
  (s5.setTxStream n none).setOutRaster n none

/-- A new output's raster: a copy of house A's descriptor, starting with the house frame that begins now. -/
def State.newOutput (s : State) (n : Nat) : State :=
  let h := s.house 0
  s.setOutRaster n (some { desc := s.groupRaster n, frame := h.frame, line := 1, lineT := h.lineT, frameT := h.frameT, started := true, owed := true })

/-- STREAM_SET of a transmit group takes effect. -/
def setTransmit (release : Job → State → State) (p : StreamSetP) (but : Nat) (s : State) : State :=
  let n := pointOf p
  if p.g = 0 then s.endOutput release n but
  else
    let s1 := if (s.outRaster n).isSome then s else s.newOutput n
    match s1.txStream n with
    | some x => s1.setTxStream n (some { x with cfg := p })
    | none => s1.setTxStream n (some { cfg := p })

/-- STREAM_SET immediate: a receive group at once; a transmit group at its output's next frame start, a new one with house A's. -/
def startStreamSet (h : Hdr) (p : StreamSetP) (s : State) : Ans :=
  orAns (chkStreamSet h p s)
    (if p.dir = 0 then .done (setReceive p s)
     else .later s .apply (if (s.outRaster (pointOf p)).isSome then 2 + pointOf p else 0))

def applyStreamSet (release : Job → State → State) (j : Job) (p : StreamSetP) (s : State) : State :=
  (setTransmit release p j.id s).complete j stOk 0 (some (if p.g = 0 then 0 else 2 + pointOf p))

end Sys2Proof.Machine
end

