-- ==== Sys2Proof/Machine/Presets.lean ====
section
/-! DEFINITION. Route presets: their layout, the preset region of the Parameter Store, PRESET_STORE, PRESET_RECALL, PRESET_COLDSTART
and cold-start recall (R156 to R160, R464, R465). -/

namespace Sys2Proof.Machine

/-! ### Layout (Table 6.8) -/

def rasterRecord (p : RasterSetP) : List Byte := leBytes 2 p.raster ++ leBytes 2 0 ++ descBytes p.desc

def streamRecord (p : StreamSetP) : List Byte :=
  leBytes 1 p.dir ++ leBytes 1 p.bundle ++ leBytes 1 p.lane ++ leBytes 1 p.g ++ leBytes 1 p.mode ++ leBytes 1 p.tag ++
  leBytes 1 (b2n p.dither + 2 * b2n p.exclOff) ++ leBytes 1 p.rate ++ leBytes 2 p.activeSamples ++ leBytes 2 p.activeLines ++
  leBytes 2 p.totalLines ++ leBytes 1 p.scan ++ leBytes 1 0

def lossRecord (p : LossSetP) : List Byte := leBytes 2 p.output ++ leBytes 1 p.policy ++ leBytes 1 0 ++ leBytes 2 p.holdLimit ++ leBytes 2 0

def entryRecord (e : RouteEntry) : List Byte :=
  leBytes 2 e.dest ++ leBytes 2 e.src ++ leBytes 1 e.g ++ leBytes 1 (entryFlags e) ++ leBytes 1 e.extra ++ leBytes 1 0

def presetHead (b : PresetBody) (gen : Nat) : List Byte :=
  leBytes 2 b.rasters.length ++ leBytes 2 b.streams.length ++ leBytes 2 b.losses.length ++ leBytes 2 b.routes.length ++ leBytes 4 gen

def presetBytes (b : PresetBody) (gen : Nat) : List Byte :=
  let tail := leBytes 16 0 ++ b.rasters.flatMap rasterRecord ++ b.streams.flatMap streamRecord ++ b.losses.flatMap lossRecord ++
    b.routes.flatMap entryRecord
  presetHead b gen ++ leBytes 4 (crcBytes (presetHead b gen ++ tail)) ++ tail

/-- The number in `n` bytes from `o` of a record. -/
def numAt (l : List Byte) (o n : Nat) : Nat := leNat ((l.drop o).take n)

def toDesc (l : List Byte) : RasterDesc :=
  { totalLines := numAt l 0 2, totalSamples := numAt l 2 2, rateNum := numAt l 4 4, rateDen := numAt l 8 4, scan := numAt l 12 1,
    rsvd := numAt l 13 1, field2Line := numAt l 14 2, activeLine1 := numAt l 16 2, activeLines := numAt l 18 2,
    activeLine2 := numAt l 20 2, activeSample0 := numAt l 22 2, activeSamples := numAt l 24 2, house := numAt l 26 1,
    ratio := numAt l 27 1, phaseLines := numAt l 28 2, phaseSamples := numAt l 30 2 }

def toRaster (l : List Byte) : RasterSetP := { raster := numAt l 0 2, desc := toDesc (l.drop 4), rsvd := numAt l 2 2 }

def toStream (l : List Byte) : StreamSetP :=
  { dir := numAt l 0 1, bundle := numAt l 1 1, lane := numAt l 2 1, g := numAt l 3 1, mode := numAt l 4 1, tag := numAt l 5 1,
    dither := bit (numAt l 6 1) 0, exclOff := bit (numAt l 6 1) 1, rate := numAt l 7 1, activeSamples := numAt l 8 2,
    activeLines := numAt l 10 2, totalLines := numAt l 12 2, scan := numAt l 14 1, rsvd := numAt l 15 1 + numAt l 6 1 / 4 }

def toLoss (l : List Byte) : LossSetP :=
  { output := numAt l 0 2, policy := numAt l 2 1, holdLimit := numAt l 4 2, rsvd := numAt l 3 1 + numAt l 6 2 }

def toEntry (l : List Byte) : RouteEntry :=
  let f := numAt l 5 1
  { dest := numAt l 0 2, src := numAt l 2 2, g := numAt l 4 1, syncRes := bit f 0, forceSync := bit f 1, autoCut := bit f 2,
    extra := numAt l 6 1, rsvd := numAt l 7 1 + f / 8 }

/-- Records of `n` bytes. -/
def cutRecords {α : Type} (f : List Byte → α) (n : Nat) : Nat → List Byte → List α
  | 0, _ => []
  | k + 1, l => f (l.take n) :: cutRecords f n k (l.drop n)

/-- R157: the count limits of R156. -/
def countsOk (b : PresetBody) : Bool :=
  decide (b.rasters.length ≤ 514) && decide (b.streams.length ≤ 1024) && decide (b.losses.length ≤ 512) && decide (b.routes.length ≤ 1408)

/-- A preset read from its bytes; none when its counts or its CRC fail. -/
def toPreset (l : List Byte) : Option PresetBody :=
  let nr := numAt l 0 2
  let ns := numAt l 2 2
  let nl := numAt l 4 2
  let ne := numAt l 6 2
  let size := 32 + 36 * nr + 16 * ns + 8 * nl + 8 * ne
  let b : PresetBody := { rasters := cutRecords toRaster 36 nr (l.drop 32), streams := cutRecords toStream 16 ns (l.drop (32 + 36 * nr)),
                          losses := cutRecords toLoss 8 nl (l.drop (32 + 36 * nr + 16 * ns)),
                          routes := cutRecords toEntry 8 ne (l.drop (32 + 36 * nr + 16 * ns + 8 * nl)) }
  if !countsOk b || l.length < size then none
  else if numAt l 12 4 = crcBytes (l.take 12 ++ (l.take size).drop 16) then some b else none

/-! ### Directory (R464, Table 17.4) -/

/-- A tagged page as it will stand is whole. -/
def State.wholeSoon (s : State) (page : Nat) : Bool :=
  nvBytes s.nvView (64 * page) 2 == nvBytes s.nvView (64 * page + 62) 2

/-- The valid directory page among D0 and D1, under a reading of pages. -/
def validDir (whole : Nat → Bool) (head : Nat → Nat) : Option Nat :=
  match whole 0x800, whole 0x801 with
  | true, true => if (head 0x801 + 65536 - head 0x800) % 65536 < 32768 && head 0x801 != head 0x800 then some 0x801 else some 0x800
  | true, false => some 0x800
  | false, true => some 0x801
  | false, false => none

/-- The 64 bytes of the directory once every issued write is programmed, with its page; a blank one when neither page is whole. -/
def State.dirSoon (s : State) : Nat × List Byte :=
  match validDir s.wholeSoon s.nvHead with
  | some p => (p, nvBytes s.nvView (64 * p) 64)
  | none => (0x801, leBytes 2 (s.nvHead 0x801) ++ leBytes 62 0)

/-- START, PAGES and COUNT of a preset in a directory. -/
def dirEntry (d : List Byte) (i : Nat) : Nat × Nat × Nat := (numAt d (4 + 4 * i) 2, numAt d (6 + 4 * i) 2, numAt d (36 + 2 * i) 2)

/-- Bytes of a list replaced. -/
def patch (l : List Byte) (o : Nat) (b : List Byte) : List Byte := l.take o ++ b ++ l.drop (o + b.length)

/-- The page that a directory write goes to. -/
def otherDir (p : Nat) : Nat := if p = 0x800 then 0x801 else 0x800

/-- A directory write: the other page, one above the valid directory's count. -/
def State.writeDir (s : State) (p : Nat) (d : List Byte) (why : NvFor) : State :=
  s.nvPage (otherDir p) ((numAt d 0 2 + 1) % 65536) ((d.drop 2).take 60) why

/-- A directory page that would be written is protected (R462). -/
def State.dirProtected (s : State) : Bool := s.nvProtected (64 * otherDir s.dirSoon.1)

/-! ### PRESET_STORE (R157, R465) -/

/-- The lowest run of `n` free, unprotected preset pages. -/
def State.freeRun (s : State) (d : List Byte) (n : Nat) : Option Nat :=
  let taken := (List.range 8).map (dirEntry d)
  let free (i : Nat) : Bool := !s.nvProtected (64 * (0x822 + i)) && !(taken.any fun e => decide (e.1 ≤ i) && decide (i < e.1 + e.2.1))
  let starts := (0 :: (taken.map fun e => e.1 + e.2.1)).filter fun i => decide (i + n ≤ 2014) && (List.range n).all fun k => free (i + k)
  starts.foldl (fun a i => match a with
    | some x => some (min x i)
    | none => some i) none

/-- The store count of a new copy: the first above LAST_COUNT that no page of the run holds as TAG. -/
def State.storeCount (s : State) (last start n : Nat) : Nat :=
  let tags := (List.range n).map fun i => leNat (nvBytes s.nvView (64 * (0x822 + start + i) + 62) 2)
  (((List.range (n + 1)).map fun k => (last + 1 + k) % 65536).find? fun c => !tags.contains c).getD ((last + 1) % 65536)

/-- GEN of the copy that a directory names, 0 for none. -/
def State.presetGen (s : State) (d : List Byte) (i : Nat) : Nat :=
  let (start, pages, _) := dirEntry d i
  if pages = 0 then 0 else leNat (nvBytes s.nvView (64 * (0x822 + start) + 2 + 8) 4)

/-- Ranges of a stream record (R58, R363, R364): the group within its bundle, and the fields that its direction has. -/
def streamRecordOk (p : StreamSetP) : Bool :=
  decide (p.dir < 2) && decide (p.bundle < 64) && decide (p.lane < 8) && p.rsvd == 0 &&
  (p.g == 0 || (groupSizeOk p.g && p.lane % p.g == 0 && decide (p.lane + p.g ≤ 8) && decide (p.mode < 6) && tagAgrees p.mode p.tag &&
    (if p.dir = 0 then !p.dither && !p.exclOff && formatFieldsOk p
     else p.rate == 0 && p.activeSamples == 0 && p.activeLines == 0 && p.totalLines == 0 && p.scan == 0)))

/-- Ranges of the records of an explicit preset (R157). -/
def recordsOk (b : PresetBody) : Bool :=
  (b.rasters.all fun r => decide (r.raster < 514) && descOk r.desc (decide (r.raster < 2)) && r.rsvd == 0) &&
  b.streams.all streamRecordOk &&
  (b.losses.all fun p => decide (p.output < 512) && decide (p.policy < 3) && decide (p.holdLimit ≤ 65535) && p.rsvd == 0) &&
  (b.routes.all fun e => groupAt e.dest e.g && (isClear e || groupAt e.src e.g) && decide (e.extra ≤ 5) && e.rsvd == 0)

/-- The snapshot of CAPTURE: rasters, streams, loss settings and routes. -/
def State.snapshot (s : State) : PresetBody :=
  { rasters := [{ raster := 0, desc := (s.house 0).desc }, { raster := 1, desc := (s.house 1).desc }] ++
      s.rasters.filterMap fun e => e.2.map fun (o : OutRaster) => { raster := 2 + e.1, desc := o.desc },
    streams := (s.rxStreams.filterMap fun e => e.2.map fun (x : RxStream) => x.cfg) ++
      s.txStreams.filterMap fun e => e.2.map fun (x : TxStream) => x.cfg,
    losses := s.txStreams.filterMap fun e => e.2.map fun (_ : TxStream) =>
      { output := e.1, policy := (s.loss e.1).policy, holdLimit := (s.loss e.1).limit },
    routes := s.routes.routes.filterMap fun e => e.2.map fun (r : Route) =>
      { dest := e.1, src := r.src, g := r.g, syncRes := r.syncRes, forceSync := r.forceSync, autoCut := r.autoCut, extra := r.extra } }

/-- A copy is written and the directory switched, completing job `id` with its last page; none when no run is free. -/
def State.storePreset (s : State) (id i : Nat) (b : PresetBody) : Option State :=
  let (p, d) := s.dirSoon
  let bytes := presetBytes b (s.presetGen d i + 1)
  let n := ceilDiv bytes.length 60
  (s.freeRun d n).map fun start =>
    let count := s.storeCount (numAt d 52 2) start n
    let s1 := State.each (fun k s => s.nvPage (0x822 + start + k) count ((bytes.drop (60 * k)).take 60) (.command id)) (List.range n) s
    let d1 := patch (patch (patch d (4 + 4 * i) (leBytes 2 start ++ leBytes 2 n)) (36 + 2 * i) (leBytes 2 count)) 52 (leBytes 2 count)
    s1.writeDir p d1 (.lastOf id)

/-- PRESET_STORE: CAPTURE samples at the next frame start of house A. -/
def startPresetStore (p : PresetStoreP) (s : State) : Ans :=
  orAns (failIf s.routes.recalling stBusy
    <|> failIf (decide (8 ≤ p.preset) || p.rsvd != 0 || (!p.capture && !(countsOk p.body && recordsOk p.body))) stBadParam
    <|> failIf s.dirProtected stProtected)
    (if p.capture then .later s .apply 0
     else match s.storePreset s.nextJob p.preset p.body with
       | some s1 => .later s1 .event
       | none => .fail stNoResource)

/-- The snapshot of a PRESET_STORE is taken. -/
def applyPresetStore (j : Job) (p : PresetStoreP) (s : State) : State :=
  match s.storePreset j.id p.preset s.snapshot with
  | some s1 => s1.setJob { j with kind := .event }
  | none => s.complete j stNoResource 0 none

/-- PRESET_COLDSTART (R159). -/
def startPresetColdstart (p : PresetColdstartP) (s : State) : Ans :=
  orAns (failIf s.routes.recalling stBusy
    <|> failIf ((decide (8 ≤ p.preset) && p.preset != 255) || p.rsvd != 0) stBadParam
    <|> failIf s.dirProtected stProtected)
    (let (q, d) := s.dirSoon
     .later (s.writeDir q (patch d 2 (leBytes 1 p.preset ++ leBytes 1 (b2n p.enable))) (.lastOf s.nextJob)) .event)

/-! ### Recall (R158) -/

/-- The stored copy of preset `i`: its directory whole, its pages whole at COUNT, its CRC good. -/
def State.readPreset (s : State) (i : Nat) : Option PresetBody :=
  (validDir s.nvWhole fun p => leNat (nvBytes s.nvByte (64 * p) 2)).bind fun p =>
    let (start, pages, count) := dirEntry (nvBytes s.nvByte (64 * p) 64) i
    let pageOk (k : Nat) : Bool :=
      let a := 64 * (0x822 + start + k)
      leNat (nvBytes s.nvByte a 2) == count && leNat (nvBytes s.nvByte (a + 62) 2) == count
    if pages = 0 || !((List.range pages).all pageOk) then none
    else toPreset ((List.range pages).flatMap fun k => nvBytes s.nvByte (64 * (0x822 + start + k) + 2) 60)

/-- Records checked in order, each on the configuration that those before it leave. -/
def checkEach {α : Type} (chk : α → State → Check) (eff : α → State → State) : List α → State → Check × State
  | [], s => (none, s)
  | x :: r, s => match chk x s with
    | some e => (some e, s)
    | none => checkEach chk eff r (eff x s)

def houseRecord (p : RasterSetP) : Bool := decide (p.raster < 2)

def tryHouse (p : RasterSetP) (s : State) : State := s.setHouse p.raster { s.house p.raster with desc := p.desc }

/-- The raster a record gives an output, whether or not its group is configured yet. -/
def tryOutput (p : RasterSetP) (s : State) : State :=
  s.setOutRaster (p.raster - 2) (some (match s.outRaster (p.raster - 2) with
    | some o => { o with desc := p.desc }
    | none => { desc := p.desc }))

def tryStream (p : StreamSetP) (s : State) : State :=
  if p.dir = 0 then setReceive p s else setTransmit (fun _ s => s) p 0 s

/-- The section (1 raster, 2 stream, 3 loss, 4 route) and status of the first record that fails, and the configuration that all
records leave. -/
def State.tryPreset (s : State) (b : PresetBody) : Option (Nat × Nat × Nat) × State :=
  let fail (k : Nat) (e : Nat × Nat) : Option (Nat × Nat × Nat) := some (k, e.1, e.2)
  let (outs, houses) := (b.rasters.filter fun p => !houseRecord p, b.rasters.filter houseRecord)
  match checkEach (chkRasterSet {}) tryHouse houses s with
  | (some e, s1) => (fail 1 e, s1)
  | (none, s1) =>
    match checkEach (chkStreamSet {}) tryStream b.streams (State.each tryOutput outs s1) with
    | (some e, s2) => (fail 2 e, s2)
    | (none, s2) =>
      match checkEach (chkRasterSet {}) (fun _ s => s) outs s2 with
      | (some e, s3) => (fail 1 e, s3)
      | (none, s3) =>
        match checkEach (chkLossSet {}) (fun _ s => s) b.losses s3 with
        | (some e, s4) => (fail 3 e, s4)
        | (none, s4) => match s4.chkEntries b.routes with
          | some e => (fail 4 e, s4)
          | none => (none, s4)

/-- The waits and charges of a preset's routes, judged on the configuration it leaves, given to the device as it stands. -/
def State.planPreset (s sim : State) (id : Nat) (imm : Bool) (es : List RouteEntry) : Check × State :=
  let s0 := if imm then s.superseding es else s
  let sim0 := if imm then sim.superseding es else sim
  match sim0.planEntries id imm es [] [] with
  | (some f, _, _) => (some f, s)
  | (none, ws, cs) => (s0.admission (fun _ => false) cs,
      ({ s0 with routes := { s0.routes with waits := s0.routes.waits ++ ws } }).charge (fun _ => false) cs)

/-- PRESET_RECALL checks. -/
def chkPresetRecall (h : Hdr) (p : PresetRecallP) (s : State) : Check :=
  failIf s.routes.recalling stBusy
  <|> failIf (decide (8 ≤ p.preset) || p.rsvd != 0 || (h.sched && h.line != 1)) stBadParam
  <|> (match s.readPreset p.preset with
    | none => some (stBadParam, 0)
    | some b => match s.tryPreset b with
      | (some (_, st, d), _) => some (st, d)
      | (none, sim) => (s.planPreset sim 0 (!h.sched) b.routes).1)

/-- A recall becomes resident, or executes: the reservations of its routes are admitted. -/
def planPresetRecall (h : Hdr) (id : Nat) (p : PresetRecallP) (s : State) : State :=
  match s.readPreset p.preset with
  | none => s
  | some b => (s.planPreset (s.tryPreset b).2 id (!h.sched) b.routes).2

/-- A record of a recall becomes a silent action at the next frame start of a raster, in the recall's place of the residency order
(R28). -/
def State.recordJob (s : State) (id raster : Nat) (q : Params) : State :=
  s.addJob { id := 0, kind := .apply, queue := 0, seq := 0, tag := 0, silent := true, raster := raster, params := q, aux := [id] }

/-- Steps 2 to 4 of R158: rasters under R40, receive streams at once, the rest at frame starts, routes under R137. -/
def State.spreadPreset (s : State) (id : Nat) (b : PresetBody) : State :=
  let s1 := State.each (fun p s => s.recordJob id p.raster (.rasterSet p)) b.rasters s
  let s2 := State.each (fun p s =>
    if p.dir = 0 then setReceive p s
    else s.recordJob id (if (s.outRaster (pointOf p)).isSome then 2 + pointOf p else 0) (.streamSet p)) b.streams s1
  let s3 := State.each (fun p s => s.recordJob id (2 + p.output) (.lossSet p)) b.losses s2
  s3.dueTake id

def startPresetRecall (h : Hdr) (p : PresetRecallP) (s : State) : Ans :=
  orAns (chkPresetRecall h p s)
    (.later (planPresetRecall h s.nextJob p s) .event (takeRaster (((s.readPreset p.preset).map (·.routes)).getD [])))

/-- The copy of a preset that a recall checked when it became resident. -/
def recallCopy (q : Params) (s : State) : Option PresetBody :=
  match q with
  | .presetRecall p => s.readPreset p.preset
  | _ => none

/-- A recall takes effect: at its line, from the copy that it checked (R158), or right after an immediate one became a job. -/
def applyPresetRecall (j : Job) (p : PresetRecallP) (s : State) : State :=
  match (match j.preset with
    | some b => some b
    | none => s.readPreset p.preset) with
  | none => (releaseTake j s).complete j stBadParam 0 (some j.raster)
  | some b => (((s.setJob { j with kind := .event }).audit 2 p.preset 0 0)).spreadPreset j.id b

/-! ### Cold start (R159) -/

/-- A route record between lanes. -/
def laneRoute (e : RouteEntry) : Bool := decide (e.dest < 512) && (isClear e || decide (e.src < 512))

/-- The preset that the directory names for cold start, where it is enabled: none within when it is not there. -/
def State.coldPreset (s : State) : Option (Nat × Option PresetBody) :=
  match validDir s.nvWhole fun p => leNat (nvBytes s.nvByte (64 * p) 2) with
  | none => none
  | some p =>
    let d := nvBytes s.nvByte (64 * p) 64
    if numAt d 3 1 = 1 then some (numAt d 2 1, if numAt d 2 1 < 8 then s.readPreset (numAt d 2 1) else none) else none

/-- A recall that fails: nothing of it applies; event 4 and the report of section and status. -/
def State.recallFails (s : State) (i section_ st : Nat) : State :=
  ({ s with routes := { s.routes with report := some (i, section_, st) } }.audit 3 (i % 8 + 128) st 0).fire 4

/-- COLDSTART_RECALL: the recall of the end of start-up. -/
def State.recallCold (s : State) : State :=
  match s.coldPreset with
  | none => if (validDir s.nvWhole fun p => leNat (nvBytes s.nvByte (64 * p) 2)).isSome then s else s.recallFails 0 0 stBadParam
  | some (i, none) => s.recallFails i 0 stBadParam
  | some (i, some b0) =>
    let b := { b0 with routes := b0.routes.filter laneRoute }
    let skipped := b0.routes.length - b.routes.length
    let t := { s with routes := { s.routes with recalling := false } }
    match t.tryPreset b with
    | (some (k, st, _), _) => s.recallFails i k st
    | (none, sim) =>
      match t.planPreset sim s.nextJob true b.routes with
      | (some (st, _), _) => s.recallFails i 4 st
      | (none, s1) =>
        let s2 := s1.addJob { id := 0, kind := .event, queue := 0, seq := 0, tag := 0, silent := true, params := .presetRecall { preset := i } }
        let s3 := { s2 with routes := { s2.routes with report := some (i, 0, stOk), skipped := skipped } }
        (((s3.spreadPreset s.nextJob b).audit 3 i 0 0).setMode .service).fire 4

end Sys2Proof.Machine
end

