-- ==== Sys2Proof/Machine/Hub.lean ====
section
/-! DEFINITION. The Control Hub (chapter 18): claims, event routing, software sources, GPIO, CP_B's timer, loading and control of
CP_B, and interrupt entry and exit on the processors. -/

namespace Sys2Proof.Machine

/-! ### Who may access what -/

/-- The endpoint serves BAR0: it is out of reset (R502, R529). -/
def State.hostOk (s : State) : Bool := s.sys.pcieUp && s.sys.stage != .inReset

/-- CP_B executes: started, and its clock runs (Table 20.4). -/
def State.cpbOk (s : State) : Bool := s.hub.cpB.running && s.sys.mode != .quiet && s.sys.stage != .inReset

/-- A target reaches its registers: 0 CP_A, 1 CP_B, 2 HOST. -/
def State.targetOk (s : State) (target : Nat) : Bool :=
  match target with
  | 0 => s.hub.cpA.running && s.sys.stage != .inReset
  | 1 => s.cpbOk
  | 2 => s.hostOk
  | _ => false

/-! ### Claims (R484) -/

/-- Source `i` is presented to a target (R483). -/
def State.presentedTo (s : State) (target i : Nat) : Bool := (s.source i).st == .pending && bit (s.source i).mask target

def State.setClaim (s : State) (target v : Nat) : State :=
  { s with hub := match target with
    | 0 => { s.hub with claimA := v }
    | 1 => { s.hub with claimB := v }
    | _ => { s.hub with claimHost := v } }

/-- A won claim: the source becomes active and stops being presented. -/
def State.winClaim (s : State) (target i : Nat) : State :=
  (s.setSource i { s.source i with st := .active, claimant := target }).count 0 target 0

/-- CLAIM: the write and its read-back. -/
def doClaim (target id : Nat) (s : State) : State :=
  if !s.targetOk target then s
  else if s.presentedTo target id then ((s.winClaim target id).setClaim target id).emit (.read id)
  else ((s.count 0 target 1).setClaim target 1023).emit (.read 1023)

/-- COMPLETE: only the claiming target ends a service. -/
def doComplete (target id : Nat) (s : State) : State :=
  if s.targetOk target && (s.source id).claimant == target then s.endService id else s

/-! ### EVENT_ROUTE (R483, R484) -/

/-- One source of EVENT_ROUTE: a claim of a target that leaves the mask is completed; a pending source is presented to a host
that joins it. -/
def routeSource (targets cls : Nat) (i : Nat) (s : State) : State :=
  let x := s.source i
  let s1 := s.setSource i { x with mask := targets, fast := cls == 1 }
  let s2 := if x.claimant < 3 && bit x.mask x.claimant && !bit targets x.claimant then s1.endService i else s1
  if x.st = .pending && !bit x.mask 2 then s2.presented i else s2

def startEventRoute (p : EventRouteP) (s : State) : Ans :=
  orAns (failIf (decide (1022 < p.first) || decide (p.count < 1) || decide (1023 < p.first + p.count) || decide (8 ≤ p.targets) ||
      decide (2 ≤ p.cls) || p.rsvd != 0) stBadParam)
    (.done (State.each (routeSource p.targets p.cls) ((List.range p.count).map (p.first + ·)) s))

/-- SWI_SET (Table 18.1): other values are ignored. -/
def doSwi (id : Nat) (s : State) : State := if s.cpbOk && between 1008 id 1015 then s.fire id else s

/-! ### GPIO (R375, R479) -/

def State.gpio (s : State) (p : Nat) : Gpio := fget {} s.hub.gpio p
def State.setGpio (s : State) (p : Nat) (x : Gpio) : State := { s with hub := { s.hub with gpio := fset {} s.hub.gpio p x } }

/-- Level of a pin: driven when an output, an open drain released when its level is 1. -/
def Gpio.pin (x : Gpio) : Bool :=
  match x.dir with
  | 0 => x.input
  | 1 => x.level
  | _ => x.level && x.input

/-- The 16 pins' mask of a test. -/
def State.gpioMask (s : State) (f : Gpio → Bool) : Nat := total (fun p => if f (s.gpio p) then 2 ^ p else 0) (List.range 16)

def startGpioSet (c : Ctx) (p : GpioSetP) (s : State) : Ans :=
  orAns (failIf (decide (16 ≤ p.pin) || decide (3 ≤ p.dir) || decide (2 ≤ p.level) || decide (2 ≤ p.owner)) stBadParam
    <|> failIf ((s.gpio p.pin).cpb && c.queue != 8) stBusy)
    (.done (s.setGpio p.pin { s.gpio p.pin with dir := p.dir, level := p.level == 1, cpb := p.owner == 1 }))

/-- Selected pins take new levels. -/
def State.drive (s : State) (mask value : Nat) : State :=
  State.each (fun p s => if bit mask p then s.setGpio p { s.gpio p with level := bit value p } else s) (List.range 16) s

def chkGpioEdge (c : Ctx) (p : GpioEdgeP) (s : State) : Check :=
  failIf ((List.range 16).any fun i => bit p.mask i && (s.gpio i).cpb && c.queue != 8) stBusy

def startGpioEdge (c : Ctx) (p : GpioEdgeP) (s : State) : Ans := orAns (chkGpioEdge c p s) (.done (s.drive p.mask p.value))

def applyGpioEdge (j : Job) (p : GpioEdgeP) (s : State) : State := (s.drive p.mask p.value).complete j stOk 0 (some j.raster)

def startGpioRead (p : ResP) (s : State) : Ans :=
  .result s p.res (leBytes 2 (s.gpioMask Gpio.pin) ++ leBytes 2 (s.gpioMask fun x => x.dir != 0) ++
    leBytes 2 (s.gpioMask fun x => x.cpb) ++ leBytes 2 0)

/-- GPIO_OUT: levels of output pins that CP_B owns. -/
def doGpioOut (value : Nat) (s : State) : State :=
  if s.cpbOk then s.drive (s.gpioMask fun x => x.cpb && x.dir != 0) value else s

/-- GPIO_INPUT_EDGE: a level change of a pin configured as an input. -/
def doGpioInput (pin : Nat) (level : Bool) (s : State) : State :=
  let x := s.gpio pin
  if 16 ≤ pin || x.input = level || s.sys.stage = .inReset then s
  else if x.dir = 0 then
    (s.setGpio pin { x with input := level, edgeStc := s.stc % 2 ^ 48, edgeLevel := level }).fire (8 + pin)
  else s.setGpio pin { x with input := level }

/-! ### CP_B's timer (R50, R479) -/

def doTimecmp (value : Nat) (s : State) : State :=
  if s.cpbOk then ({ s with hub := { s.hub with timecmp := value, armed := true } }).timerCompare else s

def doDisarm (s : State) : State := if s.cpbOk then { s with hub := { s.hub with armed := false } } else s

def doFiredClear (s : State) : State := if s.cpbOk then { s with hub := { s.hub with fired := false } } else s

/-! ### Loading and control of CP_B (R480, R481) -/

def State.setCpb (s : State) (x : Core) : State := { s with hub := { s.hub with cpB := x } }

/-- ENABLE of a queue written 0 (R330): a waiting BARRIER completes, and the queue empties once its packet is done. -/
def State.disableQueue (s : State) (q : Nat) : State :=
  let s1 := s.setQueue q { s.queue q with enable := false, stopping := true }
  (match s1.barrierJob q with
    | some j => s1.complete j stCancelled 3 none
    | none => s1).finishStop q

/-- A CP_B reset (R484): claims completed, shadow bank cleared, queue 8 emptied and its registers cleared, CP_B halted. -/
def State.resetCpb (s : State) : State :=
  let s1 := (((s.releaseClaims 1).setClaim 1 1023).setCpb { running := false }).disableQueue 8
  let x := s1.queue 8
  let s2 := s1.setQueue 8 { ({} : Queue) with stopping := x.stopping, heldReplies := x.heldReplies, macSlot := x.macSlot, macSeq := x.macSeq }
  { s2 with hub := { s2.hub with sqBase8 := 0, sqSize8 := 4096, rrBase8 := 0 } }

/-- CP_B starts at an address. -/
def State.startCpb (s : State) (a : Nat) : State :=
  s.setCpb { s.hub.cpB with running := true, fresh := false, pc := BitVec.ofNat 64 a, priv := 3 }

def startCpbCtrl (c : Ctx) (p : CpbCtrlP) (s : State) : Ans :=
  orAns (failIf (decide (3 ≤ p.op) || p.rsvd != 0 || decide (8 ≤ c.queue) ||
      (p.op == 1 && (p.entry % 4 != 0 || decide (1048576 ≤ p.entry)))) stBadParam)
    (let x := s.hub.cpB
     match p.op with
     | 0 => .done (if x.running then (s.setCpb { x with running := false }).fire 7 else s)
     | 1 => .done (if x.running then s else if x.fresh then s.startCpb p.entry else s.setCpb { x with running := true })
     | _ => .done (if x.running then s.resetCpb.fire 7 else s.resetCpb))

/-- CPB_LOAD: the body is copied, and the check ends with CPB_LOAD_CHECKED. -/
def startCpbLoad (c : Ctx) (p : CpbLoadP) (s : State) : Ans :=
  orAns (failIf (p.rsvd != 0 || decide (8 ≤ c.queue) || decide (p.bytes < 36) || p.bytes % 4 != 0 ||
      decide (1048576 < p.addr + p.bytes) || p.image.length != p.bytes) stBadParam
    <|> failIf s.hub.cpB.running stBusy)
    (.later (s.sramWrite p.addr (p.image.take (p.bytes - 32))) .event)

/-- The slot 0 rules for an image (R431, R480). -/
def State.chkImage (s : State) (p : CpbLoadP) : Check :=
  let k := s.slot 0
  match k.st with
  | 0 => none
  | 1 => if k.usage.testBit 0 then
      failIf (hmac k.key (leBytes 8 p.addr ++ p.image.take (p.bytes - 32)) != p.image.drop (p.bytes - 32)) stBadMac 2
    else some (stBadMac, 3)
  | 2 => some (stKeyRevoked, 0)
  | _ => some (stBadMac, 3)

/-- The oldest load that waits for its check. -/
def State.loadJob (s : State) : Option (Job × CpbLoadP) :=
  s.jobs.findSome? fun j => match j.params with
    | .cpbLoad p => if j.kind == .event then some (j, p) else none
    | _ => none

/-- CPB_LOAD_CHECKED: the oldest load completes. -/
def doLoadChecked (s : State) : State :=
  match s.loadJob with
  | none => s
  | some (j, p) =>
    match s.chkImage p with
    | some (st, d) => (s.sramWrite p.addr (List.replicate (p.bytes - 32) 0)).complete j st d none
    | none => (if p.start then s.startCpb p.addr else s).complete j stOk 0 none

/-! ### Interrupts on the processors (R486 to R488) -/

def State.core (s : State) (cp : Nat) : Core := if cp = 0 then s.hub.cpA else s.hub.cpB
def State.setCore (s : State) (cp : Nat) (x : Core) : State :=
  { s with hub := if cp = 0 then { s.hub with cpA := x } else { s.hub with cpB := x } }

/-- A core that executes: CP_A always, CP_B while started and clocked. -/
def State.coreOk (s : State) (cp : Nat) : Bool := decide (cp < 2) && s.targetOk cp

/-- The lowest presented source of a class (R486). -/
def State.firstPresented (s : State) (cp : Nat) (fast : Bool) : Option Nat :=
  (s.hub.srcs.find? fun e => e.2.fast == fast && s.presentedTo cp e.1).map (·.1)

def mie (x : Core) : Bool := x.mstatus.getLsbD 3
def mpie (x : Core) : Bool := x.mstatus.getLsbD 7

/-- A NORMAL interrupt can be recognised (R486). -/
def State.normalReady (s : State) (cp : Nat) : Bool :=
  let x := s.core cp
  mie x && x.mie.getLsbD 11 && !x.inFast && (s.firstPresented cp false).isSome

/-- NORMAL_INTERRUPT_RECOGNISE: the entry starts; nothing is claimed. -/
def doNormal (cp : Nat) (s : State) : State :=
  if s.coreOk cp && (s.core cp).seq == .run && s.normalReady cp then s.setCore cp { s.core cp with seq := .entryNormal } else s

/-- FIE as a recognition finds it: during a FAST exit, the one that the exit restores. -/
def fie (x : Core) : Bool := if x.inFast then x.mfstatus.getLsbD 1 else x.mfstatus.getLsbD 0

/-- Where a FAST recognition leads from here (Table 18.3). -/
def fastFrom (seq : CoreSeq) (inFast : Bool) (id : Nat) : Option CoreSeq :=
  match seq with
  | .run => if inFast then none else some (.entryFast id false)
  | .entryNormal => some (.entryFast id false)
  | .exitNormal none => some (.exitNormal (some id))
  | .exitFast none => some (.exitFast (some id))
  | _ => none

/-- FAST_INTERRUPT_RECOGNISE: the lowest presented FAST source is claimed in hardware. -/
def doFast (cp : Nat) (s : State) : State :=
  let x := s.core cp
  if !(s.coreOk cp && x.mie.getLsbD 16 && fie x) then s
  else match s.firstPresented cp true with
    | none => s
    | some id => match fastFrom x.seq x.inFast id with
      | none => s
      | some q => (s.winClaim cp id).setCore cp { x with seq := q }

/-- Bits 12:11 of mstatus hold a privilege (MPP), bit 7 the former MIE. -/
def trapStatus (x : Core) : BitVec 64 :=
  let v := x.mstatus.toNat
  let keep := v - bits v 12 11 * 2 ^ 11 - bits v 7 7 * 2 ^ 7 - bits v 3 3 * 2 ^ 3
  BitVec.ofNat 64 (keep + x.priv * 2 ^ 11 + b2n (mie x) * 2 ^ 7)

/-- Entry of the privileged specification with a cause; `vector` for an interrupt through a vectored mtvec. -/
def trapEntry (x : Core) (cause : Nat) (interrupt : Bool) (tval : BitVec 64) : Core :=
  let base := x.mtvec.toNat / 4 * 4
  let target := if interrupt && x.mtvec.toNat % 4 == 1 then base + 4 * cause else base
  { x with mepc := x.pc, mcause := BitVec.ofNat 64 ((if interrupt then 2 ^ 63 else 0) + cause), mtval := tval, mstatus := trapStatus x,
           priv := 3, pc := BitVec.ofNat 64 target, seq := .run }

/-- FAST entry (R487): MFSTATUS holds FIE in bit 0, the former FIE in bit 1 and the former privilege in bits 3:2 (assumption 20). -/
def fastEntry (x : Core) (id : Nat) : Core :=
  { x with mfepc := x.pc, mfstatus := BitVec.ofNat 64 (x.priv * 4 + 2 * b2n (x.mfstatus.getLsbD 0)), priv := 3,
           shadow := fset 0 x.shadow 10 (BitVec.ofNat 64 id), inFast := true, fastId := some id, pc := x.mftvec, seq := .run }

/-- ENTRY_COMMIT: the end of an entry's third cycle. -/
def doEntryCommit (cp : Nat) (s : State) : State :=
  let x := s.core cp
  if !s.coreOk cp then s
  else match x.seq with
    | .entryNormal => s.setCore cp (trapEntry x 11 true 0)
    | .entryFast id _ => s.setCore cp (fastEntry x id)
    | _ => s

/-- MRET: the exit starts; a FAST exit completes its claimed source unless the handler has. -/
def doMret (cp : Nat) (s : State) : State :=
  let x := s.core cp
  if !(s.coreOk cp && x.seq == .run && x.priv == 3) then s
  else if x.inFast then
    let s1 := match x.fastId with
      | some i => if (s.source i).claimant = cp then s.endService i else s
      | none => s
    s1.setCore cp { s1.core cp with seq := .exitFast none }
  else s.setCore cp { x with seq := .exitNormal none }

/-- What MRET restores outside a FAST handler; a return to user mode clears MPRV, bit 17 of mstatus. -/
def normalExit (x : Core) : Core :=
  let v := x.mstatus.toNat
  let mprv := if bits v 12 11 = 3 then 0 else bits v 17 17 * 2 ^ 17
  let keep := v - bits v 12 11 * 2 ^ 11 - bits v 7 7 * 2 ^ 7 - bits v 3 3 * 2 ^ 3 - mprv
  { x with priv := bits v 12 11, mstatus := BitVec.ofNat 64 (keep + 2 ^ 7 + b2n (mpie x) * 2 ^ 3), pc := x.mepc }

/-- What MRET restores in a FAST handler. -/
def fastExit (x : Core) : Core :=
  { x with priv := bits x.mfstatus.toNat 3 2, mfstatus := BitVec.ofNat 64 (b2n (x.mfstatus.getLsbD 1)), inFast := false,
           fastId := none, pc := x.mfepc }

/-- After an exit commits: the chained FAST entry, else a NORMAL entry that R486 permits, else the code it returns to. -/
def State.afterExit (s : State) (cp : Nat) (x : Core) (chain : Option Nat) : State :=
  match chain with
  | some id => s.setCore cp { x with seq := .entryFast id true }
  | none =>
    let s1 := s.setCore cp { x with seq := .run }
    if s1.normalReady cp then s1.setCore cp { x with seq := .entryNormal } else s1

/-- EXIT_COMMIT: the end of an exit's third cycle (Table 18.3). -/
def doExitCommit (cp : Nat) (s : State) : State :=
  let x := s.core cp
  if !s.coreOk cp then s
  else match x.seq with
    | .exitNormal c => s.afterExit cp (normalExit x) c
    | .exitFast c => s.afterExit cp (fastExit x) c
    | _ => s

/-! ### CP_B's address map (R477, Table 18.1) -/

/-- A word of a register of Table 18.1. -/
def cpbWord (o : Nat) : Bool :=
  between 0x20000000 o 0x2000002B || between 0x20001000 o 0x2000108B || between 0x20002000 o 0x20002013 ||
  between 0x20003000 o 0x2000300B || between 0x20003040 o 0x200030BF || between 0x20004000 o 0x20004003 ||
  between 0x20004008 o 0x20004017

/-- An access that the map accepts: SRAM, or aligned words of registers. -/
def cpbAccepts (a size : Nat) : Bool :=
  decide (0 < size) && (decide (a + size ≤ 1048576) || ((size == 4 || size == 8) && a % size == 0 && cpbWord a && cpbWord (a + size - 4)))

/-- CPB_ACCESS_FAULT: the RISC-V access-fault exception, cause 5 of a load and 7 of a store. -/
def doAccessFault (a size : Nat) (store : Bool) (s : State) : State :=
  let x := s.hub.cpB
  if s.cpbOk && x.seq == .run && !cpbAccepts a size then
    s.setCpb (trapEntry x (if store then 7 else 5) false (BitVec.ofNat 64 a))
  else s

end Sys2Proof.Machine
end

