-- ==== Sys2Proof/Machine/Counters.lean ====
section
/-! DEFINITION. Event counters, snapshot, and bandwidth monitors (chapter 19). -/

namespace Sys2Proof.Machine

/-- A port of Table 19.3. -/
def portKnown (p : Nat) : Bool := decide (p ≤ 4607) || between 4608 p 5843 || between 5888 p 5951

/-- Events of a unit of a block (Table 19.2), 0 where the unit has none. -/
def eventCount (block unit : Nat) : Nat :=
  match block with
  | 0 => if unit < 3 then 2 else 0
  | 1 => if unit < 516 then 11 else 0
  | 2 => if unit < 516 then 4 else 0
  | 3 => if unit < 512 then 14 else 0
  | 4 => if unit < 1408 then 1 else 0
  | 5 => if unit < 512 then 16 else 0
  | 6 => if unit < 192 then 9 else 0
  | 7 => if unit < 64 then 3 else 0
  | 8 => if unit < 5 then 2 else 0
  | 9 => if portKnown unit then 4 else 0
  | 10 | 11 => if unit < 18432 then 6 else 0
  | 12 => if unit < 288 then 2 else 0
  | 13 => if unit = 0 then 6 else 0
  | 14 => if unit = 0 then 5 else 0
  | 15 => if unit < 2048 then 1 else 0
  | _ => 0

/-- A valid counter identifier (R491, Table 19.1). -/
def counterKnown (id : Nat) : Bool := decide (id < 2 ^ 24) && decide (id % 32 < eventCount (id / 2 ^ 20) (id / 32 % 2 ^ 15))

/-- What a read of a counter returns, and the STC it belongs to (R494, R495). -/
def State.readCounter (s : State) (id : Nat) : Counter × Nat :=
  match s.cnt.frozen with
  | some (t, stc) => (fget {} t id, stc.toNat)
  | none => (fget {} s.cnt.live id, s.stc)

/-- The overflow bit of a live counter clears (R493, R495). -/
def State.clearOvf (s : State) (id : Nat) : State :=
  { s with cnt := { s.cnt with live := fmod {} s.cnt.live id fun (c : Counter) => { c with ovf := false } } }

def counterBytes (c : Counter × Nat) : List Byte := leBytes 8 (c.1.value.toNat + b2n c.1.ovf * 2 ^ 48) ++ leBytes 8 c.2

/-- COUNTER_READ (R491, R494). -/
def startCounterRead (p : CounterReadP) (s : State) : Ans :=
  orAns (failIf (p.ids.isEmpty || decide (4096 < p.ids.length) || p.rsvd != 0 || !p.ids.all counterKnown) stBadParam)
    (.result (if p.clearOvf then State.each (fun i s => s.clearOvf i) p.ids s else s) p.res
      (p.ids.flatMap fun i => counterBytes (s.readCounter i)))

/-- COUNTER_SNAPSHOT (R495). -/
def startSnapshot (p : CounterSnapshotP) (s : State) : Ans :=
  orAns (failIf (decide (2 ≤ p.op) || p.rsvd != 0) stBadParam)
    (.done { s with cnt := { s.cnt with frozen := if p.op = 1 then some (s.cnt.live, BitVec.ofNat 64 s.stc) else none } })

/-- CNT_SEL: the latch takes a counter's value, overflow and STC (R494). -/
def State.latch (s : State) (id : Nat) : CntLatch :=
  if counterKnown id then
    let (c, t) := s.readCounter id
    { sel := id, value := c.value.toNat, ovf := c.ovf, stc := BitVec.ofNat 64 t }
  else { sel := id, stc := BitVec.ofNat 64 s.stc }

def doCntSel (cpb : Bool) (id : Nat) (s : State) : State :=
  if cpb then (if s.cpbOk then { s with hub := { s.hub with latchB := s.latch id } } else s)
  else if s.hostOk then { s with hub := { s.hub with latchHost := s.latch id } } else s

/-- CNT_VAL.OVF written 1: the live bit of the selected counter clears; a write to an invalid one is ignored. -/
def doOvfClear (cpb : Bool) (s : State) : State :=
  let id := if cpb then s.hub.latchB.sel else s.hub.latchHost.sel
  if (if cpb then s.cpbOk else s.hostOk) && counterKnown id then s.clearOvf id else s

/-! ### Bandwidth monitors (R374, R496, R497) -/

def State.monitor (s : State) (m : Nat) : Monitor := fget {} s.cnt.mons m
def State.setMonitor (s : State) (m : Nat) (x : Monitor) : State := { s with cnt := { s.cnt with mons := fset {} s.cnt.mons m x } }

/-- MONITOR_SET. -/
def startMonitorSet (p : MonitorSetP) (s : State) : Ans :=
  orAns (failIf (decide (2048 ≤ p.monitor) || !portKnown p.port || (s.raster? p.raster).isNone || decide (65536 ≤ p.lines)) stBadParam)
    (.done (s.setMonitor p.monitor
      (if p.lines = 0 then { s.monitor p.monitor with running := false, open_ := false, due := false }
       else { running := true, port := p.port, raster := p.raster, lines := p.lines })))

/-- MONITOR_READ. -/
def startMonitorRead (p : MonitorReadP) (s : State) : Ans :=
  orAns (failIf (decide (2047 < p.first) || decide (p.count < 1) || decide (2048 < p.first + p.count)) stBadParam)
    (.result s p.res ((List.range p.count).flatMap fun i =>
      let m := s.monitor (p.first + i)
      leBytes 8 m.lastBytes ++ leBytes 8 m.lastStart.toNat ++ leBytes 8 m.lastEnd.toNat))

/-- A line start of the raster a monitor runs on: its first window opens at line 1, and a window of LINES lines falls due. -/
def monitorLine (stc : BitVec 64) (r line : Nat) (m : Monitor) : Monitor :=
  if !(m.running && m.raster = r) then m
  else if !m.open_ then (if line = 1 then { m with open_ := true, left := m.lines, startStc := stc } else m)
  else if m.left = 1 then { m with left := m.lines, due := true, edge := stc }
  else { m with left := m.left - 1 }

/-- Every monitor at a line start of raster `r`. -/
def State.monitorLines (s : State) (r line : Nat) : State :=
  if s.cnt.mons.isEmpty then s
  else { s with cnt := { s.cnt with mons := tmap {} (fun _ m => monitorLine (BitVec.ofNat 64 s.stc) r line m) s.cnt.mons } }

/-- MONITOR_WINDOW_CLOSE: the window that fell due is stored with the bytes its port moved. -/
def doMonitorClose (m bytes : Nat) (s : State) : State :=
  let x := s.monitor m
  if x.running && x.due then
    (s.setMonitor m { x with due := false, startStc := x.edge, lastBytes := bytes, lastStart := x.startStc, lastEnd := x.edge }).count 15 m 0
  else s

end Sys2Proof.Machine
end

