-- ==== Sys2Proof/Machine/Pair.lean ====
section
/-! DEFINITION. The redundant pair (chapter 14): roles and authority, the Brinen link, decisions and signatures exchanged, taint and
attribution, resynchronisation and transfer, and the commands of Table 13.12. -/

namespace Sys2Proof.Machine

/-! ### Roles, link and sync (Table 14.1, R382) -/

/-- A forwarded command whose VERDICT was OK or ACCEPTED, the MATE's own or the one that reached the LEAD, is committed by the member that
goes on (R399). -/
def commitAlone (j : Job) : Job :=
  if j.rix.isSome && !j.committed && (j.silent || j.verdict.any fun v => v == stOk || v == stAccepted) then { j with committed := true } else j

def State.goOn (s : State) : State := { s with jobs := s.jobs.map commitAlone }

/-- The partner is treated as failed (R399): a MATE becomes LEAD with authority. -/
def State.mateFails (s : State) : State :=
  if s.pair.role = .solo || s.pair.mateFailed then s
  else
    let s1 := (s.setPair { s.pair with mateFailed := true, role := .lead, authority := if s.pair.role = .mate then true else s.pair.authority })
    ((s1.fire 977).dropApart).goOn

/-- The link leaves UP (R382, R400): a MATE becomes LEAD without authority. What the partner had begun to send is forgotten, and the link
needs a new HELLO. -/
def State.linkLost (s : State) : State :=
  if !s.pair.up then s
  else
    let s1 := (s.setPair { s.pair with up := false, adopt := false, hello := none, snapshot := [], snapReady := false, after := [] }).fire 976
    let s2 := if s1.pair.role = .mate then (s1.setPair { s1.pair with role := .lead, authority := false }).fire 977 else s1
    (s2.dropApart).goOn

/-- The header of a Brinen superframe: WITHDRAWN takes the link down and the partner for failed (R382, R399); FC tells when the
partner has left lockstep (R383). -/
def State.brinenHeader (s : State) (sf : Superframe) : State :=
  if s.pair.role = .solo || !sf.crcOk || 2 < sf.comma then s
  else if sf.withdrawn then s.mateFails.linkLost
  else
    let left := s.pair.role == .lead && s.pair.sync == .lockstep && bit s.pair.mateFc 8 && !bit sf.fc 8
    let s1 := s.setPair { s.pair with mateFc := sf.fc }
    if left then s1.dropApart else s1

/-- PAIR_SET completes once the link is up and the house frame counts are equal (R380). -/
def State.settlePair (s : State) : State :=
  if s.pair.up && s.pair.hello.isSome && s.pair.deltaA = 0 && s.pair.deltaB = 0 then
    s.completeWhere (fun j => match j.params with
      | .pairSet _ => true
      | _ => false) stOk 0 none
  else s

/-- HELLO (R380, R382). -/
def doHello (m : HelloBody) (s : State) : State :=
  let conflict := s.pair.role == .lead && s.pair.authority && m.role == 1 && m.authority
  let s1 := s.setPair { s.pair with hello := some m, mateFw := m.fw, mateLib := m.lib, conflict := conflict,
                                    deltaA := (m.frameA : Int) - (s.house 0).frame.toNat, deltaB := (m.frameB : Int) - (s.house 1).frame.toNat }
  (if conflict && !s.pair.conflict then s1.fire 976 else s1).settlePair

/-- All four Brinen lanes are locked on the receive side. -/
def State.brinenLocked (s : State) : Bool := (List.range 4).all fun k => (rxLaneOf (s.rxDir 64) k).st == .locked

/-- The link goes down where a Brinen lane has left LOCKED (R382). -/
def State.settleLink (s : State) : State := if s.pair.up && !s.brinenLocked then s.linkLost else s

/-- LINK_UP (R382, Table 14.1). -/
def doLinkUp (s : State) : State :=
  match s.pair.hello with
  | none => s
  | some m =>
    if s.pair.up || s.pair.conflict || !s.brinenLocked then s
    else
      let s1 := (s.setPair { s.pair with up := true, mateFailed := false }).fire 976
      let yields := s1.pair.role == .lead && !s1.pair.authority && m.role == 1 && m.authority
      let s2 := if yields then (s1.setPair { s1.pair with role := .mate }).fire 977 else s1
      (s2.setPair { s2.pair with adopt := s2.pair.role == .mate }).settlePair

/-- The first house frame start of a MATE after the link is up: it adopts the LEAD's counts and offsets (R45, R380). -/
def State.adoptPair (s : State) : State :=
  match s.pair.hello with
  | none => s
  | some m =>
    if !(s.pair.role == .mate && s.pair.adopt && s.pair.up) then s
    else
      let add (h : House) (d : Int) : House := { h with frame := h.frame + BitVec.ofInt 48 d }
      let s1 := (s.setHouse 0 (add (s.house 0) s.pair.deltaA)).setHouse 1 (add (s.house 1) s.pair.deltaB)
      let s2 := State.each (fun (e : Nat × Nat) s => match s.outRaster e.1 with
        | some o => s.setOutRaster e.1 (some { o with o := e.2, relation := true, adopted := true })
        | none => s) m.oOffsets s1
      ({ s2 with clk := { s2.clk with offset := BitVec.ofNat 64 m.stcOffset },
                 pair := { s2.pair with deltaA := 0, deltaB := 0, adopt := false } }).settlePair

/-! ### Commands (Table 13.12) -/

/-- PAIR_SET (R371, R379, R380). -/
def startPairSet (p : PairSetP) (s : State) : Ans :=
  orAns (failIf (decide (3 ≤ p.role) || p.rsvd != 0 || (p.role != 0 && s.pair.role != .solo && s.pair.role.code != p.role)) stBadParam
    <|> failIf (s.routes.routes.any fun e => e.2.isSome) stBusy)
    (let q := s.pair
     if p.role = 0 then
       .done (if q.role = .solo then s else
         let s1 := s.dropApart
         (s1.setPair { s1.pair with role := .solo, authority := false, adopt := false, taint := [] }).fire 977)
     else
       let s1 := if q.role = .solo then
           (s.setPair { q with role := if p.role = 1 then .lead else .mate, authority := p.role == 1, adopt := p.role == 2 && q.up, mateFailed := false }).fire 977
         else s
       if q.up && q.hello.isSome && q.deltaA = 0 && q.deltaB = 0 && !s1.pair.adopt then .done s1 else .later s1 .event)

/-- The partner is apart: by the sync state, or by what its FC field says. -/
def State.mateApart (s : State) : Bool := s.pair.sync == .apart || (s.pair.sync == .lockstep && !bit s.pair.mateFc 8)

def isResync (q : Params) : Bool := match q with
  | .pairResync _ => true
  | _ => false

def isTransfer (q : Params) : Bool := match q with
  | .pairTransfer _ => true
  | _ => false

/-- A library of version `have_` holds version `v`: it is the current one or one of the three before (R219). -/
def libHolds (have_ v : Nat) : Bool := decide (v ≤ have_) && decide (have_ ≤ v + 3)

/-- Where every output's count of matching frames begins, at its next frame (R401). -/
def State.matchStart (s : State) : Tbl Nat :=
  s.rasters.foldl (fun m e => fset 0 m e.1 ((e.2.map fun o => o.frame.toNat + 1).getD 0)) []

/-- SYNC is resynchronising: signatures are compared from here, and the 10 s count (R391, R401). -/
def State.beginResync (s : State) : State :=
  s.setPair { s.pair with sync := .resync, own := [], partner := [], windows := [], lastBad := s.matchStart, resyncT := s.now }

/-- PAIR_RESYNC (R401, Table 14.10). -/
def startResync (p : EmptyP) (s : State) : Ans :=
  if p.rsvd ≠ 0 then .fail stBadParam
  else if s.pair.role ≠ .lead || !s.pair.up || !s.mateApart || (s.jobOf isResync).isSome then .fail stBusy
  else if !s.engines.tasks.isEmpty && !libHolds s.pair.mateLib (Config.libVersion s.sys.image) then .fail stPairDiverged 5
  else .later ((s.beginResync.emit (.brinen 10 [s.pair.nextRix])).fire 980) .event

/-- Host-window budget of a transfer (R402): a charge that no window object holds. -/
def ofTransfer (c : Charge) : Bool := c.kind == 8 && c.holder == 2 ^ 32

/-- MB/s of the host-window budget that are free (Table 7.4). -/
def State.windowRoom (s : State) : Nat := 8000 - s.windowHeld

/-- The rate of a transfer: the least of 4,000 MB/s, the headroom and what the link has left. -/
def State.transferRate (s : State) : Nat := min (min 4000 s.windowRoom) (Config.linkRoom s.now)

/-- PAIR_TRANSFER (R402). -/
def startTransfer (p : EmptyP) (s : State) : Ans :=
  if p.rsvd ≠ 0 then .fail stBadParam
  else if s.pair.role ≠ .lead || s.pair.sync = .apart || (s.jobOf isTransfer).isSome then .fail stBusy
  else if s.windowRoom < 500 then .fail stBusy 4
  else .later (s.charge (fun _ => false) [{ kind := 8, holder := 2 ^ 32, mb := s.transferRate }]) .event

def Sync.code : Sync → Nat
  | .apart => 0 | .resync => 1 | .lockstep => 2

/-- LINK as PAIR_STATUS reports it: TRAINING while some Brinen lane acquires. -/
def State.linkCode (s : State) : Nat :=
  if s.pair.up then 2 else if (List.range 4).any fun k => (rxLaneOf (s.rxDir 64) k).st != .idle then 1 else 0

/-- PAIR_STATUS. -/
def startPairStatus (p : ResP) (s : State) : Ans :=
  let q := s.pair
  .result s p.res (leBytes 1 q.role.code ++ leBytes 1 s.linkCode ++ leBytes 1 q.sync.code ++ leBytes 1 0 ++ leBytes 4 q.mateFw ++
    leBytes 8 q.inMismatch ++ leBytes 8 q.outMismatch ++ leBytes 8 q.lastStc ++ leBytes 8 q.forwarded ++ leBytes 8 0)

/-! ### Resynchronisation and transfer (R401, R402) -/

/-- Output `n` has matched for four whole frames since its count began or a signature of it differed. -/
def State.outMatched (s : State) (n : Nat) : Bool :=
  match s.outRaster n with
  | some o => fget 0 s.pair.lastBad n = 0 || decide (fget 0 s.pair.lastBad n + 4 ≤ o.frame.toNat)
  | none => true

/-- RESYNC_LOCKSTEP: every output has matched for four frames. -/
def doLockstep (s : State) : State :=
  if s.pair.role = .solo || s.pair.sync ≠ .resync || !s.rasters.all fun e => s.outMatched e.1 then s
  else
    let s1 := (s.setPair { s.pair with sync := .lockstep, authority := s.pair.role == .lead }).fire 980
    let s2 := if s.pair.role = .lead && !s.pair.authority then s1.fire 977 else s1
    s2.completeWhere (fun j => isResync j.params) stOk 0 none

/-- The 10 s of a resynchronisation have passed since its start and since the end of its last transfer (R401). DEDUCED (assumption 31): a LEAD
counts from the start it knows of, its own. -/
def State.resyncOver (s : State) : Bool := decide (s.pair.resyncT + 2700000000 ≤ s.now) && (s.jobOf isTransfer).isNone

/-- RESYNC_TIMEOUT: DETAIL gives the first output that still mismatches. -/
def doResyncTimeout (s : State) : State :=
  let bad := ((s.rasters.find? fun e => !s.outMatched e.1).map (·.1)).getD 0
  if s.pair.sync = .lockstep || !s.resyncOver then s
  else (s.dropApart).completeWhere (fun j => isResync j.params) stPairDiverged bad none

/-- TRANSFER_COMPLETE: the budget is given back on either member, and the 10 s of a resynchronisation count anew (R401, R402). -/
def doTransferComplete (s : State) : State :=
  ((s.setPair { s.pair with resyncT := s.now }).charge ofTransfer []).completeWhere (fun j => isTransfer j.params) stOk 0 none

/-- The library holds a version of a kernel: its current one or one of the three before (R219). -/
def State.holdsKernel (s : State) (kernel v : Nat) : Bool :=
  v == Config.kernelVersion s.sys.image kernel || (List.range 3).any fun i => v == Config.earlierVersion s.sys.image kernel i

/-- The version that a snapshot gives for a task is in the library; 0 where the item names none. -/
def State.holdsVersion (s : State) (m : CmdBody) : Bool :=
  match m.packet.params with
  | .kernelBind p => m.version == 0 || s.holdsKernel p.kernel m.version
  | _ => true

/-- STATE: a fragment of the snapshot, whole with its last one. A version that the library lacks leaves the MATE apart. -/
def doState (seq : Nat) (last : Bool) (rix lib : Nat) (items : List CmdBody) (s : State) : State :=
  if s.pair.role ≠ .mate || s.pair.sync ≠ .apart || seq % 256 = s.pair.seqIn then s
  else
    let all := s.pair.snapshot ++ items
    if last && !(libHolds (Config.libVersion s.sys.image) lib && all.all s.holdsVersion) then s.setPair { s.pair with seqIn := seq % 256, snapshot := [] }
    else s.setPair { s.pair with seqIn := seq % 256, snapshot := all, snapRix := rix, snapReady := last }

/-- XFER: content of a buffer object. The budget is charged while content arrives. DESIGN CHOICE (assumption 37): content past the end
of the Millpond's 64 GiB (R161) finds no storage and is dropped. -/
def doXfer (seq a : Nat) (content : List Byte) (s : State) : State :=
  if s.pair.role ≠ .mate then s
  else
    let s1 := if s.pond.charges.any ofTransfer then s
      else s.charge (fun _ => false) [{ kind := 8, holder := 2 ^ 32, mb := s.transferRate }]
    (s1.pondWrite a (content.take (pondSize - a))).setPair { s1.pair with seqIn := seq % 256 }

/-! ### Decisions (R142, R147, R272, R320) -/

/-- A decision of the LEAD is kept until newer ones of its unit push it out. -/
def State.decided (s : State) (d : Decision) : State :=
  if s.pair.role ≠ .mate || s.pair.received.contains d then s
  else s.setPair { s.pair with received := d :: s.pair.received.filter fun x => !(x.kind == d.kind && x.unit == d.unit && decide (x.key + 8 ≤ d.key)) }

def asrcOfCode : Nat → AsrcSt
  | 0 => .acquire | 1 => .locked | _ => .range

/-- LEAT: a MATE adopts the LEAD's decision. -/
def doLeat (d : LeatBody) (s : State) : State :=
  if s.pair.role ≠ .mate then s
  else match d with
  | .block dest k under => s.decided { kind := 2, unit := dest, key := k, value := b2n under }
  | .domain id a b oa ob =>
    let x := s.domain id
    let s1 := s.setDomain id { x with lockA := a, lockB := b, offA := oa, offB := ob }
    if x.lockA = a && x.lockB = b then s1 else s1.domainEvent id
  | .asrc g _ st per phase => (match s.asrc g with
    | some a =>
      let b := { a with per := per, phase := phase }
      if a.st = asrcOfCode st then s.setAsrc g (some b) else s.asrcTo g b (asrcOfCode st)
    | none => s)
  | .nonAudio pair non =>
    let x : PairJudge := fget {} s.audio.pairs pair
    { s with audio := { s.audio with pairs := fset {} s.audio.pairs pair { x with non := non } } }
  | .delay n da => (match (s.embed n).p, s.outRaster n with
    | some p, some o => s.applyDelay n p da o.frameT
    | _, _ => s)

/-- DECISION_DEADLINE_MISS (R388): the link goes down and the MATE decides itself. -/
def doDeadlineMiss (s : State) : State := if s.isMate then s.linkLost else s

/-! ### Taint (R392) -/

/-- What an output's layers show. -/
def State.layerOrigins (s : State) (n : Nat) : List (Nat × Nat × Nat) :=
  layerNos.filterMap fun l => (shownAttr (s.compOut n) l).bind fun a => a.buf.map fun h => (1, h, a.slot)

/-- Input points whose audio an output embeds. -/
def State.audioOrigins (s : State) (n : Nat) : List (Nat × Nat × Nat) :=
  (List.range 32).filterMap fun k => (s.dst (32 * n + k)).route.bind fun r => if r.src < 16384 then some (0, r.src / 32, 0) else none

/-- The granules of output `n` carry a taint: its own content was reported missing, or something it shows is tainted (assumption 30). -/
def State.tainted (s : State) (n : Nat) : Bool :=
  s.tainting (((s.route n).map fun r => s.origins 8 r.src).getD [] ++ s.layerOrigins n ++ s.audioOrigins n) ||
  s.pair.taint.any fun (k, u, f) => k == 2 && u == n && (s.outRaster n).any fun o => decide (o.frame.toNat ≤ f + 1)

/-! ### Signatures (R389 to R394) -/

def sameGranule (a b : GranuleSig) : Bool := a.stream == b.stream && a.frame == b.frame && a.pos == b.pos

/-- The transmit key of output `n` is usable here and not there, or the reverse (R394). -/
def State.keyDiffers (s : State) (n : Nat) : Bool :=
  match (s.txStream n).bind (·.crypt) with
  | some i => s.slotValid i != s.pair.partnerKeys.contains n
  | none => false

/-- Outputs whose transmit key is usable, as a SIG message tells them (R394). -/
def State.usableKeys (s : State) : List Nat :=
  s.txStreams.filterMap fun e => e.2.bind fun (x : TxStream) => x.crypt.bind fun i => if s.slotValid i then some e.1 else none

/-- The frame count of output `n` that a count modulo 2^16 stands for: the last one that agrees with it (R390). -/
def State.wholeFrame (s : State) (n frame : Nat) : Nat :=
  ((s.outRaster n).map fun o => o.frame.toNat - (o.frame.toNat + 65536 - frame % 65536) % 65536).getD frame

/-- Two signatures of one granule differ (R391, R393, Table 14.6). -/
def State.mismatch (s : State) (stream frame : Nat) : State :=
  let n := stream % 512
  if stream / 512 % 2 = 0 then
    (if s.pair.sync = .resync then ({ s with pair := { s.pair with inMismatch := s.pair.inMismatch + 1, lastStc := s.stc } }).count 13 0 0
     else s.inputMismatch).taint 0 n frame
  else
    let s1 := (s.setPair { s.pair with outMismatch := s.pair.outMismatch + 1, lastStc := s.stc,
                                       lastBad := fset 0 s.pair.lastBad n (s.wholeFrame n frame + 1) }).count 13 0 1
    if s.pair.sync = .resync then s1
    else if s1.tainted n || s1.keyDiffers n then s1.fire 979
    else if (fget none s1.pair.windows n).isSome then s1
    else s1.setPair { s1.pair with windows := fset none s1.pair.windows n (some s1.now) }

/-- One signature meets the partner's. -/
def State.meet (s : State) (a b : GranuleSig) : State := if a.sig = b.sig then s else s.mismatch a.stream a.frame

/-- Signatures younger than 2 ms (R390). -/
def young (now : Tick) (l : List (GranuleSig × Tick)) : List (GranuleSig × Tick) := l.filter fun e => decide (now < e.2 + 540000)

/-- A granule closes: its signature is the CRC-32 of its content (R389). -/
def signGranule (g0 : GranuleSig) (content : List Bool) (s : State) : State :=
  let g := { g0 with sig := crc32 content, frame := g0.frame % 65536 }
  if s.pair.role = .solo || s.pair.sync = .apart then s
  else
    let s1 := s.emit (.brinen 8 ([g.stream, g.frame, g.pos, g.sig] ++ s.usableKeys))
    match s.pair.partner.find? fun e => sameGranule e.1 g with
    | some e => (s1.setPair { s1.pair with partner := s1.pair.partner.filter fun x => !sameGranule x.1 g }).meet g e.1
    | none => s1.setPair { s1.pair with own := s1.pair.own ++ [(g, s1.now)] }

/-- SIG: the partner's signatures, compared by identity. -/
def doSig (sigs : List GranuleSig) (keyBits : List Nat) (s : State) : State :=
  if s.pair.role = .solo || s.pair.sync = .apart then s
  else
    State.each (fun g s =>
      match s.pair.own.find? fun e => sameGranule e.1 g with
      | some e => (s.setPair { s.pair with own := s.pair.own.filter fun x => !sameGranule x.1 g }).meet e.1 g
      | none => s.setPair { s.pair with partner := young s.now s.pair.partner ++ [(g, s.now)] }) sigs
      (s.setPair { s.pair with partnerKeys := keyBits })

/-- SIGNATURE_UNMATCHED: an own granule found no partner within 2 ms. -/
def doUnmatched (g : GranuleSig) (s : State) : State :=
  if s.pair.own.any fun e => sameGranule e.1 g && decide (e.2 + 540000 ≤ s.now) then
    (s.setPair { s.pair with own := s.pair.own.filter fun e => !sameGranule e.1 g }).count 13 0 2
  else s

/-- ATTRIBUTION_WINDOW_END (R393): 20 us without an engine task on the path, else the slices' end. -/
def doWindowEnd (n : Nat) (s : State) : State :=
  match fget none s.pair.windows n with
  | none => s
  | some t0 =>
    let engines := ((s.route n).map fun r => s.pathEngines 192 r.src).getD []
    if engines.isEmpty && decide (s.now < t0 + 5400) then s
    else
      let s1 := s.setPair { s.pair with windows := fset none s.pair.windows n none }
      if s1.pair.role = .mate && s1.pair.sync = .lockstep then s1.enterFailed 7 n 0 else s1

/-! ### Reports (R392, R395) -/

/-- Content CRCs of a host-written slot: kept until both members' are there; a difference taints the slot. -/
def State.slotCrc (s : State) (unit value : Nat) (mine : Bool) : State :=
  match s.pair.crcs.find? fun e => e.1 == unit && e.2.2 != mine with
  | some e =>
    let s1 := s.setPair { s.pair with crcs := s.pair.crcs.filter fun x => x.1 != unit }
    let here := (1, unit / 65536, unit % 65536)
    if e.2.1 = value then s1.setPair { s1.pair with taint := s1.pair.taint.filter fun x => x != here } else s1.taint 1 (unit / 65536) (unit % 65536)
  | none => s.setPair { s.pair with crcs := s.pair.crcs ++ [(unit, value, mine)] }

/-- MARK_COMPLETE of a host-written slot: its CRC goes to the partner. -/
def State.reportSlot (s : State) (p : BufXferP) : State :=
  match s.bufAt p.window with
  | some w => (match s.bufAt w.params.target with
    | some t =>
      if s.pair.role = .solo || w.params.dir ≠ 1 || !p.markComplete then s
      else
        let z := slotSize t.params.width t.params.height t.params.format
        let v := crcBytes (s.pondRead (slotAddr t.addr z p.slot) z)
        let u := w.params.target * 65536 + p.slot
        (s.emit (.brinen 9 [1, u, v])).slotCrc u v true
    | none => s)
  | none => s

/-- REPORT: kind 0 an output's missing content, kind 1 a slot's content CRC. -/
def doReport (kind unit value : Nat) (s : State) : State :=
  if s.pair.role = .solo then s
  else match kind with
    | 0 => s.inputMismatch.taint 2 unit value
    | 1 => s.slotCrc unit value false
    | _ => s

end Sys2Proof.Machine
end

