-- ==== Sys2Proof/Machine/Granules.lean ====
section
/-! DEFINITION. The content of the granules that the members of a pair sign (R389, R390). -/

namespace Sys2Proof.Machine

/-! ### Where a granule lies (R389, Table 14.5) -/

/-- LINE, and segment of the line, that POS of a video granule gives; and the order of a block that POS of an audio granule gives. -/
def posLine (pos : Nat) : Nat := pos / 2 ^ 22
def posSegment (pos : Nat) : Nat := pos / 2 ^ 14 % 256
def posOrder (pos : Nat) : Nat := pos / 2 ^ 16

/-- Segments of an active line, by the period of a line. -/
def segmentCount (frameT lines : Nat) : Nat := ceilDiv frameT (2160 * max lines 1)

/-- First sample of segment `i` of `n` in a line of `w`. -/
def segmentStart (w n i : Nat) : Nat := i * w / max n 1

/-- Bits of the samples of segment `i`: `code x c` is component `c` of pixel `x`, at `depth` bits. -/
def sampleBits (depth comps w n i : Nat) (code : Nat → Nat → Nat) : List Bool :=
  (List.range (segmentStart w n (i + 1) - segmentStart w n i)).flatMap fun x =>
    (List.range comps).flatMap fun c => bitsOf depth (code (segmentStart w n i + x) c)

/-- Bits of the words of ANC packets. -/
def ancBits (l : List (List Nat)) : List Bool :=
  l.flatMap fun p => let ws := ancWords (p.drop 1); (ws.take (ws.getD 2 0 % 256 + 4)).flatMap (bitsOf 10)

/-- A line's ANC words join its last segment. -/
def lastBits (n i : Nat) (anc : List (List Nat)) : List Bool := if i + 1 = n then ancBits anc else []

/-- A frame count that a count modulo 2^16 agrees with. -/
def agrees (f frame : Nat) : Bool := f % 65536 == frame % 65536

/-! ### Input granules: native values after decryption, zero where a sample did not arrive -/

/-- Native component of pixel `x` of active line `y` among the segments of a frame. -/
def arrivedAt (l : List Segment) (f y comps x c : Nat) : Nat :=
  match l.find? fun g => g.frame == f && g.line == y && decide (g.pixel0 ≤ x) && decide (x < g.pixel0 + g.comps.length / comps) with
  | some g => g.comps.getD ((x - g.pixel0) * comps + c) 0
  | none => 0

/-- The frame in progress or the one before it, as a granule names it. -/
def RxStream.named (x : RxStream) (frame : Nat) : Option Nat :=
  let f := x.frame + x.lap
  if agrees f frame then some f else if 0 < f && agrees (f - 1) frame then some (f - 1) else none

/-- A video granule of a present input. DEDUCED (assumption 31): an ANC packet belongs to the active line that had last begun. -/
def RxStream.videoBits (x : RxStream) (frame pos : Nat) : Option (List Bool) :=
  let r := rateOf x.cfg.rate
  let n := segmentCount (frameTicks r.1 r.2) x.cfg.totalLines
  let m := modeComponents x.cfg.mode
  let i := posSegment pos
  let y := posLine pos
  if !x.present || !between 1 y x.cfg.activeLines || n ≤ i then none
  else (x.named frame).map fun f =>
    sampleBits 20 m x.cfg.activeSamples n i (arrivedAt x.pix f (y - 1) m) ++
    lastBits n i ((x.anc.filter fun a => a.frame == f && a.after == y).map (·.symbols))

/-! ### Output granules: what the Tailrace converts, before encryption and framing -/

/-- A video granule of the line that an output sent last. DEDUCED (assumption 31): samples that a dead lane key withholds count as zero, so
that the outputs of the members differ (R451). -/
def State.sentBits (s : State) (n frame pos : Nat) : Option (List Bool) :=
  match s.txStream n, s.outRaster n with
  | some x, some o => match x.sent with
    | some l =>
      let k := segmentCount (descPeriod o.desc) o.desc.totalLines
      let m := modeComponents x.cfg.mode
      let i := posSegment pos
      if agrees l.frame frame && l.line == posLine pos && decide (i < k) then
        some (sampleBits (modeDepth x.cfg.mode) m (l.codes.length / m) k i (fun p c => if x.keyDead then 0 else l.codes.getD (m * p + c) 0) ++
          lastBits k i (if x.keyDead then [] else l.anc))
      else none
    | none => none
  | _, _ => none

/-! ### Audio granules -/

/-- A block's samples and side bits, if it is the newest one. -/
def blockBits (b : Option AudBlock) (frame pos : Nat) : Option (List Bool) :=
  b.bind fun b => if agrees b.frame frame && b.order == posOrder pos then some (lineBits b.symbols) else none

/-- Content of the granule that a SIG message would name: stream 0 to 511 input video, then output video, input audio and output audio. -/
def State.granuleBits (s : State) (g : GranuleSig) : Option (List Bool) :=
  let n := g.stream % 512
  match g.stream / 512 with
  | 0 => (s.rxStream n).bind fun x => x.videoBits g.frame g.pos
  | 1 => s.sentBits n g.frame g.pos
  | 2 => (s.rxStream n).bind fun x => if x.present then blockBits x.aud g.frame g.pos else none
  | 3 => (s.txStream n).bind fun x => blockBits x.aud g.frame g.pos
  | _ => none

/-- GRANULE_SIGNATURE: the granule that closes is one of a present input's or an output's newest. -/
def doGranule (g : GranuleSig) (s : State) : State :=
  match s.granuleBits g with
  | some content => signGranule g content s
  | none => s

end Sys2Proof.Machine
end

