-- ==== Sys2Proof/Machine/Power.lean ====
section
/-! DEFINITION. Reset, start-up, thermal and rail faults, lockstep mismatches of the processors, the endpoint's reset and the end of a
wake (chapters 18, 20, 21). -/

namespace Sys2Proof.Machine

/-- Time of an event: the counts stand at 0 while the device is held in reset (R502). -/
def State.enter (s : State) (t : Tick) : State := if s.sys.stage = .inReset then s else s.advance t

/-! ### Reset (R502) -/

/-- What the key store keeps of a running operation: nothing but the slots, latches and settings (R445, R501). -/
def Keys.kept (k : Keys) : Keys := { k with ops := [] }

/-- The state after an assertion: every block at its reset value but the queue of commands, the record of outputs, the always-on
registers, the Parameter Store's array with the write in progress stopped after `done` bytes, and what the board drives. -/
def State.resetWith (s : State) (done : Nat) : State :=
  let n := if s.nv.stopped then s else s.nvStop done
  { State.reset with
    pending := s.pending, out := s.out, fresh := s.fresh, keys := s.keys.kept,
    nv := { State.reset.nv with cells := n.nv.cells, stopped := s.pins.pfwLow },
    pins := { State.reset.pins with pfwLow := s.pins.pfwLow, perstLow := s.pins.perstLow, temp := s.pins.temp, jtag := s.pins.jtag },
    hub := { State.reset.hub with gpio := tmap {} (fun _ (x : Gpio) => { input := x.input }) s.hub.gpio },
    sys := { State.reset.sys with wakeEnables := 3 + s.sys.wakeEnables / 16 % 2 * 16, pcieUp := !s.pins.perstLow } }

/-- RESET_N_ASSERT: the device is held in reset. -/
def doResetAssert (done : Nat) (s : State) : State :=
  let s1 := s.resetWith done
  { s1 with sys := { s1.sys with stage := .inReset }, pins := { s1.pins with resetN := false } }

/-- RESET_N_DEASSERT: start-up begins in BRINGUP (R504). -/
def doResetDeassert (s : State) : State :=
  if s.sys.stage = .inReset then { s with sys := { s.sys with stage := .s1 }, pins := { s.pins with resetN := true } } else s

/-- SYS_RESTART KIND 1 (R356, R502): a reset that is released again at once; how far a write in progress came is free. -/
def commandReset (s : State) : State :=
  let (n, s1) := s.freeNat
  s1.resetWith n

/-! ### Start-up (Table 20.2) -/

def State.toStage (s : State) (g : Stage) : State := { s with sys := { s.sys with stage := g } }

/-- NV_RECALL_COMPLETE: the recall ends, and with it stage 1. -/
def doNvRecall (s : State) : State :=
  let s1 := doRecallComplete s
  if s.sys.nvRecalling && s.sys.stage = .s1 then s1.toStage .s2 else s1

/-- The image that the boot ROM has verified runs from now on (R192): which one the boot flash holds is a free value (assumption 4). -/
def State.bootImage (s : State) : State :=
  let (n, s1) := s.freeNat
  { s1 with sys := { s1.sys with image := n } }

/-- BOOT_VERIFY_END: stage 2 ends and FAULT_N is driven high, or no firmware runs (R490, R503, R506). -/
def doBootVerify (ok : Bool) (s : State) : State :=
  if s.sys.restart then
    if ok then s.bootImage else { s with sys := { s.sys with restart := false, restartFailed := true } }
  else if s.sys.stage = .s2 then
    if ok then
      let s1 := s.bootImage.toStage .s3
      if s.sys.mode = .failed then s1 else ({ s1 with pins := { s1.pins with faultN := .high } }).emit (.faultN false)
    else (s.toStage .held).latchFault 10 0xFFFF 0
  else s

/-- Every direction takes its stored settings, or the defaults (R106, R107, R120). -/
def State.lanesOnRecords (s : State) : State := State.each (fun b s => applyRecords b 1 (applyRecords b 0 s)) (List.range 65) s

/-- FIRMWARE_READY: the device tables are initialised, the lanes' settings with them, the clock record is applied, and queues are fetched from
then on (R427, R504). DEDUCED (assumption 16): until then the settings read as Table 5.9 gives them at reset. -/
def doFirmwareReady (s : State) : State := if s.sys.stage = .s3 then (s.lanesOnRecords.applyClockRecord).toStage .s4 else s

/-- SELF_TEST_END: training rounds begin on every enabled bundle (R117, R504). -/
def doSelfTestEnd (s : State) : State :=
  if s.sys.stage = .s4 then State.each doRoundStart (List.range 65) (s.toStage .s5) else s

/-- A cold-start recall is due: enabled with a preset, or the directory itself is invalid (R159, R459). -/
def State.recallDue (s : State) : Bool :=
  s.coldPreset.isSome || (validDir s.nvWhole fun p => leNat (nvBytes s.nvByte (64 * p) 2)).isNone

/-- STARTUP_COMPLETE: stage 5 ends; stage 6 follows where the recall is enabled. -/
def doStartupComplete (s : State) : State :=
  if s.sys.stage = .s5 then
    if s.recallDue && s.sys.mode = .bringup then
      { s with sys := { s.sys with stage := .s6, coldRecall := true }, routes := { s.routes with recalling := true } }
    else s.toStage .done
  else s

/-- COLDSTART_RECALL: the preset is recalled, and start-up ends. -/
def doColdRecall (s : State) : State :=
  if s.sys.stage = .s6 then
    let s1 := { s with sys := { s.sys with stage := .done, coldRecall := false }, routes := { s.routes with recalling := false } }
    if s.sys.mode = .bringup then s1.recallCold else s1
  else s

/-! ### Faults and the endpoint -/

/-- A contained mismatch of CP_A restarts firmware; one in Quiet, in a restart or within 1 s of one that a mismatch caused is
uncorrectable (R476, R514). -/
def State.mismatchA (s : State) : State :=
  if s.sys.mode = .failed then s
  else if s.sys.mode = .quiet || s.sys.restart ||
      s.sys.faultRestartEnd.any (fun e => decide (s.now < e + 270000000)) then s.enterFailed 5 0 0
  else (s.latchFault 5 0 0).beginRestart true

/-- LOCKSTEP_MISMATCH (R476): core 0 CP_A, 1 CP_B. -/
def doLockstepMismatch (core : Nat) (s : State) : State :=
  match core with
  | 0 => s.mismatchA
  | 1 => if s.cpbOk then ((s.latchFault 6 1 0).resetCpb).fire 7 else s
  | _ => s

/-- ECC_UNCORRECTABLE_ERROR of Millpond (1), engine memory (2), processor SRAM (9) or Parameter Store (10). -/
def doEccError (source unit addr user : Nat) (corrected : Bool) (s : State) : State :=
  if corrected then
    if source = 1 then s.count 7 (unit % 64) 0 else if source = 2 then s.count 6 (unit % 192) 2 else s
  else if source = 1 || source = 2 || source = 9 || source = 10 then s.memoryFault source unit addr user
  else s

/-- RAIL_FAULT (R499): rows 0 to 5 of Table 20.1. -/
def doRailFault (row : Nat) (s : State) : State := if row < 6 then s.enterFailed 10 (0x100 + row) 0 else s

/-- PCIE_PERST_N (R529): only the endpoint and its queues. -/
def doPerst (level : Bool) (s : State) : State :=
  let s1 := { s with pins := { s.pins with perstLow := !level } }
  if s.sys.stage = .inReset then { s1 with sys := { s1.sys with pcieUp := level } }
  else if level then { s1 with sys := { s1.sys with pcieUp := true } }
  else
    let s2 := State.each (fun q s => s.disableQueue q) (List.range 8) { s1 with sys := { s1.sys with pcieUp := false } }
    { s2 with hub := { s2.hub with msix := [], pba := [] } }

/-! ### Temperature (R444, R536, R537) -/

/-- Maximum and minimum junction temperature of the grade (R533). -/
def maxJunction : Int := if Config.grade then 105 else 100
def minJunction : Int := if Config.grade then -40 else 0

/-- THERM_N follows one sample with its hysteresis. -/
def thermNext (low : Bool) (temp : Int) : Bool := if low then decide (maxJunction - 5 < temp) else decide (maxJunction ≤ temp)

/-- THERMAL_SAMPLE. The always-on monitor of the tamper source runs in reset too; the rest does not. -/
def doThermal (temp : Int) (s : State) : State :=
  let s1 := { s with pins := { s.pins with temp := temp } }
  let hot := decide (125 < temp)
  let s2 := if hot || temp < minJunction - 20 then doTamperAlarm 5 s1 else doTamperInactive 5 s1
  if s.sys.stage = .inReset then s2
  else
    let low := thermNext s.pins.thermLow temp
    let s3 := { s2 with pins := { s2.pins with thermLow := low, hotRun := if hot then s2.pins.hotRun + 1 else 0 } }
    let s4 := if low = s.pins.thermLow then s3 else s3.fire 24
    if s3.pins.hotRun = 4 then s4.enterFailed 10 0x200 0 else s4

/-! ### Wake -/

/-- A job that the end of a wake completes: a wake request, or an action that fell due in Quiet (R355, R513). -/
def endWakeJob (j : Job) (s : State) : State :=
  match j.kind, j.params with
  | .parked, _ => s.complete j stCancelled 4 (some j.raster)
  | .event, .sysMode _ => s.complete j stOk 0 (if j.sched then some j.raster else none)
  | _, _ => s

/-- The parts that Quiet stopped run again: lanes with their records applied (R120, R123), and the audio ports. -/
def State.powerUp (s : State) : State :=
  let s1 := State.each (fun b s => if (s.txDir b).enable && !(s.txDir b).asleep then s.txStart b else s) (List.range 65) s.lanesOnRecords
  s1.wakeAudio

/-- WAKE_END: 4.0 ms after it began, the device returns to the mode before QUIET (R512); latches 0, 1 and 3 clear. -/
def doWakeEnd (s : State) : State :=
  if s.sys.quiet = .waking && s.sys.wakeT + 1080000 ≤ s.now then
    let s1 := { s with sys := { s.sys with quiet := .awake, wakeLatch := Nat.land s.sys.wakeLatch 20 } }.setMode s.sys.modeBefore
    let s2 := s1.powerUp
    State.each endWakeJob s2.jobs s2
  else s

/-- QUIET_ENTRY_END: entry ends, the mode becomes QUIET, and an enabled latch set by then begins the wake (R511). A restart that began
during entry has taken the device to RECOVERY, from which Table 0.5 has no way to QUIET: its parts power up again, and it stays
there (log 11). -/
def doQuietEntryEnd (s : State) : State :=
  if s.sys.quiet = .entering then
    if s.sys.mode = .recovery then
      let s1 := { s with sys := { s.sys with quiet := .awake } }.reloadEngines.powerUp
      State.each (fun j s => if j.kind = .parked then s.complete j stCancelled 4 (some j.raster) else s) s1.jobs s1
    else
      let s1 := ({ s with sys := { s.sys with quiet := .asleep } }.setMode .quiet)
      if Nat.land (s1.latches none) s1.sys.wakeEnables = 0 then s1 else s1.beginWake
  else s

end Sys2Proof.Machine
end

