-- ==== Sys2Proof/Machine/Operands.lean ====
section
/-! DEFINITION. The operand forms of packets: Table 13.1 row by row (opcode, modes, scheduling, pair column) with the size of each
parameter block (R349), the result descriptor a command carries (R350), and the permissions of Table 12.14. -/

namespace Sys2Proof.Machine

/-- The Modes column of Table 13.1: rows of Table 12.14 (`ident`, `faults`, `mode`), C, Q, T, B, BRINGUP and SERVICE, and the
modes of COUNTER_SNAPSHOT. -/
inductive Perm where
  | ident | faults | mode | c | q | t | b | bs | btr
  deriving DecidableEq, Repr

/-- The Sched column: not at all, any line, line 1, a line of house A. -/
inductive SchedCol where
  | no | line | frame | houseA
  deriving DecidableEq, Repr

/-- The Pair column (R352). -/
inductive PairCol where
  | s | m | l
  deriving DecidableEq, Repr

/-- A row of Table 13.1, with the bytes of the parameter block. -/
structure Row where
  opcode : Nat
  perm : Perm
  sched : SchedCol
  pair : PairCol
  size : Nat
  deriving DecidableEq, Repr

/-- Parameter bytes of PRESET_STORE: the body of Table 6.8 is absent with CAPTURE. -/
def presetSize (p : PresetStoreP) : Nat := if p.capture then 4 else 4 + (presetBytes p.body 0).length

/-- Table 13.1; an opcode that it lacks answers with a row that no check reads. -/
def rowOf : Params → Row
  | .sysIdentify _ => ⟨0x0001, .ident, .no, .m, 16⟩
  | .sysCaps _ => ⟨0x0002, .q, .no, .m, 16⟩
  | .sysMode _ => ⟨0x0003, .mode, .line, .s, 4⟩
  | .barrier p => ⟨0x0004, .q, .no, .m, 16 + 8 * p.waits.length⟩
  | .sysRestart _ => ⟨0x0005, .faults, .no, .m, 4⟩
  | .sysWakeSet _ => ⟨0x0006, .c, .no, .s, 16⟩
  | .sysFaultRead _ => ⟨0x0007, .faults, .no, .m, 20⟩
  | .rasterSet _ => ⟨0x0101, .c, .frame, .s, 36⟩
  | .rasterQuery _ => ⟨0x0102, .q, .no, .m, 32⟩
  | .stcSet _ => ⟨0x0103, .c, .houseA, .s, 16⟩
  | .stcRead _ => ⟨0x0104, .q, .no, .m, 16⟩
  | .schedCancel _ => ⟨0x0105, .q, .no, .s, 8⟩
  | .bundleSet _ => ⟨0x0201, .c, .no, .s, 12⟩
  | .bundleStatus _ => ⟨0x0202, .q, .no, .m, 20⟩
  | .laneTrain _ => ⟨0x0203, .c, .no, .m, 4⟩
  | .bundleSleep _ => ⟨0x0204, .c, .no, .s, 4⟩
  | .bundleWake _ => ⟨0x0205, .c, .no, .s, 4⟩
  | .loopbackSet _ => ⟨0x0206, .t, .no, .m, 4⟩
  | .prbsSet _ => ⟨0x0207, .t, .no, .m, 8⟩
  | .streamSet _ => ⟨0x0301, .c, .frame, .s, 16⟩
  | .routeTake p => ⟨0x0302, .c, .frame, .s, 4 + 8 * p.entries.length⟩
  | .routeQuery p => ⟨0x0303, .q, .no, .m, 20 + 2 * p.dests.length⟩
  | .lossSet _ => ⟨0x0304, .c, .frame, .s, 8⟩
  | .presetStore p => ⟨0x0305, .bs, .no, .s, presetSize p⟩
  | .presetRecall _ => ⟨0x0306, .c, .frame, .s, 4⟩
  | .presetColdstart _ => ⟨0x0307, .c, .no, .s, 4⟩
  | .bufCreate _ => ⟨0x0401, .c, .no, .s, 40⟩
  | .bufDestroy _ => ⟨0x0402, .c, .no, .s, 4⟩
  | .bufQuery _ => ⟨0x0403, .q, .no, .m, 24⟩
  | .bufXfer _ => ⟨0x0404, .c, .no, .m, 48⟩
  | .captureBind _ => ⟨0x0405, .c, .no, .s, 12⟩
  | .playoutBind _ => ⟨0x0406, .c, .no, .s, 16⟩
  | .weirQuery _ => ⟨0x0407, .q, .no, .m, 16⟩
  | .kernelBind p => ⟨0x0501, .c, .frame, .s, 48 + blockBytes p.block⟩
  | .kernelUpdate p => ⟨0x0502, .c, .frame, .s, 4 + blockBytes p.block⟩
  | .kernelUnbind _ => ⟨0x0503, .c, .no, .s, 4⟩
  | .engineReserve _ => ⟨0x0504, .c, .no, .s, 8⟩
  | .engineMigrate _ => ⟨0x0505, .c, .frame, .s, 8⟩
  | .engineQuery _ => ⟨0x0506, .q, .no, .m, 24⟩
  | .layerSet p => ⟨0x0601, .c, .frame, .s, 4 + 32 * p.entries.length⟩
  | .layerFlip _ => ⟨0x0602, .c, .line, .s, 44⟩
  | .layerQuery _ => ⟨0x0603, .q, .no, .m, 20⟩
  | .compSet _ => ⟨0x0604, .c, .frame, .s, 4⟩
  | .fenceBind _ => ⟨0x0605, .c, .no, .s, 4⟩
  | .fenceSignal _ => ⟨0x0606, .c, .line, .s, 8⟩
  | .fenceQuery _ => ⟨0x0607, .q, .no, .m, 20⟩
  | .groupSet p => ⟨0x0608, .c, .no, .s, 4 + 4 * p.members.length⟩
  | .staticSet _ => ⟨0x0609, .c, .frame, .s, 16⟩
  | .audioRoute p => ⟨0x0701, .c, .line, .s, 4 + 8 * p.entries.length⟩
  | .audioEmbed _ => ⟨0x0702, .c, .frame, .s, 24⟩
  | .asrcBind _ => ⟨0x0703, .c, .no, .s, 12⟩
  | .aportSet _ => ⟨0x0704, .c, .no, .s, 24⟩
  | .aportMask _ => ⟨0x0705, .c, .line, .s, 12⟩
  | .audioRingBind _ => ⟨0x0706, .c, .no, .s, 16⟩
  | .audioQuery p => ⟨0x0707, .q, .no, .m, 20 + 2 * p.channels.length⟩
  | .refSet _ => ⟨0x0801, .c, .no, .s, 8⟩
  | .synthSet _ => ⟨0x0802, .c, .no, .s, 24⟩
  | .bandTableSet p => ⟨0x0803, .c, .no, .s, 16 + 16 * p.entries.length⟩
  | .clkoutSet _ => ⟨0x0804, .c, .line, .s, 12⟩
  | .clkoutSync _ => ⟨0x0805, .c, .line, .s, 4⟩
  | .clockStatus _ => ⟨0x0806, .q, .no, .m, 16⟩
  | .pairSet _ => ⟨0x0901, .b, .no, .m, 4⟩
  | .pairResync _ => ⟨0x0902, .bs, .no, .l, 4⟩
  | .pairTransfer _ => ⟨0x0903, .bs, .no, .l, 4⟩
  | .pairStatus _ => ⟨0x0904, .q, .no, .m, 16⟩
  | .keyWrite _ => ⟨0x0A01, .c, .no, .m, 36⟩
  | .keyDerive p => ⟨0x0A02, .c, .no, .m, 8 + p.label.length + p.context.length⟩
  | .keyInvalidate _ => ⟨0x0A03, .c, .no, .m, 4⟩
  | .keyQuery _ => ⟨0x0A04, .q, .no, .m, 16⟩
  | .queueAuth _ => ⟨0x0A05, .c, .no, .m, 4⟩
  | .laneCryptSet _ => ⟨0x0A06, .c, .frame, .s, 4⟩
  | .attest _ => ⟨0x0A07, .q, .no, .m, 52⟩
  | .tamperSet _ => ⟨0x0A08, .c, .no, .m, 4⟩
  | .tamperStatus _ => ⟨0x0A09, .q, .no, .m, 16⟩
  | .nvRead _ => ⟨0x0B01, .q, .no, .m, 24⟩
  | .nvWrite p => ⟨0x0B02, .c, .no, .m, 8 + p.data.length⟩
  | .nvProtect _ => ⟨0x0B03, .c, .no, .m, 4⟩
  | .nvCounter p => ⟨0x0B04, if p.op = 1 then .c else .q, .no, .m, 20⟩
  | .auditRead _ => ⟨0x0B05, .q, .no, .m, 24⟩
  | .counterRead p => ⟨0x0C01, .q, .no, .m, 20 + 4 * p.ids.length⟩
  | .counterSnapshot _ => ⟨0x0C02, .btr, .no, .m, 4⟩
  | .monitorSet _ => ⟨0x0C03, .c, .no, .m, 8⟩
  | .monitorRead _ => ⟨0x0C04, .q, .no, .m, 20⟩
  | .eventRoute _ => ⟨0x0D01, .c, .no, .m, 8⟩
  | .gpioSet _ => ⟨0x0D02, .c, .no, .s, 4⟩
  | .gpioEdge _ => ⟨0x0D03, .c, .line, .s, 4⟩
  | .gpioRead _ => ⟨0x0D04, .q, .no, .m, 16⟩
  | .cpbLoad _ => ⟨0x0D05, .c, .no, .m, 24⟩
  | .cpbCtrl _ => ⟨0x0D06, .c, .no, .m, 8⟩
  | .unknown op => ⟨op, .c, .no, .m, 0⟩

/-- The result descriptor of a command that returns data. -/
def resOf : Params → Option Res
  | .sysIdentify p => some p.res
  | .sysCaps p => some p.res
  | .sysFaultRead p => some p.res
  | .rasterQuery p => some p.res
  | .stcRead p => some p.res
  | .bundleStatus p => some p.res
  | .routeQuery p => some p.res
  | .bufCreate p => some p.res
  | .bufQuery p => some p.res
  | .weirQuery p => some p.res
  | .engineQuery p => some p.res
  | .layerQuery p => some p.res
  | .fenceQuery p => some p.res
  | .audioQuery p => some p.res
  | .clockStatus p => some p.res
  | .pairStatus p => some p.res
  | .keyQuery p => some p.res
  | .attest p => some p.res
  | .tamperStatus p => some p.res
  | .nvRead p => some p.res
  | .nvCounter p => some p.res
  | .auditRead p => some p.res
  | .counterRead p => some p.res
  | .monitorRead p => some p.res
  | .gpioRead p => some p.res
  | _ => none

/-- An opcode of Table 13.1 (R347). -/
def knownOp : Params → Bool
  | .unknown _ => false
  | _ => true

/-- Key-privileged commands (R353). -/
def keyPrivileged : Params → Bool
  | .keyWrite _ | .queueAuth _ => true
  | .nvProtect p => p.unlock
  | .tamperSet p => p.clear
  | _ => false

/-- Commands that read or write the Parameter Store (R459). -/
def usesStore : Params → Bool
  | .nvRead _ | .nvWrite _ | .nvProtect _ | .nvCounter _ | .auditRead _ | .presetStore _ | .presetRecall _ | .presetColdstart _ => true
  | _ => false

/-- The configuration row of Table 12.14. -/
def Perm.config : Perm → Bool
  | .c | .b | .bs | .btr => true
  | _ => false

/-- R341: a command of this row is permitted in mode `m` on queue `q`. -/
def permitted (p : Perm) (m : Mode) (q : Nat) : Bool :=
  let run := m.config || m == .recovery
  match p with
  | .ident => run || q == 9
  | .faults => run || (m == .failed && q == 9)
  | .mode => run || (m == .quiet && q == 9)
  | .c => m.config
  | .q => run
  | .t => m == .test
  | .b => m == .bringup
  | .bs => m == .bringup || m == .service
  | .btr => m == .bringup || m == .test || m == .recovery

/-- No firmware runs, and the boot ROM serves queue 9 (R490, R506). -/
def State.bootRom (s : State) : Bool := s.sys.stage == .held || s.sys.restartFailed

/-- What the boot ROM executes (R506). -/
def bootServes : Params → Bool
  | .sysIdentify _ | .sysFaultRead _ => true
  | .sysRestart p => p.kind == 1
  | _ => false

/-- Words of a command's parameter block (R349). -/
def paramWords (p : Params) : Nat := ceilDiv (rowOf p).size 4

/-- Words of a packet (R349): a descriptor stands in for the parameters with INDIRECT (R335). -/
def packetWords (pk : Packet) : Nat :=
  6 + (if pk.hdr.indirect.isSome then 4 else paramWords pk.params) + (if pk.hdr.mac.isSome then 4 else 0)

/-- LENGTH of a packet, and BYTES of its descriptor, agree with its parameter block (R349). DEDUCED (assumption 13) of BYTES. -/
def lengthOk (pk : Packet) : Bool :=
  pk.hdr.length == packetWords pk && pk.hdr.indirect.all fun i => i.bytes == 4 * paramWords pk.params

end Sys2Proof.Machine
end

