-- ==== Sys2Proof/Machine/Layout.lean ====
section
/-! DEFINITION. The bytes of a command packet, little-endian (R11): the header of Table 12.10 and the parameter block of every opcode of
Table 13.1, and the MAC that an authenticated queue expects over them (R333, R337, R349). -/

namespace Sys2Proof.Machine

/-! ### Layouts -/

/-- One row of a layout table: a field of `n` bytes, a field of `n` bytes whose upper bits from bit `k` on are reserved, or `n` reserved
bytes. -/
inductive Fld where
  | num (n v : Nat)
  | flags (n k v : Nat)
  | rsvd (n : Nat)
  deriving DecidableEq, Repr

def Fld.size : Fld → Nat
  | .num n _ => n
  | .flags n _ _ => n
  | .rsvd n => n

/-- Bits of the row that are reserved. -/
def Fld.spare : Fld → Nat
  | .num _ _ => 0
  | .flags n k _ => 8 * n - k
  | .rsvd n => 8 * n

/-- The value of the row's bytes, its reserved bits the low bits of `r`. -/
def Fld.value (r : Nat) : Fld → Nat
  | .num _ v => v
  | .flags _ k v => v % 2 ^ k + r * 2 ^ k
  | .rsvd _ => r

/-- The bytes of a layout; its reserved bits are those of `r` in order, the lowest first. -/
def lay (r : Nat) : List Fld → List Byte
  | [] => []
  | f :: l => leBytes f.size (f.value r) ++ lay (r / 2 ^ f.spare) l

def resFlds (r : Res) : List Fld := [.num 8 r.addr, .num 4 r.bytes]
def resBlock (r : Res) : List Byte := lay r.rsvd (resFlds r ++ [.rsvd 4])
def geoFlds (g : Geometry) : List Fld := [.num 2 g.inTLines, .num 2 g.inALine1, .num 2 g.inALine2, .rsvd 2]
def portFlds (p : PortFmt) : List Fld :=
  [.num 2 p.width, .num 2 p.height, .num 1 p.format, .num 1 p.rate, .num 1 p.scan, .num 1 p.g]

/-- A matrix or its offsets as 32-bit words (R244). -/
def words (n : Nat) (l : List Int) : List Fld := (List.range n).map fun i => .num 4 (encInt 32 (l.getD i 0))

/-! ### Kernel blocks (chapter 9) -/

/-- `n` components of a LUT, 16 bits each. -/
def lutBytes (n : Nat) (l : List Nat) : List Byte := (List.range n).flatMap fun i => leBytes 2 (l.getD i 0)

/-- Table 9.9, with `n` LUT components where a LUT is present. -/
def colorBytes (n : Nat) (b : ColorBlk) : List Byte :=
  lay b.rsvd (geoFlds b.geo ++ [.flags 1 6 b.stages, .num 1 b.decodeTf, .num 1 b.encodeTf, .num 1 b.outTag, .num 2 b.sdrWhite, .num 2 b.hlgLw] ++
    words 9 b.inMatrix ++ words 3 b.inOffset ++ words 9 b.gamut ++ words 9 b.outMatrix ++ words 3 b.outOffset ++ [.rsvd 4]) ++
  (if b.lut.isEmpty then [] else lutBytes n b.lut ++ leBytes 2 0)

def blockLayout : KBlock → List Byte
  | .scale b => lay b.rsvd (geoFlds b.geo ++ [.num 1 b.htaps, .num 1 b.vtaps, .num 1 b.sharp, .num 1 b.aspect, .num 2 b.cropX, .num 2 b.cropY,
      .num 2 b.cropW, .num 2 b.cropH, .num 2 b.dx, .num 2 b.dy, .num 2 b.dw, .num 2 b.dh, .rsvd 4])
  | .deint b => lay b.rsvd [.num 4 b.hist, .num 1 b.mode, .num 1 b.edge, .num 1 b.cadence, .num 1 b.mgain, .num 2 b.mthresh, .rsvd 6]
  | .frcMc b => lay b.rsvd [.num 4 b.hist, .num 4 b.mv, .num 1 b.fallback, .num 1 b.conf, .rsvd 6]
  | .frcBlend b => lay b.rsvd [.num 4 b.hist, .num 1 b.mode, .rsvd 3]
  | .color b => colorBytes 107811 b
  | .chroma b => lay b.rsvd (geoFlds b.geo ++ [.num 1 b.filter, .num 1 b.in420, .num 1 b.out420, .rsvd 5])
  | .key b => lay b.rsvd (geoFlds b.geo ++ [.num 1 b.mode, .num 1 b.matrix, .num 1 b.invert, .num 1 b.spill, .num 4 b.clip, .num 2 b.gain,
      .num 2 b.hue, .num 1 b.accept, .rsvd 11])
  | .other n => leBytes n 0

/-! ### Repeated entries -/

/-- Table 12.15: an entry of BARRIER; its reserved bytes are laid as 0. -/
def waitBytes (w : BarrierWait) : List Byte := lay 0 [.num 1 w.queue, .rsvd 3, .num 4 w.seq]

/-- Table 6.4. -/
def routeBytes (e : RouteEntry) : List Byte :=
  lay e.rsvd [.num 2 e.dest, .num 2 e.src, .num 1 e.g, .flags 1 3 (entryFlags e), .num 1 e.extra, .rsvd 1]

def geomFlds (g : LayerGeom) : List Fld :=
  [.num 2 (encInt 16 g.x), .num 2 (encInt 16 g.y), .num 2 g.cropX, .num 2 g.cropY, .num 2 g.cropW, .num 2 g.cropH, .num 2 g.galpha]

/-- Table 10.1. DEDUCED (assumption 39): an entry takes 32 bytes, as its offsets step; the last four, which the table does not name, are 0. -/
def layerBytes (e : LayerEntry) : List Byte :=
  lay e.rsvd ([.num 1 e.layer, .flags 1 3 (b2n e.enable + 2 * b2n e.follow + 4 * b2n e.setBuf), .num 1 e.z, .num 1 e.tag] ++ geomFlds e.geom ++
    [.num 2 e.slot, .num 4 e.buf, .rsvd 4, .num 4 0])

/-- Table 11.4. -/
def audioBytes (e : AudioEntry) : List Byte :=
  lay e.rsvd [.num 2 e.dst, .num 2 e.src, .num 2 (encInt 16 e.gain),
    .flags 1 4 (b2n e.invert + 2 * b2n e.mute + 4 * b2n e.hard + 8 * b2n e.ctrlOnly), .rsvd 1]

/-- Table 2.1. -/
def descLayout (d : RasterDesc) : List Byte :=
  lay d.rsvd [.num 2 d.totalLines, .num 2 d.totalSamples, .num 4 d.rateNum, .num 4 d.rateDen, .num 1 d.scan, .rsvd 1, .num 2 d.field2Line,
    .num 2 d.activeLine1, .num 2 d.activeLines, .num 2 d.activeLine2, .num 2 d.activeSample0, .num 2 d.activeSamples, .num 1 d.house,
    .num 1 d.ratio, .num 2 d.phaseLines, .num 2 d.phaseSamples]

/-- Table 7.2. -/
def bufLayout (b : BufParams) : List Byte :=
  lay b.rsvd [.num 1 b.typ, .num 1 b.format, .num 2 b.count, .num 2 b.width, .num 2 b.height, .num 2 b.tlines, .num 1 b.rate, .num 1 b.scan,
    .num 4 b.size, .num 4 b.target, .num 2 b.hwRate, .num 1 b.dir, .rsvd 1]

/-! ### Parameter blocks (Table 13.1) -/

/-- The parameter block of a command, without the bytes that pad it to a whole word. -/
def paramBytes : Params → List Byte
  | .sysIdentify p => resBlock p.res
  | .sysCaps p => resBlock p.res
  | .sysMode p => lay p.rsvd [.num 1 p.mode, .rsvd 3]
  | .barrier p => lay p.rsvd [.num 1 p.waits.length, .flags 1 2 (b2n p.applied + 2 * b2n p.fenceWait), .rsvd 2, .num 4 p.timeout, .num 1 p.fence,
      .rsvd 3, .num 4 p.fenceValue] ++ p.waits.flatMap waitBytes
  | .sysRestart p => lay p.rsvd [.num 1 p.kind, .rsvd 3]
  | .sysWakeSet p => lay p.rsvd [.flags 1 5 p.enables, .rsvd 7, .num 8 p.timer]
  | .sysFaultRead p => resBlock p.res ++ lay p.rsvd [.flags 1 1 (b2n p.clear), .rsvd 3]
  | .rasterSet p => lay p.rsvd [.num 2 p.raster, .rsvd 2] ++ descLayout p.desc
  | .rasterQuery p => resBlock p.res ++ lay p.rsvd [.num 2 p.raster, .num 1 p.house, .rsvd 1, .num 2 p.predLine, .rsvd 2, .num 8 p.predFrame]
  | .stcSet p => lay p.rsvd [.num 1 p.op, .rsvd 7, .num 8 p.value]
  | .stcRead p => resBlock p.res
  | .schedCancel p => lay p.rsvd [.num 1 p.queue, .rsvd 3, .num 4 p.seq]
  | .bundleSet p => lay p.rsvd [.num 1 p.bundle, .num 1 p.dir, .num 1 p.rate, .num 1 p.laneMask,
      .flags 1 3 (b2n p.enable + 2 * b2n p.trainAuto + 4 * b2n p.adapt), .num 1 p.swing, .num 2 p.expectBase, .num 1 p.spread, .rsvd 3]
  | .bundleStatus p => resBlock p.res ++ lay p.rsvd [.num 1 p.bundle, .flags 1 1 (b2n p.extended), .rsvd 2]
  | .laneTrain p => lay p.rsvd [.num 1 p.bundle, .rsvd 3]
  | .bundleSleep p => lay p.rsvd [.num 1 p.bundle, .num 1 p.dir, .rsvd 2]
  | .bundleWake p => lay p.rsvd [.num 1 p.bundle, .num 1 p.dir, .rsvd 2]
  | .loopbackSet p => lay p.rsvd [.num 1 p.port, .num 1 p.path, .rsvd 2]
  | .prbsSet p => lay p.rsvd [.num 1 p.bundle, .num 1 p.dir, .num 1 p.laneMask, .num 1 p.pattern, .flags 1 1 (b2n p.invert), .rsvd 3]
  | .streamSet p => lay p.rsvd [.num 1 p.dir, .num 1 p.bundle, .num 1 p.lane, .num 1 p.g, .num 1 p.mode, .num 1 p.tag,
      .flags 1 2 (b2n p.dither + 2 * b2n p.exclOff), .num 1 p.rate, .num 2 p.activeSamples, .num 2 p.activeLines, .num 2 p.totalLines,
      .num 1 p.scan, .rsvd 1]
  | .routeTake p => lay p.rsvd [.num 2 p.count, .rsvd 2] ++ p.entries.flatMap routeBytes
  | .routeQuery p => resBlock p.res ++ lay p.rsvd [.num 2 p.dests.length, .rsvd 2] ++ p.dests.flatMap (leBytes 2)
  | .lossSet p => lay p.rsvd [.num 2 p.output, .num 1 p.policy, .rsvd 1, .num 2 p.holdLimit, .rsvd 2]
  | .presetStore p => lay p.rsvd [.num 1 p.preset, .flags 1 1 (b2n p.capture), .rsvd 2] ++ (if p.capture then [] else presetBytes p.body 0)
  | .presetRecall p => lay p.rsvd [.num 1 p.preset, .rsvd 3]
  | .presetColdstart p => lay p.rsvd [.num 1 p.preset, .num 1 (b2n p.enable), .rsvd 2]
  | .bufCreate p => bufLayout p.params ++ resBlock p.res
  | .bufDestroy p => leBytes 4 p.handle
  | .bufQuery p => resBlock p.res ++ lay p.rsvd [.num 4 p.handle, .rsvd 4]
  | .bufXfer p => lay p.rsvd [.num 4 p.window, .flags 1 2 (b2n p.markComplete + 2 * b2n p.p3), .rsvd 1, .num 2 p.slot, .num 8 p.offset,
      .num 8 p.hostAddr, .num 4 p.bytes, .rsvd 4, .num 8 p.frame, .num 8 p.doneStc]
  | .captureBind p => lay p.rsvd [.num 2 p.cw, .num 1 p.g, .flags 1 1 (b2n p.oneShot), .num 4 p.handle, .rsvd 4]
  | .playoutBind p => lay p.rsvd [.num 2 p.pb, .num 1 p.g, .num 1 p.mode, .num 4 p.handle, .num 2 p.raster, .num 1 p.extra, .rsvd 1, .num 2 p.slot,
      .rsvd 2]
  | .weirQuery p => resBlock p.res
  | .kernelBind p => lay p.rsvd ([.num 2 p.engine, .num 1 p.gang, .num 1 p.ov, .num 2 p.kernel, .num 2 p.raster, .num 2 p.outAdv, .rsvd 2] ++
      portFlds p.in0 ++ portFlds p.in1 ++ portFlds p.out0 ++ portFlds p.out1 ++ [.rsvd 4]) ++ blockLayout p.block
  | .kernelUpdate p => lay p.rsvd [.num 2 p.engine, .rsvd 2] ++ blockLayout p.block
  | .kernelUnbind p => lay p.rsvd [.num 2 p.engine, .rsvd 2]
  | .engineReserve p => lay p.rsvd [.num 2 p.first, .num 1 p.count, .flags 1 1 (b2n p.release), .num 4 p.ceiling]
  | .engineMigrate p => lay p.rsvd [.num 2 p.engine, .num 2 p.target, .rsvd 4]
  | .engineQuery p => resBlock p.res ++ lay p.rsvd [.num 2 p.first, .num 2 p.count, .rsvd 4]
  | .layerSet p => lay p.rsvd [.num 2 p.output, .num 1 p.count, .rsvd 1] ++ p.entries.flatMap layerBytes
  | .layerFlip p => lay p.rsvd ([.num 2 p.output, .num 1 p.layer, .num 1 p.sel, .num 4 p.buf, .num 2 p.slot, .num 1 p.fence,
      .flags 1 2 (b2n p.fenced + 2 * b2n p.geom.isSome), .num 4 p.fenceValue, .num 8 p.frame, .num 2 p.expire, .rsvd 2] ++
      geomFlds (p.geom.getD { galpha := 0 }) ++ [.rsvd 2])
  | .layerQuery p => resBlock p.res ++ lay p.rsvd [.num 2 p.output, .rsvd 2]
  | .compSet p => lay p.rsvd [.num 2 p.output, .num 1 p.dl, .rsvd 1]
  | .fenceBind p => lay p.rsvd [.num 1 p.fence, .rsvd 1, .num 2 p.point]
  | .fenceSignal p => lay p.rsvd [.num 1 p.fence, .flags 1 1 (b2n p.reset), .rsvd 2, .num 4 p.value]
  | .fenceQuery p => resBlock p.res ++ lay p.rsvd [.num 1 p.fence, .rsvd 3]
  | .groupSet p => lay p.rsvd [.num 1 p.group, .num 1 p.members.length, .rsvd 2] ++
      p.members.flatMap fun m => lay 0 [.num 2 m.1, .num 1 m.2, .rsvd 1]
  | .staticSet p => lay p.rsvd [.num 2 p.output, .num 1 p.run, .num 1 p.op, .num 1 p.zlo, .num 1 p.zhi, .rsvd 2, .num 4 p.bufA, .num 4 p.bufB]
  | .audioRoute p => lay p.rsvd [.num 2 p.count, .rsvd 2] ++ p.entries.flatMap audioBytes
  | .audioEmbed p => lay p.rsvd [.num 2 p.output, .num 1 (b2n p.enable), .num 1 p.rate, .num 1 p.blkLen, .num 1 p.slots, .rsvd 2, .num 4 p.ring,
      .num 4 p.gEmb, .num 4 p.lsTol, .rsvd 4]
  | .asrcBind p => lay p.rsvd [.num 1 p.group, .num 1 p.op, .num 1 p.target, .num 1 p.tport, .num 1 p.outRate, .num 1 p.bw, .num 2 p.first,
      .num 1 p.count, .rsvd 3]
  | .aportSet p => lay p.rsvd [.num 1 p.port, .num 1 (b2n p.enable), .num 1 p.role, .num 1 p.rate, .num 1 p.slots, .num 1 p.width, .num 1 p.offset,
      .flags 1 4 (b2n p.fsLow + 2 * b2n p.edge + 4 * b2n p.unusedZero + 8 * b2n p.houseB), .num 2 p.fsWidth, .rsvd 2, .num 4 p.portDelay,
      .num 4 p.diMask, .num 4 p.doMask]
  | .aportMask p => lay p.rsvd [.num 1 p.port, .flags 1 1 (b2n p.fadeIn), .rsvd 2, .num 4 p.diMask, .num 4 p.doMask]
  | .audioRingBind p => lay p.rsvd [.num 4 p.handle, .num 1 p.kind, .num 1 p.rate, .num 1 p.house, .flags 1 1 (b2n p.hostFlow), .num 2 p.first,
      .num 2 p.count, .num 4 (encInt 32 p.delay)]
  | .audioQuery p => resBlock p.res ++ lay p.rsvd [.num 2 p.channels.length, .num 1 p.side, .rsvd 1] ++ p.channels.flatMap (leBytes 2)
  | .refSet p => lay p.rsvd [.num 1 p.port, .flags 1 3 (b2n p.enable + 2 * b2n p.lineSync + 4 * b2n p.fsFall), .num 1 p.scale, .rsvd 1,
      .num 4 p.freqHz]
  | .synthSet p => lay p.rsvd [.num 1 p.synth, .num 1 p.policy, .num 2 p.bw, .num 2 p.slew, .num 2 p.lockN, .num 2 p.lossM, .num 2 p.window,
      .num 1 p.spread, .num 1 p.sscKhz, .num 1 p.phaseMode, .rsvd 1, .num 8 p.freq]
  | .bandTableSet p => lay p.rsvd [.num 1 p.synth, .num 1 p.entries.length, .rsvd 6, .num 8 p.ceiling] ++
      p.entries.flatMap fun e => lay 0 [.num 8 e.1, .num 1 e.2, .rsvd 7]
  | .clkoutSet p => lay p.rsvd [.num 1 p.clkout, .num 1 p.synth, .flags 1 1 (b2n p.enable), .rsvd 1, .num 4 p.divider, .num 2 p.delay, .rsvd 2]
  | .clkoutSync p => lay p.rsvd [.num 1 p.synth, .rsvd 3]
  | .clockStatus p => resBlock p.res
  | .pairSet p => lay p.rsvd [.num 1 p.role, .rsvd 3]
  | .pairResync p => lay p.rsvd [.rsvd 4]
  | .pairTransfer p => lay p.rsvd [.rsvd 4]
  | .pairStatus p => resBlock p.res
  | .keyWrite p => lay p.rsvd [.num 1 p.slot, .num 1 p.usage, .num 1 p.parent, .rsvd 1] ++ beBytes 32 p.key
  | .keyDerive p => lay p.rsvd [.num 1 p.slot, .num 1 p.parent, .num 1 p.usage, .num 1 p.label.length, .num 1 p.context.length, .rsvd 3] ++
      p.label ++ p.context
  | .keyInvalidate p => lay p.rsvd [.num 1 p.slot, .rsvd 3]
  | .keyQuery p => resBlock p.res
  | .queueAuth p => lay p.rsvd [.num 1 p.queue, .num 1 p.slot, .rsvd 2]
  | .laneCryptSet p => lay 0 [.num 2 p.point, .num 1 p.dir, .num 1 p.slot]
  | .attest p => resBlock p.res ++ lay p.rsvd [.num 1 p.slot, .rsvd 3] ++ beBytes 32 p.nonce
  | .tamperSet p => lay p.rsvd [.flags 1 7 p.enables, .num 1 p.wake, .flags 1 1 (b2n p.clear), .rsvd 1]
  | .tamperStatus p => resBlock p.res
  | .nvRead p => resBlock p.res ++ leBytes 4 p.addr ++ leBytes 4 p.bytes
  | .nvWrite p => lay p.rsvd [.num 4 p.addr, .num 2 p.data.length, .rsvd 2] ++ p.data
  | .nvProtect p => lay p.rsvd [.num 1 p.field, .flags 1 2 (b2n p.lock + 2 * b2n p.unlock), .rsvd 2]
  | .nvCounter p => resBlock p.res ++ lay p.rsvd [.num 1 p.counter, .num 1 p.op, .rsvd 2]
  | .auditRead p => resBlock p.res ++ lay p.rsvd [.num 4 p.first, .num 2 p.count, .rsvd 2]
  | .counterRead p => resBlock p.res ++ lay p.rsvd [.num 2 p.ids.length, .flags 1 1 (b2n p.clearOvf), .rsvd 1] ++ p.ids.flatMap (leBytes 4)
  | .counterSnapshot p => lay p.rsvd [.num 1 p.op, .rsvd 3]
  | .monitorSet p => lay 0 [.num 2 p.monitor, .num 2 p.port, .num 2 p.raster, .num 2 p.lines]
  | .monitorRead p => resBlock p.res ++ leBytes 2 p.first ++ leBytes 2 p.count
  | .eventRoute p => lay p.rsvd [.num 2 p.first, .num 2 p.count, .num 1 p.targets, .num 1 p.cls, .rsvd 2]
  | .gpioSet p => lay 0 [.num 1 p.pin, .num 1 p.dir, .num 1 p.level, .num 1 p.owner]
  | .gpioEdge p => lay 0 [.num 2 p.mask, .num 2 p.value]
  | .gpioRead p => resBlock p.res
  | .cpbLoad p => lay p.rsvd [.flags 1 1 (b2n p.start), .rsvd 3, .num 4 p.addr, .num 8 p.hostAddr, .num 4 p.bytes, .rsvd 4]
  | .cpbCtrl p => lay p.rsvd [.num 1 p.op, .rsvd 3, .num 4 p.entry]
  | .unknown _ => []

/-! ### Packets (Tables 12.10 and 12.11) -/

/-- FLAGS [8:4]. -/
def headerFlags (h : Hdr) : Nat :=
  b2n h.sched + 2 * b2n h.reject + 4 * b2n h.mac.isSome + 8 * b2n h.earlyAck + 16 * b2n h.indirect.isSome

/-- The 24 bytes of a header. WORD0 holds VERSION, FLAGS and OPCODE, its FLAGS [15:9] reserved. -/
def headerBytes (h : Hdr) (opcode : Nat) : List Byte :=
  leBytes 4 (h.version % 16 + 16 * headerFlags h + 512 * (h.rsvd % 128) + 65536 * (opcode % 65536)) ++ leBytes 4 h.seq ++ leBytes 2 h.length ++
  leBytes 2 h.tag ++ leBytes 8 (posField h.raster h.frame h.line) ++ leBytes 4 (h.rsvd / 128)

/-- A parameter block is padded with zero bytes to a whole word (R349). -/
def padded (l : List Byte) : List Byte := l ++ List.replicate (4 * ceilDiv l.length 4 - l.length) 0

/-- What the MAC of a packet is taken over: the queue number, the header and the parameters, fetched ones with INDIRECT (R337). -/
def signedBytes (q : Nat) (h : Hdr) (p : Params) : List Byte :=
  leBytes 1 q ++ headerBytes h (rowOf p).opcode ++ padded (paramBytes p)

/-- The MAC of a packet under a key, as a number with its first byte lowest (R337). -/
def macOf (key q : Nat) (h : Hdr) (p : Params) : Nat := leNat ((hmac key (signedBytes q h p)).take 16)

/-- The descriptor of INDIRECT (R335). -/
def indirectBytes (i : Indirect) : List Byte := leBytes 8 i.addr ++ leBytes 4 i.bytes ++ leBytes 4 i.rsvd

/-- A packet as it travels in its queue (R333, R335). -/
def Packet.bytes (pk : Packet) : List Byte :=
  headerBytes pk.hdr (rowOf pk.params).opcode ++
  (match pk.hdr.indirect with
   | some i => indirectBytes i
   | none => padded (paramBytes pk.params)) ++
  (match pk.hdr.mac with
   | some m => leBytes 16 m
   | none => [])

end Sys2Proof.Machine
end

