-- ==== Sys2Proof/Machine/Commands.lean ====
section
/-! DEFINITION. What each packet does (Table 13.1): its start as an immediate command, its checks and reservations as a scheduled
one, its effect at its line, and what a cancelled one gives back. BARRIER stands here too (R344). -/

namespace Sys2Proof.Machine

/-! ### BARRIER -/

/-- One wait entry is met (R344). -/
def State.waitMet (s : State) (applied : Bool) (w : BarrierWait) : Bool :=
  let aim : BitVec 32 := BitVec.ofNat 32 w.seq
  reaches (s.queue w.queue).lastSeq aim &&
  !(applied && s.jobs.any fun j => j.queue == w.queue && j.sched && j.kind == .apply && reaches aim (BitVec.ofNat 32 j.seq))

/-- Every condition of a BARRIER is met (R344). -/
def State.barrierMet (s : State) (p : BarrierP) : Bool :=
  p.waits.all (s.waitMet p.applied) && (!p.fenceWait || reaches (s.fence p.fence).value (BitVec.ofNat 32 p.fenceValue))

/-- BARRIER (R344, Table 12.15). -/
def startBarrier (c : Ctx) (p : BarrierP) (s : State) : Ans :=
  orAns (failIf (p.rsvd != 0 || decide (10 < p.waits.length) || decide (60000 < p.timeout) || decide (256 ≤ p.fence) ||
      p.waits.any fun w => decide (10 ≤ w.queue) || w.queue == c.queue) stBadParam)
    (if s.barrierMet p then .done s else .later s .event)

/-- The monotonic count at which a BARRIER's TIMEOUT expires, none without limit. -/
def barrierDeadline (now : Tick) : Params → Option Tick
  | .barrier p => if p.timeout = 0 then none else some (now + 270000 * p.timeout)
  | _ => none

/-- BUNDLE_SET; a new receive rate begins a training round (R84, R117). -/
def startBundleRate (p : BundleSetP) (s : State) : Ans :=
  match startBundleSet p s with
  | .done s1 none =>
    .done (if p.dir = 0 && (s.rxDir p.bundle).rate != p.rate && (s1.rxDir p.bundle).mayTrain then s1.startRound p.bundle else s1)
  | a => a

/-! ### The rows -/

/-- What a cancelled action gives back. -/
def releaseOf (j : Job) (s : State) : State :=
  match j.params with
  | .routeTake _ => releaseTake j s
  | .presetRecall _ => releaseTake j s
  | .kernelBind p => releaseKernelBind p s
  | .engineMigrate p => releaseMigrate p s
  | .layerSet p => releaseLayerSet j p.output s
  | .layerFlip p => releaseLayerSet j p.output s
  | .staticSet p => releaseStaticSet j p s
  | .audioEmbed p => releaseAudioEmbed j p.output s
  | _ => s

/-- An immediate command executes. -/
def startOf (c : Ctx) (q : Params) (s : State) : Ans :=
  match q with
  | .sysIdentify p => startIdentify p s
  | .sysCaps p => startCaps p s
  | .sysMode p => startSysMode p s
  | .barrier p => startBarrier c p s
  | .sysRestart p => startRestart c p commandReset s
  | .sysWakeSet p => startWakeSet p s
  | .sysFaultRead p => startFaultRead p s
  | .rasterSet p => startRasterSet c.hdr p s
  | .rasterQuery p => startRasterQuery p s
  | .stcSet p => startStcSet c.hdr p s
  | .stcRead p => startStcRead p s
  | .schedCancel p => startSchedCancel releaseOf p s
  | .bundleSet p => startBundleRate p s
  | .bundleStatus p => startBundleStatus p s
  | .laneTrain p => startLaneTrain p s
  | .bundleSleep p => startBundleSleep p s
  | .bundleWake p => startBundleWake p s
  | .loopbackSet p => startLoopback p s
  | .prbsSet p => startPrbs p s
  | .streamSet p => startStreamSet c.hdr p s
  | .routeTake p => startRouteTake c.hdr p s
  | .routeQuery p => startRouteQuery p s
  | .lossSet p => startLossSet c.hdr p s
  | .presetStore p => startPresetStore p s
  | .presetRecall p => startPresetRecall c.hdr p s
  | .presetColdstart p => startPresetColdstart p s
  | .bufCreate p => startBufCreate p s
  | .bufDestroy p => startBufDestroy p s
  | .bufQuery p => startBufQuery p s
  | .bufXfer p => orAns (failIf (c.queue == 9) stBadParam) (startBufXfer p s)
  | .captureBind p => startCaptureBind p s
  | .playoutBind p => startPlayoutBind p s
  | .weirQuery p => startWeirQuery p s
  | .kernelBind p => startKernelBind c.hdr p s
  | .kernelUpdate p => startKernelUpdate c.hdr p s
  | .kernelUnbind p => startKernelUnbind p s
  | .engineReserve p => startEngineReserve p s
  | .engineMigrate p => startEngineMigrate c.hdr p s
  | .engineQuery p => startEngineQuery p s
  | .layerSet p => startLayerSet c.hdr p s
  | .layerFlip p => startLayerFlip c.hdr p s
  | .layerQuery p => startLayerQuery p s
  | .compSet p => startCompSet c.hdr p s
  | .fenceBind p => startFenceBind p s
  | .fenceSignal p => startFenceSignal p s
  | .fenceQuery p => startFenceQuery p s
  | .groupSet p => startGroupSet p s
  | .staticSet p => startStaticSet c.hdr p s
  | .audioRoute p => startAudioRoute p s
  | .audioEmbed p => startAudioEmbed c.hdr p s
  | .asrcBind p => startAsrcBind p s
  | .aportSet p => startAportSet p s
  | .aportMask p => startAportMask p s
  | .audioRingBind p => startAudioRingBind p s
  | .audioQuery p => startAudioQuery p s
  | .refSet p => startRefSet p s
  | .synthSet p => startSynthSet p s
  | .bandTableSet p => startBandTable p s
  | .clkoutSet p => startClkoutSet p s
  | .clkoutSync p => startClkoutSync p s
  | .clockStatus p => startClockStatus p s
  | .pairSet p => startPairSet p s
  | .pairResync p => startResync p s
  | .pairTransfer p => startTransfer p s
  | .pairStatus p => startPairStatus p s
  | .keyWrite p => startKeyWrite p s
  | .keyDerive p => startKeyDerive p s
  | .keyInvalidate p => startKeyInvalidate p s
  | .keyQuery p => startKeyQuery p s
  | .queueAuth p => startQueueAuth p s
  | .laneCryptSet p => startLaneCrypt p s
  | .attest p => startAttest p s
  | .tamperSet p => startTamperSet p s
  | .tamperStatus p => startTamperStatus p s
  | .nvRead p => startNvRead p s
  | .nvWrite p => startNvWrite p s
  | .nvProtect p => startNvProtect p s
  | .nvCounter p => startNvCounter p s
  | .auditRead p => startAuditRead p s
  | .counterRead p => startCounterRead p s
  | .counterSnapshot p => startSnapshot p s
  | .monitorSet p => startMonitorSet p s
  | .monitorRead p => startMonitorRead p s
  | .eventRoute p => startEventRoute p s
  | .gpioSet p => startGpioSet c p s
  | .gpioEdge p => startGpioEdge c p s
  | .gpioRead p => startGpioRead p s
  | .cpbLoad p => startCpbLoad c p s
  | .cpbCtrl p => startCpbCtrl c p s
  | .unknown _ => .fail stBadOpcode

/-- The owning chapter's checks of a scheduled command. -/
def checkOf (c : Ctx) (q : Params) (s : State) : Check :=
  match q with
  | .sysMode p => chkSysMode p s
  | .rasterSet p => chkRasterSet c.hdr p s
  | .stcSet p => chkStcSet c.hdr p
  | .streamSet p => chkStreamSet c.hdr p s
  | .routeTake p => chkRouteTake c.hdr p s
  | .lossSet p => chkLossSet c.hdr p s
  | .presetRecall p => chkPresetRecall c.hdr p s
  | .kernelBind p => chkKernelBind c.hdr p s
  | .kernelUpdate p => chkKernelUpdate c.hdr p s
  | .engineMigrate p => chkEngineMigrate c.hdr p s
  | .layerSet p => chkLayerSet c.hdr p s
  | .layerFlip p => chkLayerFlip c.hdr p s
  | .compSet p => chkCompSet c.hdr p s
  | .fenceSignal p => chkFenceSignal p s
  | .staticSet p => chkStaticSet c.hdr p s
  | .audioRoute p => chkAudioRoute p s
  | .audioEmbed p => chkAudioEmbed c.hdr p s
  | .aportMask p => chkAportMask p s
  | .clkoutSet p => chkClkoutSet p s
  | .clkoutSync p => chkClkoutSync p s
  | .laneCryptSet p => chkLaneCrypt p s
  | .gpioEdge p => chkGpioEdge c p s
  | _ => some (stBadParam, 0)

/-- What a scheduled command reserves at its residency, as job `id`. -/
def planOf (c : Ctx) (id : Nat) (q : Params) (s : State) : State :=
  match q with
  | .routeTake p => planTake c.hdr id p.entries s
  | .presetRecall p => planPresetRecall c.hdr id p s
  | .kernelBind p => planKernelBind p s
  | .engineMigrate p => planEngineMigrate id p s
  | .layerSet p => planLayerSet p s
  | .layerFlip p => planLayerFlip p s
  | .staticSet p => planStaticSet p s
  | .audioEmbed p => planAudioEmbed p s
  | _ => s

/-- An action takes effect at its line. -/
def applyOf (j : Job) (s : State) : State :=
  match j.params with
  | .sysMode p => applySysMode j p s
  | .sysRestart _ => applyHandover j s
  | .rasterSet p => applyRasterSet j p s
  | .stcSet p => applyStcSet j p s
  | .streamSet p => applyStreamSet releaseOf j p s
  | .routeTake _ => applyRouteTake j s
  | .lossSet p => applyLossSet j p s
  | .presetStore p => applyPresetStore j p s
  | .presetRecall p => applyPresetRecall j p s
  | .kernelBind p => applyKernelBind j p s
  | .layerSet p => applyLayerSet j p s
  | .layerFlip p => applyLayerFlip j p s
  | .compSet p => applyCompSet j p s
  | .fenceSignal p => applyFenceSignal j p s
  | .staticSet p => applyStaticSet j p s
  | .audioRoute p => applyAudioRoute j p s
  | .audioEmbed p => applyAudioEmbed j p s
  | .aportMask p => applyAportMask j p s
  | .clkoutSet p => applyClkoutSet j p s
  | .clkoutSync p => applyClkoutSync j p s
  | .laneCryptSet p => applyLaneCrypt j p s
  | .gpioEdge p => applyGpioEdge j p s
  | _ => s

/-- Lines from the point before which an action must be resident to the target (R53, R213, R541). -/
def armingOf (q : Params) (s : State) : Nat :=
  match q with
  | .kernelUpdate p => s.taskArm p.engine
  | .engineMigrate p => match s.task p.engine with
    | some t => s.migrateLines t
    | none => s.armLines
  | _ => s.armLines

/-- Lines from the point up to which SCHED_CANCEL reaches an action to the target: R541's for a migration too, whose on-time point
is earlier (R213, R215). -/
def cancelLines (q : Params) (s : State) : Nat :=
  match q with
  | .engineMigrate p => s.taskArm p.engine
  | _ => armingOf q s

end Sys2Proof.Machine
end

