-- ==== Sys2Proof/Machine/Queues.lean ====
section
/-! DEFINITION. The command queues (chapter 12): acceptance of a packet (Table 12.12), its execution or residency, stamping and
forwarding in a pair (R386, R387), fetching, and the registers of the queues and of the management SPI port. -/

namespace Sys2Proof.Machine

/-! ### Acceptance (Table 12.12) -/

/-- Steps 1 and 2. -/
def frameCheck (q : Nat) (h : Hdr) : Check :=
  failIf (h.version != 1 || decide (h.length < 6)) stBadLength 1 <|> failIf (decide (q < 9) && decide (16384 < h.length)) stBadLength

/-- R338: the sequence lies in the window after the last authenticated command. -/
def inWindow (last : Option (BitVec 32)) (seq : Nat) : Bool :=
  last.all fun v => between 1 (BitVec.ofNat 32 seq - v).toNat (2 ^ 31 - 1)

/-- The commands that queue 9 takes without a MAC while the slot bound to it is not valid (R436). -/
def recoversPort (q : Params) : Bool :=
  match q with
  | .keyWrite _ | .queueAuth _ | .tamperSet _ => true
  | _ => false

/-- Steps 3 to 5: the MAC is the one that R337 gives under the key bound. Queue 9 keeps its way of recovery while its slot is
not valid (R436). -/
def State.authCheck (s : State) (q : Nat) (h : Hdr) (p : Params) : Check :=
  match (s.queue q).macSlot, h.mac with
  | none, none => none
  | some i, none => failIf (!(q == 9 && !s.slotValid i && recoversPort p)) stBadMac
  | none, some _ => some (stKeyAbsent, 0)
  | some i, some m =>
    s.useSlot 0 i <|> failIf (m != macOf (s.slot i).key q h p) stBadMac <|> failIf (!inWindow (s.queue q).macSeq h.seq) stReplay

/-- An authenticated command that passed its window moves the stored sequence (R338). -/
def State.noteSeq (s : State) (q : Nat) (h : Hdr) : State :=
  if h.mac.isSome then s.setQueue q { s.queue q with macSeq := some (BitVec.ofNat 32 h.seq) } else s

/-- Step 6 (R347, R353). -/
def State.opcodeCheck (s : State) (q : Nat) (p : Params) : Check :=
  failIf (!knownOp p || (keyPrivileged p && !(q == 9 || (q == 8 && Config.keyWe s.now)))) stBadOpcode

/-- A descriptor that its queue accepts (R335, R478). -/
def indirectOk (q : Nat) (i : Indirect) : Bool :=
  q != 9 && i.rsvd == 0 && i.bytes % 4 == 0 && between 4 i.bytes 262116 && (q != 8 || decide (i.addr + i.bytes ≤ 1048576))

/-- Step 7 (R44, R46, R52, R335). -/
def State.headerCheck (s : State) (q : Nat) (h : Hdr) (p : Params) : Check :=
  let col := (rowOf p).sched
  failIf (h.rsvd != 0 || !h.indirect.all (indirectOk q) || (h.sched && (col == .no || (col == .frame && h.line != 1) ||
    !((s.raster? h.raster).any fun r => between 1 h.line r.desc.totalLines)))) stBadParam

/-- Until stage 5 ends, self-test and training hold the blocks (R504). -/
def State.startingUp (s : State) : Bool :=
  s.sys.stage == .s1 || s.sys.stage == .s2 || s.sys.stage == .s3 || s.sys.stage == .s4 || s.sys.stage == .s5

/-- A result descriptor that its queue accepts (R350, R351, R478). -/
def resOk (q : Nat) (r : Res) : Bool :=
  r.rsvd == 0 && r.bytes % 4 == 0 && between 4 r.bytes 1048576 &&
  (if q = 9 then r.addr == 0 && decide (r.bytes ≤ 720) else if q = 8 then decide (r.addr + r.bytes ≤ 1048576) else true)

/-- The first part of step 8: mode, Parameter Store recall, start-up, a MATE, LENGTH and the result descriptor. -/
def State.modeCheck (s : State) (q : Nat) (pk : Packet) : Check :=
  let row := rowOf pk.params
  failIf (!permitted row.perm s.sys.mode q || (s.bootRom && !bootServes pk.params)) stNotInMode
  <|> failIf (s.sys.nvRecalling && usesStore pk.params) stNvRecalling
  <|> failIf (row.perm.config && s.startingUp) stBusy 7
  <|> failIf (s.isMate && row.pair == .s) stBusy 3
  <|> failIf (!lengthOk pk) stBadLength
  <|> failIf (!(resOf pk.params).all (resOk q)) stBadParam

/-! ### Execution -/

/-- A command as it runs: the record that its replies and its job are made from. -/
def runOf (q : Nat) (pk : Packet) : Job :=
  { id := 0, kind := .event, queue := q, seq := pk.hdr.seq, tag := pk.hdr.tag, early := pk.hdr.earlyAck, hdr := pk.hdr, params := pk.params }

def ctxOf (j : Job) : Ctx := ⟨j.queue, j.hdr⟩

/-- A result that does not fit its descriptor fails the command (R350). -/
def roomCheck (r : Res) (bs : List Byte) : Check := failIf (decide (r.bytes < bs.length)) stBadParam (min 0xFFFF (ceilDiv bs.length 16))

/-- The failure that an answer carries. -/
def ansCheck : Ans → Check
  | .fail st d => some (st, d)
  | .result _ r bs => roomCheck r bs
  | .later _ _ _ _ (some (r, bs)) => roomCheck r bs
  | _ => none

/-- The user kind under which a refusal of the Weir is counted (Table 19.2). -/
def refusedKind : Params → Nat
  | .bufCreate _ => 3
  | _ => 0

def State.countRefusal (s : State) (q : Params) (st : Nat) : State :=
  if st = stLedgerExhausted then s.count 8 (refusedKind q) 1 else s

/-- A command ends here: its final reply, and it is done (R336, R343). -/
def State.finish (s : State) (b : Job) (st detail : Nat) (ras : Option Nat) : State :=
  s.complete { b with id := s.nextJob, sched := false } st detail ras

/-- A command fails with no effect (R23). -/
def State.refuse (s : State) (b : Job) (e : Nat × Nat) : State := (s.countRefusal b.params e.1).finish b e.1 e.2 none

/-- ACCEPTED at the execution point (R336), with the position given. -/
def State.early (s : State) (b : Job) (pos : Nat) : State :=
  if b.early && !b.silent then
    s.post b.queue { seq := b.seq, tag := b.tag, status := stAccepted, detail := 0, position := pos, stc := s.stc % 2 ^ 48 }
  else s

/-- What an immediate take or recall does once it is a job. -/
def afterAdd (j : Job) (s : State) : State :=
  match j.params with
  | .routeTake _ => s.dueTake j.id
  | .presetRecall p => applyPresetRecall j p s
  | _ => s

/-- An immediate command's answer takes effect. -/
def State.answer (s : State) (b : Job) (a : Ans) : State :=
  match ansCheck a with
  | some e => s.refuse b e
  | none =>
    match a with
    | .done s1 ras => s1.finish b stOk 0 ras
    | .result s1 r bs => s1.finish { b with res := some r, result := bs } stOk 0 none
    | .later s1 kind ras aux res =>
      let j := { b with id := s1.nextJob, kind := kind, raster := ras, aux := aux, deadline := barrierDeadline s1.now b.params,
                        frame := if kind = .exec then aux.head? else none, line := if kind = .exec then aux.getD 1 1 else 1,
                        res := res.map (·.1), result := (res.map (·.2)).getD [] }
      afterAdd j ((s1.early b (s1.position (some ras))).addJob j)
    | .silent s1 => s1
    | .fail _ _ => s

/-- An action becomes resident as `j`, for its frame (R51); ACCEPTED gives the position it will use (R54, Table 2.6). -/
def State.reside (s : State) (b : Job) (f : Nat) : State :=
  let h := b.hdr
  let s1 := planOf (ctxOf b) s.nextJob b.params s
  let s2 := (s1.early b (posField h.raster f h.line)).addJob
    { b with kind := .apply, sched := true, raster := h.raster, frame := some f, line := h.line, armLines := cancelLines b.params s, preset := recallCopy b.params s,
             aux := if s.sys.mode = .quiet then [1] else [] }
  if b.silent then s2 else s2.markDone b.queue b.seq

/-- Step 9 and residency: the checks, the table's room, lateness (R51 to R54). -/
def State.scheduleCheck (s : State) (b : Job) : Check :=
  checkOf (ctxOf b) b.params s
  <|> failIf (decide (16384 ≤ s.resident)) stNoResource
  <|> failIf (s.target b.hdr.raster b.hdr.frame b.hdr.line (armingOf b.params s) b.hdr.reject).isNone stLate

def State.schedule (s : State) (b : Job) : State :=
  match s.scheduleCheck b with
  | some e => s.refuse b e
  | none => s.reside b ((s.target b.hdr.raster b.hdr.frame b.hdr.line (armingOf b.params s) b.hdr.reject).getD 0)

/-! ### A pair (R386, R387) -/

/-- A CMD message: the command is forwarded under the next residency index. -/
def State.forward (s : State) (b : Job) (raster frame line : Nat) (aux : List Nat) : State :=
  (({ s with pair := { s.pair with nextRix := s.pair.nextRix + 1, forwarded := s.pair.forwarded + 1 } }).count 13 0 5).emit
    (.brinen 2 ([s.pair.nextRix, raster, frame, line, b.queue, b.seq, (rowOf b.params).opcode] ++ aux))

/-- The handle that a BUF_CREATE carries. -/
def handleOf (q : Params) (a : Ans) : List Nat :=
  match q, a with
  | .bufCreate _, .result _ _ bs => [leNat bs]
  | _, _ => []

/-- An S command on a LEAD that runs with its MATE. -/
def State.lead (s : State) (b : Job) : State :=
  let rix := s.pair.nextRix
  if b.hdr.sched then
    match s.scheduleCheck b with
    | some e => s.refuse b e
    | none =>
      let f := (s.target b.hdr.raster b.hdr.frame b.hdr.line (armingOf b.params s) b.hdr.reject).getD 0
      (s.reside { b with rix := some rix, committed := false } f).forward b b.hdr.raster f b.hdr.line []
  else
    let a := startOf (ctxOf b) b.params s
    match ansCheck a with
    | some e => s.refuse b e
    | none =>
      let (f, l) := s.stamp (4 * b.hdr.length)
      let hs := handleOf b.params a
      ((s.early b (s.position (some 0))).addJob { b with kind := .exec, frame := some f, line := l, aux := hs, rix := some rix, committed := false }).forward b 0 f l hs

/-- A stamped command executes at its line, on either member (R387). DESIGN CHOICE (assumption 39): its checks on state run here again, on
both members, after those that the LEAD made when it validated the command. So a SCHED_CANCEL is judged against the arming point of R55 at
the LEAD's validation and at its stamped line, where R55 does not say which counts in a pair. -/
def State.execute (s : State) (j : Job) : State :=
  let s1 := { s with jobs := s.jobs.filter fun x => x.id != j.id }
  let b := { j with early := false, rix := none, committed := true, frame := none, line := 1, aux := [] }
  match j.params, j.aux with
  | .bufCreate p, h :: _ => s1.answer b (startBufCreateAt h p s1)
  | q, _ => s1.answer b (startOf (ctxOf b) q s1)

/-- A validated packet executes, becomes resident, or is stamped. -/
def State.run (s : State) (b : Job) : State :=
  if s.isLead && (rowOf b.params).pair == .s then s.lead b
  else if b.hdr.sched then s.schedule b
  else s.answer b (startOf (ctxOf b) b.params s)

/-- Queue `q` enters ERROR (Table 12.6, source 2 of Table 18.2). -/
def State.queueError (s : State) (q cause : Nat) : State :=
  (s.setQueue q { s.queue q with error := true, errCause := cause }).fire 2

/-- A queue of 0 to 8 that reads a malformed header enters ERROR (R330). -/
def State.malformed (s : State) (q : Nat) (h : Hdr) : State :=
  if q < 9 && (h.version != 1 || decide (h.length < 6)) then s.queueError q 1 else s

/-- A fetched packet (R339): its checks in order, then its execution. During a restart queue 9 answers BUSY (R342). -/
def State.runPacket (s : State) (q : Nat) (pk : Packet) : State :=
  let b := runOf q pk
  if q = 9 && s.sys.restart then s.refuse b (stBusy, 0)
  else match frameCheck q pk.hdr with
  | some e => (s.refuse b e).malformed q pk.hdr
  | none =>
    match s.authCheck q pk.hdr pk.params with
    | some e => s.refuse b e
    | none =>
      let s1 := s.noteSeq q pk.hdr
      match s1.opcodeCheck q pk.params <|> s1.headerCheck q pk.hdr pk.params <|> s1.modeCheck q pk with
      | some e => s1.refuse b e
      | none => s1.run b

/-! ### Fetching (R327, R329, R332) -/

/-- Bytes of a queue's ring. -/
def State.ringBytes (s : State) (q : Nat) : Nat := if q = 8 then s.hub.sqSize8 else 131072

/-- Bytes of a packet in its ring: a header is read whole before its LENGTH is known. -/
def ringSize (pk : Packet) : Nat := max 24 (4 * pk.hdr.length)

/-- Replies still to come on a queue: of jobs, and those held. -/
def State.owedReplies (s : State) (q : Nat) : Nat :=
  (s.queue q).heldReplies.length + (s.jobs.filter fun j => j.queue == q && !j.silent).length

/-- Replies a packet can produce. -/
def repliesOf (pk : Packet) : Nat := if pk.hdr.earlyAck then 2 else 1

/-- The completion ring has an entry for each reply (R329). -/
def State.ringRoom (s : State) (q : Nat) (pk : Packet) : Bool :=
  decide ((s.queue q).entries.length + s.owedReplies q + repliesOf pk ≤ 2 ^ (s.queue q).cqSize)

/-- The SPI FIFO has places for two replies, and for a packet's replies with its result records (R332, R351). -/
def State.fifoRoom (s : State) (pk : Packet) : Bool :=
  decide (s.spi.fifo.length + max 2 (repliesOf pk + ceilDiv (((resOf pk.params).map (·.bytes)).getD 0) 24) ≤ 32)

/-- The tail covers the packet at the head (R327). -/
def State.covered (s : State) (q : Nat) (pk : Packet) : Bool :=
  let x := s.queue q
  let z := s.ringBytes q
  decide (ringSize pk ≤ (x.sqTail + z - x.sqHead % z) % z)

/-- The device fetches the next packet of queue 9. -/
def State.fetchSpi (s : State) : State :=
  match s.spi.buffer with
  | none => s
  | some pk =>
    if s.fetches 9 && !s.holds 9 && s.fifoRoom pk then ({ s with spi := { s.spi with buffer := none } }).runPacket 9 pk else s

/-- QUEUE_FETCH (R327, R329). -/
def State.fetchOne (s : State) (q : Nat) : State :=
  if q = 9 then s.fetchSpi
  else
    let x := s.queue q
    match x.ring with
    | [] => s
    | pk :: rest =>
      if !(s.fetches q && x.enable && !x.error && !s.holds q && s.covered q pk) then s
      else if !s.ringRoom q pk then s.setQueue q { x with stall := true }
      else (s.setQueue q { x with ring := rest, stall := false, sqHead := (x.sqHead + ringSize pk) % s.ringBytes q }).runPacket q pk

/-- The host writes a packet into its ring and rings the doorbell with the byte after it (R326). -/
def State.place (s : State) (q : Nat) (pk : Packet) : State :=
  let x := s.queue q
  s.setQueue q { x with ring := x.ring ++ [pk], sqTail := (x.sqTail + ringSize pk) % s.ringBytes q }

/-- WRITE_PACKET (Tables 12.8 and 12.9). -/
def State.takeSpi (s : State) (pk : Packet) (bytes : Nat) (crcOk : Bool) : State :=
  if !s.rxReady then { s with spi := { s.spi with overrun := true } }
  else if !crcOk || bytes != 4 * pk.hdr.length + 4 then { s with spi := { s.spi with crcErr := true } }
  else ({ s with spi := { s.spi with buffer := some pk } }).fetchSpi

/-- The sender of a queue reaches it. -/
def State.senderOk (s : State) (q : Nat) : Bool := if q = 9 then s.sys.stage != .inReset else if q = 8 then s.cpbOk else s.hostOk

/-- A command reaches the device on the queue that its header names; it runs at once where the queue can fetch it. -/
def State.submitted (s : State) (p : Params) (h : Hdr) : State :=
  let pk : Packet := ⟨h, p⟩
  if !(decide (h.queue < 10) && s.senderOk h.queue) then s
  else if h.queue = 9 then s.takeSpi pk (4 * h.length + 4) true
  else
    let s1 := s.place h.queue pk
    if (s.queue h.queue).ring.isEmpty then s1.fetchOne h.queue else s1

/-- A packet row: time reaches the tick at which the command arrives, and the command is handled. -/
def submit (p : Params) (t : Tick) (h : Hdr) (s : State) : State := ((s.enter t).submitted p h).settleLink

/-! ### Registers of the queues -/

/-- SQ_TAIL and Q8_SQ_TAIL: the packets that the sender has written, then its doorbell (R326), whose reserved bits have no effect (R15). -/
def doSqTail (q value : Nat) (written : List Packet) (s : State) : State :=
  if !(decide (q < 9) && s.senderOk q) then s
  else
    let x := s.queue q
    let v := value % 2 ^ 17
    if v % 4 != 0 || decide (s.ringBytes q ≤ v) then s.setQueue q { x with ring := x.ring ++ written, dbErr := true }
    else s.setQueue q { x with ring := x.ring ++ written, sqTail := v }

/-- CQ_HEAD and Q8_RR_HEAD: consumed entries are freed, and held replies follow (R328, R330). -/
def doCqHead (q value : Nat) (s : State) : State :=
  if !(decide (q < 9) && s.senderOk q) then s
  else
    let x := s.queue q
    let z := 2 ^ x.cqSize
    let freed := (value + z - x.cqHead % z) % z
    let s1 := s.setQueue q { x with cqHead := value % z, entries := x.entries.drop freed, stall := x.stall && freed == 0 }
    s1.flushReplies q (s1.queue q).heldReplies

/-- Q_CTRL with ENABLE 1 (R330). -/
def doQueueEnable (q : Nat) (irqEn : Bool) (vector : Nat) (s : State) : State :=
  if !(decide (q < 9) && s.senderOk q) then s
  else
    let s1 := s.setQueue q { s.queue q with enable := true, irqEn := irqEn, vector := if q = 8 then 0 else vector }
    s1.flushReplies q (s1.queue q).heldReplies

/-- Q_CTRL with ENABLE 0 (R330). -/
def doQueueDisable (q : Nat) (irqEn : Bool) (vector : Nat) (s : State) : State :=
  if !(decide (q < 9) && s.senderOk q) then s
  else (s.setQueue q { s.queue q with irqEn := irqEn, vector := if q = 8 then 0 else vector }).disableQueue q

/-- Q_CTRL with RESUME (R345). -/
def doQueueResume (q : Nat) (s : State) : State :=
  let x := s.queue q
  if decide (q < 9) && s.senderOk q && x.error && x.errCause == 2 then s.setQueue q { x with error := false, errCause := 0 } else s

/-- A 4-byte read of STC[31:0] latches the high half (Table 12.3). -/
def doStcLow (s : State) : State :=
  if s.hostOk then ({ s with hub := { s.hub with stcLatch := s.stc / 2 ^ 32 } }).emit (.read (s.stc % 2 ^ 32)) else s

/-- Bits of a register replaced by a write of `size` bytes at byte `at_` of it. -/
def patchBits (old at_ size value : Nat) : Nat :=
  let low := old % 2 ^ (8 * at_)
  low + value % 2 ^ (8 * size) * 2 ^ (8 * at_) + old / 2 ^ (8 * (at_ + size)) * 2 ^ (8 * (at_ + size))

/-- A write to BAR0 (R324, R325): CQ_BASE and CQ_SIZE of a disabled queue, and the MSI-X table. -/
def hostWrite (off size value : Nat) (s : State) : State :=
  if between 0x100 off 0x2FF then
    let q := (off - 0x100) / 0x40
    let r := (off - 0x100) % 0x40
    let x := s.queue q
    if x.enable then s
    else if 8 ≤ r && r + size ≤ 16 then
      let v := patchBits x.cqBase (r - 8) size value % 2 ^ 64
      if v % 4096 = 0 then s.setQueue q { x with cqBase := v } else s
    else if r = 16 && between 6 (value % 16) 12 then s.setQueue q { x with cqSize := value % 16 }
    else s
  else if between 0xE000 off 0xE3FF then
    let w := (off - 0xE000) / 4
    let put (w v : Nat) (s : State) : State :=
      { s with hub := { s.hub with msix := fset (b2n (w % 4 == 3)) s.hub.msix w v } }
    if size = 8 then put (w + 1) (value / 2 ^ 32 % 2 ^ 32) (put w (value % 2 ^ 32) s) else put w (value % 2 ^ 32) s
  else s

/-- A vector that the host unmasks sends its pending message (as the base specification defines). -/
def State.unmasked (s : State) : State :=
  State.each (fun v s => if s.vectorMasked v then s
    else ({ s with hub := { s.hub with pba := fset false s.hub.pba v false } }).msixSend v) (tkeys (fun _ b => b) s.hub.pba) s

/-- A power of two from 4,096 to 131,072. -/
def ringSizeOk (v : Nat) : Bool := [12, 13, 14, 15, 16, 17].any fun k => v == 2 ^ k

/-- A write to the registers of queue 8 that have no row of their own (Table 18.1). -/
def cpbWrite (off value : Nat) (s : State) : State :=
  let x := s.queue 8
  if x.enable then s
  else match off with
  | 0x20000000 => if value % 256 = 0 then { s with hub := { s.hub with sqBase8 := value % 2 ^ 32 } } else s
  | 0x20000004 => if ringSizeOk value then { s with hub := { s.hub with sqSize8 := value } } else s
  | 0x20000010 => if value % 32 = 0 then { s with hub := { s.hub with rrBase8 := value % 2 ^ 32 } } else s
  | 0x20000014 => if between 4 (value % 16) 12 then s.setQueue 8 { x with cqSize := value % 16 } else s
  | _ => s

/-- REGISTER_WRITE: aligned writes of 4 or 8 bytes; anything else is ignored (R324). -/
def doRegisterWrite (cpb : Bool) (off size value : Nat) (s : State) : State :=
  if !((size == 4 || size == 8) && off % size == 0) then s
  else if cpb then (if s.cpbOk then cpbWrite off value s else s)
  else if s.hostOk then (hostWrite off size value s).unmasked else s

/-! ### The management SPI port -/

/-- READ_REPLY: the oldest entry leaves the FIFO once all its 24 bytes are clocked out (Table 12.8). -/
def doReadReply (clocked : Nat) (s : State) : State :=
  if s.sys.stage = .inReset then s
  else match s.spi.fifo with
  | [] => s.emit (.spi (List.replicate (min clocked 24) 0xFF))
  | r :: rest =>
    (if 24 ≤ clocked then { s with spi := { s.spi with fifo := rest } } else s).emit (.spi (r.take clocked))

/-- READ_STATUS clears the sticky bits (Table 12.9). -/
def doReadStatus (s : State) : State :=
  if s.sys.stage = .inReset then s
  else ({ s with spi := { s.spi with overrun := false, crcErr := false } }).emit (.spi (leBytes 1 s.spiStatus))

/-! ### BARRIER (R344, R345) -/

/-- The barrier that queue `q` waits on. -/
def State.barrier? (s : State) (q : Nat) : Option (Job × BarrierP) :=
  (s.barrierJob q).bind fun j => match j.params with
    | .barrier p => some (j, p)
    | _ => none

/-- BARRIER_RELEASE: the conditions are met. -/
def doBarrierRelease (q : Nat) (s : State) : State :=
  match s.barrier? q with
  | some (j, p) => if s.barrierMet p then s.complete j stOk 0 none else s
  | none => s

/-- BARRIER_TIMEOUT. -/
def doBarrierTimeout (q : Nat) (s : State) : State :=
  match s.barrier? q with
  | some (j, _) =>
    if j.deadline.any fun t => decide (t ≤ s.now) then
      let s1 := s.complete j stCancelled 2 none
      if q < 9 then s1.queueError q 2 else s1
    else s
  | none => s

/-! ### Forwarded commands (R386, R387, R401, R403) -/

def State.byRix (s : State) (rix : Nat) : Option Job := s.jobs.find? fun j => j.rix == some rix

/-- The command of a CMD message as the MATE runs it: silent, uncommitted. -/
def runOfCmd (m : CmdBody) : Job :=
  { runOf m.packet.hdr.queue m.packet with silent := true, early := false, rix := some m.rix, committed := false }

/-- What a forwarded command answers here: a BUF_CREATE takes the LEAD's handle (R387). -/
def State.forwardedAns (s : State) (m : CmdBody) (b : Job) : Ans :=
  match b.params with
  | .bufCreate p => startBufCreateAt m.handle p s
  | q => startOf (ctxOf b) q s

/-- A forwarded command is validated, and waits for its COMMIT; the VERDICT goes back. -/
def State.mateCmd (s0 : State) (m : CmdBody) : State :=
  let b := runOfCmd m
  let s := ({ s0 with pair := { s0.pair with nextRix := m.rix + 1, forwarded := s0.pair.forwarded + 1 } }).count 13 0 5
  if b.hdr.sched then
    match checkOf (ctxOf b) b.params s with
    | some (st, _) => s.emit (.brinen 3 [m.rix, st])
    | none => (s.reside b m.frame).emit (.brinen 3 [m.rix, stAccepted])
  else
    let a := s.forwardedAns m b
    match ansCheck a with
    | some (st, _) => s.emit (.brinen 3 [m.rix, st])
    | none =>
      (s.addJob { b with kind := .exec, raster := m.raster, frame := some m.frame, line := m.line, aux := handleOf b.params a }).emit
        (.brinen 3 [m.rix, stOk])

/-- CMD: a MATE that is apart keeps it until the snapshot has been applied (Table 14.10). -/
def doCmd (m : CmdBody) (s : State) : State :=
  if s.pair.role ≠ .mate then s
  else if s.pair.sync = .apart then
    (if s.pair.after.any fun x => x.rix == m.rix then s else s.setPair { s.pair with after := s.pair.after ++ [m] })
  else if m.rix < s.pair.nextRix then s
  else s.mateCmd m

/-- VERDICT reaches the LEAD. -/
def doVerdict (rix status : Nat) (s : State) : State :=
  match s.byRix rix with
  | some j => if s.pair.role = .lead && !j.committed && j.verdict.isNone then s.setJob { j with verdict := some status } else s
  | none => s

/-- A command that neither member applies gives back what it reserved. -/
def State.withdrawn (s : State) (j : Job) : State := if j.kind = .apply then releaseOf j s else s

/-- COMMIT_POINT: two lines before the execution position. -/
def doCommitPoint (rix : Nat) (s : State) : State :=
  match s.byRix rix with
  | some j =>
    let early := (s.raster? j.raster).any fun p => j.frame.any fun f => p.onTime f j.line 2
    if s.pair.role ≠ .lead || j.committed || early then s
    else match j.verdict with
      | some st =>
        if st = stOk ∨ st = stAccepted then (s.setJob { j with committed := true }).emit (.brinen 4 [rix, 1])
        else ((s.withdrawn j).emit (.brinen 4 [rix, 0])).complete j stPairDiverged st (some j.raster)
      | none => ((s.withdrawn j).emit (.brinen 4 [rix, 0])).complete j stLate 3 (some j.raster)
  | none => s

/-- COMMIT at the MATE. -/
def doCommit (rix : Nat) (commit : Bool) (s : State) : State :=
  match s.byRix rix with
  | some j =>
    if s.pair.role ≠ .mate then s
    else if commit then s.setJob { j with committed := true }
    else let s1 := s.withdrawn j
         { s1 with jobs := s1.jobs.filter fun x => x.id != j.id }
  | none => s

/-- HANDOVER: the MATE takes over at the stamped line. -/
def doHandover (rix raster frame line : Nat) (s : State) : State :=
  if s.isMate && rix ≥ s.pair.nextRix && !(s.byRix rix).isSome then
    s.addJob { id := 0, kind := .exec, queue := 0, seq := 0, tag := 0, silent := true, raster := raster, frame := some frame, line := line,
               params := .sysRestart { kind := 0 }, rix := some rix }
  else s

/-- The MATE becomes LEAD with authority, in lockstep (Table 14.1, R403), until the partner's FC says that it is apart. -/
def State.takeOver (s : State) (j : Job) : State :=
  let s1 := { s with jobs := s.jobs.filter fun x => x.id != j.id, pair := { s.pair with role := .lead, authority := true } }.fire 977
  s1.goOn

/-- One item of the snapshot takes effect at once; a frame-bound setting does not wait for its frame start. A task's engines load the
version that the snapshot gives (R401). -/
def State.snapItem (m : CmdBody) (s : State) : State :=
  let b := { runOfCmd m with rix := none, committed := true }
  if b.hdr.sched then s.reside b m.frame
  else
    let a := s.forwardedAns m b
    let id := s.nextJob
    let s1 := s.answer b a
    let s2 := State.each (fun j s => if id ≤ j.id && j.kind == .apply && j.frame.isNone then applyOf j s else s) s1.jobs s1
    match b.params with
    | .kernelBind p => if m.version = 0 then s2
        else State.each (fun e s => s.setEngine e { s.engine e with version := m.version }) (gangOf p) s2
    | _ => s2

/-- The snapshot is applied at a house A frame start, and then the commands behind it (Table 14.10). -/
def State.applySnapshot (s : State) : State :=
  if s.pair.role = .mate && s.pair.sync = .apart && s.pair.snapReady then
    let items := s.pair.snapshot
    let late := s.pair.after.filter fun m => decide (s.pair.snapRix < m.rix)
    let s1 := s.setPair { s.pair with snapshot := [], snapReady := false, after := [], nextRix := s.pair.snapRix }
    let s2 := State.each State.snapItem items s1
    let s3 := s2.beginResync.fire 980
    State.each (fun m s => s.mateCmd m) late s3
  else s

end Sys2Proof.Machine
end

