-- ==== Sys2Proof/Machine/Reads.lean ====
section
/-! DEFINITION. What a read of a register returns: BAR0 for the host (Table 12.3) and the map of CP_B (Table 18.1). Reads change nothing, but for the
one of STC[31:0] that has a row of its own; write-only and reserved bits, and unassigned offsets, read 0 (R15, R324). -/

namespace Sys2Proof.Machine

/-- Half `i` of an 8-byte register, low half first. -/
def half (v i : Nat) : Nat := v / 2 ^ (32 * i) % 2 ^ 32

/-- Word `i` of EVT_PEND and PEND: the sources presented to a target. -/
def State.pendWord (s : State) (target i : Nat) : Nat :=
  total (fun j => if s.presentedTo target (32 * i + j) then 2 ^ j else 0) (List.range 32)

/-- Q_CTRL and Q8_CTRL as they read (Table 12.5): RESUME is write-only. -/
def State.qCtrl (s : State) (q : Nat) : Nat :=
  let x := s.queue q
  b2n x.irqEn * 2 ^ 16 + x.vector * 2 ^ 8 + b2n x.enable

/-- Word `r` of a queue's register block. -/
def State.queueWord (s : State) (q r : Nat) : Nat :=
  let x := s.queue q
  match r with
  | 0 => x.sqTail
  | 1 => x.sqHead
  | 2 => half x.cqBase 0
  | 3 => half x.cqBase 1
  | 4 => x.cqSize
  | 5 => x.cqHead
  | 6 => x.cqTail
  | 7 => s.qCtrl q
  | 8 => s.qStatus q
  | 9 => x.lastSeq.toNat
  | _ => 0

/-- Word `r` of a counter latch, from CNT_SEL. -/
def CntLatch.word (x : CntLatch) (r : Nat) : Nat :=
  let v := x.value + b2n x.ovf * 2 ^ 48
  match r with
  | 0 => x.sel
  | 2 => half v 0
  | 3 => half v 1
  | 4 => half x.stc.toNat 0
  | 5 => half x.stc.toNat 1
  | _ => 0

/-- Word `w` of the pending-bit array. -/
def State.pbaWord (s : State) (w : Nat) : Nat := total (fun j => if fget false s.hub.pba (32 * w + j) then 2 ^ j else 0) (List.range 32)

/-- The 4-byte word of BAR0 at word offset `w`: `whole` when both halves of an 8-byte register are sampled together, so that the high half of
STC is not the latched one. -/
def State.hostWord (s : State) (whole : Bool) (w : Nat) : Nat :=
  if w = 0 then 0x05121D8B
  else if w = 1 then 0x00010100
  else if w = 2 then s.devStatus
  else if w = 4 then half s.stc 0
  else if w = 5 then (if whole then half s.stc 1 else s.hub.stcLatch)
  else if between 0x40 w 0xBF then s.queueWord ((w - 0x40) / 16) ((w - 0x40) % 16)
  else if between 0x200 w 0x21F then s.pendWord 2 (w - 0x200)
  else if w = 0x220 then s.hub.claimHost
  else if between 0x400 w 0x405 then s.hub.latchHost.word (w - 0x400)
  else if between 0x3800 w 0x38FF then fget (b2n ((w - 0x3800) % 4 == 3)) s.hub.msix (w - 0x3800)
  else if between 0x3C00 w 0x3C01 then s.pbaWord (w - 0x3C00)
  else 0

/-- A host read of `size` bytes at `off` of BAR0 (R324): an aligned word or pair of words, or the addressed bytes of a word. -/
def State.hostRead (s : State) (off size : Nat) : Nat :=
  if size = 8 && off % 8 = 0 then s.hostWord true (off / 4) + 2 ^ 32 * s.hostWord true (off / 4 + 1)
  else s.hostWord false (off / 4) / 2 ^ (8 * (off % 4)) % 2 ^ (8 * min size 4)

/-- TIMER_CTRL as it reads. -/
def State.timerCtrl (s : State) : Nat := b2n s.hub.armed + 2 * b2n s.hub.fired

/-- GPIO_OUT as it reads: the levels of output pins that CP_B owns. -/
def State.gpioOut (s : State) : Nat := s.gpioMask fun x => x.cpb && x.dir != 0 && x.level

/-- GPIO_EDGE_STC of a pin. -/
def Gpio.edge (x : Gpio) : Nat := x.edgeStc + b2n x.edgeLevel * 2 ^ 48

/-- The word of a register of CP_B's map at `a` (Table 18.1). -/
def State.cpbRegWord (s : State) (a : Nat) : Nat :=
  let x := s.queue 8
  match a with
  | 0x20000000 => s.hub.sqBase8
  | 0x20000004 => s.hub.sqSize8
  | 0x20000008 => x.sqTail
  | 0x2000000C => x.sqHead
  | 0x20000010 => s.hub.rrBase8
  | 0x20000014 => x.cqSize
  | 0x20000018 => x.cqHead
  | 0x2000001C => x.cqTail
  | 0x20000020 => s.qCtrl 8
  | 0x20000024 => s.qStatus 8
  | 0x20000028 => x.lastSeq.toNat
  | 0x20001080 => s.hub.claimB
  | 0x20002000 => half s.stc 0
  | 0x20002004 => half s.stc 1
  | 0x20002008 => half s.hub.timecmp 0
  | 0x2000200C => half s.hub.timecmp 1
  | 0x20002010 => s.timerCtrl
  | 0x20003000 => s.gpioMask Gpio.pin
  | 0x20003004 => s.gpioOut
  | 0x20003008 => s.gpioMask fun g => g.cpb
  | _ =>
    if between 0x20001000 a 0x2000107F then s.pendWord 1 ((a - 0x20001000) / 4)
    else if between 0x20003040 a 0x200030BF then half (s.gpio ((a - 0x20003040) / 8)).edge ((a - 0x20003040) / 4 % 2)
    else if between 0x20004000 a 0x20004017 then s.hub.latchB.word ((a - 0x20004000) / 4)
    else 0

/-- A read of CP_B that its map accepts: SRAM bytes, or one or two words of a register (R477). -/
def State.cpbRead (s : State) (a size : Nat) : Nat :=
  if a + size ≤ 1048576 then leNat (mread zeroByte s.hub.sram a size)
  else if size = 8 then s.cpbRegWord a + 2 ^ 32 * s.cpbRegWord (a + 4)
  else s.cpbRegWord a

end Sys2Proof.Machine
end

