-- ==== Sys2Proof/Machine/Timing.lean ====
section
/-! DEFINITION. What a timing generator's line start does (R33), the order of an output frame start (R22), relations and extensions of
output rasters (R40, R41), and the actions due at a position (R28, R52). -/

namespace Sys2Proof.Machine

/-! ### Actions due at a position -/

/-- Actions bound to the frame start of an engine task, not to a raster line. -/
def eoBound : Params → Bool
  | .kernelUpdate _ | .engineMigrate _ => true
  | _ => false

/-- The job waits for a line start of raster `r`. -/
def waitsOn (r : Nat) (j : Job) : Bool :=
  j.raster == r && j.committed && (j.kind == .apply || j.kind == .exec) && !eoBound j.params

/-- The position has passed: a line that a STEP cut (R36), or a stamp that reached a MATE late. -/
def duePast (r f line : Nat) (j : Job) : Bool :=
  waitsOn r j && j.frame.any fun x => decide (x < f) || (x == f && decide (j.line < line))

/-- The position is this line start; a command bound to the next frame start has its position at line 1. -/
def dueHere (r f line : Nat) (j : Job) : Bool :=
  waitsOn r j && (match j.frame with
    | some x => x == f && j.line == line
    | none => line == 1)

def isStcSet : Params → Bool
  | .stcSet _ => true
  | _ => false

def isRasterSet : Params → Bool
  | .rasterSet _ => true
  | _ => false

def isRecall : Params → Bool
  | .presetRecall _ => true
  | _ => false

/-- The scheduled wake request of R355: a SYS_MODE that became resident in Quiet. -/
def State.wakeRequest (s : State) (j : Job) : Bool := s.sys.mode == .quiet && isWakeRequest j

/-- An action that falls due in Quiet: it gives back what it held, and completes CANCELLED after the wake (R513). -/
def State.park (s : State) (j : Job) : State := (releaseOf j s).setJob { j with kind := .parked }

/-- A job at its line, if it still waits there. -/
def State.runJob (s : State) (r id : Nat) : State :=
  match s.jobs.find? fun j => j.id == id with
  | none => s
  | some j =>
    if !waitsOn r j then s
    else if s.sys.quiet != .awake && !s.wakeRequest j then s.park j
    else if j.kind = .exec then
      match j.params with
      | .sysRestart _ => if s.pair.role = Role.mate then s.takeOver j else applyHandover j s
      | _ => s.execute j
    else applyOf j s

/-- The first job in residency order that a test picks and that has not run, again and again: of the jobs that became resident since, those of identifier
`from_` on, only the records of a recall that ran (R28, R158). -/
def State.runNext (r : Nat) (f : Job → Bool) (from_ : Nat) : Nat → List Nat → State → State
  | 0, _, s => s
  | n + 1, ran, s =>
    let mine (j : Job) : Bool := decide (j.id < from_) || (j.silent && j.aux.head?.any ran.contains)
    match firstPlaced (s.jobs.filter fun j => f j && !ran.contains j.id && mine j) with
    | none => s
    | some j => State.runNext r f from_ n (j.id :: ran) (s.runJob r j.id)

/-- The jobs that a test picks, in residency order, the records of a recall in its place; a preset holds at most 2,050 of them (R156). -/
def State.runThese (s : State) (r : Nat) (f : Job → Bool) : State :=
  s.runNext r f s.nextJob (s.jobs.length + 2050) []

/-- The STC_SETs due where raster `r` stands, those of cut lines first: they come before the other actions, so that every timestamp
from the line on carries the new offset (R36, R49). -/
def State.runStc (s : State) (r : Nat) : State :=
  match s.raster? r with
  | none => s
  | some p => (s.runThese r fun j => isStcSet j.params && duePast r p.frame p.line j).runThese r fun j =>
      isStcSet j.params && dueHere r p.frame p.line j

/-- The actions due where raster `r` stands: those whose lines were cut first, then those of this line (R28, R36). -/
def State.runDue (s : State) (r : Nat) : State :=
  match s.raster? r with
  | none => s
  | some p => ((s.runStc r).runThese r (duePast r p.frame p.line)).runThese r (dueHere r p.frame p.line)

/-- A position that raster `r` reaches at this tick or has reached, though the row of that line start may still come. -/
def State.reached (s : State) (r f l : Nat) : Bool :=
  match s.raster? r with
  | none => false
  | some p => decide (p.lineT' f l ≤ (s.now : Int))

/-- A command scheduled on another raster that changes output `n` at its first frame start at or after the named line (R137, R542). -/
def changesOutput (n : Nat) (q : Params) : Bool :=
  match q with
  | .routeTake _ | .presetRecall _ => true
  | .layerSet p => p.output == n
  | .compSet p => p.output == n
  | .staticSet p => p.output == n
  | _ => false

/-- The commands scheduled on other rasters at lines that start no later than now reach output `n`'s frame start. -/
def State.runReached (s : State) (n : Nat) : State :=
  State.each (fun (j : Job) s => s.runJob j.raster j.id)
    (s.jobs.filter fun j => j.sched && j.raster != 2 + n && waitsOn j.raster j && changesOutput n j.params &&
      j.frame.any fun f => s.reached j.raster f j.line) s

/-- The Millpond is out of self-refresh: not in Quiet, nor on the way out of it (R508). -/
def State.live (s : State) : Bool := s.sys.quiet == .awake || s.sys.quiet == .entering

/-! ### Engine outputs and playout readers as sources (R145) -/

/-- A local source that carries a frame starts it. -/
def State.startSource (s : State) (src : Nat) : State :=
  match (if s.srcPresent src then s.srcMark src else none) with
  | some (t, f, _) => s.startLocal src f t
  | none => s

/-- The local sources among `l` emit what is left of the frame that ends now: every line of it has ended by the next frame start, which the
clock rounds down to whole ticks. -/
def State.finishSources (s : State) (l : List Nat) : State := State.each (fun src s => s.advanceSource src (s.now + 2)) l s

/-- A frame start of raster `r`: the frames that end with it, then the choice of every playout reader timed by it. -/
def State.playSources (s : State) (r : Nat) : State :=
  if !s.live then s
  else
    let mine (x : State) : List Nat := x.localSources.filter fun src => decide (896 ≤ src) && x.timingOf src == some r
    let s1 := (s.finishSources (mine s)).playoutFrame r
    State.each (fun src s => s.startSource src) (mine s1) s1

/-- Bytes that a port moves in a pattern the spec does not give: their number is a free value (assumption 4). -/
def State.someTraffic (s : State) (port event : Nat) : State :=
  let (a, s1) := s.freeNat
  let (n, s2) := s1.freeNat
  s2.traffic port event a n

/-- Fallback frames and blocks of a frame that FRC_MC makes between two units (R241). -/
def State.countFallbacks (s : State) (e : Nat) : State :=
  match (s.task e).bind fun t => t.made.head?.map fun m => (t, m) with
  | some (t, m) => (match m.block, m.a, m.b, s.histBuf t with
    | .frcMc k, some a, some q, some b =>
      if m.present then
        let (frames, blocks) := fallbackCounts k (s.engine e).version (s.slotPic b a.slot) (s.slotPic b q.slot)
        (s.count 6 e 7 frames).count 6 e 8 blocks
      else s
    | _, _, _, _ => s)
  | none => s

/-- ENGINE_FRAME_START: the frame before ends, the task takes its frame, and its output is a source that starts. -/
def engineStart (e : Nat) (s : State) : State :=
  let s1 := doEngineFrame e ((s.advanceSources s.now).finishSources [512 + 2 * e])
  let moved := s1.engines.tasks.filterMap fun x => x.2.bind fun (t : Task) =>
    if (fget none s.engines.tasks x.1).any fun (o : Task) => o.started && o.eoT == t.eoT && o.frame == t.frame then none
    else if t.present then some (x.1, capturedKernel t.p.block) else none
  State.each (fun (x : Nat × Bool) s =>
    let s1 := s.startSource (512 + 2 * x.1)
    if x.2 then (s1.countFallbacks x.1).someTraffic (5632 + x.1) 0 else s1) moved s1

/-! ### Classes of engine inputs that a LEAD sets (R142, R216) -/

/-- The decision of a LEAD for frame `f` of a destination is kept and sent. -/
def State.decideClass (s : State) (dest f : Nat) (cls : Cls) (pick : Option Nat) (run : Nat) : State :=
  let x := (pick.map (· + 1)).getD 0
  let keep := s.pair.received.filter fun y => !(y.kind == 0 && y.unit == dest && decide (y.key + 8 ≤ f))
  (s.setPair { s.pair with received := { kind := 0, unit := dest, key := f, value := cls.code, extra := x, run := run } :: keep }).emit
    (.brinen 5 [dest, f, cls.code, x])

/-- The frame of raster `r` whose position `n` lines before line 1 is where the raster stands. -/
def Standing.frameAhead (p : Standing) (n : Nat) : Option Nat :=
  let (a, m) := linesBefore 0 1 n p.desc.totalLines
  if p.line = m then some ((p.frame : Int) - a).toNat else none

/-- The LEAD's class for one input of a task, frame `f` of its output. -/
def State.leadInput (s : State) (t : Task) (p : Standing) (f dest : Nat) : State :=
  let v := s.seen
  match v.route dest with
  | none => s
  | some r =>
    if capturedKernel t.p.block then
      let cut := v.srcPresent r.src && (v.judgeAt dest r s.now 32 none).formatOk
      s.decideClass dest f (if cut then .cut else .none) none 0
    else
      let r1 := v.judgeAt dest r (p.lineT' f 1 - t.p.outAdv - t.added) 32 none
      let pick := if r1.cls = .sync then r1.resv.bind fun v => pickFrame v.done v.stopT r1.extra r1.last s.now else none
      s.decideClass dest f r1.cls pick r1.run

/-- A line start of raster `r` on a LEAD: the classes of the engine inputs whose deciding line it is. DESIGN CHOICE (assumption 15): R142 names
the arming point of an output's frame start only; that of an engine input lies four lines of RASTER before t_in(F), and the CLASS message
carries the input's destination point as its output. -/
def State.leadInputs (s : State) (r : Nat) : State :=
  match (if s.runsPaired && s.isLead then s.raster? r else none) with
  | none => s
  | some p => State.each (fun (e : Nat × Option Task) s => match e.2 with
      | some t =>
        if t.p.raster = r then
          match p.frameAhead (s.armEo r (t.p.outAdv + if capturedKernel t.p.block then 0 else t.added) 4) with
          | some f =>
            let s1 := s.leadInput t p f (512 + 2 * e.1)
            if t.p.in1.g = 0 then s1 else s1.leadInput t p f (512 + secondPort e.1 t.p.in0.g t.p.in1.g)
          | none => s
        else s
      | none => s) s.engines.tasks s

/-! ### House rasters -/

/-- A realignment is due at the line start that follows: at once, or at the line stamped for it. -/
def House.stepDue (h : House) : Bool :=
  let (nf, nl) := if h.desc.totalLines ≤ h.line then (h.frame.toNat + 1, 1) else (h.frame.toNat, h.line + 1)
  h.stepPending && h.stepAt.all fun (f, l) => decide (f < nf) || (f == nf && decide (l ≤ nl))

/-- The house raster after its line start, and whether a frame begins there. -/
def House.next (h : House) (now : Tick) : House × Bool :=
  if !h.started then ({ h with started := true, line := 1, lineT := now, frameT := now }, true)
  else if h.stepDue || h.desc.totalLines ≤ h.line then
    ({ h with frame := h.frame + 1, line := 1, lineT := now, frameT := now, stepPending := h.stepPending && !h.stepDue }, true)
  else ({ h with line := h.line + 1, lineT := now }, false)

/-- Output rasters follow a STEP of their house raster at their next frame starts (R36, R41). -/
def State.followStep (s : State) (p : Nat) : State :=
  State.each (fun (e : Nat × OutRaster) s => s.setOutRaster e.1 (some { e.2 with relation := true })) (s.outputsOn p) s

/-- Immediate STC_SET commands: they wait for this house A line start (R49). -/
def State.applyStcWaits (s : State) : State :=
  State.each (fun (j : Job) s => match j.params with
    | .stcSet p => applyStcSet j p s
    | _ => s) (s.jobs.filter fun j => j.kind == .event && isStcSet j.params) s

/-- A line start of house raster `p`. -/
def State.houseLine (s : State) (p : Nat) : State :=
  let h := s.house p
  let (h1, frame) := h.next s.now
  let s1 := (s.advanceSources s.now).setHouse p h1
  let s2 := if h.started && h.stepDue then s1.followStep p else s1
  let s3 := (if p = 0 then s2.applyStcWaits else s2).runStc p
  let s4 := if frame then s3.policyFrame p else s3
  let s5 := ((s4.slewLine p).advanceSources (s.now + 1)).leadInputs p
  let s6 := if frame && p = 0 then s5.adoptPair else s5
  let s7 := s6.runDue p
  let s8 := if frame && p = 0 then s7.applySnapshot else s7
  let s9 := if frame then s8.playSources p else s8
  s9.monitorLines p (s9.house p).line

/-! ### Relations of an output raster (R40, R41) -/

/-- The frame start that an output raster stands at: the frame, the offset O, and whether the extension goes on until then; `old` is
the descriptor of the relation in force or fixed, `new` the one that governs from here. -/
def State.relate (s : State) (o : OutRaster) (old new : RasterDesc) : Nat × Nat × Bool :=
  let ended := match o.ext with
    | some e => e.ended
    | none => o.frame.toNat - 1
  if o.relation || relKey old != relKey new then newRelation o new (s.house new.house) ended s.now
  else match o.ext with
    | some e => (e.first, e.newO, false)
    | none => (o.frame.toNat, o.o, false)

/-- Actions on frames that output `n` skips are cancelled (R56). -/
def State.cancelSkipped (s : State) (n lo hi : Nat) : State :=
  let gone := s.jobs.filter fun j => j.kind == .apply && j.sched && j.raster == 2 + n && j.frame.any fun x => decide (lo < x) && decide (x < hi)
  State.each (fun (j : Job) s => (releaseOf j s).complete j stCancelled 0 (some (2 + n))) gone s

/-- The RASTER_SET commands of an output's frame start have been carried out. -/
def State.endSets (s : State) (n : Nat) (sets : List (Job × RasterSetP)) : State :=
  State.each (fun (e : Job × RasterSetP) s => s.complete e.1 stOk 0 (some (2 + n))) sets s

/-- The descriptor that the last of several RASTER_SET commands gives. -/
def lastDesc (d : RasterDesc) (sets : List (Job × RasterSetP)) : RasterDesc := ((sets.getLast?).map fun e => e.2.desc).getD d

/-- Vertical blanking is extended: the lines go on above TOTAL_LINES, and what the new relation skips is fixed. -/
def State.extend (s : State) (n : Nat) (o : OutRaster) (first newO : Nat) : State :=
  let ended := match o.ext with
    | some e => e.ended
    | none => o.frame.toNat - 1
  let line := if o.ext.isSome then o.line else o.desc.totalLines + 1
  (s.setOutRaster n (some { o with frame := BitVec.ofNat 48 ended, line := line, lineT := s.now, owed := false, relation := false, adopted := false,
                                   ext := some ⟨first, newO, ended⟩ })).cancelSkipped n ended first

/-! ### Route classes of a LEAD (R142) -/

/-- The route of output `n` that frame `f`, which starts at `t`, will show: that of the last take due there, on whatever raster it is
scheduled. -/
def State.routeAhead (s : State) (n f : Nat) (t : Int) : Option Route :=
  let now_ := s.route n
  let named (j : Job) : Bool := if j.raster = 2 + n then j.frame == some f
    else j.frame.any fun g => (s.raster? j.raster).any fun p => decide (p.lineT' g j.line ≤ t)
  let there (w : RouteWait) : Bool := w.entry.dest == n && (if w.due then decide (w.fromFrame ≤ f) else
    s.jobs.any fun j => j.id == w.job && named j)
  match (s.routes.waits.filter there).getLast? with
  | none => now_
  | some w =>
    let e := w.entry
    if isClear e then none
    else some { src := e.src, g := e.g, syncRes := e.syncRes, forceSync := e.forceSync, autoCut := e.autoCut, extra := e.extra,
                resv := if w.keep then now_.bind (·.resv) else w.resv }

/-- At the arming point of the start of frame `f` of output `n`, which is due at `t`, the LEAD decides class and pick, and sends them. -/
def State.leadClass (s : State) (n f : Nat) (t : Int) : State :=
  let d := if (s.compOut n).engagedFor == some f then 65 else 49
  match s.routeAhead n f t with
  | none => s
  | some r =>
    let r1 := s.seen.judgeAt n r t d none
    let pick := if r1.cls = .sync then r1.resv.bind fun v => pickFrame v.done v.stopT r1.extra r1.last s.now else none
    s.decideClass n f r1.cls pick r1.run

/-- The line that is the arming point of an output's frame start in a pair: four lines before it, where an extension goes on as well. -/
def State.armingLine (s : State) (n : Nat) (o : OutRaster) : State :=
  let (f, t, lines) := s.comingFrame n o
  if s.runsPaired && o.line + 3 == lines then
    let s1 := s.engage n f
    if s1.isLead then s1.leadClass n f t else s1
  else s

/-! ### The frame start of an output (R22) -/

/-- Granules that the layer readers of output `n` fetch for its active line `k` (R252, R496). -/
def State.layerReads (s : State) (n k : Nat) : State :=
  let c := s.compOut n
  State.each (fun l s => match shownAttr c l with
    | none => s
    | some a => match a.buf.bind s.bufAt with
      | none => s
      | some b =>
        let (cx, cy, cw, ch) := s.cropNow a
        let row : Int := (k : Int) - a.y
        if b.params.typ = 3 || row < 0 || (ch : Int) ≤ row then s
        else
          let y := cy + row.toNat
          let base := if b.params.typ = 1 then ringLineAt b (y % max b.params.count 1)
            else slotLine (slotAddr b.addr (slotSize b.params.width b.params.height b.params.format) a.slot) b.params.width b.params.format y
          let bits := memBits b.params.format
          let lo := cx * bits / 2048
          let hi := ceilDiv ((cx + cw) * bits) 2048
          s.traffic (1024 + 7 * n + l - 1) 0 (base + 256 * lo) (256 * (hi - lo))) layerNos s

/-- What the layer readers of output `n` fetch, and miss, for raster line `l` (R256). -/
def State.activeReads (s : State) (n : Nat) (d : RasterDesc) (l : Nat) : State :=
  match activeIndex d l with
  | some k => (s.ringMisses n k).layerReads n k
  | none => s

/-- The flattened images that output `n` reads in a frame, and the playout reader of a SYNC route (R496). -/
def State.frameReads (s : State) (n : Nat) : State :=
  let c := s.compOut n
  let s1 := State.each (fun k s => if (runAt c k).any fun r => r.shown.isSome then s.someTraffic (4608 + 2 * n + k) 0 else s) [0, 1] s
  match s1.route n with
  | some r => (match r.resv, r.played with
    | some v, some f => (match ringFrame v.done f with
      | some x => s1.traffic (512 + v.pb) 0 (slotAddr v.base v.slotSize x.slot) v.slotSize
      | none => s1)
    | _, _ => s1)
  | none => s1

/-- Steps 2 to 4 of R22 after the actions: class, loss, and the delay of embedded audio. -/
def State.judgeOutput (s : State) (n f : Nat) (o : OutRaster) (took : Bool) : State :=
  let g := s.givenClass n f
  let s1 := s.routeStep n f o.frameT (s.pathD n) g o.frameT
  let lacks := s1.isMate && (match g with
    | some ⟨.sync, some x, _⟩ => (s1.route n).any fun r => (r.resv.bind fun v => ringFrame v.done x).isNone
    | _ => false)
  let s2 := if lacks then s1.reportMissing n else s1
  let path := ((s2.route n).map fun r => s2.pathEngines 192 r.src).getD []
  let jump := took || (s2.loss n).cls != (s.loss n).cls || (s.loss n).path != path
  (s2.setLoss n { s2.loss n with path := path }).lipSync n (s2.pathLatency n) jump (s2.loss n).inLoss

/-- What a frame start of output `n` does in the Millpond, which is in self-refresh in Quiet (R508). -/
def State.pondFrame (s : State) (n f : Nat) : State := if s.live then (s.flattenFrame n f).playSources (2 + n) else s

/-- A group that sent IDL carries its output from this frame, unless a lane of it still trains or its direction does not send
(R110, R123). -/
def State.resumeOutput (s : State) (n : Nat) : State :=
  match s.txStream n with
  | some x =>
    let d := s.txDir x.cfg.bundle
    if x.idle && d.phase == .sending && !((List.range x.cfg.g).any fun k => (txLaneOf d (x.cfg.lane + k)).training) then
      s.setTxStream n (some { x with idle := false })
    else s
  | none => s

/-- The frame that output `n` starts, once its relation is settled. Output rasters run in every mode, and R22 with them (R508). -/
def State.beginFrame (s : State) (n f newO : Nat) (d : RasterDesc) (sets : List (Job × RasterSetP)) : State :=
  match s.outRaster n with
  | none => s
  | some o0 =>
    let o : OutRaster := { o0 with desc := d, frame := BitVec.ofNat 48 f, o := newO, line := 1, lineT := s.now, frameT := s.now, owed := false,
                                   ext := none, relation := false, adopted := false }
    let s1 := s.setOutRaster n (some o)
    let s2 := if o0.desc.totalLines = d.totalLines then s1 else s1.cutLines (2 + n) d.totalLines
    let s3 := s2.endSets n sets
    let s5 := (((((s3.swapFrame n f).flipFrame n f).runReached n).runDue (2 + n)).resumeOutput n).sendMarker n
    if (s5.outRaster n).isNone then s5
    else
      let s6 := (s5.overlayFrame n).pondFrame n f
      let waits := s6.routes.waits.length
      let s7 := s6.applyOutWaits n f
      let s8 := s7.judgeOutput n f o (decide (s7.routes.waits.length < waits))
      if s8.live then (s8.frameReads n).activeReads n d 1 else s8

/-- The work of R22 at a frame start of output `n` that is owed, or where an extension ends. -/
def State.frameWork (s : State) (n : Nat) : State :=
  match s.outRaster n with
  | none => s
  | some o =>
    let r := 2 + n
    let f := (o.ext.map fun e => e.first).getD o.frame.toNat
    let before := lastDesc o.desc (s.setsFor n)
    let here (j : Job) : Bool := duePast r f 1 j || dueHere r f 1 j
    let s1 := s.runThese r fun j => isRecall j.params && here j
    let s2 := s1.runThese r fun j => isRasterSet j.params && here j
    let sets := s2.setsFor n
    let old := if o.ext.isSome then before else o.desc
    let new := lastDesc o.desc sets
    let (first, newO, more) := s2.relate o old new
    if more then s2.extend n o first newO
    else
      let ended := match o.ext with
        | some e => e.ended
        | none => o.frame.toNat - 1
      (s2.cancelSkipped n ended first).beginFrame n first newO new sets

/-- The output raster goes to its next frame; the work of the frame start is owed. -/
def OutRaster.wrap (o : OutRaster) (now : Tick) : OutRaster :=
  { o with frame := o.frame + 1, line := 1, lineT := now, frameT := now, owed := true }

/-- A line start of output `n` within its frame. -/
def State.withinFrame (s : State) (n : Nat) (o : OutRaster) : State :=
  let o1 := { o with line := o.line + 1, lineT := s.now }
  let s1 := (((((s.sendLine n o.line o.lineT).setOutRaster n (some o1)).advanceSources s.now).armingLine n o1).leadInputs (2 + n)).advanceSources (s.now + 1)
  let s2 := s1.runDue (2 + n)
  if s2.live then s2.activeReads n o.desc (o.line + 1) else s2

/-- A line start in an extension of vertical blanking (R41). -/
def State.extensionLine (s : State) (n : Nat) (o : OutRaster) : State :=
  let o1 := { o with line := o.line + 1, lineT := s.now }
  (((s.setOutRaster n (some o1)).advanceSources s.now).armingLine n o1).advanceSources (s.now + 1)

/-- The last line of a frame ends. -/
def State.endFrameLines (s : State) (n : Nat) (o : OutRaster) : State :=
  ((((s.sendLine n o.line o.lineT).advanceSources s.now).setOutRaster n (some (o.wrap s.now))).leadInputs (2 + n)).advanceSources (s.now + 1)

/-- A line start of output `n`: a frame start that is owed is made up for first. -/
def State.outputLine (s : State) (n : Nat) : State :=
  let s0 := if (s.outRaster n).any (·.owed) then s.frameWork n else s
  match s0.outRaster n with
  | none => s0
  | some o =>
    let s1 := if o.ext.isSome then s0.extensionLine n o
      else if o.line < o.desc.totalLines then s0.withinFrame n o
      else s0.endFrameLines n o
    s1.monitorLines (2 + n) (((s1.outRaster n).map (·.line)).getD 0)

/-- RASTER_LINE_START (R33): a timing generator starts a line; none runs in reset. -/
def doLineStart (r : Nat) (s : State) : State :=
  if s.sys.stage = .inReset then s
  else if r < 2 then s.houseLine r
  else if r < 514 then s.outputLine (r - 2)
  else s

/-- OUTPUT_FRAME_START (R22): where the frame start is owed, where an extension ends, or after the last line of the frame. -/
def doOutputFrame (n : Nat) (s : State) : State :=
  if s.sys.stage = .inReset then s
  else match s.outRaster n with
    | none => s
    | some o =>
      if o.owed || o.ext.isSome then s.frameWork n
      else if o.line = o.desc.totalLines then
        ((s.endFrameLines n o).monitorLines (2 + n) 1).frameWork n
      else s

end Sys2Proof.Machine
end

