-- ==== Sys2Proof/Machine/Registers.lean ====
section
/-! DEFINITION. The rows that write or read a register of BAR0 or of the Hub (Tables 12.3 and 18.1), and those of the management SPI
port (Table 12.8). -/

namespace Sys2Proof.Machine

/-- An event acts on a device that is not held in reset. -/
def onEvent (f : State → State) (s : State) : State := if s.sys.stage = .inReset then s else f s

/-- SQ_TAIL (R326). -/
def execSqTail (t : Tick) (q value : Nat) (written : List Packet) (s : State) : Host.Outcome State Fault Refusal :=
  .next (doSqTail q value written (s.enter t))

/-- CQ_HEAD (R328). -/
def execCqHead (t : Tick) (q value : Nat) (s : State) : Host.Outcome State Fault Refusal :=
  .next (doCqHead q value (s.enter t))

/-- QUEUE_ENABLE (R330). -/
def execQueueEnable (t : Tick) (q : Nat) (irqEn : Bool) (vector : Nat) (s : State) : Host.Outcome State Fault Refusal :=
  .next (doQueueEnable q irqEn vector (s.enter t))

/-- QUEUE_DISABLE (R330). -/
def execQueueDisable (t : Tick) (q : Nat) (irqEn : Bool) (vector : Nat) (s : State) : Host.Outcome State Fault Refusal :=
  .next (doQueueDisable q irqEn vector (s.enter t))

/-- QUEUE_RESUME (R345). -/
def execQueueResume (t : Tick) (q : Nat) (s : State) : Host.Outcome State Fault Refusal :=
  .next (doQueueResume q (s.enter t))

/-- CLAIM (R484). -/
def execClaim (t : Tick) (target id : Nat) (s : State) : Host.Outcome State Fault Refusal :=
  .next (doClaim target id (s.enter t))

/-- COMPLETE (R484). -/
def execComplete (t : Tick) (target id : Nat) (s : State) : Host.Outcome State Fault Refusal :=
  .next (doComplete target id (s.enter t))

/-- CNT_SEL (R494). -/
def execCntSel (t : Tick) (cpb : Bool) (id : Nat) (s : State) : Host.Outcome State Fault Refusal :=
  .next (doCntSel cpb id (s.enter t))

/-- CNT_VAL_OVF_CLEAR (R493). -/
def execCntValOvfClear (t : Tick) (cpb : Bool) (s : State) : Host.Outcome State Fault Refusal :=
  .next (doOvfClear cpb (s.enter t))

/-- STC_LOW_READ (R325). -/
def execStcLowRead (t : Tick) (s : State) : Host.Outcome State Fault Refusal :=
  .next (doStcLow (s.enter t))

/-- Q8_SQ_TAIL (R478). -/
def execQ8SqTail (t : Tick) (value : Nat) (written : List Packet) (s : State) : Host.Outcome State Fault Refusal :=
  .next (doSqTail 8 value written (s.enter t))

/-- Q8_RR_HEAD (R478). -/
def execQ8RrHead (t : Tick) (value : Nat) (s : State) : Host.Outcome State Fault Refusal :=
  .next (doCqHead 8 value (s.enter t))

/-- SWI_SET (R482). -/
def execSwiSet (t : Tick) (id : Nat) (s : State) : Host.Outcome State Fault Refusal :=
  .next (doSwi id (s.enter t))

/-- TIMECMP (R479). -/
def execTimecmp (t : Tick) (value : Nat) (s : State) : Host.Outcome State Fault Refusal :=
  .next (doTimecmp value (s.enter t))

/-- TIMER_DISARM (R479). -/
def execTimerDisarm (t : Tick) (s : State) : Host.Outcome State Fault Refusal :=
  .next (doDisarm (s.enter t))

/-- TIMER_FIRED_CLEAR (R479). -/
def execTimerFiredClear (t : Tick) (s : State) : Host.Outcome State Fault Refusal :=
  .next (doFiredClear (s.enter t))

/-- GPIO_OUT (R479). -/
def execGpioOut (t : Tick) (value : Nat) (s : State) : Host.Outcome State Fault Refusal :=
  .next (doGpioOut value (s.enter t))

/-- CPB_ACCESS_FAULT (R477). -/
def execCpbAccessFault (t : Tick) (addr size : Nat) (store : Bool) (s : State) : Host.Outcome State Fault Refusal :=
  .next (doAccessFault addr size store (s.enter t))

/-- REGISTER_WRITE (R325). -/
def execRegisterWrite (t : Tick) (cpb : Bool) (off size value : Nat) (s : State) : Host.Outcome State Fault Refusal :=
  .next (doRegisterWrite cpb off size value (s.enter t))

/-- WRITE_PACKET (R331). -/
def execWritePacket (t : Tick) (pk : Packet) (bytes : Nat) (crcOk : Bool) (s : State) : Host.Outcome State Fault Refusal :=
  .next (onEvent (fun x => (x.takeSpi pk bytes crcOk).settleLink) (s.enter t))

/-- READ_REPLY (R331). -/
def execReadReply (t : Tick) (clocked : Nat) (s : State) : Host.Outcome State Fault Refusal :=
  .next (doReadReply clocked (s.enter t))

/-- READ_STATUS (R331). -/
def execReadStatus (t : Tick) (s : State) : Host.Outcome State Fault Refusal :=
  .next (doReadStatus (s.enter t))

end Sys2Proof.Machine
end

