-- ==== Sys2Proof/Machine/Events.lean ====
section
/-! DEFINITION. The event rows: what the pins, the lanes, the clocks, the references, the partner and the blocks' own sequencers bring
about. An event whose precondition does not hold changes nothing but the time. -/

namespace Sys2Proof.Machine

/-! ### What an event needs -/

/-- A lane of a bundle that exists; a Brinen lane that leaves LOCKED takes the link down (R382). -/
def onLane (b k : Nat) (f : State → State) (s : State) : State := if (lanesOf b).contains k then (f s).settleLink else s

/-- A bundle that exists. -/
def onDir (b : Nat) (f : State → State) (s : State) : State := if b < 65 then (f s).settleLink else s

/-- A reference port that exists. -/
def onPort (p : Nat) (f : State → State) (s : State) : State := if p < 2 then f s else s

/-- An engine that exists. -/
def onEngine (e : Nat) (f : Nat → State → State) (s : State) : State := if e < 192 then f e s else s

/-- A Brinen message: one whose CRC fails is discarded and counted (R384); a second copy changes nothing. -/
def onMessage (a : Arrival) (f : State → State) (s : State) : State := if a.crcOk then f s else s.count 13 0 3

/-! ### Events that join several blocks -/

/-- A superframe of a lane; those that a LOCKED lane of the Brinen link receives tell of the partner too (R383). -/
def laneReceives (b k : Nat) (sf : Superframe) (s : State) : State :=
  let s1 := doSuperframe b k sf s
  match (if b = 64 && (rxLaneOf (s.rxDir b) k).st = .locked then s.arriving b k sf else none) with
  | some f => s1.brinenHeader f
  | none => s1

/-- A group's superframe boundary: presence, keys (R440), and the end of a frame that a withdrawal cuts short (R83). -/
def groupBoundary (n spread : Nat) (s : State) : State :=
  let switched := (s.rxStream n).any fun x => x.cryptNext.isSome
  let s1 := (doGroupBoundary n spread s).rxKeyBoundary n switched
  if s.present n && !s1.present n then s1.countMissing n else s1

/-- A transmit direction starts a superframe; the Brinen link carries a HELLO every 1,024 superframes. -/
def transmits (b : Nat) (s : State) : State :=
  let s1 := doTxSuperframe b s
  if b = 64 && s.pair.role != Role.solo && (s.txDir 64).sends && (s.txDir 64).sfc % 1024 == 0 then s1.emit (.brinen 1 [s.pair.role.code]) else s1

/-- A flatten ends: its flattener has read layers and written an image (R496). -/
def flattenEnd (n k : Nat) (s : State) : State :=
  match (runAt (s.compOut n) k).bind (·.flat) with
  | some x => if x.result.isNone then ((doFlattenComplete n k s).someTraffic (5824 + x.flattener) 0).someTraffic (5824 + x.flattener) 1
              else doFlattenComplete n k s
  | none => doFlattenComplete n k s

/-- A block of embedded audio goes out; the delay lines write and read (R496). -/
def embedSends (n : Nat) (s : State) : State :=
  let s1 := doEmbedSend n s
  if (s1.embed n).sent = (s.embed n).sent then s1 else (s1.someTraffic 5842 0).someTraffic 5842 1

/-- A decision of the LEAD. -/
def decideWith (d : Decision) (s : State) : State := s.decided d

/-- FAIL: the partner is treated as failed (R399); its fault SOURCE is not used. -/
def partnerFails (_source : Nat) (s : State) : State := s.mateFails

/-- A host window transfer ends; a completed slot that the host wrote is reported to the partner (R392). -/
def xferEnds (id : Nat) (s : State) : State :=
  match s.pond.xfers.find? fun x => x.job == id with
  | some x => (doXferComplete id s).reportSlot x.p
  | none => doXferComplete id s

/-! ### The rows -/

/-- XFER (Table 14.3): content for a Millpond address. -/
def execMsgXfer (t : Tick) (a : Arrival) (seq addr : Nat) (content : List Byte) (s : State) : Host.Outcome State Fault Refusal :=
  .next (onEvent (onMessage a (doXfer seq addr content)) (s.enter t))

/-- QUEUE_FETCH (R327). -/
def execQueueFetch (t : Tick) (q : Nat) (s : State) : Host.Outcome State Fault Refusal :=
  .next (onEvent (fun x => (x.fetchOne q).settleLink) (s.enter t))

/-- BARRIER_RELEASE (R344). -/
def execBarrierRelease (t : Tick) (q : Nat) (s : State) : Host.Outcome State Fault Refusal :=
  .next (onEvent (doBarrierRelease q) (s.enter t))

/-- BARRIER_TIMEOUT (R345). -/
def execBarrierTimeout (t : Tick) (q : Nat) (s : State) : Host.Outcome State Fault Refusal :=
  .next (onEvent (doBarrierTimeout q) (s.enter t))

/-- RASTER_LINE_START (R33). -/
def execRasterLineStart (t : Tick) (raster : Nat) (s : State) : Host.Outcome State Fault Refusal :=
  .next (onEvent (doLineStart raster) (s.enter t))

/-- OUTPUT_FRAME_START (R22). -/
def execOutputFrameStart (t : Tick) (output : Nat) (s : State) : Host.Outcome State Fault Refusal :=
  .next (onEvent (doOutputFrame output) (s.enter t))

/-- FLATTEN_COMPLETE (R278). -/
def execFlattenComplete (t : Tick) (output run : Nat) (s : State) : Host.Outcome State Fault Refusal :=
  .next (onEvent (flattenEnd output run) (s.enter t))

/-- SLUICE_DECISION_LINE (R266). -/
def execSluiceDecisionLine (t : Tick) (output : Nat) (s : State) : Host.Outcome State Fault Refusal :=
  .next (onEvent (doDecisionLine output) (s.enter t))

/-- ENGINE_FRAME_START (R204). -/
def execEngineFrameStart (t : Tick) (engine : Nat) (s : State) : Host.Outcome State Fault Refusal :=
  .next (onEvent (onEngine engine engineStart) (s.enter t))

/-- KNOWN_ANSWER_RESULT (R218). -/
def execKnownAnswerResult (t : Tick) (engine : Nat) (ok : Bool) (s : State) : Host.Outcome State Fault Refusal :=
  .next (onEvent (doKnownAnswer engine ok) (s.enter t))

/-- KERNEL_LOAD_VERIFIED (R193). -/
def execKernelLoadVerified (t : Tick) (engine : Nat) (ok : Bool) (s : State) : Host.Outcome State Fault Refusal :=
  .next (onEvent (doKernelLoaded engine ok) (s.enter t))

/-- MOTION_ESTIMATE_DONE (R240). -/
def execMotionEstimateDone (t : Tick) (engine : Nat) (s : State) : Host.Outcome State Fault Refusal :=
  .next (onEvent (doMotionDone engine) (s.enter t))

/-- SUPERFRAME_RECEIVE (R98). -/
def execSuperframeReceive (t : Tick) (bundle lane : Nat) (sf : Superframe) (s : State) : Host.Outcome State Fault Refusal :=
  .next (onEvent (onLane bundle lane (laneReceives bundle lane sf)) (s.enter t))

/-- SUPERFRAME_CRC_RESULT (R103). -/
def execSuperframeCrcResult (t : Tick) (point : Nat) (s : State) : Host.Outcome State Fault Refusal :=
  .next (onEvent (doCrcResult point) (s.enter t))

/-- GROUP_SUPERFRAME_BOUNDARY (R101). -/
def execGroupSuperframeBoundary (t : Tick) (point spread : Nat) (s : State) : Host.Outcome State Fault Refusal :=
  .next (onEvent (groupBoundary point spread) (s.enter t))

/-- STREAM_PRESENT (R102). -/
def execStreamPresent (t : Tick) (point : Nat) (s : State) : Host.Outcome State Fault Refusal :=
  .next (onEvent (doStreamPresent point) (s.enter t))

/-- LANE_ENTER_SEED (R98). -/
def execLaneEnterSeed (t : Tick) (bundle lane : Nat) (s : State) : Host.Outcome State Fault Refusal :=
  .next (onEvent (onLane bundle lane (doEnterSeed bundle lane)) (s.enter t))

/-- LANE_ENTER_LOCKED (R99). -/
def execLaneEnterLocked (t : Tick) (bundle lane : Nat) (s : State) : Host.Outcome State Fault Refusal :=
  .next (onEvent (onLane bundle lane (doEnterLocked bundle lane)) (s.enter t))

/-- LANE_LOSS_OF_LOCK (R98). -/
def execLaneLossOfLock (t : Tick) (bundle lane : Nat) (s : State) : Host.Outcome State Fault Refusal :=
  .next (onEvent (onLane bundle lane (doLossOfLock bundle lane)) (s.enter t))

/-- MISCONNECTION_EVENT (R99). -/
def execMisconnectionEvent (t : Tick) (bundle lane : Nat) (s : State) : Host.Outcome State Fault Refusal :=
  .next (onEvent (onLane bundle lane (doMisconnection bundle lane)) (s.enter t))

/-- DLL_LOCK (R95). -/
def execDllLock (t : Tick) (bundle : Nat) (s : State) : Host.Outcome State Fault Refusal :=
  .next (onEvent (onDir bundle (doDllLock bundle)) (s.enter t))

/-- FORWARDED_CLOCK_LOST (R95). -/
def execForwardedClockLost (t : Tick) (bundle : Nat) (s : State) : Host.Outcome State Fault Refusal :=
  .next (onEvent (onDir bundle (doClockLost bundle)) (s.enter t))

/-- TX_SUPERFRAME (R88). -/
def execTxSuperframe (t : Tick) (bundle : Nat) (s : State) : Host.Outcome State Fault Refusal :=
  .next (onEvent (onDir bundle (transmits bundle)) (s.enter t))

/-- DIRECTION_SLEEP_COMPLETE (R122). -/
def execDirectionSleepComplete (t : Tick) (bundle dir : Nat) (s : State) : Host.Outcome State Fault Refusal :=
  .next (onEvent (onDir bundle (doSleepComplete bundle dir)) (s.enter t))

/-- DIRECTION_WAKE_COMPLETE (R123). -/
def execDirectionWakeComplete (t : Tick) (bundle dir : Nat) (s : State) : Host.Outcome State Fault Refusal :=
  .next (onEvent (onDir bundle (doWakeComplete applyRecords bundle dir)) (s.enter t))

/-- PRBS_WINDOW_CHECK (R127). -/
def execPrbsWindowCheck (t : Tick) (bundle lane : Nat) (received : List Bool) (s : State) : Host.Outcome State Fault Refusal :=
  .next (onEvent (onLane bundle lane (doPrbsWindow bundle lane received)) (s.enter t))

/-- TRAINING_ROUND_START (R117). -/
def execTrainingRoundStart (t : Tick) (bundle : Nat) (s : State) : Host.Outcome State Fault Refusal :=
  .next (onEvent (onDir bundle (doRoundDue bundle)) (s.enter t))

/-- TRAINING_PHASE_TIMEOUT (R112). -/
def execTrainingPhaseTimeout (t : Tick) (bundle : Nat) (s : State) : Host.Outcome State Fault Refusal :=
  .next (onEvent (onDir bundle (doPhaseTimeout bundle)) (s.enter t))

/-- RX_ADAPT_END (R112). -/
def execRxAdaptEnd (t : Tick) (bundle : Nat) (settings : List RxSet) (s : State) : Host.Outcome State Fault Refusal :=
  .next (onEvent (onDir bundle (doRxAdaptEnd bundle settings)) (s.enter t))

/-- BC_ACK_RECEIVED (R113). -/
def execBcAckReceived (t : Tick) (bundle lane bc : Nat) (s : State) : Host.Outcome State Fault Refusal :=
  .next (onEvent (onLane bundle lane (doBcAck bundle lane bc)) (s.enter t))

/-- FIR_DWELL_END (R113). -/
def execFirDwellEnd (t : Tick) (bundle lane : Nat) (s : State) : Host.Outcome State Fault Refusal :=
  .next (onEvent (onLane bundle lane (doFirDwell bundle lane)) (s.enter t))

/-- BC_REQUEST_UNANSWERED (R114). -/
def execBcRequestUnanswered (t : Tick) (bundle lane : Nat) (s : State) : Host.Outcome State Fault Refusal :=
  .next (onEvent (onLane bundle lane (doUnanswered bundle lane)) (s.enter t))

/-- VERIFY_END (R113). -/
def execVerifyEnd (t : Tick) (bundle : Nat) (s : State) : Host.Outcome State Fault Refusal :=
  .next (onEvent (onDir bundle (doVerifyEnd bundle)) (s.enter t))

/-- ROUND_RETRY_WAIT_EXPIRE (R116). -/
def execRoundRetryWaitExpire (t : Tick) (bundle : Nat) (s : State) : Host.Outcome State Fault Refusal :=
  .next (onEvent (onDir bundle (doRetryWait bundle)) (s.enter t))

/-- BC_REQUEST_RECEIVED (R109). -/
def execBcRequestReceived (t : Tick) (bundle lane bc : Nat) (s : State) : Host.Outcome State Fault Refusal :=
  .next (onEvent (onLane bundle lane (doBcRequest bundle lane bc)) (s.enter t))

/-- BC_DONE_RECEIVED (R110). -/
def execBcDoneReceived (t : Tick) (bundle lane : Nat) (s : State) : Host.Outcome State Fault Refusal :=
  .next (onEvent (onLane bundle lane (doBcDone bundle lane)) (s.enter t))

/-- SLEEP_REQUEST_RECEIVED (R111). -/
def execSleepRequestReceived (t : Tick) (bundle lane bc : Nat) (s : State) : Host.Outcome State Fault Refusal :=
  .next (onEvent (onLane bundle lane (doSleepRequest bundle lane bc)) (s.enter t))

/-- REF_FRAME_SYNC_PULSE (R412). -/
def execRefFrameSyncPulse (t : Tick) (port : Nat) (offset : Int) (s : State) : Host.Outcome State Fault Refusal :=
  .next (onEvent (onPort port fun x => doFramePulse port offset x) (s.enter t))

/-- REF_LINE_SYNC_PULSE (R408). -/
def execRefLineSyncPulse (t : Tick) (port : Nat) (offset : Int) (s : State) : Host.Outcome State Fault Refusal :=
  .next (onEvent (onPort port fun x => doLinePulse port offset x) (s.enter t))

/-- REF_ABSENT (R408). -/
def execRefAbsent (t : Tick) (port : Nat) (s : State) : Host.Outcome State Fault Refusal :=
  .next (onEvent (onPort port fun x => doRefAbsent port x) (s.enter t))

/-- REF_PRESENT (R408). -/
def execRefPresent (t : Tick) (port : Nat) (s : State) : Host.Outcome State Fault Refusal :=
  .next (onEvent (onPort port fun x => doRefPresent port x) (s.enter t))

/-- FRAME_SYNC_MISSING (R408). -/
def execFrameSyncMissing (t : Tick) (port : Nat) (s : State) : Host.Outcome State Fault Refusal :=
  .next (onEvent (onPort port fun x => doFrameSyncMissing port x) (s.enter t))

/-- SYNTH_LOCK (R409). -/
def execSynthLock (t : Tick) (synth : Nat) (s : State) : Host.Outcome State Fault Refusal :=
  .next (onEvent (doSynthLock synth) (s.enter t))

/-- SYNTH_LOSS_OF_LOCK (R409). -/
def execSynthLossOfLock (t : Tick) (synth : Nat) (s : State) : Host.Outcome State Fault Refusal :=
  .next (onEvent (doSynthLoss synth) (s.enter t))

/-- BAND_MISS (R419). -/
def execBandMiss (t : Tick) (synth : Nat) (s : State) : Host.Outcome State Fault Refusal :=
  .next (onEvent (doBandMiss synth) (s.enter t))

/-- BAND_SEARCH_DONE (R419). -/
def execBandSearchDone (t : Tick) (synth band : Nat) (temp : Int) (s : State) : Host.Outcome State Fault Refusal :=
  .next (onEvent (doBandSearch synth band temp) (s.enter t))

/-- SYNC_IN_EDGE (R425). -/
def execSyncInEdge (t : Tick) (s : State) : Host.Outcome State Fault Refusal :=
  .next (onEvent doSyncIn (s.enter t))

/-- FABRIC_SYNTH_LOSS (R406). -/
def execFabricSynthLoss (t : Tick) (s : State) : Host.Outcome State Fault Refusal :=
  .next (onEvent doFabricLoss (s.enter t))

/-- LANE_SYNTH_LOSS (R416). -/
def execLaneSynthLoss (t : Tick) (synth : Nat) (s : State) : Host.Outcome State Fault Refusal :=
  .next (onEvent (doLaneLoss synth) (s.enter t))

/-- CPB_TIMER_COMPARE (R479). -/
def execCpbTimerCompare (t : Tick) (s : State) : Host.Outcome State Fault Refusal :=
  .next (onEvent (fun x => x.timerCompare) (s.enter t))

/-- INPUT_RASTER_STALE (R72). -/
def execInputRasterStale (t : Tick) (point : Nat) (s : State) : Host.Outcome State Fault Refusal :=
  .next (onEvent (doInputStale point) (s.enter t))

/-- DESTINATION_BLOCK_SERVICE (R287). -/
def execDestinationBlockService (t : Tick) (dest : Nat) (s : State) : Host.Outcome State Fault Refusal :=
  .next (onEvent (doBlockService dest) (s.enter t))

/-- UNDERRUN_HOLD_EXPIRE (R295). -/
def execUnderrunHoldExpire (t : Tick) (dest : Nat) (s : State) : Host.Outcome State Fault Refusal :=
  .next (onEvent (doHoldExpire dest) (s.enter t))

/-- EMBED_BLOCK_SEND (R303). -/
def execEmbedBlockSend (t : Tick) (output : Nat) (s : State) : Host.Outcome State Fault Refusal :=
  .next (onEvent (embedSends output) (s.enter t))

/-- TDM_FS_EDGE (R310). -/
def execTdmFsEdge (t : Tick) (port : Nat) (frame : TdmFrame) (s : State) : Host.Outcome State Fault Refusal :=
  .next (onEvent (doTdmEdge port frame) (s.enter t))

/-- TDM_FS_TIMEOUT (R310). -/
def execTdmFsTimeout (t : Tick) (port : Nat) (s : State) : Host.Outcome State Fault Refusal :=
  .next (onEvent (doTdmTimeout port) (s.enter t))

/-- DOMAIN_LOCK (R286). -/
def execDomainLock (t : Tick) (domain house : Nat) (s : State) : Host.Outcome State Fault Refusal :=
  .next (onEvent (doDomainLock domain house) (s.enter t))

/-- DOMAIN_SAMPLE_TIMEOUT (R286). -/
def execDomainSampleTimeout (t : Tick) (domain : Nat) (s : State) : Host.Outcome State Fault Refusal :=
  .next (onEvent (doDomainTimeout domain) (s.enter t))

/-- ASRC_LOCK (R299). -/
def execAsrcLock (t : Tick) (group : Nat) (s : State) : Host.Outcome State Fault Refusal :=
  .next (onEvent (doAsrcLock group) (s.enter t))

/-- ASRC_SOURCE_TIMEOUT (R299). -/
def execAsrcSourceTimeout (t : Tick) (group : Nat) (s : State) : Host.Outcome State Fault Refusal :=
  .next (onEvent (doAsrcTimeout group) (s.enter t))

/-- NONAUDIO_REVERT (R317). -/
def execNonaudioRevert (t : Tick) (pair : Nat) (s : State) : Host.Outcome State Fault Refusal :=
  .next (onEvent (doNonaudioRevert pair) (s.enter t))

/-- HELLO (R382). -/
def execMsgHello (t : Tick) (a : Arrival) (m : HelloBody) (s : State) : Host.Outcome State Fault Refusal :=
  .next (onEvent (onMessage a (doHello m)) (s.enter t))

/-- LINK_UP (R382). -/
def execLinkUp (t : Tick) (s : State) : Host.Outcome State Fault Refusal :=
  .next (onEvent doLinkUp (s.enter t))

/-- CMD (R386). -/
def execMsgCmd (t : Tick) (a : Arrival) (m : CmdBody) (s : State) : Host.Outcome State Fault Refusal :=
  .next (onEvent (onMessage a (doCmd m)) (s.enter t))

/-- VERDICT (R386). -/
def execMsgVerdict (t : Tick) (a : Arrival) (rix status : Nat) (s : State) : Host.Outcome State Fault Refusal :=
  .next (onEvent (onMessage a (doVerdict rix status)) (s.enter t))

/-- COMMIT_POINT (R386). -/
def execCommitPoint (t : Tick) (rix : Nat) (s : State) : Host.Outcome State Fault Refusal :=
  .next (onEvent (doCommitPoint rix) (s.enter t))

/-- COMMIT (R386). -/
def execMsgCommit (t : Tick) (a : Arrival) (rix : Nat) (commit : Bool) (s : State) : Host.Outcome State Fault Refusal :=
  .next (onEvent (onMessage a (doCommit rix commit)) (s.enter t))

/-- CLASS (R142). -/
def execMsgClass (t : Tick) (a : Arrival) (output frame cls srcFrame : Nat) (s : State) : Host.Outcome State Fault Refusal :=
  .next (onEvent (onMessage a (decideWith { kind := 0, unit := output, key := frame, value := cls, extra := srcFrame })) (s.enter t))

/-- DECIDE (R272). -/
def execMsgDecide (t : Tick) (a : Arrival) (output frame bitmap : Nat) (s : State) : Host.Outcome State Fault Refusal :=
  .next (onEvent (onMessage a (decideWith { kind := 1, unit := output, key := frame, value := bitmap })) (s.enter t))

/-- LEAT (R320). -/
def execMsgLeat (t : Tick) (a : Arrival) (d : LeatBody) (s : State) : Host.Outcome State Fault Refusal :=
  .next (onEvent (onMessage a (doLeat d)) (s.enter t))

/-- SIG (R390). -/
def execMsgSig (t : Tick) (a : Arrival) (sigs : List GranuleSig) (keyBits : List Nat) (s : State) : Host.Outcome State Fault Refusal :=
  .next (onEvent (onMessage a (doSig sigs keyBits)) (s.enter t))

/-- REPORT (R392). -/
def execMsgReport (t : Tick) (a : Arrival) (kind unit value : Nat) (s : State) : Host.Outcome State Fault Refusal :=
  .next (onEvent (onMessage a (doReport kind unit value)) (s.enter t))

/-- STATE (R401). -/
def execMsgState (t : Tick) (a : Arrival) (seq : Nat) (last : Bool) (rix libVersion : Nat) (items : List CmdBody) (s : State) : Host.Outcome State Fault Refusal :=
  .next (onEvent (onMessage a (doState seq last rix libVersion items)) (s.enter t))

/-- FAIL (R399). -/
def execMsgFail (t : Tick) (a : Arrival) (source : Nat) (s : State) : Host.Outcome State Fault Refusal :=
  .next (onEvent (onMessage a (partnerFails source)) (s.enter t))

/-- HANDOVER (R403). -/
def execMsgHandover (t : Tick) (a : Arrival) (rix raster frame line : Nat) (s : State) : Host.Outcome State Fault Refusal :=
  .next (onEvent (onMessage a (doHandover rix raster frame line)) (s.enter t))

/-- DECISION_DEADLINE_MISS (R388). -/
def execDecisionDeadlineMiss (t : Tick) (s : State) : Host.Outcome State Fault Refusal :=
  .next (onEvent doDeadlineMiss (s.enter t))

/-- GRANULE_SIGNATURE (R389). -/
def execGranuleSignature (t : Tick) (g : GranuleSig) (s : State) : Host.Outcome State Fault Refusal :=
  .next (onEvent (doGranule g) (s.enter t))

/-- SIGNATURE_UNMATCHED (R390). -/
def execSignatureUnmatched (t : Tick) (g : GranuleSig) (s : State) : Host.Outcome State Fault Refusal :=
  .next (onEvent (doUnmatched g) (s.enter t))

/-- ATTRIBUTION_WINDOW_END (R393). -/
def execAttributionWindowEnd (t : Tick) (output : Nat) (s : State) : Host.Outcome State Fault Refusal :=
  .next (onEvent (doWindowEnd output) (s.enter t))

/-- RESYNC_LOCKSTEP (R401). -/
def execResyncLockstep (t : Tick) (s : State) : Host.Outcome State Fault Refusal :=
  .next (onEvent doLockstep (s.enter t))

/-- RESYNC_TIMEOUT (R401). -/
def execResyncTimeout (t : Tick) (s : State) : Host.Outcome State Fault Refusal :=
  .next (onEvent doResyncTimeout (s.enter t))

/-- TRANSFER_COMPLETE (R402). -/
def execTransferComplete (t : Tick) (s : State) : Host.Outcome State Fault Refusal :=
  .next (onEvent doTransferComplete (s.enter t))

/-- FAULT_N_ASSERT (R398). -/
def execFaultNAssert (t : Tick) (s : State) : Host.Outcome State Fault Refusal :=
  .next (onEvent doFaultN (s.enter t))

/-- SCRUB_GRANULE (R166). -/
def execScrubGranule (t : Tick) (granule result : Nat) (s : State) : Host.Outcome State Fault Refusal :=
  .next (onEvent (doScrub granule result) (s.enter t))

/-- LOCKSTEP_MISMATCH (R476). -/
def execLockstepMismatch (t : Tick) (core : Nat) (s : State) : Host.Outcome State Fault Refusal :=
  .next (onEvent (doLockstepMismatch core) (s.enter t))

/-- CONTROL_RESTART_END (R489). -/
def execControlRestartEnd (t : Tick) (s : State) : Host.Outcome State Fault Refusal :=
  .next (onEvent doRestartEnd (s.enter t))

/-- NORMAL_INTERRUPT_RECOGNISE (R486). -/
def execNormalInterruptRecognise (t : Tick) (cp : Nat) (s : State) : Host.Outcome State Fault Refusal :=
  .next (onEvent (doNormal cp) (s.enter t))

/-- FAST_INTERRUPT_RECOGNISE (R486). -/
def execFastInterruptRecognise (t : Tick) (cp : Nat) (s : State) : Host.Outcome State Fault Refusal :=
  .next (onEvent (doFast cp) (s.enter t))

/-- ENTRY_COMMIT (R487). -/
def execEntryCommit (t : Tick) (cp : Nat) (s : State) : Host.Outcome State Fault Refusal :=
  .next (onEvent (doEntryCommit cp) (s.enter t))

/-- MRET (R487). -/
def execMret (t : Tick) (cp : Nat) (s : State) : Host.Outcome State Fault Refusal :=
  .next (onEvent (doMret cp) (s.enter t))

/-- EXIT_COMMIT (R488). -/
def execExitCommit (t : Tick) (cp : Nat) (s : State) : Host.Outcome State Fault Refusal :=
  .next (onEvent (doExitCommit cp) (s.enter t))

/-- GPIO_INPUT_EDGE (R479). -/
def execGpioInputEdge (t : Tick) (pin : Nat) (level : Bool) (s : State) : Host.Outcome State Fault Refusal :=
  .next (doGpioInput pin level (s.enter t))

/-- RESET_N_ASSERT (R502). -/
def execResetNAssert (t : Tick) (done : Nat) (s : State) : Host.Outcome State Fault Refusal :=
  .next (doResetAssert done (s.enter t))

/-- RESET_N_DEASSERT (R504). -/
def execResetNDeassert (t : Tick) (s : State) : Host.Outcome State Fault Refusal :=
  .next (doResetDeassert (s.enter t))

/-- NV_RECALL_COMPLETE (R459). -/
def execNvRecallComplete (t : Tick) (s : State) : Host.Outcome State Fault Refusal :=
  .next (onEvent doNvRecall (s.enter t))

/-- BOOT_VERIFY_END (R506). -/
def execBootVerifyEnd (t : Tick) (ok : Bool) (s : State) : Host.Outcome State Fault Refusal :=
  .next (onEvent (doBootVerify ok) (s.enter t))

/-- FIRMWARE_READY (R504). -/
def execFirmwareReady (t : Tick) (s : State) : Host.Outcome State Fault Refusal :=
  .next (onEvent doFirmwareReady (s.enter t))

/-- SELF_TEST_END (R504). -/
def execSelfTestEnd (t : Tick) (s : State) : Host.Outcome State Fault Refusal :=
  .next (onEvent doSelfTestEnd (s.enter t))

/-- STARTUP_COMPLETE (R504). -/
def execStartupComplete (t : Tick) (s : State) : Host.Outcome State Fault Refusal :=
  .next (onEvent doStartupComplete (s.enter t))

/-- COLDSTART_RECALL (R159). -/
def execColdstartRecall (t : Tick) (s : State) : Host.Outcome State Fault Refusal :=
  .next (onEvent doColdRecall (s.enter t))

/-- PCIE_PERST_N (R529). -/
def execPciePerstN (t : Tick) (level : Bool) (s : State) : Host.Outcome State Fault Refusal :=
  .next (doPerst level (s.enter t))

/-- RAIL_FAULT (R499). -/
def execRailFault (t : Tick) (row : Nat) (s : State) : Host.Outcome State Fault Refusal :=
  .next (onEvent (doRailFault row) (s.enter t))

/-- NV_POWER_FAIL (R456). -/
def execNvPowerFail (t : Tick) (done : Nat) (s : State) : Host.Outcome State Fault Refusal :=
  .next (doNvPowerFail done (s.enter t))

/-- NV_WRITE_DONE (R458). -/
def execNvWriteDone (t : Tick) (s : State) : Host.Outcome State Fault Refusal :=
  .next (onEvent doNvWriteDone (s.enter t))

/-- REFRESH_PASS_START (R463). -/
def execRefreshPassStart (t : Tick) (s : State) : Host.Outcome State Fault Refusal :=
  .next (onEvent doRefreshStart (s.enter t))

/-- REFRESH_WORD (R463). -/
def execRefreshWord (t : Tick) (_weak : List Nat) (corrected : Bool) (s : State) : Host.Outcome State Fault Refusal :=
  .next (onEvent (doRefreshWord corrected) (s.enter t))

/-- AUDIT_APPEND (R471). -/
def execAuditAppend (t : Tick) (s : State) : Host.Outcome State Fault Refusal :=
  .next (onEvent doAuditAppend (s.enter t))

/-- TAMPER_ALARM (R446). -/
def execTamperAlarm (t : Tick) (source : Nat) (s : State) : Host.Outcome State Fault Refusal :=
  .next (doTamperAlarm source (s.enter t))

/-- TAMPER_COUNT_STORE (R447). -/
def execTamperCountStore (t : Tick) (s : State) : Host.Outcome State Fault Refusal :=
  .next (onEvent doTamperStore (s.enter t))

/-- THERMAL_SAMPLE (R536). -/
def execThermalSample (t : Tick) (temp : Int) (s : State) : Host.Outcome State Fault Refusal :=
  .next (doThermal temp (s.enter t))

/-- WAKE_N_LOW (R510). -/
def execWakeNLow (t : Tick) (s : State) : Host.Outcome State Fault Refusal :=
  .next (onEvent doWakeNLow (s.enter t))

/-- WAKE_TIMER (R510). -/
def execWakeTimer (t : Tick) (s : State) : Host.Outcome State Fault Refusal :=
  .next (onEvent doWakeTimer (s.enter t))

/-- QUIET_ENTRY_END (R511). -/
def execQuietEntryEnd (t : Tick) (s : State) : Host.Outcome State Fault Refusal :=
  .next (onEvent doQuietEntryEnd (s.enter t))

/-- WAKE_END (R512). -/
def execWakeEnd (t : Tick) (s : State) : Host.Outcome State Fault Refusal :=
  .next (onEvent doWakeEnd (s.enter t))

/-- MONITOR_WINDOW_CLOSE (R497). -/
def execMonitorWindowClose (t : Tick) (monitor bytes : Nat) (s : State) : Host.Outcome State Fault Refusal :=
  .next (onEvent (doMonitorClose monitor bytes) (s.enter t))

/-- XFER_COMPLETE (R179). -/
def execXferComplete (t : Tick) (id : Nat) (s : State) : Host.Outcome State Fault Refusal :=
  .next (onEvent (xferEnds id) (s.enter t))

/-- CPB_LOAD_CHECKED (R480). -/
def execCpbLoadChecked (t : Tick) (s : State) : Host.Outcome State Fault Refusal :=
  .next (onEvent doLoadChecked (s.enter t))

/-- EXACT_COMMA_FOUND (R98). -/
def execExactCommaFound (t : Tick) (bundle lane : Nat) (s : State) : Host.Outcome State Fault Refusal :=
  .next (onEvent (onLane bundle lane (doExactComma bundle lane)) (s.enter t))

/-- ECC_UNCORRECTABLE_ERROR (R165): what ECC finds on a foreground read, an error that it cannot correct or one that it corrects
(R164, R191). -/
def execEccUncorrectableError (t : Tick) (source unit addr user : Nat) (corrected : Bool) (s : State) :
    Host.Outcome State Fault Refusal :=
  .next (onEvent (doEccError source unit addr user corrected) (s.enter t))

/-- DATAPATH_LOCKSTEP_MISMATCH (R396). -/
def execDatapathLockstepMismatch (t : Tick) (block : Nat) (s : State) : Host.Outcome State Fault Refusal :=
  .next (onEvent (doFault 10 block 0) (s.enter t))

/-- END_TO_END_CRC_MISMATCH (R396). -/
def execEndToEndCrcMismatch (t : Tick) (unit : Nat) (s : State) : Host.Outcome State Fault Refusal :=
  .next (onEvent (doFault 10 unit 0) (s.enter t))

/-- PFW_N_DEASSERT (R456). -/
def execPfwNDeassert (t : Tick) (s : State) : Host.Outcome State Fault Refusal :=
  .next (doPfwDeassert (s.enter t))

/-- TAMPER_SOURCE_INACTIVE (R444). -/
def execTamperSourceInactive (t : Tick) (source : Nat) (s : State) : Host.Outcome State Fault Refusal :=
  .next (doTamperInactive source (s.enter t))

/-- VAON_POWER_UP (R429). -/
def execVaonPowerUp (t : Tick) (s : State) : Host.Outcome State Fault Refusal :=
  .next (doVaonPowerUp (s.enter t))

/-- KEY_OPERATION_END (R435). -/
def execKeyOperationEnd (t : Tick) (id : Nat) (s : State) : Host.Outcome State Fault Refusal :=
  .next (onEvent (doKeyOpEnd id) (s.enter t))

end Sys2Proof.Machine
end

