-- ==== Sys2Proof/Machine/Packets.lean ====
section
/-! DEFINITION. The packet rows (Table 13.1): each command reaches the device on the queue that its header names. -/

namespace Sys2Proof.Machine

/-- SYS_IDENTIFY. -/
def execSysIdentify (t : Tick) (h : Hdr) (p : ResP) (s : State) : Host.Outcome State Fault Refusal := .next (submit (.sysIdentify p) t h s)

/-- SYS_CAPS. -/
def execSysCaps (t : Tick) (h : Hdr) (p : ResP) (s : State) : Host.Outcome State Fault Refusal := .next (submit (.sysCaps p) t h s)

/-- SYS_MODE. -/
def execSysMode (t : Tick) (h : Hdr) (p : SysModeP) (s : State) : Host.Outcome State Fault Refusal := .next (submit (.sysMode p) t h s)

/-- BARRIER. -/
def execBarrier (t : Tick) (h : Hdr) (p : BarrierP) (s : State) : Host.Outcome State Fault Refusal := .next (submit (.barrier p) t h s)

/-- SYS_RESTART. -/
def execSysRestart (t : Tick) (h : Hdr) (p : SysRestartP) (s : State) : Host.Outcome State Fault Refusal := .next (submit (.sysRestart p) t h s)

/-- SYS_WAKE_SET. -/
def execSysWakeSet (t : Tick) (h : Hdr) (p : SysWakeSetP) (s : State) : Host.Outcome State Fault Refusal := .next (submit (.sysWakeSet p) t h s)

/-- SYS_FAULT_READ. -/
def execSysFaultRead (t : Tick) (h : Hdr) (p : SysFaultReadP) (s : State) : Host.Outcome State Fault Refusal := .next (submit (.sysFaultRead p) t h s)

/-- RASTER_SET. -/
def execRasterSet (t : Tick) (h : Hdr) (p : RasterSetP) (s : State) : Host.Outcome State Fault Refusal := .next (submit (.rasterSet p) t h s)

/-- RASTER_QUERY. -/
def execRasterQuery (t : Tick) (h : Hdr) (p : RasterQueryP) (s : State) : Host.Outcome State Fault Refusal := .next (submit (.rasterQuery p) t h s)

/-- STC_SET. -/
def execStcSet (t : Tick) (h : Hdr) (p : StcSetP) (s : State) : Host.Outcome State Fault Refusal := .next (submit (.stcSet p) t h s)

/-- STC_READ. -/
def execStcRead (t : Tick) (h : Hdr) (p : ResP) (s : State) : Host.Outcome State Fault Refusal := .next (submit (.stcRead p) t h s)

/-- SCHED_CANCEL. -/
def execSchedCancel (t : Tick) (h : Hdr) (p : SchedCancelP) (s : State) : Host.Outcome State Fault Refusal := .next (submit (.schedCancel p) t h s)

/-- BUNDLE_SET. -/
def execBundleSet (t : Tick) (h : Hdr) (p : BundleSetP) (s : State) : Host.Outcome State Fault Refusal := .next (submit (.bundleSet p) t h s)

/-- BUNDLE_STATUS. -/
def execBundleStatus (t : Tick) (h : Hdr) (p : BundleStatusP) (s : State) : Host.Outcome State Fault Refusal := .next (submit (.bundleStatus p) t h s)

/-- LANE_TRAIN. -/
def execLaneTrain (t : Tick) (h : Hdr) (p : LaneTrainP) (s : State) : Host.Outcome State Fault Refusal := .next (submit (.laneTrain p) t h s)

/-- BUNDLE_SLEEP. -/
def execBundleSleep (t : Tick) (h : Hdr) (p : BundleDirP) (s : State) : Host.Outcome State Fault Refusal := .next (submit (.bundleSleep p) t h s)

/-- BUNDLE_WAKE. -/
def execBundleWake (t : Tick) (h : Hdr) (p : BundleDirP) (s : State) : Host.Outcome State Fault Refusal := .next (submit (.bundleWake p) t h s)

/-- LOOPBACK_SET. -/
def execLoopbackSet (t : Tick) (h : Hdr) (p : LoopbackSetP) (s : State) : Host.Outcome State Fault Refusal := .next (submit (.loopbackSet p) t h s)

/-- PRBS_SET. -/
def execPrbsSet (t : Tick) (h : Hdr) (p : PrbsSetP) (s : State) : Host.Outcome State Fault Refusal := .next (submit (.prbsSet p) t h s)

/-- STREAM_SET. -/
def execStreamSet (t : Tick) (h : Hdr) (p : StreamSetP) (s : State) : Host.Outcome State Fault Refusal := .next (submit (.streamSet p) t h s)

/-- ROUTE_TAKE. -/
def execRouteTake (t : Tick) (h : Hdr) (p : RouteTakeP) (s : State) : Host.Outcome State Fault Refusal := .next (submit (.routeTake p) t h s)

/-- ROUTE_QUERY. -/
def execRouteQuery (t : Tick) (h : Hdr) (p : RouteQueryP) (s : State) : Host.Outcome State Fault Refusal := .next (submit (.routeQuery p) t h s)

/-- LOSS_SET. -/
def execLossSet (t : Tick) (h : Hdr) (p : LossSetP) (s : State) : Host.Outcome State Fault Refusal := .next (submit (.lossSet p) t h s)

/-- PRESET_STORE. -/
def execPresetStore (t : Tick) (h : Hdr) (p : PresetStoreP) (s : State) : Host.Outcome State Fault Refusal := .next (submit (.presetStore p) t h s)

/-- PRESET_RECALL. -/
def execPresetRecall (t : Tick) (h : Hdr) (p : PresetRecallP) (s : State) : Host.Outcome State Fault Refusal := .next (submit (.presetRecall p) t h s)

/-- PRESET_COLDSTART. -/
def execPresetColdstart (t : Tick) (h : Hdr) (p : PresetColdstartP) (s : State) : Host.Outcome State Fault Refusal := .next (submit (.presetColdstart p) t h s)

/-- BUF_CREATE. -/
def execBufCreate (t : Tick) (h : Hdr) (p : BufCreateP) (s : State) : Host.Outcome State Fault Refusal := .next (submit (.bufCreate p) t h s)

/-- BUF_DESTROY. -/
def execBufDestroy (t : Tick) (h : Hdr) (p : BufDestroyP) (s : State) : Host.Outcome State Fault Refusal := .next (submit (.bufDestroy p) t h s)

/-- BUF_QUERY. -/
def execBufQuery (t : Tick) (h : Hdr) (p : BufQueryP) (s : State) : Host.Outcome State Fault Refusal := .next (submit (.bufQuery p) t h s)

/-- BUF_XFER. -/
def execBufXfer (t : Tick) (h : Hdr) (p : BufXferP) (s : State) : Host.Outcome State Fault Refusal := .next (submit (.bufXfer p) t h s)

/-- CAPTURE_BIND. -/
def execCaptureBind (t : Tick) (h : Hdr) (p : CaptureBindP) (s : State) : Host.Outcome State Fault Refusal := .next (submit (.captureBind p) t h s)

/-- PLAYOUT_BIND. -/
def execPlayoutBind (t : Tick) (h : Hdr) (p : PlayoutBindP) (s : State) : Host.Outcome State Fault Refusal := .next (submit (.playoutBind p) t h s)

/-- WEIR_QUERY. -/
def execWeirQuery (t : Tick) (h : Hdr) (p : ResP) (s : State) : Host.Outcome State Fault Refusal := .next (submit (.weirQuery p) t h s)

/-- KERNEL_BIND. -/
def execKernelBind (t : Tick) (h : Hdr) (p : KernelBindP) (s : State) : Host.Outcome State Fault Refusal := .next (submit (.kernelBind p) t h s)

/-- KERNEL_UPDATE. -/
def execKernelUpdate (t : Tick) (h : Hdr) (p : KernelUpdateP) (s : State) : Host.Outcome State Fault Refusal := .next (submit (.kernelUpdate p) t h s)

/-- KERNEL_UNBIND. -/
def execKernelUnbind (t : Tick) (h : Hdr) (p : KernelUnbindP) (s : State) : Host.Outcome State Fault Refusal := .next (submit (.kernelUnbind p) t h s)

/-- ENGINE_RESERVE. -/
def execEngineReserve (t : Tick) (h : Hdr) (p : EngineReserveP) (s : State) : Host.Outcome State Fault Refusal := .next (submit (.engineReserve p) t h s)

/-- ENGINE_MIGRATE. -/
def execEngineMigrate (t : Tick) (h : Hdr) (p : EngineMigrateP) (s : State) : Host.Outcome State Fault Refusal := .next (submit (.engineMigrate p) t h s)

/-- ENGINE_QUERY. -/
def execEngineQuery (t : Tick) (h : Hdr) (p : EngineQueryP) (s : State) : Host.Outcome State Fault Refusal := .next (submit (.engineQuery p) t h s)

/-- LAYER_SET. -/
def execLayerSet (t : Tick) (h : Hdr) (p : LayerSetP) (s : State) : Host.Outcome State Fault Refusal := .next (submit (.layerSet p) t h s)

/-- LAYER_FLIP. -/
def execLayerFlip (t : Tick) (h : Hdr) (p : LayerFlipP) (s : State) : Host.Outcome State Fault Refusal := .next (submit (.layerFlip p) t h s)

/-- LAYER_QUERY. -/
def execLayerQuery (t : Tick) (h : Hdr) (p : OutputQueryP) (s : State) : Host.Outcome State Fault Refusal := .next (submit (.layerQuery p) t h s)

/-- COMP_SET. -/
def execCompSet (t : Tick) (h : Hdr) (p : CompSetP) (s : State) : Host.Outcome State Fault Refusal := .next (submit (.compSet p) t h s)

/-- FENCE_BIND. -/
def execFenceBind (t : Tick) (h : Hdr) (p : FenceBindP) (s : State) : Host.Outcome State Fault Refusal := .next (submit (.fenceBind p) t h s)

/-- FENCE_SIGNAL. -/
def execFenceSignal (t : Tick) (h : Hdr) (p : FenceSignalP) (s : State) : Host.Outcome State Fault Refusal := .next (submit (.fenceSignal p) t h s)

/-- FENCE_QUERY. -/
def execFenceQuery (t : Tick) (h : Hdr) (p : FenceQueryP) (s : State) : Host.Outcome State Fault Refusal := .next (submit (.fenceQuery p) t h s)

/-- GROUP_SET. -/
def execGroupSet (t : Tick) (h : Hdr) (p : GroupSetP) (s : State) : Host.Outcome State Fault Refusal := .next (submit (.groupSet p) t h s)

/-- STATIC_SET. -/
def execStaticSet (t : Tick) (h : Hdr) (p : StaticSetP) (s : State) : Host.Outcome State Fault Refusal := .next (submit (.staticSet p) t h s)

/-- AUDIO_ROUTE. -/
def execAudioRoute (t : Tick) (h : Hdr) (p : AudioRouteP) (s : State) : Host.Outcome State Fault Refusal := .next (submit (.audioRoute p) t h s)

/-- AUDIO_EMBED. -/
def execAudioEmbed (t : Tick) (h : Hdr) (p : AudioEmbedP) (s : State) : Host.Outcome State Fault Refusal := .next (submit (.audioEmbed p) t h s)

/-- ASRC_BIND. -/
def execAsrcBind (t : Tick) (h : Hdr) (p : AsrcBindP) (s : State) : Host.Outcome State Fault Refusal := .next (submit (.asrcBind p) t h s)

/-- APORT_SET. -/
def execAportSet (t : Tick) (h : Hdr) (p : AportSetP) (s : State) : Host.Outcome State Fault Refusal := .next (submit (.aportSet p) t h s)

/-- APORT_MASK. -/
def execAportMask (t : Tick) (h : Hdr) (p : AportMaskP) (s : State) : Host.Outcome State Fault Refusal := .next (submit (.aportMask p) t h s)

/-- AUDIO_RING_BIND. -/
def execAudioRingBind (t : Tick) (h : Hdr) (p : AudioRingBindP) (s : State) : Host.Outcome State Fault Refusal := .next (submit (.audioRingBind p) t h s)

/-- AUDIO_QUERY. -/
def execAudioQuery (t : Tick) (h : Hdr) (p : AudioQueryP) (s : State) : Host.Outcome State Fault Refusal := .next (submit (.audioQuery p) t h s)

/-- REF_SET. -/
def execRefSet (t : Tick) (h : Hdr) (p : RefSetP) (s : State) : Host.Outcome State Fault Refusal := .next (submit (.refSet p) t h s)

/-- SYNTH_SET. -/
def execSynthSet (t : Tick) (h : Hdr) (p : SynthSetP) (s : State) : Host.Outcome State Fault Refusal := .next (submit (.synthSet p) t h s)

/-- BAND_TABLE_SET. -/
def execBandTableSet (t : Tick) (h : Hdr) (p : BandTableSetP) (s : State) : Host.Outcome State Fault Refusal := .next (submit (.bandTableSet p) t h s)

/-- CLKOUT_SET. -/
def execClkoutSet (t : Tick) (h : Hdr) (p : ClkoutSetP) (s : State) : Host.Outcome State Fault Refusal := .next (submit (.clkoutSet p) t h s)

/-- CLKOUT_SYNC. -/
def execClkoutSync (t : Tick) (h : Hdr) (p : ClkoutSyncP) (s : State) : Host.Outcome State Fault Refusal := .next (submit (.clkoutSync p) t h s)

/-- CLOCK_STATUS. -/
def execClockStatus (t : Tick) (h : Hdr) (p : ResP) (s : State) : Host.Outcome State Fault Refusal := .next (submit (.clockStatus p) t h s)

/-- PAIR_SET. -/
def execPairSet (t : Tick) (h : Hdr) (p : PairSetP) (s : State) : Host.Outcome State Fault Refusal := .next (submit (.pairSet p) t h s)

/-- PAIR_RESYNC. -/
def execPairResync (t : Tick) (h : Hdr) (p : EmptyP) (s : State) : Host.Outcome State Fault Refusal := .next (submit (.pairResync p) t h s)

/-- PAIR_TRANSFER. -/
def execPairTransfer (t : Tick) (h : Hdr) (p : EmptyP) (s : State) : Host.Outcome State Fault Refusal := .next (submit (.pairTransfer p) t h s)

/-- PAIR_STATUS. -/
def execPairStatus (t : Tick) (h : Hdr) (p : ResP) (s : State) : Host.Outcome State Fault Refusal := .next (submit (.pairStatus p) t h s)

/-- KEY_WRITE. -/
def execKeyWrite (t : Tick) (h : Hdr) (p : KeyWriteP) (s : State) : Host.Outcome State Fault Refusal := .next (submit (.keyWrite p) t h s)

/-- KEY_DERIVE. -/
def execKeyDerive (t : Tick) (h : Hdr) (p : KeyDeriveP) (s : State) : Host.Outcome State Fault Refusal := .next (submit (.keyDerive p) t h s)

/-- KEY_INVALIDATE. -/
def execKeyInvalidate (t : Tick) (h : Hdr) (p : KeyInvalidateP) (s : State) : Host.Outcome State Fault Refusal := .next (submit (.keyInvalidate p) t h s)

/-- KEY_QUERY. -/
def execKeyQuery (t : Tick) (h : Hdr) (p : ResP) (s : State) : Host.Outcome State Fault Refusal := .next (submit (.keyQuery p) t h s)

/-- QUEUE_AUTH. -/
def execQueueAuth (t : Tick) (h : Hdr) (p : QueueAuthP) (s : State) : Host.Outcome State Fault Refusal := .next (submit (.queueAuth p) t h s)

/-- LANE_CRYPT_SET. -/
def execLaneCryptSet (t : Tick) (h : Hdr) (p : LaneCryptSetP) (s : State) : Host.Outcome State Fault Refusal := .next (submit (.laneCryptSet p) t h s)

/-- ATTEST. -/
def execAttest (t : Tick) (h : Hdr) (p : AttestP) (s : State) : Host.Outcome State Fault Refusal := .next (submit (.attest p) t h s)

/-- TAMPER_SET. -/
def execTamperSet (t : Tick) (h : Hdr) (p : TamperSetP) (s : State) : Host.Outcome State Fault Refusal := .next (submit (.tamperSet p) t h s)

/-- TAMPER_STATUS. -/
def execTamperStatus (t : Tick) (h : Hdr) (p : ResP) (s : State) : Host.Outcome State Fault Refusal := .next (submit (.tamperStatus p) t h s)

/-- NV_READ. -/
def execNvRead (t : Tick) (h : Hdr) (p : NvReadP) (s : State) : Host.Outcome State Fault Refusal := .next (submit (.nvRead p) t h s)

/-- NV_WRITE. -/
def execNvWrite (t : Tick) (h : Hdr) (p : NvWriteP) (s : State) : Host.Outcome State Fault Refusal := .next (submit (.nvWrite p) t h s)

/-- NV_PROTECT. -/
def execNvProtect (t : Tick) (h : Hdr) (p : NvProtectP) (s : State) : Host.Outcome State Fault Refusal := .next (submit (.nvProtect p) t h s)

/-- NV_COUNTER. -/
def execNvCounter (t : Tick) (h : Hdr) (p : NvCounterP) (s : State) : Host.Outcome State Fault Refusal := .next (submit (.nvCounter p) t h s)

/-- AUDIT_READ. -/
def execAuditRead (t : Tick) (h : Hdr) (p : AuditReadP) (s : State) : Host.Outcome State Fault Refusal := .next (submit (.auditRead p) t h s)

/-- COUNTER_READ. -/
def execCounterRead (t : Tick) (h : Hdr) (p : CounterReadP) (s : State) : Host.Outcome State Fault Refusal := .next (submit (.counterRead p) t h s)

/-- COUNTER_SNAPSHOT. -/
def execCounterSnapshot (t : Tick) (h : Hdr) (p : CounterSnapshotP) (s : State) : Host.Outcome State Fault Refusal := .next (submit (.counterSnapshot p) t h s)

/-- MONITOR_SET. -/
def execMonitorSet (t : Tick) (h : Hdr) (p : MonitorSetP) (s : State) : Host.Outcome State Fault Refusal := .next (submit (.monitorSet p) t h s)

/-- MONITOR_READ. -/
def execMonitorRead (t : Tick) (h : Hdr) (p : MonitorReadP) (s : State) : Host.Outcome State Fault Refusal := .next (submit (.monitorRead p) t h s)

/-- EVENT_ROUTE. -/
def execEventRoute (t : Tick) (h : Hdr) (p : EventRouteP) (s : State) : Host.Outcome State Fault Refusal := .next (submit (.eventRoute p) t h s)

/-- GPIO_SET. -/
def execGpioSet (t : Tick) (h : Hdr) (p : GpioSetP) (s : State) : Host.Outcome State Fault Refusal := .next (submit (.gpioSet p) t h s)

/-- GPIO_EDGE. -/
def execGpioEdge (t : Tick) (h : Hdr) (p : GpioEdgeP) (s : State) : Host.Outcome State Fault Refusal := .next (submit (.gpioEdge p) t h s)

/-- GPIO_READ. -/
def execGpioRead (t : Tick) (h : Hdr) (p : ResP) (s : State) : Host.Outcome State Fault Refusal := .next (submit (.gpioRead p) t h s)

/-- CPB_LOAD. -/
def execCpbLoad (t : Tick) (h : Hdr) (p : CpbLoadP) (s : State) : Host.Outcome State Fault Refusal := .next (submit (.cpbLoad p) t h s)

/-- CPB_CTRL. -/
def execCpbCtrl (t : Tick) (h : Hdr) (p : CpbCtrlP) (s : State) : Host.Outcome State Fault Refusal := .next (submit (.cpbCtrl p) t h s)

end Sys2Proof.Machine
end

