-- ==== Sys2Proof/Machine/Dispatch.lean ====
section
/-! DEFINITION. One arm per command, each a direct call of its meaning. -/

namespace Sys2Proof.Machine

def exec (i : Instr) (s : State) : Host.Outcome State Fault Refusal :=
  match i with
  | .sysIdentify t h p => Sys2Proof.Machine.execSysIdentify t h p s
  | .sysCaps t h p => Sys2Proof.Machine.execSysCaps t h p s
  | .sysMode t h p => Sys2Proof.Machine.execSysMode t h p s
  | .barrier t h p => Sys2Proof.Machine.execBarrier t h p s
  | .sysRestart t h p => Sys2Proof.Machine.execSysRestart t h p s
  | .sysWakeSet t h p => Sys2Proof.Machine.execSysWakeSet t h p s
  | .sysFaultRead t h p => Sys2Proof.Machine.execSysFaultRead t h p s
  | .rasterSet t h p => Sys2Proof.Machine.execRasterSet t h p s
  | .rasterQuery t h p => Sys2Proof.Machine.execRasterQuery t h p s
  | .stcSet t h p => Sys2Proof.Machine.execStcSet t h p s
  | .stcRead t h p => Sys2Proof.Machine.execStcRead t h p s
  | .schedCancel t h p => Sys2Proof.Machine.execSchedCancel t h p s
  | .bundleSet t h p => Sys2Proof.Machine.execBundleSet t h p s
  | .bundleStatus t h p => Sys2Proof.Machine.execBundleStatus t h p s
  | .laneTrain t h p => Sys2Proof.Machine.execLaneTrain t h p s
  | .bundleSleep t h p => Sys2Proof.Machine.execBundleSleep t h p s
  | .bundleWake t h p => Sys2Proof.Machine.execBundleWake t h p s
  | .loopbackSet t h p => Sys2Proof.Machine.execLoopbackSet t h p s
  | .prbsSet t h p => Sys2Proof.Machine.execPrbsSet t h p s
  | .streamSet t h p => Sys2Proof.Machine.execStreamSet t h p s
  | .routeTake t h p => Sys2Proof.Machine.execRouteTake t h p s
  | .routeQuery t h p => Sys2Proof.Machine.execRouteQuery t h p s
  | .lossSet t h p => Sys2Proof.Machine.execLossSet t h p s
  | .presetStore t h p => Sys2Proof.Machine.execPresetStore t h p s
  | .presetRecall t h p => Sys2Proof.Machine.execPresetRecall t h p s
  | .presetColdstart t h p => Sys2Proof.Machine.execPresetColdstart t h p s
  | .bufCreate t h p => Sys2Proof.Machine.execBufCreate t h p s
  | .bufDestroy t h p => Sys2Proof.Machine.execBufDestroy t h p s
  | .bufQuery t h p => Sys2Proof.Machine.execBufQuery t h p s
  | .bufXfer t h p => Sys2Proof.Machine.execBufXfer t h p s
  | .captureBind t h p => Sys2Proof.Machine.execCaptureBind t h p s
  | .playoutBind t h p => Sys2Proof.Machine.execPlayoutBind t h p s
  | .weirQuery t h p => Sys2Proof.Machine.execWeirQuery t h p s
  | .kernelBind t h p => Sys2Proof.Machine.execKernelBind t h p s
  | .kernelUpdate t h p => Sys2Proof.Machine.execKernelUpdate t h p s
  | .kernelUnbind t h p => Sys2Proof.Machine.execKernelUnbind t h p s
  | .engineReserve t h p => Sys2Proof.Machine.execEngineReserve t h p s
  | .engineMigrate t h p => Sys2Proof.Machine.execEngineMigrate t h p s
  | .engineQuery t h p => Sys2Proof.Machine.execEngineQuery t h p s
  | .layerSet t h p => Sys2Proof.Machine.execLayerSet t h p s
  | .layerFlip t h p => Sys2Proof.Machine.execLayerFlip t h p s
  | .layerQuery t h p => Sys2Proof.Machine.execLayerQuery t h p s
  | .compSet t h p => Sys2Proof.Machine.execCompSet t h p s
  | .fenceBind t h p => Sys2Proof.Machine.execFenceBind t h p s
  | .fenceSignal t h p => Sys2Proof.Machine.execFenceSignal t h p s
  | .fenceQuery t h p => Sys2Proof.Machine.execFenceQuery t h p s
  | .groupSet t h p => Sys2Proof.Machine.execGroupSet t h p s
  | .staticSet t h p => Sys2Proof.Machine.execStaticSet t h p s
  | .audioRoute t h p => Sys2Proof.Machine.execAudioRoute t h p s
  | .audioEmbed t h p => Sys2Proof.Machine.execAudioEmbed t h p s
  | .asrcBind t h p => Sys2Proof.Machine.execAsrcBind t h p s
  | .aportSet t h p => Sys2Proof.Machine.execAportSet t h p s
  | .aportMask t h p => Sys2Proof.Machine.execAportMask t h p s
  | .audioRingBind t h p => Sys2Proof.Machine.execAudioRingBind t h p s
  | .audioQuery t h p => Sys2Proof.Machine.execAudioQuery t h p s
  | .refSet t h p => Sys2Proof.Machine.execRefSet t h p s
  | .synthSet t h p => Sys2Proof.Machine.execSynthSet t h p s
  | .bandTableSet t h p => Sys2Proof.Machine.execBandTableSet t h p s
  | .clkoutSet t h p => Sys2Proof.Machine.execClkoutSet t h p s
  | .clkoutSync t h p => Sys2Proof.Machine.execClkoutSync t h p s
  | .clockStatus t h p => Sys2Proof.Machine.execClockStatus t h p s
  | .pairSet t h p => Sys2Proof.Machine.execPairSet t h p s
  | .pairResync t h p => Sys2Proof.Machine.execPairResync t h p s
  | .pairTransfer t h p => Sys2Proof.Machine.execPairTransfer t h p s
  | .pairStatus t h p => Sys2Proof.Machine.execPairStatus t h p s
  | .keyWrite t h p => Sys2Proof.Machine.execKeyWrite t h p s
  | .keyDerive t h p => Sys2Proof.Machine.execKeyDerive t h p s
  | .keyInvalidate t h p => Sys2Proof.Machine.execKeyInvalidate t h p s
  | .keyQuery t h p => Sys2Proof.Machine.execKeyQuery t h p s
  | .queueAuth t h p => Sys2Proof.Machine.execQueueAuth t h p s
  | .laneCryptSet t h p => Sys2Proof.Machine.execLaneCryptSet t h p s
  | .attest t h p => Sys2Proof.Machine.execAttest t h p s
  | .tamperSet t h p => Sys2Proof.Machine.execTamperSet t h p s
  | .tamperStatus t h p => Sys2Proof.Machine.execTamperStatus t h p s
  | .nvRead t h p => Sys2Proof.Machine.execNvRead t h p s
  | .nvWrite t h p => Sys2Proof.Machine.execNvWrite t h p s
  | .nvProtect t h p => Sys2Proof.Machine.execNvProtect t h p s
  | .nvCounter t h p => Sys2Proof.Machine.execNvCounter t h p s
  | .auditRead t h p => Sys2Proof.Machine.execAuditRead t h p s
  | .counterRead t h p => Sys2Proof.Machine.execCounterRead t h p s
  | .counterSnapshot t h p => Sys2Proof.Machine.execCounterSnapshot t h p s
  | .monitorSet t h p => Sys2Proof.Machine.execMonitorSet t h p s
  | .monitorRead t h p => Sys2Proof.Machine.execMonitorRead t h p s
  | .eventRoute t h p => Sys2Proof.Machine.execEventRoute t h p s
  | .gpioSet t h p => Sys2Proof.Machine.execGpioSet t h p s
  | .gpioEdge t h p => Sys2Proof.Machine.execGpioEdge t h p s
  | .gpioRead t h p => Sys2Proof.Machine.execGpioRead t h p s
  | .cpbLoad t h p => Sys2Proof.Machine.execCpbLoad t h p s
  | .cpbCtrl t h p => Sys2Proof.Machine.execCpbCtrl t h p s
  | .sqTail t q value written => Sys2Proof.Machine.execSqTail t q value written s
  | .cqHead t q value => Sys2Proof.Machine.execCqHead t q value s
  | .queueEnable t q irqEn vector => Sys2Proof.Machine.execQueueEnable t q irqEn vector s
  | .queueDisable t q irqEn vector => Sys2Proof.Machine.execQueueDisable t q irqEn vector s
  | .queueResume t q => Sys2Proof.Machine.execQueueResume t q s
  | .claim t target id => Sys2Proof.Machine.execClaim t target id s
  | .complete t target id => Sys2Proof.Machine.execComplete t target id s
  | .cntSel t cpb id => Sys2Proof.Machine.execCntSel t cpb id s
  | .cntValOvfClear t cpb => Sys2Proof.Machine.execCntValOvfClear t cpb s
  | .stcLowRead t => Sys2Proof.Machine.execStcLowRead t s
  | .q8SqTail t value written => Sys2Proof.Machine.execQ8SqTail t value written s
  | .q8RrHead t value => Sys2Proof.Machine.execQ8RrHead t value s
  | .swiSet t id => Sys2Proof.Machine.execSwiSet t id s
  | .timecmp t value => Sys2Proof.Machine.execTimecmp t value s
  | .timerDisarm t => Sys2Proof.Machine.execTimerDisarm t s
  | .timerFiredClear t => Sys2Proof.Machine.execTimerFiredClear t s
  | .gpioOut t value => Sys2Proof.Machine.execGpioOut t value s
  | .cpbAccessFault t addr size store => Sys2Proof.Machine.execCpbAccessFault t addr size store s
  | .registerWrite t cpb off size value => Sys2Proof.Machine.execRegisterWrite t cpb off size value s
  | .writePacket t pk bytes crcOk => Sys2Proof.Machine.execWritePacket t pk bytes crcOk s
  | .readReply t clocked => Sys2Proof.Machine.execReadReply t clocked s
  | .readStatus t => Sys2Proof.Machine.execReadStatus t s
  | .queueFetch t q => Sys2Proof.Machine.execQueueFetch t q s
  | .barrierRelease t q => Sys2Proof.Machine.execBarrierRelease t q s
  | .barrierTimeout t q => Sys2Proof.Machine.execBarrierTimeout t q s
  | .rasterLineStart t raster => Sys2Proof.Machine.execRasterLineStart t raster s
  | .outputFrameStart t output => Sys2Proof.Machine.execOutputFrameStart t output s
  | .flattenComplete t output run => Sys2Proof.Machine.execFlattenComplete t output run s
  | .sluiceDecisionLine t output => Sys2Proof.Machine.execSluiceDecisionLine t output s
  | .engineFrameStart t engine => Sys2Proof.Machine.execEngineFrameStart t engine s
  | .knownAnswerResult t engine ok => Sys2Proof.Machine.execKnownAnswerResult t engine ok s
  | .kernelLoadVerified t engine ok => Sys2Proof.Machine.execKernelLoadVerified t engine ok s
  | .motionEstimateDone t engine => Sys2Proof.Machine.execMotionEstimateDone t engine s
  | .superframeReceive t bundle lane sf => Sys2Proof.Machine.execSuperframeReceive t bundle lane sf s
  | .superframeCrcResult t point => Sys2Proof.Machine.execSuperframeCrcResult t point s
  | .groupSuperframeBoundary t point spread => Sys2Proof.Machine.execGroupSuperframeBoundary t point spread s
  | .streamPresent t point => Sys2Proof.Machine.execStreamPresent t point s
  | .laneEnterSeed t bundle lane => Sys2Proof.Machine.execLaneEnterSeed t bundle lane s
  | .laneEnterLocked t bundle lane => Sys2Proof.Machine.execLaneEnterLocked t bundle lane s
  | .laneLossOfLock t bundle lane => Sys2Proof.Machine.execLaneLossOfLock t bundle lane s
  | .misconnectionEvent t bundle lane => Sys2Proof.Machine.execMisconnectionEvent t bundle lane s
  | .dllLock t bundle => Sys2Proof.Machine.execDllLock t bundle s
  | .forwardedClockLost t bundle => Sys2Proof.Machine.execForwardedClockLost t bundle s
  | .txSuperframe t bundle => Sys2Proof.Machine.execTxSuperframe t bundle s
  | .directionSleepComplete t bundle dir => Sys2Proof.Machine.execDirectionSleepComplete t bundle dir s
  | .directionWakeComplete t bundle dir => Sys2Proof.Machine.execDirectionWakeComplete t bundle dir s
  | .prbsWindowCheck t bundle lane received => Sys2Proof.Machine.execPrbsWindowCheck t bundle lane received s
  | .trainingRoundStart t bundle => Sys2Proof.Machine.execTrainingRoundStart t bundle s
  | .trainingPhaseTimeout t bundle => Sys2Proof.Machine.execTrainingPhaseTimeout t bundle s
  | .rxAdaptEnd t bundle settings => Sys2Proof.Machine.execRxAdaptEnd t bundle settings s
  | .bcAckReceived t bundle lane bc => Sys2Proof.Machine.execBcAckReceived t bundle lane bc s
  | .firDwellEnd t bundle lane => Sys2Proof.Machine.execFirDwellEnd t bundle lane s
  | .bcRequestUnanswered t bundle lane => Sys2Proof.Machine.execBcRequestUnanswered t bundle lane s
  | .verifyEnd t bundle => Sys2Proof.Machine.execVerifyEnd t bundle s
  | .roundRetryWaitExpire t bundle => Sys2Proof.Machine.execRoundRetryWaitExpire t bundle s
  | .bcRequestReceived t bundle lane bc => Sys2Proof.Machine.execBcRequestReceived t bundle lane bc s
  | .bcDoneReceived t bundle lane => Sys2Proof.Machine.execBcDoneReceived t bundle lane s
  | .sleepRequestReceived t bundle lane bc => Sys2Proof.Machine.execSleepRequestReceived t bundle lane bc s
  | .refFrameSyncPulse t port offset => Sys2Proof.Machine.execRefFrameSyncPulse t port offset s
  | .refLineSyncPulse t port offset => Sys2Proof.Machine.execRefLineSyncPulse t port offset s
  | .refAbsent t port => Sys2Proof.Machine.execRefAbsent t port s
  | .refPresent t port => Sys2Proof.Machine.execRefPresent t port s
  | .frameSyncMissing t port => Sys2Proof.Machine.execFrameSyncMissing t port s
  | .synthLock t synth => Sys2Proof.Machine.execSynthLock t synth s
  | .synthLossOfLock t synth => Sys2Proof.Machine.execSynthLossOfLock t synth s
  | .bandMiss t synth => Sys2Proof.Machine.execBandMiss t synth s
  | .bandSearchDone t synth band temp => Sys2Proof.Machine.execBandSearchDone t synth band temp s
  | .syncInEdge t => Sys2Proof.Machine.execSyncInEdge t s
  | .fabricSynthLoss t => Sys2Proof.Machine.execFabricSynthLoss t s
  | .laneSynthLoss t synth => Sys2Proof.Machine.execLaneSynthLoss t synth s
  | .cpbTimerCompare t => Sys2Proof.Machine.execCpbTimerCompare t s
  | .inputRasterStale t point => Sys2Proof.Machine.execInputRasterStale t point s
  | .destinationBlockService t dest => Sys2Proof.Machine.execDestinationBlockService t dest s
  | .underrunHoldExpire t dest => Sys2Proof.Machine.execUnderrunHoldExpire t dest s
  | .embedBlockSend t output => Sys2Proof.Machine.execEmbedBlockSend t output s
  | .tdmFsEdge t port frame => Sys2Proof.Machine.execTdmFsEdge t port frame s
  | .tdmFsTimeout t port => Sys2Proof.Machine.execTdmFsTimeout t port s
  | .domainLock t domain house => Sys2Proof.Machine.execDomainLock t domain house s
  | .domainSampleTimeout t domain => Sys2Proof.Machine.execDomainSampleTimeout t domain s
  | .asrcLock t group => Sys2Proof.Machine.execAsrcLock t group s
  | .asrcSourceTimeout t group => Sys2Proof.Machine.execAsrcSourceTimeout t group s
  | .nonaudioRevert t pair => Sys2Proof.Machine.execNonaudioRevert t pair s
  | .msgHello t a m => Sys2Proof.Machine.execMsgHello t a m s
  | .linkUp t => Sys2Proof.Machine.execLinkUp t s
  | .msgCmd t a m => Sys2Proof.Machine.execMsgCmd t a m s
  | .msgVerdict t a rix status => Sys2Proof.Machine.execMsgVerdict t a rix status s
  | .commitPoint t rix => Sys2Proof.Machine.execCommitPoint t rix s
  | .msgCommit t a rix commit => Sys2Proof.Machine.execMsgCommit t a rix commit s
  | .msgClass t a output frame cls srcFrame => Sys2Proof.Machine.execMsgClass t a output frame cls srcFrame s
  | .msgDecide t a output frame bitmap => Sys2Proof.Machine.execMsgDecide t a output frame bitmap s
  | .msgLeat t a d => Sys2Proof.Machine.execMsgLeat t a d s
  | .msgSig t a sigs keyBits => Sys2Proof.Machine.execMsgSig t a sigs keyBits s
  | .msgReport t a kind unit value => Sys2Proof.Machine.execMsgReport t a kind unit value s
  | .msgState t a seq last rix libVersion items => Sys2Proof.Machine.execMsgState t a seq last rix libVersion items s
  | .msgXfer t a seq addr content => Sys2Proof.Machine.execMsgXfer t a seq addr content s
  | .msgFail t a source => Sys2Proof.Machine.execMsgFail t a source s
  | .msgHandover t a rix raster frame line => Sys2Proof.Machine.execMsgHandover t a rix raster frame line s
  | .decisionDeadlineMiss t => Sys2Proof.Machine.execDecisionDeadlineMiss t s
  | .granuleSignature t g => Sys2Proof.Machine.execGranuleSignature t g s
  | .signatureUnmatched t g => Sys2Proof.Machine.execSignatureUnmatched t g s
  | .attributionWindowEnd t output => Sys2Proof.Machine.execAttributionWindowEnd t output s
  | .resyncLockstep t => Sys2Proof.Machine.execResyncLockstep t s
  | .resyncTimeout t => Sys2Proof.Machine.execResyncTimeout t s
  | .transferComplete t => Sys2Proof.Machine.execTransferComplete t s
  | .faultNAssert t => Sys2Proof.Machine.execFaultNAssert t s
  | .scrubGranule t granule result => Sys2Proof.Machine.execScrubGranule t granule result s
  | .lockstepMismatch t core => Sys2Proof.Machine.execLockstepMismatch t core s
  | .controlRestartEnd t => Sys2Proof.Machine.execControlRestartEnd t s
  | .normalInterruptRecognise t cp => Sys2Proof.Machine.execNormalInterruptRecognise t cp s
  | .fastInterruptRecognise t cp => Sys2Proof.Machine.execFastInterruptRecognise t cp s
  | .entryCommit t cp => Sys2Proof.Machine.execEntryCommit t cp s
  | .mret t cp => Sys2Proof.Machine.execMret t cp s
  | .exitCommit t cp => Sys2Proof.Machine.execExitCommit t cp s
  | .gpioInputEdge t pin level => Sys2Proof.Machine.execGpioInputEdge t pin level s
  | .resetNAssert t done => Sys2Proof.Machine.execResetNAssert t done s
  | .resetNDeassert t => Sys2Proof.Machine.execResetNDeassert t s
  | .nvRecallComplete t => Sys2Proof.Machine.execNvRecallComplete t s
  | .bootVerifyEnd t ok => Sys2Proof.Machine.execBootVerifyEnd t ok s
  | .firmwareReady t => Sys2Proof.Machine.execFirmwareReady t s
  | .selfTestEnd t => Sys2Proof.Machine.execSelfTestEnd t s
  | .startupComplete t => Sys2Proof.Machine.execStartupComplete t s
  | .coldstartRecall t => Sys2Proof.Machine.execColdstartRecall t s
  | .pciePerstN t level => Sys2Proof.Machine.execPciePerstN t level s
  | .railFault t row => Sys2Proof.Machine.execRailFault t row s
  | .nvPowerFail t done => Sys2Proof.Machine.execNvPowerFail t done s
  | .nvWriteDone t => Sys2Proof.Machine.execNvWriteDone t s
  | .refreshPassStart t => Sys2Proof.Machine.execRefreshPassStart t s
  | .refreshWord t weak corrected => Sys2Proof.Machine.execRefreshWord t weak corrected s
  | .auditAppend t => Sys2Proof.Machine.execAuditAppend t s
  | .tamperAlarm t source => Sys2Proof.Machine.execTamperAlarm t source s
  | .tamperCountStore t => Sys2Proof.Machine.execTamperCountStore t s
  | .thermalSample t temp => Sys2Proof.Machine.execThermalSample t temp s
  | .wakeNLow t => Sys2Proof.Machine.execWakeNLow t s
  | .wakeTimer t => Sys2Proof.Machine.execWakeTimer t s
  | .quietEntryEnd t => Sys2Proof.Machine.execQuietEntryEnd t s
  | .wakeEnd t => Sys2Proof.Machine.execWakeEnd t s
  | .monitorWindowClose t monitor bytes => Sys2Proof.Machine.execMonitorWindowClose t monitor bytes s
  | .xferComplete t id => Sys2Proof.Machine.execXferComplete t id s
  | .cpbLoadChecked t => Sys2Proof.Machine.execCpbLoadChecked t s
  | .exactCommaFound t bundle lane => Sys2Proof.Machine.execExactCommaFound t bundle lane s
  | .eccUncorrectableError t source unit addr user corrected => Sys2Proof.Machine.execEccUncorrectableError t source unit addr user corrected s
  | .datapathLockstepMismatch t block => Sys2Proof.Machine.execDatapathLockstepMismatch t block s
  | .endToEndCrcMismatch t unit => Sys2Proof.Machine.execEndToEndCrcMismatch t unit s
  | .pfwNDeassert t => Sys2Proof.Machine.execPfwNDeassert t s
  | .tamperSourceInactive t source => Sys2Proof.Machine.execTamperSourceInactive t source s
  | .vaonPowerUp t => Sys2Proof.Machine.execVaonPowerUp t s
  | .keyOperationEnd t id => Sys2Proof.Machine.execKeyOperationEnd t id s

end Sys2Proof.Machine
end

