-- ==== Sys2Proof/Safety.lean ====
section
/-! DEFINITION. What counts as a safe run, and the invariants of the device that every step keeps. -/

namespace Sys2Proof

/-- The step at `s` answers a next state. -/
def Goes (s : Machine.State) : Prop := ∃ s', Machine.step s = .next s'

/-- The next `k` steps all answer a next state. -/
def SafeRun (k : Nat) (s : Machine.State) : Prop := ∃ s', Host.Core.run core k s = .next s'

/-- The Millpond, the Parameter Store and the memory of CP_B list their bytes in canonical form. -/
def MemoriesCanonical (s : Machine.State) : Prop :=
  Machine.memWf Machine.zeroByte s.pond.mem = true ∧ Machine.memWf Machine.nvDefault s.nv.cells = true ∧
  Machine.memWf Machine.zeroByte s.hub.sram = true

/-- The commands that have not completed stand in residency order (R28), each under an identifier of its own that no later command
will take: none completes twice. -/
def JobsInOrder (jobs : List Machine.Job) (next : Nat) : Prop :=
  jobs.Pairwise (fun a b => a.id < b.id) ∧ ∀ j ∈ jobs, j.id < next

/-- A device in FAILED holds the record of a fault (R357), and FAILED is no mode that a wake returns to (R510, R512). -/
def FailedHoldsRecord (s : Machine.State) : Prop :=
  (s.sys.mode = .failed → s.sys.fault.isSome = true) ∧ s.sys.modeBefore ≠ .failed

/-- The device has its two house rasters (R34). -/
def HasHouses (s : Machine.State) : Prop := s.houses.length = 2

/-- The table of the command queues is in canonical form. -/
def QueuesCanonical (s : Machine.State) : Prop := Machine.tblWf ({} : Machine.Queue) s.queues = true

/-- The invariants together. -/
def Sound (s : Machine.State) : Prop :=
  MemoriesCanonical s ∧ JobsInOrder s.jobs s.nextJob ∧ FailedHoldsRecord s ∧ HasHouses s ∧ QueuesCanonical s

end Sys2Proof
end

