-- ==== Sys2Proof/Certificates/Slice0/Terms.lean ====
section
/-! DEFINITION. The terms of the statements: a packet that its queue takes at once and whose checks pass, and what is left of the
state when its command runs. -/

namespace Sys2Proof.Claims

open Sys2Proof.Machine

/-- Queue `q` of 0 to 8 fetches `pk` as soon as it is placed (R326 to R330): its sender reaches it, it is enabled and not in ERROR,
its ring is empty with its indices equal, no command of it is in execution, and its completion ring has room for the replies. -/
def RingTakes (u : State) (q : Nat) (pk : Packet) : Bool :=
  let x := u.queue q
  u.senderOk q && u.fetches q && x.enable && !x.error && x.ring.isEmpty && x.sqTail == x.sqHead && decide (x.sqHead < u.ringBytes q) &&
  decide (ringSize pk < u.ringBytes q) && !u.holds q && u.ringRoom q pk

/-- Queue 9 takes `pk` (R332, R342, R351): its packet buffer is free, no command of it is in execution, the reply FIFO has room, and no
restart is in progress. -/
def PortTakes (u : State) (pk : Packet) : Bool :=
  u.senderOk 9 && u.rxReady && !u.holds 9 && u.fifoRoom pk && !u.sys.restart

/-- The state in which a packet that arrives at tick `t` and is taken is judged: it has passed through its ring. -/
def reached (s : State) (t : Tick) (h : Hdr) (p : Params) : State :=
  let u := s.enter t
  let x := u.queue h.queue
  let at_ := (x.sqHead + ringSize ⟨h, p⟩) % u.ringBytes h.queue
  if h.queue = 9 then u else u.setQueue h.queue { x with stall := false, sqHead := at_, sqTail := at_ }

/-- The state in which its command executes: an authenticated command has moved its sequence window (R338). -/
def fetched (s : State) (t : Tick) (h : Hdr) (p : Params) : State := (reached s t h p).noteSeq h.queue h

/-- Every acceptance step of Table 12.12 before the owning chapter's checks passes. -/
def ChecksPass (s : State) (t : Tick) (h : Hdr) (p : Params) : Bool :=
  let w := fetched s t h p
  (frameCheck h.queue h).isNone && ((s.enter t).authCheck h.queue h p).isNone && (w.opcodeCheck h.queue p).isNone &&
  (w.headerCheck h.queue h p).isNone && (w.modeCheck h.queue ⟨h, p⟩).isNone

/-- The packet with header `h` and parameters `p`, sent at tick `t`, is taken by its queue at once. -/
abbrev Taken (s : State) (t : Tick) (h : Hdr) (p : Params) : Prop :=
  tblWf ({} : Queue) s.queues = true ∧
  (h.queue < 9 ∧ RingTakes (s.enter t) h.queue ⟨h, p⟩ = true ∨ h.queue = 9 ∧ PortTakes (s.enter t) ⟨h, p⟩ = true)

/-- It is taken at once and passes the acceptance steps. -/
abbrev Accepted (s : State) (t : Tick) (h : Hdr) (p : Params) : Prop := Taken s t h p ∧ ChecksPass s t h p = true

/-- An accepted command that executes at once: it is not scheduled, and no LEAD stamps it for its MATE (R336, R387). -/
abbrev Immediate (s : State) (t : Tick) (h : Hdr) (p : Params) : Prop :=
  Accepted s t h p ∧ h.sched = false ∧ ((fetched s t h p).isLead && (rowOf p).pair == .s) = false

/-- The record that the replies of the command are made from. -/
def command (h : Hdr) (p : Params) : Job := runOf h.queue ⟨h, p⟩

/-- The command completes at its execution in state `w`: OK, with DETAIL 0 and its position on raster `ras` (house A's for none). -/
def okIn (w : State) (h : Hdr) (p : Params) (ras : Option Nat) : State := (w.finish (command h p) stOk 0 ras).settleLink

/-- The command completes OK in state `w` with the result `bs` written to its result descriptor. -/
def okWith (w : State) (h : Hdr) (p : Params) (r : Res) (bs : List Byte) : State :=
  (w.finish { command h p with res := some r, result := bs } stOk 0 none).settleLink

/-- The job of a command that waits: under the next identifier, its reply to come on raster `ras`. -/
def waiting (w : State) (h : Hdr) (p : Params) (kind : JobKind) (ras : Nat) (aux : List Nat) (res : Option (Res × List Byte)) : Job :=
  { command h p with id := w.nextJob, kind := kind, raster := ras, aux := aux, deadline := barrierDeadline w.now p,
                     frame := if kind = .exec then aux.head? else none, line := if kind = .exec then aux.getD 1 1 else 1,
                     res := res.map (·.1), result := (res.map (·.2)).getD [] }

/-- The command becomes a job in state `w`, with ACCEPTED where it asked for it (R336). -/
def joined (w : State) (h : Hdr) (p : Params) (kind : JobKind) (ras : Nat) (aux : List Nat := [])
    (res : Option (Res × List Byte) := none) : State :=
  (w.early (command h p) (w.position (some ras))).addJob (waiting w h p kind ras aux res)

/-- The command waits in state `w` for its boundary (`apply`), its stamped line (`exec`) or its event (`event`). -/
def waitsIn (w : State) (h : Hdr) (p : Params) (kind : JobKind) (ras : Nat) (aux : List Nat := []) : State :=
  (joined w h p kind ras aux).settleLink

/-- The command waits in state `w` for an event, with the result `bs` to come. -/
def waitsWith (w : State) (h : Hdr) (p : Params) (r : Res) (bs : List Byte) : State :=
  (joined w h p .event 0 [] (some (r, bs))).settleLink

/-! ### How a packet row ends

Each says what the row `i` answers when its packet is taken at once, executes at once, and meets the conditions `ok` of its chapter
on the state in which it executes. -/

/-- It completes OK with the effect `eff`. -/
def Completes (s : State) (t : Tick) (h : Hdr) (p : Params) (i : Instr) (ok : State → Prop) (eff : State → State)
    (ras : Option Nat := none) : Prop :=
  Immediate s t h p → ok (fetched s t h p) → exec i s = .next (okIn (eff (fetched s t h p)) h p ras)

/-- It completes OK with the effect `eff` and returns `bytes`, which fit its result descriptor `r`. -/
def Answers (s : State) (t : Tick) (h : Hdr) (p : Params) (i : Instr) (r : Res) (ok : State → Prop) (eff : State → State)
    (bytes : State → List Byte) : Prop :=
  Immediate s t h p → ok (fetched s t h p) → (bytes (fetched s t h p)).length ≤ r.bytes →
    exec i s = .next (okWith (eff (fetched s t h p)) h p r (bytes (fetched s t h p)))

/-- It becomes a job of the given kind after the effect `eff`. -/
def Waits (s : State) (t : Tick) (h : Hdr) (p : Params) (i : Instr) (ok : State → Prop) (eff : State → State) (kind : JobKind)
    (ras : Nat := 0) (aux : State → List Nat := fun _ => []) : Prop :=
  Immediate s t h p → ok (fetched s t h p) →
    exec i s = .next (waitsIn (eff (fetched s t h p)) h p kind ras (aux (fetched s t h p)))

/-- It becomes a job that an event completes, with the result `bytes` to come, which fit its result descriptor `r`. -/
def WaitsFor (s : State) (t : Tick) (h : Hdr) (p : Params) (i : Instr) (r : Res) (ok : State → Prop) (eff : State → State)
    (bytes : State → List Byte) : Prop :=
  Immediate s t h p → ok (fetched s t h p) → (bytes (fetched s t h p)).length ≤ r.bytes →
    exec i s = .next (waitsWith (eff (fetched s t h p)) h p r (bytes (fetched s t h p)))

/-- The register or event row `i` of tick `t` has the effect `eff` on the state to which time has come, where that state meets `ok`.
The rule holds out of reset. -/
def Events (s : State) (t : Tick) (i : Instr) (ok : State → Prop) (eff : State → State) : Prop :=
  s.sys.stage ≠ .inReset → ok (s.advance t) → exec i s = .next (eff (s.advance t))

/-- The row of the opcode table that sends the packet with parameters `p` (Table 13.1). -/
def packetRow (t : Tick) (h : Hdr) (p : Params) : Option Instr :=
  match p with
  | .sysIdentify p => some (.sysIdentify t h p)
  | .sysCaps p => some (.sysCaps t h p)
  | .sysMode p => some (.sysMode t h p)
  | .barrier p => some (.barrier t h p)
  | .sysRestart p => some (.sysRestart t h p)
  | .sysWakeSet p => some (.sysWakeSet t h p)
  | .sysFaultRead p => some (.sysFaultRead t h p)
  | .rasterSet p => some (.rasterSet t h p)
  | .rasterQuery p => some (.rasterQuery t h p)
  | .stcSet p => some (.stcSet t h p)
  | .stcRead p => some (.stcRead t h p)
  | .schedCancel p => some (.schedCancel t h p)
  | .bundleSet p => some (.bundleSet t h p)
  | .bundleStatus p => some (.bundleStatus t h p)
  | .laneTrain p => some (.laneTrain t h p)
  | .bundleSleep p => some (.bundleSleep t h p)
  | .bundleWake p => some (.bundleWake t h p)
  | .loopbackSet p => some (.loopbackSet t h p)
  | .prbsSet p => some (.prbsSet t h p)
  | .streamSet p => some (.streamSet t h p)
  | .routeTake p => some (.routeTake t h p)
  | .routeQuery p => some (.routeQuery t h p)
  | .lossSet p => some (.lossSet t h p)
  | .presetStore p => some (.presetStore t h p)
  | .presetRecall p => some (.presetRecall t h p)
  | .presetColdstart p => some (.presetColdstart t h p)
  | .bufCreate p => some (.bufCreate t h p)
  | .bufDestroy p => some (.bufDestroy t h p)
  | .bufQuery p => some (.bufQuery t h p)
  | .bufXfer p => some (.bufXfer t h p)
  | .captureBind p => some (.captureBind t h p)
  | .playoutBind p => some (.playoutBind t h p)
  | .weirQuery p => some (.weirQuery t h p)
  | .kernelBind p => some (.kernelBind t h p)
  | .kernelUpdate p => some (.kernelUpdate t h p)
  | .kernelUnbind p => some (.kernelUnbind t h p)
  | .engineReserve p => some (.engineReserve t h p)
  | .engineMigrate p => some (.engineMigrate t h p)
  | .engineQuery p => some (.engineQuery t h p)
  | .layerSet p => some (.layerSet t h p)
  | .layerFlip p => some (.layerFlip t h p)
  | .layerQuery p => some (.layerQuery t h p)
  | .compSet p => some (.compSet t h p)
  | .fenceBind p => some (.fenceBind t h p)
  | .fenceSignal p => some (.fenceSignal t h p)
  | .fenceQuery p => some (.fenceQuery t h p)
  | .groupSet p => some (.groupSet t h p)
  | .staticSet p => some (.staticSet t h p)
  | .audioRoute p => some (.audioRoute t h p)
  | .audioEmbed p => some (.audioEmbed t h p)
  | .asrcBind p => some (.asrcBind t h p)
  | .aportSet p => some (.aportSet t h p)
  | .aportMask p => some (.aportMask t h p)
  | .audioRingBind p => some (.audioRingBind t h p)
  | .audioQuery p => some (.audioQuery t h p)
  | .refSet p => some (.refSet t h p)
  | .synthSet p => some (.synthSet t h p)
  | .bandTableSet p => some (.bandTableSet t h p)
  | .clkoutSet p => some (.clkoutSet t h p)
  | .clkoutSync p => some (.clkoutSync t h p)
  | .clockStatus p => some (.clockStatus t h p)
  | .pairSet p => some (.pairSet t h p)
  | .pairResync p => some (.pairResync t h p)
  | .pairTransfer p => some (.pairTransfer t h p)
  | .pairStatus p => some (.pairStatus t h p)
  | .keyWrite p => some (.keyWrite t h p)
  | .keyDerive p => some (.keyDerive t h p)
  | .keyInvalidate p => some (.keyInvalidate t h p)
  | .keyQuery p => some (.keyQuery t h p)
  | .queueAuth p => some (.queueAuth t h p)
  | .laneCryptSet p => some (.laneCryptSet t h p)
  | .attest p => some (.attest t h p)
  | .tamperSet p => some (.tamperSet t h p)
  | .tamperStatus p => some (.tamperStatus t h p)
  | .nvRead p => some (.nvRead t h p)
  | .nvWrite p => some (.nvWrite t h p)
  | .nvProtect p => some (.nvProtect t h p)
  | .nvCounter p => some (.nvCounter t h p)
  | .auditRead p => some (.auditRead t h p)
  | .counterRead p => some (.counterRead t h p)
  | .counterSnapshot p => some (.counterSnapshot t h p)
  | .monitorSet p => some (.monitorSet t h p)
  | .monitorRead p => some (.monitorRead t h p)
  | .eventRoute p => some (.eventRoute t h p)
  | .gpioSet p => some (.gpioSet t h p)
  | .gpioEdge p => some (.gpioEdge t h p)
  | .gpioRead p => some (.gpioRead t h p)
  | .cpbLoad p => some (.cpbLoad t h p)
  | .cpbCtrl p => some (.cpbCtrl t h p)
  | .unknown _ => none

end Sys2Proof.Claims
end

