-- ==== Sys2Proof/Certificates/Slice0/Obligations.lean ====
section
/-!
DEFINITION. The statements for the provers. A row that completes is stated with the whole state it leads to, which says its frame too.
`Completes`, `Answers`, `Waits` and `Events` (file Terms) say that `exec` answers a next state under conditions on the state and the
operands. Chapters follow the spec.
-/

open Sys2Proof Sys2Proof.Machine Sys2Proof.Claims

/-- SYS_IDENTIFY, SYS_CAPS and SYS_FAULT_READ return the layouts of Tables 0.3 and 13.2, and CLEAR empties the fault record (R357). RASTER_QUERY and
STC_READ return where the rasters and the time base stand (R358, Table 13.3). ROUTE_QUERY returns a record per destination, in the order asked (R155).
BUNDLE_STATUS returns the words of Tables 5.8 and 5.9 for both directions and their lanes (R129, Table 13.4). -/
def Obligations.ReadsOfRoutesAndTime : Prop :=
  (∀ (s : State) (t : Tick) (h : Hdr),
  (∀ p, Answers s t h (.sysIdentify p) (.sysIdentify t h p) p.res (fun _ => True) id fun w =>
    leBytes 2 0x1D8B ++ leBytes 2 0x0512 ++ [0x42, 0x31] ++ leBytes 1 (b2n Config.grade) ++ leBytes 1 w.pair.role.code ++
    leBytes 1 w.sys.mode.code ++ leBytes 3 0 ++ leBytes 4 (Config.fwVersion w.sys.image) ++ leBytes 4 Config.romVersion ++
    leBytes 4 (Config.libVersion w.sys.image) ++ (List.range 16).map Config.uid ++ (List.range 48).map (Config.fwDigest w.sys.image) ++ leBytes 8 0) ∧
  (∀ p, Answers s t h (.sysCaps p) (.sysCaps t h p) p.res (fun _ => True) id fun _ =>
    [512, 512, 192, 512, 4096, 256, 128, 16, 256, 32, 32, 16384, 64, 3150, 16384, 0].flatMap (leBytes 2)) ∧
  (∀ p, Answers s t h (.sysFaultRead p) (.sysFaultRead t h p) p.res
    (fun w => p.rsvd = 0 ∧ (p.clear = true → w.sys.mode ≠ .failed))
    (fun w => if p.clear then { w with sys := { w.sys with fault := none, replaced := 0 } } else w)
    fun w => match w.sys.fault with
      | some r => leBytes 1 1 ++ leBytes 1 r.source ++ leBytes 2 r.unit ++ leBytes 1 r.modeBefore.code ++
          leBytes 1 w.sys.replaced ++ leBytes 2 0 ++ leBytes 8 r.addr ++ leBytes 8 r.stc ++ leBytes 8 r.position ++ leBytes 16 0
      | none => leBytes 48 0)) ∧
  (∀ (s : State) (t : Tick) (h : Hdr),
  (∀ p r, Answers s t h (.rasterQuery p) (.rasterQuery t h p) p.res
    (fun w => p.rsvd = 0 ∧ p.house < 2 ∧ w.raster? p.raster = some r ∧ p.predLine ≤ r.desc.totalLines ∧ p.predFrame < 2 ^ 48) id
    fun w => descBytes r.desc ++ leBytes 1 (if p.raster < 2 then (w.house p.raster).st.code else 0) ++ leBytes 1 0 ++ leBytes 6 0 ++
      leBytes 8 r.frame ++ leBytes 2 r.line ++ leBytes 2 (r.sample w.now) ++ leBytes 4 0 ++ leBytes 8 (w.stcOf r.frameT) ++
      leBytes 8 (descPeriod r.desc) ++ leBytes 8 0 ++
      leBytes 8 (if p.predLine = 0 then 0 else w.stcOf (r.lineT' p.predFrame p.predLine))) ∧
  (∀ p x, Answers s t h (.rasterQuery p) (.rasterQuery t h p) p.res
    (fun w => p.rsvd = 0 ∧ p.house < 2 ∧ 1024 ≤ p.raster ∧ p.raster < 1536 ∧ w.rxStream (p.raster - 1024) = some x) id
    fun w => descBytes x.fmt ++ leBytes 1 0 ++ leBytes 1 (b2n x.present + 2 * b2n x.stale) ++ leBytes 6 0 ++ leBytes 8 x.frame ++
      leBytes 2 x.line ++ leBytes 2 0 ++ leBytes 4 0 ++ leBytes 8 x.markStc.toNat ++ leBytes 8 x.period ++
      leBytes 8 (if x.marked then encInt 64 (if p.house = 0 then x.phaseA else x.phaseB) else 0) ++ leBytes 8 0) ∧
  (∀ p, Answers s t h (.stcRead p) (.stcRead t h p) p.res (fun _ => True) id fun w =>
    leBytes 8 w.stc ++ leBytes 8 w.now ++
    (leBytes 8 (w.house 0).frame.toNat ++ leBytes 2 (w.house 0).line ++ leBytes 2 ((w.house 0).standing.sample w.now) ++
      leBytes 1 (w.house 0).st.code ++ leBytes 3 0) ++
    (leBytes 8 (w.house 1).frame.toNat ++ leBytes 2 (w.house 1).line ++ leBytes 2 ((w.house 1).standing.sample w.now) ++
      leBytes 1 (w.house 1).st.code ++ leBytes 3 0))) ∧
  (∀ (s : State) (t : Tick) (h : Hdr) (p : RouteQueryP),
  Answers s t h (.routeQuery p) (.routeQuery t h p) p.res
    (fun _ => p.dests ≠ [] ∧ p.dests.length ≤ 1408 ∧ p.rsvd = 0 ∧ ∀ d ∈ p.dests, d ≤ 1407) id
    fun w => p.dests.flatMap fun dest => match w.route dest with
      | some r =>
        leBytes 2 dest ++ leBytes 2 r.src ++ leBytes 1 r.g ++ leBytes 1 (w.classNow dest r).code ++
        leBytes 1 (b2n r.syncRes + 2 * b2n r.forceSync + 4 * b2n r.autoCut) ++ leBytes 1 r.loss ++
        leBytes 2 ((r.resv.map fun v => 896 + v.cw).getD 0xFFFF) ++ leBytes 2 ((r.resv.map fun v => 896 + v.pb).getD 0xFFFF) ++
        leBytes 4 (min r.lead 0xFFFFFFFF) ++ leBytes 4 (min r.latency 0xFFFFFFFF) ++ leBytes 4 (w.pendingSeq dest)
      | none =>
        leBytes 2 dest ++ leBytes 2 0xFFFF ++ leBytes 1 (w.groupSizeAt dest) ++ leBytes 2 0 ++
        leBytes 1 (b2n (w.groupSizeAt dest != 0 && decide (dest < 512))) ++ leBytes 2 0xFFFF ++ leBytes 2 0xFFFF ++ leBytes 8 0 ++
        leBytes 4 (if w.groupSizeAt dest = 0 then 0 else w.pendingSeq dest)) ∧
  (∀ (s : State) (t : Tick) (h : Hdr) (p : BundleStatusP),
  Answers s t h (.bundleStatus p) (.bundleStatus t h p) p.res (fun _ => p.bundle < 64 ∧ p.rsvd = 0) id fun w =>
    let d := w.rxDir p.bundle
    let e := w.txDir p.bundle
    leBytes 8 (rxDirWord d) ++ leBytes 8 (txDirWord e) ++ d.lanes.flatMap (fun l => leBytes 4 (rxLaneWord l)) ++
    e.lanes.flatMap (fun l => leBytes 4 (txLaneWord l)) ++
    if p.extended then (lanesOf p.bundle).flatMap fun k =>
      let r := (rxLaneOf d k).set
      [BitVec.ofNat 8 r.dcGain, BitVec.ofNat 8 (encInt 8 r.dfe2), BitVec.ofNat 8 (encInt 8 r.dfe3), BitVec.ofNat 8 (encInt 8 r.dfe4),
       BitVec.ofNat 8 (encInt 8 r.dfe5), BitVec.ofNat 8 (txLaneOf e k).main, 0, 0]
    else [])

/-- BUF_QUERY and WEIR_QUERY return the layouts of Table 13.7 (R189). LAYER_QUERY and FENCE_QUERY return the layouts of Table 13.9 (R261, R280).
AUDIO_QUERY returns a record per channel of the side asked (R321). -/
def Obligations.ReadsOfPondLayersAudio : Prop :=
  (∀ (s : State) (t : Tick) (h : Hdr),
  (∀ p b, Answers s t h (.bufQuery p) (.bufQuery t h p) p.res (fun w => w.bufAt p.handle = some b ∧ p.rsvd = 0) id fun w =>
    let cs := w.pond.charges.filter fun c => c.sub == p.handle && c.kind != 7
    bufParamBytes b.params ++ leBytes 8 b.addr ++ leBytes 8 b.size ++ leBytes 4 (totalMb cs) ++ leBytes 2 cs.length ++ leBytes 18 0) ∧
  (∀ p, Answers s t h (.weirQuery p) (.weirQuery t h p) p.res (fun _ => True) id fun w =>
    let share (size held : Nat) : List Byte := leBytes 4 size ++ leBytes 4 held ++ leBytes 4 (size - held)
    share 3150000 w.grantHeld ++ share 4000 4000 ++ share 32000 32000 ++ share 8000 w.windowHeld ++ share 6000 0 ++
    ((List.range 8).flatMap fun k => leBytes 4 (totalMb (w.pond.charges.filter fun c => c.kind == k))) ++ leBytes 4 0 ++
    leBytes 8 (total (·.2) (w.freeExtents [])) ++ leBytes 8 (((w.freeExtents []).map (·.2)).foldl max 0))) ∧
  (∀ (s : State) (t : Tick) (h : Hdr),
  (∀ p, Answers s t h (.layerQuery p) (.layerQuery t h p) p.res
    (fun w => p.rsvd = 0 ∧ p.output < 512 ∧ (w.txStream p.output).isSome = true) id
    fun w => [1, 2, 3, 4, 5, 6, 7].flatMap fun l =>
      let c := w.compOut p.output
      let x := layerOf c l
      leBytes 1 l ++
      leBytes 1 (b2n x.a.enable + 2 * b2n x.a.follow + 8 * b2n (shownAttr c l).isSome +
        16 * b2n (c.runs.any fun r => r.any fun y => isStatic y x.a) + 32 * b2n x.group.isSome) ++
      leBytes 1 x.a.z ++ leBytes 1 x.sluice.code ++ leBytes 4 (x.a.buf.getD 0) ++ leBytes 2 x.a.slot ++
      leBytes 2 (x.group.getD 0xFFFF) ++ leBytes 4 (((x.pend.bind fun f => w.jobs.find? fun j => j.id == f.job).map (·.seq)).getD 0) ++
      leBytes 4 ((x.pend.map (·.defer)).getD 0) ++
      leBytes 4 (((w.pond.charges.find? fun k => k.kind == 3 && k.holder == 7 * p.output + l - 1).map fun k => k.mb).getD 0) ++
      leBytes 8 x.lastFlip) ∧
  (∀ p, Answers s t h (.fenceQuery p) (.fenceQuery t h p) p.res (fun _ => p.rsvd = 0 ∧ p.fence < 256) id fun w =>
    leBytes 4 (w.fence p.fence).value.toNat ++ leBytes 2 ((w.fence p.fence).point.getD 0xFFFF) ++ leBytes 2 0 ++
    leBytes 8 (w.fence p.fence).stamp ++ leBytes 8 (w.fence p.fence).discarded)) ∧
  (∀ (s : State) (t : Tick) (h : Hdr) (p : AudioQueryP),
  Answers s t h (.audioQuery p) (.audioQuery t h p) p.res
    (fun w => p.channels ≠ [] ∧ p.channels.length ≤ 1024 ∧ p.rsvd = 0 ∧
      (p.side = 0 ∧ (∀ c ∈ p.channels, (w.dstRateOf c).isSome = true) ∨
       p.side = 1 ∧ ∀ c ∈ p.channels, (w.srcInfo c).isSome = true)) id
    fun w => p.channels.flatMap (w.audioRecord p.side))

/-- SYS_MODE takes one of the transitions of Table 0.5; one to QUIET begins Quiet entry; in QUIET it sets the SPI wake latch and waits for the end of
the wake (R6, R510, R512). SYS_RESTART and SYS_WAKE_SET: a control firmware restart begins, at once or on a LEAD in lockstep at its stamped line; KIND
1 resets the device and gives no reply; the wake settings are stored and each latch keeps the value its condition gives it (R356, R510). -/
def Obligations.ModeRestartAndWakeCommands : Prop :=
  (∀ (s : State) (t : Tick) (h : Hdr) (p : SysModeP), p.mode < 6 → p.rsvd = 0 →
  Completes s t h (.sysMode p) (.sysMode t h p)
    (fun w => w.sys.mode ≠ .quiet ∧ w.sys.quiet = .awake ∧ transitionOk w.sys.mode (modeOf p.mode) = true ∧ modeOf p.mode ≠ .quiet ∧
      (modeOf p.mode = .service → w.sys.coldRecall = false ∧ w.stepPolicy = false)) (fun w => w.setMode (modeOf p.mode)) ∧
  Completes s t h (.sysMode p) (.sysMode t h p)
    (fun w => (w.sys.mode = .bringup ∨ w.sys.mode = .service) ∧ w.sys.quiet = .awake ∧ modeOf p.mode = .quiet ∧
      w.pair.role = .solo ∧ Nat.land (w.latches none) w.sys.wakeEnables = 0) State.beginQuiet ∧
  Waits s t h (.sysMode p) (.sysMode t h p)
    (fun w => w.sys.mode = .quiet ∧ bit w.sys.wakeEnables 1 = true ∧ modeOf p.mode = w.sys.modeBefore)
    (fun w => w.setLatch 1) .event) ∧
  (∀ (s : State) (t : Tick) (h : Hdr),
  (∀ p, Waits s t h (.sysRestart p) (.sysRestart t h p)
    (fun w => p.kind = 0 ∧ p.rsvd = 0 ∧ w.sys.mode ≠ .failed ∧ ¬(w.pair.role = .lead ∧ w.pair.sync = .lockstep))
    (fun w => w.beginRestart false) .event) ∧
  (∀ p, Waits s t h (.sysRestart p) (.sysRestart t h p)
    (fun w => p.kind = 0 ∧ p.rsvd = 0 ∧ w.sys.mode ≠ .failed ∧ w.pair.role = .lead ∧ w.pair.sync = .lockstep)
    (fun w => w.emit (.brinen 13 [w.pair.nextRix, (w.stamp (4 * h.length)).1, (w.stamp (4 * h.length)).2])) .exec 0
    (fun w => [(w.stamp (4 * h.length)).1, (w.stamp (4 * h.length)).2])) ∧
  (∀ p : SysRestartP, Immediate s t h (.sysRestart p) → p.kind = 1 → p.rsvd = 0 →
    exec (.sysRestart t h p) s = .next (commandReset (fetched s t h (.sysRestart p))).settleLink) ∧
  (∀ p, Completes s t h (.sysWakeSet p) (.sysWakeSet t h p) (fun _ => p.enables < 32 ∧ p.rsvd = 0)
    fun w => { w with sys := { w.sys with
      wakeEnables := p.enables, wakeTimer := p.timer,
      wakeLatch := b2n (bit w.sys.wakeLatch 0 && Config.wakeLow w.now) + 4 * b2n (decide (p.timer ≤ w.stc)) } }))

/-- BARRIER completes at once when every condition is met, and waits otherwise (R344). SCHED_CANCEL removes an action whose arming point lies ahead:
the action gives back what it reserved and completes CANCELLED, and the command completes OK (R55). RASTER_SET waits for the next frame start of its
raster, STC_SET for the next house A line start (R40, R49). -/
def Obligations.ScheduleAndTimeCommands : Prop :=
  (∀ (s : State) (t : Tick) (h : Hdr) (p : BarrierP),
  p.rsvd = 0 → p.waits.length ≤ 10 → p.timeout ≤ 60000 → p.fence < 256 →
  (∀ x ∈ p.waits, x.queue < 10 ∧ x.queue ≠ h.queue) →
  Completes s t h (.barrier p) (.barrier t h p)
    (fun w => (∀ x ∈ p.waits, reaches (w.queue x.queue).lastSeq (BitVec.ofNat 32 x.seq) = true ∧
        (p.applied = true → ∀ j ∈ w.jobs, j.queue = x.queue → j.sched = true → j.kind = .apply →
          reaches (BitVec.ofNat 32 x.seq) (BitVec.ofNat 32 j.seq) = false)) ∧
      (p.fenceWait = true → reaches (w.fence p.fence).value (BitVec.ofNat 32 p.fenceValue) = true)) id ∧
  Waits s t h (.barrier p) (.barrier t h p) (fun w => w.barrierMet p = false) id .event) ∧
  (∀ (s : State) (t : Tick) (h : Hdr) (p : SchedCancelP) (j : Job),
  Completes s t h (.schedCancel p) (.schedCancel t h p)
    (fun w => p.rsvd = 0 ∧ p.queue < 10 ∧ w.pendingAction p.queue p.seq = some j ∧ w.beforeArming j = true)
    fun w => (releaseOf j w).complete j stCancelled 0 (some j.raster)) ∧
  (∀ (s : State) (t : Tick) (h : Hdr),
  (∀ p, Waits s t h (.rasterSet p) (.rasterSet t h p)
    (fun w => p.raster < 2 ∧ p.rsvd = 0 ∧ (w.sys.mode = .bringup ∨ w.sys.mode = .test) ∧ descOk p.desc true = true ∧
      (∀ e ∈ w.outputsOn p.raster, ratioOk e.2.desc p.desc = true) ∧
      ((fget {} w.clocks.refs p.raster : Ref).enable = true →
        wholeCycles (fget {} w.clocks.refs p.raster : Ref).freqHz p.desc = true)) id .apply p.raster) ∧
  (∀ p x, Waits s t h (.rasterSet p) (.rasterSet t h p)
    (fun w => 2 ≤ p.raster ∧ (w.raster? p.raster).isSome = true ∧ w.txStream (p.raster - 2) = some x ∧ p.rsvd = 0 ∧
      descOk p.desc false = true ∧ ratioOk p.desc (w.house p.desc.house).desc = true ∧ w.txPeakOk x.cfg p.desc = true)
    id .apply p.raster) ∧
  (∀ p, Waits s t h (.stcSet p) (.stcSet t h p) (fun _ => p.op < 2 ∧ p.rsvd = 0) id .event))

/-- BUNDLE_SET stores a direction's settings, and a new receive rate begins a training round; LANE_TRAIN begins one and waits for its end (R84, R117,
R118, R361). BUNDLE_SLEEP and BUNDLE_WAKE: a direction already there completes at once; a sending transmit direction sends three withdrawn
superframes, the last with SLEEP; a receive direction idles its lanes and requests sleep on the back channel (R122, R123). LOOPBACK_SET changes the
path of a port, ends a training round and starts its directions anew; PRBS_SET puts lanes in TEST with a checker, or gives them a generator, and
pattern 0 ends both (R124, R126). -/
def Obligations.BundleCommands : Prop :=
  (∀ (s : State) (t : Tick) (h : Hdr),
  (∀ p, Completes s t h (.bundleSet p) (.bundleSet t h p)
    (fun w => p.bundle < 64 ∧ p.dir = 0 ∧ p.rate < 3 ∧ p.laneMask < 256 ∧ p.rsvd = 0 ∧ p.swing = 0 ∧
      (p.expectBase ≤ 511 ∨ p.expectBase = 0xFFFF) ∧ spreadOk p.spread = true ∧
      (w.rxDir p.bundle).loopback = 0 ∧ (w.rxDir p.bundle).prbs = false)
    fun w => if (w.rxDir p.bundle).rate ≠ p.rate ∧ ((setRxBundle p w).rxDir p.bundle).mayTrain = true
      then (setRxBundle p w).startRound p.bundle else setRxBundle p w) ∧
  (∀ p, Completes s t h (.bundleSet p) (.bundleSet t h p)
    (fun w => p.bundle < 64 ∧ p.dir = 1 ∧ p.rate < 3 ∧ p.laneMask < 256 ∧ p.rsvd = 0 ∧ 40 ≤ p.swing ∧ p.swing ≤ 100 ∧
      p.expectBase = 0 ∧ p.spread = 0 ∧ (w.txDir p.bundle).loopback = 0 ∧ (w.txDir p.bundle).prbs = false)
    fun w =>
      let d := w.txDir p.bundle
      let w1 := w.setTx p.bundle { d with enable := p.enable, mask := p.laneMask, rate := p.rate, trainAuto := p.trainAuto,
                                          adapt := p.adapt, swing := p.swing }
      if (d.rate ≠ p.rate ∨ (p.enable = true ∧ d.enable = false)) ∧ d.asleep = false then w1.txStart p.bundle else w1) ∧
  (∀ p, Waits s t h (.laneTrain p) (.laneTrain t h p)
    (fun w => p.bundle < 64 ∧ p.rsvd = 0 ∧ (w.rxDir p.bundle).training = false ∧ (w.rxDir p.bundle).asleep = false ∧
      (w.rxDir p.bundle).loopback = 0 ∧ (w.rxDir p.bundle).prbs = false)
    (fun w => w.startRound p.bundle) .event)) ∧
  (∀ (s : State) (t : Tick) (h : Hdr) (p : BundleDirP), p.bundle < 64 → p.rsvd = 0 →
  Completes s t h (.bundleSleep p) (.bundleSleep t h p)
    (fun w => p.dir = 0 ∧ (w.rxDir p.bundle).loopback = 0 ∧ (w.rxDir p.bundle).prbs = false ∧ (w.rxDir p.bundle).asleep = true) id ∧
  Waits s t h (.bundleSleep p) (.bundleSleep t h p)
    (fun w => p.dir = 0 ∧ (w.rxDir p.bundle).loopback = 0 ∧ (w.rxDir p.bundle).prbs = false ∧ (w.rxDir p.bundle).asleep = false)
    (fun w =>
      let w1 := (w.dropRound p.bundle).lanesIdle p.bundle
      let w2 := w1.setRx p.bundle { w1.rxDir p.bundle with asleep := true, dll := false }
      if (w2.txDir p.bundle).asleep then w2
      else State.each (fun k v => v.askPartner p.bundle k 3 3 0 false) (lanesOf p.bundle) w2) .event ∧
  Completes s t h (.bundleSleep p) (.bundleSleep t h p)
    (fun w => p.dir = 1 ∧ (w.txDir p.bundle).loopback = 0 ∧ (w.txDir p.bundle).prbs = false ∧ (w.txDir p.bundle).asleep = true) id ∧
  Waits s t h (.bundleSleep p) (.bundleSleep t h p)
    (fun w => p.dir = 1 ∧ (w.txDir p.bundle).loopback = 0 ∧ (w.txDir p.bundle).prbs = false ∧ (w.txDir p.bundle).asleep = false ∧
      (w.txDir p.bundle).sends = true)
    (fun w => w.setTx p.bundle { w.txDir p.bundle with phase := .withdrawing 3 .sleep }) .event ∧
  Completes s t h (.bundleSleep p) (.bundleSleep t h p)
    (fun w => p.dir = 1 ∧ (w.txDir p.bundle).loopback = 0 ∧ (w.txDir p.bundle).prbs = false ∧ (w.txDir p.bundle).asleep = false ∧
      (w.txDir p.bundle).sends = false)
    (fun w => w.setTx p.bundle { w.txDir p.bundle with asleep := true, phase := .idle }) ∧
  Waits s t h (.bundleWake p) (.bundleWake t h p)
    (fun w => p.dir = 0 ∧ (w.rxDir p.bundle).asleep = true ∨ p.dir = 1 ∧ (w.txDir p.bundle).asleep = true) id .event ∧
  Completes s t h (.bundleWake p) (.bundleWake t h p)
    (fun w => p.dir = 0 ∧ (w.rxDir p.bundle).asleep = false ∨ p.dir = 1 ∧ (w.txDir p.bundle).asleep = false) id) ∧
  (∀ (s : State) (t : Tick) (h : Hdr),
  (∀ p, Completes s t h (.loopbackSet p) (.loopbackSet t h p)
    (fun w => p.port < 64 ∧ p.path < 4 ∧ p.rsvd = 0 ∧ (w.rxDir p.port).asleep = false ∧ (w.txDir p.port).asleep = false ∧
      (w.rxDir p.port).rate = (w.txDir p.port).rate)
    fun w => if (w.rxDir p.port).loopback = p.path then w
      else
        let w0 := w.dropRound p.port
        let w1 := w0.setRx p.port { w0.rxDir p.port with loopback := p.path }
        ((w1.setTx p.port { w1.txDir p.port with loopback := p.path }).txStart p.port).reacquire p.port) ∧
  (∀ p, Completes s t h (.prbsSet p) (.prbsSet t h p)
    (fun w => p.bundle < 64 ∧ p.dir = 1 ∧ p.pattern < 4 ∧ p.laneMask < 256 ∧ p.rsvd = 0 ∧ (w.txDir p.bundle).asleep = false)
    fun w =>
      let c : Option Prbs := if p.pattern = 0 then none else some { pattern := p.pattern, invert := p.invert }
      w.setTx p.bundle { w.txDir p.bundle with
        lanes := mapAt (fun k (l : TxLane) => if p.laneMask.testBit k then { l with prbs := c } else l) 0 (w.txDir p.bundle).lanes }) ∧
  (∀ p, Completes s t h (.prbsSet p) (.prbsSet t h p)
    (fun w => p.bundle < 64 ∧ p.dir = 0 ∧ p.pattern < 4 ∧ p.laneMask < 256 ∧ p.rsvd = 0 ∧ (w.rxDir p.bundle).asleep = false)
    fun w => (State.each (fun k s =>
      if p.laneMask.testBit k then
        let s1 := s.laneTo p.bundle k (if p.pattern = 0 then .idle else .test)
        let c : Option Prbs := if p.pattern = 0 then none else some { pattern := p.pattern, invert := p.invert }
        s1.setRxLane p.bundle k { rxLaneOf (s1.rxDir p.bundle) k with prbs := c }
      else s) (lanesOf p.bundle) (if p.pattern = 0 then w else w.dropRound p.bundle)).lanesHunt p.bundle))

/-- STREAM_SET configures a receive group at once and waits for a frame start with a transmit group; LOSS_SET waits for the output's next frame start
(R56, R58, R151, R363). -/
def Obligations.StreamAndLossCommands : Prop :=
  ∀ (s : State) (t : Tick) (h : Hdr),
  (∀ p, Completes s t h (.streamSet p) (.streamSet t h p) (fun w => p.dir = 0 ∧ chkStreamSet h p w = none) (setReceive p)) ∧
  (∀ p, Waits s t h (.streamSet p) (.streamSet t h p)
    (fun w => p.dir = 1 ∧ chkStreamSet h p w = none ∧ (w.outRaster (8 * p.bundle + p.lane)).isSome = true) id .apply
    (2 + (8 * p.bundle + p.lane))) ∧
  (∀ p, Waits s t h (.streamSet p) (.streamSet t h p)
    (fun w => p.dir = 1 ∧ chkStreamSet h p w = none ∧ w.outRaster (8 * p.bundle + p.lane) = none) id .apply 0) ∧
  (∀ p, Waits s t h (.lossSet p) (.lossSet t h p)
    (fun w => w.routes.recalling = false ∧ p.policy < 3 ∧ p.holdLimit ≤ 65535 ∧ p.rsvd = 0 ∧ p.output < 512 ∧
      (w.txStream p.output).isSome = true) id .apply (2 + p.output))

/-- An immediate ROUTE_TAKE or PRESET_RECALL reserves what its routes need and becomes a job; its entries and records are then due, and those that
apply at once do (R136, R137, R158). PRESET_STORE writes a new copy and switches the directory, or with CAPTURE waits for the next house A frame
start; PRESET_COLDSTART writes the directory (R157, R159). -/
def Obligations.RouteAndPresetCommands : Prop :=
  (∀ (s : State) (t : Tick) (h : Hdr),
  (∀ p : RouteTakeP, Immediate s t h (.routeTake p) → chkRouteTake h p (fetched s t h (.routeTake p)) = none →
    exec (.routeTake t h p) s = .next
      (let w := fetched s t h (.routeTake p)
       let w1 := planTake h w.nextJob p.entries w
       ((joined w1 h (.routeTake p) .event (takeRaster p.entries)).dueTake w1.nextJob).settleLink)) ∧
  (∀ p : PresetRecallP, Immediate s t h (.presetRecall p) → chkPresetRecall h p (fetched s t h (.presetRecall p)) = none →
    exec (.presetRecall t h p) s = .next
      (let w := fetched s t h (.presetRecall p)
       let w1 := planPresetRecall h w.nextJob p w
       let ras := takeRaster (((w.readPreset p.preset).map (·.routes)).getD [])
       (applyPresetRecall (waiting w1 h (.presetRecall p) .event ras [] none) p (joined w1 h (.presetRecall p) .event ras)).settleLink))) ∧
  (∀ (s : State) (t : Tick) (h : Hdr),
  (∀ p, Waits s t h (.presetStore p) (.presetStore t h p)
    (fun w => w.routes.recalling = false ∧ p.preset < 8 ∧ p.rsvd = 0 ∧ p.capture = true ∧ w.dirProtected = false) id .apply 0) ∧
  (∀ (p : PresetStoreP) (w1 : State), Immediate s t h (.presetStore p) →
    (fetched s t h (.presetStore p)).routes.recalling = false → p.preset < 8 → p.rsvd = 0 → p.capture = false →
    countsOk p.body = true → recordsOk p.body = true → (fetched s t h (.presetStore p)).dirProtected = false →
    (fetched s t h (.presetStore p)).storePreset (fetched s t h (.presetStore p)).nextJob p.preset p.body = some w1 →
    exec (.presetStore t h p) s = .next (waitsIn w1 h (.presetStore p) .event 0)) ∧
  (∀ p, Waits s t h (.presetColdstart p) (.presetColdstart t h p)
    (fun w => w.routes.recalling = false ∧ (p.preset < 8 ∨ p.preset = 255) ∧ p.rsvd = 0 ∧ w.dirProtected = false)
    (fun w => w.writeDir w.dirSoon.1 (patch w.dirSoon.2 2 (leBytes 1 p.preset ++ leBytes 1 (b2n p.enable))) (.lastOf w.nextJob))
    .event))

/-- BUF_CREATE takes the lowest free object index, an extent and, for a host window, its share of the Weir, and returns the handle; BUF_DESTROY
removes an object that nothing uses (R163, R171, R172, R186). The index and the extent are the model's choice (log 18). BUF_XFER through a host window
starts a transfer that XFER_COMPLETE ends (R179, R180, R316). -/
def Obligations.BufferCommands : Prop :=
  (∀ (s : State) (t : Tick) (h : Hdr),
  (∀ (p : BufCreateP) (i a : Nat), Answers s t h (.bufCreate p) (.bufCreate t h p) p.res
    (fun w => bufParamsOk p.params w = true ∧ p.params.typ ≠ 6 ∧ w.freeIndex = some i ∧ roundPond (bufBytes p.params) ≠ 0 ∧
      w.findExtent [] (roundPond (bufBytes p.params)) = some a)
    (fun w => (w.createBuf p.params i a).2)
    fun w => leBytes 4 ((fget 0 w.pond.gens i % 262143 + 1) * 16384 + i)) ∧
  (∀ (p : BufCreateP) (i : Nat), Answers s t h (.bufCreate p) (.bufCreate t h p) p.res
    (fun w => bufParamsOk p.params w = true ∧ p.params.typ = 6 ∧ w.freeIndex = some i ∧ roundPond (bufBytes p.params) = 0 ∧
      w.admission (fun _ => false) [{ kind := 8, holder := 0, mb := p.params.hwRate }] = none)
    (fun w => (w.createBuf p.params i 0).2)
    fun w => leBytes 4 ((fget 0 w.pond.gens i % 262143 + 1) * 16384 + i)) ∧
  (∀ p, Completes s t h (.bufDestroy p) (.bufDestroy t h p)
    (fun w => (w.bufAt p.handle).isSome = true ∧ w.bufUsed p.handle = false)
    fun w => ({ w with pond := { w.pond with bufs := fset none w.pond.bufs (p.handle % 16384) none } }).charge (ofUser 8 p.handle) [])) ∧
  (∀ (s : State) (t : Tick) (h : Hdr) (p : BufXferP) (b tgt : Buf),
  Waits s t h (.bufXfer p) (.bufXfer t h p)
    (fun w => h.queue ≠ 9 ∧ w.bufAt p.window = some b ∧ b.params.typ = 6 ∧ w.bufAt b.params.target = some tgt ∧ p.rsvd = 0 ∧
      p.offset % 256 = 0 ∧ p.hostAddr % 256 = 0 ∧ p.bytes % 256 = 0 ∧ 0 < p.bytes ∧ p.offset + p.bytes ≤ tgt.size ∧
      (p.p3 = true → tgt.params.typ = 4) ∧
      (p.markComplete = true → b.params.dir = 1 ∧ isRing tgt = true ∧ p.slot < tgt.params.count) ∧
      (b.params.dir = 1 → isRing tgt = true →
        ∀ k ∈ slotsIn tgt p.offset (p.offset + p.bytes) ++ (if p.markComplete then [p.slot] else []),
          (w.heldSlots b.params.target).contains k = false) ∧
      (b.params.dir = 1 → tgt.params.typ = 3 → (w.comp.outs.any fun e => e.2.runs.any fun r => r.any fun (x : StaticRun) =>
        x.bufA == b.params.target || x.bufB == b.params.target) = false) ∧
      (b.params.dir = 1 → tgt.params.typ = 5 → (w.engines.tasks.any fun e => e.2.any fun (k : Task) =>
        (blockHandles k.p.block).contains b.params.target) = false))
    (fun w => { w with pond := { w.pond with
      xfers := w.pond.xfers ++ [{ job := w.nextJob, p := p, buf := b.params.target, toDevice := b.params.dir == 1 }] } }) .event)

/-- CAPTURE_BIND and PLAYOUT_BIND bind and unbind their points and charge the Weir; a one-shot capture waits for its frame (R181). -/
def Obligations.CaptureAndPlayoutCommands : Prop :=
  ∀ (s : State) (t : Tick) (h : Hdr),
  (∀ (p : CaptureBindP),
    let mine (c : Charge) : Bool := decide (c.kind < 2) && c.holder == p.cw
    let apart (w : State) : Bool := w.pond.caps.any fun e => e.2.any fun (c : CapBind) =>
      overlap e.1 c.p.g (p.cw - 896) p.g && (e.1 != p.cw - 896 || c.p.g != p.g)
    Completes s t h (.captureBind p) (.captureBind t h p)
      (fun w => bindPointOk p.cw p.g = true ∧ p.rsvd = 0 ∧ p.handle = 0 ∧ p.oneShot = false ∧ w.destRouted p.cw p.g = false ∧
        w.resvHolds (p.cw - 896) p.g = false ∧ apart w = false ∧ w.admission mine [] = none)
      (fun w => endBind (fget none w.pond.caps (p.cw - 896)) ((w.setCap (p.cw - 896) none).charge mine [])) ∧
    (∀ b : Buf,
      let add : List Charge := [{ kind := if b.params.typ = 1 then 1 else 0, holder := p.cw, sub := p.handle, mb := writerCharge b.params }]
      let ok (w : State) : Prop := bindPointOk p.cw p.g = true ∧ p.rsvd = 0 ∧ p.handle ≠ 0 ∧ w.bufAt p.handle = some b ∧
        b.params.typ < 3 ∧ (p.oneShot = true → b.params.typ = 2) ∧ w.destRouted p.cw p.g = false ∧
        w.resvHolds (p.cw - 896) p.g = false ∧ apart w = false ∧ w.admission mine add = none
      Completes s t h (.captureBind p) (.captureBind t h p) (fun w => p.oneShot = false ∧ ok w)
        (fun w => ((endBind (fget none w.pond.caps (p.cw - 896)) w).setCap (p.cw - 896) (some { p := p })).charge mine add) ∧
      Waits s t h (.captureBind p) (.captureBind t h p) (fun w => p.oneShot = true ∧ ok w)
        (fun w => ((endBind (fget none w.pond.caps (p.cw - 896)) w).setCap (p.cw - 896) (some { p := p, job := some w.nextJob })).charge mine add) .event)) ∧
  (∀ (p : PlayoutBindP),
    let apart (w : State) : Bool := w.pond.plays.any fun e => e.2.any fun (c : PlayBind) =>
      overlap e.1 c.p.g (p.pb - 896) p.g && (e.1 != p.pb - 896 || c.p.g != p.g)
    Completes s t h (.playoutBind p) (.playoutBind t h p)
      (fun w => bindPointOk p.pb p.g = true ∧ p.rsvd = 0 ∧ p.handle = 0 ∧ w.bufAt 0 = none ∧ w.srcRouted p.pb p.g = false ∧
        w.resvHoldsPb (p.pb - 896) p.g = false ∧ apart w = false ∧ w.admission (ofUser 2 p.pb) [] = none)
      (fun w => (w.setPlay (p.pb - 896) none).charge (ofUser 2 p.pb) []) ∧
    (∀ (b : Buf) (r : Standing),
      let add : List Charge := [{ kind := 2, holder := p.pb, sub := p.handle, mb := readerCharge b.params.width b.params.format r.desc }]
      Completes s t h (.playoutBind p) (.playoutBind t h p)
        (fun w => bindPointOk p.pb p.g = true ∧ p.rsvd = 0 ∧ p.handle ≠ 0 ∧ w.bufAt p.handle = some b ∧ isRing b = true ∧
          w.raster? p.raster = some r ∧ p.mode < 3 ∧ (p.mode = 0 → p.extra ≤ 5) ∧ (p.mode = 2 → p.slot < b.params.count) ∧
          w.srcRouted p.pb p.g = false ∧ w.resvHoldsPb (p.pb - 896) p.g = false ∧ apart w = false ∧
          w.admission (ofUser 2 p.pb) add = none)
        fun w => (w.setPlay (p.pb - 896) (some { p := p })).charge (ofUser 2 p.pb) add))

/-- KERNEL_BIND charges and binds the task and loads its engines; KERNEL_UPDATE and ENGINE_MIGRATE wait for the first frame of the task's raster whose
arming point is ahead, a migration with its spares loading and charged; KERNEL_UNBIND frees the engines of a task that nothing names, and a bind of it
that still loads completes CANCELLED (the model's choice, assumption 26) (R193, R195, R198, R209, R212). ENGINE_RESERVE makes free engines spares at a
ceiling that the Weir holds for them, or frees spares that no migration names; ENGINE_QUERY returns a record per engine (R211, Table 13.8). -/
def Obligations.EngineCommands : Prop :=
  (∀ (s : State) (t : Tick) (h : Hdr),
  (∀ p, Waits s t h (.kernelBind p) (.kernelBind t h p) (fun w => chkKernelBind h p w = none)
    (fun w => ((w.charge (fun _ => false) (w.taskCharges p)).bindTask w.nextJob p)) .event p.raster) ∧
  (∀ p k, Waits s t h (.kernelUpdate p) (.kernelUpdate t h p) (fun w => w.task p.engine = some k ∧ chkKernelUpdate h p w = none)
    id .apply k.p.raster (fun w => [w.firstFrame k.p.raster (w.armEo k.p.raster k.p.outAdv w.armLines)])) ∧
  (∀ p k, Completes s t h (.kernelUnbind p) (.kernelUnbind t h p)
    (fun w => w.task p.engine = some k ∧ p.rsvd = 0 ∧ w.pointsRouted (512 + 2 * p.engine) (2 * k.p.gang) = false ∧
      w.jobs.any (namesTask k.p.gang p.engine) = false ∧ k.migrate = none)
    fun w => State.each (fun e s => s.setEngine e { slice := (s.engine e).slice }) (gangOf k.p)
      (((w.endLoading k).setTask p.engine none).charge (fun c => (gangOf k.p).any fun e => ofEngine e c) [])) ∧
  (∀ p k, Waits s t h (.engineMigrate p) (.engineMigrate t h p) (fun w => w.task p.engine = some k ∧ chkEngineMigrate h p w = none)
    (fun w => planEngineMigrate w.nextJob p w) .apply k.p.raster
    (fun w => [w.firstFrame k.p.raster (w.migrateLines k)]))) ∧
  (∀ (s : State) (t : Tick) (h : Hdr),
  (∀ (p : EngineReserveP),
    let es := (List.range p.count).map (p.first + ·)
    let add : List Charge := if p.ceiling = 0 then [] else es.map fun e => { kind := 6, holder := e, mb := p.ceiling }
    Completes s t h (.engineReserve p) (.engineReserve t h p)
      (fun w => p.release = false ∧ p.first < 192 ∧ 1 ≤ p.count ∧ p.first + p.count ≤ 192 ∧ p.rsvd = 0 ∧
        (∀ e ∈ es, (w.engine e).st = .free ∧ w.bindPending e = false) ∧ w.admission (fun _ => false) add = none)
      (fun w => (State.each (fun e s => s.setEngine e { s.engine e with st := .spare, ceiling := p.ceiling }) es w).charge
        (fun _ => false) add) ∧
    Completes s t h (.engineReserve p) (.engineReserve t h p)
      (fun w => p.release = true ∧ p.first < 192 ∧ 1 ≤ p.count ∧ p.first + p.count ≤ 192 ∧ p.rsvd = 0 ∧
        ∀ e ∈ es, (w.engine e).st = .spare ∧ w.spareTaken e = false)
      fun w => (State.each (fun e s => s.setEngine e { slice := (s.engine e).slice }) es w).charge
        (fun c => es.any fun e => ofEngine e c) []) ∧
  (∀ p, Answers s t h (.engineQuery p) (.engineQuery t h p) p.res
    (fun _ => p.first < 192 ∧ 1 ≤ p.count ∧ p.first + p.count ≤ 192 ∧ p.rsvd = 0) id
    fun w => (List.range p.count).flatMap fun i => w.engineRecord (p.first + i)))

/-- LAYER_SET, COMP_SET and STATIC_SET wait for the output's next frame start, with the readers they need held; LAYER_FLIP makes its layer's flip
pending at once, and an earlier pending flip completes CANCELLED (R253, R259, R264, R273). FENCE_BIND gives a fence its input, FENCE_SIGNAL advances
or resets it with the time of the change, GROUP_SET gives an atomic group its members (R260, R261, R270). -/
def Obligations.LayerAndFenceCommands : Prop :=
  (∀ (s : State) (t : Tick) (h : Hdr),
  (∀ p, Waits s t h (.layerSet p) (.layerSet t h p) (fun w => chkLayerSet h p w = none)
    (fun w => w.holdLayers p.output [withEntries (w.compOut p.output) p.entries]) .apply (2 + p.output)) ∧
  (∀ p, Waits s t h (.layerFlip p) (.layerFlip t h p) (fun w => chkLayerFlip h p w = none)
    (fun w => (w.holdLayers p.output [withPend (w.compOut p.output) p]).pendFlip w.nextJob p (some w.now)) .event (2 + p.output)) ∧
  (∀ p, Waits s t h (.compSet p) (.compSet t h p)
    (fun w => p.rsvd = 0 ∧ p.output < 512 ∧ (w.txStream p.output).isSome = true ∧ 1 ≤ p.dl ∧ p.dl ≤ 16) id .apply (2 + p.output)) ∧
  (∀ p, Waits s t h (.staticSet p) (.staticSet t h p) (fun w => chkStaticSet h p w = none)
    (fun w => w.holdLayers p.output [afterStatic (w.compOut p.output) p]) .apply (2 + p.output))) ∧
  (∀ (s : State) (t : Tick) (h : Hdr),
  (∀ p, Completes s t h (.fenceBind p) (.fenceBind t h p) (fun _ => p.rsvd = 0 ∧ p.fence < 256 ∧ (p.point < 512 ∨ p.point = 0xFFFF))
    fun w => w.setFence p.fence { w.fence p.fence with point := if p.point = 0xFFFF then none else some p.point }) ∧
  (∀ p, Completes s t h (.fenceSignal p) (.fenceSignal t h p)
    (fun w => p.rsvd = 0 ∧ p.fence < 256 ∧ p.reset = false ∧ BitVec.ofNat 32 p.value = (w.fence p.fence).value) id) ∧
  (∀ p, Completes s t h (.fenceSignal p) (.fenceSignal t h p)
    (fun w => p.rsvd = 0 ∧ p.fence < 256 ∧ (p.reset = true ∧ w.fenceNamed p.fence = false ∨
      p.reset = false ∧ advances (BitVec.ofNat 32 p.value) (w.fence p.fence).value = true))
    fun w => w.setFence p.fence { w.fence p.fence with
      value := BitVec.ofNat 32 p.value, stamp := w.stc, stampT := w.now + 1,
      prev := if (w.fence p.fence).stampT = w.now + 1 then (w.fence p.fence).prev else (w.fence p.fence).value }) ∧
  (∀ p, Completes s t h (.groupSet p) (.groupSet t h p)
    (fun w => p.members.length ≤ 64 ∧ p.rsvd = 0 ∧ p.group < 128 ∧ distinct p.members = true ∧
      (fget {} w.comp.groups p.group : Group).taking = [] ∧
      ∀ m ∈ p.members, m.1 < 512 ∧ (w.txStream m.1).isSome = true ∧ 1 ≤ m.2 ∧ m.2 ≤ 7 ∧
        (layerOf (settled (w.compOut m.1)) m.2).a.follow = false ∧
        rangeRun (settled (w.compOut m.1)) (layerOf (settled (w.compOut m.1)) m.2).a = none ∧
        ∀ k, (layerOf (settled (w.compOut m.1)) m.2).group = some k → k = p.group)
    fun w =>
      let put (k : Option Nat) (w : State) (ms : List (Nat × Nat)) : State :=
        State.each (fun m s => s.modLayer m.1 m.2 fun x => { x with group := k }) ms w
      let w1 := put (some p.group) (put none w (fget {} w.comp.groups p.group : Group).members) p.members
      { w1 with comp := { w1.comp with groups := fset {} w1.comp.groups p.group { members := p.members } } }))

/-- AUDIO_ROUTE entries and APORT_MASK wait at their destinations with the time of their commit point; AUDIO_EMBED waits for the output's next frame
start with its ring charged (R290, R302, R311). APORT_SET configures a port that is not running at once; one that runs takes masks and delay at once,
and any other change once its slots have faded to zero. A controller that starts completes the command at its first FS edge, and a target (the model's
choice, assumption 39) at once (R307, R312). ASRC_BIND frees a group or binds it to channels of one source; AUDIO_RING_BIND adds a binding with its
charge and, for a record binding, the ring's header, or removes the bindings of exactly its range (R297, R313 to R315). -/
def Obligations.AudioCommands : Prop :=
  (∀ (s : State) (t : Tick) (h : Hdr),
  (∀ p, Waits s t h (.audioRoute p) (.audioRoute t h p)
    (fun w => 1 ≤ p.count ∧ p.count ≤ 256 ∧ p.count = p.entries.length ∧ p.rsvd = 0 ∧ distinct (p.entries.map (·.dst)) = true ∧
      ∀ e ∈ p.entries, w.dstValid e.dst = true ∧ (e.src = 0xFFFF ∨ w.srcValid e.src = true) ∧ e.rsvd = 0 ∧
        (e.gain = -32768 ∨ (-12000 ≤ e.gain ∧ e.gain ≤ 1200)))
    (fun w => p.entries.foldl (fun s e => s.setDst e.dst { s.dst e.dst with
      pend := (s.dst e.dst).pend ++ [{ job := w.nextJob, entry := e, commitT := s.now }] }) w) .event) ∧
  (∀ p, Waits s t h (.aportMask p) (.aportMask t h p)
    (fun w => p.rsvd = 0 ∧ p.port < 32 ∧ ∃ k, (w.port p.port).cfg = some k ∧ p.diMask < 2 ^ k.slots ∧ p.doMask < 2 ^ k.slots)
    (fun w => w.setPort p.port { w.port p.port with
      masks := (w.port p.port).masks ++ [{ job := w.nextJob, p := p, commitT := w.now }] }) .event) ∧
  (∀ p, Waits s t h (.audioEmbed p) (.audioEmbed t h p) (fun w => chkAudioEmbed h p w = none)
    (fun w => w.holdEmbed p.output [p]) .apply (2 + p.output))) ∧
  (∀ (s : State) (t : Tick) (h : Hdr) (p : AportSetP), chkAportSet p = none →
  Completes s t h (.aportSet p) (.aportSet t h p) (fun w => (w.port p.port).cfg = none ∧ ¬(p.enable = true ∧ p.role = 0))
    (fun w => w.setPort p.port { w.port p.port with cfg := if p.enable then some p else none }) ∧
  Waits s t h (.aportSet p) (.aportSet t h p) (fun w => (w.port p.port).cfg = none ∧ p.enable = true ∧ p.role = 0)
    (fun w => w.setPort p.port { w.port p.port with cfg := some p, jobs := (w.port p.port).jobs ++ [w.nextJob] }) .event ∧
  (∀ k, Completes s t h (.aportSet p) (.aportSet t h p)
    (fun w => (w.port p.port).cfg = some k ∧ p.enable = true ∧ (w.port p.port).stopping = false ∧ sameTiming k p = true)
    (fun w => w.setPort p.port { w.port p.port with cfg := some p })) ∧
  (∀ k, Completes s t h (.aportSet p) (.aportSet t h p)
    (fun w => (w.port p.port).cfg = some k ∧ (w.port p.port).stopping = false ∧ ¬(p.enable = true ∧ sameTiming k p = true) ∧
      (w.port p.port).opened = false ∧ ¬(p.enable = true ∧ p.role = 0))
    (fun w => (w.setPort p.port { w.port p.port with next := if p.enable then some p else none }).endStop p.port)) ∧
  (∀ k, Waits s t h (.aportSet p) (.aportSet t h p)
    (fun w => (w.port p.port).cfg = some k ∧ (w.port p.port).stopping = false ∧ p.enable = true ∧ sameTiming k p = false ∧
      (w.port p.port).opened = false ∧ p.role = 0)
    (fun w => (w.setPort p.port { w.port p.port with
      next := some p, jobs := (w.port p.port).jobs ++ [w.nextJob] }).endStop p.port) .event) ∧
  (∀ k, Waits s t h (.aportSet p) (.aportSet t h p)
    (fun w => (w.port p.port).cfg = some k ∧ ((w.port p.port).stopping = true ∨
      ¬(p.enable = true ∧ sameTiming k p = true) ∧ (w.port p.port).opened = true))
    (fun w => w.setPort p.port { w.port p.port with
      next := if p.enable then some p else none, stopping := true, jobs := (w.port p.port).jobs ++ [w.nextJob] }) .event)) ∧
  (∀ (s : State) (t : Tick) (h : Hdr),
  (∀ p, Completes s t h (.asrcBind p) (.asrcBind t h p) (fun _ => p.rsvd = 0 ∧ p.group < 256 ∧ p.op = 0)
    fun w => w.setAsrc p.group none) ∧
  (∀ (p : AsrcBindP) (rate : Nat) (dom : SrcDom),
    let a (now : Tick) : Asrc := { p := p, inRate := rate, sinceT := now }
    let chans := asrcChannels (a 0)
    Completes s t h (.asrcBind p) (.asrcBind t h p)
      (fun w => p.rsvd = 0 ∧ p.group < 256 ∧ p.op = 1 ∧ w.srcInfo p.first = some (rate, dom) ∧
        (p.target < 2 ∧ p.tport = 0 ∨ p.target = 2 ∧ p.tport < 32 ∧ ∃ k, (w.port p.tport).cfg = some k ∧ k.role = 1) ∧
        p.outRate < 6 ∧ p.bw < 3 ∧ 1 ≤ p.count ∧ p.count ≤ 32 ∧ p.first % rateK rate = 0 ∧
        oneSource p.first (chans.getLastD p.first) = true ∧ (∀ c ∈ chans, (w.srcInfo c).isSome = true) ∧
        p.count * max (rateK rate) (rateK p.outRate) ≤ 32 ∧ asrcRatesOk rate p.outRate = true ∧ w.asrc p.group = none ∧
        ∀ c ∈ chans, w.asrcOf c = none)
      fun w => w.setAsrc p.group (some (a w.now))) ∧
  (∀ p : AudioRingBindP,
    let exact (b : RingBind) : Bool := b.p.kind == p.kind && b.p.first == p.first && b.p.count == p.count
    let meets (b : RingBind) : Bool := b.p.kind == p.kind && rangesMeet b.p.first b.p.count p.first p.count
    Completes s t h (.audioRingBind p) (.audioRingBind t h p)
      (fun w => p.rsvd = 0 ∧ p.handle = 0 ∧ p.kind < 2 ∧ p.rate < 6 ∧ p.house < 2 ∧ 1 ≤ p.count ∧ p.first + p.count ≤ 1024 ∧
        ∀ b ∈ w.audio.rings, meets b = true → exact b = true)
      (fun w => let w1 := w.setRings (w.audio.rings.filter fun b => !exact b)
        if p.kind = 0 then w1.dropDsts fun c => decide (17408 + p.first ≤ c) && decide (c < 17408 + p.first + p.count) else w1) ∧
    (∀ b : Buf,
      let bound (w : State) : List RingBind := w.audio.rings ++ [{ p := p, origin := w.ringOrigin p.house p.rate 16 }]
      Completes s t h (.audioRingBind p) (.audioRingBind t h p)
        (fun w => p.rsvd = 0 ∧ p.handle ≠ 0 ∧ p.kind < 2 ∧ p.rate < 6 ∧ p.house < 2 ∧ 1 ≤ p.count ∧ p.first + p.count ≤ 1024 ∧
          w.bufAt p.handle = some b ∧ b.params.typ = 4 ∧ p.count ≤ b.params.count ∧
          (p.kind = 0 → 0 ≤ p.delay ∧ p.delay ≤ 2100000) ∧ -2147483648 ≤ p.delay ∧ p.delay ≤ 2147483647 ∧
          (∀ x ∈ w.audio.rings, meets x = false ∧ ¬(x.p.kind = p.kind ∧ x.p.handle = p.handle)) ∧
          w.admission ofRings (ringChargesOf w (embedRings w.pond.charges) (bound w)) = none)
        fun w => let w1 := (w.setRings (bound w)).count 8 0 0
          if p.kind = 0 then w1.pondWrite b.addr
            (ringHeader 0 (w1.originStc p.house p.rate (w.ringOrigin p.house p.rate 16)) p.rate 1 (b2n p.hostFlow))
          else w1)))

/-- REF_SET, SYNTH_SET, BAND_TABLE_SET, CLKOUT_SET and CLKOUT_SYNC take effect at execution, a new setting stored in the clock record; CLOCK_STATUS
returns its 25 records, the measured offsets being free values (R407, R416, R417, R424, R425, R427, R369). -/
def Obligations.ReferenceAndOutletCommands : Prop :=
  ∀ (s : State) (t : Tick) (h : Hdr),
  (∀ p, Completes s t h (.refSet p) (.refSet t h p) (fun w => chkRefSet p w = none) fun w =>
    let r := w.ref p.port
    let retunes := r.enable != p.enable || r.freqHz != p.freqHz || r.scale != p.scale
    let w1 := w.setRef p.port { r with enable := p.enable, lineSync := p.lineSync, fsFall := p.fsFall, scale := p.scale,
                                       freqHz := p.freqHz, present := r.present && !retunes }
    (if retunes then w1.retune p.port else w1).saveClock (7 * p.port) (refSlice p)) ∧
  (∀ p, Completes s t h (.synthSet p) (.synthSet t h p) (fun w => chkSynthSet p w = none)
    fun w => (w.setSynthesizer p).saveClock (14 + 23 * synthIndex p.synth) (synthSlice p)) ∧
  (∀ p, Completes s t h (.bandTableSet p) (.bandTableSet t h p)
    (fun w => (isHouse p.synth || isLane p.synth || isOutlet p.synth) = true ∧ p.rsvd = 0 ∧ p.entries ≠ [] ∧ p.entries.length ≤ 64 ∧
      (∀ e ∈ p.entries, e.2 < 64) ∧ ascending p.entries = true ∧ (∀ e, p.entries.getLast? = some e → e.1 < p.ceiling) ∧
      w.vco p.synth (w.synth p.synth) ≤ p.ceiling ∧ (w.synth p.synth).retuning = false ∧ (w.synth p.synth).searching = false)
    fun w => w.setSynth p.synth { w.synth p.synth with ceiling := some p.ceiling, table := p.entries }) ∧
  (∀ p, Completes s t h (.clkoutSet p) (.clkoutSet t h p) (fun w => chkClkoutSet p w = none) fun w =>
    (w.setClkout p.clkout { w.clkout p.clkout with
      synth := p.synth, enable := p.enable, divider := p.divider, delay := p.delay, delayT := w.now,
      oldDelay := (w.clkout p.clkout).delayAt (w.synth (w.clkout p.clkout).synth).freq w.now }).saveClock
      (520 + 9 * p.clkout) (clkoutSlice p)) ∧
  (∀ p, Completes s t h (.clkoutSync p) (.clkoutSync t h p)
    (fun w => isOutlet p.synth = true ∧ p.rsvd = 0 ∧ (w.synth p.synth).phaseMode = 0) fun w => w.resetDividers p.synth) ∧
  (∀ p, Answers s t h (.clockStatus p) (.clockStatus t h p) p.res (fun _ => True) (fun w => { w with fresh := w.fresh + 1 })
    fun w => ([255, 0, 1] ++ (List.range 20).map (16 + ·) ++ [64, 65]).flatMap w.clockRecord)

/-- PAIR_SET leaves the pair at once, and joins it when its counts agree with the partner's; PAIR_RESYNC and PAIR_TRANSFER begin and wait; PAIR_STATUS
returns its layout (R371, R379, R380, R401, R402). -/
def Obligations.PairSetResyncAndTransfer : Prop :=
  ∀ (s : State) (t : Tick) (h : Hdr),
  (∀ p, Completes s t h (.pairSet p) (.pairSet t h p)
    (fun w => p.role = 0 ∧ p.rsvd = 0 ∧ (w.routes.routes.any fun e => e.2.isSome) = false)
    fun w =>
      let w1 := if w.pair.sync = .apart then w else (w.setPair { w.pair with sync := .apart, own := [], partner := [], windows := [] }).fire 980
      if w.pair.role = .solo then w
      else (w1.setPair { w1.pair with role := .solo, authority := false, adopt := false, taint := [] }).fire 977) ∧
  (∀ p : PairSetP,
    let joins (w : State) : State := if w.pair.role = .solo then
        (w.setPair { w.pair with role := if p.role = 1 then .lead else .mate, authority := p.role == 1,
                                 adopt := p.role == 2 && w.pair.up, mateFailed := false }).fire 977
      else w
    let ok (w : State) : Prop := (p.role = 1 ∨ p.role = 2) ∧ p.rsvd = 0 ∧ (w.pair.role = .solo ∨ w.pair.role.code = p.role) ∧
      (w.routes.routes.any fun e => e.2.isSome) = false
    let settled (w : State) : Bool := w.pair.up && w.pair.hello.isSome && w.pair.deltaA = 0 && w.pair.deltaB = 0 && !(joins w).pair.adopt
    Waits s t h (.pairSet p) (.pairSet t h p) (fun w => ok w ∧ settled w = false) joins .event ∧
    Completes s t h (.pairSet p) (.pairSet t h p) (fun w => ok w ∧ settled w = true) joins) ∧
  (∀ p, Waits s t h (.pairResync p) (.pairResync t h p)
    (fun w => p.rsvd = 0 ∧ w.pair.role = .lead ∧ w.pair.up = true ∧ w.mateApart = true ∧ w.jobOf isResync = none ∧
      (w.engines.tasks = [] ∨ libHolds w.pair.mateLib (Config.libVersion w.sys.image) = true))
    (fun w => ((w.setPair { w.pair with sync := .resync, lastBad := w.matchStart, resyncT := w.now, own := [], partner := [], windows := [] }).emit
      (.brinen 10 [w.pair.nextRix])).fire 980) .event) ∧
  (∀ p, Waits s t h (.pairTransfer p) (.pairTransfer t h p)
    (fun w => p.rsvd = 0 ∧ w.pair.role = .lead ∧ w.pair.sync ≠ .apart ∧ w.jobOf isTransfer = none ∧ 500 ≤ w.windowRoom)
    (fun w => w.charge (fun _ => false) [{ kind := 8, holder := 2 ^ 32, mb := w.transferRate }]) .event) ∧
  (∀ p, Answers s t h (.pairStatus p) (.pairStatus t h p) p.res (fun _ => True) id fun w =>
    leBytes 1 w.pair.role.code ++ leBytes 1 w.linkCode ++ leBytes 1 w.pair.sync.code ++ leBytes 1 0 ++ leBytes 4 w.pair.mateFw ++
    leBytes 8 w.pair.inMismatch ++ leBytes 8 w.pair.outMismatch ++ leBytes 8 w.pair.lastStc ++ leBytes 8 w.pair.forwarded ++ leBytes 8 0)

/-- KEY_WRITE writes a slot and KEY_INVALIDATE revokes one, each with its descendants revoked; KEY_DERIVE runs as an operation on its slots;
QUEUE_AUTH binds a queue to a key; LANE_CRYPT_SET waits for its group's next superframe or frame start (R432 to R439). KEY_QUERY returns attributes
and no key; TAMPER_SET stores the enables and, with CLEAR, drops latches whose source is inactive; TAMPER_STATUS returns its layout; ATTEST samples
its answer at execution and gives it when the operation ends (R429, R443 to R448). -/
def Obligations.KeyAndTamperCommands : Prop :=
  (∀ (s : State) (t : Tick) (h : Hdr),
  (∀ p, Completes s t h (.keyWrite p) (.keyWrite t h p)
    (fun w => p.slot < 32 ∧ p.usage < 16 ∧ p.rsvd = 0 ∧ w.keys.latched = 0 ∧
      (p.parent = 255 ∨ p.parent < 32 ∧ w.slotValid p.parent = true ∧ p.parent ≠ p.slot ∧
        (w.descendants p.slot).contains p.parent = false ∧ w.depthUnder p.slot p.parent ≤ 8) ∧
      w.slotRuns p.slot = false ∧ w.laneBound p.slot = false)
    fun w => w.changeSlot p.slot fun x => { x with key := p.key, usage := p.usage, parent := p.parent, st := 1 }) ∧
  (∀ p, Waits s t h (.keyDerive p) (.keyDerive t h p)
    (fun w => p.slot < 32 ∧ p.parent < 32 ∧ p.usage < 16 ∧ p.label.length ≤ 64 ∧ p.context.length ≤ 64 ∧ p.rsvd = 0 ∧
      w.keys.latched = 0 ∧ (w.slot p.parent).st = 1 ∧ bit (w.slot p.parent).usage 2 = true ∧ p.parent ≠ p.slot ∧
      (w.descendants p.slot).contains p.parent = false ∧ w.depthUnder p.slot p.parent ≤ 8 ∧ w.slotRuns p.slot = false)
    (fun w =>
      let op : KeyOp := { job := w.nextJob, slot := p.slot, parent := p.parent, derive_ := true,
                          key := deriveKey (w.slot p.parent).key p.label p.context }
      { w with keys := { w.keys with ops := w.keys.ops ++ [op] } }) .event) ∧
  (∀ p, Completes s t h (.keyInvalidate p) (.keyInvalidate t h p) (fun _ => p.slot < 32 ∧ p.rsvd = 0)
    fun w => w.changeSlot p.slot fun x => if x.st = 1 then { x with st := 2, key := 0 } else x) ∧
  (∀ p, Completes s t h (.queueAuth p) (.queueAuth t h p)
    (fun w => p.queue < 10 ∧ p.rsvd = 0 ∧ (p.slot = 255 ∨ p.slot < 32 ∧ (w.slot p.slot).st = 1 ∧ bit (w.slot p.slot).usage 0 = true))
    fun w => w.setQueue p.queue { w.queue p.queue with macSlot := if p.slot = 255 then none else some p.slot, macSeq := none }) ∧
  (∀ p, Waits s t h (.laneCryptSet p) (.laneCryptSet t h p)
    (fun w => p.dir = 0 ∧ (w.rxStream p.point).isSome = true ∧
      (p.slot = 255 ∨ p.slot < 32 ∧ (w.slot p.slot).st = 1 ∧ bit (w.slot p.slot).usage 1 = true))
    (fun w => w.setRxStream p.point ((w.rxStream p.point).map fun x => { x with cryptNext := some (if p.slot = 255 then none else some p.slot) }))
    .event) ∧
  (∀ p, Waits s t h (.laneCryptSet p) (.laneCryptSet t h p)
    (fun w => p.dir = 1 ∧ (w.txStream p.point).isSome = true ∧
      (p.slot = 255 ∨ p.slot < 32 ∧ (w.slot p.slot).st = 1 ∧ bit (w.slot p.slot).usage 1 = true))
    id .apply (2 + p.point))) ∧
  (∀ (s : State) (t : Tick) (h : Hdr),
  (∀ p, Answers s t h (.keyQuery p) (.keyQuery t h p) p.res (fun _ => True) id fun w => (List.range 32).flatMap fun i =>
    leBytes 1 (w.slot i).usage ++ leBytes 1 (w.slot i).parent ++ leBytes 1 (w.slot i).st ++ leBytes 1 0 ++ leBytes 4 (w.slot i).gen.toNat) ∧
  (∀ p, Completes s t h (.tamperSet p) (.tamperSet t h p)
    (fun w => p.enables < 128 ∧ p.wake < 2 ∧ p.rsvd = 0 ∧
      (p.clear = true ∨ Nat.land w.keys.enables (Nat.xor 127 (Nat.land p.enables 127)) = 0))
    fun w => { w with
      keys := { w.keys with enables := p.enables, latched := if p.clear then Nat.land w.keys.latched w.keys.active else w.keys.latched },
      sys := { w.sys with wakeEnables := w.sys.wakeEnables % 16 + 16 * p.wake } }) ∧
  (∀ p, Answers s t h (.tamperStatus p) (.tamperStatus t h p) p.res (fun _ => True) id fun w =>
    leBytes 2 w.keys.latched ++ leBytes 2 0 ++ leBytes 4 ((w.wear 63).value + w.keys.pendingCount) ++ leBytes 8 w.keys.latchStc) ∧
  (∀ p, WaitsFor s t h (.attest p) (.attest t h p) p.res
    (fun w => p.slot < 32 ∧ p.rsvd = 0 ∧ w.keys.latched = 0 ∧ (w.slot p.slot).st = 1 ∧ bit (w.slot p.slot).usage 3 = true)
    (fun w => { w with keys := { w.keys with
      ops := w.keys.ops ++ [{ job := w.nextJob, slot := p.slot, parent := p.slot, derive_ := false, key := 0 }] } })
    fun w =>
      let body := beBytes 32 p.nonce ++ (List.range 16).map Config.uid ++ (List.range 48).map (Config.fwDigest w.sys.image) ++ sha256 w.routeTable ++
        leBytes 8 w.stc ++ leBytes 8 0
      body ++ hmac (w.slot p.slot).key body))

/-- NV_READ, NV_COUNTER's read and AUDIT_READ return what the store holds; NV_WRITE, NV_PROTECT and NV_COUNTER's increment queue their writes and wait
for the last of them (R373, R461, R468, R469, R472, R473). -/
def Obligations.StoreAndAuditCommands : Prop :=
  ∀ (s : State) (t : Tick) (h : Hdr),
  (∀ p, Answers s t h (.nvRead p) (.nvRead t h p) p.res
    (fun _ => 1 ≤ p.bytes ∧ p.bytes ≤ 65536 ∧ p.addr + p.bytes ≤ 262144) id
    fun w => (List.range p.bytes).map fun i => w.nvByte (p.addr + i)) ∧
  (∀ p, Waits s t h (.nvWrite p) (.nvWrite t h p)
    (fun w => p.data ≠ [] ∧ p.rsvd = 0 ∧ 0x150C0 ≤ p.addr ∧ p.addr + p.data.length ≤ 0x20000 ∧ 2 ≤ p.addr % 64 ∧
      p.addr % 64 + p.data.length ≤ 62 ∧ w.nvProtected p.addr = false ∧ w.nvProtected (p.addr + p.data.length - 1) = false)
    (fun w => w.nvMerge (p.addr / 64) (p.addr % 64) p.data (.lastOf w.nextJob)) .event) ∧
  (∀ p, Waits s t h (.nvProtect p) (.nvProtect t h p)
    (fun w => p.field < 4 ∧ p.rsvd = 0 ∧ (w.nvLock = true → p.unlock = true))
    (fun w => w.nvMerge 0x540 2 (leBytes 1 (p.field + 4 * b2n p.lock)) (.lastOf w.nextJob)) .event) ∧
  (∀ p, Answers s t h (.nvCounter p) (.nvCounter t h p) p.res (fun _ => p.op = 0 ∧ p.counter < 64 ∧ p.rsvd = 0) id
    fun w => leBytes 4 (w.wearNow p.counter).value ++ leBytes 2 (w.wearNow p.counter).epoch ++ leBytes 2 0) ∧
  (∀ p, WaitsFor s t h (.nvCounter p) (.nvCounter t h p) p.res
    (fun w => p.op = 1 ∧ p.counter < 63 ∧ p.rsvd = 0 ∧ w.sys.mode.config = true ∧ (w.wear p.counter).value < 48000000)
    (fun w => w.wearIncrement p.counter (.lastOf w.nextJob))
    fun w => let x := (w.wearIncrement p.counter (.lastOf w.nextJob)).wear p.counter
      leBytes 4 x.value ++ leBytes 2 x.epoch ++ leBytes 2 0) ∧
  (∀ p, Answers s t h (.auditRead p) (.auditRead t h p) p.res
    (fun _ => p.first < 4096 ∧ 1 ≤ p.count ∧ p.count ≤ 4096 ∧ p.rsvd = 0) id
    fun w => leBytes 4 (w.nv.newest.getD 0xFFFFFFFF) ++ leBytes 4 0 ++ w.nv.chain ++
      (List.range p.count).flatMap fun i => w.auditEntry (p.first + i))

/-- COUNTER_READ returns each counter with the STC it belongs to and clears overflows where asked; COUNTER_SNAPSHOT freezes or releases every counter;
MONITOR_SET starts or stops a monitor; MONITOR_READ returns the windows stored last (R374, R491, R494 to R497). EVENT_ROUTE gives sources their
targets and class; GPIO_SET, GPIO_EDGE and GPIO_READ set, drive and read the pins; CPB_LOAD copies an image to the memory of CP_B and waits for its
check; CPB_CTRL halts, starts and resets CP_B (R480 to R484, R375). -/
def Obligations.CounterAndHubCommands : Prop :=
  (∀ (s : State) (t : Tick) (h : Hdr),
  (∀ p, Answers s t h (.counterRead p) (.counterRead t h p) p.res
    (fun _ => p.ids ≠ [] ∧ p.ids.length ≤ 4096 ∧ p.rsvd = 0 ∧ ∀ i ∈ p.ids, counterKnown i = true)
    (fun w => if p.clearOvf then State.each (fun i s => s.clearOvf i) p.ids w else w)
    fun w => p.ids.flatMap fun i => match w.cnt.frozen with
      | some (f, stc) => leBytes 8 ((fget {} f i : Counter).value.toNat + b2n (fget {} f i : Counter).ovf * 2 ^ 48) ++ leBytes 8 stc.toNat
      | none => leBytes 8 ((fget {} w.cnt.live i : Counter).value.toNat + b2n (fget {} w.cnt.live i : Counter).ovf * 2 ^ 48) ++
          leBytes 8 w.stc) ∧
  (∀ p, Completes s t h (.counterSnapshot p) (.counterSnapshot t h p) (fun _ => p.op < 2 ∧ p.rsvd = 0)
    fun w => { w with cnt := { w.cnt with frozen := if p.op = 1 then some (w.cnt.live, BitVec.ofNat 64 w.stc) else none } }) ∧
  (∀ p, Completes s t h (.monitorSet p) (.monitorSet t h p)
    (fun w => p.monitor < 2048 ∧ portKnown p.port = true ∧ (w.raster? p.raster).isSome = true ∧ p.lines < 65536)
    fun w => w.setMonitor p.monitor
      (if p.lines = 0 then { w.monitor p.monitor with running := false, open_ := false, due := false }
       else { running := true, port := p.port, raster := p.raster, lines := p.lines })) ∧
  (∀ p, Answers s t h (.monitorRead p) (.monitorRead t h p) p.res
    (fun _ => p.first < 2048 ∧ 1 ≤ p.count ∧ p.first + p.count ≤ 2048) id
    fun w => (List.range p.count).flatMap fun i =>
      leBytes 8 (w.monitor (p.first + i)).lastBytes ++ leBytes 8 (w.monitor (p.first + i)).lastStart.toNat ++
      leBytes 8 (w.monitor (p.first + i)).lastEnd.toNat)) ∧
  (∀ (s : State) (t : Tick) (h : Hdr),
  (∀ p, Completes s t h (.eventRoute p) (.eventRoute t h p)
    (fun _ => p.first < 1023 ∧ 1 ≤ p.count ∧ p.first + p.count ≤ 1023 ∧ p.targets < 8 ∧ p.cls < 2 ∧ p.rsvd = 0)
    fun w => State.each (routeSource p.targets p.cls) ((List.range p.count).map (p.first + ·)) w) ∧
  (∀ p, Completes s t h (.gpioSet p) (.gpioSet t h p)
    (fun w => p.pin < 16 ∧ p.dir < 3 ∧ p.level < 2 ∧ p.owner < 2 ∧ ((w.gpio p.pin).cpb = true → h.queue = 8))
    fun w => w.setGpio p.pin { w.gpio p.pin with dir := p.dir, level := p.level == 1, cpb := p.owner == 1 }) ∧
  (∀ p, Completes s t h (.gpioEdge p) (.gpioEdge t h p)
    (fun w => ∀ i < 16, bit p.mask i = true → (w.gpio i).cpb = true → h.queue = 8)
    fun w => State.each (fun i s => if bit p.mask i then s.setGpio i { s.gpio i with level := bit p.value i } else s) (List.range 16) w) ∧
  (∀ p, Answers s t h (.gpioRead p) (.gpioRead t h p) p.res (fun _ => True) id fun w =>
    leBytes 2 (w.gpioMask Gpio.pin) ++ leBytes 2 (w.gpioMask fun x => x.dir != 0) ++ leBytes 2 (w.gpioMask fun x => x.cpb) ++ leBytes 2 0) ∧
  (∀ p, Waits s t h (.cpbLoad p) (.cpbLoad t h p)
    (fun w => h.queue < 8 ∧ p.rsvd = 0 ∧ 36 ≤ p.bytes ∧ p.bytes % 4 = 0 ∧ p.addr + p.bytes ≤ 1048576 ∧ p.image.length = p.bytes ∧
      w.hub.cpB.running = false)
    (fun w => w.sramWrite p.addr (p.image.take (p.bytes - 32))) .event) ∧
  (∀ p, Completes s t h (.cpbCtrl p) (.cpbCtrl t h p) (fun _ => h.queue < 8 ∧ p.op = 0 ∧ p.rsvd = 0)
    fun w => if w.hub.cpB.running then (w.setCpb { w.hub.cpB with running := false }).fire 7 else w) ∧
  (∀ p, Completes s t h (.cpbCtrl p) (.cpbCtrl t h p)
    (fun _ => h.queue < 8 ∧ p.op = 1 ∧ p.rsvd = 0 ∧ p.entry % 4 = 0 ∧ p.entry < 1048576)
    fun w => if w.hub.cpB.running then w
      else if w.hub.cpB.fresh then
        w.setCpb { w.hub.cpB with running := true, fresh := false, pc := BitVec.ofNat 64 p.entry, priv := 3 }
      else w.setCpb { w.hub.cpB with running := true }) ∧
  (∀ p, Completes s t h (.cpbCtrl p) (.cpbCtrl t h p) (fun _ => h.queue < 8 ∧ p.op = 2 ∧ p.rsvd = 0)
    fun w => if w.hub.cpB.running then w.resetCpb.fire 7 else w.resetCpb))

/-- SQ_TAIL stores a byte offset, its low 17 bits, behind the packets written, and a value that is no multiple of 4 or lies outside the ring changes
no tail and sets DB_ERR (R326); CQ_HEAD frees the entries up to it and lets held replies follow (R328, R330); Q_CTRL enables a queue, disables it, and
resumes it from an ERROR of cause 2 (R330, R345). The rows of queue 8 are those of CP_B (R478). The management SPI port (R331, Tables 12.8 and 12.9):
a transaction on a full buffer sets RX_OVERRUN, one whose CRC or byte count is wrong sets CRC_ERR, a good one is the packet's command; a reply leaves
the FIFO once all its bytes are clocked out, and an empty FIFO reads as ones; a status read clears the sticky bits. -/
def Obligations.QueueRegisterRows : Prop :=
  (∀ (s : State) (t : Tick) (q value vector : Nat) (written : List Packet) (irqEn : Bool), q < 9 →
  let there (w : State) : Prop := w.senderOk q = true
  let off := value % 2 ^ 17
  let good (w : State) : Prop := off % 4 = 0 ∧ off < w.ringBytes q
  let tail (w : State) : State := w.setQueue q { w.queue q with ring := (w.queue q).ring ++ written, sqTail := off }
  let wrong (w : State) : State := w.setQueue q { w.queue q with ring := (w.queue q).ring ++ written, dbErr := true }
  let head (w : State) : State :=
    let z := 2 ^ (w.queue q).cqSize
    let freed := (value + z - (w.queue q).cqHead % z) % z
    let v := w.setQueue q { w.queue q with cqHead := value % z, entries := (w.queue q).entries.drop freed,
                                           stall := (w.queue q).stall && freed == 0 }
    v.flushReplies q (v.queue q).heldReplies
  let vec := if q = 8 then 0 else vector
  Events s t (.sqTail t q value written) (fun w => there w ∧ good w) tail ∧
  Events s t (.sqTail t q value written) (fun w => there w ∧ ¬good w) wrong ∧
  (q = 8 → Events s t (.q8SqTail t value written) (fun w => there w ∧ good w) tail) ∧
  (q = 8 → Events s t (.q8SqTail t value written) (fun w => there w ∧ ¬good w) wrong) ∧
  Events s t (.cqHead t q value) there head ∧
  (q = 8 → Events s t (.q8RrHead t value) there head) ∧
  Events s t (.queueEnable t q irqEn vector) there (fun w =>
    let v := w.setQueue q { w.queue q with enable := true, irqEn := irqEn, vector := vec }
    v.flushReplies q (v.queue q).heldReplies) ∧
  Events s t (.queueDisable t q irqEn vector) there (fun w =>
    (w.setQueue q { w.queue q with irqEn := irqEn, vector := vec }).disableQueue q) ∧
  Events s t (.queueResume t q) (fun w => there w ∧ (w.queue q).error = true ∧ (w.queue q).errCause = 2)
    (fun w => w.setQueue q { w.queue q with error := false, errCause := 0 }) ∧
  Events s t (.queueResume t q) (fun w => there w ∧ (w.queue q).errCause ≠ 2) id) ∧
  (∀ (s : State) (t : Tick) (pk : Packet) (n : Nat) (good : Bool) (r : List Byte) (rest : List (List Byte)),
  Events s t (.writePacket t pk n good) (fun w => w.rxReady = false)
    (fun w => { w with spi := { w.spi with overrun := true } }.settleLink) ∧
  Events s t (.writePacket t pk n good) (fun w => w.rxReady = true ∧ (good = false ∨ n ≠ 4 * pk.hdr.length + 4))
    (fun w => { w with spi := { w.spi with crcErr := true } }.settleLink) ∧
  Events s t (.writePacket t pk (4 * pk.hdr.length + 4) true)
    (fun w => w.rxReady = true ∧ w.fetches 9 = true ∧ (w.holds 9 = true ∨ w.fifoRoom pk = false))
    (fun w => { w with spi := { w.spi with buffer := some pk } }.settleLink) ∧
  (s.sys.stage ≠ .inReset → ∀ p : SysWakeSetP, pk.params = .sysWakeSet p → pk.hdr.queue = 9 →
    exec (.writePacket t pk (4 * pk.hdr.length + 4) true) s = exec (.sysWakeSet t pk.hdr p) s) ∧
  Events s t (.readReply t n) (fun w => w.spi.fifo = []) (fun w => w.emit (.spi (List.replicate (min n 24) 0xFF))) ∧
  Events s t (.readReply t n) (fun w => w.spi.fifo = r :: rest ∧ 24 ≤ n)
    (fun w => { w with spi := { w.spi with fifo := rest } }.emit (.spi (r.take n))) ∧
  Events s t (.readReply t n) (fun w => w.spi.fifo = r :: rest ∧ n < 24) (fun w => w.emit (.spi (r.take n))) ∧
  Events s t (.readStatus t) (fun _ => True)
    (fun w => { w with spi := { w.spi with overrun := false, crcErr := false } }.emit (.spi (leBytes 1 w.spiStatus))))

/-- CLAIM wins a source that is pending and in the target's mask, making it active, and reads 1,023 where it does not; COMPLETE ends the service of
the claiming target alone (R484). CNT_SEL latches a counter with its overflow bit and STC, or zero for an identifier that is not valid (R494);
CNT_VAL.OVF written 1 clears the live bit (R493); a read of STC[31:0] latches the high half (R325). -/
def Obligations.InterruptAndCounterRegisters : Prop :=
  (∀ (s : State) (t : Tick) (target i : Nat),
  let at_ (w : State) (v : Nat) : State :=
    { w with hub := match target with
      | 0 => { w.hub with claimA := v }
      | 1 => { w.hub with claimB := v }
      | _ => { w.hub with claimHost := v } }
  Events s t (.claim t target i)
    (fun w => w.targetOk target = true ∧ (w.source i).st = .pending ∧ bit (w.source i).mask target = true)
    (fun w => (at_ ((w.setSource i { w.source i with st := .active, claimant := target }).count 0 target 0) i).emit (.read i)) ∧
  Events s t (.claim t target i)
    (fun w => w.targetOk target = true ∧ ((w.source i).st ≠ .pending ∨ bit (w.source i).mask target = false))
    (fun w => (at_ (w.count 0 target 1) 1023).emit (.read 1023)) ∧
  Events s t (.complete t target i)
    (fun w => w.targetOk target = true ∧ (w.source i).claimant = target ∧ (w.source i).st = .active)
    (fun w => w.setSource i { w.source i with st := .idle, claimant := 3 }) ∧
  Events s t (.complete t target i)
    (fun w => w.targetOk target = true ∧ (w.source i).claimant = target ∧ (w.source i).st = .activePending)
    (fun w => (w.setSource i { w.source i with st := .pending, claimant := 3 }).presented i) ∧
  Events s t (.complete t target i) (fun w => w.targetOk target = true ∧ (w.source i).claimant ≠ target) id) ∧
  (∀ (s : State) (t : Tick) (cpb : Bool) (id_ : Nat),
  let there (w : State) : Prop := (if cpb then w.cpbOk else w.hostOk) = true
  let latch (l : CntLatch) (w : State) : State :=
    { w with hub := if cpb then { w.hub with latchB := l } else { w.hub with latchHost := l } }
  let sel (w : State) : Nat := if cpb then w.hub.latchB.sel else w.hub.latchHost.sel
  Events s t (.cntSel t cpb id_) (fun w => there w ∧ counterKnown id_ = true ∧ w.cnt.frozen = none)
    (fun w => latch ⟨id_, (fget {} w.cnt.live id_ : Counter).value.toNat, (fget {} w.cnt.live id_ : Counter).ovf, BitVec.ofNat 64 w.stc⟩ w) ∧
  (∀ f st, Events s t (.cntSel t cpb id_) (fun w => there w ∧ counterKnown id_ = true ∧ w.cnt.frozen = some (f, st))
    (latch ⟨id_, (fget {} f id_ : Counter).value.toNat, (fget {} f id_ : Counter).ovf, st⟩)) ∧
  Events s t (.cntSel t cpb id_) (fun w => there w ∧ counterKnown id_ = false)
    (fun w => latch { sel := id_, stc := BitVec.ofNat 64 w.stc } w) ∧
  Events s t (.cntValOvfClear t cpb) (fun w => there w ∧ counterKnown (sel w) = true)
    (fun w => { w with cnt := { w.cnt with live := fmod {} w.cnt.live (sel w) fun (c : Counter) => { c with ovf := false } } }) ∧
  Events s t (.cntValOvfClear t cpb) (fun w => there w ∧ counterKnown (sel w) = false) id ∧
  Events s t (.stcLowRead t) (fun w => w.hostOk = true)
    (fun w => ({ w with hub := { w.hub with stcLatch := w.stc / 2 ^ 32 } }).emit (.read (w.stc % 2 ^ 32))))

/-- CP_B's own registers (R477, R479, R482): SWI_SET fires a software source; TIMECMP arms the timer, which fires at once when the STC has reached it;
the timer is disarmed and its FIRED bit cleared; GPIO_OUT drives the output pins that CP_B owns; an access outside the map takes the access-fault
exception. A register write takes effect when it is aligned and its queue is disabled: CQ_BASE and CQ_SIZE of queues 0 to 7, the MSI-X table (R324,
R325), and the ring registers of queue 8; any other write is ignored. -/
def Obligations.ProcessorAndHostRegisters : Prop :=
  (∀ (s : State) (t : Tick) (v a size : Nat) (store : Bool),
  Events s t (.swiSet t v) (fun w => w.cpbOk = true ∧ 1008 ≤ v ∧ v ≤ 1015) (fun w => w.fire v) ∧
  Events s t (.swiSet t v) (fun w => w.cpbOk = true ∧ ¬(1008 ≤ v ∧ v ≤ 1015)) id ∧
  Events s t (.timecmp t v) (fun w => w.cpbOk = true ∧ w.stc < v) (fun w => { w with hub := { w.hub with timecmp := v, armed := true } }) ∧
  Events s t (.timecmp t v) (fun w => w.cpbOk = true ∧ v ≤ w.stc)
    (fun w => { w with hub := { w.hub with timecmp := v, armed := false, fired := true } }.fire 6) ∧
  Events s t (.timerDisarm t) (fun w => w.cpbOk = true) (fun w => { w with hub := { w.hub with armed := false } }) ∧
  Events s t (.timerFiredClear t) (fun w => w.cpbOk = true) (fun w => { w with hub := { w.hub with fired := false } }) ∧
  Events s t (.gpioOut t v) (fun w => w.cpbOk = true) (fun w =>
    (List.range 16).foldl (fun u p => if (w.gpio p).cpb && (w.gpio p).dir != 0 then u.setGpio p { u.gpio p with level := v.testBit p } else u) w) ∧
  Events s t (.cpbAccessFault t a size store) (fun w => w.cpbOk = true ∧ w.hub.cpB.seq = .run ∧ cpbAccepts a size = false)
    (fun w => { w with hub := { w.hub with cpB := trapEntry w.hub.cpB (if store then 7 else 5) false (BitVec.ofNat 64 a) } }) ∧
  Events s t (.cpbAccessFault t a size store) (fun w => w.cpbOk = true ∧ cpbAccepts a size = true) id) ∧
  (∀ (s : State) (t : Tick) (q v n : Nat), q < 8 →
  let x (w : State) := w.queue q
  Events s t (.registerWrite t false (0x108 + 0x40 * q) 8 v)
    (fun w => w.hostOk = true ∧ (x w).enable = false ∧ v < 2 ^ 64 ∧ v % 4096 = 0)
    (fun w => (w.setQueue q { x w with cqBase := v }).unmasked) ∧
  Events s t (.registerWrite t false (0x108 + 0x40 * q) 4 v) (fun w => w.hostOk = true ∧ (x w).enable = false ∧ v % 4096 = 0)
    (fun w => (w.setQueue q { x w with cqBase := v % 2 ^ 32 + (x w).cqBase / 2 ^ 32 % 2 ^ 32 * 2 ^ 32 }).unmasked) ∧
  Events s t (.registerWrite t false (0x110 + 0x40 * q) 4 v)
    (fun w => w.hostOk = true ∧ (x w).enable = false ∧ 6 ≤ v % 16 ∧ v % 16 ≤ 12)
    (fun w => (w.setQueue q { x w with cqSize := v % 16 }).unmasked) ∧
  Events s t (.registerWrite t false (0xE000 + 4 * n) 4 v) (fun w => w.hostOk = true ∧ n < 256)
    (fun w => { w with hub := { w.hub with msix := fset (b2n (n % 4 == 3)) w.hub.msix n (v % 2 ^ 32) } }.unmasked) ∧
  Events s t (.registerWrite t true 0x20000000 4 v) (fun w => w.cpbOk = true ∧ (w.queue 8).enable = false ∧ v % 256 = 0)
    (fun w => { w with hub := { w.hub with sqBase8 := v % 2 ^ 32 } }) ∧
  Events s t (.registerWrite t true 0x20000004 4 v)
    (fun w => w.cpbOk = true ∧ (w.queue 8).enable = false ∧ ∃ k, 12 ≤ k ∧ k ≤ 17 ∧ v = 2 ^ k)
    (fun w => { w with hub := { w.hub with sqSize8 := v } }) ∧
  Events s t (.registerWrite t true 0x20000010 4 v) (fun w => w.cpbOk = true ∧ (w.queue 8).enable = false ∧ v % 32 = 0)
    (fun w => { w with hub := { w.hub with rrBase8 := v % 2 ^ 32 } }) ∧
  Events s t (.registerWrite t true 0x20000014 4 v) (fun w => w.cpbOk = true ∧ (w.queue 8).enable = false ∧ 4 ≤ v % 16 ∧ v % 16 ≤ 12)
    (fun w => w.setQueue 8 { w.queue 8 with cqSize := v % 16 }) ∧
  (∀ cpb off size, size ≠ 4 ∧ size ≠ 8 ∨ off % size ≠ 0 → Events s t (.registerWrite t cpb off size v) (fun _ => True) id))

/-- The lane receiver moves as Table 4.5 says: an exact comma leaves HUNT for CONFIRM, three more lead to SEED, a confirmed seed to LOCKED, where a
key is checked for reuse (R440) and ACQUIRE may end; misses, CRC failures and sequence errors lead to HUNT, and an exit from LOCKED is counted and
raises the bundle's event (R98 to R100). -/
def Obligations.LaneReceiverMoves : Prop :=
  ∀ (s : State) (t : Tick) (b k : Nat), b < 65 → k < (if b = 64 then 4 else 8) →
  let at_ (w : State) (l : RxLane) : State := w.setRx b { w.rxDir b with lanes := setAt (w.rxDir b).lanes k l }
  let lane (w : State) : RxLane := rxLaneOf (w.rxDir b) k
  let moved (w : State) (st : LaneSt) : State := at_ w
    { lane w with st := st, confirms := 0, missRun := 0, crcRun := 0, sfcRun := 0, seedRun := 0, seedSfc := none, seedOk := false,
                  cleanRun := 0, bcIn := 0, held := none, delivered := false,
                  stWas := if (lane w).stT = w.now then (lane w).stWas else (lane w).st, stT := w.now }
  Events s t (.exactCommaFound t b k) (fun w => (lane w).st = .hunt) (fun w => (moved w .confirm).settleLink) ∧
  Events s t (.exactCommaFound t b k) (fun w => (lane w).st ≠ .hunt) State.settleLink ∧
  Events s t (.laneEnterSeed t b k) (fun w => (lane w).st = .confirm ∧ 3 ≤ (lane w).confirms) (fun w => (moved w .seed).settleLink) ∧
  Events s t (.laneEnterLocked t b k) (fun w => (lane w).st = .seed ∧ (lane w).seedOk = true)
    (fun w => (((moved w .locked).leaveIdle ((w.rxDir b).expected b k)
      ((w.rxStreams.find? fun e => e.2.any fun x => x.cfg.bundle == b && (groupLanes x.cfg).contains k).bind
        fun e => e.2.bind (·.crypt))).maybeFir b).settleLink) ∧
  Events s t (.misconnectionEvent t b k) (fun w => (lane w).st = .seed ∧ 16 ≤ (lane w).seedRun ∧ (lane w).seedOk = false)
    (fun w => ((at_ w { lane w with seedRun := 0 }).rxEvent b).settleLink) ∧
  Events s t (.laneLossOfLock t b k) (fun w => (lane w).st = .seed ∧ 2 ≤ (lane w).missRun) (fun w => (moved w .hunt).settleLink) ∧
  Events s t (.laneLossOfLock t b k)
    (fun w => (lane w).st = .locked ∧ (2 ≤ (lane w).missRun ∨ 4 ≤ (lane w).crcRun ∨ 2 ≤ (lane w).sfcRun))
    (fun w => (((moved w .hunt).count 1 (laneUnit b k) 7).rxEvent b).settleLink) ∧
  Events s t (.laneLossOfLock t b k)
    (fun w => (lane w).st = .locked ∧ (lane w).missRun < 2 ∧ (lane w).crcRun < 4 ∧ (lane w).sfcRun < 2) State.settleLink

/-- A superframe steps its lane's receiver: in CONFIRM the comma counts, in SEED the seed of R99 is judged, in LOCKED the counters of R100, the runs
of Table 4.5 and the errors of a dwell (R113); SLEEP takes the direction to IDLE (R122). A step of the FIR's or the lane's adaptation comes first
where it is due (R113, R121). A LOCKED lane of the Brinen link reads the partner's fields (R383), and one of the far-end path hands the superframe on
(R125). What arrives on a near-end path is what the transmitter sent, or nothing (Table 5.6). -/
def Obligations.SuperframeOnLane : Prop :=
  ∀ (s : State) (t : Tick) (b k : Nat) (sf f : Superframe), b < 65 → k < (if b = 64 then 4 else 8) →
  let at_ (w : State) (l : RxLane) : State := w.setRx b { w.rxDir b with lanes := setAt (w.rxDir b).lanes k l }
  let lane (w : State) : RxLane := rxLaneOf (w.rxDir b) k
  let partner (w : State) : State := if b = 64 then w.brinenHeader f else w
  let miss (l : RxLane) : Nat := if 2 < f.comma then l.missRun + 1 else 0
  let good (w : State) : Bool := f.crcOk && f.laneId == (w.rxDir b).expected b k
  let counted (symbols sfcErrors : Nat) (w : State) : State :=
    let u := laneUnit b k
    ((((((w.count 1 u 0 symbols).count 1 u 1 f.stuffBits).count 1 u 2 f.violations).count 1 u 3 (if f.crcOk then 0 else 1)).count 1 u 4
      (if f.comma = 1 ∨ f.comma = 2 then 1 else 0)).count 1 u 5 (if 2 < f.comma then 1 else 0)).count 1 u 6 sfcErrors
  let locked (w : State) : State :=
    let l := lane w
    let e := (l.sfc + 1) % 2 ^ 32
    at_ (counted 4096 (if f.sfc = e then 0 else 1) w) { l with
      missRun := miss l, crcRun := if f.crcOk then 0 else l.crcRun + 1, sfcRun := if f.sfc = e then 0 else l.sfcRun + 1, sfc := e,
      cleanRun := if f.withdrawn then 0 else l.cleanRun + 1, withdrawn := f.withdrawn, bcIn := if f.crcOk then f.bc else l.bcIn,
      held := some f, delivered := false, arrival := w.now - superframeTicks (w.rxDir b).rate,
      dwell := l.dwell + (if f.crcOk = true ∧ f.comma ≤ 2 then total ones f.payload else 81740), dwellN := l.dwellN + 1 }
  let ends (w : State) : State := if f.crcOk = true ∧ f.sleep = true then ((locked w).loopIn b k f).lanesIdle b else (locked w).loopIn b k f
  let fir (w : State) : Prop := (w.rxDir b).phase = .fir
  let due (w : State) : Prop := f.adaptDue = true ∧ (w.rxDir b).adapt = true ∧ w.inPresent b k = false
  let gets (w : State) : Prop := w.arriving b k sf = some f
  Events s t (.superframeReceive t b k sf) (fun w => w.arriving b k sf = none) State.settleLink ∧
  Events s t (.superframeReceive t b k sf) (fun w => gets w ∧ ((lane w).st = .idle ∨ (lane w).st = .hunt ∨ (lane w).st = .test))
    (fun w => (at_ w (lane w)).settleLink) ∧
  Events s t (.superframeReceive t b k sf) (fun w => gets w ∧ (lane w).st = .confirm ∧ f.comma = 0)
    (fun w => (at_ w { lane w with confirms := (lane w).confirms + 1 }).settleLink) ∧
  Events s t (.superframeReceive t b k sf) (fun w => gets w ∧ (lane w).st = .confirm ∧ f.comma ≠ 0)
    (fun w => (at_ w ((lane w).moveTo .hunt)).settleLink) ∧
  Events s t (.superframeReceive t b k sf) (fun w => gets w ∧ (lane w).st = .seed)
    (fun w => (at_ (counted 0 0 w) { lane w with
      missRun := miss (lane w), seedRun := (lane w).seedRun + 1, seedSfc := if good w then some f.sfc else none,
      seedOk := good w && (lane w).seedSfc == some ((f.sfc + 2 ^ 32 - 1) % 2 ^ 32), sfc := f.sfc }).settleLink) ∧
  Events s t (.superframeReceive t b k sf) (fun w => gets w ∧ (lane w).st = .locked ∧ ¬fir w ∧ ¬due w)
    (fun w => (partner (ends w)).settleLink) ∧
  Events s t (.superframeReceive t b k sf)
    (fun w => gets w ∧ (lane w).st = .locked ∧ fir w ∧ (lane (w.adaptFir b k)).st = .locked)
    (fun w => (partner (ends (w.adaptFir b k))).settleLink) ∧
  Events s t (.superframeReceive t b k sf)
    (fun w => gets w ∧ (lane w).st = .locked ∧ ¬fir w ∧ due w ∧ (lane (w.adaptLane b k)).st = .locked)
    (fun w => (partner (ends (w.adaptLane b k))).settleLink)

/-- The Headrace at a boundary: a stream of 16 clean superframes becomes present (R102); a group whose lanes were locked before it, in step and not
flagged counts a clean superframe; one that was not is withdrawn, and is absent from here on (R97, R101); a stream that no marker has reached for 1.5
frame periods is stale (R72). The packets of a superframe whose CRCs are known are deciphered and delivered in their order, at times counted from the
arrival of the group's latest lane (R97, R438); where a CRC failed, only those of types VID and ANC, which a CUT path has already sent on, and the
failure is counted (R82, R103). An absent stream delivers none. -/
def Obligations.GroupAndDelivery : Prop :=
  (∀ (s : State) (t : Tick) (n spread : Nat) (x : RxStream),
  let lanes (w : State) : List RxLane := (groupLanes x.cfg).map (rxLaneOf (w.rxDir x.cfg.bundle))
  let noStep (w : State) : Prop := ∀ l ∈ lanes w, (l.held.map (·.adaptDue)).getD false = false
  let inStep (w : State) : Prop := spread ≤ 64 ∧ ∃ v, ∀ l ∈ lanes w, ∀ f, l.held = some f → f.crcOk = true → f.sfc = v
  let wasLocked (w : State) (l : RxLane) : Prop := (if l.stT = w.now then l.stWas else l.st) = .locked
  let plain (w : State) : Prop := w.rxStream n = some x ∧ x.ending = false ∧ x.crypt = none ∧ x.cryptNext = none ∧ x.missed = [] ∧
    x.skew = false ∧ inStep w ∧ noStep w ∧ tblWf none w.rxStreams = true
  Events s t (.streamPresent t n) (fun w => w.rxStream n = some x ∧ x.present = false ∧ 16 ≤ x.cleanRun ∧ x.skew = false)
    (fun w => (w.setRxStream n (some { x with present := true, lap := x.lapAt w.now })).rxEvent x.cfg.bundle) ∧
  Events s t (.streamPresent t n) (fun w => w.rxStream n = some x ∧ (x.present = true ∨ x.cleanRun < 16 ∨ x.skew = true)) id ∧
  Events s t (.streamPresent t n) (fun w => w.rxStream n = none) id ∧
  Events s t (.groupSuperframeBoundary t n spread)
    (fun w => plain w ∧ (∀ l ∈ lanes w, wasLocked w l ∧ l.withdrawn = false ∧ 1 ≤ l.cleanRun) ∧ (w.rxDir x.cfg.bundle).phase = .none)
    (fun w => w.setRxStream n (some { x with cleanRun := x.cleanRun + 1 })) ∧
  Events s t (.groupSuperframeBoundary t n spread)
    (fun w => plain w ∧ x.present = true ∧ ((∃ l ∈ lanes w, ¬wasLocked w l) ∨ ∃ l ∈ lanes w, l.withdrawn = true))
    (fun w => ((((w.setRxStream n (some { x with cleanRun := 0 })).withdraw n)).countMissing n)) ∧
  Events s t (.groupSuperframeBoundary t n spread)
    (fun w => plain w ∧ x.present = false ∧ ((∃ l ∈ lanes w, ¬wasLocked w l) ∨ ∃ l ∈ lanes w, l.withdrawn = true))
    (fun w => w.setRxStream n (some { x with cleanRun := 0 })) ∧
  Events s t (.groupSuperframeBoundary t n spread) (fun w => w.rxStream n = none) id ∧
  Events s t (.inputRasterStale t n)
    (fun w => w.rxStream n = some x ∧ x.marked = true ∧ x.period ≠ 0 ∧ x.stale = false ∧ 2 * x.markT + 3 * x.period ≤ 2 * w.now)
    (fun w => (w.setRxStream n (some { x with stale := true })).rxEvent x.cfg.bundle) ∧
  Events s t (.inputRasterStale t n)
    (fun w => w.rxStream n = some x ∧ (2 * w.now < 2 * x.markT + 3 * x.period ∨ x.marked = false ∨ x.stale = true)) id ∧
  Events s t (.inputRasterStale t n) (fun w => w.rxStream n = none) id) ∧
  (∀ (s : State) (t : Tick) (n : Nat) (x : RxStream),
  let ks := groupLanes x.cfg
  let lanes (w : State) : List RxLane := ks.map (rxLaneOf (w.rxDir x.cfg.bundle))
  let clear (w : State) : State :=
    w.setRx x.cfg.bundle { w.rxDir x.cfg.bundle with
      lanes := mapAt (fun k (l : RxLane) => if ks.contains k then { l with delivered := true } else l) 0 (w.rxDir x.cfg.bundle).lanes }
  let raw (w : State) := parsePackets (1 + (groupSymbolsOf (groupPayload (lanes w))).length) (4087 * x.cfg.g) 0
    (groupSymbolsOf (groupPayload (lanes w)))
  let ids (w : State) := ks.map ((w.rxDir x.cfg.bundle).expected x.cfg.bundle)
  let key (w : State) : Option Nat := x.crypt.bind fun k => if x.keyDead then none else some (w.slot k).key
  let ps (w : State) := (raw w).1.map (decipher (key w) x.cfg.g (ids w) ((lanes w).map fun l => (l.held.map (·.sfc)).getD 0))
  let times (w : State) (j : Nat) : Tick :=
    let need := ((ps w).map fun p => p.at_ + 1 + p.length).foldl max 0
    let l := ((lanes w).zip (ids w)).map fun e =>
      laneTimes (w.rxDir x.cfg.bundle).rate e.2 (ceilDiv need x.cfg.g) (((lanes w).map (·.arrival)).foldl max 0) e.1
    (l.getD (j % x.cfg.g) []).getD (j / x.cfg.g) w.now
  let allHeld (w : State) : Prop := ∀ l ∈ lanes w, l.held.isSome = true ∧ l.delivered = false
  let allGood (w : State) : Prop := ∀ l ∈ lanes w, (l.held.map (·.crcOk)).getD false = true
  Events s t (.superframeCrcResult t n) (fun w => w.rxStream n = none) id ∧
  Events s t (.superframeCrcResult t n) (fun w => w.rxStream n = some x ∧ ¬allHeld w) id ∧
  Events s t (.superframeCrcResult t n) (fun w => w.rxStream n = some x ∧ allHeld w ∧ x.present = false) clear ∧
  Events s t (.superframeCrcResult t n)
    (fun w => w.rxStream n = some x ∧ allHeld w ∧ x.present = true ∧ allGood w)
    (fun w => clear ((ps w).foldl (fun v p => v.headPacket n (times w) true p) (if (raw w).2 then w.count 3 n 1 else w))) ∧
  Events s t (.superframeCrcResult t n)
    (fun w => w.rxStream n = some x ∧ allHeld w ∧ x.present = true ∧ ¬allGood w)
    (fun w =>
      let v := ((ps w).filter fun p => p.typ == 1 || p.typ == 3).foldl (fun v p => v.headPacket n (times w) false p) (w.count 3 n 0)
      let v1 := if (raw w).1.any (fun p => p.typ == 1 || p.typ == 3) && (v.fedBy n).any fun e => passes e.1 e.2
        then (v.count 3 n 12).rxEvent x.cfg.bundle else v
      clear (if (raw w).1.any fun p => p.typ == 1 || (p.typ == 2 && p.tag == 0) then
        v1.setRxStream n ((v1.rxStream n).map fun y => { y with frameGood := false, fieldGood := false }) else v1)))

/-- A receive direction gains its forwarded clock: enabled lanes leave IDLE and WAIT_CLK ends (R95, R98); it loses it: every lane goes to IDLE at once
(R95). A pattern checker loads its register, counts every later bit that differs, and loses its pattern in a window with more than 64 errors (R127). A
transmit direction that runs starts a superframe on its lanes: requests of the partner act (R109), every lane sends its header and its group's
packets, or on the far-end path what the partner sent, all of it counted (R86, R88, R110, R122, R125), and the direction moves to the next number and
phase; one that does not run changes nothing. A direction that fell asleep or woke completes the command that waits for it (R122, R123). -/
def Obligations.ForwardedClockAndTransmit : Prop :=
  (∀ (s : State) (t : Tick) (b k : Nat) (received : List Bool) (c : Prbs), b < 65 → k < (if b = 64 then 4 else 8) →
  let at_ (w : State) (l : RxLane) : State := w.setRx b { w.rxDir b with lanes := setAt (w.rxDir b).lanes k l }
  let lane (w : State) : RxLane := rxLaneOf (w.rxDir b) k
  let dark (w : State) : Prop :=
    (w.rxDir b).dll = false ∧ (w.rxDir b).asleep = false ∧ (w.rxDir b).enable = true ∧ w.sys.quiet = .awake
  let plain := received.map (· != c.invert)
  let checked : Nat × Nat := match c.reg with
    | some q => prbsErrors c.pattern q plain
    | none => prbsErrors c.pattern (natOf (plain.take (prbsStages c.pattern))) (plain.drop (prbsStages c.pattern))
  Events s t (.dllLock t b) (fun w => dark w ∧ (w.rxDir b).phase ≠ .waitClk)
    (fun w => ((w.setRx b { w.rxDir b with dll := true }).lanesHunt b).settleLink) ∧
  Events s t (.dllLock t b) (fun w => dark w ∧ (w.rxDir b).phase = .waitClk)
    (fun w => ((w.setRx b { w.rxDir b with dll := true, phase := .rxAdapt, phaseT := w.now }).lanesHunt b).settleLink) ∧
  Events s t (.dllLock t b) (fun w => (w.rxDir b).enable = false ∨ (w.rxDir b).asleep = true) State.settleLink ∧
  Events s t (.forwardedClockLost t b) (fun w => (w.rxDir b).dll = true)
    (fun w => ((w.setRx b { w.rxDir b with dll := false }).lanesIdle b).settleLink) ∧
  Events s t (.prbsWindowCheck t b k received) (fun w => (lane w).prbs = none) State.settleLink ∧
  Events s t (.prbsWindowCheck t b k received) (fun w => (lane w).prbs = some c ∧ 64 < checked.1)
    (fun w => ((at_ w { lane w with prbs := some { c with reg := none } }).count 1 (laneUnit b k) 9).settleLink) ∧
  Events s t (.prbsWindowCheck t b k received) (fun w => (lane w).prbs = some c ∧ checked.1 ≤ 64)
    (fun w => ((at_ w { lane w with prbs := some { c with reg := some checked.2 } }).count 1 (laneUnit b k) 8 checked.1).settleLink)) ∧
  (∀ (s : State) (t : Tick) (b dir : Nat) (j : Job), b < 65 →
  let d (w : State) : TxDir := { w.txDir b with lanes := (w.txDir b).lanes.map TxLane.answer }
  let keyed (w : State) : State := (w.txGroups b).foldl (fun v e => v.txKeyBoundary e.1 (w.txDir b).sfc) (w.setTx b (d w))
  let makes (v : State) := (v.txGroups b).map fun e => (e.1, v.groupFrame e.2 (v.txDir b).sfc)
  let frame (v : State) (k : Nat) : Superframe :=
    { laneId := 8 * b + k, active := v.active, withdrawn := v.laneWithdrawn b k, sleep := sleeps (v.txDir b).phase, sfc := (v.txDir b).sfc,
      bc := (txLaneOf (v.txDir b) k).bcOut, payload := lanePayload ((makes v).map fun e => (e.2.2, e.2.1)) k }
  let sent (fs : List (Nat × Superframe)) (v : State) : State :=
    let v1 := fs.foldl (fun (u : State) e => ((u.count 2 (8 * b + e.1) 0 4096).count 2 (8 * b + e.1) 1 (onLine e.2).stuffBits).count 2
      (8 * b + e.1) 3 (if e.2.withdrawn then 1 else 0)) v
    let v2 := v1.setTx b { v1.txDir b with lanes := mapAt (TxLane.sentOne fs) 0 (v1.txDir b).lanes }
    if (v.txDir b).loopback = 1 then v2 else v2.emit (.superframe b (fs.map fun e => (e.1, onLine e.2)))
  let next (v u : State) : State :=
    let u1 := (makes v).foldl (fun (u : State) e => u.setTxStream e.1 (some e.2.2)) u
    u1.setTx b { u1.txDir b with sfc := ((v.txDir b).sfc + 1) % 2 ^ 32, phase := (v.txDir b).phase.after,
                                 asleep := (v.txDir b).asleep || decide ((v.txDir b).phase = .withdrawing 1 .sleep) }
  let runs (w : State) : Prop := (w.txDir b).enable = true ∧ (w.txDir b).asleep = false ∧ (w.txDir b).phase ≠ .idle
  let own (v : State) := ((v.txDir b).framing b).map fun k => (k, frame v k)
  Events s t (.txSuperframe t b) (fun w => ¬runs w) State.settleLink ∧
  Events s t (.txSuperframe t b) (fun w => b < 64 ∧ tblWf {} w.tx = true ∧ runs w ∧ (w.txDir b).loopback ≠ 3 ∧ (w.txDir b).prbs = false)
    (fun w => (next (keyed w) (sent (own (keyed w)) (keyed w))).settleLink) ∧
  Events s t (.txSuperframe t b)
    (fun w => b < 64 ∧ tblWf {} w.tx = true ∧ runs w ∧ (w.txDir b).loopback = 3 ∧ (w.txDir b).prbs = false ∧
      ((keyed w).farFrames b).2 = false)
    (fun w => (next (keyed w) (sent ((keyed w).farFrames b).1 (keyed w))).settleLink) ∧
  Events s t (.directionSleepComplete t b dir)
    (fun w => w.jobOf (bundleDirJob true b dir) = some j ∧ (dir = 1 → (w.txDir b).phase = .idle))
    (fun w => (w.complete j stOk 0 none).settleLink) ∧
  Events s t (.directionSleepComplete t b dir) (fun w => w.jobOf (bundleDirJob true b dir) = none) State.settleLink ∧
  Events s t (.directionWakeComplete t b 0) (fun w => w.jobOf (bundleDirJob false b 0) = some j)
    (fun w => ((((w.setRx b { w.rxDir b with asleep := false }).lanesHunt b).useRxRecords b).complete j stOk 0 none).settleLink) ∧
  Events s t (.directionWakeComplete t b 1) (fun w => w.jobOf (bundleDirJob false b 1) = some j)
    (fun w => let v := w.txStart b
      ((v.setTx b { v.txDir b with lanes := mapAt (storedTxLane v b) 0 (v.txDir b).lanes }).complete j stOk 0 none).settleLink))

/-- The round of Table 5.3: its start keeps the settings aside and takes the stored ones; WAIT_CLK and ACQUIRE end at their limit in a failure;
RX_ADAPT ends with the adapted settings and ACQUIRE begins; VERIFY succeeds when every live lane has received its 1,024 superframes without an error,
storing the records (R119) and completing LANE_TRAIN, and fails otherwise; after the wait the next round starts, or a probe goes out (R112 to R117).
The back channel (R108 to R111, R113, R114): what a LOCKED lane hears is in a superframe whose CRC passed. A new request is taken, to be applied and
acknowledged at the start of the next superframe, and puts its lane and group into training transmission; DONE ends that and stores a changed setting
(R119); a new sleep request is acknowledged with its event. At the receiver an acknowledge of the request in hand moves the search, a dwell's error
count decides its next step, and an unanswered request is sent again once, with its SEQ. -/
def Obligations.TrainingAndBackChannel : Prop :=
  (∀ (s : State) (t : Tick) (b : Nat) (sets : List RxSet), b < 65 →
  let d (w : State) : RxDir := w.rxDir b
  let ready (w : State) : Prop := w.sys.restart = false ∧ w.sys.quiet = .awake
  let free (w : State) : Prop := (d w).enable = true ∧ (d w).asleep = false ∧ (d w).loopback = 0 ∧ (d w).prbs = false
  let due (w : State) : Prop := (d w).trainAuto = true ∧ (d w).dll = true ∧
    ∃ k, k < (d w).lanes.length ∧ (d w).live k = true ∧ (rxLaneOf (d w) k).st ≠ .locked
  let clean (w : State) : Prop := ∀ k ∈ lanesOf b, (d w).live k = true →
    (rxLaneOf (d w) k).dwell = 0 ∧ 1024 ≤ (rxLaneOf (d w) k).dwellN
  Events s t (.trainingRoundStart t b) (fun w => ready w ∧ free w ∧ due w ∧ ((d w).phase = .none ∨ (d w).phase = .waiting))
    (fun w => (w.startRound b).settleLink) ∧
  Events s t (.trainingRoundStart t b)
    (fun w => (d w).enable = false ∨ (d w).asleep = true ∨ ¬due w ∨ ((d w).phase ≠ .none ∧ (d w).phase ≠ .waiting)) State.settleLink ∧
  Events s t (.trainingPhaseTimeout t b) (fun w => (d w).phase = .waitClk ∨ (d w).phase = .acquire)
    (fun w => (w.failRound b).settleLink) ∧
  Events s t (.trainingPhaseTimeout t b) (fun w => (d w).phase ≠ .waitClk ∧ (d w).phase ≠ .acquire) State.settleLink ∧
  Events s t (.rxAdaptEnd t b sets) (fun w => (d w).phase = .rxAdapt)
    (fun w => ((w.setRx b { d w with
      lanes := mapAt (fun k l => if (d w).live k then { l with set := sets.getD k l.set } else l) 0 (d w).lanes,
      phase := .acquire, phaseT := w.now }).maybeFir b).settleLink) ∧
  Events s t (.rxAdaptEnd t b sets) (fun w => (d w).phase ≠ .rxAdapt) State.settleLink ∧
  Events s t (.verifyEnd t b) (fun w => (d w).phase = .verify ∧ clean w)
    (fun w => ((((w.setRx b { d w with phase := .none, phaseT := w.now, fails := 0, noPartner := false,
                                       trained := maskOf fun k => (d w).live k }).sendDone b).writeRxRecords b).completeWhere
      (fun j => match j.params with
        | .laneTrain p => p.bundle == b
        | _ => false) stOk 0 none).settleLink) ∧
  Events s t (.verifyEnd t b) (fun w => (d w).phase = .verify ∧ ¬clean w) (fun w => (w.failRound b).settleLink) ∧
  Events s t (.verifyEnd t b) (fun w => (d w).phase ≠ .verify) State.settleLink ∧
  Events s t (.roundRetryWaitExpire t b)
    (fun w => ready w ∧ free w ∧ (d w).phase = .waiting ∧ ((d w).noPartner = false ∨ w.anyPresent b = false))
    (fun w => (w.startRound b).settleLink) ∧
  Events s t (.roundRetryWaitExpire t b)
    (fun w => ready w ∧ free w ∧ (d w).phase = .waiting ∧ (d w).noPartner = true ∧ w.anyPresent b = true)
    (fun w => ((lanesOf b).foldl (fun u k => if (u.rxDir b).live k then u.sendRequest b k 3 0 0 else u)
      (w.setRx b { d w with phaseT := w.now })).settleLink) ∧
  Events s t (.roundRetryWaitExpire t b) (fun w => (d w).phase ≠ .waiting ∨ ¬free w) State.settleLink) ∧
  (∀ (s : State) (t : Tick) (b k bc : Nat), b < 65 → k < (if b = 64 then 4 else 8) →
  let tx (w : State) : TxLane := txLaneOf (w.txDir b) k
  let rx (w : State) : RxLane := rxLaneOf (w.rxDir b) k
  let atTx (w : State) (l : TxLane) : State := w.setTx b { w.txDir b with lanes := setAt (w.txDir b).lanes k l }
  let atRx (w : State) (l : RxLane) : State := w.setRx b { w.rxDir b with lanes := setAt (w.rxDir b).lanes k l }
  let hears (w : State) : Prop := (rx w).st = .locked ∧ (rx w).bcIn = bc
  let isRequest : Prop := bcKind bc = 1 ∧ ¬(bcTap bc = 3 ∧ bcAction bc = 3)
  let isSleep : Prop := bcKind bc = 1 ∧ bcTap bc = 3 ∧ bcAction bc = 3
  let isNew (w : State) : Prop := (tx w).lastSeq ≠ some (bcSeq bc)
  let taken (w : State) : State := atTx w { tx w with lastSeq := some (bcSeq bc), request := some bc, training := true }
  let tracked (w : State) : RxLane :=
    let l := { rx w with atLimit := bcStatus bc == 1, dwell := 0, dwellN := 0, fir := { (rx w).fir with waiting := false } }
    if bcStatus bc = 0 then trackPartner bc l else l
  let mine (w : State) : Prop := hears w ∧ bcKind bc = 2 ∧ (rx w).fir.waiting = true ∧ bcSeq bc = (rx w).fir.seq
  let errors (w : State) : Nat := (rx w).dwell + 81740 * (64 - (rx w).dwellN)
  let best (w : State) : State := atRx w { rx w with fir := { (rx w).fir with best := some (errors w) } }
  let dwells (w : State) : Prop := (w.rxDir b).phase = .fir ∧ (rx w).fir.waiting = false
  let done (w : State) : Prop := (rx w).st = .locked ∧ bcKind (rx w).bcIn = 3
  Events s t (.bcRequestReceived t b k bc) (fun w => hears w ∧ isRequest ∧ isNew w ∧ w.groupOfLane b k = none)
    (fun w => (taken w).settleLink) ∧
  (∀ n x, Events s t (.bcRequestReceived t b k bc)
    (fun w => hears w ∧ isRequest ∧ isNew w ∧ w.groupOfLane b k = some (n, x) ∧ (tx w).training = false)
    (fun w => ((taken w).setTxStream n (some { x with idle := true, withdrawLeft := 2 })).settleLink)) ∧
  (∀ n x, Events s t (.bcRequestReceived t b k bc)
    (fun w => hears w ∧ isRequest ∧ isNew w ∧ w.groupOfLane b k = some (n, x) ∧ (tx w).training = true)
    (fun w => (taken w).settleLink)) ∧
  Events s t (.bcRequestReceived t b k bc) (fun w => ¬hears w ∨ ¬isRequest ∨ ¬isNew w) State.settleLink ∧
  Events s t (.bcDoneReceived t b k) (fun w => done w ∧ (tx w).training = true ∧ (tx w).changed = false)
    (fun w => (atTx w { tx w with training := false, changed := false, bcOut := 0 }).settleLink) ∧
  Events s t (.bcDoneReceived t b k) (fun w => done w ∧ (tx w).training = true ∧ (tx w).changed = true)
    (fun w => ((atTx w { tx w with training := false, changed := false, bcOut := 0 }).writeTxRecord b k).settleLink) ∧
  Events s t (.bcDoneReceived t b k) (fun w => ¬done w ∨ (tx w).training = false) State.settleLink ∧
  Events s t (.sleepRequestReceived t b k bc) (fun w => hears w ∧ isSleep ∧ isNew w)
    (fun w => ((atTx w { tx w with
      lastSeq := some (bcSeq bc), request := none,
      bcOut := bcField 2 3 3 (bcPreset bc) (if 8 ≤ bcPreset bc then 2 else 0) (bcSeq bc) }).rxEvent b).settleLink) ∧
  Events s t (.sleepRequestReceived t b k bc) (fun w => ¬hears w ∨ ¬isSleep ∨ ¬isNew w) State.settleLink ∧
  Events s t (.bcAckReceived t b k bc) (fun w => ¬mine w) State.settleLink ∧
  Events s t (.bcAckReceived t b k bc) (fun w => mine w ∧ (w.rxDir b).phase ≠ .fir ∧ (w.rxDir b).phase ≠ .waiting)
    (fun w => (atRx w (tracked w)).settleLink) ∧
  Events s t (.bcAckReceived t b k bc)
    (fun w => mine w ∧ (w.rxDir b).phase = .waiting ∧ (rx w).fir.step ≠ .restore ∧ (w.rxDir b).noPartner = true)
    (fun w => ((atRx w (tracked w)).rxEvent b).settleLink) ∧
  Events s t (.bcAckReceived t b k bc) (fun w => mine w ∧ (w.rxDir b).phase = .waiting ∧ (rx w).fir.step = .restore ∧ bcStatus bc = 0)
    (fun w => ((atRx w (tracked w)).restoreFir b k false).settleLink) ∧
  (∀ tap inc, Events s t (.bcAckReceived t b k bc)
    (fun w => mine w ∧ (w.rxDir b).phase = .fir ∧ bcStatus bc ≠ 0 ∧ (rx w).fir.step = .tap tap inc)
    (fun w => ((atRx w (tracked w)).firGo b k (firNext (.tap tap inc))).settleLink)) ∧
  (∀ tap inc, Events s t (.bcAckReceived t b k bc)
    (fun w => mine w ∧ (w.rxDir b).phase = .fir ∧ bcStatus bc = 0 ∧ (rx w).fir.step = .tap tap inc)
    (fun w => (atRx w (tracked w)).settleLink)) ∧
  (∀ tap inc, Events s t (.bcAckReceived t b k bc) (fun w => mine w ∧ (w.rxDir b).phase = .fir ∧ (rx w).fir.step = .undo tap inc)
    (fun w => ((atRx w (tracked w)).firGo b k (firNext (.undo tap inc))).settleLink)) ∧
  Events s t (.bcAckReceived t b k bc) (fun w => mine w ∧ (w.rxDir b).phase = .fir ∧ (rx w).fir.step = .ended)
    (fun w => ((atRx w (tracked w)).sendRequest b k 3 0 0).settleLink) ∧
  Events s t (.firDwellEnd t b k) (fun w => dwells w ∧ (rx w).fir.step = .preset)
    (fun w => ((best w).firGo b k (.tap 2 true)).settleLink) ∧
  (∀ tap inc, Events s t (.firDwellEnd t b k)
    (fun w => dwells w ∧ (rx w).fir.step = .tap tap inc ∧ errors w < (rx w).fir.best.getD 0 ∧ (rx w).fir.requests < 48)
    (fun w => ((best w).firGo b k (.tap tap inc)).settleLink)) ∧
  (∀ tap inc, Events s t (.firDwellEnd t b k)
    (fun w => dwells w ∧ (rx w).fir.step = .tap tap inc ∧ (rx w).fir.best.getD 0 ≤ errors w)
    (fun w => (w.firGo b k (.undo tap inc)).settleLink)) ∧
  Events s t (.firDwellEnd t b k) (fun w => ¬dwells w) State.settleLink ∧
  Events s t (.bcRequestUnanswered t b k) (fun w => (rx w).fir.waiting = true ∧ (rx w).fir.resent = false)
    (fun w => let v := atRx w { rx w with fir := { (rx w).fir with resent := true } }
      (v.setTx b { v.txDir b with lanes := setAt (v.txDir b).lanes k { tx w with bcOut := (rx w).fir.asked } }).settleLink) ∧
  Events s t (.bcRequestUnanswered t b k)
    (fun w => (rx w).fir.waiting = true ∧ (rx w).fir.resent = true ∧ ((w.rxDir b).phase = .fir ∨ (w.rxDir b).phase = .verify))
    (fun w => (w.failRound b).settleLink) ∧
  Events s t (.bcRequestUnanswered t b k) (fun w => (rx w).fir.waiting = false) State.settleLink)

/-- A house raster's line start (R33): within its frame the next line begins, and at its end or for a realignment that is due the next frame (R36).
Sources that end, STC_SETs that wait, slews, the LEAD's decisions for engine inputs, the actions due there and the monitors follow in this order, and
a frame start adopts a partner's counts, applies a snapshot and lets the playout readers choose. An output raster's line start (R33, R41): the
Tailrace has sent the line that ends (R70, R303), and sources go on; in an extension the line count goes on; within a frame the line's work is done;
past the last line the next frame begins, and its work is owed. -/
def Obligations.RasterLineStarts : Prop :=
  (∀ (s : State) (t : Tick) (p : Nat), p < 2 →
  let line (w : State) (h : House) : State := (w.advanceSources w.now).setHouse p h
  let times (v : State) : State := (if p = 0 then v.applyStcWaits else v).runStc p
  let slew (w v : State) : State := ((v.slewLine p).advanceSources (w.now + 1)).leadInputs p
  let frame (w v : State) : State :=
    let v1 := slew w ((times v).policyFrame p)
    let v2 := (if p = 0 then v1.adoptPair else v1).runDue p
    let v3 := (if p = 0 then v2.applySnapshot else v2).playSources p
    v3.monitorLines p (v3.house p).line
  Events s t (.rasterLineStart t p)
    (fun w => (w.house p).started = true ∧ (w.house p).stepDue = false ∧ (w.house p).line < (w.house p).desc.totalLines)
    (fun w =>
      let v := (slew w (times (line w { w.house p with line := (w.house p).line + 1, lineT := w.now }))).runDue p
      v.monitorLines p (v.house p).line) ∧
  Events s t (.rasterLineStart t p)
    (fun w => (w.house p).started = true ∧ (w.house p).stepDue = false ∧ (w.house p).desc.totalLines ≤ (w.house p).line)
    (fun w => frame w (line w { w.house p with frame := (w.house p).frame + 1, line := 1, lineT := w.now, frameT := w.now })) ∧
  Events s t (.rasterLineStart t p) (fun w => (w.house p).started = true ∧ (w.house p).stepDue = true)
    (fun w => frame w ((line w { w.house p with
      frame := (w.house p).frame + 1, line := 1, lineT := w.now, frameT := w.now, stepPending := false }).followStep p)) ∧
  Events s t (.rasterLineStart t p) (fun w => (w.house p).started = false)
    (fun w => frame w (line w { w.house p with started := true, line := 1, lineT := w.now, frameT := w.now }))) ∧
  (∀ (s : State) (t : Tick) (n : Nat) (o : OutRaster), n < 512 →
  let watch (v : State) : State := v.monitorLines (2 + n) (((v.outRaster n).map (·.line)).getD 0)
  let sent (w : State) : State := w.sendLine n o.line o.lineT
  Events s t (.rasterLineStart t (2 + n)) (fun w => w.outRaster n = none) id ∧
  Events s t (.rasterLineStart t (2 + n)) (fun w => w.outRaster n = some o ∧ o.owed = false ∧ o.ext.isSome = true)
    (fun w =>
      let o1 := { o with line := o.line + 1, lineT := w.now }
      watch ((((w.setOutRaster n (some o1)).advanceSources w.now).armingLine n o1).advanceSources (w.now + 1))) ∧
  Events s t (.rasterLineStart t (2 + n))
    (fun w => w.outRaster n = some o ∧ o.owed = false ∧ o.ext = none ∧ o.line < o.desc.totalLines)
    (fun w =>
      let o1 := { o with line := o.line + 1, lineT := w.now }
      let v0 := (((sent w).setOutRaster n (some o1)).advanceSources w.now).armingLine n o1
      let v := ((v0.leadInputs (2 + n)).advanceSources (w.now + 1)).runDue (2 + n)
      watch (match activeIndex o.desc (o.line + 1) with
        | some k => if v.live then (v.ringMisses n k).layerReads n k else v
        | none => v)) ∧
  Events s t (.rasterLineStart t (2 + n))
    (fun w => w.outRaster n = some o ∧ o.owed = false ∧ o.ext = none ∧ o.desc.totalLines ≤ o.line)
    (fun w => watch (((((sent w).advanceSources w.now).setOutRaster n
      (some { o with frame := o.frame + 1, line := 1, lineT := w.now, frameT := w.now, owed := true })).leadInputs (2 + n)).advanceSources
        (w.now + 1))))

/-- The frame start of an output whose relation stays and on whose raster nothing waits takes the steps of R22 in order: swaps and flips, the actions
due there, the group's return from IDL (R110, R123) and its TIM packet (R70), overlays and the Millpond's work, waiting routes, class, loss and
lip-sync, and its reads; it takes no step where no frame start is owed. -/
def Obligations.FrameStartOfOutput : Prop :=
  ∀ (s : State) (t : Tick) (n : Nat) (o : OutRaster),
  Events s t (.outputFrameStart t n)
    (fun w => w.outRaster n = some o ∧ o.owed = true ∧ o.ext = none ∧ o.relation = false ∧ w.setsFor n = [] ∧
      ∀ j ∈ w.jobs, j.raster ≠ 2 + n)
    (fun w =>
      let f := o.frame.toNat
      let o1 := { o with line := 1, lineT := w.now, frameT := w.now, owed := false, ext := none, relation := false, adopted := false }
      let acts := ((((w.setOutRaster n (some o1)).swapFrame n f).flipFrame n f).runReached n).runDue (2 + n)
      let v := (acts.resumeOutput n).sendMarker n
      if (v.outRaster n).isNone then v
      else
        let v1 := (v.overlayFrame n).pondFrame n f
        let v2 := v1.applyOutWaits n f
        let v3 := v2.judgeOutput n f o1 (decide (v2.routes.waits.length < v1.routes.waits.length))
        if v3.live then (match activeIndex o.desc 1 with
          | some k => ((v3.frameReads n).ringMisses n k).layerReads n k
          | none => v3.frameReads n)
        else v3) ∧
  Events s t (.outputFrameStart t n) (fun w => w.outRaster n = none) id ∧
  Events s t (.outputFrameStart t n)
    (fun w => w.outRaster n = some o ∧ o.owed = false ∧ o.ext = none ∧ o.line ≠ o.desc.totalLines) id

/-- Engines (R193, R204, R218, R240, R242): an engine without a task starts its known-answer slice, a wrong result leads to FAILED; at a task's output
frame start its source's frame ends, the frame is made, and the captured tasks that moved count their fallbacks; a program whose check fails leads to
FAILED, and the last check of a gang loads its task and completes the command; a unit whose estimation ends writes its vectors to the task's bank of
MV, and to the other bank for a SHADOW target that follows it. -/
def Obligations.EngineRows : Prop :=
  ∀ (s : State) (t : Tick) (e : Nat) (x : Task) (u v : HUnit) (b : Buf) (id_ : Nat), e < 192 →
  let ended (w : State) : State := (w.advanceSources w.now).finishSources [512 + 2 * e]
  let moved (w v : State) : State := (v.engines.tasks.filterMap fun y => y.2.bind fun (a : Task) =>
      if (fget none w.engines.tasks y.1).any fun (c : Task) => c.started && c.eoT == a.eoT && c.frame == a.frame then none
      else if a.present then some (y.1, capturedKernel a.p.block) else none).foldl
    (fun (z : State) y => if y.2 then ((z.startSource (512 + 2 * y.1)).countFallbacks y.1).someTraffic (5632 + y.1) 0
                          else z.startSource (512 + 2 * y.1)) v
  let estimated (w : State) : State :=
    w.setTask e (some { x with history := x.history.map fun y => if y = u then { y with est := true } else y })
  let oldest : Prop := u ∈ x.history ∧ u.est = false ∧ ∀ y ∈ x.history, y.est = false → y ≠ u → u.start < y.start
  let vectors (w : State) : State := (estimated w).writeVectors (w.engine e).version x false (w.slotPic b u.slot) (w.slotPic b v.slot)
  let usable (w : State) : Prop := (w.engine e).verified = false ∧ (w.engine e).kernel ≠ 0 ∧
    ((w.engine e).st = .bound ∨ (w.engine e).st = .spare ∨ (w.engine e).st = .shadow)
  Events s t (.engineFrameStart t e)
    (fun w => (ended w).sys.quiet = .awake ∧ ((ended w).engine e).st ≠ .bound)
    (fun w => moved w (((ended w).setEngine e { (ended w).engine e with slice := some (ended w).now }).count 6 e 3)) ∧
  (∀ f eo, Events s t (.engineFrameStart t e)
    (fun w =>
      let z := ended w
      z.sys.quiet = .awake ∧ (z.engine e).st = .bound ∧ z.task e = some x ∧ z.eoFrame x.p = some (f, eo) ∧
        (x.started = true → x.frame < f) ∧ z.eoJobs e f = [])
    (fun w => moved w ((ended w).taskFrame e f eo))) ∧
  Events s t (.knownAnswerResult t e true) (fun w => (w.engine e).slice.isSome = true)
    (fun w => w.setEngine e { w.engine e with slice := none }) ∧
  Events s t (.knownAnswerResult t e false) (fun w => (w.engine e).slice.isSome = true)
    (fun w => (w.setEngine e { w.engine e with slice := none }).enterFailed 3 e 0) ∧
  (∀ good, Events s t (.knownAnswerResult t e good) (fun w => (w.engine e).slice = none) id) ∧
  Events s t (.kernelLoadVerified t e false)
    usable (fun w => w.enterFailed 4 e 0) ∧
  Events s t (.kernelLoadVerified t e true)
    (fun w =>
      let v := w.setEngine e { w.engine e with verified := true }
      (w.engine e).verified = false ∧ (w.engine e).st = .bound ∧ (w.engine e).kernel ≠ 0 ∧ v.task (w.engine e).first = some x ∧
        x.loaded = false ∧ x.job = some id_ ∧ ∀ k ∈ gangOf x.p, (v.engine k).verified = true)
    (fun w => ((w.setEngine e { w.engine e with verified := true }).setTask (w.engine e).first
      (some { x with loaded := true, job := none })).completeId id_ stOk 0 (some x.p.raster)) ∧
  Events s t (.kernelLoadVerified t e true) (fun w => usable w ∧ (w.engine e).st ≠ .bound)
    (fun w => w.setEngine e { w.engine e with verified := true }) ∧
  Events s t (.kernelLoadVerified t e true)
    (fun w =>
      let v := w.setEngine e { w.engine e with verified := true }
      (w.engine e).verified = false ∧ (w.engine e).st = .bound ∧ (w.engine e).kernel ≠ 0 ∧ v.task (w.engine e).first = some x ∧
        ∃ k ∈ gangOf x.p, (v.engine k).verified = false)
    (fun w => w.setEngine e { w.engine e with verified := true }) ∧
  Events s t (.motionEstimateDone t e)
    (fun w => w.task e = some x ∧ oldest ∧ w.histBuf x = some b ∧ newestUnit (newer u) x.history = none) estimated ∧
  Events s t (.motionEstimateDone t e)
    (fun w => w.task e = some x ∧ oldest ∧ w.histBuf x = some b ∧ newestUnit (newer u) x.history = some v ∧
      (x.migrate = none ∨ ∃ g j, x.migrate = some (g, j) ∧ (w.engine g).st ≠ .shadow)) vectors ∧
  (∀ g j, Events s t (.motionEstimateDone t e)
    (fun w => w.task e = some x ∧ oldest ∧ w.histBuf x = some b ∧ newestUnit (newer u) x.history = some v ∧
      x.migrate = some (g, j) ∧ (w.engine g).st = .shadow)
    (fun w => (vectors w).writeVectors (w.engine g).version x true (w.slotPic b u.slot) (w.slotPic b v.slot))) ∧
  Events s t (.motionEstimateDone t e) (fun w => w.task e = some x ∧ ∀ y ∈ x.history, y.est = true) id

/-- Decision lines and flattens (R266, R272, R278): off its decision line an output decides nothing; on it groups, then layers, are decided, and a
LEAD sends the decisions; a flatten that ends writes its image under its new charge, or is rejected for want of tiles or budget. The Millpond (R164 to
R166, R179, R180): a scrub reads a granule, corrects and counts an error, delivers the address of one that it corrected in the pass before as well,
and an uncorrectable one leads to FAILED with the scrub as its user, as does any uncorrectable ECC error with the user of its read; a correction of a
Millpond or engine memory is counted; a transfer that ends moves its bytes to or from the buffer, marks its slot complete where asked, and completes
its command. -/
def Obligations.DecisionFlattenAndPondRows : Prop :=
  (∀ (s : State) (t : Tick) (n k : Nat) (o : OutRaster) (r : StaticRun) (x : Flatten) (b : Buf),
  let tiles (w : State) : List Nat := w.occupiedTiles n x.from_ b.params.width b.params.height
  let new (w : State) : Nat := sparseCharge (densestRow b.params.width (tiles w)) b.params.width b.params.height o.desc
  let add (w : State) : Charge := { kind := 4, holder := 2 * n + k, sub := x.into, mb := max (w.sparseHeld n k) (new w) }
  let ended (w v : State) (st : Nat) : State :=
    ((v.modRun n k fun r => { r with flat := some { x with result := some st, newCharge := new w } }).freeFlattener x.flattener)
  let moved (v : State) : State := (v.someTraffic (5824 + x.flattener) 0).someTraffic (5824 + x.flattener) 1
  let ready (w : State) : Prop := runAt (w.compOut n) k = some r ∧ r.flat = some x ∧ w.outRaster n = some o ∧ x.result = none ∧
    w.sys.quiet = .awake ∧ w.bufAt x.into = some b
  Events s t (.sluiceDecisionLine t n)
    (fun w => w.outRaster n = some o ∧ (w.atDecision n o = false ∨ (w.compOut n).decisionFor.isSome = true)) id ∧
  Events s t (.sluiceDecisionLine t n)
    (fun w => w.outRaster n = some o ∧ w.atDecision n o = true ∧ (w.compOut n).decisionFor = none ∧ w.sys.quiet = .awake ∧ w.isMate = true)
    (fun w => w.setCompOut n { w.compOut n with decisionFor := some (w.comingFrame n o).1 }) ∧
  Events s t (.sluiceDecisionLine t n)
    (fun w => w.outRaster n = some o ∧ w.atDecision n o = true ∧ (w.compOut n).decisionFor = none ∧ w.sys.quiet = .awake ∧ w.isMate = false)
    (fun w =>
      let v := w.setCompOut n { w.compOut n with decisionFor := some (w.comingFrame n o).1 }
      let v1 := ((layerNos.filterMap fun l => (layerOf (v.compOut n) l).group).eraseDups).foldl (fun u g => u.decideGroup g) v
      let v2 := layerNos.foldl (fun u l => u.decideLayer n l)
        { v1 with comp := { v1.comp with groups := tmap {} (fun _ g => markTaking n g) v1.comp.groups } }
      if v2.isLead then v2.emit (.brinen 6 [n, (w.comingFrame n o).1, v2.decisionMap n]) else v2) ∧
  Events s t (.flattenComplete t n k) (fun w => ready w ∧ b.params.count < (tiles w).length)
    (fun w => moved (ended w w stNoResource)) ∧
  Events s t (.flattenComplete t n k)
    (fun w => ready w ∧ (tiles w).length ≤ b.params.count ∧ (w.admission (ofSparse n k) [add w]).isSome = true)
    (fun w => moved (ended w (w.count 8 0 1) stFlattenOverBudget)) ∧
  Events s t (.flattenComplete t n k)
    (fun w => ready w ∧ (tiles w).length ≤ b.params.count ∧ w.admission (ofSparse n k) [add w] = none)
    (fun w => moved (ended w ((w.charge (ofSparse n k) [add w]).writeImage n x.from_ b (tiles w)) stOk)) ∧
  Events s t (.flattenComplete t n k) (fun w => runAt (w.compOut n) k = none) id) ∧
  (∀ (s : State) (t : Tick) (g source unit addr user id_ : Nat) (x : Xfer) (b : Buf),
  let pass (w : State) : Pond := if g < w.pond.scrubAt then { w.pond with scrubLast := w.pond.scrubNow, scrubNow := [] } else w.pond
  let read (w : State) : State := (({ w with pond := { pass w with scrubAt := g + 1 } }).count 7 (g % 64) 2).traffic 5841 0 (256 * g) 256
  let gone (w : State) : State := { w with pond := { w.pond with xfers := w.pond.xfers.filter fun y => y.job != id_ } }
  let at_ : Nat := b.addr + x.p.offset
  let head : Nat := slotAddr b.addr (slotSize b.params.width b.params.height b.params.format) x.p.slot
  let found (w : State) : Prop := w.pond.xfers.find? (fun y => y.job == id_) = some x ∧ w.bufAt x.buf = some b ∧ w.pair.role = .solo
  Events s t (.scrubGranule t g 0) (fun w => w.sys.quiet = .awake) read ∧
  Events s t (.scrubGranule t g 1) (fun w => w.sys.quiet = .awake) (fun w =>
    let v := (({ read w with pond := { (read w).pond with scrubNow := g :: (read w).pond.scrubNow } }).count 7 (g % 64) 0).traffic
      5843 1 (256 * g) 256
    if (read w).pond.scrubLast.contains g then
      (({ v with pond := { v.pond with repeatAt := some (256 * g) } }).count 7 (g % 64) 1).emit (.repeatCorrection (256 * g))
    else v) ∧
  Events s t (.scrubGranule t g 2) (fun w => w.sys.quiet = .awake) (fun w => (read w).memoryFault 1 (g % 64) (256 * g) 5841) ∧
  Events s t (.eccUncorrectableError t source unit addr user false) (fun _ => source = 1 ∨ source = 2 ∨ source = 9 ∨ source = 10)
    (fun w => w.memoryFault source unit addr user) ∧
  Events s t (.eccUncorrectableError t 1 unit addr user true) (fun _ => True) (fun w => w.count 7 (unit % 64) 0) ∧
  Events s t (.eccUncorrectableError t 2 unit addr user true) (fun _ => True) (fun w => w.count 6 (unit % 192) 2) ∧
  (∀ corrected, Events s t (.eccUncorrectableError t source unit addr user corrected)
    (fun _ => source ≠ 1 ∧ source ≠ 2 ∧ (corrected = false → source ≠ 9 ∧ source ≠ 10)) id) ∧
  Events s t (.xferComplete t id_) (fun w => found w ∧ x.toDevice = true ∧ x.p.p3 = false ∧ x.p.markComplete = false)
    (fun w => ((((gone w).pondWrite at_ ((x.p.data ++ List.replicate (x.p.bytes - x.p.data.length) 0).take x.p.bytes)).traffic
      5840 1 at_ x.p.bytes).completeId id_ stOk 0 none)) ∧
  Events s t (.xferComplete t id_) (fun w => found w ∧ x.toDevice = true ∧ x.p.p3 = true ∧ x.p.markComplete = false)
    (fun w => ((((gone w).pondWrite at_ (toP4 (x.p.bytes / 4) (x.p.data ++ List.replicate (x.p.bytes - x.p.data.length) 0))).traffic
      5840 1 at_ x.p.bytes).completeId id_ stOk 0 none)) ∧
  Events s t (.xferComplete t id_) (fun w => found w ∧ x.toDevice = true ∧ x.p.p3 = false ∧ x.p.markComplete = true)
    (fun w =>
      let v := (gone w).pondWrite at_ ((x.p.data ++ List.replicate (x.p.bytes - x.p.data.length) 0).take x.p.bytes)
      let v1 := ((v.pondWrite head (leBytes 8 (x.p.frame % 2 ^ 48))).pondWrite (head + 16) (leBytes 8 x.p.doneStc)).setSlotState head 2
      (v1.traffic 5840 1 at_ x.p.bytes).completeId id_ stOk 0 none) ∧
  Events s t (.xferComplete t id_) (fun w => found w ∧ x.toDevice = false ∧ x.p.p3 = false)
    (fun w => (((gone w).traffic 5840 0 at_ x.p.bytes).emit (.dma 0 x.p.hostAddr ((gone w).pondRead at_ x.p.bytes))).completeId
      id_ stOk (if x.torn then 1 else 0) none) ∧
  Events s t (.xferComplete t id_) (fun w => found w ∧ x.toDevice = false ∧ x.p.p3 = true)
    (fun w => (((gone w).traffic 5840 0 at_ x.p.bytes).emit
      (.dma 0 x.p.hostAddr (toP3 (x.p.bytes / 4) ((gone w).pondRead at_ x.p.bytes)))).completeId id_ stOk (if x.torn then 1 else 0) none))

/-- A reference that is lost or returns fires its event; a locked house synthesizer then coasts (R408, R409, R411), and the appearance sets its wake
latch (R510). A frame sync pulse aligns the raster at the first lock and makes a phase jump follow the policy (R412, R413); the first pulse of a
returning reference is judged before the relock (R36), and a LEAD stamps a realignment at a house line 1,350 ticks or more ahead for both members (the
model's choice, assumption 39). A line sync pulse gives PHASE_ERR its measurement (R408; the model's choice, assumption 21). A synthesizer's lock and
its loss fire its event and are followed by what depends on it (R409, R411, R416, R421, R423); a band that misses leads to a search, whose result is
stored (R419, R420); the loss of the fabric synthesizer, or of a locked lane synthesizer, leads to FAILED (R406, R416); SYNC_IN resets the dividers of
every outlet in SYNCRESET (R425); CP_B's timer fires once (R479). -/
def Obligations.ReferenceAndSynthesizerRows : Prop :=
  (∀ (s : State) (t : Tick) (p : Nat) (off : Int), p < 2 →
  let err : Int := max (-2147483647) (min 2147483647 off)
  let seen (w : State) : State := (w.setRef p { w.ref p with fsMissing := false, returned := false }).setSynth p { w.synth p with phaseErr := err }
  let away (w : State) (v : Int) : Prop := w.refPeriod p < (off - v).natAbs
  let judged (w : State) : Prop := (w.ref p).present = true ∧ w.isMate = false ∧ (w.synth p).aligned = true ∧
    ((w.synth p).locked = true ∨ (w.ref p).returned = true)
  let line (w : State) : Option (Nat × Nat) :=
    if w.isLead then some (stampFrom (w.house p).standing (w.now + 1350) 256 5) else none
  Events s t (.refAbsent t p) (fun w => (w.ref p).present = true ∧ (w.synth p).locked = true)
    (fun w => ((((w.setRef p { w.ref p with present := false }).fire (962 + p)).setSynth p
      { w.synth p with locked := false, lost := true, history := decide ((w.synth p).lockT + 270000000 ≤ w.now) }).fire (960 + p)).syncClocks) ∧
  Events s t (.refAbsent t p) (fun w => (w.ref p).present = true ∧ (w.synth p).locked = false)
    (fun w => ((w.setRef p { w.ref p with present := false }).fire (962 + p)).syncClocks) ∧
  Events s t (.refAbsent t p) (fun w => (w.ref p).present = false) id ∧
  Events s t (.refPresent t p) (fun w => (w.ref p).present = false ∧ (w.ref p).enable = true)
    (fun w => (((((w.setRef p { w.ref p with present := true, everPresent := true, returned := (w.ref p).everPresent }).setSynth p
      { w.synth p with lost := false }).fire (962 + p)).syncClocks).setLatch 3)) ∧
  Events s t (.refPresent t p) (fun w => (w.ref p).enable = false) id ∧
  Events s t (.frameSyncMissing t p) (fun w => (w.ref p).present = true)
    (fun w => (w.setRef p { w.ref p with fsMissing := true }).fire (962 + p)) ∧
  Events s t (.frameSyncMissing t p) (fun w => (w.ref p).present = false) id ∧
  Events s t (.refLineSyncPulse t p off) (fun w => (w.ref p).present = true ∧ (w.ref p).lineSync = true)
    (fun w => w.setSynth p { w.synth p with phaseErr := max (-2147483647) (min 2147483647 off) }) ∧
  Events s t (.refLineSyncPulse t p off) (fun w => (w.ref p).present = false ∨ (w.ref p).lineSync = false) id ∧
  Events s t (.refFrameSyncPulse t p off) (fun w => (w.ref p).present = false) id ∧
  Events s t (.refFrameSyncPulse t p off) (fun w => (w.ref p).present = true ∧
    (w.isMate = true ∨ (w.synth p).locked = false ∧ ((w.ref p).returned = false ∨ (w.synth p).aligned = false))) seen ∧
  Events s t (.refFrameSyncPulse t p off)
    (fun w => (w.ref p).present = true ∧ (w.synth p).locked = true ∧ w.isMate = false ∧ (w.synth p).aligned = false)
    (fun w => ((seen w).setSynth p { (seen w).synth p with aligned := true }).setHouse p { w.house p with stepPending := true, stepAt := line w }) ∧
  Events s t (.refFrameSyncPulse t p off)
    (fun w => judged w ∧ away w (w.synth p).buildout ∧ ((w.synth p).slewLeft = 0 ∨ away w (w.synth p).slewLeft))
    (fun w => ((seen w).jump p off).fire (960 + p)) ∧
  Events s t (.refFrameSyncPulse t p off)
    (fun w => judged w ∧ (¬away w (w.synth p).buildout ∨ (w.synth p).slewLeft ≠ 0 ∧ ¬away w (w.synth p).slewLeft)) seen) ∧
  (∀ (s : State) (t : Tick) (i band : Nat) (temp : Int),
  let may (w : State) : Prop := if isHouse i then (w.ref i).present = true else if isOutlet i then (w.synth i).freq ≠ 0 else isLane i = true
  let lock (w : State) : State :=
    (w.setSynth i { w.synth i with locked := true, everLocked := true, lost := false, retuning := false, lockT := w.now }).fire (synthEvent i)
  Events s t (.synthLock t i)
    (fun w => (w.synth i).locked = false ∧ (w.synth i).searching = false ∧ may w ∧ (isLane i && (w.synth i).retuning) = false)
    (fun w => (lock w).syncClocks) ∧
  Events s t (.synthLock t i)
    (fun w => (w.synth i).locked = false ∧ (w.synth i).searching = false ∧ may w ∧ isLane i = true ∧ (w.synth i).retuning = true)
    (fun w => ((servedBy i).foldl (fun (u : State) b =>
      if (u.txDir b).enable && !(u.txDir b).asleep && (u.txDir b).phase = .idle && u.sys.mode != .failed then
        applyRecords b 1 (u.txStart b) else u) (lock w)).syncClocks) ∧
  Events s t (.synthLock t i) (fun w => (w.synth i).locked = true ∨ (w.synth i).searching = true ∨ ¬may w) id ∧
  Events s t (.synthLossOfLock t i) (fun w => (w.synth i).locked = true ∧ isLane i = false)
    (fun w => ((w.setSynth i { w.synth i with locked := false, lost := true,
                                              history := isHouse i && decide ((w.synth i).lockT + 270000000 ≤ w.now) }).fire (synthEvent i)).syncClocks) ∧
  Events s t (.synthLossOfLock t i) (fun w => (w.synth i).locked = false) id ∧
  Events s t (.bandMiss t i)
    (fun w => (w.synth i).retuning = true ∧ (w.synth i).searching = false ∧ ((w.synth i).bandFrom = .table ∨ (w.synth i).bandFrom = .stored))
    (fun w => (w.startSearch i).fire (synthEvent i)) ∧
  Events s t (.bandMiss t i) (fun w => (w.synth i).retuning = false ∨ (w.synth i).searching = true) id ∧
  Events s t (.bandSearchDone t i band temp) (fun w => (w.synth i).searching = true)
    (fun w => (w.setSynth i { w.synth i with searching := false, band := band % 64 }).writeSearch (w.searchVictim i) i band temp
      (w.vco i (w.synth i)) (w.synth i).retunes) ∧
  Events s t (.bandSearchDone t i band temp) (fun w => (w.synth i).searching = false) id ∧
  Events s t (.syncInEdge t) (fun _ => True) (fun w =>
    [32, 33, 34, 35].foldl (fun u k => if (u.synth k).freq ≠ 0 ∧ (u.synth k).phaseMode = 0 then u.resetDividers k else u) w) ∧
  Events s t (.fabricSynthLoss t) (fun _ => True)
    (fun w => { w with clocks := { w.clocks with fabricLocked := false } }.enterFailed 8 255 0) ∧
  Events s t (.laneSynthLoss t i) (fun w => isLane i = true ∧ (w.synth i).locked = true)
    (fun w => (w.setSynth i { w.synth i with locked := false }).enterFailed 10 i 0) ∧
  Events s t (.laneSynthLoss t i) (fun w => isLane i = false ∨ (w.synth i).locked = false) id ∧
  Events s t (.cpbTimerCompare t) (fun w => w.hub.armed = true ∧ w.hub.timecmp ≤ w.stc)
    (fun w => { w with hub := { w.hub with armed := false, fired := true } }.fire 6) ∧
  Events s t (.cpbTimerCompare t) (fun w => w.hub.armed = false ∨ w.stc < w.hub.timecmp) id)

/-- A destination channel is served up to its due sample, and a LEAD sends its decision, with the state of the converter that feeds it (R287, R298,
R320); a hold of 20 ms goes over to zero (R295); the next block of embedded audio that is due is sent as an AUD packet, unless the group sends IDL,
and none twice (R76, R77, R110, R303). Within two superframes of its instant, when the packet's first symbol leaves is a free value (assumption 4). -/
def Obligations.AudioServiceRows : Prop :=
  ∀ (s : State) (t : Tick) (c n g : Nat) (d : DstInfo) (p : AudioEmbedP) (a : Asrc) (v : TxStream),
  let served (w : State) : State := w.serveTo c (w.dueSample d)
  let next (w : State) : Int := w.nextBlock n p
  let b := blockSamples p.blkLen
  let chan (i : Nat) : Nat := 32 * n + rateK p.rate * i
  let nch := p.slots / rateK p.rate
  let ready (w : State) : State := (List.range nch).foldl (fun u i => u.serveTo (chan i) (next w * b + b - 1)) w
  let sample (w : State) (f i : Nat) : Int × Nat := (ready w).outAt (chan i) p.rate (next w * b + f)
  let lead (w : State) (i : Nat) : Nat :=
    if ((ready w).dst (chan (i / 2 * 2))).route.isSome || !((ready w).dst (chan (i / 2 * 2 + 1))).route.isSome then i / 2 * 2
    else i / 2 * 2 + 1
  let side (w : State) (f i : Nat) : Nat := (sample w f i).2 % 4 + (sample w f (lead w i)).2 / 4 * 4
  let all (w : State) : List (Int × Nat) :=
    (List.range b).flatMap fun f => (List.range nch).map fun i => ((sample w f i).1, side w f i)
  let packet (w : State) (ts : Nat) : List Nat := audSymbols p.rate nch b ts ((all w).map (·.1)) (side w)
  let drawn (w : State) : Nat × State := (((ready w).setEmbed n { (ready w).embed n with sent := some (next w) }).noteSent n (packet w 0)).freeNat
  let since (w : State) : Int := (w.now : Int) - (w.gridZero (w.houseOf n) + next w * b * samplePeriod p.rate) / 196
  let offset (w : State) : Nat :=
    min 1048575 ((since w).toNat + (drawn w).1 % (2 * superframeTicks (w.txDir v.cfg.bundle).rate + 1))
  let sent (w : State) : State := if v.idle then (drawn w).2
    else ((drawn w).2.emit (.aud n (next w).toNat (all w))).queuePackets n [packet w (offset w)]
  let idle (w : State) : Prop := w.dueBlock n p < next w ∨ w.txStream n = none ∨ w.sys.quiet = .asleep
  let block (w : State) : Nat := d.blockOf (d.zero + w.dueSample d * samplePeriod d.rate)
  let told (w : State) : State := (served w).emit (.brinen 7 [0, c, block w, if ((served w).dst c).under = 0 then 0 else 1])
  let from_ (w : State) : Option (Nat × Asrc) := (w.dst c).route.bind fun r => w.asrcOf r.src
  Events s t (.destinationBlockService t c) (fun w => w.dstInfo c = some d ∧ w.sys.quiet ≠ .asleep ∧ (served w).isLead = false) served ∧
  Events s t (.destinationBlockService t c)
    (fun w => w.dstInfo c = some d ∧ w.sys.quiet ≠ .asleep ∧ (served w).isLead = true ∧ from_ (told w) = none) told ∧
  Events s t (.destinationBlockService t c)
    (fun w => w.dstInfo c = some d ∧ w.sys.quiet ≠ .asleep ∧ (served w).isLead = true ∧ from_ (told w) = some (g, a))
    (fun w => (told w).emit (.brinen 7 [2, g, block w, asrcCode a.st, encInt 64 a.per, encInt 64 a.phase])) ∧
  Events s t (.destinationBlockService t c) (fun w => w.dstInfo c = none) id ∧
  Events s t (.underrunHoldExpire t c)
    (fun w => w.dstInfo c = some d ∧ rateFs d.rate / 50 ≤ (w.dst c).under ∧ (w.dst c).zeroing = none ∧ (w.dst c).heldZero = false)
    (fun w => w.setDst c { w.dst c with zeroing := some 0 }) ∧
  Events s t (.underrunHoldExpire t c) (fun w => w.dstInfo c = some d ∧ (w.dst c).under < rateFs d.rate / 50) id ∧
  Events s t (.embedBlockSend t n) (fun w => (w.embed n).p = none) id ∧
  Events s t (.embedBlockSend t n) (fun w => (w.embed n).p = some p ∧ idle w) id ∧
  Events s t (.embedBlockSend t n) (fun w => (w.embed n).p = some p ∧ w.txStream n = some v ∧ ¬idle w ∧ ((sent w).embed n).sent ≠ (w.embed n).sent)
    (fun w => ((sent w).someTraffic 5842 0).someTraffic 5842 1)

/-- Ports, domains, converters and pairs: an FS edge receives the frame that ends and sends the one that begins, and a port without edges for four
periods loses its framing (R310); a domain locks after its run and ends 1 s after its last sample (R286); a converter locks and falls back to ACQUIRE
(R299); a pair returns to audio (R317). These last three are decided by a LEAD for both members: it sends its decision, and a MATE decides none itself
(R320). -/
def Obligations.AudioPortRows : Prop :=
  ∀ (s : State) (t : Tick) (p d house g pair : Nat) (f : TdmFrame) (k : AportSetP) (a : Asrc) (last : Tick),
  let whole : Bool := k.role == 0 || f.bits == k.slots * k.width
  let received (w : State) : State := match (w.port p).lastEdge with
    | some u => if (w.port p).framed && whole then w.receiveFrame p k u f.slots else w
    | none => w
  let framed (w v : State) : State :=
    if k.role = 1 then v.frameTarget p k f.bits
    else if (w.port p).framed then v else v.beginTdm p
  let masked (w v : State) : State := let u := framed w v; (u.setPort p { u.port p with lastEdge := some w.now }).applyMasks p
  let locked (x : Domain) : Domain :=
    if house = 0 then { x with lockA := x.lockA || decide (262144 ≤ x.runA) } else { x with lockB := x.lockB || decide (262144 ≤ x.runB) }
  let shut (w : State) : Prop := w.sys.quiet = .asleep ∨ w.sys.quiet = .entering ∧ (w.port p).stopping = false
  let tell (w : State) (body : List Nat) : State := if w.isLead then w.emit (.brinen 7 body) else w
  let bit (x : Bool) : Nat := if x then 1 else 0
  let both (x : Domain) : List Nat := [1, d, bit x.lockA, bit x.lockB, encInt 64 x.offA, encInt 64 x.offB]
  let j (w : State) : PairJudge := fget {} w.audio.pairs pair
  Events s t (.tdmFsEdge t p f) (fun w => (w.port p).cfg = none) id ∧
  (∀ k', Events s t (.tdmFsEdge t p f)
    (fun w => (w.port p).cfg = some k ∧ ¬shut w ∧ ((received w).port p).stopping = false ∧
      ((masked w (received w)).port p).cfg = some k')
    (fun w => (masked w (received w)).sendFrame p k')) ∧
  Events s t (.tdmFsEdge t p f)
    (fun w => (w.port p).cfg = some k ∧ ¬shut w ∧ ((received w).port p).stopping = true ∧ (received w).portSilent p = true)
    (fun w => (received w).endStop p) ∧
  Events s t (.tdmFsEdge t p f) shut id ∧
  Events s t (.tdmFsTimeout t p)
    (fun w => (w.port p).cfg = some k ∧ (w.port p).lastEdge = some last ∧ k.role = 1 ∧ (w.port p).framed = true ∧
      tick196 last + 4 * samplePeriod k.rate ≤ tick196 w.now)
    (fun w => if (w.port p).stopping then (w.unframe p).endStop p else w.unframe p) ∧
  Events s t (.tdmFsTimeout t p) (fun w => (w.port p).cfg = none ∨ (w.port p).lastEdge = none) id ∧
  Events s t (.domainLock t d house) (fun w => locked (w.domain d) ≠ w.domain d ∧ w.isMate = false)
    (fun w => tell ((w.setDomain d (locked (w.domain d))).domainEvent d) (both (locked (w.domain d)))) ∧
  Events s t (.domainLock t d house) (fun w => locked (w.domain d) = w.domain d ∨ w.isMate = true) id ∧
  Events s t (.domainSampleTimeout t d)
    (fun w => (w.domain d).lastT = some last ∧ last + 270000000 ≤ w.now ∧ w.isMate = false ∧
      ((w.domain d).lockA = true ∨ (w.domain d).lockB = true))
    (fun w => tell ((w.setDomain d {}).domainEvent d) (both {})) ∧
  Events s t (.domainSampleTimeout t d)
    (fun w => (w.domain d).lastT = some last ∧ last + 270000000 ≤ w.now ∧ w.isMate = false ∧
      (w.domain d).lockA = false ∧ (w.domain d).lockB = false)
    (fun w => w.setDomain d {}) ∧
  Events s t (.domainSampleTimeout t d) (fun w => (w.domain d).lastT = none ∨ w.isMate = true) id ∧
  Events s t (.asrcLock t g)
    (fun w => w.asrc g = some a ∧ a.st = .acquire ∧ a.lastT.isSome = true ∧ a.sinceT + 67500000 ≤ w.now ∧ w.isMate = false)
    (fun w => w.asrcTo g a .locked) ∧
  Events s t (.asrcLock t g) (fun w => w.asrc g = some a ∧ (a.st ≠ .acquire ∨ w.now < a.sinceT + 67500000 ∨ w.isMate = true)) id ∧
  Events s t (.asrcSourceTimeout t g)
    (fun w => w.asrc g = some a ∧ a.st = .locked ∧ (∃ u, a.lastT = some u ∧ u + tick196 27000000 ≤ tick196 w.now) ∧ w.isMate = false)
    (fun w => w.asrcTo g { a with lastT := none, per := 0 } .acquire) ∧
  Events s t (.asrcSourceTimeout t g) (fun w => w.asrc g = some a ∧ (a.st ≠ .locked ∨ w.isMate = true)) id ∧
  Events s t (.nonaudioRevert t pair) (fun w => (j w).non = true ∧ (j w).clean = 4096 ∧ (j w).bit1 = false ∧ w.isMate = false)
    (fun w => tell { w with audio := { w.audio with pairs := fset {} w.audio.pairs pair { j w with non := false } } } [3, pair, 0]) ∧
  Events s t (.nonaudioRevert t pair) (fun w => (j w).non = false ∨ (j w).clean ≠ 4096 ∨ (j w).bit1 = true ∨ w.isMate = true) id

/-- A message whose CRC fails is counted and has no other effect (R384). HELLO tells what the partner is and how far its house frames are, a second
LEAD with authority raises event 976, and PAIR_SET completes once the link is up and the counts are equal (R380, R382). The link comes up with a HELLO
and four locked lanes; a LEAD without authority yields to one with it (Table 14.1). The partner fails or is lost: a MATE becomes LEAD, with authority
on a failure notice (R399) and without where its link goes down at a missed decision (R388, R400), with what the partner had begun to send forgotten
(the model's choice, assumption 39); both go on apart and commit what the partner did not refuse. The LEAD's decisions reach a MATE once each (R142,
R272), and its audio decisions (R320): an underrun, a domain's lock and offsets, a converter's state and ratio, a pair's judgement and a lip-sync
delay. -/
def Obligations.PairLinkRows : Prop :=
  (∀ (s : State) (t : Tick) (bad a : Arrival) (m : HelloBody), bad.crcOk = false → a.crcOk = true →
  let clash (w : State) : Bool := w.pair.role == .lead && w.pair.authority && m.role == 1 && m.authority
  let told (w : State) : State := w.setPair { w.pair with
    hello := some m, mateFw := m.fw, mateLib := m.lib, conflict := clash w,
    deltaA := (m.frameA : Int) - (w.house 0).frame.toNat, deltaB := (m.frameB : Int) - (w.house 1).frame.toNat }
  let level (w : State) : Prop := (m.frameA : Int) = (w.house 0).frame.toNat ∧ (m.frameB : Int) = (w.house 1).frame.toNat
  let paired (j : Job) : Bool := match j.params with
    | .pairSet _ => true
    | _ => false
  let up (w : State) : State := (w.setPair { w.pair with up := true, mateFailed := false }).fire 976
  let yields (w : State) : Prop := w.pair.role = .lead ∧ w.pair.authority = false ∧ m.role = 1 ∧ m.authority = true
  let opens (w : State) : Prop := w.pair.hello = some m ∧ w.pair.up = false ∧ w.pair.conflict = false ∧ w.brinenLocked = true
  let adopts (w : State) : State := (up w).setPair { (up w).pair with adopt := w.pair.role == .mate }
  (∀ f, onMessage bad f s = s.count 13 0 3) ∧
  Events s t (.msgHello t a m) (fun w => w.pair.up = false ∧ (clash w = false ∨ w.pair.conflict = true)) told ∧
  Events s t (.msgHello t a m) (fun w => w.pair.up = false ∧ clash w = true ∧ w.pair.conflict = false) (fun w => (told w).fire 976) ∧
  Events s t (.msgHello t a m) (fun w => w.pair.up = true ∧ clash w = false ∧ level w)
    (fun w => (told w).completeWhere paired stOk 0 none) ∧
  Events s t (.linkUp t) (fun w => opens w ∧ ¬yields w ∧ (w.pair.deltaA ≠ 0 ∨ w.pair.deltaB ≠ 0)) adopts ∧
  Events s t (.linkUp t) (fun w => opens w ∧ ¬yields w ∧ w.pair.deltaA = 0 ∧ w.pair.deltaB = 0)
    (fun w => (adopts w).completeWhere paired stOk 0 none) ∧
  Events s t (.linkUp t) (fun w => opens w ∧ yields w ∧ (w.pair.deltaA ≠ 0 ∨ w.pair.deltaB ≠ 0))
    (fun w =>
      let u := ((up w).setPair { (up w).pair with role := .mate }).fire 977
      u.setPair { u.pair with adopt := true }) ∧
  Events s t (.linkUp t) (fun w => w.pair.hello = none ∨ w.brinenLocked = false) id) ∧
  (∀ (s : State) (t : Tick) (a : Arrival) (src n f v x : Nat) (la lb non under : Bool) (oa ob : Int) (c : Asrc) (p : AudioEmbedP)
    (o : OutRaster), a.crcOk = true →
  let apart (w : State) : State := (w.setPair { w.pair with sync := .apart, own := [], partner := [], windows := [] }).fire 980
  let takes (w : State) (d : Decision) : State :=
    w.setPair { w.pair with received := d :: w.pair.received.filter fun y => !(y.kind == d.kind && y.unit == d.unit && decide (y.key + 8 ≤ d.key)) }
  let hears (i : Instr) (d : Decision) : Prop :=
    Events s t i (fun w => w.pair.role = .mate ∧ w.pair.received.contains d = false) (fun w => takes w d) ∧
    Events s t i (fun w => w.pair.role ≠ .mate ∨ w.pair.received.contains d = true) id
  Events s t (.msgFail t a src) (fun w => w.pair.role ≠ .solo ∧ w.pair.mateFailed = false ∧ w.pair.sync ≠ .apart)
    (fun w => (apart ((w.setPair { w.pair with
      mateFailed := true, role := .lead, authority := w.pair.role == .mate || w.pair.authority }).fire 977)).goOn) ∧
  Events s t (.msgFail t a src) (fun w => w.pair.role = .solo ∨ w.pair.mateFailed = true) id ∧
  Events s t (.decisionDeadlineMiss t) (fun w => w.isMate = true ∧ w.pair.up = true)
    (fun w =>
      let u := (w.setPair { w.pair with
        up := false, adopt := false, hello := none, snapshot := [], snapReady := false, after := [] }).fire 976
      (apart ((u.setPair { u.pair with role := .lead, authority := false }).fire 977)).goOn) ∧
  Events s t (.decisionDeadlineMiss t) (fun w => w.isMate = false) id ∧
  hears (.msgClass t a n f v x) { kind := 0, unit := n, key := f, value := v, extra := x } ∧
  hears (.msgDecide t a n f v) { kind := 1, unit := n, key := f, value := v } ∧
  hears (.msgLeat t a (.block n f under)) { kind := 2, unit := n, key := f, value := if under then 1 else 0 } ∧
  (∀ d, Events s t (.msgLeat t a d) (fun w => w.pair.role ≠ .mate) id) ∧
  Events s t (.msgLeat t a (.domain n la lb oa ob))
    (fun w => w.pair.role = .mate ∧ (w.domain n).lockA = la ∧ (w.domain n).lockB = lb)
    (fun w => w.setDomain n { w.domain n with offA := oa, offB := ob }) ∧
  Events s t (.msgLeat t a (.domain n la lb oa ob))
    (fun w => w.pair.role = .mate ∧ ((w.domain n).lockA ≠ la ∨ (w.domain n).lockB ≠ lb))
    (fun w => (w.setDomain n { w.domain n with lockA := la, lockB := lb, offA := oa, offB := ob }).domainEvent n) ∧
  Events s t (.msgLeat t a (.asrc n f v oa ob)) (fun w => w.pair.role = .mate ∧ w.asrc n = some c ∧ c.st = asrcOfCode v)
    (fun w => w.setAsrc n (some { c with per := oa, phase := ob })) ∧
  Events s t (.msgLeat t a (.asrc n f v oa ob)) (fun w => w.pair.role = .mate ∧ w.asrc n = some c ∧ c.st ≠ asrcOfCode v)
    (fun w => w.asrcTo n { c with per := oa, phase := ob } (asrcOfCode v)) ∧
  Events s t (.msgLeat t a (.nonAudio n non)) (fun w => w.pair.role = .mate)
    (fun w => { w with audio := { w.audio with
      pairs := fset {} w.audio.pairs n { (fget {} w.audio.pairs n : PairJudge) with non := non } } }) ∧
  Events s t (.msgLeat t a (.delay n v)) (fun w => w.pair.role = .mate ∧ (w.embed n).p = some p ∧ w.outRaster n = some o)
    (fun w => w.applyDelay n p v o.frameT))

/-- A command that the LEAD forwards: the MATE validates it and answers with a verdict, waits for its COMMIT, and keeps it for later while it is
apart; the LEAD takes the verdict, and two lines before the execution position commits or refuses (R386, R387, R401, R403). -/
def Obligations.PairForwardingRows : Prop :=
  ∀ (s : State) (t : Tick) (a : Arrival) (m : CmdBody) (j : Job) (rix st ras f l e d : Nat), a.crcOk = true →
  let b := runOfCmd m
  let counted (w : State) : State :=
    ({ w with pair := { w.pair with nextRix := m.rix + 1, forwarded := w.pair.forwarded + 1 } }).count 13 0 5
  let ans (w : State) : Ans := (counted w).forwardedAns m b
  let fresh (w : State) : Prop := w.pair.role = .mate ∧ w.pair.sync ≠ .apart ∧ w.pair.nextRix ≤ m.rix
  let early (w : State) : Bool := (w.raster? j.raster).any fun p => j.frame.any fun f => p.onTime f j.line 2
  let points (w : State) : Prop := w.byRix rix = some j ∧ w.pair.role = .lead ∧ j.committed = false ∧ early w = false
  let refused (w : State) : State := (if j.kind = .apply then releaseOf j w else w).emit (.brinen 4 [rix, 0])
  Events s t (.msgCmd t a m)
    (fun w => w.pair.role = .mate ∧ w.pair.sync = .apart ∧ (w.pair.after.any fun x => x.rix == m.rix) = false)
    (fun w => w.setPair { w.pair with after := w.pair.after ++ [m] }) ∧
  Events s t (.msgCmd t a m) (fun w => fresh w ∧ m.packet.hdr.sched = false ∧ ansCheck (ans w) = none)
    (fun w => ((counted w).addJob { b with
      kind := .exec, raster := m.raster, frame := some m.frame, line := m.line, aux := handleOf b.params (ans w) }).emit
        (.brinen 3 [m.rix, stOk])) ∧
  Events s t (.msgCmd t a m) (fun w => fresh w ∧ m.packet.hdr.sched = false ∧ ansCheck (ans w) = some (e, d))
    (fun w => (counted w).emit (.brinen 3 [m.rix, e])) ∧
  Events s t (.msgCmd t a m) (fun w => fresh w ∧ m.packet.hdr.sched = true ∧ checkOf (ctxOf b) b.params (counted w) = none)
    (fun w => ((counted w).reside b m.frame).emit (.brinen 3 [m.rix, stAccepted])) ∧
  Events s t (.msgCmd t a m)
    (fun w => w.pair.role = .mate ∧ w.pair.sync ≠ .apart ∧ m.rix < w.pair.nextRix ∨ w.pair.role ≠ .mate) id ∧
  Events s t (.msgVerdict t a rix st)
    (fun w => w.byRix rix = some j ∧ w.pair.role = .lead ∧ j.committed = false ∧ j.verdict = none)
    (fun w => w.setJob { j with verdict := some st }) ∧
  Events s t (.msgVerdict t a rix st) (fun w => w.byRix rix = none) id ∧
  Events s t (.commitPoint t rix) (fun w => points w ∧ j.verdict = some st ∧ (st = stOk ∨ st = stAccepted))
    (fun w => (w.setJob { j with committed := true }).emit (.brinen 4 [rix, 1])) ∧
  Events s t (.commitPoint t rix) (fun w => points w ∧ j.verdict = some st ∧ st ≠ stOk ∧ st ≠ stAccepted)
    (fun w => (refused w).complete j stPairDiverged st (some j.raster)) ∧
  Events s t (.commitPoint t rix) (fun w => points w ∧ j.verdict = none)
    (fun w => (refused w).complete j stLate 3 (some j.raster)) ∧
  Events s t (.msgCommit t a rix true) (fun w => w.byRix rix = some j ∧ w.pair.role = .mate)
    (fun w => w.setJob { j with committed := true }) ∧
  Events s t (.msgCommit t a rix false) (fun w => w.byRix rix = some j ∧ w.pair.role = .mate)
    (fun w =>
      let u := if j.kind = .apply then releaseOf j w else w
      { u with jobs := u.jobs.filter fun x => x.id != j.id }) ∧
  Events s t (.msgHandover t a rix ras f l) (fun w => w.isMate = true ∧ w.pair.nextRix ≤ rix ∧ w.byRix rix = none)
    (fun w => w.addJob { id := 0, kind := .exec, queue := 0, seq := 0, tag := 0, silent := true, raster := ras, frame := some f, line := l,
                         params := .sysRestart { kind := 0 }, rix := some rix }) ∧
  Events s t (.msgHandover t a rix ras f l) (fun w => w.isMate = false) id

/-- Signatures of one granule meet once: equal ones are dropped, unequal ones of an input are reported, and those of an output open its attribution
window, at whose end a MATE fails silent (R389 to R393). An own granule without a partner's for 2 ms is counted (R390). REPORT taints what an output
lacks (R392). Resynchronisation and transfer (R401, R402): a MATE that is apart collects the snapshot and takes the content; the pair is in lockstep
once every output has matched for four frames, and apart again at the time limit; a transfer gives its budget back. FAULT_N goes low once a failed
device sends no framing (R398). Content beyond Millpond's 64 GiB (R161) is dropped (the model's choice, assumption 37). -/
def Obligations.SignatureAndResyncRows : Prop :=
  (∀ (s : State) (t : Tick) (a : Arrival) (g : GranuleSig) (content : List Bool) (keys : List Nat) (e : GranuleSig × Tick) (unit v n : Nat) (t0 : Tick),
    a.crcOk = true →
  let paired (w : State) : Prop := w.pair.role ≠ .solo ∧ w.pair.sync ≠ .apart
  let mine : GranuleSig := { g with sig := crc32 content, frame := g.frame % 65536 }
  let same (x : GranuleSig) (y : GranuleSig × Tick) : Bool := sameGranule y.1 x
  let signs (w : State) : Prop := paired w ∧ w.granuleBits g = some content
  let sends (w : State) : State := w.emit (.brinen 8 ([mine.stream, mine.frame, mine.pos, mine.sig] ++ w.usableKeys))
  let met (w : State) : State := w.setPair { w.pair with partnerKeys := keys, own := w.pair.own.filter fun x => !sameGranule x.1 g }
  let differs (w : State) : State := (met w).setPair { (met w).pair with
    outMismatch := w.pair.outMismatch + 1, lastStc := w.stc, lastBad := fset 0 w.pair.lastBad (e.1.stream % 512) (w.wholeFrame (e.1.stream % 512) e.1.frame + 1) }
  let out := e.1.stream % 512
  let path (w : State) : List Nat := ((w.route n).map fun r => w.pathEngines 192 r.src).getD []
  let closed (w : State) : State := w.setPair { w.pair with windows := fset none w.pair.windows n none }
  Events s t (.granuleSignature t g) (fun w => signs w ∧ w.pair.partner.find? (same mine) = none)
    (fun w => (sends w).setPair { w.pair with own := w.pair.own ++ [(mine, w.now)] }) ∧
  Events s t (.granuleSignature t g) (fun w => signs w ∧ w.pair.partner.find? (same mine) = some e ∧ e.1.sig = mine.sig)
    (fun w => (sends w).setPair { w.pair with partner := w.pair.partner.filter fun x => !sameGranule x.1 mine }) ∧
  Events s t (.granuleSignature t g) (fun w => w.pair.role = .solo ∨ w.pair.sync = .apart ∨ w.granuleBits g = none) id ∧
  Events s t (.msgSig t a [g] keys) (fun w => paired w ∧ w.pair.own.find? (same g) = none)
    (fun w => w.setPair { w.pair with partnerKeys := keys, partner := young w.now w.pair.partner ++ [(g, w.now)] }) ∧
  Events s t (.msgSig t a [g] keys) (fun w => paired w ∧ w.pair.own.find? (same g) = some e ∧ e.1.sig = g.sig) met ∧
  Events s t (.msgSig t a [g] keys)
    (fun w => paired w ∧ w.pair.sync = .lockstep ∧ w.pair.own.find? (same g) = some e ∧ e.1.sig ≠ g.sig ∧ e.1.stream / 512 % 2 = 0)
    (fun w => (met w).inputMismatch.taint 0 out e.1.frame) ∧
  Events s t (.msgSig t a [g] keys)
    (fun w => paired w ∧ w.pair.sync = .lockstep ∧ w.pair.own.find? (same g) = some e ∧ e.1.sig ≠ g.sig ∧ e.1.stream / 512 % 2 ≠ 0 ∧
      ((differs w).count 13 0 1).tainted out = false ∧ ((differs w).count 13 0 1).keyDiffers out = false ∧
      fget none w.pair.windows out = none)
    (fun w =>
      let u := (differs w).count 13 0 1
      u.setPair { u.pair with windows := fset none u.pair.windows out (some u.now) }) ∧
  Events s t (.signatureUnmatched t g) (fun w => (w.pair.own.any fun x => sameGranule x.1 g && decide (x.2 + 540000 ≤ w.now)) = true)
    (fun w => (w.setPair { w.pair with own := w.pair.own.filter fun x => !sameGranule x.1 g }).count 13 0 2) ∧
  Events s t (.signatureUnmatched t g) (fun w => (w.pair.own.any fun x => sameGranule x.1 g && decide (x.2 + 540000 ≤ w.now)) = false) id ∧
  Events s t (.attributionWindowEnd t n)
    (fun w => fget none w.pair.windows n = some t0 ∧ (path w ≠ [] ∨ t0 + 5400 ≤ w.now) ∧ w.pair.role = .mate ∧ w.pair.sync = .lockstep)
    (fun w => (closed w).enterFailed 7 n 0) ∧
  Events s t (.attributionWindowEnd t n)
    (fun w => fget none w.pair.windows n = some t0 ∧ (path w ≠ [] ∨ t0 + 5400 ≤ w.now) ∧ w.pair.role ≠ .mate) closed ∧
  Events s t (.attributionWindowEnd t n) (fun w => fget none w.pair.windows n = none) id ∧
  Events s t (.msgReport t a 0 unit v) (fun w => w.pair.role ≠ .solo) (fun w => w.inputMismatch.taint 2 unit v) ∧
  Events s t (.msgReport t a 1 unit v) (fun w => w.pair.role ≠ .solo ∧ (w.pair.crcs.find? fun x => x.1 == unit && x.2.2 != false) = none)
    (fun w => w.setPair { w.pair with crcs := w.pair.crcs ++ [(unit, v, false)] }) ∧
  Events s t (.msgReport t a 0 unit v) (fun w => w.pair.role = .solo) id) ∧
  (∀ (s : State) (t : Tick) (a : Arrival) (seq addr rix lib : Nat) (last : Bool) (content : List Byte) (items : List CmdBody),
    a.crcOk = true →
  let collects (w : State) : Prop := w.pair.role = .mate ∧ w.pair.sync = .apart ∧ seq % 256 ≠ w.pair.seqIn
  let held (w : State) : Bool := libHolds (Config.libVersion w.sys.image) lib && (w.pair.snapshot ++ items).all w.holdsVersion
  let charged (w : State) : State := w.charge (fun _ => false) [{ kind := 8, holder := 2 ^ 32, mb := w.transferRate }]
  let stored (w : State) : State := (w.pondWrite addr (content.take (pondSize - addr))).setPair { w.pair with seqIn := seq % 256 }
  let matched (w : State) : Bool := w.rasters.all fun x => w.outMatched x.1
  let locks (w : State) : State := (w.setPair { w.pair with sync := .lockstep, authority := w.pair.role == .lead }).fire 980
  let bad (w : State) : Nat := ((w.rasters.find? fun x => !w.outMatched x.1).map (·.1)).getD 0
  Events s t (.msgState t a seq last rix lib items) (fun w => collects w ∧ (last = false ∨ held w = true))
    (fun w => w.setPair { w.pair with
      seqIn := seq % 256, snapshot := w.pair.snapshot ++ items, snapRix := rix, snapReady := last }) ∧
  Events s t (.msgState t a seq last rix lib items) (fun w => collects w ∧ last = true ∧ held w = false)
    (fun w => w.setPair { w.pair with seqIn := seq % 256, snapshot := [] }) ∧
  Events s t (.msgState t a seq last rix lib items) (fun w => w.pair.role ≠ .mate ∨ w.pair.sync ≠ .apart) id ∧
  Events s t (.msgXfer t a seq addr content) (fun w => w.pair.role = .mate ∧ (w.pond.charges.any ofTransfer) = true) stored ∧
  Events s t (.msgXfer t a seq addr content) (fun w => w.pair.role = .mate ∧ (w.pond.charges.any ofTransfer) = false)
    (fun w => stored (charged w)) ∧
  Events s t (.msgXfer t a seq addr content) (fun w => w.pair.role ≠ .mate) id ∧
  Events s t (.resyncLockstep t) (fun w => w.pair.role ≠ .solo ∧ w.pair.sync = .resync ∧ matched w = true ∧
      (w.pair.role = .lead → w.pair.authority = true))
    (fun w => (locks w).completeWhere (fun j => isResync j.params) stOk 0 none) ∧
  Events s t (.resyncLockstep t) (fun w => w.pair.sync = .resync ∧ matched w = true ∧ w.pair.role = .lead ∧ w.pair.authority = false)
    (fun w => ((locks w).fire 977).completeWhere (fun j => isResync j.params) stOk 0 none) ∧
  Events s t (.resyncLockstep t) (fun w => w.pair.sync ≠ .resync ∨ matched w = false) id ∧
  Events s t (.resyncTimeout t) (fun w => w.pair.sync = .resync ∧ w.pair.resyncT + 2700000000 ≤ w.now ∧ w.jobOf isTransfer = none)
    (fun w => ((w.setPair { w.pair with sync := .apart, own := [], partner := [], windows := [] }).fire 980).completeWhere
      (fun j => isResync j.params) stPairDiverged (bad w) none) ∧
  Events s t (.resyncTimeout t) (fun w => w.pair.sync = .lockstep ∨ w.now < w.pair.resyncT + 2700000000) id ∧
  Events s t (.transferComplete t) (fun _ => True)
    (fun w => ((w.setPair { w.pair with resyncT := w.now }).charge ofTransfer []).completeWhere (fun j => isTransfer j.params) stOk 0 none) ∧
  Events s t (.faultNAssert t) (fun w => w.sys.mode = .failed ∧ w.anySends = false ∧
      (w.pins.faultN = .high ∨ w.pins.faultN = .hiZ ∧ w.sys.stage = .done))
    (fun w => { w with pins := { w.pins with faultN := .low } }.emit (.faultN true)) ∧
  Events s t (.faultNAssert t) (fun w => w.sys.mode ≠ .failed ∨ w.anySends = true) id)

/-- Fetching and barriers (R327, R329, R344, R345): the device fetches the packet at the head when nothing holds the queue and its replies have room,
stalls where they have none, and takes the SPI port's packet; a barrier whose condition is met completes OK, and one that runs out completes CANCELLED
and stops a ring in ERROR. -/
def Obligations.QueueFetchAndBarrierRows : Prop :=
  ∀ (s : State) (t : Tick) (q : Nat) (pk : Packet) (rest : List Packet) (j : Job) (p : BarrierP) (limit : Tick),
  let ready (w : State) : Prop := (w.queue q).ring = pk :: rest ∧ w.fetches q = true ∧ (w.queue q).enable = true ∧
    (w.queue q).error = false ∧ w.holds q = false ∧ w.covered q pk = true
  let taken (w : State) : State := w.setQueue q { w.queue q with
    ring := rest, stall := false, sqHead := ((w.queue q).sqHead + ringSize pk) % w.ringBytes q }
  let waits (w : State) : Prop := w.barrier? q = some (j, p)
  let due (w : State) : Prop := waits w ∧ j.deadline = some limit ∧ limit ≤ w.now
  (q < 9 →
    Events s t (.queueFetch t q) (fun w => ready w ∧ w.ringRoom q pk = true) (fun w => ((taken w).runPacket q pk).settleLink) ∧
    Events s t (.queueFetch t q) (fun w => ready w ∧ w.ringRoom q pk = false)
      (fun w => (w.setQueue q { w.queue q with stall := true }).settleLink) ∧
    Events s t (.queueFetch t q) (fun w => (w.queue q).ring = []) (fun w => w.settleLink) ∧
    Events s t (.barrierTimeout t q) due
      (fun w =>
        let u := w.complete j stCancelled 2 none
        (u.setQueue q { u.queue q with error := true, errCause := 2 }).fire 2)) ∧
  Events s t (.queueFetch t 9)
    (fun w => w.spi.buffer = some pk ∧ w.fetches 9 = true ∧ w.holds 9 = false ∧ w.fifoRoom pk = true)
    (fun w => (({ w with spi := { w.spi with buffer := none } }).runPacket 9 pk).settleLink) ∧
  Events s t (.barrierRelease t q) (fun w => waits w ∧ w.barrierMet p = true) (fun w => w.complete j stOk 0 none) ∧
  Events s t (.barrierRelease t q) (fun w => waits w ∧ w.barrierMet p = false ∨ w.barrier? q = none) id ∧
  (q = 9 → Events s t (.barrierTimeout t q) due (fun w => w.complete j stCancelled 2 none)) ∧
  Events s t (.barrierTimeout t q) (fun w => w.barrier? q = none) id

/-- A mismatch of CP_A restarts firmware, or fails the device in QUIET, in a restart and within 1 s of one that a mismatch caused; a mismatch of CP_B
resets it (R476, R489, R514). A restart's end completes its command (R356). A load whose image fails its check is zeroed, one that passes starts where
it was asked to (R480). A GPIO edge is latched and raises its source; a monitor's window is stored (R479, R497). Interrupts of the processors (R486 to
R488, Table 18.3): recognition starts an entry, a FAST one claims its source and chains on a NORMAL entry and on exits; an entry commits to its
handler with the state saved (the places in MFSTATUS are the model's, assumption 20); MRET starts the exit, and the exit's end restores what was saved
or goes to the entry that follows. -/
def Obligations.ControlAndInterruptRows : Prop :=
  (∀ (s : State) (t : Tick) (j : Job) (p : CpbLoadP) (r : SysRestartP) (st d pin m bytes : Nat) (level : Bool),
  let near (w : State) : Bool := w.sys.faultRestartEnd.any fun e => decide (w.now < e + 270000000)
  let grave (w : State) : Prop := w.sys.mode = .quiet ∨ w.sys.restart = true ∨ near w = true
  let moved (w : State) : State := let u := w.latchFault 5 0 0; if u.sys.mode.config then u.setMode .recovery else u
  let flagged (w : State) : State := let u := moved w; { u with
    sys := { u.sys with restart := true, restartByFault := true, restartFailed := false } }
  let alone (w : State) : State :=
    if w.pair.sync = .apart then w else (w.setPair { w.pair with sync := .apart, own := [], partner := [], windows := [] }).fire 980
  let restarted (w : State) : State := let u := ((alone (flagged w)).fire 1).releaseClaims 0; { u with hub := { u.hub with cpA := {}, claimA := 1023 } }
  let ended (w : State) : State := { w with sys := { w.sys with
    restart := false, faultRestartEnd := if w.sys.restartByFault then some w.now else none } }.fire 1
  let late (w : State) : List Job := w.jobs.filter fun x => x.kind == .event
  let x (w : State) : Monitor := w.monitor m
  Events s t (.lockstepMismatch t 0) (fun w => w.sys.mode ≠ .failed ∧ grave w) (fun w => w.enterFailed 5 0 0) ∧
  Events s t (.lockstepMismatch t 0) (fun w => w.sys.mode ≠ .failed ∧ ¬grave w) restarted ∧
  Events s t (.lockstepMismatch t 0) (fun w => w.sys.mode = .failed) id ∧
  Events s t (.lockstepMismatch t 1) (fun w => w.cpbOk = true) (fun w => ((w.latchFault 6 1 0).resetCpb).fire 7) ∧
  Events s t (.lockstepMismatch t 1) (fun w => w.cpbOk = false) id ∧
  Events s t (.controlRestartEnd t) (fun w => w.sys.restart = true ∧ late w = []) ended ∧
  Events s t (.controlRestartEnd t) (fun w => w.sys.restart = true ∧ late w = [j] ∧ j.params = .sysRestart r)
    (fun w => (ended w).complete j stOk 0 none) ∧
  Events s t (.controlRestartEnd t) (fun w => w.sys.restart = false) id ∧
  Events s t (.cpbLoadChecked t) (fun w => w.loadJob = some (j, p) ∧ w.chkImage p = some (st, d))
    (fun w => (w.sramWrite p.addr (List.replicate (p.bytes - 32) 0)).complete j st d none) ∧
  Events s t (.cpbLoadChecked t) (fun w => w.loadJob = some (j, p) ∧ w.chkImage p = none ∧ p.start = false)
    (fun w => w.complete j stOk 0 none) ∧
  Events s t (.cpbLoadChecked t) (fun w => w.loadJob = some (j, p) ∧ w.chkImage p = none ∧ p.start = true)
    (fun w => (w.setCpb { w.hub.cpB with running := true, fresh := false, pc := BitVec.ofNat 64 p.addr, priv := 3 }).complete j stOk 0 none) ∧
  Events s t (.cpbLoadChecked t) (fun w => w.loadJob = none) id ∧
  (pin < 16 →
    Events s t (.gpioInputEdge t pin level) (fun w => (w.gpio pin).input ≠ level ∧ (w.gpio pin).dir = 0)
      (fun w => (w.setGpio pin { w.gpio pin with input := level, edgeStc := w.stc % 2 ^ 48, edgeLevel := level }).fire (8 + pin)) ∧
    Events s t (.gpioInputEdge t pin level) (fun w => (w.gpio pin).input ≠ level ∧ (w.gpio pin).dir ≠ 0)
      (fun w => w.setGpio pin { w.gpio pin with input := level }) ∧
    Events s t (.gpioInputEdge t pin level) (fun w => (w.gpio pin).input = level) id) ∧
  Events s t (.monitorWindowClose t m bytes) (fun w => (x w).running = true ∧ (x w).due = true)
    (fun w => (w.setMonitor m { x w with
      due := false, startStc := (x w).edge, lastBytes := bytes, lastStart := (x w).startStc, lastEnd := (x w).edge }).count 15 m 0) ∧
  Events s t (.monitorWindowClose t m bytes) (fun w => (x w).running = false ∨ (x w).due = false) id) ∧
  (∀ (s : State) (t : Tick) (cp id : Nat) (b : Bool),
  let x (w : State) : Core := w.core cp
  let fast (w : State) : Prop := w.coreOk cp = true ∧ (x w).mie.getLsbD 16 = true ∧ fie (x w) = true ∧ w.firstPresented cp true = some id
  let claims (w : State) (q : CoreSeq) : State := (w.winClaim cp id).setCore cp { x w with seq := q }
  let at_ (w : State) (q : CoreSeq) : Prop := w.coreOk cp = true ∧ (x w).seq = q
  let base (y : Core) : Nat := y.mtvec.toNat / 4 * 4
  let keep (y : Core) : Nat := y.mstatus.toNat - bits y.mstatus.toNat 12 11 * 2 ^ 11 - bits y.mstatus.toNat 7 7 * 2 ^ 7 - bits y.mstatus.toNat 3 3 * 2 ^ 3
  let mprv (y : Core) : Nat := if bits y.mstatus.toNat 12 11 = 3 then 0 else bits y.mstatus.toNat 17 17 * 2 ^ 17
  let normal (y : Core) : Core := { y with
    priv := bits y.mstatus.toNat 12 11, mstatus := BitVec.ofNat 64 (keep y - mprv y + 2 ^ 7 + b2n (mpie y) * 2 ^ 3), pc := y.mepc }
  let back (y : Core) : Core := { y with
    priv := bits y.mfstatus.toNat 3 2, mfstatus := BitVec.ofNat 64 (b2n (y.mfstatus.getLsbD 1)), inFast := false, fastId := none, pc := y.mfepc }
  let goes (w : State) (y : Core) (q : CoreSeq) : State := w.setCore cp { y with seq := q }
  Events s t (.normalInterruptRecognise t cp) (fun w => at_ w .run ∧ w.normalReady cp = true)
    (fun w => w.setCore cp { x w with seq := .entryNormal }) ∧
  Events s t (.normalInterruptRecognise t cp) (fun w => w.normalReady cp = false) (fun w => w) ∧
  Events s t (.fastInterruptRecognise t cp) (fun w => fast w ∧ (x w).seq = .run ∧ (x w).inFast = false)
    (fun w => claims w (.entryFast id false)) ∧
  Events s t (.fastInterruptRecognise t cp) (fun w => fast w ∧ (x w).seq = .entryNormal) (fun w => claims w (.entryFast id false)) ∧
  Events s t (.fastInterruptRecognise t cp) (fun w => fast w ∧ (x w).seq = .exitNormal none) (fun w => claims w (.exitNormal (some id))) ∧
  Events s t (.fastInterruptRecognise t cp) (fun w => fast w ∧ (x w).seq = .exitFast none) (fun w => claims w (.exitFast (some id))) ∧
  Events s t (.fastInterruptRecognise t cp) (fun w => w.firstPresented cp true = none) (fun w => w) ∧
  Events s t (.entryCommit t cp) (fun w => at_ w .entryNormal)
    (fun w => w.setCore cp { x w with
      mepc := (x w).pc, mcause := BitVec.ofNat 64 (2 ^ 63 + 11), mtval := 0, priv := 3, seq := .run,
      mstatus := BitVec.ofNat 64 (keep (x w) + (x w).priv * 2 ^ 11 + b2n (mie (x w)) * 2 ^ 7),
      pc := BitVec.ofNat 64 (if (x w).mtvec.toNat % 4 = 1 then base (x w) + 44 else base (x w)) }) ∧
  Events s t (.entryCommit t cp) (fun w => at_ w (.entryFast id b))
    (fun w => w.setCore cp { x w with
      mfepc := (x w).pc, mfstatus := BitVec.ofNat 64 ((x w).priv * 4 + 2 * b2n ((x w).mfstatus.getLsbD 0)), priv := 3,
      shadow := fset 0 (x w).shadow 10 (BitVec.ofNat 64 id), inFast := true, fastId := some id, pc := (x w).mftvec, seq := .run }) ∧
  Events s t (.entryCommit t cp) (fun w => at_ w .run) (fun w => w) ∧
  Events s t (.mret t cp) (fun w => at_ w .run ∧ (x w).priv = 3 ∧ (x w).inFast = false)
    (fun w => w.setCore cp { x w with seq := .exitNormal none }) ∧
  Events s t (.mret t cp) (fun w => at_ w .run ∧ (x w).priv = 3 ∧ (x w).inFast = true ∧ (x w).fastId = some id ∧ (w.source id).claimant ≠ cp)
    (fun w => w.setCore cp { x w with seq := .exitFast none }) ∧
  Events s t (.mret t cp) (fun w => at_ w .run ∧ (x w).priv = 3 ∧ (x w).inFast = true ∧ (x w).fastId = some id ∧ (w.source id).claimant = cp)
    (fun w => (w.endService id).setCore cp { (w.endService id).core cp with seq := .exitFast none }) ∧
  Events s t (.mret t cp) (fun w => (x w).seq ≠ .run ∨ (x w).priv ≠ 3) (fun w => w) ∧
  Events s t (.exitCommit t cp) (fun w => at_ w (.exitNormal none) ∧ (goes w (normal (x w)) .run).normalReady cp = false)
    (fun w => goes w (normal (x w)) .run) ∧
  Events s t (.exitCommit t cp) (fun w => at_ w (.exitNormal none) ∧ (goes w (normal (x w)) .run).normalReady cp = true)
    (fun w => (goes w (normal (x w)) .run).setCore cp { normal (x w) with seq := .entryNormal }) ∧
  Events s t (.exitCommit t cp) (fun w => at_ w (.exitNormal (some id))) (fun w => goes w (normal (x w)) (.entryFast id true)) ∧
  Events s t (.exitCommit t cp) (fun w => at_ w (.exitFast none) ∧ (goes w (back (x w)) .run).normalReady cp = false)
    (fun w => goes w (back (x w)) .run) ∧
  Events s t (.exitCommit t cp) (fun w => at_ w (.exitFast (some id))) (fun w => goes w (back (x w)) (.entryFast id true)) ∧
  Events s t (.exitCommit t cp) (fun w => at_ w .run) (fun w => w))

/-- RESET_N resets every block, and keeps the key store, what the Parameter Store has programmed, and what the board drives; its release starts stage
1 (R502, R504). The stages of Table 20.2 follow each other, with the recalls of stage 1 and stage 6 (R459, R464, R159); an image that passes runs,
which one is a free value (assumption 4), and firmware sets the lanes from their records before it is ready (R120, R505). PCIE_PERST_N resets the
endpoint and its queues alone (R529). -/
def Obligations.StartupRows : Prop :=
  ∀ (s : State) (t : Tick) (done : Nat),
  let stop (w : State) : State := if w.nv.stopped then w else w.nvStop done
  let at_ (w : State) (g : Stage) : State := { w with sys := { w.sys with stage := g } }
  let recalled (w : State) : State :=
    ({ w with sys := { w.sys with nvRecalling := false }, nv := { w.nv with torn := w.tornPages } }.recallAudit.count 14 0 1 w.tornPages.length).fire 970
  let image (d : Nat × State) : State := { d.2 with sys := { d.2.sys with image := d.1 } }
  let opened (w : State) : State :=
    { w with sys := { w.sys with stage := .done, coldRecall := false }, routes := { w.routes with recalling := false } }
  Events s t (.resetNAssert t done) (fun _ => True)
    (fun w => { State.reset with
      pending := w.pending, out := w.out, fresh := w.fresh, keys := { w.keys with ops := [] },
      nv := { State.reset.nv with cells := (stop w).nv.cells, stopped := w.pins.pfwLow },
      pins := { State.reset.pins with
        pfwLow := w.pins.pfwLow, perstLow := w.pins.perstLow, temp := w.pins.temp, jtag := w.pins.jtag, resetN := false },
      hub := { State.reset.hub with gpio := tmap {} (fun _ (x : Gpio) => { input := x.input }) w.hub.gpio },
      sys := { State.reset.sys with
        wakeEnables := 3 + w.sys.wakeEnables / 16 % 2 * 16, pcieUp := !w.pins.perstLow, stage := .inReset } }) ∧
  (s.sys.stage = .inReset →
    exec (.resetNDeassert t) s = .next { s with sys := { s.sys with stage := .s1 }, pins := { s.pins with resetN := true } }) ∧
  Events s t (.resetNDeassert t) (fun _ => True) id ∧
  Events s t (.nvRecallComplete t) (fun w => w.sys.nvRecalling = true ∧ w.sys.stage = .s1 ∧ w.tornPages = []) (fun w => at_ (recalled w) .s2) ∧
  Events s t (.nvRecallComplete t) (fun w => w.sys.nvRecalling = true ∧ w.sys.stage = .s1 ∧ w.tornPages ≠ [])
    (fun w => at_ ((recalled w).fire 971) .s2) ∧
  Events s t (.nvRecallComplete t) (fun w => w.sys.nvRecalling = false) id ∧
  Events s t (.bootVerifyEnd t true) (fun w => w.sys.restart = false ∧ w.sys.stage = .s2 ∧ w.sys.mode ≠ .failed)
    (fun w => let u := at_ (image w.freeNat) .s3; { u with pins := { u.pins with faultN := .high } }.emit (.faultN false)) ∧
  Events s t (.bootVerifyEnd t false) (fun w => w.sys.restart = false ∧ w.sys.stage = .s2) (fun w => (at_ w .held).latchFault 10 0xFFFF 0) ∧
  Events s t (.bootVerifyEnd t true) (fun w => w.sys.restart = true) (fun w => image w.freeNat) ∧
  Events s t (.bootVerifyEnd t false) (fun w => w.sys.restart = true)
    (fun w => { w with sys := { w.sys with restart := false, restartFailed := true } }) ∧
  Events s t (.firmwareReady t) (fun w => w.sys.stage = .s3) (fun w => at_ w.lanesOnRecords.applyClockRecord .s4) ∧
  Events s t (.firmwareReady t) (fun w => w.sys.stage ≠ .s3) id ∧
  Events s t (.selfTestEnd t) (fun w => w.sys.stage = .s4) (fun w => (List.range 65).foldl (fun u b => doRoundStart b u) (at_ w .s5)) ∧
  Events s t (.selfTestEnd t) (fun w => w.sys.stage ≠ .s4) id ∧
  Events s t (.startupComplete t) (fun w => w.sys.stage = .s5 ∧ w.recallDue = true ∧ w.sys.mode = .bringup)
    (fun w => { w with sys := { w.sys with stage := .s6, coldRecall := true }, routes := { w.routes with recalling := true } }) ∧
  Events s t (.startupComplete t) (fun w => w.sys.stage = .s5 ∧ (w.recallDue = false ∨ w.sys.mode ≠ .bringup)) (fun w => at_ w .done) ∧
  Events s t (.startupComplete t) (fun w => w.sys.stage ≠ .s5) id ∧
  Events s t (.coldstartRecall t) (fun w => w.sys.stage = .s6 ∧ w.sys.mode = .bringup) (fun w => (opened w).recallCold) ∧
  Events s t (.coldstartRecall t) (fun w => w.sys.stage = .s6 ∧ w.sys.mode ≠ .bringup) opened ∧
  Events s t (.coldstartRecall t) (fun w => w.sys.stage ≠ .s6) id ∧
  Events s t (.pciePerstN t true) (fun _ => True)
    (fun w => { w with pins := { w.pins with perstLow := false }, sys := { w.sys with pcieUp := true } }) ∧
  Events s t (.pciePerstN t false) (fun _ => True)
    (fun w =>
      let u := (List.range 8).foldl (fun u q => u.disableQueue q)
        { w with pins := { w.pins with perstLow := true }, sys := { w.sys with pcieUp := false } }
      { u with hub := { u.hub with msix := [], pba := [] } })

/-- An uncorrectable fault (R8, R25, R398, R499, R396): the record is latched, with the user of a memory's read (R165), the mode becomes FAILED, what
waited is dropped with its waiting routes (the model's choice, assumption 39), and every direction that sends starts its withdrawal. A temperature
outside the supported range alarms, four samples above 125 degrees in a row fail the device, and THERM_N follows with its hysteresis (R444, R536,
R537). A wake latch is set and, enabled in QUIET, begins the wake, which reloads the engines (R194, R510, R512); the end of entry makes the mode
QUIET, or begins the wake that an enabled latch asks for (R511), or powers up again where a restart has led to RECOVERY (R6, R489); 4.0 ms after it
began a wake restores the mode before QUIET, the lanes and the audio, clears the latches of sources 0, 1 and 3, and completes what waited for it
(R512, R513). -/
def Obligations.FaultAndQuietRows : Prop :=
  (∀ (s : State) (t : Tick) (row unit src addr user : Nat) (temp : Int),
  let latched (w : State) (src unit addr : Nat) : State := (w.latchFault src unit addr).setMode .failed
  let dropped (w : State) : State := { w with
    sys := { w.sys with restart := false, quiet := .awake }, jobs := [], routes := { w.routes with waits := [] } }
  let silent (w : State) (src unit addr : Nat) : State := ((dropped (latched w src unit addr)).withdrawAll 2 .fail).failNotice src
  let fails (i : Instr) (src unit addr : Nat) : Prop :=
    Events s t i (fun w => w.sys.mode ≠ .failed) (fun w => silent w src unit addr) ∧ Events s t i (fun w => w.sys.mode = .failed) id
  let named (w : State) : State := { w with sys := { w.sys with fault := w.sys.fault.map fun x => { x with user := user } } }
  let read (w : State) : State := { w with pins := { w.pins with temp := temp } }
  let calm (w : State) : Prop := minJunction - 20 ≤ temp ∧ temp ≤ 125 ∧ bit w.keys.active 5 = false
  let hot (w : State) : State := { w with pins := { w.pins with temp := temp, thermLow := true, hotRun := w.pins.hotRun + 1 } }
  (row < 6 → fails (.railFault t row) 10 (0x100 + row) 0) ∧ (6 ≤ row → Events s t (.railFault t row) (fun _ => True) id) ∧
  fails (.datapathLockstepMismatch t unit) 10 unit 0 ∧ fails (.endToEndCrcMismatch t unit) 10 unit 0 ∧
  ((src = 1 ∨ src = 2 ∨ src = 9 ∨ src = 10) → 
    Events s t (.eccUncorrectableError t src unit addr user false) (fun w => w.sys.mode ≠ .failed) (fun w => named (silent w src unit addr)) ∧
    Events s t (.eccUncorrectableError t src unit addr user false) (fun w => w.sys.mode = .failed) id) ∧
  Events s t (.thermalSample t temp) (fun w => calm w ∧ thermNext w.pins.thermLow temp = w.pins.thermLow)
    (fun w => { w with pins := { w.pins with temp := temp, hotRun := 0 } }) ∧
  Events s t (.thermalSample t temp) (fun w => calm w ∧ thermNext w.pins.thermLow temp ≠ w.pins.thermLow)
    (fun w => { w with pins := { w.pins with temp := temp, thermLow := !w.pins.thermLow, hotRun := 0 } }.fire 24) ∧
  Events s t (.thermalSample t temp) (fun w => temp < minJunction - 20 ∧ w.pins.thermLow = false ∧ bit w.keys.active 5 = true)
    (fun w => { w with pins := { w.pins with temp := temp, hotRun := 0 } }) ∧
  Events s t (.thermalSample t temp)
    (fun w => 125 < temp ∧ w.pins.thermLow = true ∧ bit w.keys.active 5 = true ∧ w.pins.hotRun ≠ 3) hot ∧
  Events s t (.thermalSample t temp)
    (fun w => 125 < temp ∧ w.pins.thermLow = true ∧ bit w.keys.active 5 = true ∧ w.pins.hotRun = 3 ∧ w.sys.mode ≠ .failed)
    (fun w => silent (hot w) 10 0x200 0) ∧
  Events s t (.thermalSample t temp)
    (fun w => (125 < temp ∨ temp < minJunction - 20) ∧ bit w.keys.active 5 = false ∧ bit w.keys.enables 5 = false ∧ w.pins.hotRun = 0 ∧
      thermNext w.pins.thermLow temp = w.pins.thermLow)
    (fun w => { read w with
      keys := { w.keys with active := Nat.lor w.keys.active (2 ^ 5) },
      pins := { w.pins with temp := temp, hotRun := if 125 < temp then 1 else 0 } })) ∧
  (∀ (s : State) (t : Tick) (j : Job),
  let latch (w : State) (b : Nat) : State := { w with sys := { w.sys with wakeLatch := Nat.lor w.sys.wakeLatch (2 ^ b) } }
  let wakes (w : State) : State := { w with sys := { w.sys with quiet := .waking, wakeT := w.now } }.reloadEngines
  let calls (w : State) (b : Nat) : Prop := bit w.sys.wakeEnables b = true ∧ w.sys.quiet = .asleep
  let slept (w : State) : State := { w with sys := { w.sys with quiet := .asleep } }.setMode .quiet
  let asked (w : State) : Nat := Nat.land ((slept w).latches none) (slept w).sys.wakeEnables
  let mode (w : State) : State :=
    { w with sys := { w.sys with quiet := .awake, wakeLatch := Nat.land w.sys.wakeLatch 20 } }.setMode w.sys.modeBefore
  let lanes (w : State) : State := (List.range 65).foldl (fun u b =>
    if (u.txDir b).enable && !(u.txDir b).asleep then u.txStart b else u) w.lanesOnRecords
  let up (w : State) : State := (lanes (mode w)).wakeAudio
  let stays (w : State) : State :=
    (lanes { w with sys := { w.sys with quiet := .awake } }.reloadEngines).wakeAudio
  Events s t (.wakeNLow t) (fun w => calls w 0) (fun w => wakes (latch w 0)) ∧
  Events s t (.wakeNLow t) (fun w => ¬calls w 0) (fun w => latch w 0) ∧
  Events s t (.wakeTimer t) (fun w => w.sys.wakeTimer ≤ w.stc ∧ calls w 2) (fun w => wakes (latch w 2)) ∧
  Events s t (.wakeTimer t) (fun w => w.sys.wakeTimer ≤ w.stc ∧ ¬calls w 2) (fun w => latch w 2) ∧
  Events s t (.wakeTimer t) (fun w => w.stc < w.sys.wakeTimer) id ∧
  Events s t (.quietEntryEnd t) (fun w => w.sys.quiet = .entering ∧ w.sys.mode ≠ .recovery ∧ asked w = 0) slept ∧
  Events s t (.quietEntryEnd t) (fun w => w.sys.quiet = .entering ∧ w.sys.mode ≠ .recovery ∧ asked w ≠ 0)
    (fun w => wakes (slept w)) ∧
  Events s t (.quietEntryEnd t) (fun w => w.sys.quiet = .entering ∧ w.sys.mode = .recovery ∧ ∀ x ∈ (stays w).jobs, x.kind ≠ .parked) stays ∧
  Events s t (.quietEntryEnd t) (fun w => w.sys.quiet = .entering ∧ w.sys.mode = .recovery ∧ (stays w).jobs = [j] ∧ j.kind = .parked)
    (fun w => (stays w).complete j stCancelled 4 (some j.raster)) ∧
  Events s t (.quietEntryEnd t) (fun w => w.sys.quiet ≠ .entering) id ∧
  Events s t (.wakeEnd t) (fun w => w.sys.quiet = .waking ∧ w.sys.wakeT + 1080000 ≤ w.now)
    (fun w => (up w).jobs.foldl (fun u j => endWakeJob j u) (up w)) ∧
  Events s t (.wakeEnd t) (fun w => w.sys.quiet ≠ .waking ∨ w.now < w.sys.wakeT + 1080000) id)

/-- A power failure stops the write in progress after the bytes already programmed, and it resumes with power (R456); the write at the head of the
order ends, and its command completes or the audit chain advances (R458, R472); a refresh pass walks the words (R463); the oldest queued entry is
appended behind the newest whole one (R471). -/
def Obligations.ParameterStoreRows : Prop :=
  ∀ (s : State) (t : Tick) (done n : Nat) (x : NvWrite) (rest : List NvWrite) (weak : List Nat) (id key pos : Nat) (entry : List Byte)
    (e : AuditEntry) (tail : List AuditEntry),
  let kept := min done x.bytes.length
  let programmed (w : State) (bs : List Byte) : State := { w with nv := { w.nv with cells := mwrite nvDefault w.nv.cells x.addr bs } }
  let ended (w : State) : State := { w with nv := { w.nv with cells := mwrite nvDefault w.nv.cells x.addr x.bytes, writes := rest } }
  let head (w : State) : Prop := w.nv.writes = x :: rest ∧ w.nv.stopped = false
  let chained (w : State) : State := { ended w with nv := { (ended w).nv with
    chain := hmac key (w.nv.chain ++ entry), newest := some pos, nextSeq := (entrySeq entry + 1) % 65536 } }
  let marks := entrySeq entry % 64 = 63 ∨ (entry.getD 2 0).toNat = 5
  let at_ (w : State) : Nat := match w.nv.newest with
    | some i => (i + 1) % 4096
    | none => 0
  let lost (w : State) : List AuditEntry := if 0 < w.nv.auditLost then [{ kind := 7, a := min 65535 w.nv.auditLost, stc := w.stc }] else []
  let walk (w : State) : State := { w with nv := { w.nv with refresh := if n + 1 < 16384 then some (n + 1) else none } }
  let reads (w : State) : Prop := w.nv.refresh = some n ∧ w.sys.quiet = .awake ∧ w.sys.restart = false
  Events s t (.nvPowerFail t done) head
    (fun w => { programmed w (x.bytes.take kept) with
      nv := { w.nv with cells := mwrite nvDefault w.nv.cells x.addr (x.bytes.take kept), writes := { x with done := kept } :: rest, stopped := true },
      pins := { w.pins with pfwLow := true } }) ∧
  Events s t (.nvPowerFail t done) (fun w => w.nv.writes = [] ∨ w.nv.stopped = true)
    (fun w => { w with nv := { w.nv with stopped := true }, pins := { w.pins with pfwLow := true } }) ∧
  Events s t (.pfwNDeassert t) (fun _ => True)
    (fun w => { w with nv := { w.nv with stopped := false }, pins := { w.pins with pfwLow := false } }) ∧
  Events s t (.nvWriteDone t) (fun w => head w ∧ x.why = .record) ended ∧
  Events s t (.nvWriteDone t) (fun w => head w ∧ x.why = .lastOf id) (fun w => (ended w).completeId id stOk 0 none) ∧
  Events s t (.nvWriteDone t) (fun w => head w ∧ x.why = .audit entry key pos ∧ ¬marks) chained ∧
  Events s t (.nvWriteDone t) (fun w => head w ∧ x.why = .audit entry key pos ∧ marks)
    (fun w => (chained w).checkpoint (entrySeq entry) (hmac key (w.nv.chain ++ entry))) ∧
  Events s t (.nvWriteDone t) (fun w => w.nv.writes = [] ∨ w.nv.stopped = true) (fun w => w) ∧
  Events s t (.refreshPassStart t) (fun w => w.sys.quiet = .awake ∧ w.nv.refresh = none)
    (fun w => { w with nv := { w.nv with refresh := some 0 } }) ∧
  Events s t (.refreshPassStart t) (fun w => w.sys.quiet ≠ .awake ∨ w.nv.refresh ≠ none) (fun w => w) ∧
  Events s t (.refreshWord t weak false) reads walk ∧
  Events s t (.refreshWord t weak true) reads (fun w => ((walk w).count 14 0 0).fire 970) ∧
  Events s t (.refreshWord t weak false) (fun w => w.nv.refresh = none) (fun w => w) ∧
  Events s t (.auditAppend t)
    (fun w => w.nv.audit = e :: tail ∧ w.auditBusy = false ∧ w.sys.nvRecalling = false ∧ w.firmwareRuns = true)
    (fun w => { w with nv := { w.nv with
      audit := tail ++ lost w, auditLost := 0,
      writes := w.nv.writes ++ [{ addr := 0x5000 + 16 * at_ w, bytes := auditBytes w.nv.nextSeq e,
                                  why := .audit (auditBytes w.nv.nextSeq e) (e.key.getD w.sealKey) (at_ w) }] } }) ∧
  Events s t (.auditAppend t) (fun w => w.nv.audit = [] ∨ w.auditBusy = true ∨ w.firmwareRuns = false) (fun w => w)

/-- Zeroisation clears every slot and ends every operation (R446, R449). An alarm of an enabled source zeroises, latches its cause, counts, raises
event 984 and may wake the device; one of a source that is not enabled is only active (R444 to R447). An operation that ends writes its child or
answers, and one that a change overtook ends KEY_REVOKED (R434, R435). -/
def Obligations.KeyStoreRows : Prop :=
  ∀ (s : State) (t : Tick) (src id : Nat) (o : KeyOp),
  let rises (w : State) : State := { w with keys := { w.keys with active := Nat.lor w.keys.active (2 ^ src) } }
  let latches (w : State) : State := { rises w with keys := { (rises w).keys with
    latched := Nat.lor w.keys.latched (2 ^ src), latchStc := if w.keys.latched = 0 then w.stc else w.keys.latchStc,
    pendingCount := min 255 (w.keys.pendingCount + 1) } }
  let alarms (w : State) : Prop := src < 7 ∧ bit w.keys.active src = false
  let answered (w : State) : State := ((latches w).zeroise).fire 984
  let stores (w : State) : Prop := w.firmwareRuns = true ∧ w.sys.nvRecalling = false ∧ 0 < w.keys.pendingCount
  let without (w : State) : State := { w with keys := { w.keys with ops := w.keys.ops.filter fun y => y.job != id } }
  let child (w : State) (st : Nat) : State := (without w).changeSlot o.slot fun y =>
    { y with key := o.key, usage := w.derivedUsage id, parent := o.parent, st := st }
  let runs (w : State) : Prop := (w.keys.ops.find? fun y => y.job == id) = some o
  (∀ w : State, tblWf ({} : Slot) w.keys.slots = true →
    (∀ i, i < 32 → w.zeroise.slot i = { w.slot i with key := 0, st := 3, gen := (w.slot i).gen + 1 }) ∧ w.zeroise.keys.ops = []) ∧
  Events s t (.tamperAlarm t src) (fun w => alarms w ∧ bit w.keys.enables src = false) rises ∧
  Events s t (.tamperAlarm t src)
    (fun w => alarms w ∧ bit w.keys.enables src = true ∧ (bit w.sys.wakeEnables 4 = false ∨ w.sys.quiet ≠ .asleep)) answered ∧
  Events s t (.tamperAlarm t src)
    (fun w => alarms w ∧ bit w.keys.enables src = true ∧ bit w.sys.wakeEnables 4 = true ∧ w.sys.quiet = .asleep)
    (fun w => { answered w with sys := { w.sys with quiet := .waking, wakeT := w.now } }.reloadEngines) ∧
  Events s t (.tamperAlarm t src) (fun w => 7 ≤ src ∨ bit w.keys.active src = true) (fun w => w) ∧
  Events s t (.tamperSourceInactive t src) (fun w => bit w.keys.active src = true)
    (fun w => { w with keys := { w.keys with active := w.keys.active - 2 ^ src } }) ∧
  Events s t (.tamperSourceInactive t src) (fun w => bit w.keys.active src = false) (fun w => w) ∧
  Events s t (.tamperCountStore t) stores
    (fun w =>
      let u := State.tallyTampers w.keys.pendingCount w
      ({ u with keys := { u.keys with pendingCount := 0 } }).audit 6 0 u.keys.latched 0) ∧
  Events s t (.tamperCountStore t) (fun w => w.keys.pendingCount = 0) (fun w => w) ∧
  Events s t (.vaonPowerUp t) (fun _ => True) (fun w => { w with keys := {}, sys := { w.sys with wakeEnables := w.sys.wakeEnables % 16 } }) ∧
  Events s t (.keyOperationEnd t id) (fun w => runs w ∧ o.derive_ = true ∧ o.changed = false)
    (fun w => (child w 1).completeId id stOk 0 none) ∧
  Events s t (.keyOperationEnd t id) (fun w => runs w ∧ o.derive_ = true ∧ o.changed = true)
    (fun w => ((child w 2).fire 985).completeId id stKeyRevoked 0 none) ∧
  Events s t (.keyOperationEnd t id) (fun w => runs w ∧ o.derive_ = false)
    (fun w => (without w).completeId id (if o.changed then stKeyRevoked else stOk) 0 none) ∧
  Events s t (.keyOperationEnd t id) (fun w => (w.keys.ops.find? fun y => y.job == id) = none) (fun w => w)

/-- Every packet is judged in the order of Table 12.12, and its first failed check ends it: it is refused with that status (R339). A ring that reads a
malformed header stops in ERROR (R330). A command whose chapter's checks fail is refused with their status. -/
def Obligations.PacketsAreJudgedInOrder : Prop :=
  ∀ (s : State) (t : Tick) (h : Hdr) (p : Params) (i : Instr) (e : Nat × Nat), packetRow t h p = some i → Taken s t h p →
  let q := h.queue
  let r := reached s t h p
  let w := fetched s t h p
  let ends (u : State) : Prop := exec i s = .next u.settleLink
  let broken (u : State) : State := (u.setQueue q { u.queue q with error := true, errCause := 1 }).fire 2
  let framed : Prop := frameCheck q h = none ∧ r.authCheck q h p = none
  let b := command h p
  (frameCheck q h = some e ∧ q < 9 ∧ (h.version ≠ 1 ∨ h.length < 6) → ends (broken (r.refuse b e))) ∧
  (frameCheck q h = some e ∧ (q = 9 ∨ h.version = 1 ∧ 6 ≤ h.length) → ends (r.refuse b e)) ∧
  (frameCheck q h = none → r.authCheck q h p = some e → ends (r.refuse b e)) ∧
  (framed → w.opcodeCheck q p = some e → ends (w.refuse b e)) ∧
  (framed → w.opcodeCheck q p = none → w.headerCheck q h p = some e → ends (w.refuse b e)) ∧
  (framed → w.opcodeCheck q p = none → w.headerCheck q h p = none → w.modeCheck q ⟨h, p⟩ = some e → ends (w.refuse b e)) ∧
  (Immediate s t h p → ansCheck (startOf ⟨q, h⟩ p w) = some e → ends (w.refuse b e))

/-- A packet that its queue cannot fetch waits at the end of its ring (R327); one whose replies have no room stalls the queue (R329); one that does
not reach the device has no effect, and the SPI port that is not ready notes an overrun (Table 12.9). -/
def Obligations.PacketsWaitInTheirRing : Prop :=
  ∀ (s : State) (t : Tick) (h : Hdr) (p : Params) (i : Instr), packetRow t h p = some i → tblWf ({} : Queue) s.queues = true →
  let q := h.queue
  let u := s.enter t
  let x := u.queue q
  let ends (v : State) : Prop := exec i s = .next v.settleLink
  let idle : Bool := u.fetches q && x.enable && !x.error && !u.holds q
  let placed : State := u.setQueue q { x with ring := x.ring ++ [⟨h, p⟩], sqTail := (x.sqTail + ringSize ⟨h, p⟩) % u.ringBytes q }
  let stalled : State := u.setQueue q { x with
    ring := [⟨h, p⟩], sqTail := (x.sqTail + ringSize ⟨h, p⟩) % u.ringBytes q, stall := true }
  (q < 9 → u.senderOk q = true → x.ring ≠ [] ∨ idle = false → ends placed) ∧
  (q < 9 → u.senderOk q = true → x.ring = [] ∧ idle = true ∧ x.sqTail = x.sqHead ∧ x.sqHead < u.ringBytes q ∧
    ringSize ⟨h, p⟩ < u.ringBytes q ∧ u.ringRoom q ⟨h, p⟩ = false → ends stalled) ∧
  (10 ≤ q ∨ u.senderOk q = false → ends u) ∧
  (q = 9 → u.senderOk 9 = true → u.rxReady = false → ends { u with spi := { u.spi with overrun := true } })

/-- A scheduled command is checked, needs a place in the table of 16,384 actions and a target that is not late, and then becomes a resident action:
what it reserves is taken at once, a recall keeps the copy that it checked (R158), ACCEPTED gives its position where asked for, and its queue goes on
(R51 to R54). -/
def Obligations.ScheduledCommandsReside : Prop :=
  ∀ (s : State) (t : Tick) (h : Hdr) (p : Params) (i : Instr) (e : Nat × Nat) (f : Nat), packetRow t h p = some i → Accepted s t h p →
    h.sched = true → ((fetched s t h p).isLead && (rowOf p).pair == .s) = false →
  let w := fetched s t h p
  let c : Ctx := ⟨h.queue, h⟩
  let target := w.target h.raster h.frame h.line (armingOf p w) h.reject
  let planned := planOf c w.nextJob p w
  let resident := ((planned.early (command h p) (posField h.raster f h.line)).addJob { command h p with
    kind := .apply, sched := true, raster := h.raster, frame := some f, line := h.line, armLines := cancelLines p w,
    preset := recallCopy p w, aux := if w.sys.mode = .quiet then [1] else [] }).markDone h.queue h.seq
  (checkOf c p w = some e → exec i s = .next (w.refuse (command h p) e).settleLink) ∧
  (checkOf c p w = none → 16384 ≤ w.resident → exec i s = .next (w.refuse (command h p) (stNoResource, 0)).settleLink) ∧
  (checkOf c p w = none → w.resident < 16384 → target = none → exec i s = .next (w.refuse (command h p) (stLate, 0)).settleLink) ∧
  (checkOf c p w = none → w.resident < 16384 → target = some f → exec i s = .next resident.settleLink)

/-- What a reply changes: a command that completes or is refused leaves all of the state alone but its own queue, the SPI port, CP_B's memory for
queue 8, the event registers, the Weir's counters of refusals and what left the device (R23, R336, R339). On a ring with room the entry of Table 12.7
follows the others, on queue 9 the 24 bytes of the reply. -/
def Obligations.RepliesTouchOnlyQueues : Prop :=
  ∀ (w : State) (b : Job) (st d : Nat) (ras : Option Nat) (e : Nat × Nat),
    tblWf ({} : Queue) w.queues = true → JobsInOrder w.jobs w.nextJob →
  let done := w.finish b st d ras
  let refused := w.refuse b e
  let x := w.queue b.queue
  let r : Reply := { seq := b.seq, tag := b.tag, status := st, detail := d, position := w.position ras, stc := w.stc % 2 ^ 48 }
  (∃ queues spi srcs pba msixT sram out, done = { w with
    queues := queues, spi := spi, hub := { w.hub with srcs := srcs, pba := pba, msixT := msixT, sram := sram }, out := out }) ∧
  (∃ queues spi srcs pba msixT sram cnt out, refused = { w with
    queues := queues, spi := spi, hub := { w.hub with srcs := srcs, pba := pba, msixT := msixT, sram := sram }, cnt := cnt, out := out }) ∧
  (∀ q, q ≠ b.queue → done.queue q = w.queue q ∧ refused.queue q = w.queue q) ∧
  (b.queue ≠ 8 → done.hub.sram = w.hub.sram ∧ refused.hub.sram = w.hub.sram) ∧
  (b.queue < 9 → b.silent = false → b.res = none → w.sys.mode ≠ .failed → x.enable = true → x.stopping = false → x.heldReplies = [] →
    x.entries.length < 2 ^ x.cqSize → (done.queue b.queue).entries = x.entries ++ [⟨r, b.queue, x.phase⟩]) ∧
  (b.queue = 9 → b.silent = false → b.res = none → done.spi.fifo = w.spi.fifo ++ [r.bytes])

/-- A step runs the command at the front of the queue on the state without it, and a block whose queue is empty idles (assumption 1). -/
def Obligations.StepRunsTheFrontCommand : Prop :=
  (∀ (s : State) (c : Instr) (rest : List Instr), s.pending = c :: rest → step s = exec c { s with pending := rest }) ∧
  (∀ s : State, s.pending = [] → step s = .next s)

/-- A step takes one command from the front, and the monotonic count goes forward: nothing sets it, and only a reset takes it back to 0 (R48, R49,
R502). -/
def Obligations.StepTakesOneAndTimeGoesOn : Prop :=
  ∀ (s s' : State), step s = .next s' → s'.pending = s.pending.tail ∧ (s'.clk.mono = 0 ∨ s.clk.mono ≤ s'.clk.mono)

/-- Every step from a sound state leads to a sound one: the three memories, the job table, the queue table and the house rasters keep their form, and
a device in FAILED holds the record of a fault. -/
def Obligations.StepKeepsSound : Prop := ∀ (s s' : State), Sound s → step s = .next s' → Sound s'

/-- A reset leaves the device sound. -/
def Obligations.ResetIsSound : Prop := Sound State.reset

/-- R338, R339: a MAC must be the one that the bound slot's key gives over the packet and its queue (R337). The first authenticated command after a
key is bound is accepted, a later one exactly when its SEQ lies in the window after the last accepted one; any other fails REPLAY. An accepted one is
the last from then on; one that fails BAD_MAC or REPLAY leaves the stored value. -/
def Obligations.SequenceWindowStopsReplays : Prop :=
  ∀ (s : State) (t : Tick) (h : Hdr) (p : Params) (i : Instr) (slot mac : Nat) (last : BitVec 32), packetRow t h p = some i →
    Taken s t h p → frameCheck h.queue h = none →
  let q := h.queue
  let r := reached s t h p
  let w := fetched s t h p
  let good := macOf (r.slot slot).key q h p
  let ahead := (BitVec.ofNat 32 h.seq - last).toNat
  let fails (st : Nat) : Prop := exec i s = .next (r.refuse (command h p) (st, 0)).settleLink ∧
    ((r.refuse (command h p) (st, 0)).queue q).macSeq = (s.queue q).macSeq
  let accepted : Prop := r.authCheck q h p = none ∧ (w.queue q).macSeq = some (BitVec.ofNat 32 h.seq)
  (s.queue q).macSlot = some slot → r.useSlot 0 slot = none → h.mac = some mac →
    (mac ≠ good → fails stBadMac) ∧
    (mac = good → (s.queue q).macSeq = none → accepted) ∧
    (mac = good → (s.queue q).macSeq = some last → 1 ≤ ahead ∧ ahead < 2 ^ 31 → accepted) ∧
    (mac = good → (s.queue q).macSeq = some last → ¬(1 ≤ ahead ∧ ahead < 2 ^ 31) → fails stReplay)

/-- R448: TAMPER_SET with CLEAR clears each latched bit whose source is no longer active, keeps those of active sources, and completes OK. A KEY_WRITE
that meets its other checks completes once every bit is clear, and fails TAMPERED before. -/
def Obligations.TamperBitsClear : Prop :=
  ∀ (s : State) (t : Tick) (h : Hdr),
  (∀ p : TamperSetP, Immediate s t h (.tamperSet p) → p.clear = true → p.enables < 128 → p.wake < 2 → p.rsvd = 0 →
    let w := fetched s t h (.tamperSet p)
    ∃ u : State, exec (.tamperSet t h p) s = .next (okIn u h (.tamperSet p) none) ∧
      ∀ b : Nat, bit u.keys.latched b = (bit w.keys.latched b && bit w.keys.active b)) ∧
  (∀ p : KeyWriteP, Immediate s t h (.keyWrite p) →
    let w := fetched s t h (.keyWrite p)
    p.slot < 32 → p.usage < 16 → p.parent = 255 → p.rsvd = 0 → w.slotRuns p.slot = false → w.laneBound p.slot = false →
    (w.keys.latched = 0 → exec (.keyWrite t h p) s = .next (okIn (w.changeSlot p.slot fun x =>
      { x with key := p.key, usage := p.usage, parent := p.parent, st := 1 }) h (.keyWrite p) none)) ∧
    (w.keys.latched ≠ 0 → exec (.keyWrite t h p) s = .next (w.refuse (command h (.keyWrite p)) (stTampered, 0)).settleLink))

/-- R461: NV_PROTECT writes the protection page: BP becomes FIELD and LOCK the LOCK flag, from its completion; while LOCK is 1 it fails PROTECTED
unless UNLOCK is set, and with UNLOCK it is key-privileged: refused on queues 0 to 7, and on queue 8 while CP_B may not write keys. -/
def Obligations.ProtectionFieldWrites : Prop :=
  ∀ (s : State) (t : Tick) (h : Hdr) (p : NvProtectP), p.field < 4 → p.rsvd = 0 →
  let w := fetched s t h (.nvProtect p)
  let issued := w.nvMerge 0x540 2 (leBytes 1 (p.field + 4 * b2n p.lock)) (.lastOf w.nextJob)
  (Immediate s t h (.nvProtect p) → w.nvLock = false ∨ p.unlock = true →
    exec (.nvProtect t h p) s = .next (waitsIn issued h (.nvProtect p) .event 0) ∧
    issued.nvBp = w.nvBp ∧ issued.nvLock = w.nvLock ∧
    ∃ x, issued.nv.writes = w.nv.writes ++ [x] ∧ x.why = .lastOf w.nextJob ∧
      ∀ (v : State) (t' : Tick) (rest : List NvWrite), v.sys.stage ≠ .inReset → v.nv.writes = x :: rest → v.nv.stopped = false →
        memWf nvDefault v.nv.cells = true →
        ∃ v' : State, exec (.nvWriteDone t') v = .next (v'.completeId w.nextJob stOk 0 none) ∧
          v'.nvBp = p.field ∧ v'.nvLock = p.lock ∧
          (v'.completeId w.nextJob stOk 0 none).nvBp = p.field ∧ (v'.completeId w.nextJob stOk 0 none).nvLock = p.lock) ∧
  (Immediate s t h (.nvProtect p) → w.nvLock = true → p.unlock = false →
    exec (.nvProtect t h p) s = .next (w.refuse (command h (.nvProtect p)) (stProtected, 0)).settleLink) ∧
  (Taken s t h (.nvProtect p) → frameCheck h.queue h = none → (reached s t h (.nvProtect p)).authCheck h.queue h (.nvProtect p) = none → p.unlock = true →
    (h.queue < 8 ∨ h.queue = 8 ∧ Config.keyWe w.now = false) →
    exec (.nvProtect t h p) s = .next (w.refuse (command h (.nvProtect p)) (stBadOpcode, 0)).settleLink)

/-- The STC is the monotonic count plus the offset, modulo 2^64. STC_SET writes the offset alone, so that the STC at its line becomes the value, or
moves by it; the time-driven rows move the monotonic count alone (R48 to R50). -/
def Obligations.StcIsTheSum : Prop :=
  ∀ (s : State) (t : Tick) (j : Job) (p : StcSetP),
  s.stc = (s.clk.mono + s.clk.offset.toNat) % 2 ^ 64 ∧
  (applyStcSet j p s).clk.mono = s.clk.mono ∧ (s.advance t).clk.offset = s.clk.offset ∧ s.clk.mono ≤ (s.advance t).clk.mono ∧
  (p.op = 0 → p.value < 2 ^ 64 → (applyStcSet j p s).stc = p.value) ∧
  (p.op ≠ 0 → (applyStcSet j p s).stc = (s.stc + p.value) % 2 ^ 64)

/-- A change of a slot (R433): the slot takes its new content, every descendant is revoked, the generation of each of them rises by one and no other
slot changes; an operation that runs on one of them is overtaken (R435). -/
def Obligations.KeyChangeRevokes : Prop :=
  ∀ (w : State) (i : Nat) (f : Slot → Slot), tblWf ({} : Slot) w.keys.slots = true →
  let u := w.changeSlot i f
  u.slot i = { f (w.slot i) with gen := (w.slot i).gen + 1 } ∧
  (∀ k, (w.descendants i).contains k = true → u.slot k = { w.slot k with st := 2, gen := (w.slot k).gen + 1 }) ∧
  (∀ k, k ≠ i → (w.descendants i).contains k = false → u.slot k = w.slot k) ∧
  u.keys.ops = w.keys.ops.map (overtake (i :: w.descendants i)) ∧
  u.keys.latched = w.keys.latched ∧ u.queues = w.queues ∧ u.pond = w.pond

/-- What the memories hold after a write: the bytes written read back, and every other byte reads as before. XFER writes the Millpond of a MATE
(R402), up to the end of its 64 GiB (the model's choice, assumption 37), NV_WRITE_DONE the Parameter Store (R455), and CPB_LOAD the memory of CP_B
(R480). -/
def Obligations.MemoryWritesLand : Prop :=
  ∀ (s : State) (t : Tick) (bs : List Byte) (x : NvWrite) (rest : List NvWrite) (addr seq : Nat),
  let lands (a n : Nat) (new : Nat → Byte) (before after : Nat → Byte) : Prop :=
    (∀ i, i < n → after (a + i) = new i) ∧ (∀ b, b < a ∨ a + n ≤ b → after b = before b)
  Sound s → s.sys.stage ≠ .inReset →
  (s.pair.role = .mate →
    ∃ u, exec (.msgXfer t { crcOk := true, copy := false } seq addr bs) s = .next u ∧
      lands addr (min bs.length (pondSize - addr)) (fun i => bs.getD i 0) s.pondByte u.pondByte) ∧
  (s.nv.writes = x :: rest → s.nv.stopped = false →
    ∃ u, exec (.nvWriteDone t) s = .next u ∧ lands x.addr x.bytes.length (fun i => x.bytes.getD i 0) s.nvByte u.nvByte) ∧
  lands addr bs.length (fun i => bs.getD i 0) (mget zeroByte s.hub.sram) (mget zeroByte (s.sramWrite addr bs).hub.sram)

/-- A counter adds modulo 2^48, sets its sticky OVF where the sum passes 2^48 − 1 and then fires the source of its block; every other counter and the
snapshot stay (R493). -/
def Obligations.CountersAddAndWrap : Prop :=
  ∀ (s : State) (block unit event n : Nat), tblWf ({} : Counter) s.cnt.live = true →
  let id := cntId block unit event
  let old := fget ({} : Counter) s.cnt.live id
  let u := s.count block unit event n
  let wraps := decide (2 ^ 48 ≤ old.value.toNat + n)
  fget ({} : Counter) u.cnt.live id = { value := BitVec.ofNat 48 (old.value.toNat + n), ovf := old.ovf || wraps } ∧
  (∀ k, k ≠ id → fget ({} : Counter) u.cnt.live k = fget ({} : Counter) s.cnt.live k) ∧
  u.cnt.frozen = s.cnt.frozen ∧
  (wraps = false → u.hub = s.hub ∧ u.out = s.out) ∧
  (wraps = true → u.hub = (s.fire (992 + block)).hub ∧ u.out = (s.fire (992 + block)).out)

/-- A resident action takes effect at its line (R51, R52): the ones that complete there, with their position on the raster they name, and the ones
that wait on for an event of their chapter. -/
def Obligations.ActionsAtTheirLine : Prop :=
  ∀ (j : Job) (w : State),
  let at_ (q : Params) : Job := { j with params := q }
  let done (q : Params) (u : State) : Prop := applyOf (at_ q) w = u.complete (at_ q) stOk 0 (some j.raster)
  let fails (q : Params) (e : Nat × Nat) : Prop := applyOf (at_ q) w = w.complete (at_ q) e.1 e.2 (some j.raster)
  let waits (q : Params) (u : State → State) : Prop := applyOf (at_ q) w = u (w.setJob { at_ q with kind := .event })
  (∀ p : LossSetP, done (.lossSet p) (w.setLoss p.output { w.loss p.output with policy := p.policy, limit := p.holdLimit })) ∧
  (∀ p, done (.gpioEdge p) (w.drive p.mask p.value)) ∧
  (∀ p, (chkSignalNow p w = none → done (.fenceSignal p) (signalNow p w)) ∧ ∀ e, chkSignalNow p w = some e → fails (.fenceSignal p) e) ∧
  (∀ p, (chkClkoutSet p w = none → done (.clkoutSet p) (w.clkoutSet p)) ∧ ∀ e, chkClkoutSet p w = some e → fails (.clkoutSet p) e) ∧
  (∀ p, (chkClkoutSync p w = none → done (.clkoutSync p) (w.resetDividers p.synth)) ∧
    ∀ e, chkClkoutSync p w = some e → fails (.clkoutSync p) e) ∧
  (∀ p : RasterSetP, (2 ≤ p.raster → waits (.rasterSet p) id) ∧
    (p.raster < 2 → applyOf (at_ (.rasterSet p)) w = applyHouseSet (at_ (.rasterSet p)) p w)) ∧
  (∀ p : StreamSetP, applyOf (at_ (.streamSet p)) w = (setTransmit releaseOf p j.id w).complete (at_ (.streamSet p)) stOk 0
    (some (if p.g = 0 then 0 else 2 + pointOf p))) ∧
  (∀ p, waits (.routeTake p) fun u => u.dueTake j.id) ∧
  (∀ p : PresetRecallP,
    let copy := match j.preset with
      | some b => some b
      | none => w.readPreset p.preset
    (∀ b, copy = some b → waits (.presetRecall p) fun u => (u.audit 2 p.preset 0 0).spreadPreset j.id b) ∧
    (copy = none → applyOf (at_ (.presetRecall p)) w =
      (releaseTake (at_ (.presetRecall p)) w).complete (at_ (.presetRecall p)) stBadParam 0 (some j.raster))) ∧
  (∀ p : PresetStoreP, (w.storePreset j.id p.preset w.snapshot = none →
      applyOf (at_ (.presetStore p)) w = w.complete (at_ (.presetStore p)) stNoResource 0 none) ∧
    ∀ u, w.storePreset j.id p.preset w.snapshot = some u →
      applyOf (at_ (.presetStore p)) w = u.setJob { at_ (.presetStore p) with kind := .event }) ∧
  (∀ p : KernelBindP, ((∀ e ∈ gangOf p, (w.engine e).st = .free) → applyOf (at_ (.kernelBind p)) w =
      (w.bindTask j.id p).setJob { at_ (.kernelBind p) with kind := .event }) ∧
    ((∃ e ∈ gangOf p, (w.engine e).st ≠ .free) → applyOf (at_ (.kernelBind p)) w =
      (w.charge (fun c => (gangOf p).any fun e => ofEngine e c) []).complete (at_ (.kernelBind p)) stBusy 0 (some j.raster))) ∧
  (∀ p : LayerFlipP, (∀ o, w.outRaster p.output = some o → j.line = w.decisionLine p.output o →
      waits (.layerFlip p) fun u => u.pendFlip j.id p none) ∧
    (∀ o, w.outRaster p.output = some o → j.line ≠ w.decisionLine p.output o →
      applyOf (at_ (.layerFlip p)) w =
        (releaseLayerSet (at_ (.layerFlip p)) p.output w).complete (at_ (.layerFlip p)) stCancelled 0 (some j.raster))) ∧
  (∀ p : CompSetP, j.raster = 2 + p.output →
    let c := { w.compOut p.output with dl := p.dl }
    let u := w.setCompOut p.output c
    applyOf (at_ (.compSet p)) w = u.complete (at_ (.compSet p)) stOk (if u.dlInForce c = p.dl then 0 else u.dlInForce c) (some j.raster)) ∧
  (∀ p, waits (.audioRoute p) fun u => u.commitRoutes j.id p.entries) ∧
  (∀ p, waits (.aportMask p) fun u => u.waitMask j.id p) ∧
  (∀ p, applyOf (at_ (.laneCryptSet p)) w = (w.awaitCrypt p).setJob { at_ (.laneCryptSet p) with kind := .event }) ∧
  (∀ p, applyOf (at_ (.stcSet p)) w = applyStcSet (at_ (.stcSet p)) p w)

/-- A mode change leaves TEST's loopbacks and patterns behind, releases a counter snapshot where the mode is SERVICE, QUIET or FAILED, and raises
source 0 (R6, R128, R495). A Brinen lane that leaves LOCKED takes the link down: a MATE becomes LEAD without authority, and the pair drops apart
(R382, R400), what the partner had begun to send is forgotten and a new HELLO is needed (the model's choice, assumption 39). -/
def Obligations.ModeAndLinkChanges : Prop :=
  ∀ (w : State) (m : Mode),
  let u := w.setMode m
  let base := if w.sys.mode = .test then w.leaveTest else w
  let releases := m = .service ∨ m = .quiet ∨ m = .failed
  let down (x : State) : State := (x.setPair { x.pair with
    up := false, adopt := false, hello := none, snapshot := [], snapReady := false, after := [] }).fire 976
  let leads (x : State) : State := (x.setPair { x.pair with role := .lead, authority := false }).fire 977
  u = { base with cnt := if releases then { base.cnt with frozen := none } else base.cnt, sys := { base.sys with mode := m } }.fire 0 ∧
  u.sys.mode = m ∧ (releases → u.cnt.frozen = none) ∧
  (w.pair.up = false ∨ w.brinenLocked = true → w.settleLink = w) ∧
  (w.pair.up = true → w.brinenLocked = false → w.pair.role = .mate → w.settleLink = (leads (down w)).dropApart.goOn) ∧
  (w.pair.up = true → w.brinenLocked = false → w.pair.role ≠ .mate → w.settleLink = (down w).dropApart.goOn)

/-- What reset leaves (R502, R504, R357, R493, R483, R260): BRINGUP in stage 1 with the Parameter Store recall in progress and no fault record, both
wake conditions of the pins enabled, the counts of time at 0, every counter 0, every source idle with no target, every fence 0 and, VAON just up,
every key slot empty (R429); no queue enabled, no command waiting, no stream, route, object or task, no member of a pair. The memories list nothing
(assumptions 6 and 7). -/
def Obligations.ResetValues : Prop :=
  let s := State.reset
  s.sys.mode = .bringup ∧ s.sys.stage = .s1 ∧ s.sys.nvRecalling = true ∧ s.sys.fault = none ∧ s.sys.quiet = .awake ∧
  s.sys.wakeEnables = 3 ∧ s.sys.wakeTimer = 0 ∧ s.clk.mono = 0 ∧ s.stc = 0 ∧ s.cnt.frozen = none ∧
  (∀ b u e, s.counter b u e = 0) ∧ (∀ i, s.source i = {}) ∧ (∀ i, (s.fence i).value = 0 ∧ (s.fence i).point = none) ∧
  (∀ i, (s.slot i).st = 0 ∧ (s.slot i).parent = 255) ∧ s.keys.latched = 0 ∧ s.keys.enables = 127 ∧
  (∀ q, (s.queue q).enable = false ∧ (s.queue q).error = false ∧ (s.queue q).macSlot = none) ∧ s.spi.fifo = [] ∧
  s.jobs = [] ∧ s.pending = [] ∧ (∀ n, s.rxStream n = none ∧ s.txStream n = none ∧ s.outRaster n = none) ∧
  s.routes.routes = [] ∧ s.engines.tasks = [] ∧ s.pair.role = .solo ∧ s.pair.up = false ∧
  (∀ x, (s.house x).started = false ∧ (s.house x).st = .free ∧ (s.house x).frame = 0) ∧
  (∀ p, (s.gpio p).dir = 0 ∧ (s.gpio p).cpb = false) ∧ s.pins.faultN = .hiZ ∧ s.hub.cpB.running = false ∧
  (∀ a, s.pondByte a = 0) ∧ (∀ a, s.nvByte a = nvDefault a)

/-- A queue whose bound slot has lost its key refuses every authenticated packet (R436, R337): KEY_ABSENT where the slot is empty or zeroised,
KEY_REVOKED where it is revoked, whatever its MAC. A packet without MAC is refused with BAD_MAC, but queue 9 whose slot is not valid still takes
KEY_WRITE, QUEUE_AUTH and TAMPER_SET (the model's reading: a MAC-less packet fails step 3 of Table 12.12 before its slot is judged). A MAC on a queue
bound to no slot is refused with KEY_ABSENT; one not formed under the bound key with BAD_MAC; one outside the window with REPLAY. -/
def Obligations.QueueWithLostKeyRefuses : Prop :=
  ∀ (s : State) (t : Tick) (h : Hdr) (p : Params) (i : Instr) (k mac : Nat), packetRow t h p = some i → Taken s t h p →
  frameCheck h.queue h = none →
  let q := h.queue
  let r := reached s t h p
  let bound := r.queue q
  let good := macOf (r.slot k).key q h p
  let recovers : Bool := match p with
    | .keyWrite _ | .queueAuth _ | .tamperSet _ => true
    | _ => false
  let refused (st : Nat) : Prop := exec i s = .next (r.refuse (command h p) (st, 0)).settleLink
  (bound.macSlot = some k → h.mac = some mac → (r.slot k).st = 0 ∨ (r.slot k).st = 3 → refused stKeyAbsent) ∧
  (bound.macSlot = some k → h.mac = some mac → (r.slot k).st = 2 → refused stKeyRevoked) ∧
  (bound.macSlot = some k → h.mac = some mac → r.useSlot 0 k = none → mac ≠ good → refused stBadMac) ∧
  (bound.macSlot = some k → h.mac = some mac → r.useSlot 0 k = none → mac = good → inWindow bound.macSeq h.seq = false →
    refused stReplay) ∧
  (bound.macSlot = some k → h.mac = none → q ≠ 9 ∨ (r.slot k).st = 1 ∨ recovers = false → refused stBadMac) ∧
  (bound.macSlot = some k → h.mac = none → q = 9 → (r.slot k).st ≠ 1 → recovers = true → r.authCheck q h p = none) ∧
  (bound.macSlot = none → h.mac = some mac → refused stKeyAbsent)
end

