-- ==== Sys2Proof/Laws/Memory.lean ====
section
/-! SUPPORT. The laws of tables and memories: a read after a write, that a write leaves every other place alone, and that every
write keeps the canonical form. -/

namespace Sys2Proof.Laws

open Sys2Proof.Machine

/-! ### Tables -/

/-- A table read gives the default where the key lies below every listed key. -/
theorem fget_below {α : Type} [DecidableEq α] (d : α) (m : Tbl α) (k : Nat) (h : tblWf d m = true)
    (hk : m.head?.all (fun x => decide (k < x.1)) = true) : fget d m k = d := by
  induction m with
  | nil => rfl
  | cons e r ih =>
    obtain ⟨j, v⟩ := e
    simp only [tblWf, Bool.and_eq_true] at h
    simp only [List.head?_cons, Option.all_some, decide_eq_true_eq] at hk
    have hj : j ≠ k := by omega
    simp only [fget, hj, if_false]
    apply ih h.2
    cases r with
    | nil => rfl
    | cons e' r' =>
      have := h.1.2
      simp only [List.head?_cons, Option.all_some, decide_eq_true_eq] at this ⊢
      omega

/-- A read after a write to the same key gives the value written. -/
theorem fget_fset_same {α : Type} [DecidableEq α] (d : α) (m : Tbl α) (k : Nat) (v : α) (h : tblWf d m = true) :
    fget d (fset d m k v) k = v := by
  induction m with
  | nil => by_cases hv : v = d <;> simp [fset, fget, hv]
  | cons e r ih =>
    obtain ⟨j, w⟩ := e
    have h' := h
    simp only [tblWf, Bool.and_eq_true] at h
    unfold fset
    split
    next hj =>
      subst hj
      split
      next hv => rw [hv]; exact fget_below d r j h.2 h.1.2
      next => simp [fget]
    next hj =>
      split
      next hlt =>
        split
        next hv =>
          rw [hv]
          exact fget_below d _ k h' (by simpa using hlt)
        next => simp [fget]
      next => simpa [fget, hj] using ih h.2

/-- A write leaves every other key alone. -/
theorem fget_fset_other {α : Type} [DecidableEq α] (d : α) (m : Tbl α) (k j : Nat) (v : α) (h : tblWf d m = true) (hne : j ≠ k) :
    fget d (fset d m k v) j = fget d m j := by
  induction m with
  | nil =>
    unfold fset
    split
    · rfl
    · simp [fget, Ne.symm hne]
  | cons e r ih =>
    obtain ⟨i, w⟩ := e
    have h' := h
    simp only [tblWf, Bool.and_eq_true] at h
    unfold fset
    split
    next hi =>
      subst hi
      split
      · simp [fget, Ne.symm hne]
      · simp [fget, Ne.symm hne]
    next hi =>
      split
      next hlt =>
        split
        · rfl
        · simp [fget, Ne.symm hne]
      next =>
        simp only [fget]
        split
        · rfl
        · exact ih h.2

/-- What a write leaves at the head of a table lies at the key or where the head was. -/
theorem fset_head {α : Type} [DecidableEq α] (d : α) (m : Tbl α) (k j : Nat) (v : α) (hjk : j < k)
    (h : tblWf d m = true) (hm : m.head?.all (fun x => decide (j < x.1)) = true) :
    (fset d m k v).head?.all (fun x => decide (j < x.1)) = true := by
  cases m with
  | nil => unfold fset; split <;> simp [hjk]
  | cons e r =>
    obtain ⟨i, w⟩ := e
    simp only [tblWf, Bool.and_eq_true] at h
    simp only [List.head?_cons, Option.all_some, decide_eq_true_eq] at hm
    unfold fset
    split
    next hi =>
      split
      · cases r with
        | nil => rfl
        | cons e' r' =>
          have := h.1.2
          simp only [List.head?_cons, Option.all_some, decide_eq_true_eq] at this ⊢
          omega
      · simp [hjk]
    next =>
      split
      · split <;> simp [hjk, hm]
      · simp [hm]

/-- A write keeps the canonical form of a table. -/
theorem tblWf_fset {α : Type} [DecidableEq α] (d : α) (m : Tbl α) (k : Nat) (v : α) (h : tblWf d m = true) :
    tblWf d (fset d m k v) = true := by
  induction m with
  | nil =>
    unfold fset
    split
    · rfl
    next hv => simp [tblWf, hv]
  | cons e r ih =>
    obtain ⟨i, w⟩ := e
    have h' := h
    simp only [tblWf, Bool.and_eq_true] at h
    unfold fset
    split
    next hi =>
      subst hi
      split
      · exact h.2
      next hv => simpa [tblWf, hv] using h.1.2 |> fun x => ⟨x, h.2⟩
    next hi =>
      split
      next hlt =>
        split
        · exact h'
        next hv => simp [tblWf, hv, hlt] at h' ⊢; exact h'
      next hlt =>
        simp only [tblWf, Bool.and_eq_true]
        exact ⟨⟨h.1.1, fset_head d r k i v (by omega) h.2 h.1.2⟩, ih h.2⟩

/-- Of two writes to one key the second counts. -/
theorem fset_fset {α : Type} [DecidableEq α] (d : α) (m : Tbl α) (k : Nat) (v w : α) (h : tblWf d m = true) :
    fset d (fset d m k v) k w = fset d m k w := by
  induction m with
  | nil =>
    by_cases hv : v = d
    · simp [fset, hv]
    · simp [fset, hv]
  | cons e r ih =>
    obtain ⟨i, x⟩ := e
    have h' := h
    simp only [tblWf, Bool.and_eq_true] at h
    simp only [fset]
    by_cases hi : i = k
    · subst hi
      simp only [if_true]
      by_cases hv : v = d
      · simp only [hv, if_true]
        cases r with
        | nil => simp [fset]
        | cons e' r' =>
          have := h.1.2
          simp only [List.head?_cons, Option.all_some, decide_eq_true_eq] at this
          obtain ⟨j, y⟩ := e'
          simp at this
          have hj : ¬ j = i := by omega
          simp [fset, hj, this]
      · simp [hv, fset]
    · simp only [hi, if_false]
      by_cases hlt : k < i
      · simp only [hlt, if_true]
        by_cases hv : v = d
        · simp [hv, fset, hi, hlt]
        · simp [hv, fset]
      · simp only [hlt, if_false]
        simp only [fset, hi, hlt, if_false]
        rw [ih h.2]

/-! ### Memories -/

/-- A memory is a table whose default depends on the address: a read below every listed address gives the default. -/
theorem mget_below (d : Nat → Byte) (m : List Host.Cell) (a : Nat) (h : memWf d m = true)
    (ha : m.head?.all (fun x => decide (a < x.1)) = true) : mget d m a = d a := by
  induction m with
  | nil => rfl
  | cons e r ih =>
    obtain ⟨j, v⟩ := e
    simp only [memWf, Bool.and_eq_true] at h
    simp only [List.head?_cons, Option.all_some, decide_eq_true_eq] at ha
    have hj : j ≠ a := by omega
    simp only [mget, hj, if_false]
    apply ih h.2
    cases r with
    | nil => rfl
    | cons e' r' =>
      have := h.1.2
      simp only [List.head?_cons, Option.all_some, decide_eq_true_eq] at this ⊢
      omega

/-- A read after a write to the same address gives the byte written. -/
theorem mget_mset_same (d : Nat → Byte) (m : List Host.Cell) (a : Nat) (v : Byte) (h : memWf d m = true) :
    mget d (mset d m a v) a = v := by
  induction m with
  | nil => by_cases hv : v = d a <;> simp [mset, mget, hv]
  | cons e r ih =>
    obtain ⟨j, w⟩ := e
    have h' := h
    simp only [memWf, Bool.and_eq_true] at h
    unfold mset
    split
    next hj =>
      subst hj
      split
      next hv => rw [hv]; exact mget_below d r j h.2 h.1.2
      next => simp [mget]
    next hj =>
      split
      next hlt =>
        split
        next hv =>
          rw [hv]
          exact mget_below d _ a h' (by simpa using hlt)
        next => simp [mget]
      next => simpa [mget, hj] using ih h.2

/-- A write leaves every other address alone. -/
theorem mget_mset_other (d : Nat → Byte) (m : List Host.Cell) (a b : Nat) (v : Byte) (hne : b ≠ a) :
    mget d (mset d m a v) b = mget d m b := by
  induction m with
  | nil =>
    unfold mset
    split
    · rfl
    · simp [mget, Ne.symm hne]
  | cons e r ih =>
    obtain ⟨i, w⟩ := e
    unfold mset
    split
    next hi =>
      subst hi
      split <;> simp [mget, Ne.symm hne]
    next hi =>
      split
      next hlt =>
        split
        · rfl
        · simp [mget, Ne.symm hne]
      next =>
        simp only [mget]
        split
        · rfl
        · exact ih

/-- What a write leaves at the head of a memory lies at the address or where the head was. -/
theorem mset_head (d : Nat → Byte) (m : List Host.Cell) (a j : Nat) (v : Byte) (hja : j < a)
    (h : memWf d m = true) (hm : m.head?.all (fun x => decide (j < x.1)) = true) :
    (mset d m a v).head?.all (fun x => decide (j < x.1)) = true := by
  cases m with
  | nil => unfold mset; split <;> simp [hja]
  | cons e r =>
    obtain ⟨i, w⟩ := e
    simp only [memWf, Bool.and_eq_true] at h
    simp only [List.head?_cons, Option.all_some, decide_eq_true_eq] at hm
    unfold mset
    split
    next hi =>
      split
      · cases r with
        | nil => rfl
        | cons e' r' =>
          have := h.1.2
          simp only [List.head?_cons, Option.all_some, decide_eq_true_eq] at this ⊢
          omega
      · simp [hja]
    next =>
      split
      · split <;> simp [hja, hm]
      · simp [hm]

/-- A write keeps the canonical form of a memory. -/
theorem memWf_mset (d : Nat → Byte) (m : List Host.Cell) (a : Nat) (v : Byte) (h : memWf d m = true) :
    memWf d (mset d m a v) = true := by
  induction m with
  | nil =>
    unfold mset
    split
    · rfl
    next hv => simp [memWf, hv]
  | cons e r ih =>
    obtain ⟨i, w⟩ := e
    have h' := h
    simp only [memWf, Bool.and_eq_true] at h
    unfold mset
    split
    next hi =>
      subst hi
      split
      · exact h.2
      next hv => simpa [memWf, hv] using h.1.2 |> fun x => ⟨x, h.2⟩
    next hi =>
      split
      next hlt =>
        split
        · exact h'
        next hv => simp [memWf, hv, hlt] at h' ⊢; exact h'
      next hlt =>
        simp only [memWf, Bool.and_eq_true]
        exact ⟨⟨h.1.1, mset_head d r a i v (by omega) h.2 h.1.2⟩, ih h.2⟩

/-- A write of several bytes keeps the canonical form of a memory. -/
theorem memWf_mwrite (d : Nat → Byte) (bs : List Byte) (m : List Host.Cell) (a : Nat) (h : memWf d m = true) :
    memWf d (mwrite d m a bs) = true := by
  induction bs generalizing m a with
  | nil => exact h
  | cons b r ih => exact ih _ _ (memWf_mset d m a b h)

/-- A write of several bytes leaves the addresses outside it alone. -/
theorem mget_mwrite_outside (d : Nat → Byte) (bs : List Byte) (m : List Host.Cell) (a b : Nat)
    (hb : b < a ∨ a + bs.length ≤ b) : mget d (mwrite d m a bs) b = mget d m b := by
  induction bs generalizing m a with
  | nil => rfl
  | cons v r ih =>
    simp only [List.length_cons] at hb
    simp only [mwrite]
    rw [ih _ _ (by omega), mget_mset_other d m a b v (by omega)]

/-- Inside a write of several bytes each address reads its byte. -/
theorem mget_mwrite_inside (d : Nat → Byte) (bs : List Byte) (m : List Host.Cell) (a i : Nat) (h : memWf d m = true)
    (hi : i < bs.length) : mget d (mwrite d m a bs) (a + i) = bs[i] := by
  induction bs generalizing m a i with
  | nil => simp at hi
  | cons v r ih =>
    simp only [mwrite]
    cases i with
    | zero =>
      have := mget_mwrite_outside d r (mset d m a v) (a + 1) a (by omega)
      simp only [Nat.add_zero, List.getElem_cons_zero, this]
      exact mget_mset_same d m a v h
    | succ n =>
      have := ih (mset d m a v) (a + 1) n (memWf_mset d m a v h) (by simpa using hi)
      simpa [Nat.add_assoc, Nat.add_comm 1 n] using this

end Sys2Proof.Laws
end

