-- ==== Sys2Proof/Laws/Keeps.lean ====
section
/-! SUPPORT. What every operation of the device keeps: the invariants of `Sound`, the queue of commands that wait, and the monotonic
count, which only a reset changes. One lemma per operation stands in Laws/Keeps/. -/

namespace Sys2Proof.Laws

open Sys2Proof.Machine

/-- From `a`, the state `b` has been reached by operations that keep the invariants, the queue and the count. -/
def Keeps (a b : State) : Prop :=
  (Sound a → Sound b) ∧ b.pending = a.pending ∧ (b.clk.mono = a.clk.mono ∨ b.clk.mono = 0)

/-- An answer to a command keeps them where it has a state. -/
def AnsKeeps (a : State) : Ans → Prop
  | .fail _ _ => True
  | .done s _ => Keeps a s
  | .result s _ _ => Keeps a s
  | .later s _ _ _ _ => Keeps a s
  | .silent s => Keeps a s

/-- The same for a state that may be absent. -/
def OptKeeps (a : State) (x : Option State) : Prop := ∀ s, x = some s → Keeps a s

theorem Keeps.refl (a : State) : Keeps a a := ⟨id, rfl, .inl rfl⟩

/-- What `Keeps` reads of the state reached. -/
def KeepsFields (a : State) (pending : List Instr) (mono : Tick) (mem cells sram : List Host.Cell) (jobs : List Job) (next : Nat)
    (mode : Mode)
    (fault : Option FaultRec) (before : Mode) (houses : List House) (queues : Tbl Queue) : Prop :=
  (Sound a → (memWf zeroByte mem = true ∧ memWf nvDefault cells = true ∧ memWf zeroByte sram = true) ∧ JobsInOrder jobs next ∧
    ((mode = .failed → fault.isSome = true) ∧ before ≠ .failed) ∧ houses.length = 2 ∧ tblWf ({} : Queue) queues = true) ∧ pending = a.pending ∧ (mono = a.clk.mono ∨ mono = 0)

/-- A state written field by field. -/
theorem keeps_mk {a : State} {f1 : List Instr} {f2 : Clk} {f3 : Sys} {f4 : List House} {f5 : Tbl (Option OutRaster)} {f6 : Tbl RxDir}
    {f7 : Tbl TxDir} {f8 : Tbl (Option RxStream)} {f9 : Tbl (Option TxStream)} {f10 : Tbl Queue} {f11 : Spi} {f12 : List Job} {f13 : Nat}
    {f14 : Hub} {f15 : Cnt} {f16 : Pair} {f17 : Clocks} {f18 : Keys} {f19 : Nv} {f20 : Pins} {f21 : Routes} {f22 : Pond} {f23 : Engines}
    {f24 : Comp} {f25 : Audio} {f26 : List Out} {f27 : Nat} :
    Keeps a ⟨f1, f2, f3, f4, f5, f6, f7, f8, f9, f10, f11, f12, f13, f14, f15, f16, f17, f18, f19, f20, f21, f22, f23, f24, f25, f26, f27⟩ ↔
      KeepsFields a f1 f2.mono f22.mem f19.cells f14.sram f12 f13 f3.mode f3.fault f3.modeBefore f4 f10 := Iff.rfl

/-- An update of fields that no invariant reads. -/
theorem keeps_fields {a s : State} (h : Keeps a s) :
    KeepsFields a s.pending s.clk.mono s.pond.mem s.nv.cells s.hub.sram s.jobs s.nextJob s.sys.mode s.sys.fault s.sys.modeBefore s.houses s.queues := h

/-- A list with some jobs taken out stays in order. -/
theorem jobs_filter {f : Job → Bool} {l : List Job} {n : Nat} (h : JobsInOrder l n) : JobsInOrder (l.filter f) n :=
  ⟨h.1.filter _, fun j hj => h.2 j (List.mem_filter.mp hj).1⟩

/-- A list whose jobs change but keep their identifiers stays in order. -/
theorem jobs_map {f : Job → Job} (hf : ∀ j, (f j).id = j.id) {l : List Job} {n : Nat} (h : JobsInOrder l n) :
    JobsInOrder (l.map f) n := by
  refine ⟨List.pairwise_map.mpr ?_, ?_⟩
  · simpa [hf] using h.1
  · intro j hj
    obtain ⟨x, hx, rfl⟩ := List.mem_map.mp hj
    rw [hf]
    exact h.2 x hx

/-- A job behind every other, under the next identifier. -/
theorem jobs_append {l : List Job} {n : Nat} {j : Job} (hj : j.id = n) (h : JobsInOrder l n) : JobsInOrder (l ++ [j]) (n + 1) := by
  refine ⟨List.pairwise_append.mpr ⟨h.1, List.pairwise_singleton _ _, ?_⟩, ?_⟩
  · intro a ha b hb
    rw [List.mem_singleton] at hb
    subst hb
    rw [hj]
    exact h.2 a ha
  · intro a ha
    rcases List.mem_append.mp ha with h' | h'
    · exact Nat.lt_succ_of_lt (h.2 a h')
    · rw [List.mem_singleton] at h'
      subst h'
      omega

/-- A state taken out of a pair. -/
theorem keeps_pair {α : Type} {a : State} {f : α × State} {x : α} {s : State} (he : f = (x, s)) (h : Keeps a f.2) : Keeps a s := by
  rw [he] at h
  exact h

theorem keeps_some {a s : State} {f : Option State} (he : f = some s) (h : OptKeeps a f) : Keeps a s := h s he

theorem ans_fail {a : State} {st d : Nat} : AnsKeeps a (.fail st d) := trivial

theorem ans_done {a s : State} {r : Option Nat} (h : Keeps a s) : AnsKeeps a (.done s r) := h

theorem ans_result {a s : State} {r : Res} {bs : List Byte} (h : Keeps a s) : AnsKeeps a (.result s r bs) := h

theorem ans_later {a s : State} {k : JobKind} {r : Nat} {x : List Nat} {y : Option (Res × List Byte)} (h : Keeps a s) :
    AnsKeeps a (.later s k r x y) := h

theorem ans_silent {a s : State} (h : Keeps a s) : AnsKeeps a (.silent s) := h

theorem ans_of_done {a s : State} {x : Ans} {r : Option Nat} (h : AnsKeeps a x) (he : x = .done s r) : Keeps a s := by
  subst he
  exact h

/-- The record `sys` (mode, stage, fault record, Quiet) and the next job's identifier are untouched. -/
def SysKept (a b : State) : Prop := b.sys = a.sys ∧ b.nextJob = a.nextJob

theorem SysKept.refl (a : State) : SysKept a a := ⟨rfl, rfl⟩

theorem sys_mk {a : State} {f1 : List Instr} {f2 : Clk} {f3 : Sys} {f4 : List House} {f5 : Tbl (Option OutRaster)} {f6 : Tbl RxDir}
    {f7 : Tbl TxDir} {f8 : Tbl (Option RxStream)} {f9 : Tbl (Option TxStream)} {f10 : Tbl Queue} {f11 : Spi} {f12 : List Job} {f13 : Nat}
    {f14 : Hub} {f15 : Cnt} {f16 : Pair} {f17 : Clocks} {f18 : Keys} {f19 : Nv} {f20 : Pins} {f21 : Routes} {f22 : Pond} {f23 : Engines}
    {f24 : Comp} {f25 : Audio} {f26 : List Out} {f27 : Nat} :
    SysKept a ⟨f1, f2, f3, f4, f5, f6, f7, f8, f9, f10, f11, f12, f13, f14, f15, f16, f17, f18, f19, f20, f21, f22, f23, f24, f25, f26, f27⟩ ↔
      f3 = a.sys ∧ f13 = a.nextJob := Iff.rfl

theorem sys_fields {a s : State} (h : SysKept a s) : s.sys = a.sys ∧ s.nextJob = a.nextJob := h

theorem foldl_sys {α : Type} {a : State} {f : State → α → State} {l : List α} {s : State}
    (hf : ∀ s x, SysKept a s → SysKept a (f s x)) (h : SysKept a s) : SysKept a (l.foldl f s) := by
  induction l generalizing s with
  | nil => exact h
  | cons x r ih => exact ih (hf s x h)

theorem foldl_keeps {α : Type} {a : State} {f : State → α → State} {l : List α} {s : State}
    (hf : ∀ s x, Keeps a s → Keeps a (f s x)) (h : Keeps a s) : Keeps a (l.foldl f s) := by
  induction l generalizing s with
  | nil => exact h
  | cons x r ih => exact ih (hf s x h)

theorem foldl_pair_keeps {α β : Type} {a : State} {f : β × State → α → β × State} {l : List α} {p : β × State}
    (hf : ∀ p x, Keeps a p.2 → Keeps a (f p x).2) (h : Keeps a p.2) : Keeps a (l.foldl f p).2 := by
  induction l generalizing p with
  | nil => exact h
  | cons x r ih => exact ih (hf p x h)

/-- Fields written where only the order of the jobs has to be shown. -/
theorem keeps_fields_jobs {a s : State} {jobs : List Job} {next : Nat}
    (hj : JobsInOrder s.jobs s.nextJob → JobsInOrder jobs next) (h : Keeps a s) :
    KeepsFields a s.pending s.clk.mono s.pond.mem s.nv.cells s.hub.sram jobs next s.sys.mode s.sys.fault s.sys.modeBefore s.houses s.queues :=
  ⟨fun x => ⟨(h.1 x).1, hj (h.1 x).2.1, (h.1 x).2.2.1, (h.1 x).2.2.2⟩, h.2.1, h.2.2⟩

theorem orAns_keeps {a : State} {c : Check} {x : Ans} (h : AnsKeeps a x) : AnsKeeps a (orAns c x) := by
  unfold orAns
  split
  · trivial
  · exact h

end Sys2Proof.Laws
end

