-- ==== Sys2Proof/Laws/Keeps/Basic.lean ====
section
/-! SUPPORT. What the operations of Machine/Ops.lean, Slots.lean, Lanes.lean, Nv.lean, Schedule.lean and System.lean keep: one lemma per operation (see Laws/Keeps.lean). -/

namespace Sys2Proof.Laws

open Sys2Proof.Machine

theorem each_sysKept {α : Type} {a : State} {f : α → State → State} {l : List α} {s : State}
    (h1 : ∀ x s, SysKept a s → SysKept a (f x s)) (h : SysKept a s) : SysKept a (State.each f l s) := by
  induction l generalizing s with
  | nil => exact h
  | cons x r ih => exact ih (h1 x s h)

theorem each_keeps {α : Type} {a : State} {f : α → State → State} {l : List α} {s : State}
    (h1 : ∀ x s, Keeps a s → Keeps a (f x s)) (h : Keeps a s) : Keeps a (State.each f l s) := by
  induction l generalizing s with
  | nil => exact h
  | cons x r ih => exact ih (h1 x s h)

theorem emit_sysKept {a : State} {x0 : State} {x1 : Out}
    (h0 : SysKept a x0) :
    SysKept a (State.emit x0 x1) := by
  unfold State.emit
  try dsimp only
  repeat' first
    | with_reducible assumption
    | with_reducible apply foldl_sys
    | (intro y s hs; try dsimp only)
    | (intro s hs; try dsimp only)
    | split
    | (simp only [sys_mk]; with_reducible refine sys_fields ?_)

theorem emit_keeps {a : State} {x0 : State} {x1 : Out}
    (h0 : Keeps a x0) :
    Keeps a (State.emit x0 x1) := by
  unfold State.emit
  try dsimp only
  repeat' first
    | with_reducible assumption
    | with_reducible apply foldl_keeps
    | (intro y s hs; try dsimp only)
    | (intro s hs; try dsimp only)
    | split
    | (simp only [keeps_mk]; with_reducible refine keeps_fields ?_)

theorem msixSend_sysKept {a : State} {x0 : State} {x1 : Nat}
    (h0 : SysKept a x0) :
    SysKept a (State.msixSend x0 x1) := by
  unfold State.msixSend
  try dsimp only
  repeat' first
    | with_reducible assumption
    | with_reducible apply emit_sysKept
    | with_reducible apply foldl_sys
    | (intro y s hs; try dsimp only)
    | (intro s hs; try dsimp only)
    | split
    | (simp only [sys_mk]; with_reducible refine sys_fields ?_)

theorem msixSend_keeps {a : State} {x0 : State} {x1 : Nat}
    (h0 : Keeps a x0) :
    Keeps a (State.msixSend x0 x1) := by
  unfold State.msixSend
  try dsimp only
  repeat' first
    | with_reducible assumption
    | with_reducible apply emit_keeps
    | with_reducible apply foldl_keeps
    | (intro y s hs; try dsimp only)
    | (intro s hs; try dsimp only)
    | split
    | (simp only [keeps_mk]; with_reducible refine keeps_fields ?_)

theorem eventMessage_sysKept {a : State} {x0 : State} {x1 : Nat}
    (h0 : SysKept a x0) :
    SysKept a (State.eventMessage x0 x1) := by
  unfold State.eventMessage
  try dsimp only
  repeat' first
    | with_reducible assumption
    | with_reducible apply msixSend_sysKept
    | with_reducible apply foldl_sys
    | (intro y s hs; try dsimp only)
    | (intro s hs; try dsimp only)
    | split
    | (simp only [sys_mk]; with_reducible refine sys_fields ?_)

theorem eventMessage_keeps {a : State} {x0 : State} {x1 : Nat}
    (h0 : Keeps a x0) :
    Keeps a (State.eventMessage x0 x1) := by
  unfold State.eventMessage
  try dsimp only
  repeat' first
    | with_reducible assumption
    | with_reducible apply msixSend_keeps
    | with_reducible apply foldl_keeps
    | (intro y s hs; try dsimp only)
    | (intro s hs; try dsimp only)
    | split
    | (simp only [keeps_mk]; with_reducible refine keeps_fields ?_)

theorem presented_sysKept {a : State} {x0 : State} {x1 : Nat}
    (h0 : SysKept a x0) :
    SysKept a (State.presented x0 x1) := by
  unfold State.presented
  try dsimp only
  repeat' first
    | with_reducible assumption
    | with_reducible apply eventMessage_sysKept
    | with_reducible apply foldl_sys
    | (intro y s hs; try dsimp only)
    | (intro s hs; try dsimp only)
    | split
    | (simp only [sys_mk]; with_reducible refine sys_fields ?_)

theorem presented_keeps {a : State} {x0 : State} {x1 : Nat}
    (h0 : Keeps a x0) :
    Keeps a (State.presented x0 x1) := by
  unfold State.presented
  try dsimp only
  repeat' first
    | with_reducible assumption
    | with_reducible apply eventMessage_keeps
    | with_reducible apply foldl_keeps
    | (intro y s hs; try dsimp only)
    | (intro s hs; try dsimp only)
    | split
    | (simp only [keeps_mk]; with_reducible refine keeps_fields ?_)

theorem setSource_sysKept {a : State} {x0 : State} {x1 : Nat} {x2 : Source}
    (h0 : SysKept a x0) :
    SysKept a (State.setSource x0 x1 x2) := by
  unfold State.setSource
  try dsimp only
  repeat' first
    | with_reducible assumption
    | with_reducible apply foldl_sys
    | (intro y s hs; try dsimp only)
    | (intro s hs; try dsimp only)
    | split
    | (simp only [sys_mk]; with_reducible refine sys_fields ?_)

theorem setSource_keeps {a : State} {x0 : State} {x1 : Nat} {x2 : Source}
    (h0 : Keeps a x0) :
    Keeps a (State.setSource x0 x1 x2) := by
  unfold State.setSource
  try dsimp only
  repeat' first
    | with_reducible assumption
    | with_reducible apply foldl_keeps
    | (intro y s hs; try dsimp only)
    | (intro s hs; try dsimp only)
    | split
    | (simp only [keeps_mk]; with_reducible refine keeps_fields ?_)

theorem fire_sysKept {a : State} {x0 : State} {x1 : Nat}
    (h0 : SysKept a x0) :
    SysKept a (State.fire x0 x1) := by
  unfold State.fire
  try dsimp only
  repeat' first
    | with_reducible assumption
    | with_reducible apply presented_sysKept
    | with_reducible apply setSource_sysKept
    | with_reducible apply foldl_sys
    | (intro y s hs; try dsimp only)
    | (intro s hs; try dsimp only)
    | split
    | (simp only [sys_mk]; with_reducible refine sys_fields ?_)

theorem fire_keeps {a : State} {x0 : State} {x1 : Nat}
    (h0 : Keeps a x0) :
    Keeps a (State.fire x0 x1) := by
  unfold State.fire
  try dsimp only
  repeat' first
    | with_reducible assumption
    | with_reducible apply presented_keeps
    | with_reducible apply setSource_keeps
    | with_reducible apply foldl_keeps
    | (intro y s hs; try dsimp only)
    | (intro s hs; try dsimp only)
    | split
    | (simp only [keeps_mk]; with_reducible refine keeps_fields ?_)

theorem count_sysKept {a : State} {x0 : State} {x1 : Nat} {x2 : Nat} {x3 : Nat} {x4 : optParam Nat 1}
    (h0 : SysKept a x0) :
    SysKept a (State.count x0 x1 x2 x3 x4) := by
  unfold State.count
  try dsimp only
  repeat' first
    | with_reducible assumption
    | with_reducible apply fire_sysKept
    | with_reducible apply foldl_sys
    | (intro y s hs; try dsimp only)
    | (intro s hs; try dsimp only)
    | split
    | (simp only [sys_mk]; with_reducible refine sys_fields ?_)

theorem count_keeps {a : State} {x0 : State} {x1 : Nat} {x2 : Nat} {x3 : Nat} {x4 : optParam Nat 1}
    (h0 : Keeps a x0) :
    Keeps a (State.count x0 x1 x2 x3 x4) := by
  unfold State.count
  try dsimp only
  repeat' first
    | with_reducible assumption
    | with_reducible apply fire_keeps
    | with_reducible apply foldl_keeps
    | (intro y s hs; try dsimp only)
    | (intro s hs; try dsimp only)
    | split
    | (simp only [keeps_mk]; with_reducible refine keeps_fields ?_)

theorem freeNat_keeps {a : State} {x0 : State}
    (h0 : Keeps a x0) :
    Keeps a (State.freeNat x0).2 := by
  unfold State.freeNat
  try dsimp only
  repeat' first
    | with_reducible assumption
    | with_reducible apply foldl_keeps
    | (intro y s hs; try dsimp only)
    | (intro s hs; try dsimp only)
    | split
    | (simp only [keeps_mk]; with_reducible refine keeps_fields ?_)

theorem setHouse_keeps {a s : State} {x : Nat} {v : House} (h : Keeps a s) : Keeps a (s.setHouse x v) := by
  unfold State.setHouse
  split
  · simp only [keeps_mk]
    refine ⟨fun y => ⟨(h.1 y).1, (h.1 y).2.1, (h.1 y).2.2.1, ?_, (h.1 y).2.2.2.2⟩, h.2⟩
    split <;> rfl
  · exact h

theorem setOutRaster_keeps {a : State} {x0 : State} {x1 : Nat} {x2 : Option OutRaster}
    (h0 : Keeps a x0) :
    Keeps a (State.setOutRaster x0 x1 x2) := by
  unfold State.setOutRaster
  try dsimp only
  repeat' first
    | with_reducible assumption
    | with_reducible apply foldl_keeps
    | (intro y s hs; try dsimp only)
    | (intro s hs; try dsimp only)
    | split
    | (simp only [keeps_mk]; with_reducible refine keeps_fields ?_)

theorem sramWrite_keeps {a s : State} {x : Nat} {bs : List Byte} (h : Keeps a s) : Keeps a (s.sramWrite x bs) :=
  ⟨fun y => ⟨⟨(h.1 y).1.1, (h.1 y).1.2.1, memWf_mwrite _ _ _ _ (h.1 y).1.2.2⟩, (h.1 y).2⟩, h.2⟩

theorem deliver_keeps {a : State} {x0 : State} {x1 : Nat} {x2 : Sys2Proof.Res} {x3 : List Sys2Proof.Byte}
    (h0 : Keeps a x0) :
    Keeps a (State.deliver x0 x1 x2 x3) := by
  unfold State.deliver
  try dsimp only
  repeat' first
    | with_reducible assumption
    | with_reducible apply sramWrite_keeps
    | with_reducible apply emit_keeps
    | with_reducible apply foldl_keeps
    | (intro y s hs; try dsimp only)
    | (intro s hs; try dsimp only)
    | split
    | (simp only [keeps_mk]; with_reducible refine keeps_fields ?_)

theorem setQueue_keeps {a s : State} {q : Nat} {x : Queue} (h : Keeps a s) : Keeps a (s.setQueue q x) :=
  ⟨fun y => ⟨(h.1 y).1, (h.1 y).2.1, (h.1 y).2.2.1, (h.1 y).2.2.2.1, tblWf_fset _ _ _ _ (h.1 y).2.2.2.2⟩, h.2⟩

theorem putEntry_keeps {a : State} {x0 : State} {x1 : Nat} {x2 : Reply}
    (h0 : Keeps a x0) :
    Keeps a (State.putEntry x0 x1 x2) := by
  unfold State.putEntry
  try dsimp only
  repeat' first
    | with_reducible assumption
    | with_reducible apply setQueue_keeps
    | with_reducible apply sramWrite_keeps
    | with_reducible apply fire_keeps
    | with_reducible apply emit_keeps
    | with_reducible apply msixSend_keeps
    | with_reducible apply foldl_keeps
    | (intro y s hs; try dsimp only)
    | (intro s hs; try dsimp only)
    | split
    | (simp only [keeps_mk]; with_reducible refine keeps_fields ?_)

theorem post_keeps {a : State} {x0 : State} {x1 : Nat} {x2 : Reply}
    (h0 : Keeps a x0) :
    Keeps a (State.post x0 x1 x2) := by
  unfold State.post
  try dsimp only
  repeat' first
    | with_reducible assumption
    | with_reducible apply putEntry_keeps
    | with_reducible apply setQueue_keeps
    | with_reducible apply foldl_keeps
    | (intro y s hs; try dsimp only)
    | (intro s hs; try dsimp only)
    | split
    | (simp only [keeps_mk]; with_reducible refine keeps_fields ?_)

theorem reply_keeps {a : State} {x0 : State} {x1 : Nat} {x2 : Nat} {x3 : Nat} {x4 : Nat} {x5 : Nat} {x6 : Option Nat}
    (h0 : Keeps a x0) :
    Keeps a (State.reply x0 x1 x2 x3 x4 x5 x6) := by
  unfold State.reply
  try dsimp only
  repeat' first
    | with_reducible assumption
    | with_reducible apply post_keeps
    | with_reducible apply foldl_keeps
    | (intro y s hs; try dsimp only)
    | (intro s hs; try dsimp only)
    | split
    | (simp only [keeps_mk]; with_reducible refine keeps_fields ?_)

theorem replyResult_keeps {a : State} {x0 : State} {x1 : Nat} {x2 : Nat} {x3 : Nat} {x4 : Nat} {x5 : Sys2Proof.Res} {x6 : List Sys2Proof.Byte} {x7 : Option Nat}
    (h0 : Keeps a x0) :
    Keeps a (State.replyResult x0 x1 x2 x3 x4 x5 x6 x7) := by
  unfold State.replyResult
  try dsimp only
  repeat' first
    | with_reducible assumption
    | with_reducible apply deliver_keeps
    | with_reducible apply reply_keeps
    | with_reducible apply foldl_keeps
    | (intro y s hs; try dsimp only)
    | (intro s hs; try dsimp only)
    | split
    | (simp only [keeps_mk]; with_reducible refine keeps_fields ?_)

theorem finishStop_keeps {a : State} {x0 : State} {x1 : Nat}
    (h0 : Keeps a x0) :
    Keeps a (State.finishStop x0 x1) := by
  unfold State.finishStop
  try dsimp only
  repeat' first
    | with_reducible assumption
    | with_reducible apply setQueue_keeps
    | with_reducible apply foldl_keeps
    | (intro y s hs; try dsimp only)
    | (intro s hs; try dsimp only)
    | split
    | (simp only [keeps_mk]; with_reducible refine keeps_fields ?_)

theorem markDone_keeps {a : State} {x0 : State} {x1 : Nat} {x2 : Nat}
    (h0 : Keeps a x0) :
    Keeps a (State.markDone x0 x1 x2) := by
  unfold State.markDone
  try dsimp only
  repeat' first
    | with_reducible assumption
    | with_reducible apply setQueue_keeps
    | with_reducible apply foldl_keeps
    | (intro y s hs; try dsimp only)
    | (intro s hs; try dsimp only)
    | split
    | (simp only [keeps_mk]; with_reducible refine keeps_fields ?_)

theorem complete_keeps {a s : State} {j : Job} {st d : Nat} {r : Option Nat} (h : Keeps a s) : Keeps a (s.complete j st d r) := by
  unfold State.complete
  have h1 : Keeps a { s with jobs := s.jobs.filter fun x => x.id != j.id } := by
    simp only [keeps_mk]
    exact keeps_fields_jobs jobs_filter h
  dsimp only
  repeat' first
    | with_reducible assumption
    | with_reducible apply finishStop_keeps
    | with_reducible apply markDone_keeps
    | with_reducible apply replyResult_keeps
    | with_reducible apply reply_keeps
    | split

theorem completeId_keeps {a : State} {x0 : State} {x1 : Nat} {x2 : Nat} {x3 : Nat} {x4 : Option Nat}
    (h0 : Keeps a x0) :
    Keeps a (State.completeId x0 x1 x2 x3 x4) := by
  unfold State.completeId
  try dsimp only
  repeat' first
    | with_reducible assumption
    | with_reducible apply complete_keeps
    | with_reducible apply foldl_keeps
    | (intro y s hs; try dsimp only)
    | (intro s hs; try dsimp only)
    | split
    | (simp only [keeps_mk]; with_reducible refine keeps_fields ?_)

theorem completeAll_keeps {a s : State} {st d : Nat} {r : Option Nat} {l : List Nat} (h : Keeps a s) :
    Keeps a (s.completeAll st d r l) := by
  induction l generalizing s with
  | nil => exact h
  | cons x l ih => exact ih (completeId_keeps h)

theorem completeWhere_keeps {a : State} {x0 : State} {x1 : Job → Bool} {x2 : Nat} {x3 : Nat} {x4 : Option Nat}
    (h0 : Keeps a x0) :
    Keeps a (State.completeWhere x0 x1 x2 x3 x4) := by
  unfold State.completeWhere
  try dsimp only
  repeat' first
    | with_reducible assumption
    | with_reducible apply completeAll_keeps
    | with_reducible apply foldl_keeps
    | (intro y s hs; try dsimp only)
    | (intro s hs; try dsimp only)
    | split
    | (simp only [keeps_mk]; with_reducible refine keeps_fields ?_)

theorem setJob_keeps {a s : State} {j : Job} (h : Keeps a s) : Keeps a (s.setJob j) := by
  unfold State.setJob
  simp only [keeps_mk]
  refine keeps_fields_jobs (jobs_map ?_) h
  intro x
  split
  · exact Eq.symm (by assumption)
  · rfl

theorem latchFault_keeps {a s : State} {x u d : Nat} (h : Keeps a s) : Keeps a (s.latchFault x u d) := by
  unfold State.latchFault
  split
  · exact h
  · apply fire_keeps
    exact ⟨fun y => ⟨(h.1 y).1, (h.1 y).2.1, ⟨fun _ => rfl, (h.1 y).2.2.1.2⟩, (h.1 y).2.2.2⟩, h.2⟩

theorem flushReplies_keeps {a s : State} {q : Nat} {l : List Reply} (h : Keeps a s) : Keeps a (s.flushReplies q l) := by
  induction l generalizing s with
  | nil => exact h
  | cons r l ih =>
    unfold State.flushReplies
    dsimp only
    split
    · exact ih (putEntry_keeps (setQueue_keeps h))
    · exact h

theorem pondWrite_keeps {a s : State} {x : Nat} {bs : List Byte} (h : Keeps a s) : Keeps a (s.pondWrite x bs) :=
  ⟨fun y => ⟨⟨memWf_mwrite _ _ _ _ (h.1 y).1.1, (h.1 y).1.2⟩, (h.1 y).2⟩, h.2⟩

theorem setSlotState_keeps {a : State} {x0 : State} {x1 : Nat} {x2 : Nat}
    (h0 : Keeps a x0) :
    Keeps a (State.setSlotState x0 x1 x2) := by
  unfold State.setSlotState
  try dsimp only
  repeat' first
    | with_reducible assumption
    | with_reducible apply pondWrite_keeps
    | with_reducible apply foldl_keeps
    | (intro y s hs; try dsimp only)
    | (intro s hs; try dsimp only)
    | split
    | (simp only [keeps_mk]; with_reducible refine keeps_fields ?_)

theorem failSlots_keeps {a : State} {x0 : List Nat} {x1 : State}
    (h1 : Keeps a x1) :
    Keeps a (State.failSlots x0 x1) := by
  unfold State.failSlots
  try dsimp only
  repeat' first
    | with_reducible assumption
    | with_reducible apply each_keeps
    | with_reducible apply setSlotState_keeps
    | with_reducible apply foldl_keeps
    | (intro y s hs; try dsimp only)
    | (intro s hs; try dsimp only)
    | split
    | (simp only [keeps_mk]; with_reducible refine keeps_fields ?_)

theorem resetVectors_keeps {a : State} {x0 : State} {x1 : List Nat}
    (h0 : Keeps a x0) :
    Keeps a (State.resetVectors x0 x1) := by
  unfold State.resetVectors
  try dsimp only
  repeat' first
    | with_reducible assumption
    | with_reducible apply each_keeps
    | with_reducible apply pondWrite_keeps
    | with_reducible apply foldl_keeps
    | (intro y s hs; try dsimp only)
    | (intro s hs; try dsimp only)
    | split
    | (simp only [keeps_mk]; with_reducible refine keeps_fields ?_)

theorem closeSlot_keeps {a : State} {x0 : State} {x1 : Nat} {x2 : Bool} {x3 : Sys2Proof.Tick}
    (h0 : Keeps a x0) :
    Keeps a (State.closeSlot x0 x1 x2 x3) := by
  unfold State.closeSlot
  try dsimp only
  repeat' first
    | with_reducible assumption
    | with_reducible apply setSlotState_keeps
    | with_reducible apply pondWrite_keeps
    | with_reducible apply foldl_keeps
    | (intro y s hs; try dsimp only)
    | (intro s hs; try dsimp only)
    | split
    | (simp only [keeps_mk]; with_reducible refine keeps_fields ?_)

theorem openSlot_keeps {a : State} {x0 : State} {x1 : Nat} {x2 : Nat} {x3 : Nat}
    (h0 : Keeps a x0) :
    Keeps a (State.openSlot x0 x1 x2 x3) := by
  unfold State.openSlot
  try dsimp only
  repeat' first
    | with_reducible assumption
    | with_reducible apply pondWrite_keeps
    | with_reducible apply foldl_keeps
    | (intro y s hs; try dsimp only)
    | (intro s hs; try dsimp only)
    | split
    | (simp only [keeps_mk]; with_reducible refine keeps_fields ?_)

theorem dropHistory_keeps {a : State} {x0 : State} {x1 : Nat}
    (h0 : Keeps a x0) :
    Keeps a (State.dropHistory x0 x1) := by
  unfold State.dropHistory
  try dsimp only
  repeat' first
    | with_reducible assumption
    | with_reducible apply failSlots_keeps
    | with_reducible apply resetVectors_keeps
    | with_reducible apply foldl_keeps
    | (intro y s hs; try dsimp only)
    | (intro s hs; try dsimp only)
    | split
    | (simp only [keeps_mk]; with_reducible refine keeps_fields ?_)

theorem setRx_sysKept {a : State} {x0 : State} {x1 : Nat} {x2 : RxDir}
    (h0 : SysKept a x0) :
    SysKept a (State.setRx x0 x1 x2) := by
  unfold State.setRx
  try dsimp only
  repeat' first
    | with_reducible assumption
    | with_reducible apply foldl_sys
    | (intro y s hs; try dsimp only)
    | (intro s hs; try dsimp only)
    | split
    | (simp only [sys_mk]; with_reducible refine sys_fields ?_)

theorem setRx_keeps {a : State} {x0 : State} {x1 : Nat} {x2 : RxDir}
    (h0 : Keeps a x0) :
    Keeps a (State.setRx x0 x1 x2) := by
  unfold State.setRx
  try dsimp only
  repeat' first
    | with_reducible assumption
    | with_reducible apply foldl_keeps
    | (intro y s hs; try dsimp only)
    | (intro s hs; try dsimp only)
    | split
    | (simp only [keeps_mk]; with_reducible refine keeps_fields ?_)

theorem setRxLane_sysKept {a : State} {x0 : State} {x1 : Nat} {x2 : Nat} {x3 : RxLane}
    (h0 : SysKept a x0) :
    SysKept a (State.setRxLane x0 x1 x2 x3) := by
  unfold State.setRxLane
  try dsimp only
  repeat' first
    | with_reducible assumption
    | with_reducible apply setRx_sysKept
    | with_reducible apply foldl_sys
    | (intro y s hs; try dsimp only)
    | (intro s hs; try dsimp only)
    | split
    | (simp only [sys_mk]; with_reducible refine sys_fields ?_)

theorem setRxLane_keeps {a : State} {x0 : State} {x1 : Nat} {x2 : Nat} {x3 : RxLane}
    (h0 : Keeps a x0) :
    Keeps a (State.setRxLane x0 x1 x2 x3) := by
  unfold State.setRxLane
  try dsimp only
  repeat' first
    | with_reducible assumption
    | with_reducible apply setRx_keeps
    | with_reducible apply foldl_keeps
    | (intro y s hs; try dsimp only)
    | (intro s hs; try dsimp only)
    | split
    | (simp only [keeps_mk]; with_reducible refine keeps_fields ?_)

theorem adaptLane_keeps {a : State} {x0 : State} {x1 : Nat} {x2 : Nat}
    (h0 : Keeps a x0) :
    Keeps a (State.adaptLane x0 x1 x2) := by
  unfold State.adaptLane
  try dsimp only
  repeat' first
    | with_reducible assumption
    | with_reducible apply freeNat_keeps
    | with_reducible apply setRxLane_keeps
    | refine keeps_pair (by assumption) ?_
    | with_reducible apply foldl_keeps
    | (intro y s hs; try dsimp only)
    | (intro s hs; try dsimp only)
    | split
    | (simp only [keeps_mk]; with_reducible refine keeps_fields ?_)

theorem adapt_keeps {a : State} {x0 : State} {x1 : Nat} {x2 : List Nat} {x3 : Bool}
    (h0 : Keeps a x0) :
    Keeps a (State.adapt x0 x1 x2 x3) := by
  unfold State.adapt
  try dsimp only
  repeat' first
    | with_reducible assumption
    | with_reducible apply each_keeps
    | with_reducible apply adaptLane_keeps
    | with_reducible apply foldl_keeps
    | (intro y s hs; try dsimp only)
    | (intro s hs; try dsimp only)
    | split
    | (simp only [keeps_mk]; with_reducible refine keeps_fields ?_)

theorem adaptFir_keeps {a : State} {x0 : State} {x1 : Nat} {x2 : Nat}
    (h0 : Keeps a x0) :
    Keeps a (State.adaptFir x0 x1 x2) := by
  unfold State.adaptFir
  try dsimp only
  repeat' first
    | with_reducible assumption
    | with_reducible apply adaptLane_keeps
    | with_reducible apply freeNat_keeps
    | with_reducible apply setRxLane_keeps
    | refine keeps_pair (by assumption) ?_
    | with_reducible apply foldl_keeps
    | (intro y s hs; try dsimp only)
    | (intro s hs; try dsimp only)
    | split
    | (simp only [keeps_mk]; with_reducible refine keeps_fields ?_)

theorem setRxStream_keeps {a : State} {x0 : State} {x1 : Nat} {x2 : Option RxStream}
    (h0 : Keeps a x0) :
    Keeps a (State.setRxStream x0 x1 x2) := by
  unfold State.setRxStream
  try dsimp only
  repeat' first
    | with_reducible assumption
    | with_reducible apply foldl_keeps
    | (intro y s hs; try dsimp only)
    | (intro s hs; try dsimp only)
    | split
    | (simp only [keeps_mk]; with_reducible refine keeps_fields ?_)

theorem rxEvent_sysKept {a : State} {x0 : State} {x1 : Nat}
    (h0 : SysKept a x0) :
    SysKept a (State.rxEvent x0 x1) := by
  unfold State.rxEvent
  try dsimp only
  repeat' first
    | with_reducible assumption
    | with_reducible apply fire_sysKept
    | with_reducible apply foldl_sys
    | (intro y s hs; try dsimp only)
    | (intro s hs; try dsimp only)
    | split
    | (simp only [sys_mk]; with_reducible refine sys_fields ?_)

theorem rxEvent_keeps {a : State} {x0 : State} {x1 : Nat}
    (h0 : Keeps a x0) :
    Keeps a (State.rxEvent x0 x1) := by
  unfold State.rxEvent
  try dsimp only
  repeat' first
    | with_reducible assumption
    | with_reducible apply fire_keeps
    | with_reducible apply foldl_keeps
    | (intro y s hs; try dsimp only)
    | (intro s hs; try dsimp only)
    | split
    | (simp only [keeps_mk]; with_reducible refine keeps_fields ?_)

theorem stopWriters_keeps {a : State} {x0 : State} {x1 : Nat}
    (h0 : Keeps a x0) :
    Keeps a (State.stopWriters x0 x1) := by
  unfold State.stopWriters
  try dsimp only
  repeat' first
    | with_reducible assumption
    | with_reducible apply failSlots_keeps
    | with_reducible apply resetVectors_keeps
    | with_reducible apply foldl_keeps
    | (intro y s hs; try dsimp only)
    | (intro s hs; try dsimp only)
    | split
    | (simp only [keeps_mk]; with_reducible refine keeps_fields ?_)

theorem withdraw_keeps {a : State} {x0 : State} {x1 : Nat}
    (h0 : Keeps a x0) :
    Keeps a (State.withdraw x0 x1) := by
  unfold State.withdraw
  try dsimp only
  repeat' first
    | with_reducible assumption
    | with_reducible apply rxEvent_keeps
    | with_reducible apply stopWriters_keeps
    | with_reducible apply count_keeps
    | with_reducible apply setRxStream_keeps
    | with_reducible apply foldl_keeps
    | (intro y s hs; try dsimp only)
    | (intro s hs; try dsimp only)
    | split
    | (simp only [keeps_mk]; with_reducible refine keeps_fields ?_)

theorem endOld_keeps {a : State} {x0 : State} {x1 : Nat} {x2 : RxStream}
    (h0 : Keeps a x0) :
    Keeps a (State.endOld x0 x1 x2) := by
  unfold State.endOld
  try dsimp only
  repeat' first
    | with_reducible assumption
    | with_reducible apply rxEvent_keeps
    | with_reducible apply count_keeps
    | with_reducible apply setRxStream_keeps
    | with_reducible apply foldl_keeps
    | (intro y s hs; try dsimp only)
    | (intro s hs; try dsimp only)
    | split
    | (simp only [keeps_mk]; with_reducible refine keeps_fields ?_)

theorem setTx_sysKept {a : State} {x0 : State} {x1 : Nat} {x2 : TxDir}
    (h0 : SysKept a x0) :
    SysKept a (State.setTx x0 x1 x2) := by
  unfold State.setTx
  try dsimp only
  repeat' first
    | with_reducible assumption
    | with_reducible apply foldl_sys
    | (intro y s hs; try dsimp only)
    | (intro s hs; try dsimp only)
    | split
    | (simp only [sys_mk]; with_reducible refine sys_fields ?_)

theorem setTx_keeps {a : State} {x0 : State} {x1 : Nat} {x2 : TxDir}
    (h0 : Keeps a x0) :
    Keeps a (State.setTx x0 x1 x2) := by
  unfold State.setTx
  try dsimp only
  repeat' first
    | with_reducible assumption
    | with_reducible apply foldl_keeps
    | (intro y s hs; try dsimp only)
    | (intro s hs; try dsimp only)
    | split
    | (simp only [keeps_mk]; with_reducible refine keeps_fields ?_)

theorem setTxStream_keeps {a : State} {x0 : State} {x1 : Nat} {x2 : Option TxStream}
    (h0 : Keeps a x0) :
    Keeps a (State.setTxStream x0 x1 x2) := by
  unfold State.setTxStream
  try dsimp only
  repeat' first
    | with_reducible assumption
    | with_reducible apply foldl_keeps
    | (intro y s hs; try dsimp only)
    | (intro s hs; try dsimp only)
    | split
    | (simp only [keeps_mk]; with_reducible refine keeps_fields ?_)

theorem withdrawAll_keeps {a : State} {x0 : State} {x1 : Nat} {x2 : WithdrawFor}
    (h0 : Keeps a x0) :
    Keeps a (State.withdrawAll x0 x1 x2) := by
  unfold State.withdrawAll
  try dsimp only
  repeat' first
    | with_reducible assumption
    | with_reducible apply each_keeps
    | with_reducible apply setTx_keeps
    | with_reducible apply foldl_keeps
    | (intro y s hs; try dsimp only)
    | (intro s hs; try dsimp only)
    | split
    | (simp only [keeps_mk]; with_reducible refine keeps_fields ?_)

theorem laneTo_sysKept {a : State} {x0 : State} {x1 : Nat} {x2 : Nat} {x3 : LaneSt}
    (h0 : SysKept a x0) :
    SysKept a (State.laneTo x0 x1 x2 x3) := by
  unfold State.laneTo
  try dsimp only
  repeat' first
    | with_reducible assumption
    | with_reducible apply setRxLane_sysKept
    | with_reducible apply rxEvent_sysKept
    | with_reducible apply count_sysKept
    | with_reducible apply foldl_sys
    | (intro y s hs; try dsimp only)
    | (intro s hs; try dsimp only)
    | split
    | (simp only [sys_mk]; with_reducible refine sys_fields ?_)

theorem laneTo_keeps {a : State} {x0 : State} {x1 : Nat} {x2 : Nat} {x3 : LaneSt}
    (h0 : Keeps a x0) :
    Keeps a (State.laneTo x0 x1 x2 x3) := by
  unfold State.laneTo
  try dsimp only
  repeat' first
    | with_reducible assumption
    | with_reducible apply setRxLane_keeps
    | with_reducible apply rxEvent_keeps
    | with_reducible apply count_keeps
    | with_reducible apply foldl_keeps
    | (intro y s hs; try dsimp only)
    | (intro s hs; try dsimp only)
    | split
    | (simp only [keeps_mk]; with_reducible refine keeps_fields ?_)

theorem lanesIdle_sysKept {a : State} {x0 : State} {x1 : Nat}
    (h0 : SysKept a x0) :
    SysKept a (State.lanesIdle x0 x1) := by
  unfold State.lanesIdle
  try dsimp only
  repeat' first
    | with_reducible assumption
    | with_reducible apply each_sysKept
    | with_reducible apply laneTo_sysKept
    | with_reducible apply foldl_sys
    | (intro y s hs; try dsimp only)
    | (intro s hs; try dsimp only)
    | split
    | (simp only [sys_mk]; with_reducible refine sys_fields ?_)

theorem lanesIdle_keeps {a : State} {x0 : State} {x1 : Nat}
    (h0 : Keeps a x0) :
    Keeps a (State.lanesIdle x0 x1) := by
  unfold State.lanesIdle
  try dsimp only
  repeat' first
    | with_reducible assumption
    | with_reducible apply each_keeps
    | with_reducible apply laneTo_keeps
    | with_reducible apply foldl_keeps
    | (intro y s hs; try dsimp only)
    | (intro s hs; try dsimp only)
    | split
    | (simp only [keeps_mk]; with_reducible refine keeps_fields ?_)

theorem txStart_sysKept {a : State} {x0 : State} {x1 : Nat}
    (h0 : SysKept a x0) :
    SysKept a (State.txStart x0 x1) := by
  unfold State.txStart
  try dsimp only
  repeat' first
    | with_reducible assumption
    | with_reducible apply setTx_sysKept
    | with_reducible apply foldl_sys
    | (intro y s hs; try dsimp only)
    | (intro s hs; try dsimp only)
    | split
    | (simp only [sys_mk]; with_reducible refine sys_fields ?_)

theorem txStart_keeps {a : State} {x0 : State} {x1 : Nat}
    (h0 : Keeps a x0) :
    Keeps a (State.txStart x0 x1) := by
  unfold State.txStart
  try dsimp only
  repeat' first
    | with_reducible assumption
    | with_reducible apply setTx_keeps
    | with_reducible apply foldl_keeps
    | (intro y s hs; try dsimp only)
    | (intro s hs; try dsimp only)
    | split
    | (simp only [keeps_mk]; with_reducible refine keeps_fields ?_)

theorem lanesHunt_sysKept {a : State} {x0 : State} {x1 : Nat}
    (h0 : SysKept a x0) :
    SysKept a (State.lanesHunt x0 x1) := by
  unfold State.lanesHunt
  try dsimp only
  repeat' first
    | with_reducible assumption
    | with_reducible apply each_sysKept
    | with_reducible apply laneTo_sysKept
    | with_reducible apply foldl_sys
    | (intro y s hs; try dsimp only)
    | (intro s hs; try dsimp only)
    | split
    | (simp only [sys_mk]; with_reducible refine sys_fields ?_)

theorem lanesHunt_keeps {a : State} {x0 : State} {x1 : Nat}
    (h0 : Keeps a x0) :
    Keeps a (State.lanesHunt x0 x1) := by
  unfold State.lanesHunt
  try dsimp only
  repeat' first
    | with_reducible assumption
    | with_reducible apply each_keeps
    | with_reducible apply laneTo_keeps
    | with_reducible apply foldl_keeps
    | (intro y s hs; try dsimp only)
    | (intro s hs; try dsimp only)
    | split
    | (simp only [keeps_mk]; with_reducible refine keeps_fields ?_)

theorem reacquire_sysKept {a : State} {x0 : State} {x1 : Nat}
    (h0 : SysKept a x0) :
    SysKept a (State.reacquire x0 x1) := by
  unfold State.reacquire
  try dsimp only
  repeat' first
    | with_reducible assumption
    | with_reducible apply lanesHunt_sysKept
    | with_reducible apply lanesIdle_sysKept
    | with_reducible apply foldl_sys
    | (intro y s hs; try dsimp only)
    | (intro s hs; try dsimp only)
    | split
    | (simp only [sys_mk]; with_reducible refine sys_fields ?_)

theorem reacquire_keeps {a : State} {x0 : State} {x1 : Nat}
    (h0 : Keeps a x0) :
    Keeps a (State.reacquire x0 x1) := by
  unfold State.reacquire
  try dsimp only
  repeat' first
    | with_reducible assumption
    | with_reducible apply lanesHunt_keeps
    | with_reducible apply lanesIdle_keeps
    | with_reducible apply foldl_keeps
    | (intro y s hs; try dsimp only)
    | (intro s hs; try dsimp only)
    | split
    | (simp only [keeps_mk]; with_reducible refine keeps_fields ?_)

theorem leaveTest_sysKept {a : State} {x0 : State}
    (h0 : SysKept a x0) :
    SysKept a (State.leaveTest x0) := by
  unfold State.leaveTest
  try dsimp only
  repeat' first
    | with_reducible assumption
    | with_reducible apply each_sysKept
    | with_reducible apply setRx_sysKept
    | with_reducible apply setTx_sysKept
    | with_reducible apply txStart_sysKept
    | with_reducible apply reacquire_sysKept
    | with_reducible apply foldl_sys
    | (intro y s hs; try dsimp only)
    | (intro s hs; try dsimp only)
    | split
    | (simp only [sys_mk]; with_reducible refine sys_fields ?_)

theorem leaveTest_keeps {a : State} {x0 : State}
    (h0 : Keeps a x0) :
    Keeps a (State.leaveTest x0) := by
  unfold State.leaveTest
  try dsimp only
  repeat' first
    | with_reducible assumption
    | with_reducible apply each_keeps
    | with_reducible apply setRx_keeps
    | with_reducible apply setTx_keeps
    | with_reducible apply txStart_keeps
    | with_reducible apply reacquire_keeps
    | with_reducible apply foldl_keeps
    | (intro y s hs; try dsimp only)
    | (intro s hs; try dsimp only)
    | split
    | (simp only [keeps_mk]; with_reducible refine keeps_fields ?_)

theorem dropRound_keeps {a : State} {x0 : State} {x1 : Nat}
    (h0 : Keeps a x0) :
    Keeps a (State.dropRound x0 x1) := by
  unfold State.dropRound
  try dsimp only
  repeat' first
    | with_reducible assumption
    | with_reducible apply setRx_keeps
    | with_reducible apply completeWhere_keeps
    | with_reducible apply foldl_keeps
    | (intro y s hs; try dsimp only)
    | (intro s hs; try dsimp only)
    | split
    | (simp only [keeps_mk]; with_reducible refine keeps_fields ?_)

theorem reseed_keeps {a : State} {x0 : State} {x1 : Nat}
    (h0 : Keeps a x0) :
    Keeps a (State.reseed x0 x1) := by
  unfold State.reseed
  try dsimp only
  repeat' first
    | with_reducible assumption
    | with_reducible apply each_keeps
    | with_reducible apply laneTo_keeps
    | with_reducible apply foldl_keeps
    | (intro y s hs; try dsimp only)
    | (intro s hs; try dsimp only)
    | split
    | (simp only [keeps_mk]; with_reducible refine keeps_fields ?_)

theorem setRxBundle_keeps {a : State} {x0 : Sys2Proof.BundleSetP} {x1 : State}
    (h1 : Keeps a x1) :
    Keeps a (setRxBundle x0 x1) := by
  unfold setRxBundle
  try dsimp only
  repeat' first
    | with_reducible assumption
    | with_reducible apply dropRound_keeps
    | with_reducible apply setRx_keeps
    | with_reducible apply lanesIdle_keeps
    | with_reducible apply each_keeps
    | with_reducible apply laneTo_keeps
    | with_reducible apply reseed_keeps
    | with_reducible apply lanesHunt_keeps
    | with_reducible apply foldl_keeps
    | (intro y s hs; try dsimp only)
    | (intro s hs; try dsimp only)
    | split
    | (simp only [keeps_mk]; with_reducible refine keeps_fields ?_)

theorem setTxBundle_keeps {a : State} {x0 : Sys2Proof.BundleSetP} {x1 : State}
    (h1 : Keeps a x1) :
    Keeps a (setTxBundle x0 x1) := by
  unfold setTxBundle
  try dsimp only
  repeat' first
    | with_reducible assumption
    | with_reducible apply setTx_keeps
    | with_reducible apply txStart_keeps
    | with_reducible apply foldl_keeps
    | (intro y s hs; try dsimp only)
    | (intro s hs; try dsimp only)
    | split
    | (simp only [keeps_mk]; with_reducible refine keeps_fields ?_)

theorem startBundleSet_keeps {a : State} {x0 : Sys2Proof.BundleSetP} {x1 : State}
    (h1 : Keeps a x1) :
    AnsKeeps a (startBundleSet x0 x1) := by
  unfold startBundleSet
  try dsimp only
  repeat' first
    | with_reducible assumption
    | with_reducible apply setRxBundle_keeps
    | with_reducible apply setTxBundle_keeps
    | with_reducible apply orAns_keeps
    | exact ans_fail
    | with_reducible apply ans_done
    | with_reducible apply ans_result
    | with_reducible apply ans_later
    | with_reducible apply ans_silent
    | with_reducible apply foldl_keeps
    | (intro y s hs; try dsimp only)
    | (intro s hs; try dsimp only)
    | split
    | (simp only [keeps_mk]; with_reducible refine keeps_fields ?_)

theorem startBundleStatus_keeps {a : State} {x0 : Sys2Proof.BundleStatusP} {x1 : State}
    (h1 : Keeps a x1) :
    AnsKeeps a (startBundleStatus x0 x1) := by
  unfold startBundleStatus
  try dsimp only
  repeat' first
    | with_reducible assumption
    | with_reducible apply orAns_keeps
    | exact ans_fail
    | with_reducible apply ans_done
    | with_reducible apply ans_result
    | with_reducible apply ans_later
    | with_reducible apply ans_silent
    | with_reducible apply foldl_keeps
    | (intro y s hs; try dsimp only)
    | (intro s hs; try dsimp only)
    | split
    | (simp only [keeps_mk]; with_reducible refine keeps_fields ?_)

theorem setTxLane_keeps {a : State} {x0 : State} {x1 : Nat} {x2 : Nat} {x3 : TxLane}
    (h0 : Keeps a x0) :
    Keeps a (State.setTxLane x0 x1 x2 x3) := by
  unfold State.setTxLane
  try dsimp only
  repeat' first
    | with_reducible assumption
    | with_reducible apply setTx_keeps
    | with_reducible apply foldl_keeps
    | (intro y s hs; try dsimp only)
    | (intro s hs; try dsimp only)
    | split
    | (simp only [keeps_mk]; with_reducible refine keeps_fields ?_)

theorem askPartner_keeps {a : State} {x0 : State} {x1 : Nat} {x2 : Nat} {x3 : Nat} {x4 : Nat} {x5 : Nat} {x6 : Bool}
    (h0 : Keeps a x0) :
    Keeps a (State.askPartner x0 x1 x2 x3 x4 x5 x6) := by
  unfold State.askPartner
  try dsimp only
  repeat' first
    | with_reducible assumption
    | with_reducible apply setRxLane_keeps
    | with_reducible apply setTxLane_keeps
    | with_reducible apply foldl_keeps
    | (intro y s hs; try dsimp only)
    | (intro s hs; try dsimp only)
    | split
    | (simp only [keeps_mk]; with_reducible refine keeps_fields ?_)

theorem startBundleSleep_keeps {a : State} {x0 : Sys2Proof.BundleDirP} {x1 : State}
    (h1 : Keeps a x1) :
    AnsKeeps a (startBundleSleep x0 x1) := by
  unfold startBundleSleep
  try dsimp only
  repeat' first
    | with_reducible assumption
    | with_reducible apply lanesIdle_keeps
    | with_reducible apply dropRound_keeps
    | with_reducible apply setRx_keeps
    | with_reducible apply each_keeps
    | with_reducible apply askPartner_keeps
    | with_reducible apply setTx_keeps
    | with_reducible apply orAns_keeps
    | exact ans_fail
    | with_reducible apply ans_done
    | with_reducible apply ans_result
    | with_reducible apply ans_later
    | with_reducible apply ans_silent
    | with_reducible apply foldl_keeps
    | (intro y s hs; try dsimp only)
    | (intro s hs; try dsimp only)
    | split
    | (simp only [keeps_mk]; with_reducible refine keeps_fields ?_)

theorem startBundleWake_keeps {a : State} {x0 : Sys2Proof.BundleDirP} {x1 : State}
    (h1 : Keeps a x1) :
    AnsKeeps a (startBundleWake x0 x1) := by
  unfold startBundleWake
  try dsimp only
  repeat' first
    | with_reducible assumption
    | with_reducible apply orAns_keeps
    | exact ans_fail
    | with_reducible apply ans_done
    | with_reducible apply ans_result
    | with_reducible apply ans_later
    | with_reducible apply ans_silent
    | with_reducible apply foldl_keeps
    | (intro y s hs; try dsimp only)
    | (intro s hs; try dsimp only)
    | split
    | (simp only [keeps_mk]; with_reducible refine keeps_fields ?_)

theorem startLoopback_keeps {a : State} {x0 : Sys2Proof.LoopbackSetP} {x1 : State}
    (h1 : Keeps a x1) :
    AnsKeeps a (startLoopback x0 x1) := by
  unfold startLoopback
  try dsimp only
  repeat' first
    | with_reducible assumption
    | with_reducible apply dropRound_keeps
    | with_reducible apply setRx_keeps
    | with_reducible apply setTx_keeps
    | with_reducible apply reacquire_keeps
    | with_reducible apply txStart_keeps
    | with_reducible apply orAns_keeps
    | exact ans_fail
    | with_reducible apply ans_done
    | with_reducible apply ans_result
    | with_reducible apply ans_later
    | with_reducible apply ans_silent
    | with_reducible apply foldl_keeps
    | (intro y s hs; try dsimp only)
    | (intro s hs; try dsimp only)
    | split
    | (simp only [keeps_mk]; with_reducible refine keeps_fields ?_)

theorem startPrbs_keeps {a : State} {x0 : Sys2Proof.PrbsSetP} {x1 : State}
    (h1 : Keeps a x1) :
    AnsKeeps a (startPrbs x0 x1) := by
  unfold startPrbs
  try dsimp only
  repeat' first
    | with_reducible assumption
    | with_reducible apply lanesHunt_keeps
    | with_reducible apply each_keeps
    | with_reducible apply laneTo_keeps
    | with_reducible apply setRxLane_keeps
    | with_reducible apply dropRound_keeps
    | with_reducible apply setTx_keeps
    | with_reducible apply orAns_keeps
    | exact ans_fail
    | with_reducible apply ans_done
    | with_reducible apply ans_result
    | with_reducible apply ans_later
    | with_reducible apply ans_silent
    | with_reducible apply foldl_keeps
    | (intro y s hs; try dsimp only)
    | (intro s hs; try dsimp only)
    | split
    | (simp only [keeps_mk]; with_reducible refine keeps_fields ?_)

theorem queuePackets_keeps {a : State} {x0 : State} {x1 : Nat} {x2 : List (List Nat)}
    (h0 : Keeps a x0) :
    Keeps a (State.queuePackets x0 x1 x2) := by
  unfold State.queuePackets
  try dsimp only
  repeat' first
    | with_reducible assumption
    | with_reducible apply setTxStream_keeps
    | with_reducible apply foldl_keeps
    | (intro y s hs; try dsimp only)
    | (intro s hs; try dsimp only)
    | split
    | (simp only [keeps_mk]; with_reducible refine keeps_fields ?_)

theorem countLane_keeps {a : State} {x0 : State} {x1 : Nat} {x2 : Nat} {x3 : Sys2Proof.Superframe} {x4 : Bool} {x5 : Nat}
    (h0 : Keeps a x0) :
    Keeps a (State.countLane x0 x1 x2 x3 x4 x5) := by
  unfold State.countLane
  try dsimp only
  repeat' first
    | with_reducible assumption
    | with_reducible apply count_keeps
    | with_reducible apply foldl_keeps
    | (intro y s hs; try dsimp only)
    | (intro s hs; try dsimp only)
    | split
    | (simp only [keeps_mk]; with_reducible refine keeps_fields ?_)

theorem slip_keeps {a : State} {x0 : State} {x1 : Nat}
    (h0 : Keeps a x0) :
    Keeps a (State.slip x0 x1) := by
  unfold State.slip
  try dsimp only
  repeat' first
    | with_reducible assumption
    | with_reducible apply each_keeps
    | with_reducible apply count_keeps
    | with_reducible apply foldl_keeps
    | (intro y s hs; try dsimp only)
    | (intro s hs; try dsimp only)
    | split
    | (simp only [keeps_mk]; with_reducible refine keeps_fields ?_)

theorem loopIn_keeps {a : State} {x0 : State} {x1 : Nat} {x2 : Nat} {x3 : Sys2Proof.Superframe}
    (h0 : Keeps a x0) :
    Keeps a (State.loopIn x0 x1 x2 x3) := by
  unfold State.loopIn
  try dsimp only
  repeat' first
    | with_reducible assumption
    | with_reducible apply setTx_keeps
    | with_reducible apply slip_keeps
    | with_reducible apply foldl_keeps
    | (intro y s hs; try dsimp only)
    | (intro s hs; try dsimp only)
    | split
    | (simp only [keeps_mk]; with_reducible refine keeps_fields ?_)

theorem txIdle_keeps {a : State} {x0 : State} {x1 : Nat}
    (h0 : Keeps a x0) :
    Keeps a (State.txIdle x0 x1) := by
  unfold State.txIdle
  try dsimp only
  repeat' first
    | with_reducible assumption
    | with_reducible apply setTx_keeps
    | with_reducible apply foldl_keeps
    | (intro y s hs; try dsimp only)
    | (intro s hs; try dsimp only)
    | split
    | (simp only [keeps_mk]; with_reducible refine keeps_fields ?_)

theorem doClockLost_keeps {a : State} {x0 : Nat} {x1 : State}
    (h1 : Keeps a x1) :
    Keeps a (doClockLost x0 x1) := by
  unfold doClockLost
  try dsimp only
  repeat' first
    | with_reducible assumption
    | with_reducible apply lanesIdle_keeps
    | with_reducible apply setRx_keeps
    | with_reducible apply foldl_keeps
    | (intro y s hs; try dsimp only)
    | (intro s hs; try dsimp only)
    | split
    | (simp only [keeps_mk]; with_reducible refine keeps_fields ?_)

theorem doEnterSeed_keeps {a : State} {x0 : Nat} {x1 : Nat} {x2 : State}
    (h2 : Keeps a x2) :
    Keeps a (doEnterSeed x0 x1 x2) := by
  unfold doEnterSeed
  try dsimp only
  repeat' first
    | with_reducible assumption
    | with_reducible apply laneTo_keeps
    | with_reducible apply foldl_keeps
    | (intro y s hs; try dsimp only)
    | (intro s hs; try dsimp only)
    | split
    | (simp only [keeps_mk]; with_reducible refine keeps_fields ?_)

theorem doExactComma_keeps {a : State} {x0 : Nat} {x1 : Nat} {x2 : State}
    (h2 : Keeps a x2) :
    Keeps a (doExactComma x0 x1 x2) := by
  unfold doExactComma
  try dsimp only
  repeat' first
    | with_reducible assumption
    | with_reducible apply laneTo_keeps
    | with_reducible apply foldl_keeps
    | (intro y s hs; try dsimp only)
    | (intro s hs; try dsimp only)
    | split
    | (simp only [keeps_mk]; with_reducible refine keeps_fields ?_)

theorem doGroupBoundary_keeps {a : State} {x0 : Nat} {x1 : Nat} {x2 : State}
    (h2 : Keeps a x2) :
    Keeps a (doGroupBoundary x0 x1 x2) := by
  unfold doGroupBoundary
  try dsimp only
  repeat' first
    | with_reducible assumption
    | with_reducible apply setRxStream_keeps
    | with_reducible apply endOld_keeps
    | with_reducible apply rxEvent_keeps
    | with_reducible apply adapt_keeps
    | with_reducible apply withdraw_keeps
    | with_reducible apply foldl_keeps
    | (intro y s hs; try dsimp only)
    | (intro s hs; try dsimp only)
    | split
    | (simp only [keeps_mk]; with_reducible refine keeps_fields ?_)

theorem doLossOfLock_keeps {a : State} {x0 : Nat} {x1 : Nat} {x2 : State}
    (h2 : Keeps a x2) :
    Keeps a (doLossOfLock x0 x1 x2) := by
  unfold doLossOfLock
  try dsimp only
  repeat' first
    | with_reducible assumption
    | with_reducible apply laneTo_keeps
    | with_reducible apply foldl_keeps
    | (intro y s hs; try dsimp only)
    | (intro s hs; try dsimp only)
    | split
    | (simp only [keeps_mk]; with_reducible refine keeps_fields ?_)

theorem doMisconnection_keeps {a : State} {x0 : Nat} {x1 : Nat} {x2 : State}
    (h2 : Keeps a x2) :
    Keeps a (doMisconnection x0 x1 x2) := by
  unfold doMisconnection
  try dsimp only
  repeat' first
    | with_reducible assumption
    | with_reducible apply rxEvent_keeps
    | with_reducible apply setRxLane_keeps
    | with_reducible apply foldl_keeps
    | (intro y s hs; try dsimp only)
    | (intro s hs; try dsimp only)
    | split
    | (simp only [keeps_mk]; with_reducible refine keeps_fields ?_)

theorem doPrbsWindow_keeps {a : State} {x0 : Nat} {x1 : Nat} {x2 : List Bool} {x3 : State}
    (h3 : Keeps a x3) :
    Keeps a (doPrbsWindow x0 x1 x2 x3) := by
  unfold doPrbsWindow
  try dsimp only
  repeat' first
    | with_reducible assumption
    | with_reducible apply count_keeps
    | with_reducible apply setRxLane_keeps
    | with_reducible apply foldl_keeps
    | (intro y s hs; try dsimp only)
    | (intro s hs; try dsimp only)
    | split
    | (simp only [keeps_mk]; with_reducible refine keeps_fields ?_)

theorem doSleepComplete_keeps {a : State} {x0 : Nat} {x1 : Nat} {x2 : State}
    (h2 : Keeps a x2) :
    Keeps a (doSleepComplete x0 x1 x2) := by
  unfold doSleepComplete
  try dsimp only
  repeat' first
    | with_reducible assumption
    | with_reducible apply complete_keeps
    | with_reducible apply foldl_keeps
    | (intro y s hs; try dsimp only)
    | (intro s hs; try dsimp only)
    | split
    | (simp only [keeps_mk]; with_reducible refine keeps_fields ?_)

theorem doStreamPresent_keeps {a : State} {x0 : Nat} {x1 : State}
    (h1 : Keeps a x1) :
    Keeps a (doStreamPresent x0 x1) := by
  unfold doStreamPresent
  try dsimp only
  repeat' first
    | with_reducible assumption
    | with_reducible apply rxEvent_keeps
    | with_reducible apply setRxStream_keeps
    | with_reducible apply foldl_keeps
    | (intro y s hs; try dsimp only)
    | (intro s hs; try dsimp only)
    | split
    | (simp only [keeps_mk]; with_reducible refine keeps_fields ?_)

theorem doSuperframe_keeps {a : State} {x0 : Nat} {x1 : Nat} {x2 : Sys2Proof.Superframe} {x3 : State}
    (h3 : Keeps a x3) :
    Keeps a (doSuperframe x0 x1 x2 x3) := by
  unfold doSuperframe
  try dsimp only
  repeat' first
    | with_reducible assumption
    | with_reducible apply adaptFir_keeps
    | with_reducible apply adaptLane_keeps
    | with_reducible apply countLane_keeps
    | with_reducible apply setRxLane_keeps
    | with_reducible apply loopIn_keeps
    | with_reducible apply lanesIdle_keeps
    | with_reducible apply foldl_keeps
    | (intro y s hs; try dsimp only)
    | (intro s hs; try dsimp only)
    | split
    | (simp only [keeps_mk]; with_reducible refine keeps_fields ?_)

theorem doWakeComplete_keeps {a : State} {x0 : Nat → Nat → State → State} {x1 : Nat} {x2 : Nat} {x3 : State}
    (h0 : ∀ y0 y1 s, Keeps a s → Keeps a (x0 y0 y1 s)) (h3 : Keeps a x3) :
    Keeps a (doWakeComplete x0 x1 x2 x3) := by
  unfold doWakeComplete
  try dsimp only
  repeat' first
    | with_reducible assumption
    | with_reducible apply h0
    | with_reducible apply lanesHunt_keeps
    | with_reducible apply setRx_keeps
    | with_reducible apply txStart_keeps
    | with_reducible apply complete_keeps
    | with_reducible apply foldl_keeps
    | (intro y s hs; try dsimp only)
    | (intro s hs; try dsimp only)
    | split
    | (simp only [keeps_mk]; with_reducible refine keeps_fields ?_)

theorem queueAudit_keeps {a : State} {x0 : State} {x1 : AuditEntry}
    (h0 : Keeps a x0) :
    Keeps a (State.queueAudit x0 x1) := by
  unfold State.queueAudit
  try dsimp only
  repeat' first
    | with_reducible assumption
    | with_reducible apply fire_keeps
    | with_reducible apply count_keeps
    | with_reducible apply foldl_keeps
    | (intro y s hs; try dsimp only)
    | (intro s hs; try dsimp only)
    | split
    | (simp only [keeps_mk]; with_reducible refine keeps_fields ?_)

theorem audit_keeps {a : State} {x0 : State} {x1 : Nat} {x2 : Nat} {x3 : Nat} {x4 : Nat}
    (h0 : Keeps a x0) :
    Keeps a (State.audit x0 x1 x2 x3 x4) := by
  unfold State.audit
  try dsimp only
  repeat' first
    | with_reducible assumption
    | with_reducible apply queueAudit_keeps
    | with_reducible apply foldl_keeps
    | (intro y s hs; try dsimp only)
    | (intro s hs; try dsimp only)
    | split
    | (simp only [keeps_mk]; with_reducible refine keeps_fields ?_)

theorem nvIssue_keeps {a : State} {x0 : State} {x1 : NvWrite}
    (h0 : Keeps a x0) :
    Keeps a (State.nvIssue x0 x1) := by
  unfold State.nvIssue
  try dsimp only
  repeat' first
    | with_reducible assumption
    | with_reducible apply foldl_keeps
    | (intro y s hs; try dsimp only)
    | (intro s hs; try dsimp only)
    | split
    | (simp only [keeps_mk]; with_reducible refine keeps_fields ?_)

theorem nvPage_keeps {a : State} {x0 : State} {x1 : Nat} {x2 : Nat} {x3 : List Sys2Proof.Byte} {x4 : NvFor}
    (h0 : Keeps a x0) :
    Keeps a (State.nvPage x0 x1 x2 x3 x4) := by
  unfold State.nvPage
  try dsimp only
  repeat' first
    | with_reducible assumption
    | with_reducible apply nvIssue_keeps
    | with_reducible apply foldl_keeps
    | (intro y s hs; try dsimp only)
    | (intro s hs; try dsimp only)
    | split
    | (simp only [keeps_mk]; with_reducible refine keeps_fields ?_)

theorem nvMerge_keeps {a : State} {x0 : State} {x1 : Nat} {x2 : Nat} {x3 : List Sys2Proof.Byte} {x4 : NvFor}
    (h0 : Keeps a x0) :
    Keeps a (State.nvMerge x0 x1 x2 x3 x4) := by
  unfold State.nvMerge
  try dsimp only
  repeat' first
    | with_reducible assumption
    | with_reducible apply nvPage_keeps
    | with_reducible apply foldl_keeps
    | (intro y s hs; try dsimp only)
    | (intro s hs; try dsimp only)
    | split
    | (simp only [keeps_mk]; with_reducible refine keeps_fields ?_)

theorem nvStop_keeps {a s : State} {n : Nat} (h : Keeps a s) : Keeps a (s.nvStop n) := by
  unfold State.nvStop
  split
  · exact h
  · exact ⟨fun y => ⟨⟨(h.1 y).1.1, memWf_mwrite _ _ _ _ (h.1 y).1.2.1, (h.1 y).1.2.2⟩, (h.1 y).2⟩, h.2⟩

theorem startNvRead_keeps {a : State} {x0 : Sys2Proof.NvReadP} {x1 : State}
    (h1 : Keeps a x1) :
    AnsKeeps a (startNvRead x0 x1) := by
  unfold startNvRead
  try dsimp only
  repeat' first
    | with_reducible assumption
    | with_reducible apply orAns_keeps
    | exact ans_fail
    | with_reducible apply ans_done
    | with_reducible apply ans_result
    | with_reducible apply ans_later
    | with_reducible apply ans_silent
    | with_reducible apply foldl_keeps
    | (intro y s hs; try dsimp only)
    | (intro s hs; try dsimp only)
    | split
    | (simp only [keeps_mk]; with_reducible refine keeps_fields ?_)

theorem startNvWrite_keeps {a : State} {x0 : Sys2Proof.NvWriteP} {x1 : State}
    (h1 : Keeps a x1) :
    AnsKeeps a (startNvWrite x0 x1) := by
  unfold startNvWrite
  try dsimp only
  repeat' first
    | with_reducible assumption
    | with_reducible apply nvMerge_keeps
    | with_reducible apply orAns_keeps
    | exact ans_fail
    | with_reducible apply ans_done
    | with_reducible apply ans_result
    | with_reducible apply ans_later
    | with_reducible apply ans_silent
    | with_reducible apply foldl_keeps
    | (intro y s hs; try dsimp only)
    | (intro s hs; try dsimp only)
    | split
    | (simp only [keeps_mk]; with_reducible refine keeps_fields ?_)

theorem startNvProtect_keeps {a : State} {x0 : Sys2Proof.NvProtectP} {x1 : State}
    (h1 : Keeps a x1) :
    AnsKeeps a (startNvProtect x0 x1) := by
  unfold startNvProtect
  try dsimp only
  repeat' first
    | with_reducible assumption
    | with_reducible apply nvMerge_keeps
    | with_reducible apply orAns_keeps
    | exact ans_fail
    | with_reducible apply ans_done
    | with_reducible apply ans_result
    | with_reducible apply ans_later
    | with_reducible apply ans_silent
    | with_reducible apply foldl_keeps
    | (intro y s hs; try dsimp only)
    | (intro s hs; try dsimp only)
    | split
    | (simp only [keeps_mk]; with_reducible refine keeps_fields ?_)

theorem wearIncrement_keeps {a : State} {x0 : State} {x1 : Nat} {x2 : NvFor}
    (h0 : Keeps a x0) :
    Keeps a (State.wearIncrement x0 x1 x2) := by
  unfold State.wearIncrement
  try dsimp only
  repeat' first
    | with_reducible assumption
    | with_reducible apply nvIssue_keeps
    | with_reducible apply foldl_keeps
    | (intro y s hs; try dsimp only)
    | (intro s hs; try dsimp only)
    | split
    | (simp only [keeps_mk]; with_reducible refine keeps_fields ?_)

theorem startNvCounter_keeps {a : State} {x0 : Sys2Proof.NvCounterP} {x1 : State}
    (h1 : Keeps a x1) :
    AnsKeeps a (startNvCounter x0 x1) := by
  unfold startNvCounter
  try dsimp only
  repeat' first
    | with_reducible assumption
    | with_reducible apply wearIncrement_keeps
    | with_reducible apply orAns_keeps
    | exact ans_fail
    | with_reducible apply ans_done
    | with_reducible apply ans_result
    | with_reducible apply ans_later
    | with_reducible apply ans_silent
    | with_reducible apply foldl_keeps
    | (intro y s hs; try dsimp only)
    | (intro s hs; try dsimp only)
    | split
    | (simp only [keeps_mk]; with_reducible refine keeps_fields ?_)

theorem startAuditRead_keeps {a : State} {x0 : Sys2Proof.AuditReadP} {x1 : State}
    (h1 : Keeps a x1) :
    AnsKeeps a (startAuditRead x0 x1) := by
  unfold startAuditRead
  try dsimp only
  repeat' first
    | with_reducible assumption
    | with_reducible apply orAns_keeps
    | exact ans_fail
    | with_reducible apply ans_done
    | with_reducible apply ans_result
    | with_reducible apply ans_later
    | with_reducible apply ans_silent
    | with_reducible apply foldl_keeps
    | (intro y s hs; try dsimp only)
    | (intro s hs; try dsimp only)
    | split
    | (simp only [keeps_mk]; with_reducible refine keeps_fields ?_)

theorem checkpoint_keeps {a : State} {x0 : State} {x1 : Nat} {x2 : List Sys2Proof.Byte}
    (h0 : Keeps a x0) :
    Keeps a (State.checkpoint x0 x1 x2) := by
  unfold State.checkpoint
  try dsimp only
  repeat' first
    | with_reducible assumption
    | with_reducible apply nvPage_keeps
    | with_reducible apply foldl_keeps
    | (intro y s hs; try dsimp only)
    | (intro s hs; try dsimp only)
    | split
    | (simp only [keeps_mk]; with_reducible refine keeps_fields ?_)

theorem recallAudit_keeps {a : State} {x0 : State}
    (h0 : Keeps a x0) :
    Keeps a (State.recallAudit x0) := by
  unfold State.recallAudit
  try dsimp only
  repeat' first
    | with_reducible assumption
    | with_reducible apply foldl_keeps
    | (intro y s hs; try dsimp only)
    | (intro s hs; try dsimp only)
    | split
    | (simp only [keeps_mk]; with_reducible refine keeps_fields ?_)

theorem doAuditAppend_keeps {a : State} {x0 : State}
    (h0 : Keeps a x0) :
    Keeps a (doAuditAppend x0) := by
  unfold doAuditAppend
  try dsimp only
  repeat' first
    | with_reducible assumption
    | with_reducible apply nvIssue_keeps
    | with_reducible apply foldl_keeps
    | (intro y s hs; try dsimp only)
    | (intro s hs; try dsimp only)
    | split
    | (simp only [keeps_mk]; with_reducible refine keeps_fields ?_)

theorem doNvPowerFail_keeps {a : State} {x0 : Nat} {x1 : State}
    (h1 : Keeps a x1) :
    Keeps a (doNvPowerFail x0 x1) := by
  unfold doNvPowerFail
  try dsimp only
  repeat' first
    | with_reducible assumption
    | with_reducible apply nvStop_keeps
    | with_reducible apply foldl_keeps
    | (intro y s hs; try dsimp only)
    | (intro s hs; try dsimp only)
    | split
    | (simp only [keeps_mk]; with_reducible refine keeps_fields ?_)

theorem doRecallComplete_keeps {a : State} {x0 : State}
    (h0 : Keeps a x0) :
    Keeps a (doRecallComplete x0) := by
  unfold doRecallComplete
  try dsimp only
  repeat' first
    | with_reducible assumption
    | with_reducible apply recallAudit_keeps
    | with_reducible apply fire_keeps
    | with_reducible apply count_keeps
    | with_reducible apply foldl_keeps
    | (intro y s hs; try dsimp only)
    | (intro s hs; try dsimp only)
    | split
    | (simp only [keeps_mk]; with_reducible refine keeps_fields ?_)

theorem doNvWriteDone_keeps {a s : State} (h : Keeps a s) : Keeps a (doNvWriteDone s) := by
  unfold doNvWriteDone
  split
  · exact h
  next w rest _ =>
    split
    · exact h
    · dsimp only
      have h1 : Keeps a { s with nv := { s.nv with cells := mwrite nvDefault s.nv.cells w.addr w.bytes, writes := rest } } :=
        ⟨fun y => ⟨⟨(h.1 y).1.1, memWf_mwrite _ _ _ _ (h.1 y).1.2.1, (h.1 y).1.2.2⟩, (h.1 y).2⟩, h.2⟩
      split
      · exact completeId_keeps h1
      · split
        · apply checkpoint_keeps
          simp only [keeps_mk]
          exact keeps_fields h1
        · simp only [keeps_mk]
          exact keeps_fields h1
      · exact h1

theorem doPfwDeassert_keeps {a : State} {x0 : State}
    (h0 : Keeps a x0) :
    Keeps a (doPfwDeassert x0) := by
  unfold doPfwDeassert
  try dsimp only
  repeat' first
    | with_reducible assumption
    | with_reducible apply foldl_keeps
    | (intro y s hs; try dsimp only)
    | (intro s hs; try dsimp only)
    | split
    | (simp only [keeps_mk]; with_reducible refine keeps_fields ?_)

theorem doRefreshStart_keeps {a : State} {x0 : State}
    (h0 : Keeps a x0) :
    Keeps a (doRefreshStart x0) := by
  unfold doRefreshStart
  try dsimp only
  repeat' first
    | with_reducible assumption
    | with_reducible apply foldl_keeps
    | (intro y s hs; try dsimp only)
    | (intro s hs; try dsimp only)
    | split
    | (simp only [keeps_mk]; with_reducible refine keeps_fields ?_)

theorem doRefreshWord_keeps {a : State} {x0 : Bool} {x1 : State}
    (h1 : Keeps a x1) :
    Keeps a (doRefreshWord x0 x1) := by
  unfold doRefreshWord
  try dsimp only
  repeat' first
    | with_reducible assumption
    | with_reducible apply fire_keeps
    | with_reducible apply count_keeps
    | with_reducible apply foldl_keeps
    | (intro y s hs; try dsimp only)
    | (intro s hs; try dsimp only)
    | split
    | (simp only [keeps_mk]; with_reducible refine keeps_fields ?_)

theorem addJob_keeps {a s : State} {j : Job} (h : Keeps a s) : Keeps a (s.addJob j) := by
  unfold State.addJob
  have h1 : Keeps a { s with jobs := s.jobs ++ [{ j with id := s.nextJob }], nextJob := s.nextJob + 1 } := by
    simp only [keeps_mk]
    exact keeps_fields_jobs (jobs_append rfl) h
  dsimp only
  split
  · exact fire_keeps h1
  · exact h1

theorem taint_keeps {a : State} {x0 : State} {x1 : Nat} {x2 : Nat} {x3 : Nat}
    (h0 : Keeps a x0) :
    Keeps a (State.taint x0 x1 x2 x3) := by
  unfold State.taint
  try dsimp only
  repeat' first
    | with_reducible assumption
    | with_reducible apply foldl_keeps
    | (intro y s hs; try dsimp only)
    | (intro s hs; try dsimp only)
    | split
    | (simp only [keeps_mk]; with_reducible refine keeps_fields ?_)

theorem setPair_keeps {a : State} {x0 : State} {x1 : Pair}
    (h0 : Keeps a x0) :
    Keeps a (State.setPair x0 x1) := by
  unfold State.setPair
  try dsimp only
  repeat' first
    | with_reducible assumption
    | with_reducible apply foldl_keeps
    | (intro y s hs; try dsimp only)
    | (intro s hs; try dsimp only)
    | split
    | (simp only [keeps_mk]; with_reducible refine keeps_fields ?_)

theorem startIdentify_keeps {a : State} {x0 : Sys2Proof.ResP} {x1 : State}
    (h1 : Keeps a x1) :
    AnsKeeps a (startIdentify x0 x1) := by
  unfold startIdentify
  try dsimp only
  repeat' first
    | with_reducible assumption
    | with_reducible apply orAns_keeps
    | exact ans_fail
    | with_reducible apply ans_done
    | with_reducible apply ans_result
    | with_reducible apply ans_later
    | with_reducible apply ans_silent
    | with_reducible apply foldl_keeps
    | (intro y s hs; try dsimp only)
    | (intro s hs; try dsimp only)
    | split
    | (simp only [keeps_mk]; with_reducible refine keeps_fields ?_)

theorem startCaps_keeps {a : State} {x0 : Sys2Proof.ResP} {x1 : State}
    (h1 : Keeps a x1) :
    AnsKeeps a (startCaps x0 x1) := by
  unfold startCaps
  try dsimp only
  repeat' first
    | with_reducible assumption
    | with_reducible apply orAns_keeps
    | exact ans_fail
    | with_reducible apply ans_done
    | with_reducible apply ans_result
    | with_reducible apply ans_later
    | with_reducible apply ans_silent
    | with_reducible apply foldl_keeps
    | (intro y s hs; try dsimp only)
    | (intro s hs; try dsimp only)
    | split
    | (simp only [keeps_mk]; with_reducible refine keeps_fields ?_)

theorem reloadEngines_keeps {a : State} {x0 : State}
    (h0 : Keeps a x0) :
    Keeps a (State.reloadEngines x0) := by
  unfold State.reloadEngines
  try dsimp only
  repeat' first
    | with_reducible assumption
    | with_reducible apply each_keeps
    | with_reducible apply emit_keeps
    | with_reducible apply resetVectors_keeps
    | with_reducible apply foldl_keeps
    | (intro y s hs; try dsimp only)
    | (intro s hs; try dsimp only)
    | split
    | (simp only [keeps_mk]; with_reducible refine keeps_fields ?_)

theorem beginWake_keeps {a : State} {x0 : State}
    (h0 : Keeps a x0) :
    Keeps a (State.beginWake x0) := by
  unfold State.beginWake
  try dsimp only
  repeat' first
    | with_reducible assumption
    | with_reducible apply reloadEngines_keeps
    | with_reducible apply foldl_keeps
    | (intro y s hs; try dsimp only)
    | (intro s hs; try dsimp only)
    | split
    | (simp only [keeps_mk]; with_reducible refine keeps_fields ?_)

theorem setLatch_keeps {a : State} {x0 : State} {x1 : Nat}
    (h0 : Keeps a x0) :
    Keeps a (State.setLatch x0 x1) := by
  unfold State.setLatch
  try dsimp only
  repeat' first
    | with_reducible assumption
    | with_reducible apply beginWake_keeps
    | with_reducible apply foldl_keeps
    | (intro y s hs; try dsimp only)
    | (intro s hs; try dsimp only)
    | split
    | (simp only [keeps_mk]; with_reducible refine keeps_fields ?_)

theorem stopAllWriters_keeps {a : State} {x0 : State}
    (h0 : Keeps a x0) :
    Keeps a (State.stopAllWriters x0) := by
  unfold State.stopAllWriters
  try dsimp only
  repeat' first
    | with_reducible assumption
    | with_reducible apply failSlots_keeps
    | with_reducible apply foldl_keeps
    | (intro y s hs; try dsimp only)
    | (intro s hs; try dsimp only)
    | split
    | (simp only [keeps_mk]; with_reducible refine keeps_fields ?_)

theorem beginQuiet_keeps {a s : State} (hb : s.sys.mode ≠ .failed) (h : Keeps a s) : Keeps a s.beginQuiet := by
  unfold State.beginQuiet
  dsimp only
  have h1 : ∀ au, Keeps a { s with sys := { s.sys with quiet := .entering, modeBefore := s.sys.mode, commitT := s.now,
                                                        wakeLatch := Nat.land s.sys.wakeLatch 6 }, audio := au } :=
    fun _ => ⟨fun y => ⟨(h.1 y).1, (h.1 y).2.1, ⟨(h.1 y).2.2.1.1, hb⟩, (h.1 y).2.2.2⟩, h.2⟩
  apply each_keeps
  · intro y s hs
    exact lanesIdle_keeps (setRx_keeps hs)
  · exact stopAllWriters_keeps (withdrawAll_keeps (h1 _))

theorem setMode_keeps {a s : State} {m : Mode} (hm : Sound a → m = .failed → s.sys.fault.isSome = true) (h : Keeps a s) :
    Keeps a (s.setMode m) := by
  unfold State.setMode
  dsimp only
  generalize hu : (if s.sys.mode = .test then s.leaveTest else s) = u
  have hk : Keeps a u := by
    rw [← hu]
    split
    · exact leaveTest_keeps h
    · exact h
  have hs : u.sys = s.sys := by
    rw [← hu]
    split
    · exact (leaveTest_sysKept (a := s) ⟨rfl, rfl⟩).1
    · rfl
  apply fire_keeps
  have key : Keeps a { u with sys := { u.sys with mode := m } } :=
    ⟨fun x => ⟨(hk.1 x).1, (hk.1 x).2.1, ⟨fun e => (hs ▸ hm x e : u.sys.fault.isSome = true), (hk.1 x).2.2.1.2⟩, (hk.1 x).2.2.2⟩, hk.2⟩
  split <;> exact key

/-- FAILED is no end of a transition that a command may request (Table 0.5). -/
theorem transition_ends (x y : Mode) (h : transitionOk x y = true) : x ≠ .failed ∧ y ≠ .failed := by
  cases x <;> cases y <;> simp_all [transitionOk]

theorem modeEffect_keeps {a s : State} {m : Mode} {r : Option Nat} (h : Keeps a s) : Keeps a (s.modeEffect m r).2 := by
  unfold State.modeEffect
  split
  · exact h
  next hc =>
    have ht : transitionOk s.sys.mode m = true := by
      cases hf : transitionOk s.sys.mode m with
      | true => rfl
      | false => simp [chkModeNow, failIf, hf] at hc
    obtain ⟨hb, hm⟩ := transition_ends s.sys.mode m ht
    dsimp only
    split
    · split
      · dsimp only
        exact beginQuiet_keeps hb h
      · exact h
    · exact setMode_keeps (fun _ e => absurd e hm) h

theorem startSysMode_keeps {a : State} {x0 : Sys2Proof.SysModeP} {x1 : State}
    (h1 : Keeps a x1) :
    AnsKeeps a (startSysMode x0 x1) := by
  unfold startSysMode
  try dsimp only
  repeat' first
    | with_reducible assumption
    | with_reducible apply setLatch_keeps
    | with_reducible apply modeEffect_keeps
    | with_reducible apply orAns_keeps
    | exact ans_fail
    | with_reducible apply ans_done
    | with_reducible apply ans_result
    | with_reducible apply ans_later
    | with_reducible apply ans_silent
    | refine keeps_pair (by assumption) ?_
    | with_reducible apply foldl_keeps
    | (intro y s hs; try dsimp only)
    | (intro s hs; try dsimp only)
    | split
    | (simp only [keeps_mk]; with_reducible refine keeps_fields ?_)

theorem endService_keeps {a : State} {x0 : State} {x1 : Nat}
    (h0 : Keeps a x0) :
    Keeps a (State.endService x0 x1) := by
  unfold State.endService
  try dsimp only
  repeat' first
    | with_reducible assumption
    | with_reducible apply setSource_keeps
    | with_reducible apply presented_keeps
    | with_reducible apply foldl_keeps
    | (intro y s hs; try dsimp only)
    | (intro s hs; try dsimp only)
    | split
    | (simp only [keeps_mk]; with_reducible refine keeps_fields ?_)

theorem releaseClaims_keeps {a : State} {x0 : State} {x1 : Nat}
    (h0 : Keeps a x0) :
    Keeps a (State.releaseClaims x0 x1) := by
  unfold State.releaseClaims
  try dsimp only
  repeat' first
    | with_reducible assumption
    | with_reducible apply each_keeps
    | with_reducible apply endService_keeps
    | with_reducible apply foldl_keeps
    | (intro y s hs; try dsimp only)
    | (intro s hs; try dsimp only)
    | split
    | (simp only [keeps_mk]; with_reducible refine keeps_fields ?_)

theorem dropApart_keeps {a : State} {x0 : State}
    (h0 : Keeps a x0) :
    Keeps a (State.dropApart x0) := by
  unfold State.dropApart
  try dsimp only
  repeat' first
    | with_reducible assumption
    | with_reducible apply fire_keeps
    | with_reducible apply setPair_keeps
    | with_reducible apply foldl_keeps
    | (intro y s hs; try dsimp only)
    | (intro s hs; try dsimp only)
    | split
    | (simp only [keeps_mk]; with_reducible refine keeps_fields ?_)

theorem beginRestart_keeps {a s : State} {b : Bool} (h : Keeps a s) : Keeps a (s.beginRestart b) := by
  unfold State.beginRestart
  dsimp only
  have h1 : Keeps a (if s.sys.mode.config = true then s.setMode .recovery else s) := by
    split
    · exact setMode_keeps (by intro _ e; cases e) h
    · exact h
  simp only [keeps_mk]
  refine keeps_fields (releaseClaims_keeps (fire_keeps (dropApart_keeps ?_)))
  simp only [keeps_mk]
  exact keeps_fields h1

theorem startRestart_keeps {a : State} {x0 : Ctx} {x1 : Sys2Proof.SysRestartP} {x2 : State → State} {x3 : State}
    (h2 : ∀  s, Keeps a s → Keeps a (x2  s)) (h3 : Keeps a x3) :
    AnsKeeps a (startRestart x0 x1 x2 x3) := by
  unfold startRestart
  try dsimp only
  repeat' first
    | with_reducible assumption
    | with_reducible apply h2
    | with_reducible apply emit_keeps
    | with_reducible apply beginRestart_keeps
    | with_reducible apply orAns_keeps
    | exact ans_fail
    | with_reducible apply ans_done
    | with_reducible apply ans_result
    | with_reducible apply ans_later
    | with_reducible apply ans_silent
    | with_reducible apply foldl_keeps
    | (intro y s hs; try dsimp only)
    | (intro s hs; try dsimp only)
    | split
    | (simp only [keeps_mk]; with_reducible refine keeps_fields ?_)

theorem startWakeSet_keeps {a : State} {x0 : Sys2Proof.SysWakeSetP} {x1 : State}
    (h1 : Keeps a x1) :
    AnsKeeps a (startWakeSet x0 x1) := by
  unfold startWakeSet
  try dsimp only
  repeat' first
    | with_reducible assumption
    | with_reducible apply orAns_keeps
    | exact ans_fail
    | with_reducible apply ans_done
    | with_reducible apply ans_result
    | with_reducible apply ans_later
    | with_reducible apply ans_silent
    | with_reducible apply foldl_keeps
    | (intro y s hs; try dsimp only)
    | (intro s hs; try dsimp only)
    | split
    | (simp only [keeps_mk]; with_reducible refine keeps_fields ?_)

theorem startFaultRead_keeps {a s : State} {p : SysFaultReadP} (h : Keeps a s) : AnsKeeps a (startFaultRead p s) := by
  unfold startFaultRead
  dsimp only
  unfold orAns
  split
  · trivial
  next hc =>
    apply ans_result
    split
    next hp =>
      have hm : s.sys.mode ≠ .failed := by
        intro e
        simp only [failIf, e, hp] at hc
        revert hc
        by_cases hr : p.rsvd = 0 <;> simp [hr]
      exact ⟨fun y => ⟨(h.1 y).1, (h.1 y).2.1, ⟨fun e => absurd e hm, (h.1 y).2.2.1.2⟩, (h.1 y).2.2.2⟩, h.2⟩
    · exact h

theorem applySysMode_keeps {a : State} {x0 : Job} {x1 : Sys2Proof.SysModeP} {x2 : State}
    (h2 : Keeps a x2) :
    Keeps a (applySysMode x0 x1 x2) := by
  unfold applySysMode
  try dsimp only
  repeat' first
    | with_reducible assumption
    | with_reducible apply setLatch_keeps
    | with_reducible apply setJob_keeps
    | with_reducible apply complete_keeps
    | with_reducible apply modeEffect_keeps
    | refine keeps_pair (by assumption) ?_
    | with_reducible apply foldl_keeps
    | (intro y s hs; try dsimp only)
    | (intro s hs; try dsimp only)
    | split
    | (simp only [keeps_mk]; with_reducible refine keeps_fields ?_)

theorem applyHandover_keeps {a : State} {x0 : Job} {x1 : State}
    (h1 : Keeps a x1) :
    Keeps a (applyHandover x0 x1) := by
  unfold applyHandover
  try dsimp only
  repeat' first
    | with_reducible assumption
    | with_reducible apply dropApart_keeps
    | with_reducible apply fire_keeps
    | with_reducible apply setPair_keeps
    | with_reducible apply beginRestart_keeps
    | with_reducible apply setJob_keeps
    | with_reducible apply foldl_keeps
    | (intro y s hs; try dsimp only)
    | (intro s hs; try dsimp only)
    | split
    | (simp only [keeps_mk]; with_reducible refine keeps_fields ?_)

theorem inputMismatch_keeps {a : State} {x0 : State}
    (h0 : Keeps a x0) :
    Keeps a (State.inputMismatch x0) := by
  unfold State.inputMismatch
  try dsimp only
  repeat' first
    | with_reducible assumption
    | with_reducible apply fire_keeps
    | with_reducible apply count_keeps
    | with_reducible apply foldl_keeps
    | (intro y s hs; try dsimp only)
    | (intro s hs; try dsimp only)
    | split
    | (simp only [keeps_mk]; with_reducible refine keeps_fields ?_)

theorem reportMissing_keeps {a : State} {x0 : State} {x1 : Nat}
    (h0 : Keeps a x0) :
    Keeps a (State.reportMissing x0 x1) := by
  unfold State.reportMissing
  try dsimp only
  repeat' first
    | with_reducible assumption
    | with_reducible apply emit_keeps
    | with_reducible apply taint_keeps
    | with_reducible apply inputMismatch_keeps
    | with_reducible apply foldl_keeps
    | (intro y s hs; try dsimp only)
    | (intro s hs; try dsimp only)
    | split
    | (simp only [keeps_mk]; with_reducible refine keeps_fields ?_)

theorem failNotice_keeps {a : State} {x0 : State} {x1 : Nat}
    (h0 : Keeps a x0) :
    Keeps a (State.failNotice x0 x1) := by
  unfold State.failNotice
  try dsimp only
  repeat' first
    | with_reducible assumption
    | with_reducible apply emit_keeps
    | with_reducible apply foldl_keeps
    | (intro y s hs; try dsimp only)
    | (intro s hs; try dsimp only)
    | split
    | (simp only [keeps_mk]; with_reducible refine keeps_fields ?_)

/-- An empty list of jobs is in order. -/
theorem jobs_none {l : List Job} {n : Nat} (_ : JobsInOrder l n) : JobsInOrder [] n :=
  ⟨List.Pairwise.nil, fun _ h => nomatch h⟩

theorem enterFailed_keeps {a s : State} {x u d : Nat} (h : Keeps a s) : Keeps a (s.enterFailed x u d) := by
  unfold State.enterFailed
  split
  · exact h
  next hc =>
    dsimp only
    apply failNotice_keeps
    apply withdrawAll_keeps
    have hm : s.sys.mode ≠ .failed := fun e => hc (by simp [e])
    have hl : (s.latchFault x u d).sys.fault.isSome = true := by
      unfold State.latchFault
      rw [if_neg hm]
      dsimp only
      rw [(fire_sysKept (x1 := 5) (SysKept.refl _)).1]
      rfl
    have h1 : Keeps a ((s.latchFault x u d).setMode .failed) := setMode_keeps (fun _ _ => hl) (latchFault_keeps h)
    simp only [keeps_mk]
    exact keeps_fields_jobs jobs_none h1

theorem memoryFault_keeps {a s : State} {x u d w : Nat} (h : Keeps a s) : Keeps a (s.memoryFault x u d w) := by
  unfold State.memoryFault
  split
  · exact h
  · have h1 : Keeps a (s.enterFailed x u d) := enterFailed_keeps h
    dsimp only
    refine ⟨fun y => ⟨(h1.1 y).1, (h1.1 y).2.1, ⟨fun e => ?_, (h1.1 y).2.2.1.2⟩, (h1.1 y).2.2.2⟩, h1.2⟩
    rw [Option.isSome_map]
    exact (h1.1 y).2.2.1.1 e

theorem doFault_keeps {a : State} {x0 : Nat} {x1 : Nat} {x2 : Nat} {x3 : State}
    (h3 : Keeps a x3) :
    Keeps a (doFault x0 x1 x2 x3) := by
  unfold doFault
  try dsimp only
  repeat' first
    | with_reducible assumption
    | with_reducible apply enterFailed_keeps
    | with_reducible apply foldl_keeps
    | (intro y s hs; try dsimp only)
    | (intro s hs; try dsimp only)
    | split
    | (simp only [keeps_mk]; with_reducible refine keeps_fields ?_)

theorem doFaultN_keeps {a : State} {x0 : State}
    (h0 : Keeps a x0) :
    Keeps a (doFaultN x0) := by
  unfold doFaultN
  try dsimp only
  repeat' first
    | with_reducible assumption
    | with_reducible apply emit_keeps
    | with_reducible apply foldl_keeps
    | (intro y s hs; try dsimp only)
    | (intro s hs; try dsimp only)
    | split
    | (simp only [keeps_mk]; with_reducible refine keeps_fields ?_)

theorem doRestartEnd_keeps {a : State} {x0 : State}
    (h0 : Keeps a x0) :
    Keeps a (doRestartEnd x0) := by
  unfold doRestartEnd
  try dsimp only
  repeat' first
    | with_reducible assumption
    | with_reducible apply fire_keeps
    | with_reducible apply each_keeps
    | with_reducible apply complete_keeps
    | with_reducible apply modeEffect_keeps
    | refine keeps_pair (by assumption) ?_
    | with_reducible apply foldl_keeps
    | (intro y s hs; try dsimp only)
    | (intro s hs; try dsimp only)
    | split
    | (simp only [keeps_mk]; with_reducible refine keeps_fields ?_)

theorem doWakeNLow_keeps {a : State} {x0 : State}
    (h0 : Keeps a x0) :
    Keeps a (doWakeNLow x0) := by
  unfold doWakeNLow
  try dsimp only
  repeat' first
    | with_reducible assumption
    | with_reducible apply setLatch_keeps
    | with_reducible apply foldl_keeps
    | (intro y s hs; try dsimp only)
    | (intro s hs; try dsimp only)
    | split
    | (simp only [keeps_mk]; with_reducible refine keeps_fields ?_)

theorem doWakeTimer_keeps {a : State} {x0 : State}
    (h0 : Keeps a x0) :
    Keeps a (doWakeTimer x0) := by
  unfold doWakeTimer
  try dsimp only
  repeat' first
    | with_reducible assumption
    | with_reducible apply setLatch_keeps
    | with_reducible apply foldl_keeps
    | (intro y s hs; try dsimp only)
    | (intro s hs; try dsimp only)
    | split
    | (simp only [keeps_mk]; with_reducible refine keeps_fields ?_)

end Sys2Proof.Laws
end

