-- ==== Sys2Proof/Laws/Keeps/Links.lean ====
section
/-! SUPPORT. What the operations of Machine/Keys.lean, Training.lean, Raster.lean, Clocks.lean, Millpond.lean and Routes.lean keep: one lemma per operation (see Laws/Keeps.lean). -/

namespace Sys2Proof.Laws

open Sys2Proof.Machine

theorem setSlot_keeps {a : State} {x0 : State} {x1 : Nat} {x2 : Slot}
    (h0 : Keeps a x0) :
    Keeps a (State.setSlot x0 x1 x2) := by
  unfold State.setSlot
  try dsimp only
  repeat' first
    | with_reducible assumption
    | with_reducible apply foldl_keeps
    | (intro y s hs; try dsimp only)
    | (intro s hs; try dsimp only)
    | split
    | (simp only [keeps_mk]; with_reducible refine keeps_fields ?_)

theorem changeSlot_keeps {a : State} {x0 : State} {x1 : Nat} {x2 : Slot → Slot}
    (h0 : Keeps a x0) :
    Keeps a (State.changeSlot x0 x1 x2) := by
  unfold State.changeSlot
  try dsimp only
  repeat' first
    | with_reducible assumption
    | with_reducible apply setSlot_keeps
    | with_reducible apply each_keeps
    | with_reducible apply queueAudit_keeps
    | with_reducible apply fire_keeps
    | with_reducible apply foldl_keeps
    | (intro y s hs; try dsimp only)
    | (intro s hs; try dsimp only)
    | split
    | (simp only [keeps_mk]; with_reducible refine keeps_fields ?_)

theorem startKeyWrite_keeps {a : State} {x0 : Sys2Proof.KeyWriteP} {x1 : State}
    (h1 : Keeps a x1) :
    AnsKeeps a (startKeyWrite x0 x1) := by
  unfold startKeyWrite
  try dsimp only
  repeat' first
    | with_reducible assumption
    | with_reducible apply changeSlot_keeps
    | with_reducible apply orAns_keeps
    | exact ans_fail
    | with_reducible apply ans_done
    | with_reducible apply ans_result
    | with_reducible apply ans_later
    | with_reducible apply ans_silent
    | with_reducible apply foldl_keeps
    | (intro y s hs; try dsimp only)
    | (intro s hs; try dsimp only)
    | split
    | (simp only [keeps_mk]; with_reducible refine keeps_fields ?_)

theorem startKeyDerive_keeps {a : State} {x0 : Sys2Proof.KeyDeriveP} {x1 : State}
    (h1 : Keeps a x1) :
    AnsKeeps a (startKeyDerive x0 x1) := by
  unfold startKeyDerive
  try dsimp only
  repeat' first
    | with_reducible assumption
    | with_reducible apply orAns_keeps
    | exact ans_fail
    | with_reducible apply ans_done
    | with_reducible apply ans_result
    | with_reducible apply ans_later
    | with_reducible apply ans_silent
    | with_reducible apply foldl_keeps
    | (intro y s hs; try dsimp only)
    | (intro s hs; try dsimp only)
    | split
    | (simp only [keeps_mk]; with_reducible refine keeps_fields ?_)

theorem startKeyInvalidate_keeps {a : State} {x0 : Sys2Proof.KeyInvalidateP} {x1 : State}
    (h1 : Keeps a x1) :
    AnsKeeps a (startKeyInvalidate x0 x1) := by
  unfold startKeyInvalidate
  try dsimp only
  repeat' first
    | with_reducible assumption
    | with_reducible apply changeSlot_keeps
    | with_reducible apply orAns_keeps
    | exact ans_fail
    | with_reducible apply ans_done
    | with_reducible apply ans_result
    | with_reducible apply ans_later
    | with_reducible apply ans_silent
    | with_reducible apply foldl_keeps
    | (intro y s hs; try dsimp only)
    | (intro s hs; try dsimp only)
    | split
    | (simp only [keeps_mk]; with_reducible refine keeps_fields ?_)

theorem startKeyQuery_keeps {a : State} {x0 : Sys2Proof.ResP} {x1 : State}
    (h1 : Keeps a x1) :
    AnsKeeps a (startKeyQuery x0 x1) := by
  unfold startKeyQuery
  try dsimp only
  repeat' first
    | with_reducible assumption
    | with_reducible apply orAns_keeps
    | exact ans_fail
    | with_reducible apply ans_done
    | with_reducible apply ans_result
    | with_reducible apply ans_later
    | with_reducible apply ans_silent
    | with_reducible apply foldl_keeps
    | (intro y s hs; try dsimp only)
    | (intro s hs; try dsimp only)
    | split
    | (simp only [keeps_mk]; with_reducible refine keeps_fields ?_)

theorem startQueueAuth_keeps {a : State} {x0 : Sys2Proof.QueueAuthP} {x1 : State}
    (h1 : Keeps a x1) :
    AnsKeeps a (startQueueAuth x0 x1) := by
  unfold startQueueAuth
  try dsimp only
  repeat' first
    | with_reducible assumption
    | with_reducible apply setQueue_keeps
    | with_reducible apply orAns_keeps
    | exact ans_fail
    | with_reducible apply ans_done
    | with_reducible apply ans_result
    | with_reducible apply ans_later
    | with_reducible apply ans_silent
    | with_reducible apply foldl_keeps
    | (intro y s hs; try dsimp only)
    | (intro s hs; try dsimp only)
    | split
    | (simp only [keeps_mk]; with_reducible refine keeps_fields ?_)

theorem awaitCrypt_keeps {a : State} {x0 : State} {x1 : Sys2Proof.LaneCryptSetP}
    (h0 : Keeps a x0) :
    Keeps a (State.awaitCrypt x0 x1) := by
  unfold State.awaitCrypt
  try dsimp only
  repeat' first
    | with_reducible assumption
    | with_reducible apply setRxStream_keeps
    | with_reducible apply setTxStream_keeps
    | with_reducible apply foldl_keeps
    | (intro y s hs; try dsimp only)
    | (intro s hs; try dsimp only)
    | split
    | (simp only [keeps_mk]; with_reducible refine keeps_fields ?_)

theorem startLaneCrypt_keeps {a : State} {x0 : Sys2Proof.LaneCryptSetP} {x1 : State}
    (h1 : Keeps a x1) :
    AnsKeeps a (startLaneCrypt x0 x1) := by
  unfold startLaneCrypt
  try dsimp only
  repeat' first
    | with_reducible assumption
    | with_reducible apply awaitCrypt_keeps
    | with_reducible apply orAns_keeps
    | exact ans_fail
    | with_reducible apply ans_done
    | with_reducible apply ans_result
    | with_reducible apply ans_later
    | with_reducible apply ans_silent
    | with_reducible apply foldl_keeps
    | (intro y s hs; try dsimp only)
    | (intro s hs; try dsimp only)
    | split
    | (simp only [keeps_mk]; with_reducible refine keeps_fields ?_)

theorem startAttest_keeps {a : State} {x0 : Sys2Proof.AttestP} {x1 : State}
    (h1 : Keeps a x1) :
    AnsKeeps a (startAttest x0 x1) := by
  unfold startAttest
  try dsimp only
  repeat' first
    | with_reducible assumption
    | with_reducible apply orAns_keeps
    | exact ans_fail
    | with_reducible apply ans_done
    | with_reducible apply ans_result
    | with_reducible apply ans_later
    | with_reducible apply ans_silent
    | with_reducible apply foldl_keeps
    | (intro y s hs; try dsimp only)
    | (intro s hs; try dsimp only)
    | split
    | (simp only [keeps_mk]; with_reducible refine keeps_fields ?_)

theorem startTamperSet_keeps {a : State} {x0 : Sys2Proof.TamperSetP} {x1 : State}
    (h1 : Keeps a x1) :
    AnsKeeps a (startTamperSet x0 x1) := by
  unfold startTamperSet
  try dsimp only
  repeat' first
    | with_reducible assumption
    | with_reducible apply orAns_keeps
    | exact ans_fail
    | with_reducible apply ans_done
    | with_reducible apply ans_result
    | with_reducible apply ans_later
    | with_reducible apply ans_silent
    | with_reducible apply foldl_keeps
    | (intro y s hs; try dsimp only)
    | (intro s hs; try dsimp only)
    | split
    | (simp only [keeps_mk]; with_reducible refine keeps_fields ?_)

theorem startTamperStatus_keeps {a : State} {x0 : Sys2Proof.ResP} {x1 : State}
    (h1 : Keeps a x1) :
    AnsKeeps a (startTamperStatus x0 x1) := by
  unfold startTamperStatus
  try dsimp only
  repeat' first
    | with_reducible assumption
    | with_reducible apply orAns_keeps
    | exact ans_fail
    | with_reducible apply ans_done
    | with_reducible apply ans_result
    | with_reducible apply ans_later
    | with_reducible apply ans_silent
    | with_reducible apply foldl_keeps
    | (intro y s hs; try dsimp only)
    | (intro s hs; try dsimp only)
    | split
    | (simp only [keeps_mk]; with_reducible refine keeps_fields ?_)

theorem applyLaneCrypt_keeps {a : State} {x0 : Job} {x1 : Sys2Proof.LaneCryptSetP} {x2 : State}
    (h2 : Keeps a x2) :
    Keeps a (applyLaneCrypt x0 x1 x2) := by
  unfold applyLaneCrypt
  try dsimp only
  repeat' first
    | with_reducible assumption
    | with_reducible apply setJob_keeps
    | with_reducible apply awaitCrypt_keeps
    | with_reducible apply foldl_keeps
    | (intro y s hs; try dsimp only)
    | (intro s hs; try dsimp only)
    | split
    | (simp only [keeps_mk]; with_reducible refine keeps_fields ?_)

theorem counterReuse_keeps {a : State} {x0 : State}
    (h0 : Keeps a x0) :
    Keeps a (State.counterReuse x0) := by
  unfold State.counterReuse
  try dsimp only
  repeat' first
    | with_reducible assumption
    | with_reducible apply fire_keeps
    | with_reducible apply count_keeps
    | with_reducible apply foldl_keeps
    | (intro y s hs; try dsimp only)
    | (intro s hs; try dsimp only)
    | split
    | (simp only [keeps_mk]; with_reducible refine keeps_fields ?_)

theorem cryptSwitched_keeps {a : State} {x0 : State} {x1 : Nat} {x2 : Nat} {x3 : Nat}
    (h0 : Keeps a x0) :
    Keeps a (State.cryptSwitched x0 x1 x2 x3) := by
  unfold State.cryptSwitched
  try dsimp only
  repeat' first
    | with_reducible assumption
    | with_reducible apply each_keeps
    | with_reducible apply complete_keeps
    | with_reducible apply foldl_keeps
    | (intro y s hs; try dsimp only)
    | (intro s hs; try dsimp only)
    | split
    | (simp only [keeps_mk]; with_reducible refine keeps_fields ?_)

theorem leaveIdle_keeps {a : State} {x0 : State} {x1 : Nat} {x2 : Option Nat}
    (h0 : Keeps a x0) :
    Keeps a (State.leaveIdle x0 x1 x2) := by
  unfold State.leaveIdle
  try dsimp only
  repeat' first
    | with_reducible assumption
    | with_reducible apply counterReuse_keeps
    | with_reducible apply foldl_keeps
    | (intro y s hs; try dsimp only)
    | (intro s hs; try dsimp only)
    | split
    | (simp only [keeps_mk]; with_reducible refine keeps_fields ?_)

theorem useKey_keeps {a : State} {x0 : State} {x1 : Nat} {x2 : Nat}
    (h0 : Keeps a x0) :
    Keeps a (State.useKey x0 x1 x2) := by
  unfold State.useKey
  try dsimp only
  repeat' first
    | with_reducible assumption
    | with_reducible apply foldl_keeps
    | (intro y s hs; try dsimp only)
    | (intro s hs; try dsimp only)
    | split
    | (simp only [keeps_mk]; with_reducible refine keeps_fields ?_)

theorem rxKeyBoundary_keeps {a : State} {x0 : State} {x1 : Nat} {x2 : Bool}
    (h0 : Keeps a x0) :
    Keeps a (State.rxKeyBoundary x0 x1 x2) := by
  unfold State.rxKeyBoundary
  try dsimp only
  repeat' first
    | with_reducible assumption
    | with_reducible apply cryptSwitched_keeps
    | with_reducible apply each_keeps
    | with_reducible apply useKey_keeps
    | with_reducible apply counterReuse_keeps
    | with_reducible apply fire_keeps
    | with_reducible apply setRxStream_keeps
    | with_reducible apply foldl_keeps
    | (intro y s hs; try dsimp only)
    | (intro s hs; try dsimp only)
    | split
    | (simp only [keeps_mk]; with_reducible refine keeps_fields ?_)

theorem tallyTampers_keeps {a s : State} {n : Nat} (h : Keeps a s) : Keeps a (State.tallyTampers n s) := by
  induction n generalizing s with
  | zero => exact h
  | succ n ih => exact ih (wearIncrement_keeps h)

theorem txKeyBoundary_keeps {a : State} {x0 : State} {x1 : Nat} {x2 : Nat}
    (h0 : Keeps a x0) :
    Keeps a (State.txKeyBoundary x0 x1 x2) := by
  unfold State.txKeyBoundary
  try dsimp only
  repeat' first
    | with_reducible assumption
    | with_reducible apply setTxStream_keeps
    | with_reducible apply cryptSwitched_keeps
    | with_reducible apply each_keeps
    | with_reducible apply useKey_keeps
    | with_reducible apply counterReuse_keeps
    | with_reducible apply fire_keeps
    | with_reducible apply foldl_keeps
    | (intro y s hs; try dsimp only)
    | (intro s hs; try dsimp only)
    | split
    | (simp only [keeps_mk]; with_reducible refine keeps_fields ?_)

theorem zeroise_keeps {a : State} {x0 : State}
    (h0 : Keeps a x0) :
    Keeps a (State.zeroise x0) := by
  unfold State.zeroise
  try dsimp only
  repeat' first
    | with_reducible assumption
    | with_reducible apply each_keeps
    | with_reducible apply setSlot_keeps
    | with_reducible apply queueAudit_keeps
    | with_reducible apply fire_keeps
    | with_reducible apply completeAll_keeps
    | with_reducible apply foldl_keeps
    | (intro y s hs; try dsimp only)
    | (intro s hs; try dsimp only)
    | split
    | (simp only [keeps_mk]; with_reducible refine keeps_fields ?_)

theorem doKeyOpEnd_keeps {a : State} {x0 : Nat} {x1 : State}
    (h1 : Keeps a x1) :
    Keeps a (doKeyOpEnd x0 x1) := by
  unfold doKeyOpEnd
  try dsimp only
  repeat' first
    | with_reducible assumption
    | with_reducible apply changeSlot_keeps
    | with_reducible apply completeId_keeps
    | with_reducible apply fire_keeps
    | with_reducible apply foldl_keeps
    | (intro y s hs; try dsimp only)
    | (intro s hs; try dsimp only)
    | split
    | (simp only [keeps_mk]; with_reducible refine keeps_fields ?_)

theorem doTamperAlarm_keeps {a : State} {x0 : Nat} {x1 : State}
    (h1 : Keeps a x1) :
    Keeps a (doTamperAlarm x0 x1) := by
  unfold doTamperAlarm
  try dsimp only
  repeat' first
    | with_reducible assumption
    | with_reducible apply fire_keeps
    | with_reducible apply zeroise_keeps
    | with_reducible apply beginWake_keeps
    | with_reducible apply foldl_keeps
    | (intro y s hs; try dsimp only)
    | (intro s hs; try dsimp only)
    | split
    | (simp only [keeps_mk]; with_reducible refine keeps_fields ?_)

theorem doTamperInactive_keeps {a : State} {x0 : Nat} {x1 : State}
    (h1 : Keeps a x1) :
    Keeps a (doTamperInactive x0 x1) := by
  unfold doTamperInactive
  try dsimp only
  repeat' first
    | with_reducible assumption
    | with_reducible apply foldl_keeps
    | (intro y s hs; try dsimp only)
    | (intro s hs; try dsimp only)
    | split
    | (simp only [keeps_mk]; with_reducible refine keeps_fields ?_)

theorem doTamperStore_keeps {a : State} {x0 : State}
    (h0 : Keeps a x0) :
    Keeps a (doTamperStore x0) := by
  unfold doTamperStore
  try dsimp only
  repeat' first
    | with_reducible assumption
    | with_reducible apply tallyTampers_keeps
    | with_reducible apply audit_keeps
    | with_reducible apply foldl_keeps
    | (intro y s hs; try dsimp only)
    | (intro s hs; try dsimp only)
    | split
    | (simp only [keeps_mk]; with_reducible refine keeps_fields ?_)

theorem doVaonPowerUp_keeps {a : State} {x0 : State}
    (h0 : Keeps a x0) :
    Keeps a (doVaonPowerUp x0) := by
  unfold doVaonPowerUp
  try dsimp only
  repeat' first
    | with_reducible assumption
    | with_reducible apply foldl_keeps
    | (intro y s hs; try dsimp only)
    | (intro s hs; try dsimp only)
    | split
    | (simp only [keeps_mk]; with_reducible refine keeps_fields ?_)

theorem useRxRecords_keeps {a : State} {x0 : State} {x1 : Nat}
    (h0 : Keeps a x0) :
    Keeps a (State.useRxRecords x0 x1) := by
  unfold State.useRxRecords
  try dsimp only
  repeat' first
    | with_reducible assumption
    | with_reducible apply setRx_keeps
    | with_reducible apply foldl_keeps
    | (intro y s hs; try dsimp only)
    | (intro s hs; try dsimp only)
    | split
    | (simp only [keeps_mk]; with_reducible refine keeps_fields ?_)

theorem startRound_keeps {a : State} {x0 : State} {x1 : Nat}
    (h0 : Keeps a x0) :
    Keeps a (State.startRound x0 x1) := by
  unfold State.startRound
  try dsimp only
  repeat' first
    | with_reducible assumption
    | with_reducible apply setRx_keeps
    | with_reducible apply useRxRecords_keeps
    | with_reducible apply foldl_keeps
    | (intro y s hs; try dsimp only)
    | (intro s hs; try dsimp only)
    | split
    | (simp only [keeps_mk]; with_reducible refine keeps_fields ?_)

theorem startLaneTrain_keeps {a : State} {x0 : Sys2Proof.LaneTrainP} {x1 : State}
    (h1 : Keeps a x1) :
    AnsKeeps a (startLaneTrain x0 x1) := by
  unfold startLaneTrain
  try dsimp only
  repeat' first
    | with_reducible assumption
    | with_reducible apply startRound_keeps
    | with_reducible apply orAns_keeps
    | exact ans_fail
    | with_reducible apply ans_done
    | with_reducible apply ans_result
    | with_reducible apply ans_later
    | with_reducible apply ans_silent
    | with_reducible apply foldl_keeps
    | (intro y s hs; try dsimp only)
    | (intro s hs; try dsimp only)
    | split
    | (simp only [keeps_mk]; with_reducible refine keeps_fields ?_)

theorem sendRequest_keeps {a : State} {x0 : State} {x1 : Nat} {x2 : Nat} {x3 : Nat} {x4 : Nat} {x5 : Nat}
    (h0 : Keeps a x0) :
    Keeps a (State.sendRequest x0 x1 x2 x3 x4 x5) := by
  unfold State.sendRequest
  try dsimp only
  repeat' first
    | with_reducible assumption
    | with_reducible apply askPartner_keeps
    | with_reducible apply setRxLane_keeps
    | with_reducible apply foldl_keeps
    | (intro y s hs; try dsimp only)
    | (intro s hs; try dsimp only)
    | split
    | (simp only [keeps_mk]; with_reducible refine keeps_fields ?_)

theorem setFirStep_keeps {a : State} {x0 : State} {x1 : Nat} {x2 : Nat} {x3 : FirStep}
    (h0 : Keeps a x0) :
    Keeps a (State.setFirStep x0 x1 x2 x3) := by
  unfold State.setFirStep
  try dsimp only
  repeat' first
    | with_reducible assumption
    | with_reducible apply setRxLane_keeps
    | with_reducible apply foldl_keeps
    | (intro y s hs; try dsimp only)
    | (intro s hs; try dsimp only)
    | split
    | (simp only [keeps_mk]; with_reducible refine keeps_fields ?_)

theorem laneDone_keeps {a : State} {x0 : State} {x1 : Nat} {x2 : Nat}
    (h0 : Keeps a x0) :
    Keeps a (State.laneDone x0 x1 x2) := by
  unfold State.laneDone
  try dsimp only
  repeat' first
    | with_reducible assumption
    | with_reducible apply setRxLane_keeps
    | with_reducible apply setTxLane_keeps
    | with_reducible apply foldl_keeps
    | (intro y s hs; try dsimp only)
    | (intro s hs; try dsimp only)
    | split
    | (simp only [keeps_mk]; with_reducible refine keeps_fields ?_)

theorem restoreFir_keeps {a : State} {x0 : State} {x1 : Nat} {x2 : Nat} {x3 : Bool}
    (h0 : Keeps a x0) :
    Keeps a (State.restoreFir x0 x1 x2 x3) := by
  unfold State.restoreFir
  try dsimp only
  repeat' first
    | with_reducible assumption
    | with_reducible apply sendRequest_keeps
    | with_reducible apply setFirStep_keeps
    | with_reducible apply laneDone_keeps
    | with_reducible apply foldl_keeps
    | (intro y s hs; try dsimp only)
    | (intro s hs; try dsimp only)
    | split
    | (simp only [keeps_mk]; with_reducible refine keeps_fields ?_)

theorem failRound_keeps {a : State} {x0 : State} {x1 : Nat}
    (h0 : Keeps a x0) :
    Keeps a (State.failRound x0 x1) := by
  unfold State.failRound
  try dsimp only
  repeat' first
    | with_reducible assumption
    | with_reducible apply setRx_keeps
    | with_reducible apply each_keeps
    | with_reducible apply restoreFir_keeps
    | with_reducible apply rxEvent_keeps
    | with_reducible apply useRxRecords_keeps
    | with_reducible apply completeWhere_keeps
    | with_reducible apply foldl_keeps
    | (intro y s hs; try dsimp only)
    | (intro s hs; try dsimp only)
    | split
    | (simp only [keeps_mk]; with_reducible refine keeps_fields ?_)

theorem maybeVerify_keeps {a : State} {x0 : State} {x1 : Nat}
    (h0 : Keeps a x0) :
    Keeps a (State.maybeVerify x0 x1) := by
  unfold State.maybeVerify
  try dsimp only
  repeat' first
    | with_reducible assumption
    | with_reducible apply setRx_keeps
    | with_reducible apply foldl_keeps
    | (intro y s hs; try dsimp only)
    | (intro s hs; try dsimp only)
    | split
    | (simp only [keeps_mk]; with_reducible refine keeps_fields ?_)

theorem firGo_keeps {a : State} {x0 : State} {x1 : Nat} {x2 : Nat} {x3 : FirStep}
    (h0 : Keeps a x0) :
    Keeps a (State.firGo x0 x1 x2 x3) := by
  unfold State.firGo
  try dsimp only
  repeat' first
    | with_reducible assumption
    | with_reducible apply sendRequest_keeps
    | with_reducible apply setFirStep_keeps
    | with_reducible apply maybeVerify_keeps
    | with_reducible apply foldl_keeps
    | (intro y s hs; try dsimp only)
    | (intro s hs; try dsimp only)
    | split
    | (simp only [keeps_mk]; with_reducible refine keeps_fields ?_)

theorem applyRecords_keeps {a : State} {x0 : Nat} {x1 : Nat} {x2 : State}
    (h2 : Keeps a x2) :
    Keeps a (applyRecords x0 x1 x2) := by
  unfold applyRecords
  try dsimp only
  repeat' first
    | with_reducible assumption
    | with_reducible apply useRxRecords_keeps
    | with_reducible apply setTx_keeps
    | with_reducible apply foldl_keeps
    | (intro y s hs; try dsimp only)
    | (intro s hs; try dsimp only)
    | split
    | (simp only [keeps_mk]; with_reducible refine keeps_fields ?_)

theorem startFir_keeps {a : State} {x0 : State} {x1 : Nat}
    (h0 : Keeps a x0) :
    Keeps a (State.startFir x0 x1) := by
  unfold State.startFir
  try dsimp only
  repeat' first
    | with_reducible assumption
    | with_reducible apply each_keeps
    | with_reducible apply sendRequest_keeps
    | with_reducible apply setRxLane_keeps
    | with_reducible apply setRx_keeps
    | with_reducible apply foldl_keeps
    | (intro y s hs; try dsimp only)
    | (intro s hs; try dsimp only)
    | split
    | (simp only [keeps_mk]; with_reducible refine keeps_fields ?_)

theorem maybeFir_keeps {a : State} {x0 : State} {x1 : Nat}
    (h0 : Keeps a x0) :
    Keeps a (State.maybeFir x0 x1) := by
  unfold State.maybeFir
  try dsimp only
  repeat' first
    | with_reducible assumption
    | with_reducible apply startFir_keeps
    | with_reducible apply foldl_keeps
    | (intro y s hs; try dsimp only)
    | (intro s hs; try dsimp only)
    | split
    | (simp only [keeps_mk]; with_reducible refine keeps_fields ?_)

theorem sendDone_keeps {a : State} {x0 : State} {x1 : Nat}
    (h0 : Keeps a x0) :
    Keeps a (State.sendDone x0 x1) := by
  unfold State.sendDone
  try dsimp only
  repeat' first
    | with_reducible assumption
    | with_reducible apply each_keeps
    | with_reducible apply laneDone_keeps
    | with_reducible apply foldl_keeps
    | (intro y s hs; try dsimp only)
    | (intro s hs; try dsimp only)
    | split
    | (simp only [keeps_mk]; with_reducible refine keeps_fields ?_)

theorem writeRxRecords_keeps {a : State} {x0 : State} {x1 : Nat}
    (h0 : Keeps a x0) :
    Keeps a (State.writeRxRecords x0 x1) := by
  unfold State.writeRxRecords
  try dsimp only
  repeat' first
    | with_reducible assumption
    | with_reducible apply each_keeps
    | with_reducible apply nvMerge_keeps
    | with_reducible apply foldl_keeps
    | (intro y s hs; try dsimp only)
    | (intro s hs; try dsimp only)
    | split
    | (simp only [keeps_mk]; with_reducible refine keeps_fields ?_)

theorem writeTxRecord_keeps {a : State} {x0 : State} {x1 : Nat} {x2 : Nat}
    (h0 : Keeps a x0) :
    Keeps a (State.writeTxRecord x0 x1 x2) := by
  unfold State.writeTxRecord
  try dsimp only
  repeat' first
    | with_reducible assumption
    | with_reducible apply nvMerge_keeps
    | with_reducible apply foldl_keeps
    | (intro y s hs; try dsimp only)
    | (intro s hs; try dsimp only)
    | split
    | (simp only [keeps_mk]; with_reducible refine keeps_fields ?_)

theorem doBcAck_keeps {a : State} {x0 : Nat} {x1 : Nat} {x2 : Nat} {x3 : State}
    (h3 : Keeps a x3) :
    Keeps a (doBcAck x0 x1 x2 x3) := by
  unfold doBcAck
  try dsimp only
  repeat' first
    | with_reducible assumption
    | with_reducible apply setRxLane_keeps
    | with_reducible apply firGo_keeps
    | with_reducible apply sendRequest_keeps
    | with_reducible apply restoreFir_keeps
    | with_reducible apply laneDone_keeps
    | with_reducible apply rxEvent_keeps
    | with_reducible apply foldl_keeps
    | (intro y s hs; try dsimp only)
    | (intro s hs; try dsimp only)
    | split
    | (simp only [keeps_mk]; with_reducible refine keeps_fields ?_)

theorem doBcDone_keeps {a : State} {x0 : Nat} {x1 : Nat} {x2 : State}
    (h2 : Keeps a x2) :
    Keeps a (doBcDone x0 x1 x2) := by
  unfold doBcDone
  try dsimp only
  repeat' first
    | with_reducible assumption
    | with_reducible apply setTxLane_keeps
    | with_reducible apply writeTxRecord_keeps
    | with_reducible apply foldl_keeps
    | (intro y s hs; try dsimp only)
    | (intro s hs; try dsimp only)
    | split
    | (simp only [keeps_mk]; with_reducible refine keeps_fields ?_)

theorem doBcRequest_keeps {a : State} {x0 : Nat} {x1 : Nat} {x2 : Nat} {x3 : State}
    (h3 : Keeps a x3) :
    Keeps a (doBcRequest x0 x1 x2 x3) := by
  unfold doBcRequest
  try dsimp only
  repeat' first
    | with_reducible assumption
    | with_reducible apply setTxLane_keeps
    | with_reducible apply setTxStream_keeps
    | with_reducible apply foldl_keeps
    | (intro y s hs; try dsimp only)
    | (intro s hs; try dsimp only)
    | split
    | (simp only [keeps_mk]; with_reducible refine keeps_fields ?_)

theorem doDllLock_keeps {a : State} {x0 : Nat} {x1 : State}
    (h1 : Keeps a x1) :
    Keeps a (doDllLock x0 x1) := by
  unfold doDllLock
  try dsimp only
  repeat' first
    | with_reducible assumption
    | with_reducible apply setRx_keeps
    | with_reducible apply lanesHunt_keeps
    | with_reducible apply foldl_keeps
    | (intro y s hs; try dsimp only)
    | (intro s hs; try dsimp only)
    | split
    | (simp only [keeps_mk]; with_reducible refine keeps_fields ?_)

theorem doEnterLocked_keeps {a : State} {x0 : Nat} {x1 : Nat} {x2 : State}
    (h2 : Keeps a x2) :
    Keeps a (doEnterLocked x0 x1 x2) := by
  unfold doEnterLocked
  try dsimp only
  repeat' first
    | with_reducible assumption
    | with_reducible apply laneTo_keeps
    | with_reducible apply maybeFir_keeps
    | with_reducible apply leaveIdle_keeps
    | with_reducible apply foldl_keeps
    | (intro y s hs; try dsimp only)
    | (intro s hs; try dsimp only)
    | split
    | (simp only [keeps_mk]; with_reducible refine keeps_fields ?_)

theorem doFirDwell_keeps {a : State} {x0 : Nat} {x1 : Nat} {x2 : State}
    (h2 : Keeps a x2) :
    Keeps a (doFirDwell x0 x1 x2) := by
  unfold doFirDwell
  try dsimp only
  repeat' first
    | with_reducible assumption
    | with_reducible apply firGo_keeps
    | with_reducible apply setRxLane_keeps
    | with_reducible apply foldl_keeps
    | (intro y s hs; try dsimp only)
    | (intro s hs; try dsimp only)
    | split
    | (simp only [keeps_mk]; with_reducible refine keeps_fields ?_)

theorem doPhaseTimeout_keeps {a : State} {x0 : Nat} {x1 : State}
    (h1 : Keeps a x1) :
    Keeps a (doPhaseTimeout x0 x1) := by
  unfold doPhaseTimeout
  try dsimp only
  repeat' first
    | with_reducible assumption
    | with_reducible apply failRound_keeps
    | with_reducible apply foldl_keeps
    | (intro y s hs; try dsimp only)
    | (intro s hs; try dsimp only)
    | split
    | (simp only [keeps_mk]; with_reducible refine keeps_fields ?_)

theorem doRetryWait_keeps {a : State} {x0 : Nat} {x1 : State}
    (h1 : Keeps a x1) :
    Keeps a (doRetryWait x0 x1) := by
  unfold doRetryWait
  try dsimp only
  repeat' first
    | with_reducible assumption
    | with_reducible apply each_keeps
    | with_reducible apply sendRequest_keeps
    | with_reducible apply setRx_keeps
    | with_reducible apply startRound_keeps
    | with_reducible apply foldl_keeps
    | (intro y s hs; try dsimp only)
    | (intro s hs; try dsimp only)
    | split
    | (simp only [keeps_mk]; with_reducible refine keeps_fields ?_)

theorem doRoundStart_keeps {a : State} {x0 : Nat} {x1 : State}
    (h1 : Keeps a x1) :
    Keeps a (doRoundStart x0 x1) := by
  unfold doRoundStart
  try dsimp only
  repeat' first
    | with_reducible assumption
    | with_reducible apply startRound_keeps
    | with_reducible apply foldl_keeps
    | (intro y s hs; try dsimp only)
    | (intro s hs; try dsimp only)
    | split
    | (simp only [keeps_mk]; with_reducible refine keeps_fields ?_)

theorem doRoundDue_keeps {a : State} {x0 : Nat} {x1 : State}
    (h1 : Keeps a x1) :
    Keeps a (doRoundDue x0 x1) := by
  unfold doRoundDue
  try dsimp only
  repeat' first
    | with_reducible assumption
    | with_reducible apply doRoundStart_keeps
    | with_reducible apply foldl_keeps
    | (intro y s hs; try dsimp only)
    | (intro s hs; try dsimp only)
    | split
    | (simp only [keeps_mk]; with_reducible refine keeps_fields ?_)

theorem doRxAdaptEnd_keeps {a : State} {x0 : Nat} {x1 : List Sys2Proof.RxSet} {x2 : State}
    (h2 : Keeps a x2) :
    Keeps a (doRxAdaptEnd x0 x1 x2) := by
  unfold doRxAdaptEnd
  try dsimp only
  repeat' first
    | with_reducible assumption
    | with_reducible apply maybeFir_keeps
    | with_reducible apply setRx_keeps
    | with_reducible apply foldl_keeps
    | (intro y s hs; try dsimp only)
    | (intro s hs; try dsimp only)
    | split
    | (simp only [keeps_mk]; with_reducible refine keeps_fields ?_)

theorem doSleepRequest_keeps {a : State} {x0 : Nat} {x1 : Nat} {x2 : Nat} {x3 : State}
    (h3 : Keeps a x3) :
    Keeps a (doSleepRequest x0 x1 x2 x3) := by
  unfold doSleepRequest
  try dsimp only
  repeat' first
    | with_reducible assumption
    | with_reducible apply rxEvent_keeps
    | with_reducible apply setTxLane_keeps
    | with_reducible apply foldl_keeps
    | (intro y s hs; try dsimp only)
    | (intro s hs; try dsimp only)
    | split
    | (simp only [keeps_mk]; with_reducible refine keeps_fields ?_)

theorem doUnanswered_keeps {a : State} {x0 : Nat} {x1 : Nat} {x2 : State}
    (h2 : Keeps a x2) :
    Keeps a (doUnanswered x0 x1 x2) := by
  unfold doUnanswered
  try dsimp only
  repeat' first
    | with_reducible assumption
    | with_reducible apply setTxLane_keeps
    | with_reducible apply setRxLane_keeps
    | with_reducible apply failRound_keeps
    | with_reducible apply laneDone_keeps
    | with_reducible apply foldl_keeps
    | (intro y s hs; try dsimp only)
    | (intro s hs; try dsimp only)
    | split
    | (simp only [keeps_mk]; with_reducible refine keeps_fields ?_)

theorem doVerifyEnd_keeps {a : State} {x0 : Nat} {x1 : State}
    (h1 : Keeps a x1) :
    Keeps a (doVerifyEnd x0 x1) := by
  unfold doVerifyEnd
  try dsimp only
  repeat' first
    | with_reducible assumption
    | with_reducible apply setRx_keeps
    | with_reducible apply completeWhere_keeps
    | with_reducible apply writeRxRecords_keeps
    | with_reducible apply sendDone_keeps
    | with_reducible apply failRound_keeps
    | with_reducible apply foldl_keeps
    | (intro y s hs; try dsimp only)
    | (intro s hs; try dsimp only)
    | split
    | (simp only [keeps_mk]; with_reducible refine keeps_fields ?_)

theorem startRasterSet_keeps {a : State} {x0 : Sys2Proof.Hdr} {x1 : Sys2Proof.RasterSetP} {x2 : State}
    (h2 : Keeps a x2) :
    AnsKeeps a (startRasterSet x0 x1 x2) := by
  unfold startRasterSet
  try dsimp only
  repeat' first
    | with_reducible assumption
    | with_reducible apply orAns_keeps
    | exact ans_fail
    | with_reducible apply ans_done
    | with_reducible apply ans_result
    | with_reducible apply ans_later
    | with_reducible apply ans_silent
    | with_reducible apply foldl_keeps
    | (intro y s hs; try dsimp only)
    | (intro s hs; try dsimp only)
    | split
    | (simp only [keeps_mk]; with_reducible refine keeps_fields ?_)

theorem startRasterQuery_keeps {a : State} {x0 : Sys2Proof.RasterQueryP} {x1 : State}
    (h1 : Keeps a x1) :
    AnsKeeps a (startRasterQuery x0 x1) := by
  unfold startRasterQuery
  try dsimp only
  repeat' first
    | with_reducible assumption
    | with_reducible apply orAns_keeps
    | exact ans_fail
    | with_reducible apply ans_done
    | with_reducible apply ans_result
    | with_reducible apply ans_later
    | with_reducible apply ans_silent
    | with_reducible apply foldl_keeps
    | (intro y s hs; try dsimp only)
    | (intro s hs; try dsimp only)
    | split
    | (simp only [keeps_mk]; with_reducible refine keeps_fields ?_)

theorem startStcSet_keeps {a : State} {x0 : Sys2Proof.Hdr} {x1 : Sys2Proof.StcSetP} {x2 : State}
    (h2 : Keeps a x2) :
    AnsKeeps a (startStcSet x0 x1 x2) := by
  unfold startStcSet
  try dsimp only
  repeat' first
    | with_reducible assumption
    | with_reducible apply orAns_keeps
    | exact ans_fail
    | with_reducible apply ans_done
    | with_reducible apply ans_result
    | with_reducible apply ans_later
    | with_reducible apply ans_silent
    | with_reducible apply foldl_keeps
    | (intro y s hs; try dsimp only)
    | (intro s hs; try dsimp only)
    | split
    | (simp only [keeps_mk]; with_reducible refine keeps_fields ?_)

theorem startStcRead_keeps {a : State} {x0 : Sys2Proof.ResP} {x1 : State}
    (h1 : Keeps a x1) :
    AnsKeeps a (startStcRead x0 x1) := by
  unfold startStcRead
  try dsimp only
  repeat' first
    | with_reducible assumption
    | with_reducible apply orAns_keeps
    | exact ans_fail
    | with_reducible apply ans_done
    | with_reducible apply ans_result
    | with_reducible apply ans_later
    | with_reducible apply ans_silent
    | with_reducible apply foldl_keeps
    | (intro y s hs; try dsimp only)
    | (intro s hs; try dsimp only)
    | split
    | (simp only [keeps_mk]; with_reducible refine keeps_fields ?_)

theorem startSchedCancel_keeps {a : State} {x0 : Job → State → State} {x1 : Sys2Proof.SchedCancelP} {x2 : State}
    (h0 : ∀ y0 s, Keeps a s → Keeps a (x0 y0 s)) (h2 : Keeps a x2) :
    AnsKeeps a (startSchedCancel x0 x1 x2) := by
  unfold startSchedCancel
  try dsimp only
  repeat' first
    | with_reducible assumption
    | with_reducible apply h0
    | with_reducible apply complete_keeps
    | with_reducible apply orAns_keeps
    | exact ans_fail
    | with_reducible apply ans_done
    | with_reducible apply ans_result
    | with_reducible apply ans_later
    | with_reducible apply ans_silent
    | with_reducible apply foldl_keeps
    | (intro y s hs; try dsimp only)
    | (intro s hs; try dsimp only)
    | split
    | (simp only [keeps_mk]; with_reducible refine keeps_fields ?_)

theorem cutLines_keeps {a : State} {x0 : State} {x1 : Nat} {x2 : Nat}
    (h0 : Keeps a x0) :
    Keeps a (State.cutLines x0 x1 x2) := by
  unfold State.cutLines
  try dsimp only
  repeat' first
    | with_reducible assumption
    | with_reducible apply completeWhere_keeps
    | with_reducible apply foldl_keeps
    | (intro y s hs; try dsimp only)
    | (intro s hs; try dsimp only)
    | split
    | (simp only [keeps_mk]; with_reducible refine keeps_fields ?_)

theorem applyHouseSet_keeps {a : State} {x0 : Job} {x1 : Sys2Proof.RasterSetP} {x2 : State}
    (h2 : Keeps a x2) :
    Keeps a (applyHouseSet x0 x1 x2) := by
  unfold applyHouseSet
  try dsimp only
  repeat' first
    | with_reducible assumption
    | with_reducible apply setHouse_keeps
    | with_reducible apply each_keeps
    | with_reducible apply setOutRaster_keeps
    | with_reducible apply cutLines_keeps
    | with_reducible apply complete_keeps
    | with_reducible apply foldl_keeps
    | (intro y s hs; try dsimp only)
    | (intro s hs; try dsimp only)
    | split
    | (simp only [keeps_mk]; with_reducible refine keeps_fields ?_)

theorem applyRasterSet_keeps {a : State} {x0 : Job} {x1 : Sys2Proof.RasterSetP} {x2 : State}
    (h2 : Keeps a x2) :
    Keeps a (applyRasterSet x0 x1 x2) := by
  unfold applyRasterSet
  try dsimp only
  repeat' first
    | with_reducible assumption
    | with_reducible apply applyHouseSet_keeps
    | with_reducible apply setJob_keeps
    | with_reducible apply foldl_keeps
    | (intro y s hs; try dsimp only)
    | (intro s hs; try dsimp only)
    | split
    | (simp only [keeps_mk]; with_reducible refine keeps_fields ?_)

theorem timerCompare_keeps {a : State} {x0 : State}
    (h0 : Keeps a x0) :
    Keeps a (State.timerCompare x0) := by
  unfold State.timerCompare
  try dsimp only
  repeat' first
    | with_reducible assumption
    | with_reducible apply fire_keeps
    | with_reducible apply foldl_keeps
    | (intro y s hs; try dsimp only)
    | (intro s hs; try dsimp only)
    | split
    | (simp only [keeps_mk]; with_reducible refine keeps_fields ?_)

theorem applyStcSet_keeps {a : State} {x0 : Job} {x1 : Sys2Proof.StcSetP} {x2 : State}
    (h2 : Keeps a x2) :
    Keeps a (applyStcSet x0 x1 x2) := by
  unfold applyStcSet
  try dsimp only
  repeat' first
    | with_reducible assumption
    | with_reducible apply timerCompare_keeps
    | with_reducible apply complete_keeps
    | with_reducible apply foldl_keeps
    | (intro y s hs; try dsimp only)
    | (intro s hs; try dsimp only)
    | split
    | (simp only [keeps_mk]; with_reducible refine keeps_fields ?_)

theorem setRef_keeps {a : State} {x0 : State} {x1 : Nat} {x2 : Ref}
    (h0 : Keeps a x0) :
    Keeps a (State.setRef x0 x1 x2) := by
  unfold State.setRef
  try dsimp only
  repeat' first
    | with_reducible assumption
    | with_reducible apply foldl_keeps
    | (intro y s hs; try dsimp only)
    | (intro s hs; try dsimp only)
    | split
    | (simp only [keeps_mk]; with_reducible refine keeps_fields ?_)

theorem setSynth_keeps {a : State} {x0 : State} {x1 : Nat} {x2 : Synth}
    (h0 : Keeps a x0) :
    Keeps a (State.setSynth x0 x1 x2) := by
  unfold State.setSynth
  try dsimp only
  repeat' first
    | with_reducible assumption
    | with_reducible apply foldl_keeps
    | (intro y s hs; try dsimp only)
    | (intro s hs; try dsimp only)
    | split
    | (simp only [keeps_mk]; with_reducible refine keeps_fields ?_)

theorem writeSearch_keeps {a : State} {x0 : State} {x1 : Nat} {x2 : Nat} {x3 : Nat} {x4 : Int} {x5 : Nat} {x6 : Nat}
    (h0 : Keeps a x0) :
    Keeps a (State.writeSearch x0 x1 x2 x3 x4 x5 x6) := by
  unfold State.writeSearch
  try dsimp only
  repeat' first
    | with_reducible assumption
    | with_reducible apply nvMerge_keeps
    | with_reducible apply foldl_keeps
    | (intro y s hs; try dsimp only)
    | (intro s hs; try dsimp only)
    | split
    | (simp only [keeps_mk]; with_reducible refine keeps_fields ?_)

theorem startSearch_keeps {a : State} {x0 : State} {x1 : Nat}
    (h0 : Keeps a x0) :
    Keeps a (State.startSearch x0 x1) := by
  unfold State.startSearch
  try dsimp only
  repeat' first
    | with_reducible assumption
    | with_reducible apply setSynth_keeps
    | with_reducible apply foldl_keeps
    | (intro y s hs; try dsimp only)
    | (intro s hs; try dsimp only)
    | split
    | (simp only [keeps_mk]; with_reducible refine keeps_fields ?_)

theorem syncOutlet_keeps {a : State} {x0 : State} {x1 : Nat}
    (h0 : Keeps a x0) :
    Keeps a (State.syncOutlet x0 x1) := by
  unfold State.syncOutlet
  try dsimp only
  repeat' first
    | with_reducible assumption
    | with_reducible apply fire_keeps
    | with_reducible apply setSynth_keeps
    | with_reducible apply foldl_keeps
    | (intro y s hs; try dsimp only)
    | (intro s hs; try dsimp only)
    | split
    | (simp only [keeps_mk]; with_reducible refine keeps_fields ?_)

theorem syncStc_keeps {a : State} {x0 : State}
    (h0 : Keeps a x0) :
    Keeps a (State.syncStc x0) := by
  unfold State.syncStc
  try dsimp only
  repeat' first
    | with_reducible assumption
    | with_reducible apply foldl_keeps
    | (intro y s hs; try dsimp only)
    | (intro s hs; try dsimp only)
    | split
    | (simp only [keeps_mk]; with_reducible refine keeps_fields ?_)

theorem syncHouse_keeps {a : State} {x0 : State} {x1 : Nat}
    (h0 : Keeps a x0) :
    Keeps a (State.syncHouse x0 x1) := by
  unfold State.syncHouse
  try dsimp only
  repeat' first
    | with_reducible assumption
    | with_reducible apply setHouse_keeps
    | with_reducible apply foldl_keeps
    | (intro y s hs; try dsimp only)
    | (intro s hs; try dsimp only)
    | split
    | (simp only [keeps_mk]; with_reducible refine keeps_fields ?_)

theorem syncClocks_keeps {a : State} {x0 : State}
    (h0 : Keeps a x0) :
    Keeps a (State.syncClocks x0) := by
  unfold State.syncClocks
  try dsimp only
  repeat' first
    | with_reducible assumption
    | with_reducible apply each_keeps
    | with_reducible apply syncOutlet_keeps
    | with_reducible apply syncStc_keeps
    | with_reducible apply syncHouse_keeps
    | with_reducible apply foldl_keeps
    | (intro y s hs; try dsimp only)
    | (intro s hs; try dsimp only)
    | split
    | (simp only [keeps_mk]; with_reducible refine keeps_fields ?_)

theorem retune_keeps {a : State} {x0 : State} {x1 : Nat}
    (h0 : Keeps a x0) :
    Keeps a (State.retune x0 x1) := by
  unfold State.retune
  try dsimp only
  repeat' first
    | with_reducible assumption
    | with_reducible apply setSynth_keeps
    | with_reducible apply writeSearch_keeps
    | with_reducible apply startSearch_keeps
    | with_reducible apply syncClocks_keeps
    | with_reducible apply foldl_keeps
    | (intro y s hs; try dsimp only)
    | (intro s hs; try dsimp only)
    | split
    | (simp only [keeps_mk]; with_reducible refine keeps_fields ?_)

theorem setReference_keeps {a : State} {x0 : State} {x1 : Sys2Proof.RefSetP}
    (h0 : Keeps a x0) :
    Keeps a (State.setReference x0 x1) := by
  unfold State.setReference
  try dsimp only
  repeat' first
    | with_reducible assumption
    | with_reducible apply setRef_keeps
    | with_reducible apply retune_keeps
    | with_reducible apply foldl_keeps
    | (intro y s hs; try dsimp only)
    | (intro s hs; try dsimp only)
    | split
    | (simp only [keeps_mk]; with_reducible refine keeps_fields ?_)

theorem laneBypass_keeps {a : State} {x0 : State} {x1 : Nat}
    (h0 : Keeps a x0) :
    Keeps a (State.laneBypass x0 x1) := by
  unfold State.laneBypass
  try dsimp only
  repeat' first
    | with_reducible assumption
    | with_reducible apply each_keeps
    | with_reducible apply setTx_keeps
    | with_reducible apply foldl_keeps
    | (intro y s hs; try dsimp only)
    | (intro s hs; try dsimp only)
    | split
    | (simp only [keeps_mk]; with_reducible refine keeps_fields ?_)

theorem setSynthesizer_keeps {a : State} {x0 : State} {x1 : Sys2Proof.SynthSetP}
    (h0 : Keeps a x0) :
    Keeps a (State.setSynthesizer x0 x1) := by
  unfold State.setSynthesizer
  try dsimp only
  repeat' first
    | with_reducible assumption
    | with_reducible apply setSynth_keeps
    | with_reducible apply retune_keeps
    | with_reducible apply laneBypass_keeps
    | with_reducible apply foldl_keeps
    | (intro y s hs; try dsimp only)
    | (intro s hs; try dsimp only)
    | split
    | (simp only [keeps_mk]; with_reducible refine keeps_fields ?_)

theorem setClkout_keeps {a : State} {x0 : State} {x1 : Nat} {x2 : ClkOut}
    (h0 : Keeps a x0) :
    Keeps a (State.setClkout x0 x1 x2) := by
  unfold State.setClkout
  try dsimp only
  repeat' first
    | with_reducible assumption
    | with_reducible apply foldl_keeps
    | (intro y s hs; try dsimp only)
    | (intro s hs; try dsimp only)
    | split
    | (simp only [keeps_mk]; with_reducible refine keeps_fields ?_)

theorem setClockOut_keeps {a : State} {x0 : State} {x1 : Sys2Proof.ClkoutSetP}
    (h0 : Keeps a x0) :
    Keeps a (State.setClockOut x0 x1) := by
  unfold State.setClockOut
  try dsimp only
  repeat' first
    | with_reducible assumption
    | with_reducible apply setClkout_keeps
    | with_reducible apply foldl_keeps
    | (intro y s hs; try dsimp only)
    | (intro s hs; try dsimp only)
    | split
    | (simp only [keeps_mk]; with_reducible refine keeps_fields ?_)

theorem applyClockRecord_keeps {a : State} {x0 : State}
    (h0 : Keeps a x0) :
    Keeps a (State.applyClockRecord x0) := by
  unfold State.applyClockRecord
  try dsimp only
  repeat' first
    | with_reducible assumption
    | with_reducible apply each_keeps
    | with_reducible apply setReference_keeps
    | with_reducible apply setSynthesizer_keeps
    | with_reducible apply setClockOut_keeps
    | with_reducible apply foldl_keeps
    | (intro y s hs; try dsimp only)
    | (intro s hs; try dsimp only)
    | split
    | (simp only [keeps_mk]; with_reducible refine keeps_fields ?_)

theorem saveClock_keeps {a : State} {x0 : State} {x1 : Nat} {x2 : List Sys2Proof.Byte}
    (h0 : Keeps a x0) :
    Keeps a (State.saveClock x0 x1 x2) := by
  unfold State.saveClock
  try dsimp only
  repeat' first
    | with_reducible assumption
    | with_reducible apply fire_keeps
    | with_reducible apply count_keeps
    | with_reducible apply each_keeps
    | with_reducible apply nvPage_keeps
    | with_reducible apply foldl_keeps
    | (intro y s hs; try dsimp only)
    | (intro s hs; try dsimp only)
    | split
    | (simp only [keeps_mk]; with_reducible refine keeps_fields ?_)

theorem startRefSet_keeps {a : State} {x0 : Sys2Proof.RefSetP} {x1 : State}
    (h1 : Keeps a x1) :
    AnsKeeps a (startRefSet x0 x1) := by
  unfold startRefSet
  try dsimp only
  repeat' first
    | with_reducible assumption
    | with_reducible apply saveClock_keeps
    | with_reducible apply setReference_keeps
    | with_reducible apply orAns_keeps
    | exact ans_fail
    | with_reducible apply ans_done
    | with_reducible apply ans_result
    | with_reducible apply ans_later
    | with_reducible apply ans_silent
    | with_reducible apply foldl_keeps
    | (intro y s hs; try dsimp only)
    | (intro s hs; try dsimp only)
    | split
    | (simp only [keeps_mk]; with_reducible refine keeps_fields ?_)

theorem startSynthSet_keeps {a : State} {x0 : Sys2Proof.SynthSetP} {x1 : State}
    (h1 : Keeps a x1) :
    AnsKeeps a (startSynthSet x0 x1) := by
  unfold startSynthSet
  try dsimp only
  repeat' first
    | with_reducible assumption
    | with_reducible apply saveClock_keeps
    | with_reducible apply setSynthesizer_keeps
    | with_reducible apply orAns_keeps
    | exact ans_fail
    | with_reducible apply ans_done
    | with_reducible apply ans_result
    | with_reducible apply ans_later
    | with_reducible apply ans_silent
    | with_reducible apply foldl_keeps
    | (intro y s hs; try dsimp only)
    | (intro s hs; try dsimp only)
    | split
    | (simp only [keeps_mk]; with_reducible refine keeps_fields ?_)

theorem startBandTable_keeps {a : State} {x0 : Sys2Proof.BandTableSetP} {x1 : State}
    (h1 : Keeps a x1) :
    AnsKeeps a (startBandTable x0 x1) := by
  unfold startBandTable
  try dsimp only
  repeat' first
    | with_reducible assumption
    | with_reducible apply setSynth_keeps
    | with_reducible apply orAns_keeps
    | exact ans_fail
    | with_reducible apply ans_done
    | with_reducible apply ans_result
    | with_reducible apply ans_later
    | with_reducible apply ans_silent
    | with_reducible apply foldl_keeps
    | (intro y s hs; try dsimp only)
    | (intro s hs; try dsimp only)
    | split
    | (simp only [keeps_mk]; with_reducible refine keeps_fields ?_)

theorem clkoutSet_keeps {a : State} {x0 : State} {x1 : Sys2Proof.ClkoutSetP}
    (h0 : Keeps a x0) :
    Keeps a (State.clkoutSet x0 x1) := by
  unfold State.clkoutSet
  try dsimp only
  repeat' first
    | with_reducible assumption
    | with_reducible apply saveClock_keeps
    | with_reducible apply setClockOut_keeps
    | with_reducible apply foldl_keeps
    | (intro y s hs; try dsimp only)
    | (intro s hs; try dsimp only)
    | split
    | (simp only [keeps_mk]; with_reducible refine keeps_fields ?_)

theorem startClkoutSet_keeps {a : State} {x0 : Sys2Proof.ClkoutSetP} {x1 : State}
    (h1 : Keeps a x1) :
    AnsKeeps a (startClkoutSet x0 x1) := by
  unfold startClkoutSet
  try dsimp only
  repeat' first
    | with_reducible assumption
    | with_reducible apply clkoutSet_keeps
    | with_reducible apply orAns_keeps
    | exact ans_fail
    | with_reducible apply ans_done
    | with_reducible apply ans_result
    | with_reducible apply ans_later
    | with_reducible apply ans_silent
    | with_reducible apply foldl_keeps
    | (intro y s hs; try dsimp only)
    | (intro s hs; try dsimp only)
    | split
    | (simp only [keeps_mk]; with_reducible refine keeps_fields ?_)

theorem resetDividers_keeps {a : State} {x0 : State} {x1 : Nat}
    (h0 : Keeps a x0) :
    Keeps a (State.resetDividers x0 x1) := by
  unfold State.resetDividers
  try dsimp only
  repeat' first
    | with_reducible assumption
    | with_reducible apply each_keeps
    | with_reducible apply setClkout_keeps
    | with_reducible apply setSynth_keeps
    | with_reducible apply foldl_keeps
    | (intro y s hs; try dsimp only)
    | (intro s hs; try dsimp only)
    | split
    | (simp only [keeps_mk]; with_reducible refine keeps_fields ?_)

theorem startClkoutSync_keeps {a : State} {x0 : Sys2Proof.ClkoutSyncP} {x1 : State}
    (h1 : Keeps a x1) :
    AnsKeeps a (startClkoutSync x0 x1) := by
  unfold startClkoutSync
  try dsimp only
  repeat' first
    | with_reducible assumption
    | with_reducible apply resetDividers_keeps
    | with_reducible apply orAns_keeps
    | exact ans_fail
    | with_reducible apply ans_done
    | with_reducible apply ans_result
    | with_reducible apply ans_later
    | with_reducible apply ans_silent
    | with_reducible apply foldl_keeps
    | (intro y s hs; try dsimp only)
    | (intro s hs; try dsimp only)
    | split
    | (simp only [keeps_mk]; with_reducible refine keeps_fields ?_)

theorem startClockStatus_keeps {a : State} {x0 : Sys2Proof.ResP} {x1 : State}
    (h1 : Keeps a x1) :
    AnsKeeps a (startClockStatus x0 x1) := by
  unfold startClockStatus
  try dsimp only
  repeat' first
    | with_reducible assumption
    | with_reducible apply orAns_keeps
    | exact ans_fail
    | with_reducible apply ans_done
    | with_reducible apply ans_result
    | with_reducible apply ans_later
    | with_reducible apply ans_silent
    | with_reducible apply foldl_keeps
    | (intro y s hs; try dsimp only)
    | (intro s hs; try dsimp only)
    | split
    | (simp only [keeps_mk]; with_reducible refine keeps_fields ?_)

theorem applyClkoutSet_keeps {a : State} {x0 : Job} {x1 : Sys2Proof.ClkoutSetP} {x2 : State}
    (h2 : Keeps a x2) :
    Keeps a (applyClkoutSet x0 x1 x2) := by
  unfold applyClkoutSet
  try dsimp only
  repeat' first
    | with_reducible assumption
    | with_reducible apply complete_keeps
    | with_reducible apply clkoutSet_keeps
    | with_reducible apply foldl_keeps
    | (intro y s hs; try dsimp only)
    | (intro s hs; try dsimp only)
    | split
    | (simp only [keeps_mk]; with_reducible refine keeps_fields ?_)

theorem applyClkoutSync_keeps {a : State} {x0 : Job} {x1 : Sys2Proof.ClkoutSyncP} {x2 : State}
    (h2 : Keeps a x2) :
    Keeps a (applyClkoutSync x0 x1 x2) := by
  unfold applyClkoutSync
  try dsimp only
  repeat' first
    | with_reducible assumption
    | with_reducible apply complete_keeps
    | with_reducible apply resetDividers_keeps
    | with_reducible apply foldl_keeps
    | (intro y s hs; try dsimp only)
    | (intro s hs; try dsimp only)
    | split
    | (simp only [keeps_mk]; with_reducible refine keeps_fields ?_)

theorem realign_keeps {a : State} {x0 : State} {x1 : Nat}
    (h0 : Keeps a x0) :
    Keeps a (State.realign x0 x1) := by
  unfold State.realign
  try dsimp only
  repeat' first
    | with_reducible assumption
    | with_reducible apply setHouse_keeps
    | with_reducible apply foldl_keeps
    | (intro y s hs; try dsimp only)
    | (intro s hs; try dsimp only)
    | split
    | (simp only [keeps_mk]; with_reducible refine keeps_fields ?_)

theorem jump_keeps {a : State} {x0 : State} {x1 : Nat} {x2 : Int}
    (h0 : Keeps a x0) :
    Keeps a (State.jump x0 x1 x2) := by
  unfold State.jump
  try dsimp only
  repeat' first
    | with_reducible assumption
    | with_reducible apply setSynth_keeps
    | with_reducible apply realign_keeps
    | with_reducible apply foldl_keeps
    | (intro y s hs; try dsimp only)
    | (intro s hs; try dsimp only)
    | split
    | (simp only [keeps_mk]; with_reducible refine keeps_fields ?_)

theorem policyFrame_keeps {a : State} {x0 : State} {x1 : Nat}
    (h0 : Keeps a x0) :
    Keeps a (State.policyFrame x0 x1) := by
  unfold State.policyFrame
  try dsimp only
  repeat' first
    | with_reducible assumption
    | with_reducible apply jump_keeps
    | with_reducible apply setSynth_keeps
    | with_reducible apply foldl_keeps
    | (intro y s hs; try dsimp only)
    | (intro s hs; try dsimp only)
    | split
    | (simp only [keeps_mk]; with_reducible refine keeps_fields ?_)

theorem slewLine_keeps {a : State} {x0 : State} {x1 : Nat}
    (h0 : Keeps a x0) :
    Keeps a (State.slewLine x0 x1) := by
  unfold State.slewLine
  try dsimp only
  repeat' first
    | with_reducible assumption
    | with_reducible apply setSynth_keeps
    | with_reducible apply foldl_keeps
    | (intro y s hs; try dsimp only)
    | (intro s hs; try dsimp only)
    | split
    | (simp only [keeps_mk]; with_reducible refine keeps_fields ?_)

theorem doBandMiss_keeps {a : State} {x0 : Nat} {x1 : State}
    (h1 : Keeps a x1) :
    Keeps a (doBandMiss x0 x1) := by
  unfold doBandMiss
  try dsimp only
  repeat' first
    | with_reducible assumption
    | with_reducible apply fire_keeps
    | with_reducible apply startSearch_keeps
    | with_reducible apply foldl_keeps
    | (intro y s hs; try dsimp only)
    | (intro s hs; try dsimp only)
    | split
    | (simp only [keeps_mk]; with_reducible refine keeps_fields ?_)

theorem doBandSearch_keeps {a : State} {x0 : Nat} {x1 : Nat} {x2 : Int} {x3 : State}
    (h3 : Keeps a x3) :
    Keeps a (doBandSearch x0 x1 x2 x3) := by
  unfold doBandSearch
  try dsimp only
  repeat' first
    | with_reducible assumption
    | with_reducible apply writeSearch_keeps
    | with_reducible apply setSynth_keeps
    | with_reducible apply foldl_keeps
    | (intro y s hs; try dsimp only)
    | (intro s hs; try dsimp only)
    | split
    | (simp only [keeps_mk]; with_reducible refine keeps_fields ?_)

theorem doFabricLoss_keeps {a : State} {x0 : State}
    (h0 : Keeps a x0) :
    Keeps a (doFabricLoss x0) := by
  unfold doFabricLoss
  try dsimp only
  repeat' first
    | with_reducible assumption
    | with_reducible apply enterFailed_keeps
    | with_reducible apply foldl_keeps
    | (intro y s hs; try dsimp only)
    | (intro s hs; try dsimp only)
    | split
    | (simp only [keeps_mk]; with_reducible refine keeps_fields ?_)

theorem doFramePulse_keeps {a : State} {x0 : Nat} {x1 : Int} {x2 : State}
    (h2 : Keeps a x2) :
    Keeps a (doFramePulse x0 x1 x2) := by
  unfold doFramePulse
  try dsimp only
  repeat' first
    | with_reducible assumption
    | with_reducible apply setSynth_keeps
    | with_reducible apply setRef_keeps
    | with_reducible apply realign_keeps
    | with_reducible apply fire_keeps
    | with_reducible apply jump_keeps
    | with_reducible apply foldl_keeps
    | (intro y s hs; try dsimp only)
    | (intro s hs; try dsimp only)
    | split
    | (simp only [keeps_mk]; with_reducible refine keeps_fields ?_)

theorem doFrameSyncMissing_keeps {a : State} {x0 : Nat} {x1 : State}
    (h1 : Keeps a x1) :
    Keeps a (doFrameSyncMissing x0 x1) := by
  unfold doFrameSyncMissing
  try dsimp only
  repeat' first
    | with_reducible assumption
    | with_reducible apply fire_keeps
    | with_reducible apply setRef_keeps
    | with_reducible apply foldl_keeps
    | (intro y s hs; try dsimp only)
    | (intro s hs; try dsimp only)
    | split
    | (simp only [keeps_mk]; with_reducible refine keeps_fields ?_)

theorem doLaneLoss_keeps {a : State} {x0 : Nat} {x1 : State}
    (h1 : Keeps a x1) :
    Keeps a (doLaneLoss x0 x1) := by
  unfold doLaneLoss
  try dsimp only
  repeat' first
    | with_reducible assumption
    | with_reducible apply enterFailed_keeps
    | with_reducible apply setSynth_keeps
    | with_reducible apply foldl_keeps
    | (intro y s hs; try dsimp only)
    | (intro s hs; try dsimp only)
    | split
    | (simp only [keeps_mk]; with_reducible refine keeps_fields ?_)

theorem doLinePulse_keeps {a : State} {x0 : Nat} {x1 : Int} {x2 : State}
    (h2 : Keeps a x2) :
    Keeps a (doLinePulse x0 x1 x2) := by
  unfold doLinePulse
  try dsimp only
  repeat' first
    | with_reducible assumption
    | with_reducible apply setSynth_keeps
    | with_reducible apply foldl_keeps
    | (intro y s hs; try dsimp only)
    | (intro s hs; try dsimp only)
    | split
    | (simp only [keeps_mk]; with_reducible refine keeps_fields ?_)

theorem doRefAbsent_keeps {a : State} {x0 : Nat} {x1 : State}
    (h1 : Keeps a x1) :
    Keeps a (doRefAbsent x0 x1) := by
  unfold doRefAbsent
  try dsimp only
  repeat' first
    | with_reducible assumption
    | with_reducible apply fire_keeps
    | with_reducible apply setRef_keeps
    | with_reducible apply setSynth_keeps
    | with_reducible apply syncClocks_keeps
    | with_reducible apply foldl_keeps
    | (intro y s hs; try dsimp only)
    | (intro s hs; try dsimp only)
    | split
    | (simp only [keeps_mk]; with_reducible refine keeps_fields ?_)

theorem doRefPresent_keeps {a : State} {x0 : Nat} {x1 : State}
    (h1 : Keeps a x1) :
    Keeps a (doRefPresent x0 x1) := by
  unfold doRefPresent
  try dsimp only
  repeat' first
    | with_reducible assumption
    | with_reducible apply setSynth_keeps
    | with_reducible apply setRef_keeps
    | with_reducible apply setLatch_keeps
    | with_reducible apply syncClocks_keeps
    | with_reducible apply fire_keeps
    | with_reducible apply foldl_keeps
    | (intro y s hs; try dsimp only)
    | (intro s hs; try dsimp only)
    | split
    | (simp only [keeps_mk]; with_reducible refine keeps_fields ?_)

theorem doSyncIn_keeps {a : State} {x0 : State}
    (h0 : Keeps a x0) :
    Keeps a (doSyncIn x0) := by
  unfold doSyncIn
  try dsimp only
  repeat' first
    | with_reducible assumption
    | with_reducible apply each_keeps
    | with_reducible apply resetDividers_keeps
    | with_reducible apply foldl_keeps
    | (intro y s hs; try dsimp only)
    | (intro s hs; try dsimp only)
    | split
    | (simp only [keeps_mk]; with_reducible refine keeps_fields ?_)

theorem doSynthLock_keeps {a : State} {x0 : Nat} {x1 : State}
    (h1 : Keeps a x1) :
    Keeps a (doSynthLock x0 x1) := by
  unfold doSynthLock
  try dsimp only
  repeat' first
    | with_reducible assumption
    | with_reducible apply fire_keeps
    | with_reducible apply setSynth_keeps
    | with_reducible apply each_keeps
    | with_reducible apply applyRecords_keeps
    | with_reducible apply txStart_keeps
    | with_reducible apply syncClocks_keeps
    | with_reducible apply foldl_keeps
    | (intro y s hs; try dsimp only)
    | (intro s hs; try dsimp only)
    | split
    | (simp only [keeps_mk]; with_reducible refine keeps_fields ?_)

theorem doSynthLoss_keeps {a : State} {x0 : Nat} {x1 : State}
    (h1 : Keeps a x1) :
    Keeps a (doSynthLoss x0 x1) := by
  unfold doSynthLoss
  try dsimp only
  repeat' first
    | with_reducible assumption
    | with_reducible apply syncClocks_keeps
    | with_reducible apply fire_keeps
    | with_reducible apply setSynth_keeps
    | with_reducible apply foldl_keeps
    | (intro y s hs; try dsimp only)
    | (intro s hs; try dsimp only)
    | split
    | (simp only [keeps_mk]; with_reducible refine keeps_fields ?_)

theorem setCap_keeps {a : State} {x0 : State} {x1 : Nat} {x2 : Option CapBind}
    (h0 : Keeps a x0) :
    Keeps a (State.setCap x0 x1 x2) := by
  unfold State.setCap
  try dsimp only
  repeat' first
    | with_reducible assumption
    | with_reducible apply foldl_keeps
    | (intro y s hs; try dsimp only)
    | (intro s hs; try dsimp only)
    | split
    | (simp only [keeps_mk]; with_reducible refine keeps_fields ?_)

theorem traffic_keeps {a : State} {x0 : State} {x1 : Nat} {x2 : Nat} {x3 : Nat} {x4 : Nat}
    (h0 : Keeps a x0) :
    Keeps a (State.traffic x0 x1 x2 x3 x4) := by
  unfold State.traffic
  try dsimp only
  repeat' first
    | with_reducible assumption
    | with_reducible apply each_keeps
    | with_reducible apply count_keeps
    | with_reducible apply foldl_keeps
    | (intro y s hs; try dsimp only)
    | (intro s hs; try dsimp only)
    | split
    | (simp only [keeps_mk]; with_reducible refine keeps_fields ?_)

theorem addAnc_keeps {a : State} {x0 : State} {x1 : Nat} {x2 : Nat}
    (h0 : Keeps a x0) :
    Keeps a (State.addAnc x0 x1 x2).2 := by
  unfold State.addAnc
  try dsimp only
  repeat' first
    | with_reducible assumption
    | with_reducible apply pondWrite_keeps
    | with_reducible apply foldl_keeps
    | (intro y s hs; try dsimp only)
    | (intro s hs; try dsimp only)
    | split
    | (simp only [keeps_mk]; with_reducible refine keeps_fields ?_)

theorem setPlay_keeps {a : State} {x0 : State} {x1 : Nat} {x2 : Option PlayBind}
    (h0 : Keeps a x0) :
    Keeps a (State.setPlay x0 x1 x2) := by
  unfold State.setPlay
  try dsimp only
  repeat' first
    | with_reducible assumption
    | with_reducible apply foldl_keeps
    | (intro y s hs; try dsimp only)
    | (intro s hs; try dsimp only)
    | split
    | (simp only [keeps_mk]; with_reducible refine keeps_fields ?_)

theorem storePixels_keeps {a : State} {x0 : State} {x1 : Nat} {x2 : Nat} {x3 : Nat} {x4 : List Nat}
    (h0 : Keeps a x0) :
    Keeps a (State.storePixels x0 x1 x2 x3 x4) := by
  unfold State.storePixels
  try dsimp only
  repeat' first
    | with_reducible assumption
    | with_reducible apply pondWrite_keeps
    | with_reducible apply foldl_keeps
    | (intro y s hs; try dsimp only)
    | (intro s hs; try dsimp only)
    | split
    | (simp only [keeps_mk]; with_reducible refine keeps_fields ?_)

theorem padLine_keeps {a : State} {x0 : State} {x1 : Nat} {x2 : Nat} {x3 : Nat}
    (h0 : Keeps a x0) :
    Keeps a (State.padLine x0 x1 x2 x3) := by
  unfold State.padLine
  try dsimp only
  repeat' first
    | with_reducible assumption
    | with_reducible apply pondWrite_keeps
    | with_reducible apply foldl_keeps
    | (intro y s hs; try dsimp only)
    | (intro s hs; try dsimp only)
    | split
    | (simp only [keeps_mk]; with_reducible refine keeps_fields ?_)

theorem charge_keeps {a : State} {x0 : State} {x1 : Charge → Bool} {x2 : List Charge}
    (h0 : Keeps a x0) :
    Keeps a (State.charge x0 x1 x2) := by
  unfold State.charge
  try dsimp only
  repeat' first
    | with_reducible assumption
    | with_reducible apply count_keeps
    | with_reducible apply foldl_keeps
    | (intro y s hs; try dsimp only)
    | (intro s hs; try dsimp only)
    | split
    | (simp only [keeps_mk]; with_reducible refine keeps_fields ?_)

theorem createBuf_keeps {a : State} {x0 : State} {x1 : Sys2Proof.BufParams} {x2 : Nat} {x3 : Nat}
    (h0 : Keeps a x0) :
    Keeps a (State.createBuf x0 x1 x2 x3).2 := by
  unfold State.createBuf
  try dsimp only
  repeat' first
    | with_reducible assumption
    | with_reducible apply each_keeps
    | with_reducible apply pondWrite_keeps
    | with_reducible apply charge_keeps
    | with_reducible apply foldl_keeps
    | (intro y s hs; try dsimp only)
    | (intro s hs; try dsimp only)
    | split
    | (simp only [keeps_mk]; with_reducible refine keeps_fields ?_)

theorem startBufCreateAt_keeps {a : State} {x0 : Nat} {x1 : Sys2Proof.BufCreateP} {x2 : State}
    (h2 : Keeps a x2) :
    AnsKeeps a (startBufCreateAt x0 x1 x2) := by
  unfold startBufCreateAt
  try dsimp only
  repeat' first
    | with_reducible assumption
    | with_reducible apply createBuf_keeps
    | with_reducible apply orAns_keeps
    | exact ans_fail
    | with_reducible apply ans_done
    | with_reducible apply ans_result
    | with_reducible apply ans_later
    | with_reducible apply ans_silent
    | refine keeps_pair (by assumption) ?_
    | with_reducible apply foldl_keeps
    | (intro y s hs; try dsimp only)
    | (intro s hs; try dsimp only)
    | split
    | (simp only [keeps_mk]; with_reducible refine keeps_fields ?_)

theorem startBufCreate_keeps {a : State} {x0 : Sys2Proof.BufCreateP} {x1 : State}
    (h1 : Keeps a x1) :
    AnsKeeps a (startBufCreate x0 x1) := by
  unfold startBufCreate
  try dsimp only
  repeat' first
    | with_reducible assumption
    | with_reducible apply createBuf_keeps
    | with_reducible apply orAns_keeps
    | exact ans_fail
    | with_reducible apply ans_done
    | with_reducible apply ans_result
    | with_reducible apply ans_later
    | with_reducible apply ans_silent
    | refine keeps_pair (by assumption) ?_
    | with_reducible apply foldl_keeps
    | (intro y s hs; try dsimp only)
    | (intro s hs; try dsimp only)
    | split
    | (simp only [keeps_mk]; with_reducible refine keeps_fields ?_)

theorem startBufDestroy_keeps {a : State} {x0 : Sys2Proof.BufDestroyP} {x1 : State}
    (h1 : Keeps a x1) :
    AnsKeeps a (startBufDestroy x0 x1) := by
  unfold startBufDestroy
  try dsimp only
  repeat' first
    | with_reducible assumption
    | with_reducible apply charge_keeps
    | with_reducible apply orAns_keeps
    | exact ans_fail
    | with_reducible apply ans_done
    | with_reducible apply ans_result
    | with_reducible apply ans_later
    | with_reducible apply ans_silent
    | with_reducible apply foldl_keeps
    | (intro y s hs; try dsimp only)
    | (intro s hs; try dsimp only)
    | split
    | (simp only [keeps_mk]; with_reducible refine keeps_fields ?_)

theorem startBufQuery_keeps {a : State} {x0 : Sys2Proof.BufQueryP} {x1 : State}
    (h1 : Keeps a x1) :
    AnsKeeps a (startBufQuery x0 x1) := by
  unfold startBufQuery
  try dsimp only
  repeat' first
    | with_reducible assumption
    | with_reducible apply orAns_keeps
    | exact ans_fail
    | with_reducible apply ans_done
    | with_reducible apply ans_result
    | with_reducible apply ans_later
    | with_reducible apply ans_silent
    | with_reducible apply foldl_keeps
    | (intro y s hs; try dsimp only)
    | (intro s hs; try dsimp only)
    | split
    | (simp only [keeps_mk]; with_reducible refine keeps_fields ?_)

theorem startBufXfer_keeps {a : State} {x0 : Sys2Proof.BufXferP} {x1 : State}
    (h1 : Keeps a x1) :
    AnsKeeps a (startBufXfer x0 x1) := by
  unfold startBufXfer
  try dsimp only
  repeat' first
    | with_reducible assumption
    | with_reducible apply orAns_keeps
    | exact ans_fail
    | with_reducible apply ans_done
    | with_reducible apply ans_result
    | with_reducible apply ans_later
    | with_reducible apply ans_silent
    | with_reducible apply foldl_keeps
    | (intro y s hs; try dsimp only)
    | (intro s hs; try dsimp only)
    | split
    | (simp only [keeps_mk]; with_reducible refine keeps_fields ?_)

theorem endOneShot_keeps {a : State} {x0 : State} {x1 : CapBind} {x2 : Nat}
    (h0 : Keeps a x0) :
    Keeps a (State.endOneShot x0 x1 x2) := by
  unfold State.endOneShot
  try dsimp only
  repeat' first
    | with_reducible assumption
    | with_reducible apply completeId_keeps
    | with_reducible apply foldl_keeps
    | (intro y s hs; try dsimp only)
    | (intro s hs; try dsimp only)
    | split
    | (simp only [keeps_mk]; with_reducible refine keeps_fields ?_)

theorem endBind_keeps {a : State} {x0 : Option CapBind} {x1 : State}
    (h1 : Keeps a x1) :
    Keeps a (endBind x0 x1) := by
  unfold endBind
  try dsimp only
  repeat' first
    | with_reducible assumption
    | with_reducible apply endOneShot_keeps
    | with_reducible apply foldl_keeps
    | (intro y s hs; try dsimp only)
    | (intro s hs; try dsimp only)
    | split
    | (simp only [keeps_mk]; with_reducible refine keeps_fields ?_)

theorem startCaptureBind_keeps {a : State} {x0 : Sys2Proof.CaptureBindP} {x1 : State}
    (h1 : Keeps a x1) :
    AnsKeeps a (startCaptureBind x0 x1) := by
  unfold startCaptureBind
  try dsimp only
  repeat' first
    | with_reducible assumption
    | with_reducible apply endBind_keeps
    | with_reducible apply charge_keeps
    | with_reducible apply setCap_keeps
    | with_reducible apply orAns_keeps
    | exact ans_fail
    | with_reducible apply ans_done
    | with_reducible apply ans_result
    | with_reducible apply ans_later
    | with_reducible apply ans_silent
    | with_reducible apply foldl_keeps
    | (intro y s hs; try dsimp only)
    | (intro s hs; try dsimp only)
    | split
    | (simp only [keeps_mk]; with_reducible refine keeps_fields ?_)

theorem startPlayoutBind_keeps {a : State} {x0 : Sys2Proof.PlayoutBindP} {x1 : State}
    (h1 : Keeps a x1) :
    AnsKeeps a (startPlayoutBind x0 x1) := by
  unfold startPlayoutBind
  try dsimp only
  repeat' first
    | with_reducible assumption
    | with_reducible apply charge_keeps
    | with_reducible apply setPlay_keeps
    | with_reducible apply orAns_keeps
    | exact ans_fail
    | with_reducible apply ans_done
    | with_reducible apply ans_result
    | with_reducible apply ans_later
    | with_reducible apply ans_silent
    | with_reducible apply foldl_keeps
    | (intro y s hs; try dsimp only)
    | (intro s hs; try dsimp only)
    | split
    | (simp only [keeps_mk]; with_reducible refine keeps_fields ?_)

theorem startWeirQuery_keeps {a : State} {x0 : Sys2Proof.ResP} {x1 : State}
    (h1 : Keeps a x1) :
    AnsKeeps a (startWeirQuery x0 x1) := by
  unfold startWeirQuery
  try dsimp only
  repeat' first
    | with_reducible assumption
    | with_reducible apply orAns_keeps
    | exact ans_fail
    | with_reducible apply ans_done
    | with_reducible apply ans_result
    | with_reducible apply ans_later
    | with_reducible apply ans_silent
    | with_reducible apply foldl_keeps
    | (intro y s hs; try dsimp only)
    | (intro s hs; try dsimp only)
    | split
    | (simp only [keeps_mk]; with_reducible refine keeps_fields ?_)

theorem playoutFrame_keeps {a : State} {x0 : State} {x1 : Nat}
    (h0 : Keeps a x0) :
    Keeps a (State.playoutFrame x0 x1) := by
  unfold State.playoutFrame
  try dsimp only
  repeat' first
    | with_reducible assumption
    | with_reducible apply each_keeps
    | with_reducible apply setPlay_keeps
    | with_reducible apply stopWriters_keeps
    | with_reducible apply traffic_keeps
    | with_reducible apply foldl_keeps
    | (intro y s hs; try dsimp only)
    | (intro s hs; try dsimp only)
    | split
    | (simp only [keeps_mk]; with_reducible refine keeps_fields ?_)

theorem tearXfers_keeps {a : State} {x0 : State} {x1 : Nat} {x2 : Nat} {x3 : Nat}
    (h0 : Keeps a x0) :
    Keeps a (State.tearXfers x0 x1 x2 x3) := by
  unfold State.tearXfers
  try dsimp only
  repeat' first
    | with_reducible assumption
    | with_reducible apply foldl_keeps
    | (intro y s hs; try dsimp only)
    | (intro s hs; try dsimp only)
    | split
    | (simp only [keeps_mk]; with_reducible refine keeps_fields ?_)

theorem doScrub_keeps {a : State} {x0 : Nat} {x1 : Nat} {x2 : State}
    (h2 : Keeps a x2) :
    Keeps a (doScrub x0 x1 x2) := by
  unfold doScrub
  try dsimp only
  repeat' first
    | with_reducible assumption
    | with_reducible apply traffic_keeps
    | with_reducible apply count_keeps
    | with_reducible apply emit_keeps
    | with_reducible apply memoryFault_keeps
    | with_reducible apply foldl_keeps
    | (intro y s hs; try dsimp only)
    | (intro s hs; try dsimp only)
    | split
    | (simp only [keeps_mk]; with_reducible refine keeps_fields ?_)

theorem doXferComplete_keeps {a : State} {x0 : Nat} {x1 : State}
    (h1 : Keeps a x1) :
    Keeps a (doXferComplete x0 x1) := by
  unfold doXferComplete
  try dsimp only
  repeat' first
    | with_reducible assumption
    | with_reducible apply completeId_keeps
    | with_reducible apply pondWrite_keeps
    | with_reducible apply setSlotState_keeps
    | with_reducible apply traffic_keeps
    | with_reducible apply emit_keeps
    | with_reducible apply foldl_keeps
    | (intro y s hs; try dsimp only)
    | (intro s hs; try dsimp only)
    | split
    | (simp only [keeps_mk]; with_reducible refine keeps_fields ?_)

theorem abandonWriter_keeps {a : State} {x0 : State} {x1 : Nat}
    (h0 : Keeps a x0) :
    Keeps a (State.abandonWriter x0 x1) := by
  unfold State.abandonWriter
  try dsimp only
  repeat' first
    | with_reducible assumption
    | with_reducible apply setCap_keeps
    | with_reducible apply failSlots_keeps
    | with_reducible apply dropHistory_keeps
    | with_reducible apply foldl_keeps
    | (intro y s hs; try dsimp only)
    | (intro s hs; try dsimp only)
    | split
    | (simp only [keeps_mk]; with_reducible refine keeps_fields ?_)

theorem setRoute_keeps {a : State} {x0 : State} {x1 : Nat} {x2 : Option Route}
    (h0 : Keeps a x0) :
    Keeps a (State.setRoute x0 x1 x2) := by
  unfold State.setRoute
  try dsimp only
  repeat' first
    | with_reducible assumption
    | with_reducible apply foldl_keeps
    | (intro y s hs; try dsimp only)
    | (intro s hs; try dsimp only)
    | split
    | (simp only [keeps_mk]; with_reducible refine keeps_fields ?_)

theorem eachResv_keeps {a : State} {x0 : State} {x1 : Nat} {x2 : Option Nat → Nat → Resv → Resv}
    (h0 : Keeps a x0) :
    Keeps a (State.eachResv x0 x1 x2) := by
  unfold State.eachResv
  try dsimp only
  repeat' first
    | with_reducible assumption
    | with_reducible apply foldl_keeps
    | (intro y s hs; try dsimp only)
    | (intro s hs; try dsimp only)
    | split
    | (simp only [keeps_mk]; with_reducible refine keeps_fields ?_)

theorem asOf_keeps {a : State} {x0 : State} {x1 : Int}
    (h0 : Keeps a x0) :
    Keeps a (State.asOf x0 x1) := by
  unfold State.asOf
  try dsimp only
  repeat' first
    | with_reducible assumption
    | with_reducible apply foldl_keeps
    | (intro y s hs; try dsimp only)
    | (intro s hs; try dsimp only)
    | split
    | (simp only [keeps_mk]; with_reducible refine keeps_fields ?_)

theorem seen_keeps {a : State} {x0 : State}
    (h0 : Keeps a x0) :
    Keeps a (State.seen x0) := by
  unfold State.seen
  try dsimp only
  repeat' first
    | with_reducible assumption
    | with_reducible apply asOf_keeps
    | with_reducible apply foldl_keeps
    | (intro y s hs; try dsimp only)
    | (intro s hs; try dsimp only)
    | split
    | (simp only [keeps_mk]; with_reducible refine keeps_fields ?_)

theorem endResv_keeps {a : State} {x0 : State} {x1 : Option Resv}
    (h0 : Keeps a x0) :
    Keeps a (State.endResv x0 x1) := by
  unfold State.endResv
  try dsimp only
  repeat' first
    | with_reducible assumption
    | with_reducible apply charge_keeps
    | with_reducible apply foldl_keeps
    | (intro y s hs; try dsimp only)
    | (intro s hs; try dsimp only)
    | split
    | (simp only [keeps_mk]; with_reducible refine keeps_fields ?_)

theorem noteRoute_keeps {a : State} {x0 : State} {x1 : Nat} {x2 : Option Route}
    (h0 : Keeps a x0) :
    Keeps a (State.noteRoute x0 x1 x2) := by
  unfold State.noteRoute
  try dsimp only
  repeat' first
    | with_reducible assumption
    | with_reducible apply foldl_keeps
    | (intro y s hs; try dsimp only)
    | (intro s hs; try dsimp only)
    | split
    | (simp only [keeps_mk]; with_reducible refine keeps_fields ?_)

theorem settleTake_keeps {a : State} {x0 : State} {x1 : Nat}
    (h0 : Keeps a x0) :
    Keeps a (State.settleTake x0 x1) := by
  unfold State.settleTake
  try dsimp only
  repeat' first
    | with_reducible assumption
    | with_reducible apply complete_keeps
    | with_reducible apply foldl_keeps
    | (intro y s hs; try dsimp only)
    | (intro s hs; try dsimp only)
    | split
    | (simp only [keeps_mk]; with_reducible refine keeps_fields ?_)

theorem tallyEntry_id (w : Nat) (n : Nat) (j : Job) : (tallyEntry w n j).id = j.id := by
  unfold tallyEntry
  split <;> rfl

theorem leaveWait_keeps {a s : State} {w : RouteWait} {b : Bool} (h : Keeps a s) : Keeps a (s.leaveWait w b) := by
  unfold State.leaveWait
  dsimp only
  apply settleTake_keeps
  simp only [keeps_mk]
  exact keeps_fields_jobs (jobs_map (tallyEntry_id _ _)) h

theorem dropWait_keeps {a : State} {x0 : State} {x1 : RouteWait}
    (h0 : Keeps a x0) :
    Keeps a (State.dropWait x0 x1) := by
  unfold State.dropWait
  try dsimp only
  repeat' first
    | with_reducible assumption
    | with_reducible apply leaveWait_keeps
    | with_reducible apply endResv_keeps
    | with_reducible apply foldl_keeps
    | (intro y s hs; try dsimp only)
    | (intro s hs; try dsimp only)
    | split
    | (simp only [keeps_mk]; with_reducible refine keeps_fields ?_)

theorem dropWaits_keeps {a : State} {x0 : State} {x1 : RouteWait → Bool}
    (h0 : Keeps a x0) :
    Keeps a (State.dropWaits x0 x1) := by
  unfold State.dropWaits
  try dsimp only
  repeat' first
    | with_reducible assumption
    | with_reducible apply each_keeps
    | with_reducible apply dropWait_keeps
    | with_reducible apply foldl_keeps
    | (intro y s hs; try dsimp only)
    | (intro s hs; try dsimp only)
    | split
    | (simp only [keeps_mk]; with_reducible refine keeps_fields ?_)

theorem applyWait_keeps {a : State} {x0 : State} {x1 : RouteWait}
    (h0 : Keeps a x0) :
    Keeps a (State.applyWait x0 x1) := by
  unfold State.applyWait
  try dsimp only
  repeat' first
    | with_reducible assumption
    | with_reducible apply endResv_keeps
    | with_reducible apply audit_keeps
    | with_reducible apply abandonWriter_keeps
    | with_reducible apply noteRoute_keeps
    | with_reducible apply setRoute_keeps
    | with_reducible apply leaveWait_keeps
    | with_reducible apply dropWaits_keeps
    | with_reducible apply foldl_keeps
    | (intro y s hs; try dsimp only)
    | (intro s hs; try dsimp only)
    | split
    | (simp only [keeps_mk]; with_reducible refine keeps_fields ?_)

theorem dueTake_keeps {a : State} {x0 : State} {x1 : Nat}
    (h0 : Keeps a x0) :
    Keeps a (State.dueTake x0 x1) := by
  unfold State.dueTake
  try dsimp only
  repeat' first
    | with_reducible assumption
    | with_reducible apply each_keeps
    | with_reducible apply seen_keeps
    | with_reducible apply applyWait_keeps
    | with_reducible apply settleTake_keeps
    | with_reducible apply foldl_keeps
    | (intro y s hs; try dsimp only)
    | (intro s hs; try dsimp only)
    | split
    | (simp only [keeps_mk]; with_reducible refine keeps_fields ?_)

theorem releaseTake_keeps {a : State} {x0 : Job} {x1 : State}
    (h1 : Keeps a x1) :
    Keeps a (releaseTake x0 x1) := by
  unfold releaseTake
  try dsimp only
  repeat' first
    | with_reducible assumption
    | with_reducible apply each_keeps
    | with_reducible apply endResv_keeps
    | with_reducible apply foldl_keeps
    | (intro y s hs; try dsimp only)
    | (intro s hs; try dsimp only)
    | split
    | (simp only [keeps_mk]; with_reducible refine keeps_fields ?_)

theorem applyOutWaits_keeps {a : State} {x0 : State} {x1 : Nat} {x2 : Nat}
    (h0 : Keeps a x0) :
    Keeps a (State.applyOutWaits x0 x1 x2) := by
  unfold State.applyOutWaits
  try dsimp only
  repeat' first
    | with_reducible assumption
    | with_reducible apply each_keeps
    | with_reducible apply applyWait_keeps
    | with_reducible apply foldl_keeps
    | (intro y s hs; try dsimp only)
    | (intro s hs; try dsimp only)
    | split
    | (simp only [keeps_mk]; with_reducible refine keeps_fields ?_)

theorem takePlan_keeps {a : State} {x0 : State} {x1 : Nat} {x2 : Bool} {x3 : List Sys2Proof.RouteEntry}
    (h0 : Keeps a x0) :
    Keeps a (State.takePlan x0 x1 x2 x3).2 := by
  unfold State.takePlan
  try dsimp only
  repeat' first
    | with_reducible assumption
    | with_reducible apply charge_keeps
    | with_reducible apply foldl_keeps
    | (intro y s hs; try dsimp only)
    | (intro s hs; try dsimp only)
    | split
    | (simp only [keeps_mk]; with_reducible refine keeps_fields ?_)

theorem superseding_keeps {a : State} {x0 : State} {x1 : List Sys2Proof.RouteEntry}
    (h0 : Keeps a x0) :
    Keeps a (State.superseding x0 x1) := by
  unfold State.superseding
  try dsimp only
  repeat' first
    | with_reducible assumption
    | with_reducible apply dropWaits_keeps
    | with_reducible apply foldl_keeps
    | (intro y s hs; try dsimp only)
    | (intro s hs; try dsimp only)
    | split
    | (simp only [keeps_mk]; with_reducible refine keeps_fields ?_)

theorem planTake_keeps {a : State} {x0 : Sys2Proof.Hdr} {x1 : Nat} {x2 : List Sys2Proof.RouteEntry} {x3 : State}
    (h3 : Keeps a x3) :
    Keeps a (planTake x0 x1 x2 x3) := by
  unfold planTake
  try dsimp only
  repeat' first
    | with_reducible assumption
    | with_reducible apply takePlan_keeps
    | with_reducible apply superseding_keeps
    | refine keeps_pair (by assumption) ?_
    | with_reducible apply foldl_keeps
    | (intro y s hs; try dsimp only)
    | (intro s hs; try dsimp only)
    | split
    | (simp only [keeps_mk]; with_reducible refine keeps_fields ?_)

theorem dropOutput_keeps {a : State} {x0 : State} {x1 : Nat}
    (h0 : Keeps a x0) :
    Keeps a (State.dropOutput x0 x1) := by
  unfold State.dropOutput
  try dsimp only
  repeat' first
    | with_reducible assumption
    | with_reducible apply dropWaits_keeps
    | with_reducible apply setRoute_keeps
    | with_reducible apply endResv_keeps
    | with_reducible apply foldl_keeps
    | (intro y s hs; try dsimp only)
    | (intro s hs; try dsimp only)
    | split
    | (simp only [keeps_mk]; with_reducible refine keeps_fields ?_)

theorem startRouteTake_keeps {a : State} {x0 : Sys2Proof.Hdr} {x1 : Sys2Proof.RouteTakeP} {x2 : State}
    (h2 : Keeps a x2) :
    AnsKeeps a (startRouteTake x0 x1 x2) := by
  unfold startRouteTake
  try dsimp only
  repeat' first
    | with_reducible assumption
    | with_reducible apply planTake_keeps
    | with_reducible apply orAns_keeps
    | exact ans_fail
    | with_reducible apply ans_done
    | with_reducible apply ans_result
    | with_reducible apply ans_later
    | with_reducible apply ans_silent
    | with_reducible apply foldl_keeps
    | (intro y s hs; try dsimp only)
    | (intro s hs; try dsimp only)
    | split
    | (simp only [keeps_mk]; with_reducible refine keeps_fields ?_)

theorem startRouteQuery_keeps {a : State} {x0 : Sys2Proof.RouteQueryP} {x1 : State}
    (h1 : Keeps a x1) :
    AnsKeeps a (startRouteQuery x0 x1) := by
  unfold startRouteQuery
  try dsimp only
  repeat' first
    | with_reducible assumption
    | with_reducible apply orAns_keeps
    | exact ans_fail
    | with_reducible apply ans_done
    | with_reducible apply ans_result
    | with_reducible apply ans_later
    | with_reducible apply ans_silent
    | with_reducible apply foldl_keeps
    | (intro y s hs; try dsimp only)
    | (intro s hs; try dsimp only)
    | split
    | (simp only [keeps_mk]; with_reducible refine keeps_fields ?_)

theorem startLossSet_keeps {a : State} {x0 : Sys2Proof.Hdr} {x1 : Sys2Proof.LossSetP} {x2 : State}
    (h2 : Keeps a x2) :
    AnsKeeps a (startLossSet x0 x1 x2) := by
  unfold startLossSet
  try dsimp only
  repeat' first
    | with_reducible assumption
    | with_reducible apply orAns_keeps
    | exact ans_fail
    | with_reducible apply ans_done
    | with_reducible apply ans_result
    | with_reducible apply ans_later
    | with_reducible apply ans_silent
    | with_reducible apply foldl_keeps
    | (intro y s hs; try dsimp only)
    | (intro s hs; try dsimp only)
    | split
    | (simp only [keeps_mk]; with_reducible refine keeps_fields ?_)

theorem applyRouteTake_keeps {a : State} {x0 : Job} {x1 : State}
    (h1 : Keeps a x1) :
    Keeps a (applyRouteTake x0 x1) := by
  unfold applyRouteTake
  try dsimp only
  repeat' first
    | with_reducible assumption
    | with_reducible apply dueTake_keeps
    | with_reducible apply setJob_keeps
    | with_reducible apply foldl_keeps
    | (intro y s hs; try dsimp only)
    | (intro s hs; try dsimp only)
    | split
    | (simp only [keeps_mk]; with_reducible refine keeps_fields ?_)

theorem setLoss_keeps {a : State} {x0 : State} {x1 : Nat} {x2 : Loss}
    (h0 : Keeps a x0) :
    Keeps a (State.setLoss x0 x1 x2) := by
  unfold State.setLoss
  try dsimp only
  repeat' first
    | with_reducible assumption
    | with_reducible apply foldl_keeps
    | (intro y s hs; try dsimp only)
    | (intro s hs; try dsimp only)
    | split
    | (simp only [keeps_mk]; with_reducible refine keeps_fields ?_)

theorem setPolicy_keeps {a : State} {x0 : State} {x1 : Sys2Proof.LossSetP}
    (h0 : Keeps a x0) :
    Keeps a (State.setPolicy x0 x1) := by
  unfold State.setPolicy
  try dsimp only
  repeat' first
    | with_reducible assumption
    | with_reducible apply setLoss_keeps
    | with_reducible apply foldl_keeps
    | (intro y s hs; try dsimp only)
    | (intro s hs; try dsimp only)
    | split
    | (simp only [keeps_mk]; with_reducible refine keeps_fields ?_)

theorem applyLossSet_keeps {a : State} {x0 : Job} {x1 : Sys2Proof.LossSetP} {x2 : State}
    (h2 : Keeps a x2) :
    Keeps a (applyLossSet x0 x1 x2) := by
  unfold applyLossSet
  try dsimp only
  repeat' first
    | with_reducible assumption
    | with_reducible apply complete_keeps
    | with_reducible apply setPolicy_keeps
    | with_reducible apply foldl_keeps
    | (intro y s hs; try dsimp only)
    | (intro s hs; try dsimp only)
    | split
    | (simp only [keeps_mk]; with_reducible refine keeps_fields ?_)

theorem applySrcWaits_keeps {a : State} {x0 : State} {x1 : Nat} {x2 : Int}
    (h0 : Keeps a x0) :
    Keeps a (State.applySrcWaits x0 x1 x2) := by
  unfold State.applySrcWaits
  try dsimp only
  repeat' first
    | with_reducible assumption
    | with_reducible apply each_keeps
    | with_reducible apply applyWait_keeps
    | with_reducible apply foldl_keeps
    | (intro y s hs; try dsimp only)
    | (intro s hs; try dsimp only)
    | split
    | (simp only [keeps_mk]; with_reducible refine keeps_fields ?_)

theorem routeStep_keeps {a : State} {x0 : State} {x1 : Nat} {x2 : Nat} {x3 : Int} {x4 : Nat} {x5 : Option Given} {x6 : Int}
    (h0 : Keeps a x0) :
    Keeps a (State.routeStep x0 x1 x2 x3 x4 x5 x6) := by
  unfold State.routeStep
  try dsimp only
  repeat' first
    | with_reducible assumption
    | with_reducible apply seen_keeps
    | with_reducible apply fire_keeps
    | with_reducible apply setRoute_keeps
    | with_reducible apply setLoss_keeps
    | with_reducible apply count_keeps
    | with_reducible apply emit_keeps
    | with_reducible apply foldl_keeps
    | (intro y s hs; try dsimp only)
    | (intro s hs; try dsimp only)
    | split
    | (simp only [keeps_mk]; with_reducible refine keeps_fields ?_)

end Sys2Proof.Laws
end

