-- ==== Sys2Proof/Laws/Keeps/Pictures.lean ====
section
/-! SUPPORT. What the operations of Machine/Engines.lean, Layers.lean and Static.lean keep: one lemma per operation (see Laws/Keeps.lean). -/

namespace Sys2Proof.Laws

open Sys2Proof.Machine

theorem setTask_keeps {a : State} {x0 : State} {x1 : Nat} {x2 : Option Task}
    (h0 : Keeps a x0) :
    Keeps a (State.setTask x0 x1 x2) := by
  unfold State.setTask
  try dsimp only
  repeat' first
    | with_reducible assumption
    | with_reducible apply foldl_keeps
    | (intro y s hs; try dsimp only)
    | (intro s hs; try dsimp only)
    | split
    | (simp only [keeps_mk]; with_reducible refine keeps_fields ?_)

theorem planKernelBind_keeps {a : State} {x0 : Sys2Proof.KernelBindP} {x1 : State}
    (h1 : Keeps a x1) :
    Keeps a (planKernelBind x0 x1) := by
  unfold planKernelBind
  try dsimp only
  repeat' first
    | with_reducible assumption
    | with_reducible apply charge_keeps
    | with_reducible apply foldl_keeps
    | (intro y s hs; try dsimp only)
    | (intro s hs; try dsimp only)
    | split
    | (simp only [keeps_mk]; with_reducible refine keeps_fields ?_)

theorem setEngine_keeps {a : State} {x0 : State} {x1 : Nat} {x2 : Engine}
    (h0 : Keeps a x0) :
    Keeps a (State.setEngine x0 x1 x2) := by
  unfold State.setEngine
  try dsimp only
  repeat' first
    | with_reducible assumption
    | with_reducible apply foldl_keeps
    | (intro y s hs; try dsimp only)
    | (intro s hs; try dsimp only)
    | split
    | (simp only [keeps_mk]; with_reducible refine keeps_fields ?_)

theorem planEngineMigrate_keeps {a : State} {x0 : Nat} {x1 : Sys2Proof.EngineMigrateP} {x2 : State}
    (h2 : Keeps a x2) :
    Keeps a (planEngineMigrate x0 x1 x2) := by
  unfold planEngineMigrate
  try dsimp only
  repeat' first
    | with_reducible assumption
    | with_reducible apply charge_keeps
    | with_reducible apply each_keeps
    | with_reducible apply setEngine_keeps
    | with_reducible apply setTask_keeps
    | with_reducible apply foldl_keeps
    | (intro y s hs; try dsimp only)
    | (intro s hs; try dsimp only)
    | split
    | (simp only [keeps_mk]; with_reducible refine keeps_fields ?_)

theorem releaseKernelBind_keeps {a : State} {x0 : Sys2Proof.KernelBindP} {x1 : State}
    (h1 : Keeps a x1) :
    Keeps a (releaseKernelBind x0 x1) := by
  unfold releaseKernelBind
  try dsimp only
  repeat' first
    | with_reducible assumption
    | with_reducible apply charge_keeps
    | with_reducible apply foldl_keeps
    | (intro y s hs; try dsimp only)
    | (intro s hs; try dsimp only)
    | split
    | (simp only [keeps_mk]; with_reducible refine keeps_fields ?_)

theorem releaseMigrate_keeps {a : State} {x0 : Sys2Proof.EngineMigrateP} {x1 : State}
    (h1 : Keeps a x1) :
    Keeps a (releaseMigrate x0 x1) := by
  unfold releaseMigrate
  try dsimp only
  repeat' first
    | with_reducible assumption
    | with_reducible apply each_keeps
    | with_reducible apply setEngine_keeps
    | with_reducible apply setTask_keeps
    | with_reducible apply foldl_keeps
    | (intro y s hs; try dsimp only)
    | (intro s hs; try dsimp only)
    | split
    | (simp only [keeps_mk]; with_reducible refine keeps_fields ?_)

theorem bindTask_keeps {a : State} {x0 : Nat} {x1 : Sys2Proof.KernelBindP} {x2 : State}
    (h2 : Keeps a x2) :
    Keeps a (State.bindTask x0 x1 x2) := by
  unfold State.bindTask
  try dsimp only
  repeat' first
    | with_reducible assumption
    | with_reducible apply setTask_keeps
    | with_reducible apply each_keeps
    | with_reducible apply setEngine_keeps
    | with_reducible apply foldl_keeps
    | (intro y s hs; try dsimp only)
    | (intro s hs; try dsimp only)
    | split
    | (simp only [keeps_mk]; with_reducible refine keeps_fields ?_)

theorem startKernelBind_keeps {a : State} {x0 : Sys2Proof.Hdr} {x1 : Sys2Proof.KernelBindP} {x2 : State}
    (h2 : Keeps a x2) :
    AnsKeeps a (startKernelBind x0 x1 x2) := by
  unfold startKernelBind
  try dsimp only
  repeat' first
    | with_reducible assumption
    | with_reducible apply bindTask_keeps
    | with_reducible apply planKernelBind_keeps
    | with_reducible apply orAns_keeps
    | exact ans_fail
    | with_reducible apply ans_done
    | with_reducible apply ans_result
    | with_reducible apply ans_later
    | with_reducible apply ans_silent
    | with_reducible apply foldl_keeps
    | (intro y s hs; try dsimp only)
    | (intro s hs; try dsimp only)
    | split
    | (simp only [keeps_mk]; with_reducible refine keeps_fields ?_)

theorem startKernelUpdate_keeps {a : State} {x0 : Sys2Proof.Hdr} {x1 : Sys2Proof.KernelUpdateP} {x2 : State}
    (h2 : Keeps a x2) :
    AnsKeeps a (startKernelUpdate x0 x1 x2) := by
  unfold startKernelUpdate
  try dsimp only
  repeat' first
    | with_reducible assumption
    | with_reducible apply orAns_keeps
    | exact ans_fail
    | with_reducible apply ans_done
    | with_reducible apply ans_result
    | with_reducible apply ans_later
    | with_reducible apply ans_silent
    | with_reducible apply foldl_keeps
    | (intro y s hs; try dsimp only)
    | (intro s hs; try dsimp only)
    | split
    | (simp only [keeps_mk]; with_reducible refine keeps_fields ?_)

theorem endLoading_keeps {a : State} {x0 : State} {x1 : Task}
    (h0 : Keeps a x0) :
    Keeps a (State.endLoading x0 x1) := by
  unfold State.endLoading
  try dsimp only
  repeat' first
    | with_reducible assumption
    | with_reducible apply completeId_keeps
    | with_reducible apply foldl_keeps
    | (intro y s hs; try dsimp only)
    | (intro s hs; try dsimp only)
    | split
    | (simp only [keeps_mk]; with_reducible refine keeps_fields ?_)

theorem startKernelUnbind_keeps {a : State} {x0 : Sys2Proof.KernelUnbindP} {x1 : State}
    (h1 : Keeps a x1) :
    AnsKeeps a (startKernelUnbind x0 x1) := by
  unfold startKernelUnbind
  try dsimp only
  repeat' first
    | with_reducible assumption
    | with_reducible apply each_keeps
    | with_reducible apply setEngine_keeps
    | with_reducible apply charge_keeps
    | with_reducible apply setTask_keeps
    | with_reducible apply endLoading_keeps
    | with_reducible apply orAns_keeps
    | exact ans_fail
    | with_reducible apply ans_done
    | with_reducible apply ans_result
    | with_reducible apply ans_later
    | with_reducible apply ans_silent
    | with_reducible apply foldl_keeps
    | (intro y s hs; try dsimp only)
    | (intro s hs; try dsimp only)
    | split
    | (simp only [keeps_mk]; with_reducible refine keeps_fields ?_)

theorem startEngineReserve_keeps {a : State} {x0 : Sys2Proof.EngineReserveP} {x1 : State}
    (h1 : Keeps a x1) :
    AnsKeeps a (startEngineReserve x0 x1) := by
  unfold startEngineReserve
  try dsimp only
  repeat' first
    | with_reducible assumption
    | with_reducible apply charge_keeps
    | with_reducible apply each_keeps
    | with_reducible apply setEngine_keeps
    | with_reducible apply orAns_keeps
    | exact ans_fail
    | with_reducible apply ans_done
    | with_reducible apply ans_result
    | with_reducible apply ans_later
    | with_reducible apply ans_silent
    | with_reducible apply foldl_keeps
    | (intro y s hs; try dsimp only)
    | (intro s hs; try dsimp only)
    | split
    | (simp only [keeps_mk]; with_reducible refine keeps_fields ?_)

theorem startEngineMigrate_keeps {a : State} {x0 : Sys2Proof.Hdr} {x1 : Sys2Proof.EngineMigrateP} {x2 : State}
    (h2 : Keeps a x2) :
    AnsKeeps a (startEngineMigrate x0 x1 x2) := by
  unfold startEngineMigrate
  try dsimp only
  repeat' first
    | with_reducible assumption
    | with_reducible apply planEngineMigrate_keeps
    | with_reducible apply orAns_keeps
    | exact ans_fail
    | with_reducible apply ans_done
    | with_reducible apply ans_result
    | with_reducible apply ans_later
    | with_reducible apply ans_silent
    | with_reducible apply foldl_keeps
    | (intro y s hs; try dsimp only)
    | (intro s hs; try dsimp only)
    | split
    | (simp only [keeps_mk]; with_reducible refine keeps_fields ?_)

theorem startEngineQuery_keeps {a : State} {x0 : Sys2Proof.EngineQueryP} {x1 : State}
    (h1 : Keeps a x1) :
    AnsKeeps a (startEngineQuery x0 x1) := by
  unfold startEngineQuery
  try dsimp only
  repeat' first
    | with_reducible assumption
    | with_reducible apply orAns_keeps
    | exact ans_fail
    | with_reducible apply ans_done
    | with_reducible apply ans_result
    | with_reducible apply ans_later
    | with_reducible apply ans_silent
    | with_reducible apply foldl_keeps
    | (intro y s hs; try dsimp only)
    | (intro s hs; try dsimp only)
    | split
    | (simp only [keeps_mk]; with_reducible refine keeps_fields ?_)

theorem applyKernelBind_keeps {a : State} {x0 : Job} {x1 : Sys2Proof.KernelBindP} {x2 : State}
    (h2 : Keeps a x2) :
    Keeps a (applyKernelBind x0 x1 x2) := by
  unfold applyKernelBind
  try dsimp only
  repeat' first
    | with_reducible assumption
    | with_reducible apply setJob_keeps
    | with_reducible apply bindTask_keeps
    | with_reducible apply complete_keeps
    | with_reducible apply charge_keeps
    | with_reducible apply foldl_keeps
    | (intro y s hs; try dsimp only)
    | (intro s hs; try dsimp only)
    | split
    | (simp only [keeps_mk]; with_reducible refine keeps_fields ?_)

theorem applyUpdate_keeps {a : State} {x0 : State} {x1 : Nat} {x2 : Sys2Proof.KBlock}
    (h0 : Keeps a x0) :
    Keeps a (State.applyUpdate x0 x1 x2) := by
  unfold State.applyUpdate
  try dsimp only
  repeat' first
    | with_reducible assumption
    | with_reducible apply setTask_keeps
    | with_reducible apply foldl_keeps
    | (intro y s hs; try dsimp only)
    | (intro s hs; try dsimp only)
    | split
    | (simp only [keeps_mk]; with_reducible refine keeps_fields ?_)

theorem busy_keeps {a : State} {x0 : State} {x1 : Nat}
    (h0 : Keeps a x0) :
    Keeps a (State.busy x0 x1) := by
  unfold State.busy
  try dsimp only
  repeat' first
    | with_reducible assumption
    | with_reducible apply freeNat_keeps
    | with_reducible apply count_keeps
    | refine keeps_pair (by assumption) ?_
    | with_reducible apply foldl_keeps
    | (intro y s hs; try dsimp only)
    | (intro s hs; try dsimp only)
    | split
    | (simp only [keeps_mk]; with_reducible refine keeps_fields ?_)

theorem finishLoad_keeps {a : State} {x0 : State} {x1 : Nat}
    (h0 : Keeps a x0) :
    Keeps a (State.finishLoad x0 x1) := by
  unfold State.finishLoad
  try dsimp only
  repeat' first
    | with_reducible assumption
    | with_reducible apply setTask_keeps
    | with_reducible apply completeId_keeps
    | with_reducible apply foldl_keeps
    | (intro y s hs; try dsimp only)
    | (intro s hs; try dsimp only)
    | split
    | (simp only [keeps_mk]; with_reducible refine keeps_fields ?_)

theorem judgeCaptured_keeps {a : State} {x0 : State} {x1 : Nat} {x2 : Nat} {x3 : Nat}
    (h0 : Keeps a x0) :
    Keeps a (State.judgeCaptured x0 x1 x2 x3) := by
  unfold State.judgeCaptured
  try dsimp only
  repeat' first
    | with_reducible assumption
    | with_reducible apply dropHistory_keeps
    | with_reducible apply seen_keeps
    | with_reducible apply setRoute_keeps
    | with_reducible apply foldl_keeps
    | (intro y s hs; try dsimp only)
    | (intro s hs; try dsimp only)
    | split
    | (simp only [keeps_mk]; with_reducible refine keeps_fields ?_)

theorem putInput_keeps {a : State} {x0 : State} {x1 : Nat} {x2 : Int} {x3 : Route}
    (h0 : Keeps a x0) :
    Keeps a (State.putInput x0 x1 x2 x3) := by
  unfold State.putInput
  try dsimp only
  repeat' first
    | with_reducible assumption
    | with_reducible apply setRoute_keeps
    | with_reducible apply foldl_keeps
    | (intro y s hs; try dsimp only)
    | (intro s hs; try dsimp only)
    | split
    | (simp only [keeps_mk]; with_reducible refine keeps_fields ?_)

theorem judgeInput_keeps {a : State} {x0 : State} {x1 : Nat} {x2 : Nat} {x3 : Int}
    (h0 : Keeps a x0) :
    Keeps a (State.judgeInput x0 x1 x2 x3).2 := by
  unfold State.judgeInput
  try dsimp only
  repeat' first
    | with_reducible assumption
    | with_reducible apply asOf_keeps
    | with_reducible apply putInput_keeps
    | with_reducible apply foldl_keeps
    | (intro y s hs; try dsimp only)
    | (intro s hs; try dsimp only)
    | split
    | (simp only [keeps_mk]; with_reducible refine keeps_fields ?_)

theorem moveJob_id (o n g : Nat) (j : Job) : (moveJob o n g j).id = j.id := by
  unfold moveJob
  split <;> rfl

theorem switchTask_keeps {a : State} {x0 : State} {x1 : Nat} {x2 : Task} {x3 : Nat}
    (h0 : Keeps a x0) :
    Keeps a (State.switchTask x0 x1 x2 x3) := by
  unfold State.switchTask
  try dsimp only
  repeat' first
    | with_reducible assumption
    | with_reducible apply each_keeps
    | with_reducible apply setRoute_keeps
    | with_reducible apply setTask_keeps
    | with_reducible apply setEngine_keeps
    | with_reducible apply audit_keeps
    | with_reducible apply finishLoad_keeps
    |  (simp only [keeps_mk]; with_reducible refine keeps_fields_jobs (jobs_map (moveJob_id _ _ _)) ?_)
    | with_reducible apply foldl_keeps
    | (intro y s hs; try dsimp only)
    | (intro s hs; try dsimp only)
    | split
    | (simp only [keeps_mk]; with_reducible refine keeps_fields ?_)

theorem runEo_keeps {a s : State} {l : List Job} {e : Nat} (h : Keeps a s) : Keeps a (State.runEo l e s).2 := by
  induction l generalizing s e with
  | nil => exact h
  | cons j r ih =>
    unfold State.runEo
    split
    · exact ih (complete_keeps (applyUpdate_keeps h))
    · split
      · exact ih (complete_keeps (switchTask_keeps h))
      · exact ih h
    · exact ih h

theorem startSlice_keeps {a : State} {x0 : State} {x1 : Nat}
    (h0 : Keeps a x0) :
    Keeps a (State.startSlice x0 x1) := by
  unfold State.startSlice
  try dsimp only
  repeat' first
    | with_reducible assumption
    | with_reducible apply count_keeps
    | with_reducible apply setEngine_keeps
    | with_reducible apply foldl_keeps
    | (intro y s hs; try dsimp only)
    | (intro s hs; try dsimp only)
    | split
    | (simp only [keeps_mk]; with_reducible refine keeps_fields ?_)

theorem taskFrame_keeps {a s : State} {e f : Nat} {eo : Int} (h : Keeps a s) : Keeps a (s.taskFrame e f eo) := by
  unfold State.taskFrame
  split
  · exact h
  next t0 _ =>
    extract_lets d0 cap
    have h1 : Keeps a (if cap = true then (none, s.judgeCaptured e d0 f) else s.judgeInput d0 f (eo - t0.added)).2 := by
      split
      · exact judgeCaptured_keeps h
      · exact judgeInput_keeps h
    split
    next u0 s1 he1 =>
      rw [he1] at h1
      have h2 : Keeps a (if t0.p.in1.g = 0 then (none, s1)
          else s1.judgeInput (512 + secondPort e t0.p.in0.g t0.p.in1.g) f (eo - t0.added)).2 := by
        split
        · exact h1
        · exact judgeInput_keeps h1
      split
      next u1 s2 he2 =>
        rw [he2] at h2
        dsimp only at h2
        clear he1 he2 h1
        extract_lets usable t mc ch cause present lat t1 s3 s3a s3b s4 s5
        have h3 : Keeps a s3 := setTask_keeps h2
        have h3a : Keeps a s3a := by
          have hc : ∀ c : Option Choice, Keeps a (match c with
              | some c => ((s3.count 6 e 4 c.subs).count 6 e 5 c.repeats).count 6 e 6 c.drops
              | none => s3) := by
            intro c
            cases c with
            | none => exact h3
            | some c => exact count_keeps (count_keeps (count_keeps h3))
          exact hc ch
        have h3b : Keeps a s3b := by
          simp only [s3b]
          split
          · exact stopWriters_keeps h3a
          · exact h3a
        have h4 : Keeps a s4 := by
          simp only [s4]
          split
          · exact h3b
          · exact count_keeps h3b
        have h5 : Keeps a s5 := by
          simp only [s5]
          split
          · exact fire_keeps h4
          · exact h4
        apply each_keeps _ h5
        intro k s hk
        split
        · exact busy_keeps (startSlice_keeps hk)
        · exact startSlice_keeps hk

theorem doEngineFrame_keeps {a : State} {x0 : Nat} {x1 : State}
    (h1 : Keeps a x1) :
    Keeps a (doEngineFrame x0 x1) := by
  unfold doEngineFrame
  try dsimp only
  repeat' first
    | with_reducible assumption
    | with_reducible apply startSlice_keeps
    | with_reducible apply runEo_keeps
    | with_reducible apply taskFrame_keeps
    | refine keeps_pair (by assumption) ?_
    | with_reducible apply foldl_keeps
    | (intro y s hs; try dsimp only)
    | (intro s hs; try dsimp only)
    | split
    | (simp only [keeps_mk]; with_reducible refine keeps_fields ?_)

theorem doKernelLoaded_keeps {a : State} {x0 : Nat} {x1 : Bool} {x2 : State}
    (h2 : Keeps a x2) :
    Keeps a (doKernelLoaded x0 x1 x2) := by
  unfold doKernelLoaded
  try dsimp only
  repeat' first
    | with_reducible assumption
    | with_reducible apply enterFailed_keeps
    | with_reducible apply setEngine_keeps
    | with_reducible apply finishLoad_keeps
    | with_reducible apply foldl_keeps
    | (intro y s hs; try dsimp only)
    | (intro s hs; try dsimp only)
    | split
    | (simp only [keeps_mk]; with_reducible refine keeps_fields ?_)

theorem doKnownAnswer_keeps {a : State} {x0 : Nat} {x1 : Bool} {x2 : State}
    (h2 : Keeps a x2) :
    Keeps a (doKnownAnswer x0 x1 x2) := by
  unfold doKnownAnswer
  try dsimp only
  repeat' first
    | with_reducible assumption
    | with_reducible apply setEngine_keeps
    | with_reducible apply enterFailed_keeps
    | with_reducible apply foldl_keeps
    | (intro y s hs; try dsimp only)
    | (intro s hs; try dsimp only)
    | split
    | (simp only [keeps_mk]; with_reducible refine keeps_fields ?_)

theorem setCompOut_keeps {a : State} {x0 : State} {x1 : Nat} {x2 : CompOut}
    (h0 : Keeps a x0) :
    Keeps a (State.setCompOut x0 x1 x2) := by
  unfold State.setCompOut
  try dsimp only
  repeat' first
    | with_reducible assumption
    | with_reducible apply foldl_keeps
    | (intro y s hs; try dsimp only)
    | (intro s hs; try dsimp only)
    | split
    | (simp only [keeps_mk]; with_reducible refine keeps_fields ?_)

theorem holdLayers_sysKept {a : State} {x0 : State} {x1 : Nat} {x2 : List CompOut}
    (h0 : SysKept a x0) :
    SysKept a (State.holdLayers x0 x1 x2) := by
  unfold State.holdLayers
  try dsimp only
  repeat' first
    | with_reducible assumption
    | with_reducible apply count_sysKept
    | with_reducible apply foldl_sys
    | (intro y s hs; try dsimp only)
    | (intro s hs; try dsimp only)
    | split
    | (simp only [sys_mk]; with_reducible refine sys_fields ?_)

theorem holdLayers_keeps {a : State} {x0 : State} {x1 : Nat} {x2 : List CompOut}
    (h0 : Keeps a x0) :
    Keeps a (State.holdLayers x0 x1 x2) := by
  unfold State.holdLayers
  try dsimp only
  repeat' first
    | with_reducible assumption
    | with_reducible apply count_keeps
    | with_reducible apply foldl_keeps
    | (intro y s hs; try dsimp only)
    | (intro s hs; try dsimp only)
    | split
    | (simp only [keeps_mk]; with_reducible refine keeps_fields ?_)

theorem planLayerSet_keeps {a : State} {x0 : Sys2Proof.LayerSetP} {x1 : State}
    (h1 : Keeps a x1) :
    Keeps a (planLayerSet x0 x1) := by
  unfold planLayerSet
  try dsimp only
  repeat' first
    | with_reducible assumption
    | with_reducible apply holdLayers_keeps
    | with_reducible apply foldl_keeps
    | (intro y s hs; try dsimp only)
    | (intro s hs; try dsimp only)
    | split
    | (simp only [keeps_mk]; with_reducible refine keeps_fields ?_)

theorem planLayerFlip_keeps {a : State} {x0 : Sys2Proof.LayerFlipP} {x1 : State}
    (h1 : Keeps a x1) :
    Keeps a (planLayerFlip x0 x1) := by
  unfold planLayerFlip
  try dsimp only
  repeat' first
    | with_reducible assumption
    | with_reducible apply holdLayers_keeps
    | with_reducible apply foldl_keeps
    | (intro y s hs; try dsimp only)
    | (intro s hs; try dsimp only)
    | split
    | (simp only [keeps_mk]; with_reducible refine keeps_fields ?_)

theorem releaseLayerSet_keeps {a s : State} {j : Job} {n : Nat} (h : Keeps a s) : Keeps a (releaseLayerSet j n s) := by
  unfold releaseLayerSet
  dsimp only
  have h1 : Keeps a { s with jobs := s.jobs.filter fun x => x.id != j.id } := by
    simp only [keeps_mk]
    exact keeps_fields_jobs jobs_filter h
  have h2 := holdLayers_keeps (x1 := n) (x2 := []) h1
  have h3 := (holdLayers_sysKept (x1 := n) (x2 := []) (SysKept.refl { s with jobs := s.jobs.filter fun x => x.id != j.id })).2
  refine ⟨fun y => ⟨(h2.1 y).1, ?_, (h2.1 y).2.2⟩, h2.2⟩
  show JobsInOrder s.jobs _
  rw [h3]
  exact (h.1 y).2.1

theorem startLayerSet_keeps {a : State} {x0 : Sys2Proof.Hdr} {x1 : Sys2Proof.LayerSetP} {x2 : State}
    (h2 : Keeps a x2) :
    AnsKeeps a (startLayerSet x0 x1 x2) := by
  unfold startLayerSet
  try dsimp only
  repeat' first
    | with_reducible assumption
    | with_reducible apply planLayerSet_keeps
    | with_reducible apply orAns_keeps
    | exact ans_fail
    | with_reducible apply ans_done
    | with_reducible apply ans_result
    | with_reducible apply ans_later
    | with_reducible apply ans_silent
    | with_reducible apply foldl_keeps
    | (intro y s hs; try dsimp only)
    | (intro s hs; try dsimp only)
    | split
    | (simp only [keeps_mk]; with_reducible refine keeps_fields ?_)

theorem modLayer_keeps {a : State} {x0 : State} {x1 : Nat} {x2 : Nat} {x3 : Layer → Layer}
    (h0 : Keeps a x0) :
    Keeps a (State.modLayer x0 x1 x2 x3) := by
  unfold State.modLayer
  try dsimp only
  repeat' first
    | with_reducible assumption
    | with_reducible apply setCompOut_keeps
    | with_reducible apply foldl_keeps
    | (intro y s hs; try dsimp only)
    | (intro s hs; try dsimp only)
    | split
    | (simp only [keeps_mk]; with_reducible refine keeps_fields ?_)

theorem pendFlip_keeps {a : State} {x0 : State} {x1 : Nat} {x2 : Sys2Proof.LayerFlipP} {x3 : Option Sys2Proof.Tick}
    (h0 : Keeps a x0) :
    Keeps a (State.pendFlip x0 x1 x2 x3) := by
  unfold State.pendFlip
  try dsimp only
  repeat' first
    | with_reducible assumption
    | with_reducible apply completeId_keeps
    | with_reducible apply holdLayers_keeps
    | with_reducible apply modLayer_keeps
    | with_reducible apply foldl_keeps
    | (intro y s hs; try dsimp only)
    | (intro s hs; try dsimp only)
    | split
    | (simp only [keeps_mk]; with_reducible refine keeps_fields ?_)

theorem startLayerFlip_keeps {a : State} {x0 : Sys2Proof.Hdr} {x1 : Sys2Proof.LayerFlipP} {x2 : State}
    (h2 : Keeps a x2) :
    AnsKeeps a (startLayerFlip x0 x1 x2) := by
  unfold startLayerFlip
  try dsimp only
  repeat' first
    | with_reducible assumption
    | with_reducible apply pendFlip_keeps
    | with_reducible apply planLayerFlip_keeps
    | with_reducible apply orAns_keeps
    | exact ans_fail
    | with_reducible apply ans_done
    | with_reducible apply ans_result
    | with_reducible apply ans_later
    | with_reducible apply ans_silent
    | with_reducible apply foldl_keeps
    | (intro y s hs; try dsimp only)
    | (intro s hs; try dsimp only)
    | split
    | (simp only [keeps_mk]; with_reducible refine keeps_fields ?_)

theorem startLayerQuery_keeps {a : State} {x0 : Sys2Proof.OutputQueryP} {x1 : State}
    (h1 : Keeps a x1) :
    AnsKeeps a (startLayerQuery x0 x1) := by
  unfold startLayerQuery
  try dsimp only
  repeat' first
    | with_reducible assumption
    | with_reducible apply orAns_keeps
    | exact ans_fail
    | with_reducible apply ans_done
    | with_reducible apply ans_result
    | with_reducible apply ans_later
    | with_reducible apply ans_silent
    | with_reducible apply foldl_keeps
    | (intro y s hs; try dsimp only)
    | (intro s hs; try dsimp only)
    | split
    | (simp only [keeps_mk]; with_reducible refine keeps_fields ?_)

theorem startCompSet_keeps {a : State} {x0 : Sys2Proof.Hdr} {x1 : Sys2Proof.CompSetP} {x2 : State}
    (h2 : Keeps a x2) :
    AnsKeeps a (startCompSet x0 x1 x2) := by
  unfold startCompSet
  try dsimp only
  repeat' first
    | with_reducible assumption
    | with_reducible apply orAns_keeps
    | exact ans_fail
    | with_reducible apply ans_done
    | with_reducible apply ans_result
    | with_reducible apply ans_later
    | with_reducible apply ans_silent
    | with_reducible apply foldl_keeps
    | (intro y s hs; try dsimp only)
    | (intro s hs; try dsimp only)
    | split
    | (simp only [keeps_mk]; with_reducible refine keeps_fields ?_)

theorem setFence_keeps {a : State} {x0 : State} {x1 : Nat} {x2 : Fence}
    (h0 : Keeps a x0) :
    Keeps a (State.setFence x0 x1 x2) := by
  unfold State.setFence
  try dsimp only
  repeat' first
    | with_reducible assumption
    | with_reducible apply foldl_keeps
    | (intro y s hs; try dsimp only)
    | (intro s hs; try dsimp only)
    | split
    | (simp only [keeps_mk]; with_reducible refine keeps_fields ?_)

theorem startFenceBind_keeps {a : State} {x0 : Sys2Proof.FenceBindP} {x1 : State}
    (h1 : Keeps a x1) :
    AnsKeeps a (startFenceBind x0 x1) := by
  unfold startFenceBind
  try dsimp only
  repeat' first
    | with_reducible assumption
    | with_reducible apply setFence_keeps
    | with_reducible apply orAns_keeps
    | exact ans_fail
    | with_reducible apply ans_done
    | with_reducible apply ans_result
    | with_reducible apply ans_later
    | with_reducible apply ans_silent
    | with_reducible apply foldl_keeps
    | (intro y s hs; try dsimp only)
    | (intro s hs; try dsimp only)
    | split
    | (simp only [keeps_mk]; with_reducible refine keeps_fields ?_)

theorem signal_keeps {a : State} {x0 : State} {x1 : Nat} {x2 : BitVec 32}
    (h0 : Keeps a x0) :
    Keeps a (State.signal x0 x1 x2) := by
  unfold State.signal
  try dsimp only
  repeat' first
    | with_reducible assumption
    | with_reducible apply setFence_keeps
    | with_reducible apply foldl_keeps
    | (intro y s hs; try dsimp only)
    | (intro s hs; try dsimp only)
    | split
    | (simp only [keeps_mk]; with_reducible refine keeps_fields ?_)

theorem signalNow_keeps {a : State} {x0 : Sys2Proof.FenceSignalP} {x1 : State}
    (h1 : Keeps a x1) :
    Keeps a (signalNow x0 x1) := by
  unfold signalNow
  try dsimp only
  repeat' first
    | with_reducible assumption
    | with_reducible apply signal_keeps
    | with_reducible apply foldl_keeps
    | (intro y s hs; try dsimp only)
    | (intro s hs; try dsimp only)
    | split
    | (simp only [keeps_mk]; with_reducible refine keeps_fields ?_)

theorem startFenceSignal_keeps {a : State} {x0 : Sys2Proof.FenceSignalP} {x1 : State}
    (h1 : Keeps a x1) :
    AnsKeeps a (startFenceSignal x0 x1) := by
  unfold startFenceSignal
  try dsimp only
  repeat' first
    | with_reducible assumption
    | with_reducible apply signalNow_keeps
    | with_reducible apply orAns_keeps
    | exact ans_fail
    | with_reducible apply ans_done
    | with_reducible apply ans_result
    | with_reducible apply ans_later
    | with_reducible apply ans_silent
    | with_reducible apply foldl_keeps
    | (intro y s hs; try dsimp only)
    | (intro s hs; try dsimp only)
    | split
    | (simp only [keeps_mk]; with_reducible refine keeps_fields ?_)

theorem startFenceQuery_keeps {a : State} {x0 : Sys2Proof.FenceQueryP} {x1 : State}
    (h1 : Keeps a x1) :
    AnsKeeps a (startFenceQuery x0 x1) := by
  unfold startFenceQuery
  try dsimp only
  repeat' first
    | with_reducible assumption
    | with_reducible apply orAns_keeps
    | exact ans_fail
    | with_reducible apply ans_done
    | with_reducible apply ans_result
    | with_reducible apply ans_later
    | with_reducible apply ans_silent
    | with_reducible apply foldl_keeps
    | (intro y s hs; try dsimp only)
    | (intro s hs; try dsimp only)
    | split
    | (simp only [keeps_mk]; with_reducible refine keeps_fields ?_)

theorem startGroupSet_keeps {a : State} {x0 : Sys2Proof.GroupSetP} {x1 : State}
    (h1 : Keeps a x1) :
    AnsKeeps a (startGroupSet x0 x1) := by
  unfold startGroupSet
  try dsimp only
  repeat' first
    | with_reducible assumption
    | with_reducible apply each_keeps
    | with_reducible apply modLayer_keeps
    | with_reducible apply orAns_keeps
    | exact ans_fail
    | with_reducible apply ans_done
    | with_reducible apply ans_result
    | with_reducible apply ans_later
    | with_reducible apply ans_silent
    | with_reducible apply foldl_keeps
    | (intro y s hs; try dsimp only)
    | (intro s hs; try dsimp only)
    | split
    | (simp only [keeps_mk]; with_reducible refine keeps_fields ?_)

theorem modRun_keeps {a : State} {x0 : State} {x1 : Nat} {x2 : Nat} {x3 : StaticRun → StaticRun}
    (h0 : Keeps a x0) :
    Keeps a (State.modRun x0 x1 x2 x3) := by
  unfold State.modRun
  try dsimp only
  repeat' first
    | with_reducible assumption
    | with_reducible apply setCompOut_keeps
    | with_reducible apply foldl_keeps
    | (intro y s hs; try dsimp only)
    | (intro s hs; try dsimp only)
    | split
    | (simp only [keeps_mk]; with_reducible refine keeps_fields ?_)

theorem changeLayer_keeps {a : State} {x0 : State} {x1 : Nat} {x2 : Nat} {x3 : LayerAttr} {x4 : Nat}
    (h0 : Keeps a x0) :
    Keeps a (State.changeLayer x0 x1 x2 x3 x4).2 := by
  unfold State.changeLayer
  try dsimp only
  repeat' first
    | with_reducible assumption
    | with_reducible apply setCompOut_keeps
    | with_reducible apply modRun_keeps
    | with_reducible apply foldl_keeps
    | (intro y s hs; try dsimp only)
    | (intro s hs; try dsimp only)
    | split
    | (simp only [keeps_mk]; with_reducible refine keeps_fields ?_)

theorem applyLayerSet_keeps {a s : State} {j : Job} {p : LayerSetP} (h : Keeps a s) : Keeps a (applyLayerSet j p s) := by
  unfold applyLayerSet
  split
  · exact setJob_keeps h
  · dsimp only
    have h1 : ∀ f : Bool × State → LayerEntry → Bool × State, (∀ p x, Keeps a p.2 → Keeps a (f p x).2) →
        Keeps a (p.entries.foldl f (false, s.setJob { j with kind := .event })).2 :=
      fun f hf => foldl_pair_keeps hf (setJob_keeps h)
    have hf : ∀ (q : Bool × State) (e : LayerEntry), Keeps a q.2 → Keeps a (q.2.changeLayer p.output e.layer
        (entryAttr (layerOf (settled (q.2.compOut p.output)) e.layer).a e) j.id).2 := fun _ _ hq => changeLayer_keeps hq
    split
    · exact holdLayers_keeps (h1 _ hf)
    · exact complete_keeps (holdLayers_keeps (h1 _ hf))

theorem applyLayerFlip_keeps {a : State} {x0 : Job} {x1 : Sys2Proof.LayerFlipP} {x2 : State}
    (h2 : Keeps a x2) :
    Keeps a (applyLayerFlip x0 x1 x2) := by
  unfold applyLayerFlip
  try dsimp only
  repeat' first
    | with_reducible assumption
    | with_reducible apply pendFlip_keeps
    | with_reducible apply setJob_keeps
    | with_reducible apply complete_keeps
    | with_reducible apply releaseLayerSet_keeps
    | with_reducible apply foldl_keeps
    | (intro y s hs; try dsimp only)
    | (intro s hs; try dsimp only)
    | split
    | (simp only [keeps_mk]; with_reducible refine keeps_fields ?_)

theorem applyCompSet_keeps {a : State} {x0 : Job} {x1 : Sys2Proof.CompSetP} {x2 : State}
    (h2 : Keeps a x2) :
    Keeps a (applyCompSet x0 x1 x2) := by
  unfold applyCompSet
  try dsimp only
  repeat' first
    | with_reducible assumption
    | with_reducible apply setJob_keeps
    | with_reducible apply setCompOut_keeps
    | with_reducible apply complete_keeps
    | with_reducible apply foldl_keeps
    | (intro y s hs; try dsimp only)
    | (intro s hs; try dsimp only)
    | split
    | (simp only [keeps_mk]; with_reducible refine keeps_fields ?_)

theorem applyFenceSignal_keeps {a : State} {x0 : Job} {x1 : Sys2Proof.FenceSignalP} {x2 : State}
    (h2 : Keeps a x2) :
    Keeps a (applyFenceSignal x0 x1 x2) := by
  unfold applyFenceSignal
  try dsimp only
  repeat' first
    | with_reducible assumption
    | with_reducible apply complete_keeps
    | with_reducible apply signalNow_keeps
    | with_reducible apply foldl_keeps
    | (intro y s hs; try dsimp only)
    | (intro s hs; try dsimp only)
    | split
    | (simp only [keeps_mk]; with_reducible refine keeps_fields ?_)

theorem engage_keeps {a : State} {x0 : State} {x1 : Nat} {x2 : Nat}
    (h0 : Keeps a x0) :
    Keeps a (State.engage x0 x1 x2) := by
  unfold State.engage
  try dsimp only
  repeat' first
    | with_reducible assumption
    | with_reducible apply setCompOut_keeps
    | with_reducible apply foldl_keeps
    | (intro y s hs; try dsimp only)
    | (intro s hs; try dsimp only)
    | split
    | (simp only [keeps_mk]; with_reducible refine keeps_fields ?_)

theorem takeFlip_keeps {a : State} {x0 : State} {x1 : Nat} {x2 : Nat} {x3 : Flip}
    (h0 : Keeps a x0) :
    Keeps a (State.takeFlip x0 x1 x2 x3) := by
  unfold State.takeFlip
  try dsimp only
  repeat' first
    | with_reducible assumption
    | with_reducible apply changeLayer_keeps
    | with_reducible apply modLayer_keeps
    | with_reducible apply holdLayers_keeps
    | with_reducible apply count_keeps
    | with_reducible apply completeId_keeps
    | refine keeps_pair (by assumption) ?_
    | with_reducible apply foldl_keeps
    | (intro y s hs; try dsimp only)
    | (intro s hs; try dsimp only)
    | split
    | (simp only [keeps_mk]; with_reducible refine keeps_fields ?_)

theorem mateFlip_keeps {a : State} {x0 : State} {x1 : Nat} {x2 : Nat}
    (h0 : Keeps a x0) :
    Keeps a (State.mateFlip x0 x1 x2) := by
  unfold State.mateFlip
  try dsimp only
  repeat' first
    | with_reducible assumption
    | with_reducible apply modLayer_keeps
    | with_reducible apply takeFlip_keeps
    | with_reducible apply reportMissing_keeps
    | with_reducible apply foldl_keeps
    | (intro y s hs; try dsimp only)
    | (intro s hs; try dsimp only)
    | split
    | (simp only [keeps_mk]; with_reducible refine keeps_fields ?_)

theorem deferFlip_keeps {a : State} {x0 : State} {x1 : Nat} {x2 : Nat}
    (h0 : Keeps a x0) :
    Keeps a (State.deferFlip x0 x1 x2) := by
  unfold State.deferFlip
  try dsimp only
  repeat' first
    | with_reducible assumption
    | with_reducible apply count_keeps
    | with_reducible apply modLayer_keeps
    | with_reducible apply completeId_keeps
    | with_reducible apply holdLayers_keeps
    | with_reducible apply foldl_keeps
    | (intro y s hs; try dsimp only)
    | (intro s hs; try dsimp only)
    | split
    | (simp only [keeps_mk]; with_reducible refine keeps_fields ?_)

theorem flipFrame_keeps {a : State} {x0 : State} {x1 : Nat} {x2 : Nat}
    (h0 : Keeps a x0) :
    Keeps a (State.flipFrame x0 x1 x2) := by
  unfold State.flipFrame
  try dsimp only
  repeat' first
    | with_reducible assumption
    | with_reducible apply mateFlip_keeps
    | with_reducible apply deferFlip_keeps
    | with_reducible apply takeFlip_keeps
    | with_reducible apply each_keeps
    | with_reducible apply setCompOut_keeps
    | with_reducible apply foldl_keeps
    | (intro y s hs; try dsimp only)
    | (intro s hs; try dsimp only)
    | split
    | (simp only [keeps_mk]; with_reducible refine keeps_fields ?_)

theorem overlayFrame_keeps {a : State} {x0 : State} {x1 : Nat}
    (h0 : Keeps a x0) :
    Keeps a (State.overlayFrame x0 x1) := by
  unfold State.overlayFrame
  try dsimp only
  repeat' first
    | with_reducible assumption
    | with_reducible apply setCompOut_keeps
    | with_reducible apply foldl_keeps
    | (intro y s hs; try dsimp only)
    | (intro s hs; try dsimp only)
    | split
    | (simp only [keeps_mk]; with_reducible refine keeps_fields ?_)

theorem decideFlip_keeps {a : State} {x0 : State} {x1 : Nat} {x2 : Nat} {x3 : Flip} {x4 : Nat}
    (h0 : Keeps a x0) :
    Keeps a (State.decideFlip x0 x1 x2 x3 x4) := by
  unfold State.decideFlip
  try dsimp only
  repeat' first
    | with_reducible assumption
    | with_reducible apply modLayer_keeps
    | with_reducible apply foldl_keeps
    | (intro y s hs; try dsimp only)
    | (intro s hs; try dsimp only)
    | split
    | (simp only [keeps_mk]; with_reducible refine keeps_fields ?_)

theorem repeatLayer_keeps {a : State} {x0 : State} {x1 : Nat} {x2 : Nat}
    (h0 : Keeps a x0) :
    Keeps a (State.repeatLayer x0 x1 x2) := by
  unfold State.repeatLayer
  try dsimp only
  repeat' first
    | with_reducible assumption
    | with_reducible apply count_keeps
    | with_reducible apply deferFlip_keeps
    | with_reducible apply foldl_keeps
    | (intro y s hs; try dsimp only)
    | (intro s hs; try dsimp only)
    | split
    | (simp only [keeps_mk]; with_reducible refine keeps_fields ?_)

theorem decideGroup_keeps {a : State} {x0 : State} {x1 : Nat}
    (h0 : Keeps a x0) :
    Keeps a (State.decideGroup x0 x1) := by
  unfold State.decideGroup
  try dsimp only
  repeat' first
    | with_reducible assumption
    | with_reducible apply each_keeps
    | with_reducible apply decideFlip_keeps
    | with_reducible apply count_keeps
    | with_reducible apply repeatLayer_keeps
    | with_reducible apply foldl_keeps
    | (intro y s hs; try dsimp only)
    | (intro s hs; try dsimp only)
    | split
    | (simp only [keeps_mk]; with_reducible refine keeps_fields ?_)

theorem decideLayer_keeps {a : State} {x0 : State} {x1 : Nat} {x2 : Nat}
    (h0 : Keeps a x0) :
    Keeps a (State.decideLayer x0 x1 x2) := by
  unfold State.decideLayer
  try dsimp only
  repeat' first
    | with_reducible assumption
    | with_reducible apply decideFlip_keeps
    | with_reducible apply deferFlip_keeps
    | with_reducible apply foldl_keeps
    | (intro y s hs; try dsimp only)
    | (intro s hs; try dsimp only)
    | split
    | (simp only [keeps_mk]; with_reducible refine keeps_fields ?_)

theorem fenPacket_keeps {a : State} {x0 : State} {x1 : Nat} {x2 : Nat} {x3 : Nat}
    (h0 : Keeps a x0) :
    Keeps a (State.fenPacket x0 x1 x2 x3) := by
  unfold State.fenPacket
  try dsimp only
  repeat' first
    | with_reducible assumption
    | with_reducible apply signal_keeps
    | with_reducible apply setFence_keeps
    | with_reducible apply foldl_keeps
    | (intro y s hs; try dsimp only)
    | (intro s hs; try dsimp only)
    | split
    | (simp only [keeps_mk]; with_reducible refine keeps_fields ?_)

theorem doDecisionLine_keeps {a : State} {x0 : Nat} {x1 : State}
    (h1 : Keeps a x1) :
    Keeps a (doDecisionLine x0 x1) := by
  unfold doDecisionLine
  try dsimp only
  repeat' first
    | with_reducible assumption
    | with_reducible apply setCompOut_keeps
    | with_reducible apply each_keeps
    | with_reducible apply decideGroup_keeps
    | with_reducible apply decideLayer_keeps
    | with_reducible apply emit_keeps
    | with_reducible apply foldl_keeps
    | (intro y s hs; try dsimp only)
    | (intro s hs; try dsimp only)
    | split
    | (simp only [keeps_mk]; with_reducible refine keeps_fields ?_)

theorem ringMisses_keeps {a : State} {x0 : State} {x1 : Nat} {x2 : Nat}
    (h0 : Keeps a x0) :
    Keeps a (State.ringMisses x0 x1 x2) := by
  unfold State.ringMisses
  try dsimp only
  repeat' first
    | with_reducible assumption
    | with_reducible apply count_keeps
    | with_reducible apply foldl_keeps
    | (intro y s hs; try dsimp only)
    | (intro s hs; try dsimp only)
    | split
    | (simp only [keeps_mk]; with_reducible refine keeps_fields ?_)

theorem setSparse_keeps {a : State} {x0 : State} {x1 : Nat} {x2 : Nat} {x3 : Nat} {x4 : Nat}
    (h0 : Keeps a x0) :
    Keeps a (State.setSparse x0 x1 x2 x3 x4) := by
  unfold State.setSparse
  try dsimp only
  repeat' first
    | with_reducible assumption
    | with_reducible apply foldl_keeps
    | (intro y s hs; try dsimp only)
    | (intro s hs; try dsimp only)
    | split
    | (simp only [keeps_mk]; with_reducible refine keeps_fields ?_)

theorem freeFlattener_keeps {a : State} {x0 : State} {x1 : Nat}
    (h0 : Keeps a x0) :
    Keeps a (State.freeFlattener x0 x1) := by
  unfold State.freeFlattener
  try dsimp only
  repeat' first
    | with_reducible assumption
    | with_reducible apply foldl_keeps
    | (intro y s hs; try dsimp only)
    | (intro s hs; try dsimp only)
    | split
    | (simp only [keeps_mk]; with_reducible refine keeps_fields ?_)

theorem dissolve_keeps {a : State} {x0 : State} {x1 : Nat} {x2 : Nat}
    (h0 : Keeps a x0) :
    Keeps a (State.dissolve x0 x1 x2).2 := by
  unfold State.dissolve
  try dsimp only
  repeat' first
    | with_reducible assumption
    | with_reducible apply setSparse_keeps
    | with_reducible apply setCompOut_keeps
    | with_reducible apply freeFlattener_keeps
    | with_reducible apply foldl_keeps
    | (intro y s hs; try dsimp only)
    | (intro s hs; try dsimp only)
    | split
    | (simp only [keeps_mk]; with_reducible refine keeps_fields ?_)

theorem dropComp_keeps {a : State} {x0 : State} {x1 : Nat}
    (h0 : Keeps a x0) :
    Keeps a (State.dropComp x0 x1) := by
  unfold State.dropComp
  try dsimp only
  repeat' first
    | with_reducible assumption
    | with_reducible apply dissolve_keeps
    | with_reducible apply completeAll_keeps
    | with_reducible apply completeWhere_keeps
    | refine keeps_pair (by assumption) ?_
    | with_reducible apply foldl_keeps
    | (intro y s hs; try dsimp only)
    | (intro s hs; try dsimp only)
    | split
    | (simp only [keeps_mk]; with_reducible refine keeps_fields ?_)

theorem planStaticSet_keeps {a : State} {x0 : Sys2Proof.StaticSetP} {x1 : State}
    (h1 : Keeps a x1) :
    Keeps a (planStaticSet x0 x1) := by
  unfold planStaticSet
  try dsimp only
  repeat' first
    | with_reducible assumption
    | with_reducible apply holdLayers_keeps
    | with_reducible apply foldl_keeps
    | (intro y s hs; try dsimp only)
    | (intro s hs; try dsimp only)
    | split
    | (simp only [keeps_mk]; with_reducible refine keeps_fields ?_)

theorem releaseStaticSet_keeps {a : State} {x0 : Job} {x1 : Sys2Proof.StaticSetP} {x2 : State}
    (h2 : Keeps a x2) :
    Keeps a (releaseStaticSet x0 x1 x2) := by
  unfold releaseStaticSet
  try dsimp only
  repeat' first
    | with_reducible assumption
    | with_reducible apply releaseLayerSet_keeps
    | with_reducible apply foldl_keeps
    | (intro y s hs; try dsimp only)
    | (intro s hs; try dsimp only)
    | split
    | (simp only [keeps_mk]; with_reducible refine keeps_fields ?_)

theorem startStaticSet_keeps {a : State} {x0 : Sys2Proof.Hdr} {x1 : Sys2Proof.StaticSetP} {x2 : State}
    (h2 : Keeps a x2) :
    AnsKeeps a (startStaticSet x0 x1 x2) := by
  unfold startStaticSet
  try dsimp only
  repeat' first
    | with_reducible assumption
    | with_reducible apply planStaticSet_keeps
    | with_reducible apply orAns_keeps
    | exact ans_fail
    | with_reducible apply ans_done
    | with_reducible apply ans_result
    | with_reducible apply ans_later
    | with_reducible apply ans_silent
    | with_reducible apply foldl_keeps
    | (intro y s hs; try dsimp only)
    | (intro s hs; try dsimp only)
    | split
    | (simp only [keeps_mk]; with_reducible refine keeps_fields ?_)

theorem finishStatic_keeps {a : State} {x0 : State} {x1 : Nat} {x2 : Nat} {x3 : Nat}
    (h0 : Keeps a x0) :
    Keeps a (State.finishStatic x0 x1 x2 x3) := by
  unfold State.finishStatic
  try dsimp only
  repeat' first
    | with_reducible assumption
    | with_reducible apply completeId_keeps
    | with_reducible apply foldl_keeps
    | (intro y s hs; try dsimp only)
    | (intro s hs; try dsimp only)
    | split
    | (simp only [keeps_mk]; with_reducible refine keeps_fields ?_)

theorem applyStaticSet_keeps {a : State} {x0 : Job} {x1 : Sys2Proof.StaticSetP} {x2 : State}
    (h2 : Keeps a x2) :
    Keeps a (applyStaticSet x0 x1 x2) := by
  unfold applyStaticSet
  try dsimp only
  repeat' first
    | with_reducible assumption
    | with_reducible apply setJob_keeps
    | with_reducible apply dissolve_keeps
    | with_reducible apply holdLayers_keeps
    | with_reducible apply each_keeps
    | with_reducible apply finishStatic_keeps
    | with_reducible apply complete_keeps
    | with_reducible apply setCompOut_keeps
    | refine keeps_pair (by assumption) ?_
    | with_reducible apply foldl_keeps
    | (intro y s hs; try dsimp only)
    | (intro s hs; try dsimp only)
    | split
    | (simp only [keeps_mk]; with_reducible refine keeps_fields ?_)

theorem applyWaiting_keeps {a : State} {x0 : State} {x1 : Nat} {x2 : Nat} {x3 : List StaticChange}
    (h0 : Keeps a x0) :
    Keeps a (State.applyWaiting x0 x1 x2 x3) := by
  unfold State.applyWaiting
  try dsimp only
  repeat' first
    | with_reducible assumption
    | with_reducible apply each_keeps
    | with_reducible apply changeLayer_keeps
    | with_reducible apply finishStatic_keeps
    | with_reducible apply modRun_keeps
    | refine keeps_pair (by assumption) ?_
    | with_reducible apply foldl_keeps
    | (intro y s hs; try dsimp only)
    | (intro s hs; try dsimp only)
    | split
    | (simp only [keeps_mk]; with_reducible refine keeps_fields ?_)

theorem beginFlatten_keeps {a : State} {x0 : State} {x1 : Nat} {x2 : Nat} {x3 : Nat}
    (h0 : Keeps a x0) :
    Keeps a (State.beginFlatten x0 x1 x2 x3) := by
  unfold State.beginFlatten
  try dsimp only
  repeat' first
    | with_reducible assumption
    | with_reducible apply modRun_keeps
    | with_reducible apply emit_keeps
    | with_reducible apply count_keeps
    | with_reducible apply fire_keeps
    | with_reducible apply foldl_keeps
    | (intro y s hs; try dsimp only)
    | (intro s hs; try dsimp only)
    | split
    | (simp only [keeps_mk]; with_reducible refine keeps_fields ?_)

theorem endFlatten_keeps {a : State} {x0 : State} {x1 : Nat} {x2 : Nat} {x3 : Nat}
    (h0 : Keeps a x0) :
    Keeps a (State.endFlatten x0 x1 x2 x3) := by
  unfold State.endFlatten
  try dsimp only
  repeat' first
    | with_reducible assumption
    | with_reducible apply setSparse_keeps
    | with_reducible apply setCompOut_keeps
    | with_reducible apply fire_keeps
    | with_reducible apply count_keeps
    | with_reducible apply each_keeps
    | with_reducible apply finishStatic_keeps
    | with_reducible apply holdLayers_keeps
    | with_reducible apply applyWaiting_keeps
    | with_reducible apply foldl_keeps
    | (intro y s hs; try dsimp only)
    | (intro s hs; try dsimp only)
    | split
    | (simp only [keeps_mk]; with_reducible refine keeps_fields ?_)

theorem swapFrame_keeps {a : State} {x0 : State} {x1 : Nat} {x2 : Nat}
    (h0 : Keeps a x0) :
    Keeps a (State.swapFrame x0 x1 x2) := by
  unfold State.swapFrame
  try dsimp only
  repeat' first
    | with_reducible assumption
    | with_reducible apply endFlatten_keeps
    | with_reducible apply foldl_keeps
    | (intro y s hs; try dsimp only)
    | (intro s hs; try dsimp only)
    | split
    | (simp only [keeps_mk]; with_reducible refine keeps_fields ?_)

theorem flattenFrame_keeps {a : State} {x0 : State} {x1 : Nat} {x2 : Nat}
    (h0 : Keeps a x0) :
    Keeps a (State.flattenFrame x0 x1 x2) := by
  unfold State.flattenFrame
  try dsimp only
  repeat' first
    | with_reducible assumption
    | with_reducible apply beginFlatten_keeps
    | with_reducible apply foldl_keeps
    | (intro y s hs; try dsimp only)
    | (intro s hs; try dsimp only)
    | split
    | (simp only [keeps_mk]; with_reducible refine keeps_fields ?_)

theorem writeImage_keeps {a : State} {x0 : State} {x1 : Nat} {x2 : List (Nat × LayerAttr)} {x3 : Buf} {x4 : List Nat}
    (h0 : Keeps a x0) :
    Keeps a (State.writeImage x0 x1 x2 x3 x4) := by
  unfold State.writeImage
  try dsimp only
  repeat' first
    | with_reducible assumption
    | with_reducible apply each_keeps
    | with_reducible apply pondWrite_keeps
    | with_reducible apply foldl_keeps
    | (intro y s hs; try dsimp only)
    | (intro s hs; try dsimp only)
    | split
    | (simp only [keeps_mk]; with_reducible refine keeps_fields ?_)

theorem doFlattenComplete_keeps {a : State} {x0 : Nat} {x1 : Nat} {x2 : State}
    (h2 : Keeps a x2) :
    Keeps a (doFlattenComplete x0 x1 x2) := by
  unfold doFlattenComplete
  try dsimp only
  repeat' first
    | with_reducible assumption
    | with_reducible apply freeFlattener_keeps
    | with_reducible apply modRun_keeps
    | with_reducible apply count_keeps
    | with_reducible apply writeImage_keeps
    | with_reducible apply charge_keeps
    | with_reducible apply foldl_keeps
    | (intro y s hs; try dsimp only)
    | (intro s hs; try dsimp only)
    | split
    | (simp only [keeps_mk]; with_reducible refine keeps_fields ?_)

end Sys2Proof.Laws
end

