-- ==== Sys2Proof/Laws/Keeps/Sound.lean ====
section
/-! SUPPORT. What the operations of Machine/Audio.lean, Ports.lean, Pictures.lean, Writers.lean, Tailrace.lean, Streams.lean and Presets.lean keep: one lemma per operation (see Laws/Keeps.lean). -/

namespace Sys2Proof.Laws

open Sys2Proof.Machine

theorem setEmbed_keeps {a : State} {x0 : State} {x1 : Nat} {x2 : Embed}
    (h0 : Keeps a x0) :
    Keeps a (State.setEmbed x0 x1 x2) := by
  unfold State.setEmbed
  try dsimp only
  repeat' first
    | with_reducible assumption
    | with_reducible apply foldl_keeps
    | (intro y s hs; try dsimp only)
    | (intro s hs; try dsimp only)
    | split
    | (simp only [keeps_mk]; with_reducible refine keeps_fields ?_)

theorem setPort_keeps {a : State} {x0 : State} {x1 : Nat} {x2 : TdmPort}
    (h0 : Keeps a x0) :
    Keeps a (State.setPort x0 x1 x2) := by
  unfold State.setPort
  try dsimp only
  repeat' first
    | with_reducible assumption
    | with_reducible apply foldl_keeps
    | (intro y s hs; try dsimp only)
    | (intro s hs; try dsimp only)
    | split
    | (simp only [keeps_mk]; with_reducible refine keeps_fields ?_)

theorem settleAudio_keeps {a : State} {x0 : State} {x1 : Nat}
    (h0 : Keeps a x0) :
    Keeps a (State.settleAudio x0 x1) := by
  unfold State.settleAudio
  try dsimp only
  repeat' first
    | with_reducible assumption
    | with_reducible apply complete_keeps
    | with_reducible apply foldl_keeps
    | (intro y s hs; try dsimp only)
    | (intro s hs; try dsimp only)
    | split
    | (simp only [keeps_mk]; with_reducible refine keeps_fields ?_)

theorem setDst_keeps {a : State} {x0 : State} {x1 : Nat} {x2 : Dst}
    (h0 : Keeps a x0) :
    Keeps a (State.setDst x0 x1 x2) := by
  unfold State.setDst
  try dsimp only
  repeat' first
    | with_reducible assumption
    | with_reducible apply foldl_keeps
    | (intro y s hs; try dsimp only)
    | (intro s hs; try dsimp only)
    | split
    | (simp only [keeps_mk]; with_reducible refine keeps_fields ?_)

theorem setAsrc_keeps {a : State} {x0 : State} {x1 : Nat} {x2 : Option Asrc}
    (h0 : Keeps a x0) :
    Keeps a (State.setAsrc x0 x1 x2) := by
  unfold State.setAsrc
  try dsimp only
  repeat' first
    | with_reducible assumption
    | with_reducible apply foldl_keeps
    | (intro y s hs; try dsimp only)
    | (intro s hs; try dsimp only)
    | split
    | (simp only [keeps_mk]; with_reducible refine keeps_fields ?_)

theorem asrcTo_keeps {a : State} {x0 : State} {x1 : Nat} {x2 : Asrc} {x3 : AsrcSt}
    (h0 : Keeps a x0) :
    Keeps a (State.asrcTo x0 x1 x2 x3) := by
  unfold State.asrcTo
  try dsimp only
  repeat' first
    | with_reducible assumption
    | with_reducible apply fire_keeps
    | with_reducible apply count_keeps
    | with_reducible apply setAsrc_keeps
    | with_reducible apply foldl_keeps
    | (intro y s hs; try dsimp only)
    | (intro s hs; try dsimp only)
    | split
    | (simp only [keeps_mk]; with_reducible refine keeps_fields ?_)

theorem asrcTrack_keeps {a : State} {x0 : State} {x1 : Nat} {x2 : Asrc} {x3 : Int} {x4 : Nat}
    (h0 : Keeps a x0) :
    Keeps a (State.asrcTrack x0 x1 x2 x3 x4) := by
  unfold State.asrcTrack
  try dsimp only
  repeat' first
    | with_reducible assumption
    | with_reducible apply setAsrc_keeps
    | with_reducible apply asrcTo_keeps
    | with_reducible apply foldl_keeps
    | (intro y s hs; try dsimp only)
    | (intro s hs; try dsimp only)
    | split
    | (simp only [keeps_mk]; with_reducible refine keeps_fields ?_)

theorem sendLeat_keeps {a : State} {x0 : State} {x1 : List Nat}
    (h0 : Keeps a x0) :
    Keeps a (State.sendLeat x0 x1) := by
  unfold State.sendLeat
  try dsimp only
  repeat' first
    | with_reducible assumption
    | with_reducible apply emit_keeps
    | with_reducible apply foldl_keeps
    | (intro y s hs; try dsimp only)
    | (intro s hs; try dsimp only)
    | split
    | (simp only [keeps_mk]; with_reducible refine keeps_fields ?_)

theorem storeChannel_keeps {a : State} {x0 : State} {x1 : Nat} {x2 : Nat} {x3 : Int} {x4 : List (Int × Nat)} {x5 : List (Option Nat)} {x6 : List Bool}
    (h0 : Keeps a x0) :
    Keeps a (State.storeChannel x0 x1 x2 x3 x4 x5 x6) := by
  unfold State.storeChannel
  try dsimp only
  repeat' first
    | with_reducible assumption
    | with_reducible apply count_keeps
    | with_reducible apply foldl_keeps
    | (intro y s hs; try dsimp only)
    | (intro s hs; try dsimp only)
    | split
    | (simp only [keeps_mk]; with_reducible refine keeps_fields ?_)

theorem storePair_keeps {a : State} {x0 : State} {x1 : Nat} {x2 : Nat} {x3 : Nat} {x4 : Int} {x5 : List (Int × Nat)} {x6 : Option (List (Int × Nat))} {x7 : Bool}
    (h0 : Keeps a x0) :
    Keeps a (State.storePair x0 x1 x2 x3 x4 x5 x6 x7) := by
  unfold State.storePair
  try dsimp only
  repeat' first
    | with_reducible assumption
    | with_reducible apply sendLeat_keeps
    | with_reducible apply storeChannel_keeps
    | with_reducible apply foldl_keeps
    | (intro y s hs; try dsimp only)
    | (intro s hs; try dsimp only)
    | split
    | (simp only [keeps_mk]; with_reducible refine keeps_fields ?_)

theorem setDomain_keeps {a : State} {x0 : State} {x1 : Nat} {x2 : Domain}
    (h0 : Keeps a x0) :
    Keeps a (State.setDomain x0 x1 x2) := by
  unfold State.setDomain
  try dsimp only
  repeat' first
    | with_reducible assumption
    | with_reducible apply foldl_keeps
    | (intro y s hs; try dsimp only)
    | (intro s hs; try dsimp only)
    | split
    | (simp only [keeps_mk]; with_reducible refine keeps_fields ?_)

theorem domainEvent_keeps {a : State} {x0 : State} {x1 : Nat}
    (h0 : Keeps a x0) :
    Keeps a (State.domainEvent x0 x1) := by
  unfold State.domainEvent
  try dsimp only
  repeat' first
    | with_reducible assumption
    | with_reducible apply fire_keeps
    | with_reducible apply foldl_keeps
    | (intro y s hs; try dsimp only)
    | (intro s hs; try dsimp only)
    | split
    | (simp only [keeps_mk]; with_reducible refine keeps_fields ?_)

theorem measure_keeps {a : State} {x0 : State} {x1 : Nat} {x2 : Nat} {x3 : Int} {x4 : Nat}
    (h0 : Keeps a x0) :
    Keeps a (State.measure x0 x1 x2 x3 x4) := by
  unfold State.measure
  try dsimp only
  repeat' first
    | with_reducible assumption
    | with_reducible apply setDomain_keeps
    | with_reducible apply sendLeat_keeps
    | with_reducible apply domainEvent_keeps
    | with_reducible apply foldl_keeps
    | (intro y s hs; try dsimp only)
    | (intro s hs; try dsimp only)
    | split
    | (simp only [keeps_mk]; with_reducible refine keeps_fields ?_)

theorem blockArrived_keeps {a : State} {x0 : State} {x1 : Nat} {x2 : Nat} {x3 : List Nat} {x4 : Int} {x5 : Nat}
    (h0 : Keeps a x0) :
    Keeps a (State.blockArrived x0 x1 x2 x3 x4 x5) := by
  unfold State.blockArrived
  try dsimp only
  repeat' first
    | with_reducible assumption
    | with_reducible apply each_keeps
    | with_reducible apply asrcTrack_keeps
    | with_reducible apply measure_keeps
    | with_reducible apply foldl_keeps
    | (intro y s hs; try dsimp only)
    | (intro s hs; try dsimp only)
    | split
    | (simp only [keeps_mk]; with_reducible refine keeps_fields ?_)

theorem blockBoundary_keeps {a : State} {x0 : State} {x1 : Nat} {x2 : DstInfo} {x3 : Int}
    (h0 : Keeps a x0) :
    Keeps a (State.blockBoundary x0 x1 x2 x3) := by
  unfold State.blockBoundary
  try dsimp only
  repeat' first
    | with_reducible assumption
    | with_reducible apply reportMissing_keeps
    | with_reducible apply setDst_keeps
    | with_reducible apply fire_keeps
    | with_reducible apply setPort_keeps
    | with_reducible apply each_keeps
    | with_reducible apply settleAudio_keeps
    | with_reducible apply foldl_keeps
    | (intro y s hs; try dsimp only)
    | (intro s hs; try dsimp only)
    | split
    | (simp only [keeps_mk]; with_reducible refine keeps_fields ?_)

theorem ringPut_keeps {a : State} {x0 : State} {x1 : Buf} {x2 : Nat} {x3 : Nat} {x4 : Int}
    (h0 : Keeps a x0) :
    Keeps a (State.ringPut x0 x1 x2 x3 x4) := by
  unfold State.ringPut
  try dsimp only
  repeat' first
    | with_reducible assumption
    | with_reducible apply pondWrite_keeps
    | with_reducible apply foldl_keeps
    | (intro y s hs; try dsimp only)
    | (intro s hs; try dsimp only)
    | split
    | (simp only [keeps_mk]; with_reducible refine keeps_fields ?_)

theorem ringWrite_keeps {a : State} {x0 : State} {x1 : Nat} {x2 : Int}
    (h0 : Keeps a x0) :
    Keeps a (State.ringWrite x0 x1 x2) := by
  unfold State.ringWrite
  try dsimp only
  repeat' first
    | with_reducible assumption
    | with_reducible apply ringPut_keeps
    | with_reducible apply pondWrite_keeps
    | with_reducible apply setEmbed_keeps
    | with_reducible apply count_keeps
    | with_reducible apply foldl_keeps
    | (intro y s hs; try dsimp only)
    | (intro s hs; try dsimp only)
    | split
    | (simp only [keeps_mk]; with_reducible refine keeps_fields ?_)

theorem serveSample_keeps {a : State} {x0 : State} {x1 : Nat} {x2 : Int}
    (h0 : Keeps a x0) :
    Keeps a (State.serveSample x0 x1 x2) := by
  unfold State.serveSample
  try dsimp only
  repeat' first
    | with_reducible assumption
    | with_reducible apply blockBoundary_keeps
    | with_reducible apply setDst_keeps
    | with_reducible apply count_keeps
    | with_reducible apply fire_keeps
    | with_reducible apply foldl_keeps
    | (intro y s hs; try dsimp only)
    | (intro s hs; try dsimp only)
    | split
    | (simp only [keeps_mk]; with_reducible refine keeps_fields ?_)

theorem serveMany_keeps {a s : State} {c : Nat} {j : Int} {n : Nat} (h : Keeps a s) : Keeps a (s.serveMany c j n) := by
  induction n generalizing s j with
  | zero => exact h
  | succ n ih => exact ih (ringWrite_keeps (serveSample_keeps h))

theorem serveTo_keeps {a : State} {x0 : State} {x1 : Nat} {x2 : Int}
    (h0 : Keeps a x0) :
    Keeps a (State.serveTo x0 x1 x2) := by
  unfold State.serveTo
  try dsimp only
  repeat' first
    | with_reducible assumption
    | with_reducible apply serveMany_keeps
    | with_reducible apply foldl_keeps
    | (intro y s hs; try dsimp only)
    | (intro s hs; try dsimp only)
    | split
    | (simp only [keeps_mk]; with_reducible refine keeps_fields ?_)

theorem doAsrcLock_keeps {a : State} {x0 : Nat} {x1 : State}
    (h1 : Keeps a x1) :
    Keeps a (doAsrcLock x0 x1) := by
  unfold doAsrcLock
  try dsimp only
  repeat' first
    | with_reducible assumption
    | with_reducible apply asrcTo_keeps
    | with_reducible apply foldl_keeps
    | (intro y s hs; try dsimp only)
    | (intro s hs; try dsimp only)
    | split
    | (simp only [keeps_mk]; with_reducible refine keeps_fields ?_)

theorem doAsrcTimeout_keeps {a : State} {x0 : Nat} {x1 : State}
    (h1 : Keeps a x1) :
    Keeps a (doAsrcTimeout x0 x1) := by
  unfold doAsrcTimeout
  try dsimp only
  repeat' first
    | with_reducible assumption
    | with_reducible apply asrcTo_keeps
    | with_reducible apply foldl_keeps
    | (intro y s hs; try dsimp only)
    | (intro s hs; try dsimp only)
    | split
    | (simp only [keeps_mk]; with_reducible refine keeps_fields ?_)

theorem doDomainLock_keeps {a : State} {x0 : Nat} {x1 : Nat} {x2 : State}
    (h2 : Keeps a x2) :
    Keeps a (doDomainLock x0 x1 x2) := by
  unfold doDomainLock
  try dsimp only
  repeat' first
    | with_reducible assumption
    | with_reducible apply sendLeat_keeps
    | with_reducible apply domainEvent_keeps
    | with_reducible apply setDomain_keeps
    | with_reducible apply foldl_keeps
    | (intro y s hs; try dsimp only)
    | (intro s hs; try dsimp only)
    | split
    | (simp only [keeps_mk]; with_reducible refine keeps_fields ?_)

theorem doDomainTimeout_keeps {a : State} {x0 : Nat} {x1 : State}
    (h1 : Keeps a x1) :
    Keeps a (doDomainTimeout x0 x1) := by
  unfold doDomainTimeout
  try dsimp only
  repeat' first
    | with_reducible assumption
    | with_reducible apply setDomain_keeps
    | with_reducible apply sendLeat_keeps
    | with_reducible apply domainEvent_keeps
    | with_reducible apply foldl_keeps
    | (intro y s hs; try dsimp only)
    | (intro s hs; try dsimp only)
    | split
    | (simp only [keeps_mk]; with_reducible refine keeps_fields ?_)

theorem doHoldExpire_keeps {a : State} {x0 : Nat} {x1 : State}
    (h1 : Keeps a x1) :
    Keeps a (doHoldExpire x0 x1) := by
  unfold doHoldExpire
  try dsimp only
  repeat' first
    | with_reducible assumption
    | with_reducible apply setDst_keeps
    | with_reducible apply foldl_keeps
    | (intro y s hs; try dsimp only)
    | (intro s hs; try dsimp only)
    | split
    | (simp only [keeps_mk]; with_reducible refine keeps_fields ?_)

theorem doNonaudioRevert_keeps {a : State} {x0 : Nat} {x1 : State}
    (h1 : Keeps a x1) :
    Keeps a (doNonaudioRevert x0 x1) := by
  unfold doNonaudioRevert
  try dsimp only
  repeat' first
    | with_reducible assumption
    | with_reducible apply sendLeat_keeps
    | with_reducible apply foldl_keeps
    | (intro y s hs; try dsimp only)
    | (intro s hs; try dsimp only)
    | split
    | (simp only [keeps_mk]; with_reducible refine keeps_fields ?_)

theorem applyDelay_keeps {a : State} {x0 : State} {x1 : Nat} {x2 : Sys2Proof.AudioEmbedP} {x3 : Nat} {x4 : Sys2Proof.Tick}
    (h0 : Keeps a x0) :
    Keeps a (State.applyDelay x0 x1 x2 x3 x4) := by
  unfold State.applyDelay
  try dsimp only
  repeat' first
    | with_reducible assumption
    | with_reducible apply setEmbed_keeps
    | with_reducible apply fire_keeps
    | with_reducible apply foldl_keeps
    | (intro y s hs; try dsimp only)
    | (intro s hs; try dsimp only)
    | split
    | (simp only [keeps_mk]; with_reducible refine keeps_fields ?_)

theorem applyMasks_keeps {a : State} {x0 : State} {x1 : Nat}
    (h0 : Keeps a x0) :
    Keeps a (State.applyMasks x0 x1) := by
  unfold State.applyMasks
  try dsimp only
  repeat' first
    | with_reducible assumption
    | with_reducible apply each_keeps
    | with_reducible apply complete_keeps
    | with_reducible apply setPort_keeps
    | with_reducible apply foldl_keeps
    | (intro y s hs; try dsimp only)
    | (intro s hs; try dsimp only)
    | split
    | (simp only [keeps_mk]; with_reducible refine keeps_fields ?_)

theorem dropDsts_keeps {a : State} {x0 : State} {x1 : Nat → Bool}
    (h0 : Keeps a x0) :
    Keeps a (State.dropDsts x0 x1) := by
  unfold State.dropDsts
  try dsimp only
  repeat' first
    | with_reducible assumption
    | with_reducible apply each_keeps
    | with_reducible apply settleAudio_keeps
    | with_reducible apply foldl_keeps
    | (intro y s hs; try dsimp only)
    | (intro s hs; try dsimp only)
    | split
    | (simp only [keeps_mk]; with_reducible refine keeps_fields ?_)

theorem holdEmbed_sysKept {a : State} {x0 : State} {x1 : Nat} {x2 : List Sys2Proof.AudioEmbedP}
    (h0 : SysKept a x0) :
    SysKept a (State.holdEmbed x0 x1 x2) := by
  unfold State.holdEmbed
  try dsimp only
  repeat' first
    | with_reducible assumption
    | with_reducible apply count_sysKept
    | with_reducible apply foldl_sys
    | (intro y s hs; try dsimp only)
    | (intro s hs; try dsimp only)
    | split
    | (simp only [sys_mk]; with_reducible refine sys_fields ?_)

theorem holdEmbed_keeps {a : State} {x0 : State} {x1 : Nat} {x2 : List Sys2Proof.AudioEmbedP}
    (h0 : Keeps a x0) :
    Keeps a (State.holdEmbed x0 x1 x2) := by
  unfold State.holdEmbed
  try dsimp only
  repeat' first
    | with_reducible assumption
    | with_reducible apply count_keeps
    | with_reducible apply foldl_keeps
    | (intro y s hs; try dsimp only)
    | (intro s hs; try dsimp only)
    | split
    | (simp only [keeps_mk]; with_reducible refine keeps_fields ?_)

theorem planAudioEmbed_keeps {a : State} {x0 : Sys2Proof.AudioEmbedP} {x1 : State}
    (h1 : Keeps a x1) :
    Keeps a (planAudioEmbed x0 x1) := by
  unfold planAudioEmbed
  try dsimp only
  repeat' first
    | with_reducible assumption
    | with_reducible apply holdEmbed_keeps
    | with_reducible apply foldl_keeps
    | (intro y s hs; try dsimp only)
    | (intro s hs; try dsimp only)
    | split
    | (simp only [keeps_mk]; with_reducible refine keeps_fields ?_)

theorem releaseAudioEmbed_keeps {a s : State} {j : Job} {n : Nat} (h : Keeps a s) : Keeps a (releaseAudioEmbed j n s) := by
  unfold releaseAudioEmbed
  dsimp only
  have h1 : Keeps a { s with jobs := s.jobs.filter fun x => x.id != j.id } := by
    simp only [keeps_mk]
    exact keeps_fields_jobs jobs_filter h
  have h2 := holdEmbed_keeps (x1 := n) (x2 := []) h1
  have h3 := (holdEmbed_sysKept (x1 := n) (x2 := []) (SysKept.refl { s with jobs := s.jobs.filter fun x => x.id != j.id })).2
  refine ⟨fun y => ⟨(h2.1 y).1, ?_, (h2.1 y).2.2⟩, h2.2⟩
  show JobsInOrder s.jobs _
  rw [h3]
  exact (h.1 y).2.1

theorem commitRoutes_keeps {a : State} {x0 : State} {x1 : Nat} {x2 : List Sys2Proof.AudioEntry}
    (h0 : Keeps a x0) :
    Keeps a (State.commitRoutes x0 x1 x2) := by
  unfold State.commitRoutes
  try dsimp only
  repeat' first
    | with_reducible assumption
    | with_reducible apply setDst_keeps
    | with_reducible apply foldl_keeps
    | (intro y s hs; try dsimp only)
    | (intro s hs; try dsimp only)
    | split
    | (simp only [keeps_mk]; with_reducible refine keeps_fields ?_)

theorem startAudioRoute_keeps {a : State} {x0 : Sys2Proof.AudioRouteP} {x1 : State}
    (h1 : Keeps a x1) :
    AnsKeeps a (startAudioRoute x0 x1) := by
  unfold startAudioRoute
  try dsimp only
  repeat' first
    | with_reducible assumption
    | with_reducible apply commitRoutes_keeps
    | with_reducible apply orAns_keeps
    | exact ans_fail
    | with_reducible apply ans_done
    | with_reducible apply ans_result
    | with_reducible apply ans_later
    | with_reducible apply ans_silent
    | with_reducible apply foldl_keeps
    | (intro y s hs; try dsimp only)
    | (intro s hs; try dsimp only)
    | split
    | (simp only [keeps_mk]; with_reducible refine keeps_fields ?_)

theorem startAudioEmbed_keeps {a : State} {x0 : Sys2Proof.Hdr} {x1 : Sys2Proof.AudioEmbedP} {x2 : State}
    (h2 : Keeps a x2) :
    AnsKeeps a (startAudioEmbed x0 x1 x2) := by
  unfold startAudioEmbed
  try dsimp only
  repeat' first
    | with_reducible assumption
    | with_reducible apply planAudioEmbed_keeps
    | with_reducible apply orAns_keeps
    | exact ans_fail
    | with_reducible apply ans_done
    | with_reducible apply ans_result
    | with_reducible apply ans_later
    | with_reducible apply ans_silent
    | with_reducible apply foldl_keeps
    | (intro y s hs; try dsimp only)
    | (intro s hs; try dsimp only)
    | split
    | (simp only [keeps_mk]; with_reducible refine keeps_fields ?_)

theorem startAsrcBind_keeps {a : State} {x0 : Sys2Proof.AsrcBindP} {x1 : State}
    (h1 : Keeps a x1) :
    AnsKeeps a (startAsrcBind x0 x1) := by
  unfold startAsrcBind
  try dsimp only
  repeat' first
    | with_reducible assumption
    | with_reducible apply setAsrc_keeps
    | with_reducible apply orAns_keeps
    | exact ans_fail
    | with_reducible apply ans_done
    | with_reducible apply ans_result
    | with_reducible apply ans_later
    | with_reducible apply ans_silent
    | with_reducible apply foldl_keeps
    | (intro y s hs; try dsimp only)
    | (intro s hs; try dsimp only)
    | split
    | (simp only [keeps_mk]; with_reducible refine keeps_fields ?_)

theorem restartSlots_keeps {a : State} {x0 : State} {x1 : Nat}
    (h0 : Keeps a x0) :
    Keeps a (State.restartSlots x0 x1) := by
  unfold State.restartSlots
  try dsimp only
  repeat' first
    | with_reducible assumption
    | with_reducible apply foldl_keeps
    | (intro y s hs; try dsimp only)
    | (intro s hs; try dsimp only)
    | split
    | (simp only [keeps_mk]; with_reducible refine keeps_fields ?_)

theorem endStop_keeps {a : State} {x0 : State} {x1 : Nat}
    (h0 : Keeps a x0) :
    Keeps a (State.endStop x0 x1) := by
  unfold State.endStop
  try dsimp only
  repeat' first
    | with_reducible assumption
    | with_reducible apply restartSlots_keeps
    | with_reducible apply setPort_keeps
    | with_reducible apply dropDsts_keeps
    | with_reducible apply each_keeps
    | with_reducible apply completeId_keeps
    | with_reducible apply completeAll_keeps
    | with_reducible apply foldl_keeps
    | (intro y s hs; try dsimp only)
    | (intro s hs; try dsimp only)
    | split
    | (simp only [keeps_mk]; with_reducible refine keeps_fields ?_)

theorem startAportSet_keeps {a : State} {x0 : Sys2Proof.AportSetP} {x1 : State}
    (h1 : Keeps a x1) :
    AnsKeeps a (startAportSet x0 x1) := by
  unfold startAportSet
  try dsimp only
  repeat' first
    | with_reducible assumption
    | with_reducible apply setPort_keeps
    | with_reducible apply endStop_keeps
    | with_reducible apply orAns_keeps
    | exact ans_fail
    | with_reducible apply ans_done
    | with_reducible apply ans_result
    | with_reducible apply ans_later
    | with_reducible apply ans_silent
    | with_reducible apply foldl_keeps
    | (intro y s hs; try dsimp only)
    | (intro s hs; try dsimp only)
    | split
    | (simp only [keeps_mk]; with_reducible refine keeps_fields ?_)

theorem waitMask_keeps {a : State} {x0 : State} {x1 : Nat} {x2 : Sys2Proof.AportMaskP}
    (h0 : Keeps a x0) :
    Keeps a (State.waitMask x0 x1 x2) := by
  unfold State.waitMask
  try dsimp only
  repeat' first
    | with_reducible assumption
    | with_reducible apply setPort_keeps
    | with_reducible apply foldl_keeps
    | (intro y s hs; try dsimp only)
    | (intro s hs; try dsimp only)
    | split
    | (simp only [keeps_mk]; with_reducible refine keeps_fields ?_)

theorem startAportMask_keeps {a : State} {x0 : Sys2Proof.AportMaskP} {x1 : State}
    (h1 : Keeps a x1) :
    AnsKeeps a (startAportMask x0 x1) := by
  unfold startAportMask
  try dsimp only
  repeat' first
    | with_reducible assumption
    | with_reducible apply waitMask_keeps
    | with_reducible apply orAns_keeps
    | exact ans_fail
    | with_reducible apply ans_done
    | with_reducible apply ans_result
    | with_reducible apply ans_later
    | with_reducible apply ans_silent
    | with_reducible apply foldl_keeps
    | (intro y s hs; try dsimp only)
    | (intro s hs; try dsimp only)
    | split
    | (simp only [keeps_mk]; with_reducible refine keeps_fields ?_)

theorem setRings_keeps {a : State} {x0 : State} {x1 : List RingBind}
    (h0 : Keeps a x0) :
    Keeps a (State.setRings x0 x1) := by
  unfold State.setRings
  try dsimp only
  repeat' first
    | with_reducible assumption
    | with_reducible apply foldl_keeps
    | (intro y s hs; try dsimp only)
    | (intro s hs; try dsimp only)
    | split
    | (simp only [keeps_mk]; with_reducible refine keeps_fields ?_)

theorem startAudioRingBind_keeps {a : State} {x0 : Sys2Proof.AudioRingBindP} {x1 : State}
    (h1 : Keeps a x1) :
    AnsKeeps a (startAudioRingBind x0 x1) := by
  unfold startAudioRingBind
  try dsimp only
  repeat' first
    | with_reducible assumption
    | with_reducible apply setRings_keeps
    | with_reducible apply dropDsts_keeps
    | with_reducible apply count_keeps
    | with_reducible apply pondWrite_keeps
    | with_reducible apply orAns_keeps
    | exact ans_fail
    | with_reducible apply ans_done
    | with_reducible apply ans_result
    | with_reducible apply ans_later
    | with_reducible apply ans_silent
    | with_reducible apply foldl_keeps
    | (intro y s hs; try dsimp only)
    | (intro s hs; try dsimp only)
    | split
    | (simp only [keeps_mk]; with_reducible refine keeps_fields ?_)

theorem startAudioQuery_keeps {a : State} {x0 : Sys2Proof.AudioQueryP} {x1 : State}
    (h1 : Keeps a x1) :
    AnsKeeps a (startAudioQuery x0 x1) := by
  unfold startAudioQuery
  try dsimp only
  repeat' first
    | with_reducible assumption
    | with_reducible apply orAns_keeps
    | exact ans_fail
    | with_reducible apply ans_done
    | with_reducible apply ans_result
    | with_reducible apply ans_later
    | with_reducible apply ans_silent
    | with_reducible apply foldl_keeps
    | (intro y s hs; try dsimp only)
    | (intro s hs; try dsimp only)
    | split
    | (simp only [keeps_mk]; with_reducible refine keeps_fields ?_)

theorem applyAudioRoute_keeps {a : State} {x0 : Job} {x1 : Sys2Proof.AudioRouteP} {x2 : State}
    (h2 : Keeps a x2) :
    Keeps a (applyAudioRoute x0 x1 x2) := by
  unfold applyAudioRoute
  try dsimp only
  repeat' first
    | with_reducible assumption
    | with_reducible apply commitRoutes_keeps
    | with_reducible apply setJob_keeps
    | with_reducible apply foldl_keeps
    | (intro y s hs; try dsimp only)
    | (intro s hs; try dsimp only)
    | split
    | (simp only [keeps_mk]; with_reducible refine keeps_fields ?_)

theorem applyAudioEmbed_keeps {a : State} {x0 : Job} {x1 : Sys2Proof.AudioEmbedP} {x2 : State}
    (h2 : Keeps a x2) :
    Keeps a (applyAudioEmbed x0 x1 x2) := by
  unfold applyAudioEmbed
  try dsimp only
  repeat' first
    | with_reducible assumption
    | with_reducible apply setEmbed_keeps
    | with_reducible apply pondWrite_keeps
    | with_reducible apply dropDsts_keeps
    | with_reducible apply holdEmbed_keeps
    | with_reducible apply complete_keeps
    | with_reducible apply foldl_keeps
    | (intro y s hs; try dsimp only)
    | (intro s hs; try dsimp only)
    | split
    | (simp only [keeps_mk]; with_reducible refine keeps_fields ?_)

theorem applyAportMask_keeps {a : State} {x0 : Job} {x1 : Sys2Proof.AportMaskP} {x2 : State}
    (h2 : Keeps a x2) :
    Keeps a (applyAportMask x0 x1 x2) := by
  unfold applyAportMask
  try dsimp only
  repeat' first
    | with_reducible assumption
    | with_reducible apply waitMask_keeps
    | with_reducible apply setJob_keeps
    | with_reducible apply foldl_keeps
    | (intro y s hs; try dsimp only)
    | (intro s hs; try dsimp only)
    | split
    | (simp only [keeps_mk]; with_reducible refine keeps_fields ?_)

theorem lipSync_keeps {a : State} {x0 : State} {x1 : Nat} {x2 : Nat} {x3 : Bool} {x4 : Bool}
    (h0 : Keeps a x0) :
    Keeps a (State.lipSync x0 x1 x2 x3 x4) := by
  unfold State.lipSync
  try dsimp only
  repeat' first
    | with_reducible assumption
    | with_reducible apply applyDelay_keeps
    | with_reducible apply sendLeat_keeps
    | with_reducible apply foldl_keeps
    | (intro y s hs; try dsimp only)
    | (intro s hs; try dsimp only)
    | split
    | (simp only [keeps_mk]; with_reducible refine keeps_fields ?_)

theorem beginTdm_keeps {a : State} {x0 : State} {x1 : Nat}
    (h0 : Keeps a x0) :
    Keeps a (State.beginTdm x0 x1) := by
  unfold State.beginTdm
  try dsimp only
  repeat' first
    | with_reducible assumption
    | with_reducible apply restartSlots_keeps
    | with_reducible apply setPort_keeps
    | with_reducible apply completeAll_keeps
    | with_reducible apply foldl_keeps
    | (intro y s hs; try dsimp only)
    | (intro s hs; try dsimp only)
    | split
    | (simp only [keeps_mk]; with_reducible refine keeps_fields ?_)

theorem unframe_keeps {a : State} {x0 : State} {x1 : Nat}
    (h0 : Keeps a x0) :
    Keeps a (State.unframe x0 x1) := by
  unfold State.unframe
  try dsimp only
  repeat' first
    | with_reducible assumption
    | with_reducible apply restartSlots_keeps
    | with_reducible apply setPort_keeps
    | with_reducible apply fire_keeps
    | with_reducible apply foldl_keeps
    | (intro y s hs; try dsimp only)
    | (intro s hs; try dsimp only)
    | split
    | (simp only [keeps_mk]; with_reducible refine keeps_fields ?_)

theorem frameTarget_keeps {a : State} {x0 : State} {x1 : Nat} {x2 : Sys2Proof.AportSetP} {x3 : Nat}
    (h0 : Keeps a x0) :
    Keeps a (State.frameTarget x0 x1 x2 x3) := by
  unfold State.frameTarget
  try dsimp only
  repeat' first
    | with_reducible assumption
    | with_reducible apply setPort_keeps
    | with_reducible apply fire_keeps
    | with_reducible apply count_keeps
    | with_reducible apply unframe_keeps
    | with_reducible apply restartSlots_keeps
    | with_reducible apply foldl_keeps
    | (intro y s hs; try dsimp only)
    | (intro s hs; try dsimp only)
    | split
    | (simp only [keeps_mk]; with_reducible refine keeps_fields ?_)

theorem noteSent_keeps {a : State} {x0 : State} {x1 : Nat} {x2 : List Nat}
    (h0 : Keeps a x0) :
    Keeps a (State.noteSent x0 x1 x2) := by
  unfold State.noteSent
  try dsimp only
  repeat' first
    | with_reducible assumption
    | with_reducible apply setTxStream_keeps
    | with_reducible apply foldl_keeps
    | (intro y s hs; try dsimp only)
    | (intro s hs; try dsimp only)
    | split
    | (simp only [keeps_mk]; with_reducible refine keeps_fields ?_)

theorem wakeAudio_keeps {a : State} {x0 : State}
    (h0 : Keeps a x0) :
    Keeps a (State.wakeAudio x0) := by
  unfold State.wakeAudio
  try dsimp only
  repeat' first
    | with_reducible assumption
    | with_reducible apply each_keeps
    | with_reducible apply endStop_keeps
    | with_reducible apply foldl_keeps
    | (intro y s hs; try dsimp only)
    | (intro s hs; try dsimp only)
    | split
    | (simp only [keeps_mk]; with_reducible refine keeps_fields ?_)

theorem receiveFrame_keeps {a : State} {x0 : State} {x1 : Nat} {x2 : Sys2Proof.AportSetP} {x3 : Sys2Proof.Tick} {x4 : List Nat}
    (h0 : Keeps a x0) :
    Keeps a (State.receiveFrame x0 x1 x2 x3 x4) := by
  unfold State.receiveFrame
  try dsimp only
  repeat' first
    | with_reducible assumption
    | with_reducible apply storePair_keeps
    | with_reducible apply storeChannel_keeps
    | with_reducible apply blockArrived_keeps
    | with_reducible apply each_keeps
    | with_reducible apply asrcTrack_keeps
    | with_reducible apply foldl_keeps
    | (intro y s hs; try dsimp only)
    | (intro s hs; try dsimp only)
    | split
    | (simp only [keeps_mk]; with_reducible refine keeps_fields ?_)

theorem sendFrame_keeps {a : State} {x0 : State} {x1 : Nat} {x2 : Sys2Proof.AportSetP}
    (h0 : Keeps a x0) :
    Keeps a (State.sendFrame x0 x1 x2) := by
  unfold State.sendFrame
  try dsimp only
  repeat' first
    | with_reducible assumption
    | with_reducible apply serveTo_keeps
    | with_reducible apply emit_keeps
    | with_reducible apply setPort_keeps
    | with_reducible apply foldl_keeps
    | (intro y s hs; try dsimp only)
    | (intro s hs; try dsimp only)
    | split
    | (simp only [keeps_mk]; with_reducible refine keeps_fields ?_)

theorem doBlockService_keeps {a : State} {x0 : Nat} {x1 : State}
    (h1 : Keeps a x1) :
    Keeps a (doBlockService x0 x1) := by
  unfold doBlockService
  try dsimp only
  repeat' first
    | with_reducible assumption
    | with_reducible apply serveTo_keeps
    | with_reducible apply sendLeat_keeps
    | with_reducible apply foldl_keeps
    | (intro y s hs; try dsimp only)
    | (intro s hs; try dsimp only)
    | split
    | (simp only [keeps_mk]; with_reducible refine keeps_fields ?_)

theorem doEmbedSend_keeps {a : State} {x0 : Nat} {x1 : State}
    (h1 : Keeps a x1) :
    Keeps a (doEmbedSend x0 x1) := by
  unfold doEmbedSend
  try dsimp only
  repeat' first
    | with_reducible assumption
    | with_reducible apply serveTo_keeps
    | with_reducible apply freeNat_keeps
    | with_reducible apply noteSent_keeps
    | with_reducible apply setEmbed_keeps
    | with_reducible apply queuePackets_keeps
    | with_reducible apply emit_keeps
    | refine keeps_pair (by assumption) ?_
    | with_reducible apply foldl_keeps
    | (intro y s hs; try dsimp only)
    | (intro s hs; try dsimp only)
    | split
    | (simp only [keeps_mk]; with_reducible refine keeps_fields ?_)

theorem doTdmEdge_keeps {a : State} {x0 : Nat} {x1 : Sys2Proof.TdmFrame} {x2 : State}
    (h2 : Keeps a x2) :
    Keeps a (doTdmEdge x0 x1 x2) := by
  unfold doTdmEdge
  try dsimp only
  repeat' first
    | with_reducible assumption
    | with_reducible apply receiveFrame_keeps
    | with_reducible apply endStop_keeps
    | with_reducible apply frameTarget_keeps
    | with_reducible apply beginTdm_keeps
    | with_reducible apply setPort_keeps
    | with_reducible apply applyMasks_keeps
    | with_reducible apply sendFrame_keeps
    | with_reducible apply foldl_keeps
    | (intro y s hs; try dsimp only)
    | (intro s hs; try dsimp only)
    | split
    | (simp only [keeps_mk]; with_reducible refine keeps_fields ?_)

theorem doTdmTimeout_keeps {a : State} {x0 : Nat} {x1 : State}
    (h1 : Keeps a x1) :
    Keeps a (doTdmTimeout x0 x1) := by
  unfold doTdmTimeout
  try dsimp only
  repeat' first
    | with_reducible assumption
    | with_reducible apply unframe_keeps
    | with_reducible apply endStop_keeps
    | with_reducible apply foldl_keeps
    | (intro y s hs; try dsimp only)
    | (intro s hs; try dsimp only)
    | split
    | (simp only [keeps_mk]; with_reducible refine keeps_fields ?_)

theorem writeVectors_keeps {a : State} {x0 : State} {x1 : Nat} {x2 : Task} {x3 : Bool} {x4 : Pic} {x5 : Pic}
    (h0 : Keeps a x0) :
    Keeps a (State.writeVectors x0 x1 x2 x3 x4 x5) := by
  unfold State.writeVectors
  try dsimp only
  repeat' first
    | with_reducible assumption
    | with_reducible apply pondWrite_keeps
    | with_reducible apply foldl_keeps
    | (intro y s hs; try dsimp only)
    | (intro s hs; try dsimp only)
    | split
    | (simp only [keeps_mk]; with_reducible refine keeps_fields ?_)

theorem doMotionDone_keeps {a : State} {x0 : Nat} {x1 : State}
    (h1 : Keeps a x1) :
    Keeps a (doMotionDone x0 x1) := by
  unfold doMotionDone
  try dsimp only
  repeat' first
    | with_reducible assumption
    | with_reducible apply setTask_keeps
    | with_reducible apply writeVectors_keeps
    | with_reducible apply foldl_keeps
    | (intro y s hs; try dsimp only)
    | (intro s hs; try dsimp only)
    | split
    | (simp only [keeps_mk]; with_reducible refine keeps_fields ?_)

theorem setSent_keeps {a : State} {x0 : State} {x1 : Nat} {x2 : Nat}
    (h0 : Keeps a x0) :
    Keeps a (State.setSent x0 x1 x2) := by
  unfold State.setSent
  try dsimp only
  repeat' first
    | with_reducible assumption
    | with_reducible apply setTask_keeps
    | with_reducible apply setPlay_keeps
    | with_reducible apply foldl_keeps
    | (intro y s hs; try dsimp only)
    | (intro s hs; try dsimp only)
    | split
    | (simp only [keeps_mk]; with_reducible refine keeps_fields ?_)

theorem writeCapture_keeps {a : State} {x0 : State} {x1 : Nat} {x2 : Segment} {x3 : Bool}
    (h0 : Keeps a x0) :
    Keeps a (State.writeCapture x0 x1 x2 x3) := by
  unfold State.writeCapture
  try dsimp only
  repeat' first
    | with_reducible assumption
    | with_reducible apply storePixels_keeps
    | with_reducible apply pondWrite_keeps
    | with_reducible apply traffic_keeps
    | with_reducible apply padLine_keeps
    | with_reducible apply foldl_keeps
    | (intro y s hs; try dsimp only)
    | (intro s hs; try dsimp only)
    | split
    | (simp only [keeps_mk]; with_reducible refine keeps_fields ?_)

theorem writeHistory_keeps {a : State} {x0 : State} {x1 : Nat} {x2 : Segment} {x3 : Bool}
    (h0 : Keeps a x0) :
    Keeps a (State.writeHistory x0 x1 x2 x3) := by
  unfold State.writeHistory
  try dsimp only
  repeat' first
    | with_reducible assumption
    | with_reducible apply storePixels_keeps
    | with_reducible apply traffic_keeps
    | with_reducible apply padLine_keeps
    | with_reducible apply foldl_keeps
    | (intro y s hs; try dsimp only)
    | (intro s hs; try dsimp only)
    | split
    | (simp only [keeps_mk]; with_reducible refine keeps_fields ?_)

theorem writeSegment_keeps {a : State} {x0 : State} {x1 : Nat} {x2 : Segment} {x3 : Bool}
    (h0 : Keeps a x0) :
    Keeps a (State.writeSegment x0 x1 x2 x3) := by
  unfold State.writeSegment
  try dsimp only
  repeat' first
    | with_reducible assumption
    | with_reducible apply each_keeps
    | with_reducible apply storePixels_keeps
    | with_reducible apply traffic_keeps
    | with_reducible apply padLine_keeps
    | with_reducible apply writeCapture_keeps
    | with_reducible apply writeHistory_keeps
    | with_reducible apply foldl_keeps
    | (intro y s hs; try dsimp only)
    | (intro s hs; try dsimp only)
    | split
    | (simp only [keeps_mk]; with_reducible refine keeps_fields ?_)

theorem loseSamples_keeps {a : State} {x0 : State} {x1 : Nat} {x2 : Route} {x3 : Int} {x4 : Segment} {x5 : List Int}
    (h0 : Keeps a x0) :
    Keeps a (State.loseSamples x0 x1 x2 x3 x4 x5) := by
  unfold State.loseSamples
  try dsimp only
  repeat' first
    | with_reducible assumption
    | with_reducible apply setRoute_keeps
    | with_reducible apply count_keeps
    | with_reducible apply foldl_keeps
    | (intro y s hs; try dsimp only)
    | (intro s hs; try dsimp only)
    | split
    | (simp only [keeps_mk]; with_reducible refine keeps_fields ?_)

theorem elasticLocal_keeps {a : State} {x0 : State} {x1 : Nat} {x2 : Segment} {x3 : Nat}
    (h0 : Keeps a x0) :
    Keeps a (State.elasticLocal x0 x1 x2 x3) := by
  unfold State.elasticLocal
  try dsimp only
  repeat' first
    | with_reducible assumption
    | with_reducible apply each_keeps
    | with_reducible apply loseSamples_keeps
    | with_reducible apply foldl_keeps
    | (intro y s hs; try dsimp only)
    | (intro s hs; try dsimp only)
    | split
    | (simp only [keeps_mk]; with_reducible refine keeps_fields ?_)

theorem endHistory_keeps {a : State} {x0 : State} {x1 : Nat} {x2 : Nat} {x3 : Nat} {x4 : Bool} {x5 : Int} {x6 : Sys2Proof.Tick}
    (h0 : Keeps a x0) :
    Keeps a (State.endHistory x0 x1 x2 x3 x4 x5 x6) := by
  unfold State.endHistory
  try dsimp only
  repeat' first
    | with_reducible assumption
    | with_reducible apply closeSlot_keeps
    | with_reducible apply setTask_keeps
    | with_reducible apply foldl_keeps
    | (intro y s hs; try dsimp only)
    | (intro s hs; try dsimp only)
    | split
    | (simp only [keeps_mk]; with_reducible refine keeps_fields ?_)

theorem endField_keeps {a : State} {x0 : State} {x1 : Nat} {x2 : Nat} {x3 : Nat} {x4 : Bool} {x5 : Int} {x6 : Sys2Proof.Tick}
    (h0 : Keeps a x0) :
    Keeps a (State.endField x0 x1 x2 x3 x4 x5 x6) := by
  unfold State.endField
  try dsimp only
  repeat' first
    | with_reducible assumption
    | with_reducible apply each_keeps
    | with_reducible apply endHistory_keeps
    | with_reducible apply foldl_keeps
    | (intro y s hs; try dsimp only)
    | (intro s hs; try dsimp only)
    | split
    | (simp only [keeps_mk]; with_reducible refine keeps_fields ?_)

theorem taintSlot_keeps {a : State} {x0 : State} {x1 : Nat} {x2 : Nat} {x3 : Nat}
    (h0 : Keeps a x0) :
    Keeps a (State.taintSlot x0 x1 x2 x3) := by
  unfold State.taintSlot
  try dsimp only
  repeat' first
    | with_reducible assumption
    | with_reducible apply taint_keeps
    | with_reducible apply foldl_keeps
    | (intro y s hs; try dsimp only)
    | (intro s hs; try dsimp only)
    | split
    | (simp only [keeps_mk]; with_reducible refine keeps_fields ?_)

theorem endCapture_keeps {a : State} {x0 : State} {x1 : Nat} {x2 : Nat} {x3 : Bool} {x4 : Sys2Proof.Tick}
    (h0 : Keeps a x0) :
    Keeps a (State.endCapture x0 x1 x2 x3 x4) := by
  unfold State.endCapture
  try dsimp only
  repeat' first
    | with_reducible assumption
    | with_reducible apply setCap_keeps
    | with_reducible apply taintSlot_keeps
    | with_reducible apply traffic_keeps
    | with_reducible apply closeSlot_keeps
    | with_reducible apply completeId_keeps
    | with_reducible apply charge_keeps
    | with_reducible apply foldl_keeps
    | (intro y s hs; try dsimp only)
    | (intro s hs; try dsimp only)
    | split
    | (simp only [keeps_mk]; with_reducible refine keeps_fields ?_)

theorem endFrame_keeps {a : State} {x0 : State} {x1 : Nat} {x2 : Nat} {x3 : Bool} {x4 : Int} {x5 : Sys2Proof.Tick}
    (h0 : Keeps a x0) :
    Keeps a (State.endFrame x0 x1 x2 x3 x4 x5) := by
  unfold State.endFrame
  try dsimp only
  repeat' first
    | with_reducible assumption
    | with_reducible apply each_keeps
    | with_reducible apply closeSlot_keeps
    | with_reducible apply eachResv_keeps
    | with_reducible apply endCapture_keeps
    | with_reducible apply endHistory_keeps
    | with_reducible apply foldl_keeps
    | (intro y s hs; try dsimp only)
    | (intro s hs; try dsimp only)
    | split
    | (simp only [keeps_mk]; with_reducible refine keeps_fields ?_)

theorem emitLine_keeps {a : State} {x0 : State} {x1 : Nat} {x2 : Nat} {x3 : Fmt} {x4 : Pic} {x5 : Int} {x6 : Nat} {x7 : Sys2Proof.Tick}
    (h0 : Keeps a x0) :
    Keeps a (State.emitLine x0 x1 x2 x3 x4 x5 x6 x7) := by
  unfold State.emitLine
  try dsimp only
  repeat' first
    | with_reducible assumption
    | with_reducible apply writeSegment_keeps
    | with_reducible apply elasticLocal_keeps
    | with_reducible apply endField_keeps
    | with_reducible apply endFrame_keeps
    | with_reducible apply foldl_keeps
    | (intro y s hs; try dsimp only)
    | (intro s hs; try dsimp only)
    | split
    | (simp only [keeps_mk]; with_reducible refine keeps_fields ?_)

theorem emitLines_keeps {a s : State} {src f : Nat} {x : Fmt} {p : Pic} {d : RasterDesc} {t u : Int} {n k : Nat} (h : Keeps a s) :
    Keeps a (State.emitLines src f x p d t u n k s) := by
  induction n generalizing s k with
  | zero => exact setSent_keeps h
  | succ n ih =>
    unfold State.emitLines
    split
    · exact ih (emitLine_keeps h)
    · exact setSent_keeps h

theorem advanceSource_keeps {a : State} {x0 : State} {x1 : Nat} {x2 : Int}
    (h0 : Keeps a x0) :
    Keeps a (State.advanceSource x0 x1 x2) := by
  unfold State.advanceSource
  try dsimp only
  repeat' first
    | with_reducible assumption
    | with_reducible apply emitLines_keeps
    | with_reducible apply foldl_keeps
    | (intro y s hs; try dsimp only)
    | (intro s hs; try dsimp only)
    | split
    | (simp only [keeps_mk]; with_reducible refine keeps_fields ?_)

theorem advanceSources_keeps {a : State} {x0 : State} {x1 : Int}
    (h0 : Keeps a x0) :
    Keeps a (State.advanceSources x0 x1) := by
  unfold State.advanceSources
  try dsimp only
  repeat' first
    | with_reducible assumption
    | with_reducible apply each_keeps
    | with_reducible apply advanceSource_keeps
    | with_reducible apply foldl_keeps
    | (intro y s hs; try dsimp only)
    | (intro s hs; try dsimp only)
    | split
    | (simp only [keeps_mk]; with_reducible refine keeps_fields ?_)

theorem deliverSymbols_keeps {a : State} {x0 : State} {x1 : Nat} {x2 : Nat} {x3 : Nat} {x4 : Nat}
    (h0 : Keeps a x0) :
    Keeps a (State.deliverSymbols x0 x1 x2 x3 x4) := by
  unfold State.deliverSymbols
  try dsimp only
  repeat' first
    | with_reducible assumption
    | with_reducible apply each_keeps
    | with_reducible apply count_keeps
    | with_reducible apply foldl_keeps
    | (intro y s hs; try dsimp only)
    | (intro s hs; try dsimp only)
    | split
    | (simp only [keeps_mk]; with_reducible refine keeps_fields ?_)

theorem putAnc_keeps {a s : State} {port x : Nat} {l : List Nat} (h : Keeps a s) : Keeps a (s.putAnc port x l) := by
  induction l generalizing s x with
  | nil => exact h
  | cons v l ih =>
    unfold State.putAnc
    split
    next ok s1 he =>
      have h1 : Keeps a s1 := keeps_pair he (addAnc_keeps h)
      apply ih
      split
      · exact h1
      · exact count_keeps h1

theorem writeAnc_keeps {a : State} {x0 : State} {x1 : Nat} {x2 : Nat} {x3 : List Nat}
    (h0 : Keeps a x0) :
    Keeps a (State.writeAnc x0 x1 x2 x3) := by
  unfold State.writeAnc
  try dsimp only
  repeat' first
    | with_reducible assumption
    | with_reducible apply each_keeps
    | with_reducible apply putAnc_keeps
    | with_reducible apply foldl_keeps
    | (intro y s hs; try dsimp only)
    | (intro s hs; try dsimp only)
    | split
    | (simp only [keeps_mk]; with_reducible refine keeps_fields ?_)

theorem ancPacket_keeps {a : State} {x0 : State} {x1 : Nat} {x2 : LanePacket} {x3 : Bool}
    (h0 : Keeps a x0) :
    Keeps a (State.ancPacket x0 x1 x2 x3) := by
  unfold State.ancPacket
  try dsimp only
  repeat' first
    | with_reducible assumption
    | with_reducible apply count_keeps
    | with_reducible apply deliverSymbols_keeps
    | with_reducible apply setRxStream_keeps
    | with_reducible apply writeAnc_keeps
    | with_reducible apply foldl_keeps
    | (intro y s hs; try dsimp only)
    | (intro s hs; try dsimp only)
    | split
    | (simp only [keeps_mk]; with_reducible refine keeps_fields ?_)

theorem audPacket_keeps {a : State} {x0 : State} {x1 : Nat} {x2 : LanePacket} {x3 : Sys2Proof.Tick}
    (h0 : Keeps a x0) :
    Keeps a (State.audPacket x0 x1 x2 x3) := by
  unfold State.audPacket
  try dsimp only
  repeat' first
    | with_reducible assumption
    | with_reducible apply count_keeps
    | with_reducible apply setRxStream_keeps
    | with_reducible apply each_keeps
    | with_reducible apply storePair_keeps
    | with_reducible apply blockArrived_keeps
    | with_reducible apply foldl_keeps
    | (intro y s hs; try dsimp only)
    | (intro s hs; try dsimp only)
    | split
    | (simp only [keeps_mk]; with_reducible refine keeps_fields ?_)

theorem shadowAt_keeps {a : State} {x0 : State} {x1 : Nat}
    (h0 : Keeps a x0) :
    Keeps a (State.shadowAt x0 x1) := by
  unfold State.shadowAt
  try dsimp only
  repeat' first
    | with_reducible assumption
    | with_reducible apply each_keeps
    | with_reducible apply setEngine_keeps
    | with_reducible apply foldl_keeps
    | (intro y s hs; try dsimp only)
    | (intro s hs; try dsimp only)
    | split
    | (simp only [keeps_mk]; with_reducible refine keeps_fields ?_)

theorem fitRoute_keeps {a : State} {x0 : State} {x1 : Nat} {x2 : Route}
    (h0 : Keeps a x0) :
    Keeps a (State.fitRoute x0 x1 x2) := by
  unfold State.fitRoute
  try dsimp only
  repeat' first
    | with_reducible assumption
    | with_reducible apply setRoute_keeps
    | with_reducible apply dropHistory_keeps
    | with_reducible apply foldl_keeps
    | (intro y s hs; try dsimp only)
    | (intro s hs; try dsimp only)
    | split
    | (simp only [keeps_mk]; with_reducible refine keeps_fields ?_)

theorem unfinished_keeps {a : State} {x0 : State} {x1 : CapBind}
    (h0 : Keeps a x0) :
    Keeps a (State.unfinished x0 x1) := by
  unfold State.unfinished
  try dsimp only
  repeat' first
    | with_reducible assumption
    | with_reducible apply setSlotState_keeps
    | with_reducible apply foldl_keeps
    | (intro y s hs; try dsimp only)
    | (intro s hs; try dsimp only)
    | split
    | (simp only [keeps_mk]; with_reducible refine keeps_fields ?_)

theorem setBuf_keeps {a : State} {x0 : State} {x1 : Nat} {x2 : Buf}
    (h0 : Keeps a x0) :
    Keeps a (State.setBuf x0 x1 x2) := by
  unfold State.setBuf
  try dsimp only
  repeat' first
    | with_reducible assumption
    | with_reducible apply foldl_keeps
    | (intro y s hs; try dsimp only)
    | (intro s hs; try dsimp only)
    | split
    | (simp only [keeps_mk]; with_reducible refine keeps_fields ?_)

theorem startCapture_keeps {a : State} {x0 : State} {x1 : Nat} {x2 : Nat} {x3 : Int} {x4 : Nat}
    (h0 : Keeps a x0) :
    Keeps a (State.startCapture x0 x1 x2 x3 x4) := by
  unfold State.startCapture
  try dsimp only
  repeat' first
    | with_reducible assumption
    | with_reducible apply unfinished_keeps
    | with_reducible apply setCap_keeps
    | with_reducible apply count_keeps
    | with_reducible apply traffic_keeps
    | with_reducible apply tearXfers_keeps
    | with_reducible apply openSlot_keeps
    | with_reducible apply setBuf_keeps
    | with_reducible apply foldl_keeps
    | (intro y s hs; try dsimp only)
    | (intro s hs; try dsimp only)
    | split
    | (simp only [keeps_mk]; with_reducible refine keeps_fields ?_)

theorem startHistory_keeps {a : State} {x0 : State} {x1 : Nat} {x2 : Nat} {x3 : Int} {x4 : Nat}
    (h0 : Keeps a x0) :
    Keeps a (State.startHistory x0 x1 x2 x3 x4) := by
  unfold State.startHistory
  try dsimp only
  repeat' first
    | with_reducible assumption
    | with_reducible apply setSlotState_keeps
    | with_reducible apply setTask_keeps
    | with_reducible apply tearXfers_keeps
    | with_reducible apply openSlot_keeps
    | with_reducible apply foldl_keeps
    | (intro y s hs; try dsimp only)
    | (intro s hs; try dsimp only)
    | split
    | (simp only [keeps_mk]; with_reducible refine keeps_fields ?_)

theorem startFrame_keeps {a : State} {x0 : State} {x1 : Nat} {x2 : Nat} {x3 : Int} {x4 : Nat} {x5 : Nat}
    (h0 : Keeps a x0) :
    Keeps a (State.startFrame x0 x1 x2 x3 x4 x5) := by
  unfold State.startFrame
  try dsimp only
  repeat' first
    | with_reducible assumption
    | with_reducible apply applySrcWaits_keeps
    | with_reducible apply each_keeps
    | with_reducible apply shadowAt_keeps
    | with_reducible apply fitRoute_keeps
    | with_reducible apply eachResv_keeps
    | with_reducible apply openSlot_keeps
    | with_reducible apply startCapture_keeps
    | with_reducible apply startHistory_keeps
    | with_reducible apply foldl_keeps
    | (intro y s hs; try dsimp only)
    | (intro s hs; try dsimp only)
    | split
    | (simp only [keeps_mk]; with_reducible refine keeps_fields ?_)

theorem startLocal_keeps {a : State} {x0 : State} {x1 : Nat} {x2 : Nat} {x3 : Int}
    (h0 : Keeps a x0) :
    Keeps a (State.startLocal x0 x1 x2 x3) := by
  unfold State.startLocal
  try dsimp only
  repeat' first
    | with_reducible assumption
    | with_reducible apply freeNat_keeps
    | with_reducible apply each_keeps
    | with_reducible apply count_keeps
    | with_reducible apply startFrame_keeps
    | with_reducible apply setSent_keeps
    | refine keeps_pair (by assumption) ?_
    | with_reducible apply foldl_keeps
    | (intro y s hs; try dsimp only)
    | (intro s hs; try dsimp only)
    | split
    | (simp only [keeps_mk]; with_reducible refine keeps_fields ?_)

theorem clearFormats_keeps {a : State} {x0 : State} {x1 : Nat}
    (h0 : Keeps a x0) :
    Keeps a (State.clearFormats x0 x1) := by
  unfold State.clearFormats
  try dsimp only
  repeat' first
    | with_reducible assumption
    | with_reducible apply each_keeps
    | with_reducible apply setRoute_keeps
    | with_reducible apply foldl_keeps
    | (intro y s hs; try dsimp only)
    | (intro s hs; try dsimp only)
    | split
    | (simp only [keeps_mk]; with_reducible refine keeps_fields ?_)

theorem countMissed_keeps {a : State} {x0 : State} {x1 : RxStream}
    (h0 : Keeps a x0) :
    Keeps a (State.countMissed x0 x1) := by
  unfold State.countMissed
  try dsimp only
  repeat' first
    | with_reducible assumption
    | with_reducible apply each_keeps
    | with_reducible apply count_keeps
    | with_reducible apply foldl_keeps
    | (intro y s hs; try dsimp only)
    | (intro s hs; try dsimp only)
    | split
    | (simp only [keeps_mk]; with_reducible refine keeps_fields ?_)

theorem countMissing_keeps {a : State} {x0 : State} {x1 : Nat} {x2 : optParam Nat 0}
    (h0 : Keeps a x0) :
    Keeps a (State.countMissing x0 x1 x2) := by
  unfold State.countMissing
  try dsimp only
  repeat' first
    | with_reducible assumption
    | with_reducible apply each_keeps
    | with_reducible apply count_keeps
    | with_reducible apply setRxStream_keeps
    | with_reducible apply foldl_keeps
    | (intro y s hs; try dsimp only)
    | (intro s hs; try dsimp only)
    | split
    | (simp only [keeps_mk]; with_reducible refine keeps_fields ?_)

theorem elastic_keeps {a : State} {x0 : State} {x1 : Nat} {x2 : Nat} {x3 : Nat} {x4 : Segment} {x5 : List Int}
    (h0 : Keeps a x0) :
    Keeps a (State.elastic x0 x1 x2 x3 x4 x5) := by
  unfold State.elastic
  try dsimp only
  repeat' first
    | with_reducible assumption
    | with_reducible apply each_keeps
    | with_reducible apply loseSamples_keeps
    | with_reducible apply foldl_keeps
    | (intro y s hs; try dsimp only)
    | (intro s hs; try dsimp only)
    | split
    | (simp only [keeps_mk]; with_reducible refine keeps_fields ?_)

theorem fenArrived_keeps {a : State} {x0 : State} {x1 : Nat} {x2 : LanePacket} {x3 : Sys2Proof.Tick}
    (h0 : Keeps a x0) :
    Keeps a (State.fenArrived x0 x1 x2 x3) := by
  unfold State.fenArrived
  try dsimp only
  repeat' first
    | with_reducible assumption
    | with_reducible apply count_keeps
    | with_reducible apply fenPacket_keeps
    | with_reducible apply setFence_keeps
    | with_reducible apply foldl_keeps
    | (intro y s hs; try dsimp only)
    | (intro s hs; try dsimp only)
    | split
    | (simp only [keeps_mk]; with_reducible refine keeps_fields ?_)

theorem frameMarker_keeps {a : State} {x0 : State} {x1 : Nat} {x2 : List Nat} {x3 : Sys2Proof.Tick}
    (h0 : Keeps a x0) :
    Keeps a (State.frameMarker x0 x1 x2 x3) := by
  unfold State.frameMarker
  try dsimp only
  repeat' first
    | with_reducible assumption
    | with_reducible apply countMissed_keeps
    | with_reducible apply countMissing_keeps
    | with_reducible apply rxEvent_keeps
    | with_reducible apply clearFormats_keeps
    | with_reducible apply startFrame_keeps
    | with_reducible apply setRxStream_keeps
    | with_reducible apply foldl_keeps
    | (intro y s hs; try dsimp only)
    | (intro s hs; try dsimp only)
    | split
    | (simp only [keeps_mk]; with_reducible refine keeps_fields ?_)

theorem skipTo_keeps {a : State} {x0 : State} {x1 : Nat} {x2 : Nat}
    (h0 : Keeps a x0) :
    Keeps a (State.skipTo x0 x1 x2) := by
  unfold State.skipTo
  try dsimp only
  repeat' first
    | with_reducible assumption
    | with_reducible apply countMissing_keeps
    | with_reducible apply setRxStream_keeps
    | with_reducible apply foldl_keeps
    | (intro y s hs; try dsimp only)
    | (intro s hs; try dsimp only)
    | split
    | (simp only [keeps_mk]; with_reducible refine keeps_fields ?_)

theorem vidPacket_keeps {a s : State} {n : Nat} {p : LanePacket} {t : Nat → Tick} {g : Bool} (h : Keeps a s) :
    Keeps a (s.vidPacket n p t g) := by
  unfold State.vidPacket
  split
  · exact h
  next x0_ _ =>
  split
  · exact count_keeps h
  next line u x0 px _ =>
  have h0 : Keeps a (if (x0_.formatOk && x0_.marked) = true then s.skipTo n (lapOf x0_ line ((t p.at_ : Int) - pathTicks)) else s) := by
    split
    · exact skipTo_keeps h
    · exact h
  dsimp only
  generalize (if (x0_.formatOk && x0_.marked) = true then s.skipTo n (lapOf x0_ line ((t p.at_ : Int) - pathTicks)) else s) = s0 at h0 ⊢
  repeat' first
    | with_reducible assumption
    | with_reducible apply count_keeps
    | with_reducible apply endFrame_keeps
    | with_reducible apply endField_keeps
    | with_reducible apply writeSegment_keeps
    | with_reducible apply deliverSymbols_keeps
    | with_reducible apply elastic_keeps
    | with_reducible apply setRxStream_keeps
    | split

theorem timPacket_keeps {a : State} {x0 : State} {x1 : Nat} {x2 : LanePacket} {x3 : Sys2Proof.Tick}
    (h0 : Keeps a x0) :
    Keeps a (State.timPacket x0 x1 x2 x3) := by
  unfold State.timPacket
  try dsimp only
  repeat' first
    | with_reducible assumption
    | with_reducible apply count_keeps
    | with_reducible apply frameMarker_keeps
    | with_reducible apply setRxStream_keeps
    | with_reducible apply foldl_keeps
    | (intro y s hs; try dsimp only)
    | (intro s hs; try dsimp only)
    | split
    | (simp only [keeps_mk]; with_reducible refine keeps_fields ?_)

theorem headPacket_keeps {a : State} {x0 : State} {x1 : Nat} {x2 : Nat → Sys2Proof.Tick} {x3 : Bool} {x4 : LanePacket}
    (h0 : Keeps a x0) :
    Keeps a (State.headPacket x0 x1 x2 x3 x4) := by
  unfold State.headPacket
  try dsimp only
  repeat' first
    | with_reducible assumption
    | with_reducible apply vidPacket_keeps
    | with_reducible apply timPacket_keeps
    | with_reducible apply ancPacket_keeps
    | with_reducible apply audPacket_keeps
    | with_reducible apply fenArrived_keeps
    | with_reducible apply count_keeps
    | with_reducible apply foldl_keeps
    | (intro y s hs; try dsimp only)
    | (intro s hs; try dsimp only)
    | split
    | (simp only [keeps_mk]; with_reducible refine keeps_fields ?_)

theorem doCrcResult_keeps {a : State} {x0 : Nat} {x1 : State}
    (h1 : Keeps a x1) :
    Keeps a (doCrcResult x0 x1) := by
  unfold doCrcResult
  try dsimp only
  repeat' first
    | with_reducible assumption
    | with_reducible apply setRx_keeps
    | with_reducible apply count_keeps
    | with_reducible apply headPacket_keeps
    | with_reducible apply rxEvent_keeps
    | with_reducible apply setRxStream_keeps
    | with_reducible apply foldl_keeps
    | (intro y s hs; try dsimp only)
    | (intro s hs; try dsimp only)
    | split
    | (simp only [keeps_mk]; with_reducible refine keeps_fields ?_)

theorem doInputStale_keeps {a : State} {x0 : Nat} {x1 : State}
    (h1 : Keeps a x1) :
    Keeps a (doInputStale x0 x1) := by
  unfold doInputStale
  try dsimp only
  repeat' first
    | with_reducible assumption
    | with_reducible apply rxEvent_keeps
    | with_reducible apply setRxStream_keeps
    | with_reducible apply foldl_keeps
    | (intro y s hs; try dsimp only)
    | (intro s hs; try dsimp only)
    | split
    | (simp only [keeps_mk]; with_reducible refine keeps_fields ?_)

theorem sendMarker_keeps {a : State} {x0 : State} {x1 : Nat}
    (h0 : Keeps a x0) :
    Keeps a (State.sendMarker x0 x1) := by
  unfold State.sendMarker
  try dsimp only
  repeat' first
    | with_reducible assumption
    | with_reducible apply freeNat_keeps
    | with_reducible apply setTxStream_keeps
    | with_reducible apply queuePackets_keeps
    | refine keeps_pair (by assumption) ?_
    | with_reducible apply foldl_keeps
    | (intro y s hs; try dsimp only)
    | (intro s hs; try dsimp only)
    | split
    | (simp only [keeps_mk]; with_reducible refine keeps_fields ?_)

theorem sendVid_keeps {a : State} {x0 : State} {x1 : Nat} {x2 : Nat} {x3 : Nat} {x4 : List (List Nat)}
    (h0 : Keeps a x0) :
    Keeps a (State.sendVid x0 x1 x2 x3 x4) := by
  unfold State.sendVid
  try dsimp only
  repeat' first
    | with_reducible assumption
    | with_reducible apply queuePackets_keeps
    | with_reducible apply setTxStream_keeps
    | with_reducible apply foldl_keeps
    | (intro y s hs; try dsimp only)
    | (intro s hs; try dsimp only)
    | split
    | (simp only [keeps_mk]; with_reducible refine keeps_fields ?_)

theorem sendLine_keeps {a : State} {x0 : State} {x1 : Nat} {x2 : Nat} {x3 : Sys2Proof.Tick}
    (h0 : Keeps a x0) :
    Keeps a (State.sendLine x0 x1 x2 x3) := by
  unfold State.sendLine
  try dsimp only
  repeat' first
    | with_reducible assumption
    | with_reducible apply sendVid_keeps
    | with_reducible apply queuePackets_keeps
    | with_reducible apply foldl_keeps
    | (intro y s hs; try dsimp only)
    | (intro s hs; try dsimp only)
    | split
    | (simp only [keeps_mk]; with_reducible refine keeps_fields ?_)

theorem sendFrames_keeps {a : State} {x0 : State} {x1 : Nat} {x2 : List (Nat × Sys2Proof.Superframe)}
    (h0 : Keeps a x0) :
    Keeps a (State.sendFrames x0 x1 x2) := by
  unfold State.sendFrames
  try dsimp only
  repeat' first
    | with_reducible assumption
    | with_reducible apply each_keeps
    | with_reducible apply freeNat_keeps
    | with_reducible apply count_keeps
    | with_reducible apply setTx_keeps
    | with_reducible apply emit_keeps
    | refine keeps_pair (by assumption) ?_
    | with_reducible apply foldl_keeps
    | (intro y s hs; try dsimp only)
    | (intro s hs; try dsimp only)
    | split
    | (simp only [keeps_mk]; with_reducible refine keeps_fields ?_)

theorem sendPatterns_keeps {a : State} {x0 : State} {x1 : Nat}
    (h0 : Keeps a x0) :
    Keeps a (State.sendPatterns x0 x1) := by
  unfold State.sendPatterns
  try dsimp only
  repeat' first
    | with_reducible assumption
    | with_reducible apply each_keeps
    | with_reducible apply emit_keeps
    | with_reducible apply setTx_keeps
    | with_reducible apply foldl_keeps
    | (intro y s hs; try dsimp only)
    | (intro s hs; try dsimp only)
    | split
    | (simp only [keeps_mk]; with_reducible refine keeps_fields ?_)

theorem doTxSuperframe_keeps {a : State} {x0 : Nat} {x1 : State}
    (h1 : Keeps a x1) :
    Keeps a (doTxSuperframe x0 x1) := by
  unfold doTxSuperframe
  try dsimp only
  repeat' first
    | with_reducible assumption
    | with_reducible apply sendPatterns_keeps
    | with_reducible apply setTx_keeps
    | with_reducible apply each_keeps
    | with_reducible apply txKeyBoundary_keeps
    | with_reducible apply sendFrames_keeps
    | with_reducible apply slip_keeps
    | with_reducible apply setTxStream_keeps
    | with_reducible apply foldl_keeps
    | (intro y s hs; try dsimp only)
    | (intro s hs; try dsimp only)
    | split
    | (simp only [keeps_mk]; with_reducible refine keeps_fields ?_)

theorem setReceive_keeps {a : State} {x0 : Sys2Proof.StreamSetP} {x1 : State}
    (h1 : Keeps a x1) :
    Keeps a (setReceive x0 x1) := by
  unfold setReceive
  try dsimp only
  repeat' first
    | with_reducible assumption
    | with_reducible apply completeWhere_keeps
    | with_reducible apply setRxStream_keeps
    | with_reducible apply withdraw_keeps
    | with_reducible apply endOld_keeps
    | with_reducible apply stopWriters_keeps
    | with_reducible apply foldl_keeps
    | (intro y s hs; try dsimp only)
    | (intro s hs; try dsimp only)
    | split
    | (simp only [keeps_mk]; with_reducible refine keeps_fields ?_)

theorem endOutput_keeps {a : State} {x0 : State} {x1 : Job → State → State} {x2 : Nat} {x3 : Nat}
    (h0 : Keeps a x0) (h1 : ∀ y0 s, Keeps a s → Keeps a (x1 y0 s)) :
    Keeps a (State.endOutput x0 x1 x2 x3) := by
  unfold State.endOutput
  try dsimp only
  repeat' first
    | with_reducible assumption
    | with_reducible apply h1
    | with_reducible apply dropComp_keeps
    | with_reducible apply dropOutput_keeps
    | with_reducible apply each_keeps
    | with_reducible apply complete_keeps
    | with_reducible apply completeWhere_keeps
    | with_reducible apply dropDsts_keeps
    | with_reducible apply setEmbed_keeps
    | with_reducible apply setOutRaster_keeps
    | with_reducible apply setTxStream_keeps
    | with_reducible apply foldl_keeps
    | (intro y s hs; try dsimp only)
    | (intro s hs; try dsimp only)
    | split
    | (simp only [keeps_mk]; with_reducible refine keeps_fields ?_)

theorem newOutput_keeps {a : State} {x0 : State} {x1 : Nat}
    (h0 : Keeps a x0) :
    Keeps a (State.newOutput x0 x1) := by
  unfold State.newOutput
  try dsimp only
  repeat' first
    | with_reducible assumption
    | with_reducible apply setOutRaster_keeps
    | with_reducible apply foldl_keeps
    | (intro y s hs; try dsimp only)
    | (intro s hs; try dsimp only)
    | split
    | (simp only [keeps_mk]; with_reducible refine keeps_fields ?_)

theorem setTransmit_keeps {a : State} {x0 : Job → State → State} {x1 : Sys2Proof.StreamSetP} {x2 : Nat} {x3 : State}
    (h0 : ∀ y0 s, Keeps a s → Keeps a (x0 y0 s)) (h3 : Keeps a x3) :
    Keeps a (setTransmit x0 x1 x2 x3) := by
  unfold setTransmit
  try dsimp only
  repeat' first
    | with_reducible assumption
    | with_reducible apply h0
    | with_reducible apply endOutput_keeps
    | with_reducible apply newOutput_keeps
    | with_reducible apply setTxStream_keeps
    | with_reducible apply foldl_keeps
    | (intro y s hs; try dsimp only)
    | (intro s hs; try dsimp only)
    | split
    | (simp only [keeps_mk]; with_reducible refine keeps_fields ?_)

theorem startStreamSet_keeps {a : State} {x0 : Sys2Proof.Hdr} {x1 : Sys2Proof.StreamSetP} {x2 : State}
    (h2 : Keeps a x2) :
    AnsKeeps a (startStreamSet x0 x1 x2) := by
  unfold startStreamSet
  try dsimp only
  repeat' first
    | with_reducible assumption
    | with_reducible apply setReceive_keeps
    | with_reducible apply orAns_keeps
    | exact ans_fail
    | with_reducible apply ans_done
    | with_reducible apply ans_result
    | with_reducible apply ans_later
    | with_reducible apply ans_silent
    | with_reducible apply foldl_keeps
    | (intro y s hs; try dsimp only)
    | (intro s hs; try dsimp only)
    | split
    | (simp only [keeps_mk]; with_reducible refine keeps_fields ?_)

theorem applyStreamSet_keeps {a : State} {x0 : Job → State → State} {x1 : Job} {x2 : Sys2Proof.StreamSetP} {x3 : State}
    (h0 : ∀ y0 s, Keeps a s → Keeps a (x0 y0 s)) (h3 : Keeps a x3) :
    Keeps a (applyStreamSet x0 x1 x2 x3) := by
  unfold applyStreamSet
  try dsimp only
  repeat' first
    | with_reducible assumption
    | with_reducible apply h0
    | with_reducible apply complete_keeps
    | with_reducible apply setTransmit_keeps
    | with_reducible apply foldl_keeps
    | (intro y s hs; try dsimp only)
    | (intro s hs; try dsimp only)
    | split
    | (simp only [keeps_mk]; with_reducible refine keeps_fields ?_)

theorem recordJob_keeps {a : State} {x0 : State} {x1 : Nat} {x2 : Nat} {x3 : Sys2Proof.Params}
    (h0 : Keeps a x0) :
    Keeps a (State.recordJob x0 x1 x2 x3) := by
  unfold State.recordJob
  try dsimp only
  repeat' first
    | with_reducible assumption
    | with_reducible apply addJob_keeps
    | with_reducible apply foldl_keeps
    | (intro y s hs; try dsimp only)
    | (intro s hs; try dsimp only)
    | split
    | (simp only [keeps_mk]; with_reducible refine keeps_fields ?_)

theorem spreadPreset_keeps {a : State} {x0 : State} {x1 : Nat} {x2 : Sys2Proof.PresetBody}
    (h0 : Keeps a x0) :
    Keeps a (State.spreadPreset x0 x1 x2) := by
  unfold State.spreadPreset
  try dsimp only
  repeat' first
    | with_reducible assumption
    | with_reducible apply each_keeps
    | with_reducible apply recordJob_keeps
    | with_reducible apply setReceive_keeps
    | with_reducible apply dueTake_keeps
    | with_reducible apply foldl_keeps
    | (intro y s hs; try dsimp only)
    | (intro s hs; try dsimp only)
    | split
    | (simp only [keeps_mk]; with_reducible refine keeps_fields ?_)

theorem applyPresetRecall_keeps {a : State} {x0 : Job} {x1 : Sys2Proof.PresetRecallP} {x2 : State}
    (h2 : Keeps a x2) :
    Keeps a (applyPresetRecall x0 x1 x2) := by
  unfold applyPresetRecall
  try dsimp only
  repeat' first
    | with_reducible assumption
    | with_reducible apply complete_keeps
    | with_reducible apply releaseTake_keeps
    | with_reducible apply spreadPreset_keeps
    | with_reducible apply audit_keeps
    | with_reducible apply setJob_keeps
    | with_reducible apply foldl_keeps
    | (intro y s hs; try dsimp only)
    | (intro s hs; try dsimp only)
    | split
    | (simp only [keeps_mk]; with_reducible refine keeps_fields ?_)

theorem planPreset_keeps {a : State} {x0 : State} {x1 : State} {x2 : Nat} {x3 : Bool} {x4 : List Sys2Proof.RouteEntry}
    (h0 : Keeps a x0) (_ : Keeps a x1) :
    Keeps a (State.planPreset x0 x1 x2 x3 x4).2 := by
  unfold State.planPreset
  try dsimp only
  repeat' first
    | with_reducible assumption
    | with_reducible apply superseding_keeps
    | with_reducible apply charge_keeps
    | with_reducible apply foldl_keeps
    | (intro y s hs; try dsimp only)
    | (intro s hs; try dsimp only)
    | split
    | (simp only [keeps_mk]; with_reducible refine keeps_fields ?_)

theorem checkEach_keeps {α : Type} {a s : State} {chk : α → State → Check} {eff : α → State → State} {l : List α}
    (he : ∀ x s, Keeps a s → Keeps a (eff x s)) (h : Keeps a s) : Keeps a (checkEach chk eff l s).2 := by
  induction l generalizing s with
  | nil => exact h
  | cons x r ih =>
    unfold checkEach
    split
    · exact h
    · exact ih (he x s h)

theorem tryHouse_keeps {a : State} {x0 : Sys2Proof.RasterSetP} {x1 : State}
    (h1 : Keeps a x1) :
    Keeps a (tryHouse x0 x1) := by
  unfold tryHouse
  try dsimp only
  repeat' first
    | with_reducible assumption
    | with_reducible apply setHouse_keeps
    | with_reducible apply foldl_keeps
    | (intro y s hs; try dsimp only)
    | (intro s hs; try dsimp only)
    | split
    | (simp only [keeps_mk]; with_reducible refine keeps_fields ?_)

theorem tryStream_keeps {a : State} {x0 : Sys2Proof.StreamSetP} {x1 : State}
    (h1 : Keeps a x1) :
    Keeps a (tryStream x0 x1) := by
  unfold tryStream
  try dsimp only
  repeat' first
    | with_reducible assumption
    | with_reducible apply setReceive_keeps
    | with_reducible apply setTransmit_keeps
    | with_reducible apply foldl_keeps
    | (intro y s hs; try dsimp only)
    | (intro s hs; try dsimp only)
    | split
    | (simp only [keeps_mk]; with_reducible refine keeps_fields ?_)

theorem tryOutput_keeps {a : State} {x0 : Sys2Proof.RasterSetP} {x1 : State}
    (h1 : Keeps a x1) :
    Keeps a (tryOutput x0 x1) := by
  unfold tryOutput
  try dsimp only
  repeat' first
    | with_reducible assumption
    | with_reducible apply setOutRaster_keeps
    | with_reducible apply foldl_keeps
    | (intro y s hs; try dsimp only)
    | (intro s hs; try dsimp only)
    | split
    | (simp only [keeps_mk]; with_reducible refine keeps_fields ?_)

theorem tryPreset_keeps {a : State} {x0 : State} {x1 : Sys2Proof.PresetBody}
    (h0 : Keeps a x0) :
    Keeps a (State.tryPreset x0 x1).2 := by
  unfold State.tryPreset
  try dsimp only
  repeat' first
    | with_reducible assumption
    | with_reducible apply checkEach_keeps
    | with_reducible apply tryHouse_keeps
    | with_reducible apply tryStream_keeps
    | with_reducible apply each_keeps
    | with_reducible apply tryOutput_keeps
    | refine keeps_pair (by assumption) ?_
    | with_reducible apply foldl_keeps
    | (intro y s hs; try dsimp only)
    | (intro s hs; try dsimp only)
    | split
    | (simp only [keeps_mk]; with_reducible refine keeps_fields ?_)

theorem planPresetRecall_keeps {a : State} {x0 : Sys2Proof.Hdr} {x1 : Nat} {x2 : Sys2Proof.PresetRecallP} {x3 : State}
    (h3 : Keeps a x3) :
    Keeps a (planPresetRecall x0 x1 x2 x3) := by
  unfold planPresetRecall
  try dsimp only
  repeat' first
    | with_reducible assumption
    | with_reducible apply planPreset_keeps
    | with_reducible apply tryPreset_keeps
    | refine keeps_pair (by assumption) ?_
    | with_reducible apply foldl_keeps
    | (intro y s hs; try dsimp only)
    | (intro s hs; try dsimp only)
    | split
    | (simp only [keeps_mk]; with_reducible refine keeps_fields ?_)

theorem writeDir_keeps {a : State} {x0 : State} {x1 : Nat} {x2 : List Sys2Proof.Byte} {x3 : NvFor}
    (h0 : Keeps a x0) :
    Keeps a (State.writeDir x0 x1 x2 x3) := by
  unfold State.writeDir
  try dsimp only
  repeat' first
    | with_reducible assumption
    | with_reducible apply nvPage_keeps
    | with_reducible apply foldl_keeps
    | (intro y s hs; try dsimp only)
    | (intro s hs; try dsimp only)
    | split
    | (simp only [keeps_mk]; with_reducible refine keeps_fields ?_)

theorem storePreset_keeps {a s : State} {id i : Nat} {b : PresetBody} (h : Keeps a s) : OptKeeps a (s.storePreset id i b) := by
  intro s' hs
  unfold State.storePreset at hs
  dsimp only at hs
  obtain ⟨start, _, rfl⟩ := Option.map_eq_some_iff.mp hs
  apply writeDir_keeps
  apply each_keeps
  · intro k s hk
    exact nvPage_keeps hk
  · exact h

theorem startPresetStore_keeps {a : State} {x0 : Sys2Proof.PresetStoreP} {x1 : State}
    (h1 : Keeps a x1) :
    AnsKeeps a (startPresetStore x0 x1) := by
  unfold startPresetStore
  try dsimp only
  repeat' first
    | with_reducible assumption
    | with_reducible apply storePreset_keeps
    | with_reducible apply orAns_keeps
    | exact ans_fail
    | with_reducible apply ans_done
    | with_reducible apply ans_result
    | with_reducible apply ans_later
    | with_reducible apply ans_silent
    | refine keeps_some (by assumption) ?_
    | with_reducible apply foldl_keeps
    | (intro y s hs; try dsimp only)
    | (intro s hs; try dsimp only)
    | split
    | (simp only [keeps_mk]; with_reducible refine keeps_fields ?_)

theorem startPresetRecall_keeps {a : State} {x0 : Sys2Proof.Hdr} {x1 : Sys2Proof.PresetRecallP} {x2 : State}
    (h2 : Keeps a x2) :
    AnsKeeps a (startPresetRecall x0 x1 x2) := by
  unfold startPresetRecall
  try dsimp only
  repeat' first
    | with_reducible assumption
    | with_reducible apply planPresetRecall_keeps
    | with_reducible apply orAns_keeps
    | exact ans_fail
    | with_reducible apply ans_done
    | with_reducible apply ans_result
    | with_reducible apply ans_later
    | with_reducible apply ans_silent
    | with_reducible apply foldl_keeps
    | (intro y s hs; try dsimp only)
    | (intro s hs; try dsimp only)
    | split
    | (simp only [keeps_mk]; with_reducible refine keeps_fields ?_)

theorem startPresetColdstart_keeps {a : State} {x0 : Sys2Proof.PresetColdstartP} {x1 : State}
    (h1 : Keeps a x1) :
    AnsKeeps a (startPresetColdstart x0 x1) := by
  unfold startPresetColdstart
  try dsimp only
  repeat' first
    | with_reducible assumption
    | with_reducible apply writeDir_keeps
    | with_reducible apply orAns_keeps
    | exact ans_fail
    | with_reducible apply ans_done
    | with_reducible apply ans_result
    | with_reducible apply ans_later
    | with_reducible apply ans_silent
    | with_reducible apply foldl_keeps
    | (intro y s hs; try dsimp only)
    | (intro s hs; try dsimp only)
    | split
    | (simp only [keeps_mk]; with_reducible refine keeps_fields ?_)

theorem applyPresetStore_keeps {a : State} {x0 : Job} {x1 : Sys2Proof.PresetStoreP} {x2 : State}
    (h2 : Keeps a x2) :
    Keeps a (applyPresetStore x0 x1 x2) := by
  unfold applyPresetStore
  try dsimp only
  repeat' first
    | with_reducible assumption
    | with_reducible apply storePreset_keeps
    | with_reducible apply setJob_keeps
    | with_reducible apply complete_keeps
    | refine keeps_some (by assumption) ?_
    | with_reducible apply foldl_keeps
    | (intro y s hs; try dsimp only)
    | (intro s hs; try dsimp only)
    | split
    | (simp only [keeps_mk]; with_reducible refine keeps_fields ?_)

theorem recallFails_keeps {a : State} {x0 : State} {x1 : Nat} {x2 : Nat} {x3 : Nat}
    (h0 : Keeps a x0) :
    Keeps a (State.recallFails x0 x1 x2 x3) := by
  unfold State.recallFails
  try dsimp only
  repeat' first
    | with_reducible assumption
    | with_reducible apply fire_keeps
    | with_reducible apply audit_keeps
    | with_reducible apply foldl_keeps
    | (intro y s hs; try dsimp only)
    | (intro s hs; try dsimp only)
    | split
    | (simp only [keeps_mk]; with_reducible refine keeps_fields ?_)

theorem recallCold_keeps {a s : State} (h : Keeps a s) : Keeps a s.recallCold := by
  unfold State.recallCold
  dsimp only
  have ht : Keeps a { s with routes := { s.routes with recalling := false } } := by
    simp only [keeps_mk]
    exact keeps_fields h
  repeat' first
    | with_reducible assumption
    | with_reducible apply recallFails_keeps
    | with_reducible apply fire_keeps
    | with_reducible apply setMode_keeps
    | with_reducible apply audit_keeps
    | with_reducible apply spreadPreset_keeps
    | with_reducible apply addJob_keeps
    | with_reducible apply planPreset_keeps
    | with_reducible apply tryPreset_keeps
    | (intro _ e; cases e)
    | refine keeps_pair (by assumption) ?_
    | split
    | (simp only [keeps_mk]; with_reducible refine keeps_fields ?_)

end Sys2Proof.Laws
end

