-- ==== Sys2Proof/Laws/Keeps/Control.lean ====
section
/-! SUPPORT. What the operations of Machine/Hub.lean, Counters.lean, Pair.lean, Granules.lean, Power.lean and Commands.lean keep: one lemma per operation (see Laws/Keeps.lean). -/

namespace Sys2Proof.Laws

open Sys2Proof.Machine

theorem setCore_keeps {a : State} {x0 : State} {x1 : Nat} {x2 : Core}
    (h0 : Keeps a x0) :
    Keeps a (State.setCore x0 x1 x2) := by
  unfold State.setCore
  try dsimp only
  repeat' first
    | with_reducible assumption
    | with_reducible apply foldl_keeps
    | (intro y s hs; try dsimp only)
    | (intro s hs; try dsimp only)
    | split
    | (simp only [keeps_mk]; with_reducible refine keeps_fields ?_)

theorem afterExit_keeps {a : State} {x0 : State} {x1 : Nat} {x2 : Core} {x3 : Option Nat}
    (h0 : Keeps a x0) :
    Keeps a (State.afterExit x0 x1 x2 x3) := by
  unfold State.afterExit
  try dsimp only
  repeat' first
    | with_reducible assumption
    | with_reducible apply setCore_keeps
    | with_reducible apply foldl_keeps
    | (intro y s hs; try dsimp only)
    | (intro s hs; try dsimp only)
    | split
    | (simp only [keeps_mk]; with_reducible refine keeps_fields ?_)

theorem routeSource_keeps {a : State} {x0 : Nat} {x1 : Nat} {x2 : Nat} {x3 : State}
    (h3 : Keeps a x3) :
    Keeps a (routeSource x0 x1 x2 x3) := by
  unfold routeSource
  try dsimp only
  repeat' first
    | with_reducible assumption
    | with_reducible apply setSource_keeps
    | with_reducible apply endService_keeps
    | with_reducible apply presented_keeps
    | with_reducible apply foldl_keeps
    | (intro y s hs; try dsimp only)
    | (intro s hs; try dsimp only)
    | split
    | (simp only [keeps_mk]; with_reducible refine keeps_fields ?_)

theorem startEventRoute_keeps {a : State} {x0 : Sys2Proof.EventRouteP} {x1 : State}
    (h1 : Keeps a x1) :
    AnsKeeps a (startEventRoute x0 x1) := by
  unfold startEventRoute
  try dsimp only
  repeat' first
    | with_reducible assumption
    | with_reducible apply each_keeps
    | with_reducible apply routeSource_keeps
    | with_reducible apply orAns_keeps
    | exact ans_fail
    | with_reducible apply ans_done
    | with_reducible apply ans_result
    | with_reducible apply ans_later
    | with_reducible apply ans_silent
    | with_reducible apply foldl_keeps
    | (intro y s hs; try dsimp only)
    | (intro s hs; try dsimp only)
    | split
    | (simp only [keeps_mk]; with_reducible refine keeps_fields ?_)

theorem setGpio_keeps {a : State} {x0 : State} {x1 : Nat} {x2 : Gpio}
    (h0 : Keeps a x0) :
    Keeps a (State.setGpio x0 x1 x2) := by
  unfold State.setGpio
  try dsimp only
  repeat' first
    | with_reducible assumption
    | with_reducible apply foldl_keeps
    | (intro y s hs; try dsimp only)
    | (intro s hs; try dsimp only)
    | split
    | (simp only [keeps_mk]; with_reducible refine keeps_fields ?_)

theorem startGpioSet_keeps {a : State} {x0 : Ctx} {x1 : Sys2Proof.GpioSetP} {x2 : State}
    (h2 : Keeps a x2) :
    AnsKeeps a (startGpioSet x0 x1 x2) := by
  unfold startGpioSet
  try dsimp only
  repeat' first
    | with_reducible assumption
    | with_reducible apply setGpio_keeps
    | with_reducible apply orAns_keeps
    | exact ans_fail
    | with_reducible apply ans_done
    | with_reducible apply ans_result
    | with_reducible apply ans_later
    | with_reducible apply ans_silent
    | with_reducible apply foldl_keeps
    | (intro y s hs; try dsimp only)
    | (intro s hs; try dsimp only)
    | split
    | (simp only [keeps_mk]; with_reducible refine keeps_fields ?_)

theorem drive_keeps {a : State} {x0 : State} {x1 : Nat} {x2 : Nat}
    (h0 : Keeps a x0) :
    Keeps a (State.drive x0 x1 x2) := by
  unfold State.drive
  try dsimp only
  repeat' first
    | with_reducible assumption
    | with_reducible apply each_keeps
    | with_reducible apply setGpio_keeps
    | with_reducible apply foldl_keeps
    | (intro y s hs; try dsimp only)
    | (intro s hs; try dsimp only)
    | split
    | (simp only [keeps_mk]; with_reducible refine keeps_fields ?_)

theorem startGpioEdge_keeps {a : State} {x0 : Ctx} {x1 : Sys2Proof.GpioEdgeP} {x2 : State}
    (h2 : Keeps a x2) :
    AnsKeeps a (startGpioEdge x0 x1 x2) := by
  unfold startGpioEdge
  try dsimp only
  repeat' first
    | with_reducible assumption
    | with_reducible apply drive_keeps
    | with_reducible apply orAns_keeps
    | exact ans_fail
    | with_reducible apply ans_done
    | with_reducible apply ans_result
    | with_reducible apply ans_later
    | with_reducible apply ans_silent
    | with_reducible apply foldl_keeps
    | (intro y s hs; try dsimp only)
    | (intro s hs; try dsimp only)
    | split
    | (simp only [keeps_mk]; with_reducible refine keeps_fields ?_)

theorem startGpioRead_keeps {a : State} {x0 : Sys2Proof.ResP} {x1 : State}
    (h1 : Keeps a x1) :
    AnsKeeps a (startGpioRead x0 x1) := by
  unfold startGpioRead
  try dsimp only
  repeat' first
    | with_reducible assumption
    | with_reducible apply orAns_keeps
    | exact ans_fail
    | with_reducible apply ans_done
    | with_reducible apply ans_result
    | with_reducible apply ans_later
    | with_reducible apply ans_silent
    | with_reducible apply foldl_keeps
    | (intro y s hs; try dsimp only)
    | (intro s hs; try dsimp only)
    | split
    | (simp only [keeps_mk]; with_reducible refine keeps_fields ?_)

theorem startCpbLoad_keeps {a : State} {x0 : Ctx} {x1 : Sys2Proof.CpbLoadP} {x2 : State}
    (h2 : Keeps a x2) :
    AnsKeeps a (startCpbLoad x0 x1 x2) := by
  unfold startCpbLoad
  try dsimp only
  repeat' first
    | with_reducible assumption
    | with_reducible apply sramWrite_keeps
    | with_reducible apply orAns_keeps
    | exact ans_fail
    | with_reducible apply ans_done
    | with_reducible apply ans_result
    | with_reducible apply ans_later
    | with_reducible apply ans_silent
    | with_reducible apply foldl_keeps
    | (intro y s hs; try dsimp only)
    | (intro s hs; try dsimp only)
    | split
    | (simp only [keeps_mk]; with_reducible refine keeps_fields ?_)

theorem setCpb_keeps {a : State} {x0 : State} {x1 : Core}
    (h0 : Keeps a x0) :
    Keeps a (State.setCpb x0 x1) := by
  unfold State.setCpb
  try dsimp only
  repeat' first
    | with_reducible assumption
    | with_reducible apply foldl_keeps
    | (intro y s hs; try dsimp only)
    | (intro s hs; try dsimp only)
    | split
    | (simp only [keeps_mk]; with_reducible refine keeps_fields ?_)

theorem startCpb_keeps {a : State} {x0 : State} {x1 : Nat}
    (h0 : Keeps a x0) :
    Keeps a (State.startCpb x0 x1) := by
  unfold State.startCpb
  try dsimp only
  repeat' first
    | with_reducible assumption
    | with_reducible apply setCpb_keeps
    | with_reducible apply foldl_keeps
    | (intro y s hs; try dsimp only)
    | (intro s hs; try dsimp only)
    | split
    | (simp only [keeps_mk]; with_reducible refine keeps_fields ?_)

theorem disableQueue_keeps {a : State} {x0 : State} {x1 : Nat}
    (h0 : Keeps a x0) :
    Keeps a (State.disableQueue x0 x1) := by
  unfold State.disableQueue
  try dsimp only
  repeat' first
    | with_reducible assumption
    | with_reducible apply setQueue_keeps
    | with_reducible apply finishStop_keeps
    | with_reducible apply complete_keeps
    | with_reducible apply foldl_keeps
    | (intro y s hs; try dsimp only)
    | (intro s hs; try dsimp only)
    | split
    | (simp only [keeps_mk]; with_reducible refine keeps_fields ?_)

theorem setClaim_keeps {a : State} {x0 : State} {x1 : Nat} {x2 : Nat}
    (h0 : Keeps a x0) :
    Keeps a (State.setClaim x0 x1 x2) := by
  unfold State.setClaim
  try dsimp only
  repeat' first
    | with_reducible assumption
    | with_reducible apply foldl_keeps
    | (intro y s hs; try dsimp only)
    | (intro s hs; try dsimp only)
    | split
    | (simp only [keeps_mk]; with_reducible refine keeps_fields ?_)

theorem resetCpb_keeps {a : State} {x0 : State}
    (h0 : Keeps a x0) :
    Keeps a (State.resetCpb x0) := by
  unfold State.resetCpb
  try dsimp only
  repeat' first
    | with_reducible assumption
    | with_reducible apply disableQueue_keeps
    | with_reducible apply setCpb_keeps
    | with_reducible apply setClaim_keeps
    | with_reducible apply releaseClaims_keeps
    | with_reducible apply setQueue_keeps
    | with_reducible apply foldl_keeps
    | (intro y s hs; try dsimp only)
    | (intro s hs; try dsimp only)
    | split
    | (simp only [keeps_mk]; with_reducible refine keeps_fields ?_)

theorem startCpbCtrl_keeps {a : State} {x0 : Ctx} {x1 : Sys2Proof.CpbCtrlP} {x2 : State}
    (h2 : Keeps a x2) :
    AnsKeeps a (startCpbCtrl x0 x1 x2) := by
  unfold startCpbCtrl
  try dsimp only
  repeat' first
    | with_reducible assumption
    | with_reducible apply fire_keeps
    | with_reducible apply setCpb_keeps
    | with_reducible apply startCpb_keeps
    | with_reducible apply resetCpb_keeps
    | with_reducible apply orAns_keeps
    | exact ans_fail
    | with_reducible apply ans_done
    | with_reducible apply ans_result
    | with_reducible apply ans_later
    | with_reducible apply ans_silent
    | with_reducible apply foldl_keeps
    | (intro y s hs; try dsimp only)
    | (intro s hs; try dsimp only)
    | split
    | (simp only [keeps_mk]; with_reducible refine keeps_fields ?_)

theorem applyGpioEdge_keeps {a : State} {x0 : Job} {x1 : Sys2Proof.GpioEdgeP} {x2 : State}
    (h2 : Keeps a x2) :
    Keeps a (applyGpioEdge x0 x1 x2) := by
  unfold applyGpioEdge
  try dsimp only
  repeat' first
    | with_reducible assumption
    | with_reducible apply complete_keeps
    | with_reducible apply drive_keeps
    | with_reducible apply foldl_keeps
    | (intro y s hs; try dsimp only)
    | (intro s hs; try dsimp only)
    | split
    | (simp only [keeps_mk]; with_reducible refine keeps_fields ?_)

theorem winClaim_keeps {a : State} {x0 : State} {x1 : Nat} {x2 : Nat}
    (h0 : Keeps a x0) :
    Keeps a (State.winClaim x0 x1 x2) := by
  unfold State.winClaim
  try dsimp only
  repeat' first
    | with_reducible assumption
    | with_reducible apply count_keeps
    | with_reducible apply setSource_keeps
    | with_reducible apply foldl_keeps
    | (intro y s hs; try dsimp only)
    | (intro s hs; try dsimp only)
    | split
    | (simp only [keeps_mk]; with_reducible refine keeps_fields ?_)

theorem doAccessFault_keeps {a : State} {x0 : Nat} {x1 : Nat} {x2 : Bool} {x3 : State}
    (h3 : Keeps a x3) :
    Keeps a (doAccessFault x0 x1 x2 x3) := by
  unfold doAccessFault
  try dsimp only
  repeat' first
    | with_reducible assumption
    | with_reducible apply setCpb_keeps
    | with_reducible apply foldl_keeps
    | (intro y s hs; try dsimp only)
    | (intro s hs; try dsimp only)
    | split
    | (simp only [keeps_mk]; with_reducible refine keeps_fields ?_)

theorem doClaim_keeps {a : State} {x0 : Nat} {x1 : Nat} {x2 : State}
    (h2 : Keeps a x2) :
    Keeps a (doClaim x0 x1 x2) := by
  unfold doClaim
  try dsimp only
  repeat' first
    | with_reducible assumption
    | with_reducible apply emit_keeps
    | with_reducible apply setClaim_keeps
    | with_reducible apply winClaim_keeps
    | with_reducible apply count_keeps
    | with_reducible apply foldl_keeps
    | (intro y s hs; try dsimp only)
    | (intro s hs; try dsimp only)
    | split
    | (simp only [keeps_mk]; with_reducible refine keeps_fields ?_)

theorem doComplete_keeps {a : State} {x0 : Nat} {x1 : Nat} {x2 : State}
    (h2 : Keeps a x2) :
    Keeps a (doComplete x0 x1 x2) := by
  unfold doComplete
  try dsimp only
  repeat' first
    | with_reducible assumption
    | with_reducible apply endService_keeps
    | with_reducible apply foldl_keeps
    | (intro y s hs; try dsimp only)
    | (intro s hs; try dsimp only)
    | split
    | (simp only [keeps_mk]; with_reducible refine keeps_fields ?_)

theorem doDisarm_keeps {a : State} {x0 : State}
    (h0 : Keeps a x0) :
    Keeps a (doDisarm x0) := by
  unfold doDisarm
  try dsimp only
  repeat' first
    | with_reducible assumption
    | with_reducible apply foldl_keeps
    | (intro y s hs; try dsimp only)
    | (intro s hs; try dsimp only)
    | split
    | (simp only [keeps_mk]; with_reducible refine keeps_fields ?_)

theorem doEntryCommit_keeps {a : State} {x0 : Nat} {x1 : State}
    (h1 : Keeps a x1) :
    Keeps a (doEntryCommit x0 x1) := by
  unfold doEntryCommit
  try dsimp only
  repeat' first
    | with_reducible assumption
    | with_reducible apply setCore_keeps
    | with_reducible apply foldl_keeps
    | (intro y s hs; try dsimp only)
    | (intro s hs; try dsimp only)
    | split
    | (simp only [keeps_mk]; with_reducible refine keeps_fields ?_)

theorem doExitCommit_keeps {a : State} {x0 : Nat} {x1 : State}
    (h1 : Keeps a x1) :
    Keeps a (doExitCommit x0 x1) := by
  unfold doExitCommit
  try dsimp only
  repeat' first
    | with_reducible assumption
    | with_reducible apply afterExit_keeps
    | with_reducible apply foldl_keeps
    | (intro y s hs; try dsimp only)
    | (intro s hs; try dsimp only)
    | split
    | (simp only [keeps_mk]; with_reducible refine keeps_fields ?_)

theorem doFast_keeps {a : State} {x0 : Nat} {x1 : State}
    (h1 : Keeps a x1) :
    Keeps a (doFast x0 x1) := by
  unfold doFast
  try dsimp only
  repeat' first
    | with_reducible assumption
    | with_reducible apply setCore_keeps
    | with_reducible apply winClaim_keeps
    | with_reducible apply foldl_keeps
    | (intro y s hs; try dsimp only)
    | (intro s hs; try dsimp only)
    | split
    | (simp only [keeps_mk]; with_reducible refine keeps_fields ?_)

theorem doFiredClear_keeps {a : State} {x0 : State}
    (h0 : Keeps a x0) :
    Keeps a (doFiredClear x0) := by
  unfold doFiredClear
  try dsimp only
  repeat' first
    | with_reducible assumption
    | with_reducible apply foldl_keeps
    | (intro y s hs; try dsimp only)
    | (intro s hs; try dsimp only)
    | split
    | (simp only [keeps_mk]; with_reducible refine keeps_fields ?_)

theorem doGpioInput_keeps {a : State} {x0 : Nat} {x1 : Bool} {x2 : State}
    (h2 : Keeps a x2) :
    Keeps a (doGpioInput x0 x1 x2) := by
  unfold doGpioInput
  try dsimp only
  repeat' first
    | with_reducible assumption
    | with_reducible apply fire_keeps
    | with_reducible apply setGpio_keeps
    | with_reducible apply foldl_keeps
    | (intro y s hs; try dsimp only)
    | (intro s hs; try dsimp only)
    | split
    | (simp only [keeps_mk]; with_reducible refine keeps_fields ?_)

theorem doGpioOut_keeps {a : State} {x0 : Nat} {x1 : State}
    (h1 : Keeps a x1) :
    Keeps a (doGpioOut x0 x1) := by
  unfold doGpioOut
  try dsimp only
  repeat' first
    | with_reducible assumption
    | with_reducible apply drive_keeps
    | with_reducible apply foldl_keeps
    | (intro y s hs; try dsimp only)
    | (intro s hs; try dsimp only)
    | split
    | (simp only [keeps_mk]; with_reducible refine keeps_fields ?_)

theorem doLoadChecked_keeps {a : State} {x0 : State}
    (h0 : Keeps a x0) :
    Keeps a (doLoadChecked x0) := by
  unfold doLoadChecked
  try dsimp only
  repeat' first
    | with_reducible assumption
    | with_reducible apply complete_keeps
    | with_reducible apply sramWrite_keeps
    | with_reducible apply startCpb_keeps
    | with_reducible apply foldl_keeps
    | (intro y s hs; try dsimp only)
    | (intro s hs; try dsimp only)
    | split
    | (simp only [keeps_mk]; with_reducible refine keeps_fields ?_)

theorem doMret_keeps {a : State} {x0 : Nat} {x1 : State}
    (h1 : Keeps a x1) :
    Keeps a (doMret x0 x1) := by
  unfold doMret
  try dsimp only
  repeat' first
    | with_reducible assumption
    | with_reducible apply endService_keeps
    | with_reducible apply setCore_keeps
    | with_reducible apply foldl_keeps
    | (intro y s hs; try dsimp only)
    | (intro s hs; try dsimp only)
    | split
    | (simp only [keeps_mk]; with_reducible refine keeps_fields ?_)

theorem doNormal_keeps {a : State} {x0 : Nat} {x1 : State}
    (h1 : Keeps a x1) :
    Keeps a (doNormal x0 x1) := by
  unfold doNormal
  try dsimp only
  repeat' first
    | with_reducible assumption
    | with_reducible apply setCore_keeps
    | with_reducible apply foldl_keeps
    | (intro y s hs; try dsimp only)
    | (intro s hs; try dsimp only)
    | split
    | (simp only [keeps_mk]; with_reducible refine keeps_fields ?_)

theorem doSwi_keeps {a : State} {x0 : Nat} {x1 : State}
    (h1 : Keeps a x1) :
    Keeps a (doSwi x0 x1) := by
  unfold doSwi
  try dsimp only
  repeat' first
    | with_reducible assumption
    | with_reducible apply fire_keeps
    | with_reducible apply foldl_keeps
    | (intro y s hs; try dsimp only)
    | (intro s hs; try dsimp only)
    | split
    | (simp only [keeps_mk]; with_reducible refine keeps_fields ?_)

theorem doTimecmp_keeps {a : State} {x0 : Nat} {x1 : State}
    (h1 : Keeps a x1) :
    Keeps a (doTimecmp x0 x1) := by
  unfold doTimecmp
  try dsimp only
  repeat' first
    | with_reducible assumption
    | with_reducible apply timerCompare_keeps
    | with_reducible apply foldl_keeps
    | (intro y s hs; try dsimp only)
    | (intro s hs; try dsimp only)
    | split
    | (simp only [keeps_mk]; with_reducible refine keeps_fields ?_)

theorem clearOvf_keeps {a : State} {x0 : State} {x1 : Nat}
    (h0 : Keeps a x0) :
    Keeps a (State.clearOvf x0 x1) := by
  unfold State.clearOvf
  try dsimp only
  repeat' first
    | with_reducible assumption
    | with_reducible apply foldl_keeps
    | (intro y s hs; try dsimp only)
    | (intro s hs; try dsimp only)
    | split
    | (simp only [keeps_mk]; with_reducible refine keeps_fields ?_)

theorem startCounterRead_keeps {a : State} {x0 : Sys2Proof.CounterReadP} {x1 : State}
    (h1 : Keeps a x1) :
    AnsKeeps a (startCounterRead x0 x1) := by
  unfold startCounterRead
  try dsimp only
  repeat' first
    | with_reducible assumption
    | with_reducible apply each_keeps
    | with_reducible apply clearOvf_keeps
    | with_reducible apply orAns_keeps
    | exact ans_fail
    | with_reducible apply ans_done
    | with_reducible apply ans_result
    | with_reducible apply ans_later
    | with_reducible apply ans_silent
    | with_reducible apply foldl_keeps
    | (intro y s hs; try dsimp only)
    | (intro s hs; try dsimp only)
    | split
    | (simp only [keeps_mk]; with_reducible refine keeps_fields ?_)

theorem startSnapshot_keeps {a : State} {x0 : Sys2Proof.CounterSnapshotP} {x1 : State}
    (h1 : Keeps a x1) :
    AnsKeeps a (startSnapshot x0 x1) := by
  unfold startSnapshot
  try dsimp only
  repeat' first
    | with_reducible assumption
    | with_reducible apply orAns_keeps
    | exact ans_fail
    | with_reducible apply ans_done
    | with_reducible apply ans_result
    | with_reducible apply ans_later
    | with_reducible apply ans_silent
    | with_reducible apply foldl_keeps
    | (intro y s hs; try dsimp only)
    | (intro s hs; try dsimp only)
    | split
    | (simp only [keeps_mk]; with_reducible refine keeps_fields ?_)

theorem setMonitor_keeps {a : State} {x0 : State} {x1 : Nat} {x2 : Monitor}
    (h0 : Keeps a x0) :
    Keeps a (State.setMonitor x0 x1 x2) := by
  unfold State.setMonitor
  try dsimp only
  repeat' first
    | with_reducible assumption
    | with_reducible apply foldl_keeps
    | (intro y s hs; try dsimp only)
    | (intro s hs; try dsimp only)
    | split
    | (simp only [keeps_mk]; with_reducible refine keeps_fields ?_)

theorem startMonitorSet_keeps {a : State} {x0 : Sys2Proof.MonitorSetP} {x1 : State}
    (h1 : Keeps a x1) :
    AnsKeeps a (startMonitorSet x0 x1) := by
  unfold startMonitorSet
  try dsimp only
  repeat' first
    | with_reducible assumption
    | with_reducible apply setMonitor_keeps
    | with_reducible apply orAns_keeps
    | exact ans_fail
    | with_reducible apply ans_done
    | with_reducible apply ans_result
    | with_reducible apply ans_later
    | with_reducible apply ans_silent
    | with_reducible apply foldl_keeps
    | (intro y s hs; try dsimp only)
    | (intro s hs; try dsimp only)
    | split
    | (simp only [keeps_mk]; with_reducible refine keeps_fields ?_)

theorem startMonitorRead_keeps {a : State} {x0 : Sys2Proof.MonitorReadP} {x1 : State}
    (h1 : Keeps a x1) :
    AnsKeeps a (startMonitorRead x0 x1) := by
  unfold startMonitorRead
  try dsimp only
  repeat' first
    | with_reducible assumption
    | with_reducible apply orAns_keeps
    | exact ans_fail
    | with_reducible apply ans_done
    | with_reducible apply ans_result
    | with_reducible apply ans_later
    | with_reducible apply ans_silent
    | with_reducible apply foldl_keeps
    | (intro y s hs; try dsimp only)
    | (intro s hs; try dsimp only)
    | split
    | (simp only [keeps_mk]; with_reducible refine keeps_fields ?_)

theorem monitorLines_keeps {a : State} {x0 : State} {x1 : Nat} {x2 : Nat}
    (h0 : Keeps a x0) :
    Keeps a (State.monitorLines x0 x1 x2) := by
  unfold State.monitorLines
  try dsimp only
  repeat' first
    | with_reducible assumption
    | with_reducible apply foldl_keeps
    | (intro y s hs; try dsimp only)
    | (intro s hs; try dsimp only)
    | split
    | (simp only [keeps_mk]; with_reducible refine keeps_fields ?_)

theorem doCntSel_keeps {a : State} {x0 : Bool} {x1 : Nat} {x2 : State}
    (h2 : Keeps a x2) :
    Keeps a (doCntSel x0 x1 x2) := by
  unfold doCntSel
  try dsimp only
  repeat' first
    | with_reducible assumption
    | with_reducible apply foldl_keeps
    | (intro y s hs; try dsimp only)
    | (intro s hs; try dsimp only)
    | split
    | (simp only [keeps_mk]; with_reducible refine keeps_fields ?_)

theorem doMonitorClose_keeps {a : State} {x0 : Nat} {x1 : Nat} {x2 : State}
    (h2 : Keeps a x2) :
    Keeps a (doMonitorClose x0 x1 x2) := by
  unfold doMonitorClose
  try dsimp only
  repeat' first
    | with_reducible assumption
    | with_reducible apply count_keeps
    | with_reducible apply setMonitor_keeps
    | with_reducible apply foldl_keeps
    | (intro y s hs; try dsimp only)
    | (intro s hs; try dsimp only)
    | split
    | (simp only [keeps_mk]; with_reducible refine keeps_fields ?_)

theorem doOvfClear_keeps {a : State} {x0 : Bool} {x1 : State}
    (h1 : Keeps a x1) :
    Keeps a (doOvfClear x0 x1) := by
  unfold doOvfClear
  try dsimp only
  repeat' first
    | with_reducible assumption
    | with_reducible apply clearOvf_keeps
    | with_reducible apply foldl_keeps
    | (intro y s hs; try dsimp only)
    | (intro s hs; try dsimp only)
    | split
    | (simp only [keeps_mk]; with_reducible refine keeps_fields ?_)

theorem settlePair_keeps {a : State} {x0 : State}
    (h0 : Keeps a x0) :
    Keeps a (State.settlePair x0) := by
  unfold State.settlePair
  try dsimp only
  repeat' first
    | with_reducible assumption
    | with_reducible apply completeWhere_keeps
    | with_reducible apply foldl_keeps
    | (intro y s hs; try dsimp only)
    | (intro s hs; try dsimp only)
    | split
    | (simp only [keeps_mk]; with_reducible refine keeps_fields ?_)

theorem adoptPair_keeps {a : State} {x0 : State}
    (h0 : Keeps a x0) :
    Keeps a (State.adoptPair x0) := by
  unfold State.adoptPair
  try dsimp only
  repeat' first
    | with_reducible assumption
    | with_reducible apply setHouse_keeps
    | with_reducible apply each_keeps
    | with_reducible apply setOutRaster_keeps
    | with_reducible apply settlePair_keeps
    | with_reducible apply foldl_keeps
    | (intro y s hs; try dsimp only)
    | (intro s hs; try dsimp only)
    | split
    | (simp only [keeps_mk]; with_reducible refine keeps_fields ?_)

theorem startPairSet_keeps {a : State} {x0 : Sys2Proof.PairSetP} {x1 : State}
    (h1 : Keeps a x1) :
    AnsKeeps a (startPairSet x0 x1) := by
  unfold startPairSet
  try dsimp only
  repeat' first
    | with_reducible assumption
    | with_reducible apply dropApart_keeps
    | with_reducible apply fire_keeps
    | with_reducible apply setPair_keeps
    | with_reducible apply orAns_keeps
    | exact ans_fail
    | with_reducible apply ans_done
    | with_reducible apply ans_result
    | with_reducible apply ans_later
    | with_reducible apply ans_silent
    | with_reducible apply foldl_keeps
    | (intro y s hs; try dsimp only)
    | (intro s hs; try dsimp only)
    | split
    | (simp only [keeps_mk]; with_reducible refine keeps_fields ?_)

theorem beginResync_keeps {a : State} {x0 : State}
    (h0 : Keeps a x0) :
    Keeps a (State.beginResync x0) := by
  unfold State.beginResync
  try dsimp only
  repeat' first
    | with_reducible assumption
    | with_reducible apply setPair_keeps
    | with_reducible apply foldl_keeps
    | (intro y s hs; try dsimp only)
    | (intro s hs; try dsimp only)
    | split
    | (simp only [keeps_mk]; with_reducible refine keeps_fields ?_)

theorem startResync_keeps {a : State} {x0 : Sys2Proof.EmptyP} {x1 : State}
    (h1 : Keeps a x1) :
    AnsKeeps a (startResync x0 x1) := by
  unfold startResync
  try dsimp only
  repeat' first
    | with_reducible assumption
    | with_reducible apply fire_keeps
    | with_reducible apply emit_keeps
    | with_reducible apply beginResync_keeps
    | with_reducible apply orAns_keeps
    | exact ans_fail
    | with_reducible apply ans_done
    | with_reducible apply ans_result
    | with_reducible apply ans_later
    | with_reducible apply ans_silent
    | with_reducible apply foldl_keeps
    | (intro y s hs; try dsimp only)
    | (intro s hs; try dsimp only)
    | split
    | (simp only [keeps_mk]; with_reducible refine keeps_fields ?_)

theorem startTransfer_keeps {a : State} {x0 : Sys2Proof.EmptyP} {x1 : State}
    (h1 : Keeps a x1) :
    AnsKeeps a (startTransfer x0 x1) := by
  unfold startTransfer
  try dsimp only
  repeat' first
    | with_reducible assumption
    | with_reducible apply charge_keeps
    | with_reducible apply orAns_keeps
    | exact ans_fail
    | with_reducible apply ans_done
    | with_reducible apply ans_result
    | with_reducible apply ans_later
    | with_reducible apply ans_silent
    | with_reducible apply foldl_keeps
    | (intro y s hs; try dsimp only)
    | (intro s hs; try dsimp only)
    | split
    | (simp only [keeps_mk]; with_reducible refine keeps_fields ?_)

theorem startPairStatus_keeps {a : State} {x0 : Sys2Proof.ResP} {x1 : State}
    (h1 : Keeps a x1) :
    AnsKeeps a (startPairStatus x0 x1) := by
  unfold startPairStatus
  try dsimp only
  repeat' first
    | with_reducible assumption
    | with_reducible apply orAns_keeps
    | exact ans_fail
    | with_reducible apply ans_done
    | with_reducible apply ans_result
    | with_reducible apply ans_later
    | with_reducible apply ans_silent
    | with_reducible apply foldl_keeps
    | (intro y s hs; try dsimp only)
    | (intro s hs; try dsimp only)
    | split
    | (simp only [keeps_mk]; with_reducible refine keeps_fields ?_)

theorem commitAlone_id (j : Job) : (commitAlone j).id = j.id := by
  unfold commitAlone
  repeat' first
    | rfl
    | split

theorem goOn_keeps {a s : State} (h : Keeps a s) : Keeps a s.goOn := by
  unfold State.goOn
  simp only [keeps_mk]
  exact keeps_fields_jobs (jobs_map commitAlone_id) h

theorem linkLost_keeps {a : State} {x0 : State}
    (h0 : Keeps a x0) :
    Keeps a (State.linkLost x0) := by
  unfold State.linkLost
  try dsimp only
  repeat' first
    | with_reducible assumption
    | with_reducible apply fire_keeps
    | with_reducible apply setPair_keeps
    | with_reducible apply goOn_keeps
    | with_reducible apply dropApart_keeps
    | with_reducible apply foldl_keeps
    | (intro y s hs; try dsimp only)
    | (intro s hs; try dsimp only)
    | split
    | (simp only [keeps_mk]; with_reducible refine keeps_fields ?_)

theorem mateFails_keeps {a : State} {x0 : State}
    (h0 : Keeps a x0) :
    Keeps a (State.mateFails x0) := by
  unfold State.mateFails
  try dsimp only
  repeat' first
    | with_reducible assumption
    | with_reducible apply setPair_keeps
    | with_reducible apply goOn_keeps
    | with_reducible apply dropApart_keeps
    | with_reducible apply fire_keeps
    | with_reducible apply foldl_keeps
    | (intro y s hs; try dsimp only)
    | (intro s hs; try dsimp only)
    | split
    | (simp only [keeps_mk]; with_reducible refine keeps_fields ?_)

theorem brinenHeader_keeps {a : State} {x0 : State} {x1 : Sys2Proof.Superframe}
    (h0 : Keeps a x0) :
    Keeps a (State.brinenHeader x0 x1) := by
  unfold State.brinenHeader
  try dsimp only
  repeat' first
    | with_reducible assumption
    | with_reducible apply linkLost_keeps
    | with_reducible apply mateFails_keeps
    | with_reducible apply setPair_keeps
    | with_reducible apply dropApart_keeps
    | with_reducible apply foldl_keeps
    | (intro y s hs; try dsimp only)
    | (intro s hs; try dsimp only)
    | split
    | (simp only [keeps_mk]; with_reducible refine keeps_fields ?_)

theorem decided_keeps {a : State} {x0 : State} {x1 : Decision}
    (h0 : Keeps a x0) :
    Keeps a (State.decided x0 x1) := by
  unfold State.decided
  try dsimp only
  repeat' first
    | with_reducible assumption
    | with_reducible apply setPair_keeps
    | with_reducible apply foldl_keeps
    | (intro y s hs; try dsimp only)
    | (intro s hs; try dsimp only)
    | split
    | (simp only [keeps_mk]; with_reducible refine keeps_fields ?_)

theorem mismatch_keeps {a : State} {x0 : State} {x1 : Nat} {x2 : Nat}
    (h0 : Keeps a x0) :
    Keeps a (State.mismatch x0 x1 x2) := by
  unfold State.mismatch
  try dsimp only
  repeat' first
    | with_reducible assumption
    | with_reducible apply taint_keeps
    | with_reducible apply count_keeps
    | with_reducible apply inputMismatch_keeps
    | with_reducible apply setPair_keeps
    | with_reducible apply fire_keeps
    | with_reducible apply foldl_keeps
    | (intro y s hs; try dsimp only)
    | (intro s hs; try dsimp only)
    | split
    | (simp only [keeps_mk]; with_reducible refine keeps_fields ?_)

theorem meet_keeps {a : State} {x0 : State} {x1 : Sys2Proof.GranuleSig} {x2 : Sys2Proof.GranuleSig}
    (h0 : Keeps a x0) :
    Keeps a (State.meet x0 x1 x2) := by
  unfold State.meet
  try dsimp only
  repeat' first
    | with_reducible assumption
    | with_reducible apply mismatch_keeps
    | with_reducible apply foldl_keeps
    | (intro y s hs; try dsimp only)
    | (intro s hs; try dsimp only)
    | split
    | (simp only [keeps_mk]; with_reducible refine keeps_fields ?_)

theorem slotCrc_keeps {a : State} {x0 : State} {x1 : Nat} {x2 : Nat} {x3 : Bool}
    (h0 : Keeps a x0) :
    Keeps a (State.slotCrc x0 x1 x2 x3) := by
  unfold State.slotCrc
  try dsimp only
  repeat' first
    | with_reducible assumption
    | with_reducible apply setPair_keeps
    | with_reducible apply taint_keeps
    | with_reducible apply foldl_keeps
    | (intro y s hs; try dsimp only)
    | (intro s hs; try dsimp only)
    | split
    | (simp only [keeps_mk]; with_reducible refine keeps_fields ?_)

theorem reportSlot_keeps {a : State} {x0 : State} {x1 : Sys2Proof.BufXferP}
    (h0 : Keeps a x0) :
    Keeps a (State.reportSlot x0 x1) := by
  unfold State.reportSlot
  try dsimp only
  repeat' first
    | with_reducible assumption
    | with_reducible apply slotCrc_keeps
    | with_reducible apply emit_keeps
    | with_reducible apply foldl_keeps
    | (intro y s hs; try dsimp only)
    | (intro s hs; try dsimp only)
    | split
    | (simp only [keeps_mk]; with_reducible refine keeps_fields ?_)

theorem settleLink_keeps {a : State} {x0 : State}
    (h0 : Keeps a x0) :
    Keeps a (State.settleLink x0) := by
  unfold State.settleLink
  try dsimp only
  repeat' first
    | with_reducible assumption
    | with_reducible apply linkLost_keeps
    | with_reducible apply foldl_keeps
    | (intro y s hs; try dsimp only)
    | (intro s hs; try dsimp only)
    | split
    | (simp only [keeps_mk]; with_reducible refine keeps_fields ?_)

theorem doDeadlineMiss_keeps {a : State} {x0 : State}
    (h0 : Keeps a x0) :
    Keeps a (doDeadlineMiss x0) := by
  unfold doDeadlineMiss
  try dsimp only
  repeat' first
    | with_reducible assumption
    | with_reducible apply linkLost_keeps
    | with_reducible apply foldl_keeps
    | (intro y s hs; try dsimp only)
    | (intro s hs; try dsimp only)
    | split
    | (simp only [keeps_mk]; with_reducible refine keeps_fields ?_)

theorem signGranule_keeps {a : State} {x0 : Sys2Proof.GranuleSig} {x1 : List Bool} {x2 : State}
    (h2 : Keeps a x2) :
    Keeps a (signGranule x0 x1 x2) := by
  unfold signGranule
  try dsimp only
  repeat' first
    | with_reducible assumption
    | with_reducible apply emit_keeps
    | with_reducible apply meet_keeps
    | with_reducible apply setPair_keeps
    | with_reducible apply foldl_keeps
    | (intro y s hs; try dsimp only)
    | (intro s hs; try dsimp only)
    | split
    | (simp only [keeps_mk]; with_reducible refine keeps_fields ?_)

theorem doHello_keeps {a : State} {x0 : Sys2Proof.HelloBody} {x1 : State}
    (h1 : Keeps a x1) :
    Keeps a (doHello x0 x1) := by
  unfold doHello
  try dsimp only
  repeat' first
    | with_reducible assumption
    | with_reducible apply setPair_keeps
    | with_reducible apply settlePair_keeps
    | with_reducible apply fire_keeps
    | with_reducible apply foldl_keeps
    | (intro y s hs; try dsimp only)
    | (intro s hs; try dsimp only)
    | split
    | (simp only [keeps_mk]; with_reducible refine keeps_fields ?_)

theorem doLeat_keeps {a : State} {x0 : Sys2Proof.LeatBody} {x1 : State}
    (h1 : Keeps a x1) :
    Keeps a (doLeat x0 x1) := by
  unfold doLeat
  try dsimp only
  repeat' first
    | with_reducible assumption
    | with_reducible apply decided_keeps
    | with_reducible apply setDomain_keeps
    | with_reducible apply domainEvent_keeps
    | with_reducible apply setAsrc_keeps
    | with_reducible apply asrcTo_keeps
    | with_reducible apply applyDelay_keeps
    | with_reducible apply foldl_keeps
    | (intro y s hs; try dsimp only)
    | (intro s hs; try dsimp only)
    | split
    | (simp only [keeps_mk]; with_reducible refine keeps_fields ?_)

theorem doLinkUp_keeps {a : State} {x0 : State}
    (h0 : Keeps a x0) :
    Keeps a (doLinkUp x0) := by
  unfold doLinkUp
  try dsimp only
  repeat' first
    | with_reducible assumption
    | with_reducible apply fire_keeps
    | with_reducible apply setPair_keeps
    | with_reducible apply settlePair_keeps
    | with_reducible apply foldl_keeps
    | (intro y s hs; try dsimp only)
    | (intro s hs; try dsimp only)
    | split
    | (simp only [keeps_mk]; with_reducible refine keeps_fields ?_)

theorem doLockstep_keeps {a : State} {x0 : State}
    (h0 : Keeps a x0) :
    Keeps a (doLockstep x0) := by
  unfold doLockstep
  try dsimp only
  repeat' first
    | with_reducible assumption
    | with_reducible apply fire_keeps
    | with_reducible apply setPair_keeps
    | with_reducible apply completeWhere_keeps
    | with_reducible apply foldl_keeps
    | (intro y s hs; try dsimp only)
    | (intro s hs; try dsimp only)
    | split
    | (simp only [keeps_mk]; with_reducible refine keeps_fields ?_)

theorem doReport_keeps {a : State} {x0 : Nat} {x1 : Nat} {x2 : Nat} {x3 : State}
    (h3 : Keeps a x3) :
    Keeps a (doReport x0 x1 x2 x3) := by
  unfold doReport
  try dsimp only
  repeat' first
    | with_reducible assumption
    | with_reducible apply taint_keeps
    | with_reducible apply inputMismatch_keeps
    | with_reducible apply slotCrc_keeps
    | with_reducible apply foldl_keeps
    | (intro y s hs; try dsimp only)
    | (intro s hs; try dsimp only)
    | split
    | (simp only [keeps_mk]; with_reducible refine keeps_fields ?_)

theorem doResyncTimeout_keeps {a : State} {x0 : State}
    (h0 : Keeps a x0) :
    Keeps a (doResyncTimeout x0) := by
  unfold doResyncTimeout
  try dsimp only
  repeat' first
    | with_reducible assumption
    | with_reducible apply completeWhere_keeps
    | with_reducible apply dropApart_keeps
    | with_reducible apply foldl_keeps
    | (intro y s hs; try dsimp only)
    | (intro s hs; try dsimp only)
    | split
    | (simp only [keeps_mk]; with_reducible refine keeps_fields ?_)

theorem doSig_keeps {a : State} {x0 : List Sys2Proof.GranuleSig} {x1 : List Nat} {x2 : State}
    (h2 : Keeps a x2) :
    Keeps a (doSig x0 x1 x2) := by
  unfold doSig
  try dsimp only
  repeat' first
    | with_reducible assumption
    | with_reducible apply each_keeps
    | with_reducible apply meet_keeps
    | with_reducible apply setPair_keeps
    | with_reducible apply foldl_keeps
    | (intro y s hs; try dsimp only)
    | (intro s hs; try dsimp only)
    | split
    | (simp only [keeps_mk]; with_reducible refine keeps_fields ?_)

theorem doState_keeps {a : State} {x0 : Nat} {x1 : Bool} {x2 : Nat} {x3 : Nat} {x4 : List Sys2Proof.CmdBody} {x5 : State}
    (h5 : Keeps a x5) :
    Keeps a (doState x0 x1 x2 x3 x4 x5) := by
  unfold doState
  try dsimp only
  repeat' first
    | with_reducible assumption
    | with_reducible apply setPair_keeps
    | with_reducible apply foldl_keeps
    | (intro y s hs; try dsimp only)
    | (intro s hs; try dsimp only)
    | split
    | (simp only [keeps_mk]; with_reducible refine keeps_fields ?_)

theorem doTransferComplete_keeps {a : State} {x0 : State}
    (h0 : Keeps a x0) :
    Keeps a (doTransferComplete x0) := by
  unfold doTransferComplete
  try dsimp only
  repeat' first
    | with_reducible assumption
    | with_reducible apply completeWhere_keeps
    | with_reducible apply charge_keeps
    | with_reducible apply setPair_keeps
    | with_reducible apply foldl_keeps
    | (intro y s hs; try dsimp only)
    | (intro s hs; try dsimp only)
    | split
    | (simp only [keeps_mk]; with_reducible refine keeps_fields ?_)

theorem doUnmatched_keeps {a : State} {x0 : Sys2Proof.GranuleSig} {x1 : State}
    (h1 : Keeps a x1) :
    Keeps a (doUnmatched x0 x1) := by
  unfold doUnmatched
  try dsimp only
  repeat' first
    | with_reducible assumption
    | with_reducible apply count_keeps
    | with_reducible apply setPair_keeps
    | with_reducible apply foldl_keeps
    | (intro y s hs; try dsimp only)
    | (intro s hs; try dsimp only)
    | split
    | (simp only [keeps_mk]; with_reducible refine keeps_fields ?_)

theorem doWindowEnd_keeps {a : State} {x0 : Nat} {x1 : State}
    (h1 : Keeps a x1) :
    Keeps a (doWindowEnd x0 x1) := by
  unfold doWindowEnd
  try dsimp only
  repeat' first
    | with_reducible assumption
    | with_reducible apply setPair_keeps
    | with_reducible apply enterFailed_keeps
    | with_reducible apply foldl_keeps
    | (intro y s hs; try dsimp only)
    | (intro s hs; try dsimp only)
    | split
    | (simp only [keeps_mk]; with_reducible refine keeps_fields ?_)

theorem doXfer_keeps {a : State} {x0 : Nat} {x1 : Nat} {x2 : List Sys2Proof.Byte} {x3 : State}
    (h3 : Keeps a x3) :
    Keeps a (doXfer x0 x1 x2 x3) := by
  unfold doXfer
  try dsimp only
  repeat' first
    | with_reducible assumption
    | with_reducible apply charge_keeps
    | with_reducible apply setPair_keeps
    | with_reducible apply pondWrite_keeps
    | with_reducible apply foldl_keeps
    | (intro y s hs; try dsimp only)
    | (intro s hs; try dsimp only)
    | split
    | (simp only [keeps_mk]; with_reducible refine keeps_fields ?_)

theorem resetWith_keeps {a s : State} {n : Nat} (h : Keeps a s) : Keeps a (s.resetWith n) := by
  unfold State.resetWith
  have hk : Keeps a (if s.nv.stopped then s else s.nvStop n) := by
    split
    · exact h
    · exact nvStop_keeps h
  exact ⟨fun y => ⟨⟨rfl, (hk.1 y).1.2.1, rfl⟩, ⟨List.Pairwise.nil, fun j hj => absurd hj (List.not_mem_nil)⟩,
    ⟨(fun e => by cases e), (fun e => by cases e)⟩, rfl, rfl⟩, h.2.1, .inr rfl⟩

theorem commandReset_keeps {a s : State} (h : Keeps a s) : Keeps a (commandReset s) := by
  unfold commandReset State.freeNat
  apply resetWith_keeps
  simp only [keeps_mk]
  exact keeps_fields h

theorem bootImage_keeps {a : State} {x0 : State}
    (h0 : Keeps a x0) :
    Keeps a (State.bootImage x0) := by
  unfold State.bootImage
  try dsimp only
  repeat' first
    | with_reducible assumption
    | with_reducible apply freeNat_keeps
    | refine keeps_pair (by assumption) ?_
    | with_reducible apply foldl_keeps
    | (intro y s hs; try dsimp only)
    | (intro s hs; try dsimp only)
    | split
    | (simp only [keeps_mk]; with_reducible refine keeps_fields ?_)

theorem lanesOnRecords_keeps {a : State} {x0 : State}
    (h0 : Keeps a x0) :
    Keeps a (State.lanesOnRecords x0) := by
  unfold State.lanesOnRecords
  try dsimp only
  repeat' first
    | with_reducible assumption
    | with_reducible apply each_keeps
    | with_reducible apply applyRecords_keeps
    | with_reducible apply foldl_keeps
    | (intro y s hs; try dsimp only)
    | (intro s hs; try dsimp only)
    | split
    | (simp only [keeps_mk]; with_reducible refine keeps_fields ?_)

theorem mismatchA_keeps {a : State} {x0 : State}
    (h0 : Keeps a x0) :
    Keeps a (State.mismatchA x0) := by
  unfold State.mismatchA
  try dsimp only
  repeat' first
    | with_reducible assumption
    | with_reducible apply enterFailed_keeps
    | with_reducible apply beginRestart_keeps
    | with_reducible apply latchFault_keeps
    | with_reducible apply foldl_keeps
    | (intro y s hs; try dsimp only)
    | (intro s hs; try dsimp only)
    | split
    | (simp only [keeps_mk]; with_reducible refine keeps_fields ?_)

theorem powerUp_keeps {a : State} {x0 : State}
    (h0 : Keeps a x0) :
    Keeps a (State.powerUp x0) := by
  unfold State.powerUp
  try dsimp only
  repeat' first
    | with_reducible assumption
    | with_reducible apply each_keeps
    | with_reducible apply txStart_keeps
    | with_reducible apply lanesOnRecords_keeps
    | with_reducible apply wakeAudio_keeps
    | with_reducible apply foldl_keeps
    | (intro y s hs; try dsimp only)
    | (intro s hs; try dsimp only)
    | split
    | (simp only [keeps_mk]; with_reducible refine keeps_fields ?_)

theorem toStage_keeps {a : State} {x0 : State} {x1 : Stage}
    (h0 : Keeps a x0) :
    Keeps a (State.toStage x0 x1) := by
  unfold State.toStage
  try dsimp only
  repeat' first
    | with_reducible assumption
    | with_reducible apply foldl_keeps
    | (intro y s hs; try dsimp only)
    | (intro s hs; try dsimp only)
    | split
    | (simp only [keeps_mk]; with_reducible refine keeps_fields ?_)

theorem doBootVerify_keeps {a : State} {x0 : Bool} {x1 : State}
    (h1 : Keeps a x1) :
    Keeps a (doBootVerify x0 x1) := by
  unfold doBootVerify
  try dsimp only
  repeat' first
    | with_reducible assumption
    | with_reducible apply bootImage_keeps
    | with_reducible apply toStage_keeps
    | with_reducible apply emit_keeps
    | with_reducible apply latchFault_keeps
    | with_reducible apply foldl_keeps
    | (intro y s hs; try dsimp only)
    | (intro s hs; try dsimp only)
    | split
    | (simp only [keeps_mk]; with_reducible refine keeps_fields ?_)

theorem doColdRecall_keeps {a : State} {x0 : State}
    (h0 : Keeps a x0) :
    Keeps a (doColdRecall x0) := by
  unfold doColdRecall
  try dsimp only
  repeat' first
    | with_reducible assumption
    | with_reducible apply recallCold_keeps
    | with_reducible apply foldl_keeps
    | (intro y s hs; try dsimp only)
    | (intro s hs; try dsimp only)
    | split
    | (simp only [keeps_mk]; with_reducible refine keeps_fields ?_)

theorem doEccError_keeps {a : State} {x0 : Nat} {x1 : Nat} {x2 : Nat} {x3 : Nat} {x4 : Bool} {x5 : State}
    (h5 : Keeps a x5) :
    Keeps a (doEccError x0 x1 x2 x3 x4 x5) := by
  unfold doEccError
  try dsimp only
  repeat' first
    | with_reducible assumption
    | with_reducible apply count_keeps
    | with_reducible apply memoryFault_keeps
    | with_reducible apply foldl_keeps
    | (intro y s hs; try dsimp only)
    | (intro s hs; try dsimp only)
    | split
    | (simp only [keeps_mk]; with_reducible refine keeps_fields ?_)

theorem doFirmwareReady_keeps {a : State} {x0 : State}
    (h0 : Keeps a x0) :
    Keeps a (doFirmwareReady x0) := by
  unfold doFirmwareReady
  try dsimp only
  repeat' first
    | with_reducible assumption
    | with_reducible apply toStage_keeps
    | with_reducible apply applyClockRecord_keeps
    | with_reducible apply lanesOnRecords_keeps
    | with_reducible apply foldl_keeps
    | (intro y s hs; try dsimp only)
    | (intro s hs; try dsimp only)
    | split
    | (simp only [keeps_mk]; with_reducible refine keeps_fields ?_)

theorem doLockstepMismatch_keeps {a : State} {x0 : Nat} {x1 : State}
    (h1 : Keeps a x1) :
    Keeps a (doLockstepMismatch x0 x1) := by
  unfold doLockstepMismatch
  try dsimp only
  repeat' first
    | with_reducible assumption
    | with_reducible apply mismatchA_keeps
    | with_reducible apply fire_keeps
    | with_reducible apply resetCpb_keeps
    | with_reducible apply latchFault_keeps
    | with_reducible apply foldl_keeps
    | (intro y s hs; try dsimp only)
    | (intro s hs; try dsimp only)
    | split
    | (simp only [keeps_mk]; with_reducible refine keeps_fields ?_)

theorem doNvRecall_keeps {a : State} {x0 : State}
    (h0 : Keeps a x0) :
    Keeps a (doNvRecall x0) := by
  unfold doNvRecall
  try dsimp only
  repeat' first
    | with_reducible assumption
    | with_reducible apply doRecallComplete_keeps
    | with_reducible apply toStage_keeps
    | with_reducible apply foldl_keeps
    | (intro y s hs; try dsimp only)
    | (intro s hs; try dsimp only)
    | split
    | (simp only [keeps_mk]; with_reducible refine keeps_fields ?_)

theorem doPerst_keeps {a : State} {x0 : Bool} {x1 : State}
    (h1 : Keeps a x1) :
    Keeps a (doPerst x0 x1) := by
  unfold doPerst
  try dsimp only
  repeat' first
    | with_reducible assumption
    | with_reducible apply each_keeps
    | with_reducible apply disableQueue_keeps
    | with_reducible apply foldl_keeps
    | (intro y s hs; try dsimp only)
    | (intro s hs; try dsimp only)
    | split
    | (simp only [keeps_mk]; with_reducible refine keeps_fields ?_)

theorem doQuietEntryEnd_keeps {a s : State} (h : Keeps a s) : Keeps a (doQuietEntryEnd s) := by
  unfold doQuietEntryEnd
  split
  · split
    · dsimp only
      apply each_keeps
      · intro j s hs
        split
        · exact complete_keeps hs
        · exact hs
      · apply powerUp_keeps
        apply reloadEngines_keeps
        simp only [keeps_mk]
        exact keeps_fields h
    · have h1 : Keeps a ({ s with sys := { s.sys with quiet := .asleep } }.setMode .quiet) := by
        apply setMode_keeps (by intro _ e; cases e)
        simp only [keeps_mk]
        exact keeps_fields h
      dsimp only
      split
      · exact h1
      · exact beginWake_keeps h1
  · exact h

theorem doRailFault_keeps {a : State} {x0 : Nat} {x1 : State}
    (h1 : Keeps a x1) :
    Keeps a (doRailFault x0 x1) := by
  unfold doRailFault
  try dsimp only
  repeat' first
    | with_reducible assumption
    | with_reducible apply enterFailed_keeps
    | with_reducible apply foldl_keeps
    | (intro y s hs; try dsimp only)
    | (intro s hs; try dsimp only)
    | split
    | (simp only [keeps_mk]; with_reducible refine keeps_fields ?_)

theorem doResetAssert_keeps {a : State} {x0 : Nat} {x1 : State}
    (h1 : Keeps a x1) :
    Keeps a (doResetAssert x0 x1) := by
  unfold doResetAssert
  try dsimp only
  repeat' first
    | with_reducible assumption
    | with_reducible apply resetWith_keeps
    | with_reducible apply foldl_keeps
    | (intro y s hs; try dsimp only)
    | (intro s hs; try dsimp only)
    | split
    | (simp only [keeps_mk]; with_reducible refine keeps_fields ?_)

theorem doResetDeassert_keeps {a : State} {x0 : State}
    (h0 : Keeps a x0) :
    Keeps a (doResetDeassert x0) := by
  unfold doResetDeassert
  try dsimp only
  repeat' first
    | with_reducible assumption
    | with_reducible apply foldl_keeps
    | (intro y s hs; try dsimp only)
    | (intro s hs; try dsimp only)
    | split
    | (simp only [keeps_mk]; with_reducible refine keeps_fields ?_)

theorem doSelfTestEnd_keeps {a : State} {x0 : State}
    (h0 : Keeps a x0) :
    Keeps a (doSelfTestEnd x0) := by
  unfold doSelfTestEnd
  try dsimp only
  repeat' first
    | with_reducible assumption
    | with_reducible apply each_keeps
    | with_reducible apply doRoundStart_keeps
    | with_reducible apply toStage_keeps
    | with_reducible apply foldl_keeps
    | (intro y s hs; try dsimp only)
    | (intro s hs; try dsimp only)
    | split
    | (simp only [keeps_mk]; with_reducible refine keeps_fields ?_)

theorem doStartupComplete_keeps {a : State} {x0 : State}
    (h0 : Keeps a x0) :
    Keeps a (doStartupComplete x0) := by
  unfold doStartupComplete
  try dsimp only
  repeat' first
    | with_reducible assumption
    | with_reducible apply toStage_keeps
    | with_reducible apply foldl_keeps
    | (intro y s hs; try dsimp only)
    | (intro s hs; try dsimp only)
    | split
    | (simp only [keeps_mk]; with_reducible refine keeps_fields ?_)

theorem doThermal_keeps {a : State} {x0 : Int} {x1 : State}
    (h1 : Keeps a x1) :
    Keeps a (doThermal x0 x1) := by
  unfold doThermal
  try dsimp only
  repeat' first
    | with_reducible assumption
    | with_reducible apply doTamperAlarm_keeps
    | with_reducible apply doTamperInactive_keeps
    | with_reducible apply fire_keeps
    | with_reducible apply enterFailed_keeps
    | with_reducible apply foldl_keeps
    | (intro y s hs; try dsimp only)
    | (intro s hs; try dsimp only)
    | split
    | (simp only [keeps_mk]; with_reducible refine keeps_fields ?_)

theorem endWakeJob_keeps {a : State} {x0 : Job} {x1 : State}
    (h1 : Keeps a x1) :
    Keeps a (endWakeJob x0 x1) := by
  unfold endWakeJob
  try dsimp only
  repeat' first
    | with_reducible assumption
    | with_reducible apply complete_keeps
    | with_reducible apply foldl_keeps
    | (intro y s hs; try dsimp only)
    | (intro s hs; try dsimp only)
    | split
    | (simp only [keeps_mk]; with_reducible refine keeps_fields ?_)

theorem doWakeEnd_keeps {a s : State} (h : Keeps a s) : Keeps a (doWakeEnd s) := by
  unfold doWakeEnd
  split
  · dsimp only
    have h1 : Keeps a ({ s with sys := { s.sys with quiet := .awake, wakeLatch := Nat.land s.sys.wakeLatch 20 } }.setMode s.sys.modeBefore) := by
      apply setMode_keeps
      · intro y e
        exact absurd e (h.1 y).2.2.1.2
      · simp only [keeps_mk]
        exact keeps_fields h
    apply each_keeps
    · intro j s hs
      exact endWakeJob_keeps hs
    · exact powerUp_keeps h1
  · exact h

theorem planOf_keeps {a : State} {x0 : Ctx} {x1 : Nat} {x2 : Sys2Proof.Params} {x3 : State}
    (h3 : Keeps a x3) :
    Keeps a (planOf x0 x1 x2 x3) := by
  unfold planOf
  try dsimp only
  repeat' first
    | with_reducible assumption
    | with_reducible apply planTake_keeps
    | with_reducible apply planPresetRecall_keeps
    | with_reducible apply planKernelBind_keeps
    | with_reducible apply planEngineMigrate_keeps
    | with_reducible apply planLayerSet_keeps
    | with_reducible apply planLayerFlip_keeps
    | with_reducible apply planStaticSet_keeps
    | with_reducible apply planAudioEmbed_keeps
    | with_reducible apply foldl_keeps
    | (intro y s hs; try dsimp only)
    | (intro s hs; try dsimp only)
    | split
    | (simp only [keeps_mk]; with_reducible refine keeps_fields ?_)

theorem startBarrier_keeps {a : State} {x0 : Ctx} {x1 : Sys2Proof.BarrierP} {x2 : State}
    (h2 : Keeps a x2) :
    AnsKeeps a (startBarrier x0 x1 x2) := by
  unfold startBarrier
  try dsimp only
  repeat' first
    | with_reducible assumption
    | with_reducible apply orAns_keeps
    | exact ans_fail
    | with_reducible apply ans_done
    | with_reducible apply ans_result
    | with_reducible apply ans_later
    | with_reducible apply ans_silent
    | with_reducible apply foldl_keeps
    | (intro y s hs; try dsimp only)
    | (intro s hs; try dsimp only)
    | split
    | (simp only [keeps_mk]; with_reducible refine keeps_fields ?_)

theorem releaseOf_keeps {a : State} {x0 : Job} {x1 : State}
    (h1 : Keeps a x1) :
    Keeps a (releaseOf x0 x1) := by
  unfold releaseOf
  try dsimp only
  repeat' first
    | with_reducible assumption
    | with_reducible apply releaseTake_keeps
    | with_reducible apply releaseKernelBind_keeps
    | with_reducible apply releaseMigrate_keeps
    | with_reducible apply releaseLayerSet_keeps
    | with_reducible apply releaseStaticSet_keeps
    | with_reducible apply releaseAudioEmbed_keeps
    | with_reducible apply foldl_keeps
    | (intro y s hs; try dsimp only)
    | (intro s hs; try dsimp only)
    | split
    | (simp only [keeps_mk]; with_reducible refine keeps_fields ?_)

theorem startBundleRate_keeps {a s : State} {p : BundleSetP} (h : Keeps a s) : AnsKeeps a (startBundleRate p s) := by
  have h0 := startBundleSet_keeps (x0 := p) h
  unfold startBundleRate
  split
  next s1 he =>
    have h1 : Keeps a s1 := ans_of_done h0 he
    apply ans_done
    split
    · exact startRound_keeps h1
    · exact h1
  · exact h0

theorem startOf_keeps {a : State} {x0 : Ctx} {x1 : Sys2Proof.Params} {x2 : State}
    (h2 : Keeps a x2) :
    AnsKeeps a (startOf x0 x1 x2) := by
  unfold startOf
  try dsimp only
  repeat' first
    | with_reducible assumption
    | with_reducible apply startIdentify_keeps
    | with_reducible apply startCaps_keeps
    | with_reducible apply startSysMode_keeps
    | with_reducible apply startBarrier_keeps
    | with_reducible apply startRestart_keeps
    | with_reducible apply commandReset_keeps
    | with_reducible apply startWakeSet_keeps
    | with_reducible apply startFaultRead_keeps
    | with_reducible apply startRasterSet_keeps
    | with_reducible apply startRasterQuery_keeps
    | with_reducible apply startStcSet_keeps
    | with_reducible apply startStcRead_keeps
    | with_reducible apply startSchedCancel_keeps
    | with_reducible apply releaseOf_keeps
    | with_reducible apply startBundleRate_keeps
    | with_reducible apply startBundleStatus_keeps
    | with_reducible apply startLaneTrain_keeps
    | with_reducible apply startBundleSleep_keeps
    | with_reducible apply startBundleWake_keeps
    | with_reducible apply startLoopback_keeps
    | with_reducible apply startPrbs_keeps
    | with_reducible apply startStreamSet_keeps
    | with_reducible apply startRouteTake_keeps
    | with_reducible apply startRouteQuery_keeps
    | with_reducible apply startLossSet_keeps
    | with_reducible apply startPresetStore_keeps
    | with_reducible apply startPresetRecall_keeps
    | with_reducible apply startPresetColdstart_keeps
    | with_reducible apply startBufCreate_keeps
    | with_reducible apply startBufDestroy_keeps
    | with_reducible apply startBufQuery_keeps
    | with_reducible apply startBufXfer_keeps
    | with_reducible apply startCaptureBind_keeps
    | with_reducible apply startPlayoutBind_keeps
    | with_reducible apply startWeirQuery_keeps
    | with_reducible apply startKernelBind_keeps
    | with_reducible apply startKernelUpdate_keeps
    | with_reducible apply startKernelUnbind_keeps
    | with_reducible apply startEngineReserve_keeps
    | with_reducible apply startEngineMigrate_keeps
    | with_reducible apply startEngineQuery_keeps
    | with_reducible apply startLayerSet_keeps
    | with_reducible apply startLayerFlip_keeps
    | with_reducible apply startLayerQuery_keeps
    | with_reducible apply startCompSet_keeps
    | with_reducible apply startFenceBind_keeps
    | with_reducible apply startFenceSignal_keeps
    | with_reducible apply startFenceQuery_keeps
    | with_reducible apply startGroupSet_keeps
    | with_reducible apply startStaticSet_keeps
    | with_reducible apply startAudioRoute_keeps
    | with_reducible apply startAudioEmbed_keeps
    | with_reducible apply startAsrcBind_keeps
    | with_reducible apply startAportSet_keeps
    | with_reducible apply startAportMask_keeps
    | with_reducible apply startAudioRingBind_keeps
    | with_reducible apply startAudioQuery_keeps
    | with_reducible apply startRefSet_keeps
    | with_reducible apply startSynthSet_keeps
    | with_reducible apply startBandTable_keeps
    | with_reducible apply startClkoutSet_keeps
    | with_reducible apply startClkoutSync_keeps
    | with_reducible apply startClockStatus_keeps
    | with_reducible apply startPairSet_keeps
    | with_reducible apply startResync_keeps
    | with_reducible apply startTransfer_keeps
    | with_reducible apply startPairStatus_keeps
    | with_reducible apply startKeyWrite_keeps
    | with_reducible apply startKeyDerive_keeps
    | with_reducible apply startKeyInvalidate_keeps
    | with_reducible apply startKeyQuery_keeps
    | with_reducible apply startQueueAuth_keeps
    | with_reducible apply startLaneCrypt_keeps
    | with_reducible apply startAttest_keeps
    | with_reducible apply startTamperSet_keeps
    | with_reducible apply startTamperStatus_keeps
    | with_reducible apply startNvRead_keeps
    | with_reducible apply startNvWrite_keeps
    | with_reducible apply startNvProtect_keeps
    | with_reducible apply startNvCounter_keeps
    | with_reducible apply startAuditRead_keeps
    | with_reducible apply startCounterRead_keeps
    | with_reducible apply startSnapshot_keeps
    | with_reducible apply startMonitorSet_keeps
    | with_reducible apply startMonitorRead_keeps
    | with_reducible apply startEventRoute_keeps
    | with_reducible apply startGpioSet_keeps
    | with_reducible apply startGpioEdge_keeps
    | with_reducible apply startGpioRead_keeps
    | with_reducible apply startCpbLoad_keeps
    | with_reducible apply startCpbCtrl_keeps
    | with_reducible apply orAns_keeps
    | exact ans_fail
    | with_reducible apply ans_done
    | with_reducible apply ans_result
    | with_reducible apply ans_later
    | with_reducible apply ans_silent
    | with_reducible apply foldl_keeps
    | (intro y s hs; try dsimp only)
    | (intro s hs; try dsimp only)
    | split
    | (simp only [keeps_mk]; with_reducible refine keeps_fields ?_)

theorem applyOf_keeps {a : State} {x0 : Job} {x1 : State}
    (h1 : Keeps a x1) :
    Keeps a (applyOf x0 x1) := by
  unfold applyOf
  try dsimp only
  repeat' first
    | with_reducible assumption
    | with_reducible apply applySysMode_keeps
    | with_reducible apply applyHandover_keeps
    | with_reducible apply applyRasterSet_keeps
    | with_reducible apply applyStcSet_keeps
    | with_reducible apply applyStreamSet_keeps
    | with_reducible apply releaseOf_keeps
    | with_reducible apply applyRouteTake_keeps
    | with_reducible apply applyLossSet_keeps
    | with_reducible apply applyPresetStore_keeps
    | with_reducible apply applyPresetRecall_keeps
    | with_reducible apply applyKernelBind_keeps
    | with_reducible apply applyLayerSet_keeps
    | with_reducible apply applyLayerFlip_keeps
    | with_reducible apply applyCompSet_keeps
    | with_reducible apply applyFenceSignal_keeps
    | with_reducible apply applyStaticSet_keeps
    | with_reducible apply applyAudioRoute_keeps
    | with_reducible apply applyAudioEmbed_keeps
    | with_reducible apply applyAportMask_keeps
    | with_reducible apply applyClkoutSet_keeps
    | with_reducible apply applyClkoutSync_keeps
    | with_reducible apply applyLaneCrypt_keeps
    | with_reducible apply applyGpioEdge_keeps
    | with_reducible apply foldl_keeps
    | (intro y s hs; try dsimp only)
    | (intro s hs; try dsimp only)
    | split
    | (simp only [keeps_mk]; with_reducible refine keeps_fields ?_)

theorem doGranule_keeps {a : State} {x0 : Sys2Proof.GranuleSig} {x1 : State}
    (h1 : Keeps a x1) :
    Keeps a (doGranule x0 x1) := by
  unfold doGranule
  try dsimp only
  repeat' first
    | with_reducible assumption
    | with_reducible apply signGranule_keeps
    | with_reducible apply foldl_keeps
    | (intro y s hs; try dsimp only)
    | (intro s hs; try dsimp only)
    | split
    | (simp only [keeps_mk]; with_reducible refine keeps_fields ?_)

end Sys2Proof.Laws
end

