-- ==== Sys2Proof/Laws/Keeps/Rows.lean ====
section
/-! SUPPORT. What the operations of Machine/Queues.lean, Timing.lean, Registers.lean and Events.lean keep: one lemma per operation (see Laws/Keeps.lean). -/

namespace Sys2Proof.Laws

open Sys2Proof.Machine

theorem finish_keeps {a : State} {x0 : State} {x1 : Job} {x2 : Nat} {x3 : Nat} {x4 : Option Nat}
    (h0 : Keeps a x0) :
    Keeps a (State.finish x0 x1 x2 x3 x4) := by
  unfold State.finish
  try dsimp only
  repeat' first
    | with_reducible assumption
    | with_reducible apply complete_keeps
    | with_reducible apply foldl_keeps
    | (intro y s hs; try dsimp only)
    | (intro s hs; try dsimp only)
    | split
    | (simp only [keeps_mk]; with_reducible refine keeps_fields ?_)

theorem countRefusal_keeps {a : State} {x0 : State} {x1 : Sys2Proof.Params} {x2 : Nat}
    (h0 : Keeps a x0) :
    Keeps a (State.countRefusal x0 x1 x2) := by
  unfold State.countRefusal
  try dsimp only
  repeat' first
    | with_reducible assumption
    | with_reducible apply count_keeps
    | with_reducible apply foldl_keeps
    | (intro y s hs; try dsimp only)
    | (intro s hs; try dsimp only)
    | split
    | (simp only [keeps_mk]; with_reducible refine keeps_fields ?_)

theorem refuse_keeps {a : State} {x0 : State} {x1 : Job} {x2 : Nat × Nat}
    (h0 : Keeps a x0) :
    Keeps a (State.refuse x0 x1 x2) := by
  unfold State.refuse
  try dsimp only
  repeat' first
    | with_reducible assumption
    | with_reducible apply finish_keeps
    | with_reducible apply countRefusal_keeps
    | with_reducible apply foldl_keeps
    | (intro y s hs; try dsimp only)
    | (intro s hs; try dsimp only)
    | split
    | (simp only [keeps_mk]; with_reducible refine keeps_fields ?_)

theorem afterAdd_keeps {a : State} {x0 : Job} {x1 : State}
    (h1 : Keeps a x1) :
    Keeps a (afterAdd x0 x1) := by
  unfold afterAdd
  try dsimp only
  repeat' first
    | with_reducible assumption
    | with_reducible apply dueTake_keeps
    | with_reducible apply applyPresetRecall_keeps
    | with_reducible apply foldl_keeps
    | (intro y s hs; try dsimp only)
    | (intro s hs; try dsimp only)
    | split
    | (simp only [keeps_mk]; with_reducible refine keeps_fields ?_)

theorem early_keeps {a : State} {x0 : State} {x1 : Job} {x2 : Nat}
    (h0 : Keeps a x0) :
    Keeps a (State.early x0 x1 x2) := by
  unfold State.early
  try dsimp only
  repeat' first
    | with_reducible assumption
    | with_reducible apply post_keeps
    | with_reducible apply foldl_keeps
    | (intro y s hs; try dsimp only)
    | (intro s hs; try dsimp only)
    | split
    | (simp only [keeps_mk]; with_reducible refine keeps_fields ?_)

theorem answer_keeps {a s : State} {b : Job} {x : Ans} (hx : AnsKeeps a x) (h : Keeps a s) : Keeps a (s.answer b x) := by
  unfold State.answer
  split
  · exact refuse_keeps h
  · split
    · exact finish_keeps hx
    · exact finish_keeps hx
    · exact afterAdd_keeps (addJob_keeps (early_keeps hx))
    · exact hx
    · exact h

theorem reside_keeps {a : State} {x0 : State} {x1 : Job} {x2 : Nat}
    (h0 : Keeps a x0) :
    Keeps a (State.reside x0 x1 x2) := by
  unfold State.reside
  try dsimp only
  repeat' first
    | with_reducible assumption
    | with_reducible apply planOf_keeps
    | with_reducible apply addJob_keeps
    | with_reducible apply early_keeps
    | with_reducible apply markDone_keeps
    | with_reducible apply foldl_keeps
    | (intro y s hs; try dsimp only)
    | (intro s hs; try dsimp only)
    | split
    | (simp only [keeps_mk]; with_reducible refine keeps_fields ?_)

theorem forwardedAns_keeps {a : State} {x0 : State} {x1 : Sys2Proof.CmdBody} {x2 : Job}
    (h0 : Keeps a x0) :
    AnsKeeps a (State.forwardedAns x0 x1 x2) := by
  unfold State.forwardedAns
  try dsimp only
  repeat' first
    | with_reducible assumption
    | with_reducible apply startBufCreateAt_keeps
    | with_reducible apply startOf_keeps
    | with_reducible apply orAns_keeps
    | exact ans_fail
    | with_reducible apply ans_done
    | with_reducible apply ans_result
    | with_reducible apply ans_later
    | with_reducible apply ans_silent
    | with_reducible apply foldl_keeps
    | (intro y s hs; try dsimp only)
    | (intro s hs; try dsimp only)
    | split
    | (simp only [keeps_mk]; with_reducible refine keeps_fields ?_)

theorem snapItem_keeps {a : State} {x0 : Sys2Proof.CmdBody} {x1 : State}
    (h1 : Keeps a x1) :
    Keeps a (State.snapItem x0 x1) := by
  unfold State.snapItem
  try dsimp only
  repeat' first
    | with_reducible assumption
    | with_reducible apply reside_keeps
    | with_reducible apply forwardedAns_keeps
    | with_reducible apply answer_keeps
    | with_reducible apply each_keeps
    | with_reducible apply applyOf_keeps
    | with_reducible apply setEngine_keeps
    | with_reducible apply foldl_keeps
    | (intro y s hs; try dsimp only)
    | (intro s hs; try dsimp only)
    | split
    | (simp only [keeps_mk]; with_reducible refine keeps_fields ?_)

theorem mateCmd_keeps {a : State} {x0 : State} {x1 : Sys2Proof.CmdBody}
    (h0 : Keeps a x0) :
    Keeps a (State.mateCmd x0 x1) := by
  unfold State.mateCmd
  try dsimp only
  repeat' first
    | with_reducible assumption
    | with_reducible apply count_keeps
    | with_reducible apply emit_keeps
    | with_reducible apply reside_keeps
    | with_reducible apply forwardedAns_keeps
    | with_reducible apply addJob_keeps
    | with_reducible apply foldl_keeps
    | (intro y s hs; try dsimp only)
    | (intro s hs; try dsimp only)
    | split
    | (simp only [keeps_mk]; with_reducible refine keeps_fields ?_)

theorem applySnapshot_keeps {a : State} {x0 : State}
    (h0 : Keeps a x0) :
    Keeps a (State.applySnapshot x0) := by
  unfold State.applySnapshot
  try dsimp only
  repeat' first
    | with_reducible assumption
    | with_reducible apply setPair_keeps
    | with_reducible apply each_keeps
    | with_reducible apply snapItem_keeps
    | with_reducible apply fire_keeps
    | with_reducible apply beginResync_keeps
    | with_reducible apply mateCmd_keeps
    | with_reducible apply foldl_keeps
    | (intro y s hs; try dsimp only)
    | (intro s hs; try dsimp only)
    | split
    | (simp only [keeps_mk]; with_reducible refine keeps_fields ?_)

theorem takeOver_keeps {a s : State} {j : Job} (h : Keeps a s) : Keeps a (s.takeOver j) := by
  unfold State.takeOver
  dsimp only
  apply goOn_keeps
  apply fire_keeps
  simp only [keeps_mk]
  exact keeps_fields_jobs jobs_filter h

theorem execute_keeps {a s : State} {j : Job} (h : Keeps a s) : Keeps a (s.execute j) := by
  have h1 : Keeps a { s with jobs := s.jobs.filter fun x => x.id != j.id } := by
    simp only [keeps_mk]
    exact keeps_fields_jobs jobs_filter h
  unfold State.execute
  dsimp only
  split
  · exact answer_keeps (startBufCreateAt_keeps h1) h1
  · exact answer_keeps (startOf_keeps h1) h1

theorem queueError_keeps {a : State} {x0 : State} {x1 : Nat} {x2 : Nat}
    (h0 : Keeps a x0) :
    Keeps a (State.queueError x0 x1 x2) := by
  unfold State.queueError
  try dsimp only
  repeat' first
    | with_reducible assumption
    | with_reducible apply fire_keeps
    | with_reducible apply setQueue_keeps
    | with_reducible apply foldl_keeps
    | (intro y s hs; try dsimp only)
    | (intro s hs; try dsimp only)
    | split
    | (simp only [keeps_mk]; with_reducible refine keeps_fields ?_)

theorem malformed_keeps {a : State} {x0 : State} {x1 : Nat} {x2 : Sys2Proof.Hdr}
    (h0 : Keeps a x0) :
    Keeps a (State.malformed x0 x1 x2) := by
  unfold State.malformed
  try dsimp only
  repeat' first
    | with_reducible assumption
    | with_reducible apply queueError_keeps
    | with_reducible apply foldl_keeps
    | (intro y s hs; try dsimp only)
    | (intro s hs; try dsimp only)
    | split
    | (simp only [keeps_mk]; with_reducible refine keeps_fields ?_)

theorem noteSeq_keeps {a : State} {x0 : State} {x1 : Nat} {x2 : Sys2Proof.Hdr}
    (h0 : Keeps a x0) :
    Keeps a (State.noteSeq x0 x1 x2) := by
  unfold State.noteSeq
  try dsimp only
  repeat' first
    | with_reducible assumption
    | with_reducible apply setQueue_keeps
    | with_reducible apply foldl_keeps
    | (intro y s hs; try dsimp only)
    | (intro s hs; try dsimp only)
    | split
    | (simp only [keeps_mk]; with_reducible refine keeps_fields ?_)

theorem forward_keeps {a : State} {x0 : State} {x1 : Job} {x2 : Nat} {x3 : Nat} {x4 : Nat} {x5 : List Nat}
    (h0 : Keeps a x0) :
    Keeps a (State.forward x0 x1 x2 x3 x4 x5) := by
  unfold State.forward
  try dsimp only
  repeat' first
    | with_reducible assumption
    | with_reducible apply emit_keeps
    | with_reducible apply count_keeps
    | with_reducible apply foldl_keeps
    | (intro y s hs; try dsimp only)
    | (intro s hs; try dsimp only)
    | split
    | (simp only [keeps_mk]; with_reducible refine keeps_fields ?_)

theorem lead_keeps {a : State} {x0 : State} {x1 : Job}
    (h0 : Keeps a x0) :
    Keeps a (State.lead x0 x1) := by
  unfold State.lead
  try dsimp only
  repeat' first
    | with_reducible assumption
    | with_reducible apply refuse_keeps
    | with_reducible apply forward_keeps
    | with_reducible apply reside_keeps
    | with_reducible apply startOf_keeps
    | with_reducible apply addJob_keeps
    | with_reducible apply early_keeps
    | with_reducible apply foldl_keeps
    | (intro y s hs; try dsimp only)
    | (intro s hs; try dsimp only)
    | split
    | (simp only [keeps_mk]; with_reducible refine keeps_fields ?_)

theorem schedule_keeps {a : State} {x0 : State} {x1 : Job}
    (h0 : Keeps a x0) :
    Keeps a (State.schedule x0 x1) := by
  unfold State.schedule
  try dsimp only
  repeat' first
    | with_reducible assumption
    | with_reducible apply refuse_keeps
    | with_reducible apply reside_keeps
    | with_reducible apply foldl_keeps
    | (intro y s hs; try dsimp only)
    | (intro s hs; try dsimp only)
    | split
    | (simp only [keeps_mk]; with_reducible refine keeps_fields ?_)

theorem run_keeps {a : State} {x0 : State} {x1 : Job}
    (h0 : Keeps a x0) :
    Keeps a (State.run x0 x1) := by
  unfold State.run
  try dsimp only
  repeat' first
    | with_reducible assumption
    | with_reducible apply lead_keeps
    | with_reducible apply schedule_keeps
    | with_reducible apply answer_keeps
    | with_reducible apply startOf_keeps
    | with_reducible apply foldl_keeps
    | (intro y s hs; try dsimp only)
    | (intro s hs; try dsimp only)
    | split
    | (simp only [keeps_mk]; with_reducible refine keeps_fields ?_)

theorem runPacket_keeps {a : State} {x0 : State} {x1 : Nat} {x2 : Sys2Proof.Packet}
    (h0 : Keeps a x0) :
    Keeps a (State.runPacket x0 x1 x2) := by
  unfold State.runPacket
  try dsimp only
  repeat' first
    | with_reducible assumption
    | with_reducible apply refuse_keeps
    | with_reducible apply malformed_keeps
    | with_reducible apply noteSeq_keeps
    | with_reducible apply run_keeps
    | with_reducible apply foldl_keeps
    | (intro y s hs; try dsimp only)
    | (intro s hs; try dsimp only)
    | split
    | (simp only [keeps_mk]; with_reducible refine keeps_fields ?_)

theorem fetchSpi_keeps {a : State} {x0 : State}
    (h0 : Keeps a x0) :
    Keeps a (State.fetchSpi x0) := by
  unfold State.fetchSpi
  try dsimp only
  repeat' first
    | with_reducible assumption
    | with_reducible apply runPacket_keeps
    | with_reducible apply foldl_keeps
    | (intro y s hs; try dsimp only)
    | (intro s hs; try dsimp only)
    | split
    | (simp only [keeps_mk]; with_reducible refine keeps_fields ?_)

theorem fetchOne_keeps {a : State} {x0 : State} {x1 : Nat}
    (h0 : Keeps a x0) :
    Keeps a (State.fetchOne x0 x1) := by
  unfold State.fetchOne
  try dsimp only
  repeat' first
    | with_reducible assumption
    | with_reducible apply fetchSpi_keeps
    | with_reducible apply setQueue_keeps
    | with_reducible apply runPacket_keeps
    | with_reducible apply foldl_keeps
    | (intro y s hs; try dsimp only)
    | (intro s hs; try dsimp only)
    | split
    | (simp only [keeps_mk]; with_reducible refine keeps_fields ?_)

theorem place_keeps {a : State} {x0 : State} {x1 : Nat} {x2 : Sys2Proof.Packet}
    (h0 : Keeps a x0) :
    Keeps a (State.place x0 x1 x2) := by
  unfold State.place
  try dsimp only
  repeat' first
    | with_reducible assumption
    | with_reducible apply setQueue_keeps
    | with_reducible apply foldl_keeps
    | (intro y s hs; try dsimp only)
    | (intro s hs; try dsimp only)
    | split
    | (simp only [keeps_mk]; with_reducible refine keeps_fields ?_)

theorem takeSpi_keeps {a : State} {x0 : State} {x1 : Sys2Proof.Packet} {x2 : Nat} {x3 : Bool}
    (h0 : Keeps a x0) :
    Keeps a (State.takeSpi x0 x1 x2 x3) := by
  unfold State.takeSpi
  try dsimp only
  repeat' first
    | with_reducible assumption
    | with_reducible apply fetchSpi_keeps
    | with_reducible apply foldl_keeps
    | (intro y s hs; try dsimp only)
    | (intro s hs; try dsimp only)
    | split
    | (simp only [keeps_mk]; with_reducible refine keeps_fields ?_)

theorem submitted_keeps {a : State} {x0 : State} {x1 : Sys2Proof.Params} {x2 : Sys2Proof.Hdr}
    (h0 : Keeps a x0) :
    Keeps a (State.submitted x0 x1 x2) := by
  unfold State.submitted
  try dsimp only
  repeat' first
    | with_reducible assumption
    | with_reducible apply takeSpi_keeps
    | with_reducible apply place_keeps
    | with_reducible apply fetchOne_keeps
    | with_reducible apply foldl_keeps
    | (intro y s hs; try dsimp only)
    | (intro s hs; try dsimp only)
    | split
    | (simp only [keeps_mk]; with_reducible refine keeps_fields ?_)

theorem unmasked_keeps {a : State} {x0 : State}
    (h0 : Keeps a x0) :
    Keeps a (State.unmasked x0) := by
  unfold State.unmasked
  try dsimp only
  repeat' first
    | with_reducible assumption
    | with_reducible apply each_keeps
    | with_reducible apply msixSend_keeps
    | with_reducible apply foldl_keeps
    | (intro y s hs; try dsimp only)
    | (intro s hs; try dsimp only)
    | split
    | (simp only [keeps_mk]; with_reducible refine keeps_fields ?_)

theorem withdrawn_keeps {a : State} {x0 : State} {x1 : Job}
    (h0 : Keeps a x0) :
    Keeps a (State.withdrawn x0 x1) := by
  unfold State.withdrawn
  try dsimp only
  repeat' first
    | with_reducible assumption
    | with_reducible apply releaseOf_keeps
    | with_reducible apply foldl_keeps
    | (intro y s hs; try dsimp only)
    | (intro s hs; try dsimp only)
    | split
    | (simp only [keeps_mk]; with_reducible refine keeps_fields ?_)

theorem cpbWrite_keeps {a : State} {x0 : Nat} {x1 : Nat} {x2 : State}
    (h2 : Keeps a x2) :
    Keeps a (cpbWrite x0 x1 x2) := by
  unfold cpbWrite
  try dsimp only
  repeat' first
    | with_reducible assumption
    | with_reducible apply setQueue_keeps
    | with_reducible apply foldl_keeps
    | (intro y s hs; try dsimp only)
    | (intro s hs; try dsimp only)
    | split
    | (simp only [keeps_mk]; with_reducible refine keeps_fields ?_)

theorem doBarrierRelease_keeps {a : State} {x0 : Nat} {x1 : State}
    (h1 : Keeps a x1) :
    Keeps a (doBarrierRelease x0 x1) := by
  unfold doBarrierRelease
  try dsimp only
  repeat' first
    | with_reducible assumption
    | with_reducible apply complete_keeps
    | with_reducible apply foldl_keeps
    | (intro y s hs; try dsimp only)
    | (intro s hs; try dsimp only)
    | split
    | (simp only [keeps_mk]; with_reducible refine keeps_fields ?_)

theorem doBarrierTimeout_keeps {a : State} {x0 : Nat} {x1 : State}
    (h1 : Keeps a x1) :
    Keeps a (doBarrierTimeout x0 x1) := by
  unfold doBarrierTimeout
  try dsimp only
  repeat' first
    | with_reducible assumption
    | with_reducible apply complete_keeps
    | with_reducible apply queueError_keeps
    | with_reducible apply foldl_keeps
    | (intro y s hs; try dsimp only)
    | (intro s hs; try dsimp only)
    | split
    | (simp only [keeps_mk]; with_reducible refine keeps_fields ?_)

theorem doCmd_keeps {a : State} {x0 : Sys2Proof.CmdBody} {x1 : State}
    (h1 : Keeps a x1) :
    Keeps a (doCmd x0 x1) := by
  unfold doCmd
  try dsimp only
  repeat' first
    | with_reducible assumption
    | with_reducible apply setPair_keeps
    | with_reducible apply mateCmd_keeps
    | with_reducible apply foldl_keeps
    | (intro y s hs; try dsimp only)
    | (intro s hs; try dsimp only)
    | split
    | (simp only [keeps_mk]; with_reducible refine keeps_fields ?_)

theorem doCommit_keeps {a s : State} {r : Nat} {c : Bool} (h : Keeps a s) : Keeps a (doCommit r c s) := by
  unfold doCommit
  repeat' first
    | with_reducible assumption
    | with_reducible apply setJob_keeps
    | split
  dsimp only
  simp only [keeps_mk]
  exact keeps_fields_jobs jobs_filter (withdrawn_keeps h)

theorem doCommitPoint_keeps {a : State} {x0 : Nat} {x1 : State}
    (h1 : Keeps a x1) :
    Keeps a (doCommitPoint x0 x1) := by
  unfold doCommitPoint
  try dsimp only
  repeat' first
    | with_reducible assumption
    | with_reducible apply emit_keeps
    | with_reducible apply setJob_keeps
    | with_reducible apply complete_keeps
    | with_reducible apply withdrawn_keeps
    | with_reducible apply foldl_keeps
    | (intro y s hs; try dsimp only)
    | (intro s hs; try dsimp only)
    | split
    | (simp only [keeps_mk]; with_reducible refine keeps_fields ?_)

theorem doCqHead_keeps {a : State} {x0 : Nat} {x1 : Nat} {x2 : State}
    (h2 : Keeps a x2) :
    Keeps a (doCqHead x0 x1 x2) := by
  unfold doCqHead
  try dsimp only
  repeat' first
    | with_reducible assumption
    | with_reducible apply setQueue_keeps
    | with_reducible apply flushReplies_keeps
    | with_reducible apply foldl_keeps
    | (intro y s hs; try dsimp only)
    | (intro s hs; try dsimp only)
    | split
    | (simp only [keeps_mk]; with_reducible refine keeps_fields ?_)

theorem doHandover_keeps {a : State} {x0 : Nat} {x1 : Nat} {x2 : Nat} {x3 : Nat} {x4 : State}
    (h4 : Keeps a x4) :
    Keeps a (doHandover x0 x1 x2 x3 x4) := by
  unfold doHandover
  try dsimp only
  repeat' first
    | with_reducible assumption
    | with_reducible apply addJob_keeps
    | with_reducible apply foldl_keeps
    | (intro y s hs; try dsimp only)
    | (intro s hs; try dsimp only)
    | split
    | (simp only [keeps_mk]; with_reducible refine keeps_fields ?_)

theorem doQueueDisable_keeps {a : State} {x0 : Nat} {x1 : Bool} {x2 : Nat} {x3 : State}
    (h3 : Keeps a x3) :
    Keeps a (doQueueDisable x0 x1 x2 x3) := by
  unfold doQueueDisable
  try dsimp only
  repeat' first
    | with_reducible assumption
    | with_reducible apply disableQueue_keeps
    | with_reducible apply setQueue_keeps
    | with_reducible apply foldl_keeps
    | (intro y s hs; try dsimp only)
    | (intro s hs; try dsimp only)
    | split
    | (simp only [keeps_mk]; with_reducible refine keeps_fields ?_)

theorem doQueueEnable_keeps {a : State} {x0 : Nat} {x1 : Bool} {x2 : Nat} {x3 : State}
    (h3 : Keeps a x3) :
    Keeps a (doQueueEnable x0 x1 x2 x3) := by
  unfold doQueueEnable
  try dsimp only
  repeat' first
    | with_reducible assumption
    | with_reducible apply setQueue_keeps
    | with_reducible apply flushReplies_keeps
    | with_reducible apply foldl_keeps
    | (intro y s hs; try dsimp only)
    | (intro s hs; try dsimp only)
    | split
    | (simp only [keeps_mk]; with_reducible refine keeps_fields ?_)

theorem doQueueResume_keeps {a : State} {x0 : Nat} {x1 : State}
    (h1 : Keeps a x1) :
    Keeps a (doQueueResume x0 x1) := by
  unfold doQueueResume
  try dsimp only
  repeat' first
    | with_reducible assumption
    | with_reducible apply setQueue_keeps
    | with_reducible apply foldl_keeps
    | (intro y s hs; try dsimp only)
    | (intro s hs; try dsimp only)
    | split
    | (simp only [keeps_mk]; with_reducible refine keeps_fields ?_)

theorem doReadReply_keeps {a : State} {x0 : Nat} {x1 : State}
    (h1 : Keeps a x1) :
    Keeps a (doReadReply x0 x1) := by
  unfold doReadReply
  try dsimp only
  repeat' first
    | with_reducible assumption
    | with_reducible apply emit_keeps
    | with_reducible apply foldl_keeps
    | (intro y s hs; try dsimp only)
    | (intro s hs; try dsimp only)
    | split
    | (simp only [keeps_mk]; with_reducible refine keeps_fields ?_)

theorem doReadStatus_keeps {a : State} {x0 : State}
    (h0 : Keeps a x0) :
    Keeps a (doReadStatus x0) := by
  unfold doReadStatus
  try dsimp only
  repeat' first
    | with_reducible assumption
    | with_reducible apply emit_keeps
    | with_reducible apply foldl_keeps
    | (intro y s hs; try dsimp only)
    | (intro s hs; try dsimp only)
    | split
    | (simp only [keeps_mk]; with_reducible refine keeps_fields ?_)

theorem hostWrite_keeps {a : State} {x0 : Nat} {x1 : Nat} {x2 : Nat} {x3 : State}
    (h3 : Keeps a x3) :
    Keeps a (hostWrite x0 x1 x2 x3) := by
  unfold hostWrite
  try dsimp only
  repeat' first
    | with_reducible assumption
    | with_reducible apply setQueue_keeps
    | with_reducible apply foldl_keeps
    | (intro y s hs; try dsimp only)
    | (intro s hs; try dsimp only)
    | split
    | (simp only [keeps_mk]; with_reducible refine keeps_fields ?_)

theorem doRegisterWrite_keeps {a : State} {x0 : Bool} {x1 : Nat} {x2 : Nat} {x3 : Nat} {x4 : State}
    (h4 : Keeps a x4) :
    Keeps a (doRegisterWrite x0 x1 x2 x3 x4) := by
  unfold doRegisterWrite
  try dsimp only
  repeat' first
    | with_reducible assumption
    | with_reducible apply cpbWrite_keeps
    | with_reducible apply unmasked_keeps
    | with_reducible apply hostWrite_keeps
    | with_reducible apply foldl_keeps
    | (intro y s hs; try dsimp only)
    | (intro s hs; try dsimp only)
    | split
    | (simp only [keeps_mk]; with_reducible refine keeps_fields ?_)

theorem doSqTail_keeps {a : State} {x0 : Nat} {x1 : Nat} {x2 : List Sys2Proof.Packet} {x3 : State}
    (h3 : Keeps a x3) :
    Keeps a (doSqTail x0 x1 x2 x3) := by
  unfold doSqTail
  try dsimp only
  repeat' first
    | with_reducible assumption
    | with_reducible apply setQueue_keeps
    | with_reducible apply foldl_keeps
    | (intro y s hs; try dsimp only)
    | (intro s hs; try dsimp only)
    | split
    | (simp only [keeps_mk]; with_reducible refine keeps_fields ?_)

theorem doStcLow_keeps {a : State} {x0 : State}
    (h0 : Keeps a x0) :
    Keeps a (doStcLow x0) := by
  unfold doStcLow
  try dsimp only
  repeat' first
    | with_reducible assumption
    | with_reducible apply emit_keeps
    | with_reducible apply foldl_keeps
    | (intro y s hs; try dsimp only)
    | (intro s hs; try dsimp only)
    | split
    | (simp only [keeps_mk]; with_reducible refine keeps_fields ?_)

theorem doVerdict_keeps {a : State} {x0 : Nat} {x1 : Nat} {x2 : State}
    (h2 : Keeps a x2) :
    Keeps a (doVerdict x0 x1 x2) := by
  unfold doVerdict
  try dsimp only
  repeat' first
    | with_reducible assumption
    | with_reducible apply setJob_keeps
    | with_reducible apply foldl_keeps
    | (intro y s hs; try dsimp only)
    | (intro s hs; try dsimp only)
    | split
    | (simp only [keeps_mk]; with_reducible refine keeps_fields ?_)

theorem layerReads_keeps {a : State} {x0 : State} {x1 : Nat} {x2 : Nat}
    (h0 : Keeps a x0) :
    Keeps a (State.layerReads x0 x1 x2) := by
  unfold State.layerReads
  try dsimp only
  repeat' first
    | with_reducible assumption
    | with_reducible apply each_keeps
    | with_reducible apply traffic_keeps
    | with_reducible apply foldl_keeps
    | (intro y s hs; try dsimp only)
    | (intro s hs; try dsimp only)
    | split
    | (simp only [keeps_mk]; with_reducible refine keeps_fields ?_)

theorem activeReads_keeps {a : State} {x0 : State} {x1 : Nat} {x2 : Sys2Proof.RasterDesc} {x3 : Nat}
    (h0 : Keeps a x0) :
    Keeps a (State.activeReads x0 x1 x2 x3) := by
  unfold State.activeReads
  try dsimp only
  repeat' first
    | with_reducible assumption
    | with_reducible apply layerReads_keeps
    | with_reducible apply ringMisses_keeps
    | with_reducible apply foldl_keeps
    | (intro y s hs; try dsimp only)
    | (intro s hs; try dsimp only)
    | split
    | (simp only [keeps_mk]; with_reducible refine keeps_fields ?_)

theorem applyStcWaits_keeps {a : State} {x0 : State}
    (h0 : Keeps a x0) :
    Keeps a (State.applyStcWaits x0) := by
  unfold State.applyStcWaits
  try dsimp only
  repeat' first
    | with_reducible assumption
    | with_reducible apply each_keeps
    | with_reducible apply applyStcSet_keeps
    | with_reducible apply foldl_keeps
    | (intro y s hs; try dsimp only)
    | (intro s hs; try dsimp only)
    | split
    | (simp only [keeps_mk]; with_reducible refine keeps_fields ?_)

theorem decideClass_keeps {a : State} {x0 : State} {x1 : Nat} {x2 : Nat} {x3 : Cls} {x4 : Option Nat} {x5 : Nat}
    (h0 : Keeps a x0) :
    Keeps a (State.decideClass x0 x1 x2 x3 x4 x5) := by
  unfold State.decideClass
  try dsimp only
  repeat' first
    | with_reducible assumption
    | with_reducible apply emit_keeps
    | with_reducible apply setPair_keeps
    | with_reducible apply foldl_keeps
    | (intro y s hs; try dsimp only)
    | (intro s hs; try dsimp only)
    | split
    | (simp only [keeps_mk]; with_reducible refine keeps_fields ?_)

theorem leadClass_keeps {a : State} {x0 : State} {x1 : Nat} {x2 : Nat} {x3 : Int}
    (h0 : Keeps a x0) :
    Keeps a (State.leadClass x0 x1 x2 x3) := by
  unfold State.leadClass
  try dsimp only
  repeat' first
    | with_reducible assumption
    | with_reducible apply seen_keeps
    | with_reducible apply decideClass_keeps
    | with_reducible apply foldl_keeps
    | (intro y s hs; try dsimp only)
    | (intro s hs; try dsimp only)
    | split
    | (simp only [keeps_mk]; with_reducible refine keeps_fields ?_)

theorem armingLine_keeps {a : State} {x0 : State} {x1 : Nat} {x2 : OutRaster}
    (h0 : Keeps a x0) :
    Keeps a (State.armingLine x0 x1 x2) := by
  unfold State.armingLine
  try dsimp only
  repeat' first
    | with_reducible assumption
    | with_reducible apply engage_keeps
    | with_reducible apply leadClass_keeps
    | with_reducible apply foldl_keeps
    | (intro y s hs; try dsimp only)
    | (intro s hs; try dsimp only)
    | split
    | (simp only [keeps_mk]; with_reducible refine keeps_fields ?_)

theorem endSets_keeps {a : State} {x0 : State} {x1 : Nat} {x2 : List (Job × Sys2Proof.RasterSetP)}
    (h0 : Keeps a x0) :
    Keeps a (State.endSets x0 x1 x2) := by
  unfold State.endSets
  try dsimp only
  repeat' first
    | with_reducible assumption
    | with_reducible apply each_keeps
    | with_reducible apply complete_keeps
    | with_reducible apply foldl_keeps
    | (intro y s hs; try dsimp only)
    | (intro s hs; try dsimp only)
    | split
    | (simp only [keeps_mk]; with_reducible refine keeps_fields ?_)

theorem resumeOutput_keeps {a : State} {x0 : State} {x1 : Nat}
    (h0 : Keeps a x0) :
    Keeps a (State.resumeOutput x0 x1) := by
  unfold State.resumeOutput
  try dsimp only
  repeat' first
    | with_reducible assumption
    | with_reducible apply setTxStream_keeps
    | with_reducible apply foldl_keeps
    | (intro y s hs; try dsimp only)
    | (intro s hs; try dsimp only)
    | split
    | (simp only [keeps_mk]; with_reducible refine keeps_fields ?_)

theorem park_keeps {a : State} {x0 : State} {x1 : Job}
    (h0 : Keeps a x0) :
    Keeps a (State.park x0 x1) := by
  unfold State.park
  try dsimp only
  repeat' first
    | with_reducible assumption
    | with_reducible apply setJob_keeps
    | with_reducible apply releaseOf_keeps
    | with_reducible apply foldl_keeps
    | (intro y s hs; try dsimp only)
    | (intro s hs; try dsimp only)
    | split
    | (simp only [keeps_mk]; with_reducible refine keeps_fields ?_)

theorem runJob_keeps {a : State} {x0 : State} {x1 : Nat} {x2 : Nat}
    (h0 : Keeps a x0) :
    Keeps a (State.runJob x0 x1 x2) := by
  unfold State.runJob
  try dsimp only
  repeat' first
    | with_reducible assumption
    | with_reducible apply park_keeps
    | with_reducible apply takeOver_keeps
    | with_reducible apply applyHandover_keeps
    | with_reducible apply execute_keeps
    | with_reducible apply applyOf_keeps
    | with_reducible apply foldl_keeps
    | (intro y s hs; try dsimp only)
    | (intro s hs; try dsimp only)
    | split
    | (simp only [keeps_mk]; with_reducible refine keeps_fields ?_)

theorem runNext_keeps {a s : State} {r : Nat} {f : Job → Bool} {b n : Nat} {l : List Nat} (h : Keeps a s) :
    Keeps a (State.runNext r f b n l s) := by
  induction n generalizing s l with
  | zero => exact h
  | succ n ih =>
    unfold State.runNext
    dsimp only
    split
    · exact h
    · exact ih (runJob_keeps h)

theorem runThese_keeps {a : State} {x0 : State} {x1 : Nat} {x2 : Job → Bool}
    (h0 : Keeps a x0) :
    Keeps a (State.runThese x0 x1 x2) := by
  unfold State.runThese
  try dsimp only
  repeat' first
    | with_reducible assumption
    | with_reducible apply runNext_keeps
    | with_reducible apply foldl_keeps
    | (intro y s hs; try dsimp only)
    | (intro s hs; try dsimp only)
    | split
    | (simp only [keeps_mk]; with_reducible refine keeps_fields ?_)

theorem runStc_keeps {a : State} {x0 : State} {x1 : Nat}
    (h0 : Keeps a x0) :
    Keeps a (State.runStc x0 x1) := by
  unfold State.runStc
  try dsimp only
  repeat' first
    | with_reducible assumption
    | with_reducible apply runThese_keeps
    | with_reducible apply foldl_keeps
    | (intro y s hs; try dsimp only)
    | (intro s hs; try dsimp only)
    | split
    | (simp only [keeps_mk]; with_reducible refine keeps_fields ?_)

theorem runDue_keeps {a : State} {x0 : State} {x1 : Nat}
    (h0 : Keeps a x0) :
    Keeps a (State.runDue x0 x1) := by
  unfold State.runDue
  try dsimp only
  repeat' first
    | with_reducible assumption
    | with_reducible apply runThese_keeps
    | with_reducible apply runStc_keeps
    | with_reducible apply foldl_keeps
    | (intro y s hs; try dsimp only)
    | (intro s hs; try dsimp only)
    | split
    | (simp only [keeps_mk]; with_reducible refine keeps_fields ?_)

theorem runReached_keeps {a : State} {x0 : State} {x1 : Nat}
    (h0 : Keeps a x0) :
    Keeps a (State.runReached x0 x1) := by
  unfold State.runReached
  try dsimp only
  repeat' first
    | with_reducible assumption
    | with_reducible apply each_keeps
    | with_reducible apply runJob_keeps
    | with_reducible apply foldl_keeps
    | (intro y s hs; try dsimp only)
    | (intro s hs; try dsimp only)
    | split
    | (simp only [keeps_mk]; with_reducible refine keeps_fields ?_)

theorem finishSources_keeps {a : State} {x0 : State} {x1 : List Nat}
    (h0 : Keeps a x0) :
    Keeps a (State.finishSources x0 x1) := by
  unfold State.finishSources
  try dsimp only
  repeat' first
    | with_reducible assumption
    | with_reducible apply each_keeps
    | with_reducible apply advanceSource_keeps
    | with_reducible apply foldl_keeps
    | (intro y s hs; try dsimp only)
    | (intro s hs; try dsimp only)
    | split
    | (simp only [keeps_mk]; with_reducible refine keeps_fields ?_)

theorem startSource_keeps {a : State} {x0 : State} {x1 : Nat}
    (h0 : Keeps a x0) :
    Keeps a (State.startSource x0 x1) := by
  unfold State.startSource
  try dsimp only
  repeat' first
    | with_reducible assumption
    | with_reducible apply startLocal_keeps
    | with_reducible apply foldl_keeps
    | (intro y s hs; try dsimp only)
    | (intro s hs; try dsimp only)
    | split
    | (simp only [keeps_mk]; with_reducible refine keeps_fields ?_)

theorem playSources_keeps {a : State} {x0 : State} {x1 : Nat}
    (h0 : Keeps a x0) :
    Keeps a (State.playSources x0 x1) := by
  unfold State.playSources
  try dsimp only
  repeat' first
    | with_reducible assumption
    | with_reducible apply playoutFrame_keeps
    | with_reducible apply finishSources_keeps
    | with_reducible apply each_keeps
    | with_reducible apply startSource_keeps
    | with_reducible apply foldl_keeps
    | (intro y s hs; try dsimp only)
    | (intro s hs; try dsimp only)
    | split
    | (simp only [keeps_mk]; with_reducible refine keeps_fields ?_)

theorem pondFrame_keeps {a : State} {x0 : State} {x1 : Nat} {x2 : Nat}
    (h0 : Keeps a x0) :
    Keeps a (State.pondFrame x0 x1 x2) := by
  unfold State.pondFrame
  try dsimp only
  repeat' first
    | with_reducible assumption
    | with_reducible apply playSources_keeps
    | with_reducible apply flattenFrame_keeps
    | with_reducible apply foldl_keeps
    | (intro y s hs; try dsimp only)
    | (intro s hs; try dsimp only)
    | split
    | (simp only [keeps_mk]; with_reducible refine keeps_fields ?_)

theorem judgeOutput_keeps {a : State} {x0 : State} {x1 : Nat} {x2 : Nat} {x3 : OutRaster} {x4 : Bool}
    (h0 : Keeps a x0) :
    Keeps a (State.judgeOutput x0 x1 x2 x3 x4) := by
  unfold State.judgeOutput
  try dsimp only
  repeat' first
    | with_reducible assumption
    | with_reducible apply routeStep_keeps
    | with_reducible apply reportMissing_keeps
    | with_reducible apply lipSync_keeps
    | with_reducible apply setLoss_keeps
    | with_reducible apply foldl_keeps
    | (intro y s hs; try dsimp only)
    | (intro s hs; try dsimp only)
    | split
    | (simp only [keeps_mk]; with_reducible refine keeps_fields ?_)

theorem someTraffic_keeps {a : State} {x0 : State} {x1 : Nat} {x2 : Nat}
    (h0 : Keeps a x0) :
    Keeps a (State.someTraffic x0 x1 x2) := by
  unfold State.someTraffic
  try dsimp only
  repeat' first
    | with_reducible assumption
    | with_reducible apply freeNat_keeps
    | with_reducible apply traffic_keeps
    | refine keeps_pair (by assumption) ?_
    | with_reducible apply foldl_keeps
    | (intro y s hs; try dsimp only)
    | (intro s hs; try dsimp only)
    | split
    | (simp only [keeps_mk]; with_reducible refine keeps_fields ?_)

theorem frameReads_keeps {a : State} {x0 : State} {x1 : Nat}
    (h0 : Keeps a x0) :
    Keeps a (State.frameReads x0 x1) := by
  unfold State.frameReads
  try dsimp only
  repeat' first
    | with_reducible assumption
    | with_reducible apply each_keeps
    | with_reducible apply someTraffic_keeps
    | with_reducible apply traffic_keeps
    | with_reducible apply foldl_keeps
    | (intro y s hs; try dsimp only)
    | (intro s hs; try dsimp only)
    | split
    | (simp only [keeps_mk]; with_reducible refine keeps_fields ?_)

theorem beginFrame_keeps {a : State} {x0 : State} {x1 : Nat} {x2 : Nat} {x3 : Nat} {x4 : Sys2Proof.RasterDesc} {x5 : List (Job × Sys2Proof.RasterSetP)}
    (h0 : Keeps a x0) :
    Keeps a (State.beginFrame x0 x1 x2 x3 x4 x5) := by
  unfold State.beginFrame
  try dsimp only
  repeat' first
    | with_reducible assumption
    | with_reducible apply setOutRaster_keeps
    | with_reducible apply cutLines_keeps
    | with_reducible apply endSets_keeps
    | with_reducible apply sendMarker_keeps
    | with_reducible apply resumeOutput_keeps
    | with_reducible apply runDue_keeps
    | with_reducible apply runReached_keeps
    | with_reducible apply flipFrame_keeps
    | with_reducible apply swapFrame_keeps
    | with_reducible apply pondFrame_keeps
    | with_reducible apply overlayFrame_keeps
    | with_reducible apply applyOutWaits_keeps
    | with_reducible apply judgeOutput_keeps
    | with_reducible apply activeReads_keeps
    | with_reducible apply frameReads_keeps
    | with_reducible apply foldl_keeps
    | (intro y s hs; try dsimp only)
    | (intro s hs; try dsimp only)
    | split
    | (simp only [keeps_mk]; with_reducible refine keeps_fields ?_)

theorem cancelSkipped_keeps {a : State} {x0 : State} {x1 : Nat} {x2 : Nat} {x3 : Nat}
    (h0 : Keeps a x0) :
    Keeps a (State.cancelSkipped x0 x1 x2 x3) := by
  unfold State.cancelSkipped
  try dsimp only
  repeat' first
    | with_reducible assumption
    | with_reducible apply each_keeps
    | with_reducible apply complete_keeps
    | with_reducible apply releaseOf_keeps
    | with_reducible apply foldl_keeps
    | (intro y s hs; try dsimp only)
    | (intro s hs; try dsimp only)
    | split
    | (simp only [keeps_mk]; with_reducible refine keeps_fields ?_)

theorem countFallbacks_keeps {a : State} {x0 : State} {x1 : Nat}
    (h0 : Keeps a x0) :
    Keeps a (State.countFallbacks x0 x1) := by
  unfold State.countFallbacks
  try dsimp only
  repeat' first
    | with_reducible assumption
    | with_reducible apply count_keeps
    | with_reducible apply foldl_keeps
    | (intro y s hs; try dsimp only)
    | (intro s hs; try dsimp only)
    | split
    | (simp only [keeps_mk]; with_reducible refine keeps_fields ?_)

theorem leadInput_keeps {a : State} {x0 : State} {x1 : Task} {x2 : Standing} {x3 : Nat} {x4 : Nat}
    (h0 : Keeps a x0) :
    Keeps a (State.leadInput x0 x1 x2 x3 x4) := by
  unfold State.leadInput
  try dsimp only
  repeat' first
    | with_reducible assumption
    | with_reducible apply seen_keeps
    | with_reducible apply decideClass_keeps
    | with_reducible apply foldl_keeps
    | (intro y s hs; try dsimp only)
    | (intro s hs; try dsimp only)
    | split
    | (simp only [keeps_mk]; with_reducible refine keeps_fields ?_)

theorem leadInputs_keeps {a : State} {x0 : State} {x1 : Nat}
    (h0 : Keeps a x0) :
    Keeps a (State.leadInputs x0 x1) := by
  unfold State.leadInputs
  try dsimp only
  repeat' first
    | with_reducible assumption
    | with_reducible apply each_keeps
    | with_reducible apply leadInput_keeps
    | with_reducible apply foldl_keeps
    | (intro y s hs; try dsimp only)
    | (intro s hs; try dsimp only)
    | split
    | (simp only [keeps_mk]; with_reducible refine keeps_fields ?_)

theorem endFrameLines_keeps {a : State} {x0 : State} {x1 : Nat} {x2 : OutRaster}
    (h0 : Keeps a x0) :
    Keeps a (State.endFrameLines x0 x1 x2) := by
  unfold State.endFrameLines
  try dsimp only
  repeat' first
    | with_reducible assumption
    | with_reducible apply advanceSources_keeps
    | with_reducible apply leadInputs_keeps
    | with_reducible apply setOutRaster_keeps
    | with_reducible apply sendLine_keeps
    | with_reducible apply foldl_keeps
    | (intro y s hs; try dsimp only)
    | (intro s hs; try dsimp only)
    | split
    | (simp only [keeps_mk]; with_reducible refine keeps_fields ?_)

theorem extend_keeps {a : State} {x0 : State} {x1 : Nat} {x2 : OutRaster} {x3 : Nat} {x4 : Nat}
    (h0 : Keeps a x0) :
    Keeps a (State.extend x0 x1 x2 x3 x4) := by
  unfold State.extend
  try dsimp only
  repeat' first
    | with_reducible assumption
    | with_reducible apply cancelSkipped_keeps
    | with_reducible apply setOutRaster_keeps
    | with_reducible apply foldl_keeps
    | (intro y s hs; try dsimp only)
    | (intro s hs; try dsimp only)
    | split
    | (simp only [keeps_mk]; with_reducible refine keeps_fields ?_)

theorem extensionLine_keeps {a : State} {x0 : State} {x1 : Nat} {x2 : OutRaster}
    (h0 : Keeps a x0) :
    Keeps a (State.extensionLine x0 x1 x2) := by
  unfold State.extensionLine
  try dsimp only
  repeat' first
    | with_reducible assumption
    | with_reducible apply advanceSources_keeps
    | with_reducible apply armingLine_keeps
    | with_reducible apply setOutRaster_keeps
    | with_reducible apply foldl_keeps
    | (intro y s hs; try dsimp only)
    | (intro s hs; try dsimp only)
    | split
    | (simp only [keeps_mk]; with_reducible refine keeps_fields ?_)

theorem followStep_keeps {a : State} {x0 : State} {x1 : Nat}
    (h0 : Keeps a x0) :
    Keeps a (State.followStep x0 x1) := by
  unfold State.followStep
  try dsimp only
  repeat' first
    | with_reducible assumption
    | with_reducible apply each_keeps
    | with_reducible apply setOutRaster_keeps
    | with_reducible apply foldl_keeps
    | (intro y s hs; try dsimp only)
    | (intro s hs; try dsimp only)
    | split
    | (simp only [keeps_mk]; with_reducible refine keeps_fields ?_)

theorem frameWork_keeps {a : State} {x0 : State} {x1 : Nat}
    (h0 : Keeps a x0) :
    Keeps a (State.frameWork x0 x1) := by
  unfold State.frameWork
  try dsimp only
  repeat' first
    | with_reducible assumption
    | with_reducible apply runThese_keeps
    | with_reducible apply extend_keeps
    | with_reducible apply beginFrame_keeps
    | with_reducible apply cancelSkipped_keeps
    | with_reducible apply foldl_keeps
    | (intro y s hs; try dsimp only)
    | (intro s hs; try dsimp only)
    | split
    | (simp only [keeps_mk]; with_reducible refine keeps_fields ?_)

theorem houseLine_keeps {a : State} {x0 : State} {x1 : Nat}
    (h0 : Keeps a x0) :
    Keeps a (State.houseLine x0 x1) := by
  unfold State.houseLine
  try dsimp only
  repeat' first
    | with_reducible assumption
    | with_reducible apply setHouse_keeps
    | with_reducible apply advanceSources_keeps
    | with_reducible apply followStep_keeps
    | with_reducible apply runStc_keeps
    | with_reducible apply applyStcWaits_keeps
    | with_reducible apply policyFrame_keeps
    | with_reducible apply leadInputs_keeps
    | with_reducible apply slewLine_keeps
    | with_reducible apply adoptPair_keeps
    | with_reducible apply runDue_keeps
    | with_reducible apply applySnapshot_keeps
    | with_reducible apply playSources_keeps
    | with_reducible apply monitorLines_keeps
    | with_reducible apply foldl_keeps
    | (intro y s hs; try dsimp only)
    | (intro s hs; try dsimp only)
    | split
    | (simp only [keeps_mk]; with_reducible refine keeps_fields ?_)

theorem withinFrame_keeps {a : State} {x0 : State} {x1 : Nat} {x2 : OutRaster}
    (h0 : Keeps a x0) :
    Keeps a (State.withinFrame x0 x1 x2) := by
  unfold State.withinFrame
  try dsimp only
  repeat' first
    | with_reducible assumption
    | with_reducible apply advanceSources_keeps
    | with_reducible apply leadInputs_keeps
    | with_reducible apply armingLine_keeps
    | with_reducible apply setOutRaster_keeps
    | with_reducible apply sendLine_keeps
    | with_reducible apply runDue_keeps
    | with_reducible apply activeReads_keeps
    | with_reducible apply foldl_keeps
    | (intro y s hs; try dsimp only)
    | (intro s hs; try dsimp only)
    | split
    | (simp only [keeps_mk]; with_reducible refine keeps_fields ?_)

theorem outputLine_keeps {a : State} {x0 : State} {x1 : Nat}
    (h0 : Keeps a x0) :
    Keeps a (State.outputLine x0 x1) := by
  unfold State.outputLine
  try dsimp only
  repeat' first
    | with_reducible assumption
    | with_reducible apply frameWork_keeps
    | with_reducible apply extensionLine_keeps
    | with_reducible apply withinFrame_keeps
    | with_reducible apply endFrameLines_keeps
    | with_reducible apply monitorLines_keeps
    | with_reducible apply foldl_keeps
    | (intro y s hs; try dsimp only)
    | (intro s hs; try dsimp only)
    | split
    | (simp only [keeps_mk]; with_reducible refine keeps_fields ?_)

theorem doLineStart_keeps {a : State} {x0 : Nat} {x1 : State}
    (h1 : Keeps a x1) :
    Keeps a (doLineStart x0 x1) := by
  unfold doLineStart
  try dsimp only
  repeat' first
    | with_reducible assumption
    | with_reducible apply houseLine_keeps
    | with_reducible apply outputLine_keeps
    | with_reducible apply foldl_keeps
    | (intro y s hs; try dsimp only)
    | (intro s hs; try dsimp only)
    | split
    | (simp only [keeps_mk]; with_reducible refine keeps_fields ?_)

theorem doOutputFrame_keeps {a : State} {x0 : Nat} {x1 : State}
    (h1 : Keeps a x1) :
    Keeps a (doOutputFrame x0 x1) := by
  unfold doOutputFrame
  try dsimp only
  repeat' first
    | with_reducible assumption
    | with_reducible apply frameWork_keeps
    | with_reducible apply monitorLines_keeps
    | with_reducible apply endFrameLines_keeps
    | with_reducible apply foldl_keeps
    | (intro y s hs; try dsimp only)
    | (intro s hs; try dsimp only)
    | split
    | (simp only [keeps_mk]; with_reducible refine keeps_fields ?_)

theorem engineStart_keeps {a : State} {x0 : Nat} {x1 : State}
    (h1 : Keeps a x1) :
    Keeps a (engineStart x0 x1) := by
  unfold engineStart
  try dsimp only
  repeat' first
    | with_reducible assumption
    | with_reducible apply doEngineFrame_keeps
    | with_reducible apply finishSources_keeps
    | with_reducible apply advanceSources_keeps
    | with_reducible apply each_keeps
    | with_reducible apply startSource_keeps
    | with_reducible apply someTraffic_keeps
    | with_reducible apply countFallbacks_keeps
    | with_reducible apply foldl_keeps
    | (intro y s hs; try dsimp only)
    | (intro s hs; try dsimp only)
    | split
    | (simp only [keeps_mk]; with_reducible refine keeps_fields ?_)

theorem onEvent_keeps {a : State} {x0 : State → State} {x1 : State}
    (h0 : ∀  s, Keeps a s → Keeps a (x0  s)) (h1 : Keeps a x1) :
    Keeps a (onEvent x0 x1) := by
  unfold onEvent
  try dsimp only
  repeat' first
    | with_reducible assumption
    | with_reducible apply h0
    | with_reducible apply foldl_keeps
    | (intro y s hs; try dsimp only)
    | (intro s hs; try dsimp only)
    | split
    | (simp only [keeps_mk]; with_reducible refine keeps_fields ?_)

theorem decideWith_keeps {a : State} {x0 : Decision} {x1 : State}
    (h1 : Keeps a x1) :
    Keeps a (decideWith x0 x1) := by
  unfold decideWith
  try dsimp only
  repeat' first
    | with_reducible assumption
    | with_reducible apply decided_keeps
    | with_reducible apply foldl_keeps
    | (intro y s hs; try dsimp only)
    | (intro s hs; try dsimp only)
    | split
    | (simp only [keeps_mk]; with_reducible refine keeps_fields ?_)

theorem embedSends_keeps {a : State} {x0 : Nat} {x1 : State}
    (h1 : Keeps a x1) :
    Keeps a (embedSends x0 x1) := by
  unfold embedSends
  try dsimp only
  repeat' first
    | with_reducible assumption
    | with_reducible apply doEmbedSend_keeps
    | with_reducible apply someTraffic_keeps
    | with_reducible apply foldl_keeps
    | (intro y s hs; try dsimp only)
    | (intro s hs; try dsimp only)
    | split
    | (simp only [keeps_mk]; with_reducible refine keeps_fields ?_)

theorem flattenEnd_keeps {a : State} {x0 : Nat} {x1 : Nat} {x2 : State}
    (h2 : Keeps a x2) :
    Keeps a (flattenEnd x0 x1 x2) := by
  unfold flattenEnd
  try dsimp only
  repeat' first
    | with_reducible assumption
    | with_reducible apply someTraffic_keeps
    | with_reducible apply doFlattenComplete_keeps
    | with_reducible apply foldl_keeps
    | (intro y s hs; try dsimp only)
    | (intro s hs; try dsimp only)
    | split
    | (simp only [keeps_mk]; with_reducible refine keeps_fields ?_)

theorem groupBoundary_keeps {a : State} {x0 : Nat} {x1 : Nat} {x2 : State}
    (h2 : Keeps a x2) :
    Keeps a (groupBoundary x0 x1 x2) := by
  unfold groupBoundary
  try dsimp only
  repeat' first
    | with_reducible assumption
    | with_reducible apply rxKeyBoundary_keeps
    | with_reducible apply doGroupBoundary_keeps
    | with_reducible apply countMissing_keeps
    | with_reducible apply foldl_keeps
    | (intro y s hs; try dsimp only)
    | (intro s hs; try dsimp only)
    | split
    | (simp only [keeps_mk]; with_reducible refine keeps_fields ?_)

theorem laneReceives_keeps {a : State} {x0 : Nat} {x1 : Nat} {x2 : Sys2Proof.Superframe} {x3 : State}
    (h3 : Keeps a x3) :
    Keeps a (laneReceives x0 x1 x2 x3) := by
  unfold laneReceives
  try dsimp only
  repeat' first
    | with_reducible assumption
    | with_reducible apply doSuperframe_keeps
    | with_reducible apply brinenHeader_keeps
    | with_reducible apply foldl_keeps
    | (intro y s hs; try dsimp only)
    | (intro s hs; try dsimp only)
    | split
    | (simp only [keeps_mk]; with_reducible refine keeps_fields ?_)

theorem onDir_keeps {a : State} {x0 : Nat} {x1 : State → State} {x2 : State}
    (h1 : ∀  s, Keeps a s → Keeps a (x1  s)) (h2 : Keeps a x2) :
    Keeps a (onDir x0 x1 x2) := by
  unfold onDir
  try dsimp only
  repeat' first
    | with_reducible assumption
    | with_reducible apply h1
    | with_reducible apply settleLink_keeps
    | with_reducible apply foldl_keeps
    | (intro y s hs; try dsimp only)
    | (intro s hs; try dsimp only)
    | split
    | (simp only [keeps_mk]; with_reducible refine keeps_fields ?_)

theorem onEngine_keeps {a : State} {x0 : Nat} {x1 : Nat → State → State} {x2 : State}
    (h1 : ∀ y0 s, Keeps a s → Keeps a (x1 y0 s)) (h2 : Keeps a x2) :
    Keeps a (onEngine x0 x1 x2) := by
  unfold onEngine
  try dsimp only
  repeat' first
    | with_reducible assumption
    | with_reducible apply h1
    | with_reducible apply foldl_keeps
    | (intro y s hs; try dsimp only)
    | (intro s hs; try dsimp only)
    | split
    | (simp only [keeps_mk]; with_reducible refine keeps_fields ?_)

theorem onLane_keeps {a : State} {x0 : Nat} {x1 : Nat} {x2 : State → State} {x3 : State}
    (h2 : ∀  s, Keeps a s → Keeps a (x2  s)) (h3 : Keeps a x3) :
    Keeps a (onLane x0 x1 x2 x3) := by
  unfold onLane
  try dsimp only
  repeat' first
    | with_reducible assumption
    | with_reducible apply h2
    | with_reducible apply settleLink_keeps
    | with_reducible apply foldl_keeps
    | (intro y s hs; try dsimp only)
    | (intro s hs; try dsimp only)
    | split
    | (simp only [keeps_mk]; with_reducible refine keeps_fields ?_)

theorem onMessage_keeps {a : State} {x0 : Sys2Proof.Arrival} {x1 : State → State} {x2 : State}
    (h1 : ∀  s, Keeps a s → Keeps a (x1  s)) (h2 : Keeps a x2) :
    Keeps a (onMessage x0 x1 x2) := by
  unfold onMessage
  try dsimp only
  repeat' first
    | with_reducible assumption
    | with_reducible apply h1
    | with_reducible apply count_keeps
    | with_reducible apply foldl_keeps
    | (intro y s hs; try dsimp only)
    | (intro s hs; try dsimp only)
    | split
    | (simp only [keeps_mk]; with_reducible refine keeps_fields ?_)

theorem onPort_keeps {a : State} {x0 : Nat} {x1 : State → State} {x2 : State}
    (h1 : ∀  s, Keeps a s → Keeps a (x1  s)) (h2 : Keeps a x2) :
    Keeps a (onPort x0 x1 x2) := by
  unfold onPort
  try dsimp only
  repeat' first
    | with_reducible assumption
    | with_reducible apply h1
    | with_reducible apply foldl_keeps
    | (intro y s hs; try dsimp only)
    | (intro s hs; try dsimp only)
    | split
    | (simp only [keeps_mk]; with_reducible refine keeps_fields ?_)

theorem partnerFails_keeps {a : State} {x0 : Nat} {x1 : State}
    (h1 : Keeps a x1) :
    Keeps a (partnerFails x0 x1) := by
  unfold partnerFails
  try dsimp only
  repeat' first
    | with_reducible assumption
    | with_reducible apply mateFails_keeps
    | with_reducible apply foldl_keeps
    | (intro y s hs; try dsimp only)
    | (intro s hs; try dsimp only)
    | split
    | (simp only [keeps_mk]; with_reducible refine keeps_fields ?_)

theorem transmits_keeps {a : State} {x0 : Nat} {x1 : State}
    (h1 : Keeps a x1) :
    Keeps a (transmits x0 x1) := by
  unfold transmits
  try dsimp only
  repeat' first
    | with_reducible assumption
    | with_reducible apply doTxSuperframe_keeps
    | with_reducible apply emit_keeps
    | with_reducible apply foldl_keeps
    | (intro y s hs; try dsimp only)
    | (intro s hs; try dsimp only)
    | split
    | (simp only [keeps_mk]; with_reducible refine keeps_fields ?_)

theorem xferEnds_keeps {a : State} {x0 : Nat} {x1 : State}
    (h1 : Keeps a x1) :
    Keeps a (xferEnds x0 x1) := by
  unfold xferEnds
  try dsimp only
  repeat' first
    | with_reducible assumption
    | with_reducible apply reportSlot_keeps
    | with_reducible apply doXferComplete_keeps
    | with_reducible apply foldl_keeps
    | (intro y s hs; try dsimp only)
    | (intro s hs; try dsimp only)
    | split
    | (simp only [keeps_mk]; with_reducible refine keeps_fields ?_)

/-- Time of an event: outside reset it goes forward to the tick given, and nothing else changes (R48, R49, R502). -/
theorem enter_keeps {s : State} {t : Tick} : (Sound s → Sound (s.enter t)) ∧ (s.enter t).pending = s.pending ∧
    s.clk.mono ≤ (s.enter t).clk.mono := by
  unfold State.enter
  split
  · exact ⟨id, rfl, Nat.le_refl _⟩
  · exact ⟨id, rfl, Nat.le_max_left _ _⟩

/-- What follows an event's time keeps what the time has kept. -/
theorem after_enter {s s' : State} {t : Tick} (h : Keeps (s.enter t) s') :
    (Sound s → Sound s') ∧ s'.pending = s.pending ∧ (s'.clk.mono = 0 ∨ s.clk.mono ≤ s'.clk.mono) := by
  obtain ⟨h1, h2, h3⟩ := h
  obtain ⟨e1, e2, e3⟩ := enter_keeps (s := s) (t := t)
  refine ⟨fun x => h1 (e1 x), h2.trans e2, ?_⟩
  rcases h3 with h3 | h3
  · exact .inr (h3 ▸ e3)
  · exact .inl h3

end Sys2Proof.Laws
end

