-- ==== Sys2Proof/Laws/Layout.lean ====
section
/-! SUPPORT. The lengths of a packet's parts (R333, R349). -/

namespace Sys2Proof.Machine

@[simp] theorem leBytes_length (n v : Nat) : (leBytes n v).length = n := by
  induction n generalizing v with
  | zero => rfl
  | succ n ih => simp [leBytes, ih]

@[simp] theorem lay_length (r : Nat) (l : List Fld) : (lay r l).length = (l.map Fld.size).sum := by
  induction l generalizing r with
  | nil => rfl
  | cons f l ih => simp [lay, ih]

/-- A repeated entry of `k` bytes. -/
theorem entries_length {α : Type} (f : α → List Byte) (k : Nat) (l : List α) (h : ∀ x, (f x).length = k) : (l.flatMap f).length = k * l.length := by
  induction l with
  | nil => rfl
  | cons x l ih => simp [h, ih, Nat.mul_add, Nat.add_comm]

theorem lutBytes_length (n : Nat) (l : List Nat) : (lutBytes n l).length = 2 * n := by
  rw [lutBytes, entries_length _ 2 _ fun _ => leBytes_length _ _, List.length_range]

theorem words_sizes (n : Nat) (l : List Int) : ((words n l).map Fld.size).sum = 4 * n := by
  simp only [words, List.map_map, Function.comp_def, Fld.size]
  induction n with
  | zero => rfl
  | succ n ih => rw [List.range_succ, List.map_append, List.sum_append, ih]; rfl

theorem colorBytes_length (n : Nat) (b : ColorBlk) : (colorBytes n b).length = if b.lut.isEmpty then 152 else 154 + 2 * n := by
  rw [colorBytes, List.length_append, lay_length]
  simp only [List.map_append, List.sum_append, words_sizes]
  split
  · rfl
  · rw [List.length_append, lutBytes_length, leBytes_length]
    simp only [geoFlds, List.map_cons, List.map_nil, Fld.size, List.sum_cons, List.sum_nil]
    omega

theorem blockLayout_length (b : KBlock) : (blockLayout b).length = blockBytes b := by
  cases b with
  | color b => exact colorBytes_length 107811 b
  | _ => simp [blockLayout, blockBytes, geoFlds, Fld.size]

/-- A parameter block is as long as Table 13.1's layouts give it. -/
theorem paramBytes_length (p : Params) : (paramBytes p).length = (rowOf p).size := by
  cases p <;> simp only [paramBytes, rowOf, List.length_append, blockLayout_length, presetSize]
  case presetStore p => cases p.capture <;> simp [Fld.size]
  case barrier p => rw [entries_length _ 8 _ fun _ => by simp [waitBytes, Fld.size]]; simp [Fld.size]
  case routeTake p => rw [entries_length _ 8 _ fun _ => by simp [routeBytes, Fld.size]]; simp [Fld.size]
  case layerSet p => rw [entries_length _ 32 _ fun _ => by simp [layerBytes, geomFlds, Fld.size]]; simp [Fld.size]
  case audioRoute p => rw [entries_length _ 8 _ fun _ => by simp [audioBytes, Fld.size]]; simp [Fld.size]
  case groupSet p => rw [entries_length _ 4 _ fun _ => by simp [Fld.size]]; simp [Fld.size]
  case bandTableSet p => rw [entries_length _ 16 _ fun _ => by simp [Fld.size]]; simp [Fld.size]
  case routeQuery p => rw [entries_length _ 2 _ fun _ => leBytes_length _ _]; simp [resBlock, resFlds, Fld.size]
  case audioQuery p => rw [entries_length _ 2 _ fun _ => leBytes_length _ _]; simp [resBlock, resFlds, Fld.size]
  case counterRead p => rw [entries_length _ 4 _ fun _ => leBytes_length _ _]; simp [resBlock, resFlds, Fld.size]
  all_goals simp [resBlock, resFlds, descLayout, bufLayout, beBytes, geomFlds, portFlds, Fld.size]

end Sys2Proof.Machine
end

