-- ==== Sys2Proof/Laws/Packets.lean ====
section
/-! SUPPORT. An accepted command runs, and how its answer ends: for each kind of answer the state that the packet row gives. -/

namespace Sys2Proof.Laws

open Sys2Proof.Machine Sys2Proof.Claims

/-- A ring whose indices are equal covers a packet that is shorter than the ring, once it has been placed. -/
theorem ring_covers {a n z : Nat} (h1 : a < z) (h2 : n < z) : n ≤ ((a + n) % z + z - a % z) % z := by
  apply Nat.le_of_eq
  rw [Nat.mod_eq_of_lt h1]
  by_cases hl : a + n < z
  · rw [Nat.mod_eq_of_lt hl, show a + n + z - a = n + z by omega, Nat.add_mod_right, Nat.mod_eq_of_lt h2]
  · rw [Nat.mod_eq_sub_mod (show a + n ≥ z by omega), Nat.mod_eq_of_lt (show a + n - z < z by omega),
      show a + n - z + z - a = n by omega, Nat.mod_eq_of_lt h2]

/-- A packet whose acceptance steps all pass is run. -/
theorem runPacket_of_checks (s : State) (t : Tick) (h : Hdr) (p : Params)
    (hr : h.queue = 9 → (reached s t h p).sys.restart = false)
    (ha : (reached s t h p).authCheck h.queue h p = (s.enter t).authCheck h.queue h p)
    (hc : ChecksPass s t h p = true) : (reached s t h p).runPacket h.queue ⟨h, p⟩ = (fetched s t h p).run (command h p) := by
  simp only [ChecksPass, Bool.and_eq_true, Option.isNone_iff_eq_none] at hc
  obtain ⟨⟨⟨⟨c1, c2⟩, c3⟩, c4⟩, c5⟩ := hc
  unfold State.runPacket
  dsimp only
  have hn : (decide (h.queue = 9) && (reached s t h p).sys.restart) = false := by
    by_cases hq : h.queue = 9
    · simp [hr hq]
    · simp [hq]
  have hw : (reached s t h p).noteSeq h.queue h = fetched s t h p := rfl
  rw [hn, if_neg (by decide), c1]
  dsimp only
  rw [ha, c2]
  dsimp only
  rw [hw, c3, c4, c5]
  rfl

/-- A packet that its queue takes is judged at once. -/
theorem taken_runs (s : State) (t : Tick) (h : Hdr) (p : Params) (ha : Taken s t h p) :
    submit p t h s = ((reached s t h p).runPacket h.queue ⟨h, p⟩).settleLink := by
  obtain ⟨hw, hq⟩ := ha
  have hwe : tblWf ({} : Queue) (s.enter t).queues = true := by
    unfold State.enter; split <;> exact hw
  unfold submit
  congr 1
  generalize hu : s.enter t = u at *
  rcases hq with ⟨hq, hr⟩ | ⟨hq, hr⟩
  · simp only [RingTakes, Bool.and_eq_true, Bool.not_eq_true', decide_eq_true_eq, beq_iff_eq, List.isEmpty_iff] at hr
    obtain ⟨⟨⟨⟨⟨⟨⟨⟨⟨r1, r2⟩, r3⟩, r4⟩, r5⟩, r6⟩, r7⟩, r8⟩, r9⟩, r10⟩ := hr
    unfold State.submitted
    have hq10 : h.queue < 10 := by omega
    have hq9 : h.queue ≠ 9 := by omega
    simp only [hq10, r1, decide_true, Bool.and_self, Bool.not_true, Bool.false_eq_true, if_false, hq9, r5, List.isEmpty_nil, if_true]
    have hx : (u.place h.queue ⟨h, p⟩).queue h.queue =
        { u.queue h.queue with ring := [⟨h, p⟩], sqTail := ((u.queue h.queue).sqHead + ringSize ⟨h, p⟩) % u.ringBytes h.queue } := by
      unfold State.place State.queue State.setQueue
      rw [fget_fset_same _ _ _ _ hwe]
      simp only [State.queue] at r5 r6
      rw [r5, r6]
      rfl
    unfold State.fetchOne
    rw [if_neg hq9]
    dsimp only
    rw [hx]
    dsimp only
    have hz : (u.place h.queue ⟨h, p⟩).ringBytes h.queue = u.ringBytes h.queue := rfl
    have hcov : (u.place h.queue ⟨h, p⟩).covered h.queue ⟨h, p⟩ = true := by
      unfold State.covered
      dsimp only
      rw [hx, hz]
      dsimp only
      simp only [decide_eq_true_eq]
      exact ring_covers r7 r8
    have hf : (u.place h.queue ⟨h, p⟩).fetches h.queue = u.fetches h.queue := rfl
    have hh : (u.place h.queue ⟨h, p⟩).holds h.queue = u.holds h.queue := rfl
    have hro : (u.place h.queue ⟨h, p⟩).ringRoom h.queue ⟨h, p⟩ = u.ringRoom h.queue ⟨h, p⟩ := by
      unfold State.ringRoom State.owedReplies
      rw [hx]
      rfl
    have hcond : (!(u.fetches h.queue && (u.queue h.queue).enable && !(u.queue h.queue).error && !u.holds h.queue && true)) = false := by
      rw [r2, r3, r4, r9]
      rfl
    rw [hf, hh, hcov, hro, hz, hcond, r10]
    simp only [Bool.not_true, Bool.false_eq_true, if_false]
    have hw2 : (u.place h.queue ⟨h, p⟩).setQueue h.queue
          { u.queue h.queue with ring := [], stall := false,
                                 sqTail := ((u.queue h.queue).sqHead + ringSize ⟨h, p⟩) % u.ringBytes h.queue,
                                 sqHead := ((u.queue h.queue).sqHead + ringSize ⟨h, p⟩) % u.ringBytes h.queue } =
        u.setQueue h.queue
          { u.queue h.queue with stall := false,
                                 sqTail := ((u.queue h.queue).sqHead + ringSize ⟨h, p⟩) % u.ringBytes h.queue,
                                 sqHead := ((u.queue h.queue).sqHead + ringSize ⟨h, p⟩) % u.ringBytes h.queue } := by
      unfold State.place State.setQueue
      dsimp only
      rw [fset_fset _ _ _ _ _ hwe, r5]
    refine (congrArg (fun w => State.runPacket w h.queue ⟨h, p⟩) hw2).trans ?_
    unfold reached
    dsimp only
    rw [if_neg hq9, hu]
  · simp only [PortTakes, Bool.and_eq_true, Bool.not_eq_true'] at hr
    obtain ⟨⟨⟨⟨r1, r2⟩, r3⟩, r4⟩, r5⟩ := hr
    have r2' := r2
    simp only [State.rxReady, Bool.and_eq_true] at r2'
    have hb : u.spi.buffer = none := by simpa using r2'.2
    have he : ({ u with spi := { u.spi with buffer := none } } : State) = u := by
      rw [← hb]
    unfold State.submitted
    have hf9 : ({ u with spi := { u.spi with buffer := some ⟨h, p⟩ } } : State).fetches 9 = true := r2'.1
    have hh9 : ({ u with spi := { u.spi with buffer := some ⟨h, p⟩ } } : State).holds 9 = false := r3
    have hr9 : ({ u with spi := { u.spi with buffer := some ⟨h, p⟩ } } : State).fifoRoom ⟨h, p⟩ = true := r4
    simp only [hq, r1, State.takeSpi, r2, State.fetchSpi, hf9, hh9, hr9]
    have ht : reached s t h p = u := by
      unfold reached
      dsimp only
      rw [if_pos hq, hu]
    rw [ht]
    simp [he]

/-- What a queue holds of its MAC binding stays as its ring moves. -/
theorem taken_auth (s : State) (t : Tick) (h : Hdr) (p : Params) (hw : tblWf ({} : Queue) s.queues = true) :
    (reached s t h p).authCheck h.queue h p = (s.enter t).authCheck h.queue h p := by
  have hwe : tblWf ({} : Queue) (s.enter t).queues = true := by
    unfold State.enter; split <;> exact hw
  unfold reached
  dsimp only
  split
  · rfl
  · unfold State.authCheck State.queue State.setQueue
    rw [fget_fset_same _ _ _ _ hwe]
    rfl

/-- A restart of control firmware turns away a packet of queue 9; the port does not take it. -/
theorem taken_restart (s : State) (t : Tick) (h : Hdr) (p : Params) (ha : Taken s t h p) (hq : h.queue = 9) :
    (reached s t h p).sys.restart = false := by
  rcases ha.2 with ⟨h1, _⟩ | ⟨_, hr⟩
  · omega
  · simp only [PortTakes, Bool.and_eq_true, Bool.not_eq_true'] at hr
    unfold reached
    dsimp only
    rw [if_pos hq]
    exact hr.2

/-- An accepted command is fetched at once and runs. -/
theorem accepted_runs (s : State) (t : Tick) (h : Hdr) (p : Params) (ha : Accepted s t h p) :
    submit p t h s = ((fetched s t h p).run (command h p)).settleLink := by
  rw [taken_runs s t h p ha.1, runPacket_of_checks s t h p (taken_restart s t h p ha.1) (taken_auth s t h p ha.1.1) ha.2]

/-- What the owning chapter's start of the command answers. -/
def answerOf (s : State) (t : Tick) (h : Hdr) (p : Params) : Ans := startOf ⟨h.queue, h⟩ p (fetched s t h p)

theorem immediate_runs {s : State} {t : Tick} {h : Hdr} {p : Params} (hi : Immediate s t h p) :
    submit p t h s = ((fetched s t h p).answer (command h p) (answerOf s t h p)).settleLink := by
  obtain ⟨ha, hs, hl⟩ := hi
  rw [accepted_runs s t h p ha]
  unfold State.run
  have h1 : (command h p).params = p := rfl
  have h2 : (command h p).hdr.sched = false := hs
  rw [h1, hl, h2]
  rfl

theorem completes_done {s : State} {t : Tick} {h : Hdr} {p : Params} {s1 : State} {ras : Option Nat} (hi : Immediate s t h p)
    (ha : answerOf s t h p = .done s1 ras) : submit p t h s = okIn s1 h p ras := by
  rw [immediate_runs hi, ha]
  rfl

theorem completes_result {s : State} {t : Tick} {h : Hdr} {p : Params} {s1 : State} {r : Res} {bs : List Byte} (hi : Immediate s t h p)
    (ha : answerOf s t h p = .result s1 r bs) (hr : bs.length ≤ r.bytes) : submit p t h s = okWith s1 h p r bs := by
  rw [immediate_runs hi, ha]
  have hc : ansCheck (.result s1 r bs) = none := by
    simp only [ansCheck, roomCheck, failIf]
    rw [if_neg]
    simp only [decide_eq_true_eq]
    omega
  unfold State.answer
  rw [hc]
  rfl

/-- A packet that no take and no recall is. -/
def plainWait (p : Params) : Bool := match p with
  | .routeTake _ | .presetRecall _ => false
  | _ => true

theorem completes_later {s : State} {t : Tick} {h : Hdr} {p : Params} {s1 : State} {k : JobKind} {ras : Nat} {aux : List Nat}
    (hi : Immediate s t h p) (hp : plainWait p = true) (ha : answerOf s t h p = .later s1 k ras aux none) :
    submit p t h s = waitsIn s1 h p k ras aux := by
  rw [immediate_runs hi, ha]
  unfold waitsIn
  congr 1
  unfold State.answer
  have hc : ansCheck (.later s1 k ras aux none) = none := rfl
  rw [hc]
  dsimp only
  unfold afterAdd
  split
  · rename_i he
    have : p = _ := he
    subst this
    cases hp
  · rename_i he
    have : p = _ := he
    subst this
    cases hp
  · rfl

theorem completes_later_with {s : State} {t : Tick} {h : Hdr} {p : Params} {s1 : State} {r : Res} {bs : List Byte}
    (hi : Immediate s t h p) (hp : plainWait p = true) (ha : answerOf s t h p = .later s1 .event 0 [] (some (r, bs)))
    (hr : bs.length ≤ r.bytes) : submit p t h s = waitsWith s1 h p r bs := by
  rw [immediate_runs hi, ha]
  unfold waitsWith
  congr 1
  unfold State.answer
  have hc : ansCheck (.later s1 .event 0 [] (some (r, bs))) = none := by
    simp only [ansCheck, roomCheck, failIf]
    rw [if_neg]
    simp only [decide_eq_true_eq]
    omega
  rw [hc]
  dsimp only
  unfold afterAdd
  split
  · rename_i he
    have : p = _ := he
    subst this
    cases hp
  · rename_i he
    have : p = _ := he
    subst this
    cases hp
  · rfl

end Sys2Proof.Laws
end

