-- ==== Sys2Proof/Laws/State.lean ====
section
/-! SUPPORT. What each plain update of State leaves alone: one lemma for each field, true by unfolding. -/

namespace Sys2Proof.Laws

open Sys2Proof.Machine

variable (s : State)

@[simp] theorem advance_pending (t : Tick) : (s.advance t).pending = s.pending := rfl
@[simp] theorem advance_sys (t : Tick) : (s.advance t).sys = s.sys := rfl
@[simp] theorem advance_houses (t : Tick) : (s.advance t).houses = s.houses := rfl
@[simp] theorem advance_rasters (t : Tick) : (s.advance t).rasters = s.rasters := rfl
@[simp] theorem advance_rx (t : Tick) : (s.advance t).rx = s.rx := rfl
@[simp] theorem advance_tx (t : Tick) : (s.advance t).tx = s.tx := rfl
@[simp] theorem advance_rxStreams (t : Tick) : (s.advance t).rxStreams = s.rxStreams := rfl
@[simp] theorem advance_txStreams (t : Tick) : (s.advance t).txStreams = s.txStreams := rfl
@[simp] theorem advance_queues (t : Tick) : (s.advance t).queues = s.queues := rfl
@[simp] theorem advance_spi (t : Tick) : (s.advance t).spi = s.spi := rfl
@[simp] theorem advance_jobs (t : Tick) : (s.advance t).jobs = s.jobs := rfl
@[simp] theorem advance_nextJob (t : Tick) : (s.advance t).nextJob = s.nextJob := rfl
@[simp] theorem advance_hub (t : Tick) : (s.advance t).hub = s.hub := rfl
@[simp] theorem advance_cnt (t : Tick) : (s.advance t).cnt = s.cnt := rfl
@[simp] theorem advance_pair (t : Tick) : (s.advance t).pair = s.pair := rfl
@[simp] theorem advance_clocks (t : Tick) : (s.advance t).clocks = s.clocks := rfl
@[simp] theorem advance_keys (t : Tick) : (s.advance t).keys = s.keys := rfl
@[simp] theorem advance_nv (t : Tick) : (s.advance t).nv = s.nv := rfl
@[simp] theorem advance_pins (t : Tick) : (s.advance t).pins = s.pins := rfl
@[simp] theorem advance_routes (t : Tick) : (s.advance t).routes = s.routes := rfl
@[simp] theorem advance_pond (t : Tick) : (s.advance t).pond = s.pond := rfl
@[simp] theorem advance_engines (t : Tick) : (s.advance t).engines = s.engines := rfl
@[simp] theorem advance_comp (t : Tick) : (s.advance t).comp = s.comp := rfl
@[simp] theorem advance_audio (t : Tick) : (s.advance t).audio = s.audio := rfl
@[simp] theorem advance_out (t : Tick) : (s.advance t).out = s.out := rfl
@[simp] theorem advance_fresh (t : Tick) : (s.advance t).fresh = s.fresh := rfl

@[simp] theorem emit_pending (o : Out) : (s.emit o).pending = s.pending := rfl
@[simp] theorem emit_clk (o : Out) : (s.emit o).clk = s.clk := rfl
@[simp] theorem emit_sys (o : Out) : (s.emit o).sys = s.sys := rfl
@[simp] theorem emit_houses (o : Out) : (s.emit o).houses = s.houses := rfl
@[simp] theorem emit_rasters (o : Out) : (s.emit o).rasters = s.rasters := rfl
@[simp] theorem emit_rx (o : Out) : (s.emit o).rx = s.rx := rfl
@[simp] theorem emit_tx (o : Out) : (s.emit o).tx = s.tx := rfl
@[simp] theorem emit_rxStreams (o : Out) : (s.emit o).rxStreams = s.rxStreams := rfl
@[simp] theorem emit_txStreams (o : Out) : (s.emit o).txStreams = s.txStreams := rfl
@[simp] theorem emit_queues (o : Out) : (s.emit o).queues = s.queues := rfl
@[simp] theorem emit_spi (o : Out) : (s.emit o).spi = s.spi := rfl
@[simp] theorem emit_jobs (o : Out) : (s.emit o).jobs = s.jobs := rfl
@[simp] theorem emit_nextJob (o : Out) : (s.emit o).nextJob = s.nextJob := rfl
@[simp] theorem emit_hub (o : Out) : (s.emit o).hub = s.hub := rfl
@[simp] theorem emit_cnt (o : Out) : (s.emit o).cnt = s.cnt := rfl
@[simp] theorem emit_pair (o : Out) : (s.emit o).pair = s.pair := rfl
@[simp] theorem emit_clocks (o : Out) : (s.emit o).clocks = s.clocks := rfl
@[simp] theorem emit_keys (o : Out) : (s.emit o).keys = s.keys := rfl
@[simp] theorem emit_nv (o : Out) : (s.emit o).nv = s.nv := rfl
@[simp] theorem emit_pins (o : Out) : (s.emit o).pins = s.pins := rfl
@[simp] theorem emit_routes (o : Out) : (s.emit o).routes = s.routes := rfl
@[simp] theorem emit_pond (o : Out) : (s.emit o).pond = s.pond := rfl
@[simp] theorem emit_engines (o : Out) : (s.emit o).engines = s.engines := rfl
@[simp] theorem emit_comp (o : Out) : (s.emit o).comp = s.comp := rfl
@[simp] theorem emit_audio (o : Out) : (s.emit o).audio = s.audio := rfl
@[simp] theorem emit_fresh (o : Out) : (s.emit o).fresh = s.fresh := rfl

@[simp] theorem setOutRaster_pending (n : Nat) (o : Option OutRaster) : (s.setOutRaster n o).pending = s.pending := rfl
@[simp] theorem setOutRaster_clk (n : Nat) (o : Option OutRaster) : (s.setOutRaster n o).clk = s.clk := rfl
@[simp] theorem setOutRaster_sys (n : Nat) (o : Option OutRaster) : (s.setOutRaster n o).sys = s.sys := rfl
@[simp] theorem setOutRaster_houses (n : Nat) (o : Option OutRaster) : (s.setOutRaster n o).houses = s.houses := rfl
@[simp] theorem setOutRaster_rx (n : Nat) (o : Option OutRaster) : (s.setOutRaster n o).rx = s.rx := rfl
@[simp] theorem setOutRaster_tx (n : Nat) (o : Option OutRaster) : (s.setOutRaster n o).tx = s.tx := rfl
@[simp] theorem setOutRaster_rxStreams (n : Nat) (o : Option OutRaster) : (s.setOutRaster n o).rxStreams = s.rxStreams := rfl
@[simp] theorem setOutRaster_txStreams (n : Nat) (o : Option OutRaster) : (s.setOutRaster n o).txStreams = s.txStreams := rfl
@[simp] theorem setOutRaster_queues (n : Nat) (o : Option OutRaster) : (s.setOutRaster n o).queues = s.queues := rfl
@[simp] theorem setOutRaster_spi (n : Nat) (o : Option OutRaster) : (s.setOutRaster n o).spi = s.spi := rfl
@[simp] theorem setOutRaster_jobs (n : Nat) (o : Option OutRaster) : (s.setOutRaster n o).jobs = s.jobs := rfl
@[simp] theorem setOutRaster_nextJob (n : Nat) (o : Option OutRaster) : (s.setOutRaster n o).nextJob = s.nextJob := rfl
@[simp] theorem setOutRaster_hub (n : Nat) (o : Option OutRaster) : (s.setOutRaster n o).hub = s.hub := rfl
@[simp] theorem setOutRaster_cnt (n : Nat) (o : Option OutRaster) : (s.setOutRaster n o).cnt = s.cnt := rfl
@[simp] theorem setOutRaster_pair (n : Nat) (o : Option OutRaster) : (s.setOutRaster n o).pair = s.pair := rfl
@[simp] theorem setOutRaster_clocks (n : Nat) (o : Option OutRaster) : (s.setOutRaster n o).clocks = s.clocks := rfl
@[simp] theorem setOutRaster_keys (n : Nat) (o : Option OutRaster) : (s.setOutRaster n o).keys = s.keys := rfl
@[simp] theorem setOutRaster_nv (n : Nat) (o : Option OutRaster) : (s.setOutRaster n o).nv = s.nv := rfl
@[simp] theorem setOutRaster_pins (n : Nat) (o : Option OutRaster) : (s.setOutRaster n o).pins = s.pins := rfl
@[simp] theorem setOutRaster_routes (n : Nat) (o : Option OutRaster) : (s.setOutRaster n o).routes = s.routes := rfl
@[simp] theorem setOutRaster_pond (n : Nat) (o : Option OutRaster) : (s.setOutRaster n o).pond = s.pond := rfl
@[simp] theorem setOutRaster_engines (n : Nat) (o : Option OutRaster) : (s.setOutRaster n o).engines = s.engines := rfl
@[simp] theorem setOutRaster_comp (n : Nat) (o : Option OutRaster) : (s.setOutRaster n o).comp = s.comp := rfl
@[simp] theorem setOutRaster_audio (n : Nat) (o : Option OutRaster) : (s.setOutRaster n o).audio = s.audio := rfl
@[simp] theorem setOutRaster_out (n : Nat) (o : Option OutRaster) : (s.setOutRaster n o).out = s.out := rfl
@[simp] theorem setOutRaster_fresh (n : Nat) (o : Option OutRaster) : (s.setOutRaster n o).fresh = s.fresh := rfl

@[simp] theorem setSource_pending (i : Nat) (x : Source) : (s.setSource i x).pending = s.pending := rfl
@[simp] theorem setSource_clk (i : Nat) (x : Source) : (s.setSource i x).clk = s.clk := rfl
@[simp] theorem setSource_sys (i : Nat) (x : Source) : (s.setSource i x).sys = s.sys := rfl
@[simp] theorem setSource_houses (i : Nat) (x : Source) : (s.setSource i x).houses = s.houses := rfl
@[simp] theorem setSource_rasters (i : Nat) (x : Source) : (s.setSource i x).rasters = s.rasters := rfl
@[simp] theorem setSource_rx (i : Nat) (x : Source) : (s.setSource i x).rx = s.rx := rfl
@[simp] theorem setSource_tx (i : Nat) (x : Source) : (s.setSource i x).tx = s.tx := rfl
@[simp] theorem setSource_rxStreams (i : Nat) (x : Source) : (s.setSource i x).rxStreams = s.rxStreams := rfl
@[simp] theorem setSource_txStreams (i : Nat) (x : Source) : (s.setSource i x).txStreams = s.txStreams := rfl
@[simp] theorem setSource_queues (i : Nat) (x : Source) : (s.setSource i x).queues = s.queues := rfl
@[simp] theorem setSource_spi (i : Nat) (x : Source) : (s.setSource i x).spi = s.spi := rfl
@[simp] theorem setSource_jobs (i : Nat) (x : Source) : (s.setSource i x).jobs = s.jobs := rfl
@[simp] theorem setSource_nextJob (i : Nat) (x : Source) : (s.setSource i x).nextJob = s.nextJob := rfl
@[simp] theorem setSource_cnt (i : Nat) (x : Source) : (s.setSource i x).cnt = s.cnt := rfl
@[simp] theorem setSource_pair (i : Nat) (x : Source) : (s.setSource i x).pair = s.pair := rfl
@[simp] theorem setSource_clocks (i : Nat) (x : Source) : (s.setSource i x).clocks = s.clocks := rfl
@[simp] theorem setSource_keys (i : Nat) (x : Source) : (s.setSource i x).keys = s.keys := rfl
@[simp] theorem setSource_nv (i : Nat) (x : Source) : (s.setSource i x).nv = s.nv := rfl
@[simp] theorem setSource_pins (i : Nat) (x : Source) : (s.setSource i x).pins = s.pins := rfl
@[simp] theorem setSource_routes (i : Nat) (x : Source) : (s.setSource i x).routes = s.routes := rfl
@[simp] theorem setSource_pond (i : Nat) (x : Source) : (s.setSource i x).pond = s.pond := rfl
@[simp] theorem setSource_engines (i : Nat) (x : Source) : (s.setSource i x).engines = s.engines := rfl
@[simp] theorem setSource_comp (i : Nat) (x : Source) : (s.setSource i x).comp = s.comp := rfl
@[simp] theorem setSource_audio (i : Nat) (x : Source) : (s.setSource i x).audio = s.audio := rfl
@[simp] theorem setSource_out (i : Nat) (x : Source) : (s.setSource i x).out = s.out := rfl
@[simp] theorem setSource_fresh (i : Nat) (x : Source) : (s.setSource i x).fresh = s.fresh := rfl

@[simp] theorem setQueue_pending (q : Nat) (x : Queue) : (s.setQueue q x).pending = s.pending := rfl
@[simp] theorem setQueue_clk (q : Nat) (x : Queue) : (s.setQueue q x).clk = s.clk := rfl
@[simp] theorem setQueue_sys (q : Nat) (x : Queue) : (s.setQueue q x).sys = s.sys := rfl
@[simp] theorem setQueue_houses (q : Nat) (x : Queue) : (s.setQueue q x).houses = s.houses := rfl
@[simp] theorem setQueue_rasters (q : Nat) (x : Queue) : (s.setQueue q x).rasters = s.rasters := rfl
@[simp] theorem setQueue_rx (q : Nat) (x : Queue) : (s.setQueue q x).rx = s.rx := rfl
@[simp] theorem setQueue_tx (q : Nat) (x : Queue) : (s.setQueue q x).tx = s.tx := rfl
@[simp] theorem setQueue_rxStreams (q : Nat) (x : Queue) : (s.setQueue q x).rxStreams = s.rxStreams := rfl
@[simp] theorem setQueue_txStreams (q : Nat) (x : Queue) : (s.setQueue q x).txStreams = s.txStreams := rfl
@[simp] theorem setQueue_spi (q : Nat) (x : Queue) : (s.setQueue q x).spi = s.spi := rfl
@[simp] theorem setQueue_jobs (q : Nat) (x : Queue) : (s.setQueue q x).jobs = s.jobs := rfl
@[simp] theorem setQueue_nextJob (q : Nat) (x : Queue) : (s.setQueue q x).nextJob = s.nextJob := rfl
@[simp] theorem setQueue_hub (q : Nat) (x : Queue) : (s.setQueue q x).hub = s.hub := rfl
@[simp] theorem setQueue_cnt (q : Nat) (x : Queue) : (s.setQueue q x).cnt = s.cnt := rfl
@[simp] theorem setQueue_pair (q : Nat) (x : Queue) : (s.setQueue q x).pair = s.pair := rfl
@[simp] theorem setQueue_clocks (q : Nat) (x : Queue) : (s.setQueue q x).clocks = s.clocks := rfl
@[simp] theorem setQueue_keys (q : Nat) (x : Queue) : (s.setQueue q x).keys = s.keys := rfl
@[simp] theorem setQueue_nv (q : Nat) (x : Queue) : (s.setQueue q x).nv = s.nv := rfl
@[simp] theorem setQueue_pins (q : Nat) (x : Queue) : (s.setQueue q x).pins = s.pins := rfl
@[simp] theorem setQueue_routes (q : Nat) (x : Queue) : (s.setQueue q x).routes = s.routes := rfl
@[simp] theorem setQueue_pond (q : Nat) (x : Queue) : (s.setQueue q x).pond = s.pond := rfl
@[simp] theorem setQueue_engines (q : Nat) (x : Queue) : (s.setQueue q x).engines = s.engines := rfl
@[simp] theorem setQueue_comp (q : Nat) (x : Queue) : (s.setQueue q x).comp = s.comp := rfl
@[simp] theorem setQueue_audio (q : Nat) (x : Queue) : (s.setQueue q x).audio = s.audio := rfl
@[simp] theorem setQueue_out (q : Nat) (x : Queue) : (s.setQueue q x).out = s.out := rfl
@[simp] theorem setQueue_fresh (q : Nat) (x : Queue) : (s.setQueue q x).fresh = s.fresh := rfl

@[simp] theorem sramWrite_pending (a : Nat) (bs : List Byte) : (s.sramWrite a bs).pending = s.pending := rfl
@[simp] theorem sramWrite_clk (a : Nat) (bs : List Byte) : (s.sramWrite a bs).clk = s.clk := rfl
@[simp] theorem sramWrite_sys (a : Nat) (bs : List Byte) : (s.sramWrite a bs).sys = s.sys := rfl
@[simp] theorem sramWrite_houses (a : Nat) (bs : List Byte) : (s.sramWrite a bs).houses = s.houses := rfl
@[simp] theorem sramWrite_rasters (a : Nat) (bs : List Byte) : (s.sramWrite a bs).rasters = s.rasters := rfl
@[simp] theorem sramWrite_rx (a : Nat) (bs : List Byte) : (s.sramWrite a bs).rx = s.rx := rfl
@[simp] theorem sramWrite_tx (a : Nat) (bs : List Byte) : (s.sramWrite a bs).tx = s.tx := rfl
@[simp] theorem sramWrite_rxStreams (a : Nat) (bs : List Byte) : (s.sramWrite a bs).rxStreams = s.rxStreams := rfl
@[simp] theorem sramWrite_txStreams (a : Nat) (bs : List Byte) : (s.sramWrite a bs).txStreams = s.txStreams := rfl
@[simp] theorem sramWrite_queues (a : Nat) (bs : List Byte) : (s.sramWrite a bs).queues = s.queues := rfl
@[simp] theorem sramWrite_spi (a : Nat) (bs : List Byte) : (s.sramWrite a bs).spi = s.spi := rfl
@[simp] theorem sramWrite_jobs (a : Nat) (bs : List Byte) : (s.sramWrite a bs).jobs = s.jobs := rfl
@[simp] theorem sramWrite_nextJob (a : Nat) (bs : List Byte) : (s.sramWrite a bs).nextJob = s.nextJob := rfl
@[simp] theorem sramWrite_cnt (a : Nat) (bs : List Byte) : (s.sramWrite a bs).cnt = s.cnt := rfl
@[simp] theorem sramWrite_pair (a : Nat) (bs : List Byte) : (s.sramWrite a bs).pair = s.pair := rfl
@[simp] theorem sramWrite_clocks (a : Nat) (bs : List Byte) : (s.sramWrite a bs).clocks = s.clocks := rfl
@[simp] theorem sramWrite_keys (a : Nat) (bs : List Byte) : (s.sramWrite a bs).keys = s.keys := rfl
@[simp] theorem sramWrite_nv (a : Nat) (bs : List Byte) : (s.sramWrite a bs).nv = s.nv := rfl
@[simp] theorem sramWrite_pins (a : Nat) (bs : List Byte) : (s.sramWrite a bs).pins = s.pins := rfl
@[simp] theorem sramWrite_routes (a : Nat) (bs : List Byte) : (s.sramWrite a bs).routes = s.routes := rfl
@[simp] theorem sramWrite_pond (a : Nat) (bs : List Byte) : (s.sramWrite a bs).pond = s.pond := rfl
@[simp] theorem sramWrite_engines (a : Nat) (bs : List Byte) : (s.sramWrite a bs).engines = s.engines := rfl
@[simp] theorem sramWrite_comp (a : Nat) (bs : List Byte) : (s.sramWrite a bs).comp = s.comp := rfl
@[simp] theorem sramWrite_audio (a : Nat) (bs : List Byte) : (s.sramWrite a bs).audio = s.audio := rfl
@[simp] theorem sramWrite_out (a : Nat) (bs : List Byte) : (s.sramWrite a bs).out = s.out := rfl
@[simp] theorem sramWrite_fresh (a : Nat) (bs : List Byte) : (s.sramWrite a bs).fresh = s.fresh := rfl

@[simp] theorem markDone_pending (q seq : Nat) : (s.markDone q seq).pending = s.pending := rfl
@[simp] theorem markDone_clk (q seq : Nat) : (s.markDone q seq).clk = s.clk := rfl
@[simp] theorem markDone_sys (q seq : Nat) : (s.markDone q seq).sys = s.sys := rfl
@[simp] theorem markDone_houses (q seq : Nat) : (s.markDone q seq).houses = s.houses := rfl
@[simp] theorem markDone_rasters (q seq : Nat) : (s.markDone q seq).rasters = s.rasters := rfl
@[simp] theorem markDone_rx (q seq : Nat) : (s.markDone q seq).rx = s.rx := rfl
@[simp] theorem markDone_tx (q seq : Nat) : (s.markDone q seq).tx = s.tx := rfl
@[simp] theorem markDone_rxStreams (q seq : Nat) : (s.markDone q seq).rxStreams = s.rxStreams := rfl
@[simp] theorem markDone_txStreams (q seq : Nat) : (s.markDone q seq).txStreams = s.txStreams := rfl
@[simp] theorem markDone_spi (q seq : Nat) : (s.markDone q seq).spi = s.spi := rfl
@[simp] theorem markDone_jobs (q seq : Nat) : (s.markDone q seq).jobs = s.jobs := rfl
@[simp] theorem markDone_nextJob (q seq : Nat) : (s.markDone q seq).nextJob = s.nextJob := rfl
@[simp] theorem markDone_hub (q seq : Nat) : (s.markDone q seq).hub = s.hub := rfl
@[simp] theorem markDone_cnt (q seq : Nat) : (s.markDone q seq).cnt = s.cnt := rfl
@[simp] theorem markDone_pair (q seq : Nat) : (s.markDone q seq).pair = s.pair := rfl
@[simp] theorem markDone_clocks (q seq : Nat) : (s.markDone q seq).clocks = s.clocks := rfl
@[simp] theorem markDone_keys (q seq : Nat) : (s.markDone q seq).keys = s.keys := rfl
@[simp] theorem markDone_nv (q seq : Nat) : (s.markDone q seq).nv = s.nv := rfl
@[simp] theorem markDone_pins (q seq : Nat) : (s.markDone q seq).pins = s.pins := rfl
@[simp] theorem markDone_routes (q seq : Nat) : (s.markDone q seq).routes = s.routes := rfl
@[simp] theorem markDone_pond (q seq : Nat) : (s.markDone q seq).pond = s.pond := rfl
@[simp] theorem markDone_engines (q seq : Nat) : (s.markDone q seq).engines = s.engines := rfl
@[simp] theorem markDone_comp (q seq : Nat) : (s.markDone q seq).comp = s.comp := rfl
@[simp] theorem markDone_audio (q seq : Nat) : (s.markDone q seq).audio = s.audio := rfl
@[simp] theorem markDone_out (q seq : Nat) : (s.markDone q seq).out = s.out := rfl
@[simp] theorem markDone_fresh (q seq : Nat) : (s.markDone q seq).fresh = s.fresh := rfl

@[simp] theorem setJob_pending (j : Job) : (s.setJob j).pending = s.pending := rfl
@[simp] theorem setJob_clk (j : Job) : (s.setJob j).clk = s.clk := rfl
@[simp] theorem setJob_sys (j : Job) : (s.setJob j).sys = s.sys := rfl
@[simp] theorem setJob_houses (j : Job) : (s.setJob j).houses = s.houses := rfl
@[simp] theorem setJob_rasters (j : Job) : (s.setJob j).rasters = s.rasters := rfl
@[simp] theorem setJob_rx (j : Job) : (s.setJob j).rx = s.rx := rfl
@[simp] theorem setJob_tx (j : Job) : (s.setJob j).tx = s.tx := rfl
@[simp] theorem setJob_rxStreams (j : Job) : (s.setJob j).rxStreams = s.rxStreams := rfl
@[simp] theorem setJob_txStreams (j : Job) : (s.setJob j).txStreams = s.txStreams := rfl
@[simp] theorem setJob_queues (j : Job) : (s.setJob j).queues = s.queues := rfl
@[simp] theorem setJob_spi (j : Job) : (s.setJob j).spi = s.spi := rfl
@[simp] theorem setJob_nextJob (j : Job) : (s.setJob j).nextJob = s.nextJob := rfl
@[simp] theorem setJob_hub (j : Job) : (s.setJob j).hub = s.hub := rfl
@[simp] theorem setJob_cnt (j : Job) : (s.setJob j).cnt = s.cnt := rfl
@[simp] theorem setJob_pair (j : Job) : (s.setJob j).pair = s.pair := rfl
@[simp] theorem setJob_clocks (j : Job) : (s.setJob j).clocks = s.clocks := rfl
@[simp] theorem setJob_keys (j : Job) : (s.setJob j).keys = s.keys := rfl
@[simp] theorem setJob_nv (j : Job) : (s.setJob j).nv = s.nv := rfl
@[simp] theorem setJob_pins (j : Job) : (s.setJob j).pins = s.pins := rfl
@[simp] theorem setJob_routes (j : Job) : (s.setJob j).routes = s.routes := rfl
@[simp] theorem setJob_pond (j : Job) : (s.setJob j).pond = s.pond := rfl
@[simp] theorem setJob_engines (j : Job) : (s.setJob j).engines = s.engines := rfl
@[simp] theorem setJob_comp (j : Job) : (s.setJob j).comp = s.comp := rfl
@[simp] theorem setJob_audio (j : Job) : (s.setJob j).audio = s.audio := rfl
@[simp] theorem setJob_out (j : Job) : (s.setJob j).out = s.out := rfl
@[simp] theorem setJob_fresh (j : Job) : (s.setJob j).fresh = s.fresh := rfl

@[simp] theorem setRx_pending (b : Nat) (d : RxDir) : (s.setRx b d).pending = s.pending := rfl
@[simp] theorem setRx_clk (b : Nat) (d : RxDir) : (s.setRx b d).clk = s.clk := rfl
@[simp] theorem setRx_sys (b : Nat) (d : RxDir) : (s.setRx b d).sys = s.sys := rfl
@[simp] theorem setRx_houses (b : Nat) (d : RxDir) : (s.setRx b d).houses = s.houses := rfl
@[simp] theorem setRx_rasters (b : Nat) (d : RxDir) : (s.setRx b d).rasters = s.rasters := rfl
@[simp] theorem setRx_tx (b : Nat) (d : RxDir) : (s.setRx b d).tx = s.tx := rfl
@[simp] theorem setRx_rxStreams (b : Nat) (d : RxDir) : (s.setRx b d).rxStreams = s.rxStreams := rfl
@[simp] theorem setRx_txStreams (b : Nat) (d : RxDir) : (s.setRx b d).txStreams = s.txStreams := rfl
@[simp] theorem setRx_queues (b : Nat) (d : RxDir) : (s.setRx b d).queues = s.queues := rfl
@[simp] theorem setRx_spi (b : Nat) (d : RxDir) : (s.setRx b d).spi = s.spi := rfl
@[simp] theorem setRx_jobs (b : Nat) (d : RxDir) : (s.setRx b d).jobs = s.jobs := rfl
@[simp] theorem setRx_nextJob (b : Nat) (d : RxDir) : (s.setRx b d).nextJob = s.nextJob := rfl
@[simp] theorem setRx_hub (b : Nat) (d : RxDir) : (s.setRx b d).hub = s.hub := rfl
@[simp] theorem setRx_cnt (b : Nat) (d : RxDir) : (s.setRx b d).cnt = s.cnt := rfl
@[simp] theorem setRx_pair (b : Nat) (d : RxDir) : (s.setRx b d).pair = s.pair := rfl
@[simp] theorem setRx_clocks (b : Nat) (d : RxDir) : (s.setRx b d).clocks = s.clocks := rfl
@[simp] theorem setRx_keys (b : Nat) (d : RxDir) : (s.setRx b d).keys = s.keys := rfl
@[simp] theorem setRx_nv (b : Nat) (d : RxDir) : (s.setRx b d).nv = s.nv := rfl
@[simp] theorem setRx_pins (b : Nat) (d : RxDir) : (s.setRx b d).pins = s.pins := rfl
@[simp] theorem setRx_routes (b : Nat) (d : RxDir) : (s.setRx b d).routes = s.routes := rfl
@[simp] theorem setRx_pond (b : Nat) (d : RxDir) : (s.setRx b d).pond = s.pond := rfl
@[simp] theorem setRx_engines (b : Nat) (d : RxDir) : (s.setRx b d).engines = s.engines := rfl
@[simp] theorem setRx_comp (b : Nat) (d : RxDir) : (s.setRx b d).comp = s.comp := rfl
@[simp] theorem setRx_audio (b : Nat) (d : RxDir) : (s.setRx b d).audio = s.audio := rfl
@[simp] theorem setRx_out (b : Nat) (d : RxDir) : (s.setRx b d).out = s.out := rfl
@[simp] theorem setRx_fresh (b : Nat) (d : RxDir) : (s.setRx b d).fresh = s.fresh := rfl

@[simp] theorem setTx_pending (b : Nat) (d : TxDir) : (s.setTx b d).pending = s.pending := rfl
@[simp] theorem setTx_clk (b : Nat) (d : TxDir) : (s.setTx b d).clk = s.clk := rfl
@[simp] theorem setTx_sys (b : Nat) (d : TxDir) : (s.setTx b d).sys = s.sys := rfl
@[simp] theorem setTx_houses (b : Nat) (d : TxDir) : (s.setTx b d).houses = s.houses := rfl
@[simp] theorem setTx_rasters (b : Nat) (d : TxDir) : (s.setTx b d).rasters = s.rasters := rfl
@[simp] theorem setTx_rx (b : Nat) (d : TxDir) : (s.setTx b d).rx = s.rx := rfl
@[simp] theorem setTx_rxStreams (b : Nat) (d : TxDir) : (s.setTx b d).rxStreams = s.rxStreams := rfl
@[simp] theorem setTx_txStreams (b : Nat) (d : TxDir) : (s.setTx b d).txStreams = s.txStreams := rfl
@[simp] theorem setTx_queues (b : Nat) (d : TxDir) : (s.setTx b d).queues = s.queues := rfl
@[simp] theorem setTx_spi (b : Nat) (d : TxDir) : (s.setTx b d).spi = s.spi := rfl
@[simp] theorem setTx_jobs (b : Nat) (d : TxDir) : (s.setTx b d).jobs = s.jobs := rfl
@[simp] theorem setTx_nextJob (b : Nat) (d : TxDir) : (s.setTx b d).nextJob = s.nextJob := rfl
@[simp] theorem setTx_hub (b : Nat) (d : TxDir) : (s.setTx b d).hub = s.hub := rfl
@[simp] theorem setTx_cnt (b : Nat) (d : TxDir) : (s.setTx b d).cnt = s.cnt := rfl
@[simp] theorem setTx_pair (b : Nat) (d : TxDir) : (s.setTx b d).pair = s.pair := rfl
@[simp] theorem setTx_clocks (b : Nat) (d : TxDir) : (s.setTx b d).clocks = s.clocks := rfl
@[simp] theorem setTx_keys (b : Nat) (d : TxDir) : (s.setTx b d).keys = s.keys := rfl
@[simp] theorem setTx_nv (b : Nat) (d : TxDir) : (s.setTx b d).nv = s.nv := rfl
@[simp] theorem setTx_pins (b : Nat) (d : TxDir) : (s.setTx b d).pins = s.pins := rfl
@[simp] theorem setTx_routes (b : Nat) (d : TxDir) : (s.setTx b d).routes = s.routes := rfl
@[simp] theorem setTx_pond (b : Nat) (d : TxDir) : (s.setTx b d).pond = s.pond := rfl
@[simp] theorem setTx_engines (b : Nat) (d : TxDir) : (s.setTx b d).engines = s.engines := rfl
@[simp] theorem setTx_comp (b : Nat) (d : TxDir) : (s.setTx b d).comp = s.comp := rfl
@[simp] theorem setTx_audio (b : Nat) (d : TxDir) : (s.setTx b d).audio = s.audio := rfl
@[simp] theorem setTx_out (b : Nat) (d : TxDir) : (s.setTx b d).out = s.out := rfl
@[simp] theorem setTx_fresh (b : Nat) (d : TxDir) : (s.setTx b d).fresh = s.fresh := rfl

@[simp] theorem setRxStream_pending (n : Nat) (x : Option RxStream) : (s.setRxStream n x).pending = s.pending := rfl
@[simp] theorem setRxStream_clk (n : Nat) (x : Option RxStream) : (s.setRxStream n x).clk = s.clk := rfl
@[simp] theorem setRxStream_sys (n : Nat) (x : Option RxStream) : (s.setRxStream n x).sys = s.sys := rfl
@[simp] theorem setRxStream_houses (n : Nat) (x : Option RxStream) : (s.setRxStream n x).houses = s.houses := rfl
@[simp] theorem setRxStream_rasters (n : Nat) (x : Option RxStream) : (s.setRxStream n x).rasters = s.rasters := rfl
@[simp] theorem setRxStream_rx (n : Nat) (x : Option RxStream) : (s.setRxStream n x).rx = s.rx := rfl
@[simp] theorem setRxStream_tx (n : Nat) (x : Option RxStream) : (s.setRxStream n x).tx = s.tx := rfl
@[simp] theorem setRxStream_txStreams (n : Nat) (x : Option RxStream) : (s.setRxStream n x).txStreams = s.txStreams := rfl
@[simp] theorem setRxStream_queues (n : Nat) (x : Option RxStream) : (s.setRxStream n x).queues = s.queues := rfl
@[simp] theorem setRxStream_spi (n : Nat) (x : Option RxStream) : (s.setRxStream n x).spi = s.spi := rfl
@[simp] theorem setRxStream_jobs (n : Nat) (x : Option RxStream) : (s.setRxStream n x).jobs = s.jobs := rfl
@[simp] theorem setRxStream_nextJob (n : Nat) (x : Option RxStream) : (s.setRxStream n x).nextJob = s.nextJob := rfl
@[simp] theorem setRxStream_hub (n : Nat) (x : Option RxStream) : (s.setRxStream n x).hub = s.hub := rfl
@[simp] theorem setRxStream_cnt (n : Nat) (x : Option RxStream) : (s.setRxStream n x).cnt = s.cnt := rfl
@[simp] theorem setRxStream_pair (n : Nat) (x : Option RxStream) : (s.setRxStream n x).pair = s.pair := rfl
@[simp] theorem setRxStream_clocks (n : Nat) (x : Option RxStream) : (s.setRxStream n x).clocks = s.clocks := rfl
@[simp] theorem setRxStream_keys (n : Nat) (x : Option RxStream) : (s.setRxStream n x).keys = s.keys := rfl
@[simp] theorem setRxStream_nv (n : Nat) (x : Option RxStream) : (s.setRxStream n x).nv = s.nv := rfl
@[simp] theorem setRxStream_pins (n : Nat) (x : Option RxStream) : (s.setRxStream n x).pins = s.pins := rfl
@[simp] theorem setRxStream_routes (n : Nat) (x : Option RxStream) : (s.setRxStream n x).routes = s.routes := rfl
@[simp] theorem setRxStream_pond (n : Nat) (x : Option RxStream) : (s.setRxStream n x).pond = s.pond := rfl
@[simp] theorem setRxStream_engines (n : Nat) (x : Option RxStream) : (s.setRxStream n x).engines = s.engines := rfl
@[simp] theorem setRxStream_comp (n : Nat) (x : Option RxStream) : (s.setRxStream n x).comp = s.comp := rfl
@[simp] theorem setRxStream_audio (n : Nat) (x : Option RxStream) : (s.setRxStream n x).audio = s.audio := rfl
@[simp] theorem setRxStream_out (n : Nat) (x : Option RxStream) : (s.setRxStream n x).out = s.out := rfl
@[simp] theorem setRxStream_fresh (n : Nat) (x : Option RxStream) : (s.setRxStream n x).fresh = s.fresh := rfl

@[simp] theorem setTxStream_pending (n : Nat) (x : Option TxStream) : (s.setTxStream n x).pending = s.pending := rfl
@[simp] theorem setTxStream_clk (n : Nat) (x : Option TxStream) : (s.setTxStream n x).clk = s.clk := rfl
@[simp] theorem setTxStream_sys (n : Nat) (x : Option TxStream) : (s.setTxStream n x).sys = s.sys := rfl
@[simp] theorem setTxStream_houses (n : Nat) (x : Option TxStream) : (s.setTxStream n x).houses = s.houses := rfl
@[simp] theorem setTxStream_rasters (n : Nat) (x : Option TxStream) : (s.setTxStream n x).rasters = s.rasters := rfl
@[simp] theorem setTxStream_rx (n : Nat) (x : Option TxStream) : (s.setTxStream n x).rx = s.rx := rfl
@[simp] theorem setTxStream_tx (n : Nat) (x : Option TxStream) : (s.setTxStream n x).tx = s.tx := rfl
@[simp] theorem setTxStream_rxStreams (n : Nat) (x : Option TxStream) : (s.setTxStream n x).rxStreams = s.rxStreams := rfl
@[simp] theorem setTxStream_queues (n : Nat) (x : Option TxStream) : (s.setTxStream n x).queues = s.queues := rfl
@[simp] theorem setTxStream_spi (n : Nat) (x : Option TxStream) : (s.setTxStream n x).spi = s.spi := rfl
@[simp] theorem setTxStream_jobs (n : Nat) (x : Option TxStream) : (s.setTxStream n x).jobs = s.jobs := rfl
@[simp] theorem setTxStream_nextJob (n : Nat) (x : Option TxStream) : (s.setTxStream n x).nextJob = s.nextJob := rfl
@[simp] theorem setTxStream_hub (n : Nat) (x : Option TxStream) : (s.setTxStream n x).hub = s.hub := rfl
@[simp] theorem setTxStream_cnt (n : Nat) (x : Option TxStream) : (s.setTxStream n x).cnt = s.cnt := rfl
@[simp] theorem setTxStream_pair (n : Nat) (x : Option TxStream) : (s.setTxStream n x).pair = s.pair := rfl
@[simp] theorem setTxStream_clocks (n : Nat) (x : Option TxStream) : (s.setTxStream n x).clocks = s.clocks := rfl
@[simp] theorem setTxStream_keys (n : Nat) (x : Option TxStream) : (s.setTxStream n x).keys = s.keys := rfl
@[simp] theorem setTxStream_nv (n : Nat) (x : Option TxStream) : (s.setTxStream n x).nv = s.nv := rfl
@[simp] theorem setTxStream_pins (n : Nat) (x : Option TxStream) : (s.setTxStream n x).pins = s.pins := rfl
@[simp] theorem setTxStream_routes (n : Nat) (x : Option TxStream) : (s.setTxStream n x).routes = s.routes := rfl
@[simp] theorem setTxStream_pond (n : Nat) (x : Option TxStream) : (s.setTxStream n x).pond = s.pond := rfl
@[simp] theorem setTxStream_engines (n : Nat) (x : Option TxStream) : (s.setTxStream n x).engines = s.engines := rfl
@[simp] theorem setTxStream_comp (n : Nat) (x : Option TxStream) : (s.setTxStream n x).comp = s.comp := rfl
@[simp] theorem setTxStream_audio (n : Nat) (x : Option TxStream) : (s.setTxStream n x).audio = s.audio := rfl
@[simp] theorem setTxStream_out (n : Nat) (x : Option TxStream) : (s.setTxStream n x).out = s.out := rfl
@[simp] theorem setTxStream_fresh (n : Nat) (x : Option TxStream) : (s.setTxStream n x).fresh = s.fresh := rfl

@[simp] theorem setSlot_pending (i : Nat) (x : Slot) : (s.setSlot i x).pending = s.pending := rfl
@[simp] theorem setSlot_clk (i : Nat) (x : Slot) : (s.setSlot i x).clk = s.clk := rfl
@[simp] theorem setSlot_sys (i : Nat) (x : Slot) : (s.setSlot i x).sys = s.sys := rfl
@[simp] theorem setSlot_houses (i : Nat) (x : Slot) : (s.setSlot i x).houses = s.houses := rfl
@[simp] theorem setSlot_rasters (i : Nat) (x : Slot) : (s.setSlot i x).rasters = s.rasters := rfl
@[simp] theorem setSlot_rx (i : Nat) (x : Slot) : (s.setSlot i x).rx = s.rx := rfl
@[simp] theorem setSlot_tx (i : Nat) (x : Slot) : (s.setSlot i x).tx = s.tx := rfl
@[simp] theorem setSlot_rxStreams (i : Nat) (x : Slot) : (s.setSlot i x).rxStreams = s.rxStreams := rfl
@[simp] theorem setSlot_txStreams (i : Nat) (x : Slot) : (s.setSlot i x).txStreams = s.txStreams := rfl
@[simp] theorem setSlot_queues (i : Nat) (x : Slot) : (s.setSlot i x).queues = s.queues := rfl
@[simp] theorem setSlot_spi (i : Nat) (x : Slot) : (s.setSlot i x).spi = s.spi := rfl
@[simp] theorem setSlot_jobs (i : Nat) (x : Slot) : (s.setSlot i x).jobs = s.jobs := rfl
@[simp] theorem setSlot_nextJob (i : Nat) (x : Slot) : (s.setSlot i x).nextJob = s.nextJob := rfl
@[simp] theorem setSlot_hub (i : Nat) (x : Slot) : (s.setSlot i x).hub = s.hub := rfl
@[simp] theorem setSlot_cnt (i : Nat) (x : Slot) : (s.setSlot i x).cnt = s.cnt := rfl
@[simp] theorem setSlot_pair (i : Nat) (x : Slot) : (s.setSlot i x).pair = s.pair := rfl
@[simp] theorem setSlot_clocks (i : Nat) (x : Slot) : (s.setSlot i x).clocks = s.clocks := rfl
@[simp] theorem setSlot_nv (i : Nat) (x : Slot) : (s.setSlot i x).nv = s.nv := rfl
@[simp] theorem setSlot_pins (i : Nat) (x : Slot) : (s.setSlot i x).pins = s.pins := rfl
@[simp] theorem setSlot_routes (i : Nat) (x : Slot) : (s.setSlot i x).routes = s.routes := rfl
@[simp] theorem setSlot_pond (i : Nat) (x : Slot) : (s.setSlot i x).pond = s.pond := rfl
@[simp] theorem setSlot_engines (i : Nat) (x : Slot) : (s.setSlot i x).engines = s.engines := rfl
@[simp] theorem setSlot_comp (i : Nat) (x : Slot) : (s.setSlot i x).comp = s.comp := rfl
@[simp] theorem setSlot_audio (i : Nat) (x : Slot) : (s.setSlot i x).audio = s.audio := rfl
@[simp] theorem setSlot_out (i : Nat) (x : Slot) : (s.setSlot i x).out = s.out := rfl
@[simp] theorem setSlot_fresh (i : Nat) (x : Slot) : (s.setSlot i x).fresh = s.fresh := rfl

@[simp] theorem setFence_pending (f : Nat) (x : Fence) : (s.setFence f x).pending = s.pending := rfl
@[simp] theorem setFence_clk (f : Nat) (x : Fence) : (s.setFence f x).clk = s.clk := rfl
@[simp] theorem setFence_sys (f : Nat) (x : Fence) : (s.setFence f x).sys = s.sys := rfl
@[simp] theorem setFence_houses (f : Nat) (x : Fence) : (s.setFence f x).houses = s.houses := rfl
@[simp] theorem setFence_rasters (f : Nat) (x : Fence) : (s.setFence f x).rasters = s.rasters := rfl
@[simp] theorem setFence_rx (f : Nat) (x : Fence) : (s.setFence f x).rx = s.rx := rfl
@[simp] theorem setFence_tx (f : Nat) (x : Fence) : (s.setFence f x).tx = s.tx := rfl
@[simp] theorem setFence_rxStreams (f : Nat) (x : Fence) : (s.setFence f x).rxStreams = s.rxStreams := rfl
@[simp] theorem setFence_txStreams (f : Nat) (x : Fence) : (s.setFence f x).txStreams = s.txStreams := rfl
@[simp] theorem setFence_queues (f : Nat) (x : Fence) : (s.setFence f x).queues = s.queues := rfl
@[simp] theorem setFence_spi (f : Nat) (x : Fence) : (s.setFence f x).spi = s.spi := rfl
@[simp] theorem setFence_jobs (f : Nat) (x : Fence) : (s.setFence f x).jobs = s.jobs := rfl
@[simp] theorem setFence_nextJob (f : Nat) (x : Fence) : (s.setFence f x).nextJob = s.nextJob := rfl
@[simp] theorem setFence_hub (f : Nat) (x : Fence) : (s.setFence f x).hub = s.hub := rfl
@[simp] theorem setFence_cnt (f : Nat) (x : Fence) : (s.setFence f x).cnt = s.cnt := rfl
@[simp] theorem setFence_pair (f : Nat) (x : Fence) : (s.setFence f x).pair = s.pair := rfl
@[simp] theorem setFence_clocks (f : Nat) (x : Fence) : (s.setFence f x).clocks = s.clocks := rfl
@[simp] theorem setFence_keys (f : Nat) (x : Fence) : (s.setFence f x).keys = s.keys := rfl
@[simp] theorem setFence_nv (f : Nat) (x : Fence) : (s.setFence f x).nv = s.nv := rfl
@[simp] theorem setFence_pins (f : Nat) (x : Fence) : (s.setFence f x).pins = s.pins := rfl
@[simp] theorem setFence_routes (f : Nat) (x : Fence) : (s.setFence f x).routes = s.routes := rfl
@[simp] theorem setFence_pond (f : Nat) (x : Fence) : (s.setFence f x).pond = s.pond := rfl
@[simp] theorem setFence_engines (f : Nat) (x : Fence) : (s.setFence f x).engines = s.engines := rfl
@[simp] theorem setFence_audio (f : Nat) (x : Fence) : (s.setFence f x).audio = s.audio := rfl
@[simp] theorem setFence_out (f : Nat) (x : Fence) : (s.setFence f x).out = s.out := rfl
@[simp] theorem setFence_fresh (f : Nat) (x : Fence) : (s.setFence f x).fresh = s.fresh := rfl

@[simp] theorem setGpio_pending (p : Nat) (x : Gpio) : (s.setGpio p x).pending = s.pending := rfl
@[simp] theorem setGpio_clk (p : Nat) (x : Gpio) : (s.setGpio p x).clk = s.clk := rfl
@[simp] theorem setGpio_sys (p : Nat) (x : Gpio) : (s.setGpio p x).sys = s.sys := rfl
@[simp] theorem setGpio_houses (p : Nat) (x : Gpio) : (s.setGpio p x).houses = s.houses := rfl
@[simp] theorem setGpio_rasters (p : Nat) (x : Gpio) : (s.setGpio p x).rasters = s.rasters := rfl
@[simp] theorem setGpio_rx (p : Nat) (x : Gpio) : (s.setGpio p x).rx = s.rx := rfl
@[simp] theorem setGpio_tx (p : Nat) (x : Gpio) : (s.setGpio p x).tx = s.tx := rfl
@[simp] theorem setGpio_rxStreams (p : Nat) (x : Gpio) : (s.setGpio p x).rxStreams = s.rxStreams := rfl
@[simp] theorem setGpio_txStreams (p : Nat) (x : Gpio) : (s.setGpio p x).txStreams = s.txStreams := rfl
@[simp] theorem setGpio_queues (p : Nat) (x : Gpio) : (s.setGpio p x).queues = s.queues := rfl
@[simp] theorem setGpio_spi (p : Nat) (x : Gpio) : (s.setGpio p x).spi = s.spi := rfl
@[simp] theorem setGpio_jobs (p : Nat) (x : Gpio) : (s.setGpio p x).jobs = s.jobs := rfl
@[simp] theorem setGpio_nextJob (p : Nat) (x : Gpio) : (s.setGpio p x).nextJob = s.nextJob := rfl
@[simp] theorem setGpio_cnt (p : Nat) (x : Gpio) : (s.setGpio p x).cnt = s.cnt := rfl
@[simp] theorem setGpio_pair (p : Nat) (x : Gpio) : (s.setGpio p x).pair = s.pair := rfl
@[simp] theorem setGpio_clocks (p : Nat) (x : Gpio) : (s.setGpio p x).clocks = s.clocks := rfl
@[simp] theorem setGpio_keys (p : Nat) (x : Gpio) : (s.setGpio p x).keys = s.keys := rfl
@[simp] theorem setGpio_nv (p : Nat) (x : Gpio) : (s.setGpio p x).nv = s.nv := rfl
@[simp] theorem setGpio_pins (p : Nat) (x : Gpio) : (s.setGpio p x).pins = s.pins := rfl
@[simp] theorem setGpio_routes (p : Nat) (x : Gpio) : (s.setGpio p x).routes = s.routes := rfl
@[simp] theorem setGpio_pond (p : Nat) (x : Gpio) : (s.setGpio p x).pond = s.pond := rfl
@[simp] theorem setGpio_engines (p : Nat) (x : Gpio) : (s.setGpio p x).engines = s.engines := rfl
@[simp] theorem setGpio_comp (p : Nat) (x : Gpio) : (s.setGpio p x).comp = s.comp := rfl
@[simp] theorem setGpio_audio (p : Nat) (x : Gpio) : (s.setGpio p x).audio = s.audio := rfl
@[simp] theorem setGpio_out (p : Nat) (x : Gpio) : (s.setGpio p x).out = s.out := rfl
@[simp] theorem setGpio_fresh (p : Nat) (x : Gpio) : (s.setGpio p x).fresh = s.fresh := rfl

@[simp] theorem setPair_pending (p : Pair) : (s.setPair p).pending = s.pending := rfl
@[simp] theorem setPair_clk (p : Pair) : (s.setPair p).clk = s.clk := rfl
@[simp] theorem setPair_sys (p : Pair) : (s.setPair p).sys = s.sys := rfl
@[simp] theorem setPair_houses (p : Pair) : (s.setPair p).houses = s.houses := rfl
@[simp] theorem setPair_rasters (p : Pair) : (s.setPair p).rasters = s.rasters := rfl
@[simp] theorem setPair_rx (p : Pair) : (s.setPair p).rx = s.rx := rfl
@[simp] theorem setPair_tx (p : Pair) : (s.setPair p).tx = s.tx := rfl
@[simp] theorem setPair_rxStreams (p : Pair) : (s.setPair p).rxStreams = s.rxStreams := rfl
@[simp] theorem setPair_txStreams (p : Pair) : (s.setPair p).txStreams = s.txStreams := rfl
@[simp] theorem setPair_queues (p : Pair) : (s.setPair p).queues = s.queues := rfl
@[simp] theorem setPair_spi (p : Pair) : (s.setPair p).spi = s.spi := rfl
@[simp] theorem setPair_jobs (p : Pair) : (s.setPair p).jobs = s.jobs := rfl
@[simp] theorem setPair_nextJob (p : Pair) : (s.setPair p).nextJob = s.nextJob := rfl
@[simp] theorem setPair_hub (p : Pair) : (s.setPair p).hub = s.hub := rfl
@[simp] theorem setPair_cnt (p : Pair) : (s.setPair p).cnt = s.cnt := rfl
@[simp] theorem setPair_clocks (p : Pair) : (s.setPair p).clocks = s.clocks := rfl
@[simp] theorem setPair_keys (p : Pair) : (s.setPair p).keys = s.keys := rfl
@[simp] theorem setPair_nv (p : Pair) : (s.setPair p).nv = s.nv := rfl
@[simp] theorem setPair_pins (p : Pair) : (s.setPair p).pins = s.pins := rfl
@[simp] theorem setPair_routes (p : Pair) : (s.setPair p).routes = s.routes := rfl
@[simp] theorem setPair_pond (p : Pair) : (s.setPair p).pond = s.pond := rfl
@[simp] theorem setPair_engines (p : Pair) : (s.setPair p).engines = s.engines := rfl
@[simp] theorem setPair_comp (p : Pair) : (s.setPair p).comp = s.comp := rfl
@[simp] theorem setPair_audio (p : Pair) : (s.setPair p).audio = s.audio := rfl
@[simp] theorem setPair_out (p : Pair) : (s.setPair p).out = s.out := rfl
@[simp] theorem setPair_fresh (p : Pair) : (s.setPair p).fresh = s.fresh := rfl

@[simp] theorem pondWrite_pending (a : Nat) (bs : List Byte) : (s.pondWrite a bs).pending = s.pending := rfl
@[simp] theorem pondWrite_clk (a : Nat) (bs : List Byte) : (s.pondWrite a bs).clk = s.clk := rfl
@[simp] theorem pondWrite_sys (a : Nat) (bs : List Byte) : (s.pondWrite a bs).sys = s.sys := rfl
@[simp] theorem pondWrite_houses (a : Nat) (bs : List Byte) : (s.pondWrite a bs).houses = s.houses := rfl
@[simp] theorem pondWrite_rasters (a : Nat) (bs : List Byte) : (s.pondWrite a bs).rasters = s.rasters := rfl
@[simp] theorem pondWrite_rx (a : Nat) (bs : List Byte) : (s.pondWrite a bs).rx = s.rx := rfl
@[simp] theorem pondWrite_tx (a : Nat) (bs : List Byte) : (s.pondWrite a bs).tx = s.tx := rfl
@[simp] theorem pondWrite_rxStreams (a : Nat) (bs : List Byte) : (s.pondWrite a bs).rxStreams = s.rxStreams := rfl
@[simp] theorem pondWrite_txStreams (a : Nat) (bs : List Byte) : (s.pondWrite a bs).txStreams = s.txStreams := rfl
@[simp] theorem pondWrite_queues (a : Nat) (bs : List Byte) : (s.pondWrite a bs).queues = s.queues := rfl
@[simp] theorem pondWrite_spi (a : Nat) (bs : List Byte) : (s.pondWrite a bs).spi = s.spi := rfl
@[simp] theorem pondWrite_jobs (a : Nat) (bs : List Byte) : (s.pondWrite a bs).jobs = s.jobs := rfl
@[simp] theorem pondWrite_nextJob (a : Nat) (bs : List Byte) : (s.pondWrite a bs).nextJob = s.nextJob := rfl
@[simp] theorem pondWrite_hub (a : Nat) (bs : List Byte) : (s.pondWrite a bs).hub = s.hub := rfl
@[simp] theorem pondWrite_cnt (a : Nat) (bs : List Byte) : (s.pondWrite a bs).cnt = s.cnt := rfl
@[simp] theorem pondWrite_pair (a : Nat) (bs : List Byte) : (s.pondWrite a bs).pair = s.pair := rfl
@[simp] theorem pondWrite_clocks (a : Nat) (bs : List Byte) : (s.pondWrite a bs).clocks = s.clocks := rfl
@[simp] theorem pondWrite_keys (a : Nat) (bs : List Byte) : (s.pondWrite a bs).keys = s.keys := rfl
@[simp] theorem pondWrite_nv (a : Nat) (bs : List Byte) : (s.pondWrite a bs).nv = s.nv := rfl
@[simp] theorem pondWrite_pins (a : Nat) (bs : List Byte) : (s.pondWrite a bs).pins = s.pins := rfl
@[simp] theorem pondWrite_routes (a : Nat) (bs : List Byte) : (s.pondWrite a bs).routes = s.routes := rfl
@[simp] theorem pondWrite_engines (a : Nat) (bs : List Byte) : (s.pondWrite a bs).engines = s.engines := rfl
@[simp] theorem pondWrite_comp (a : Nat) (bs : List Byte) : (s.pondWrite a bs).comp = s.comp := rfl
@[simp] theorem pondWrite_audio (a : Nat) (bs : List Byte) : (s.pondWrite a bs).audio = s.audio := rfl
@[simp] theorem pondWrite_out (a : Nat) (bs : List Byte) : (s.pondWrite a bs).out = s.out := rfl
@[simp] theorem pondWrite_fresh (a : Nat) (bs : List Byte) : (s.pondWrite a bs).fresh = s.fresh := rfl

end Sys2Proof.Laws
end

