-- ==== Sys2Proof/Laws/Shared.lean ====
section
/-! SUPPORT. Everything that the shared operations can change: a firing source, a counter, a reply and a completion touch no more of
State than the fields that their lemmas name. -/

namespace Sys2Proof.Laws

open Sys2Proof.Machine

/-- An MSI-X message is sent or falls pending. -/
theorem msixSend_frame (s : State) (v : Nat) : ∃ hub out, s.msixSend v = { s with hub := hub, out := out } := by
  unfold State.msixSend
  split
  · exact ⟨s.hub, s.out, rfl⟩
  · split
    · exact ⟨_, s.out, rfl⟩
    · exact ⟨s.hub, _, rfl⟩

/-- A presented source notifies the host or does not. -/
theorem presented_frame (s : State) (i : Nat) : ∃ hub out, s.presented i = { s with hub := hub, out := out } := by
  unfold State.presented State.eventMessage
  split
  · dsimp only
    split
    · exact ⟨s.hub, s.out, rfl⟩
    · exact msixSend_frame _ _
  · exact ⟨s.hub, s.out, rfl⟩

/-- A source that fires changes the event registers and what left the device (R483, R485). -/
theorem fire_frame (s : State) (i : Nat) : ∃ hub out, s.fire i = { s with hub := hub, out := out } := by
  unfold State.fire
  split
  · exact ⟨s.hub, s.out, rfl⟩
  · dsimp only
    split
    · exact presented_frame _ _
    · exact ⟨s.hub, s.out, rfl⟩
    · exact ⟨_, s.out, rfl⟩
    · exact ⟨s.hub, s.out, rfl⟩

/-- A counter that adds changes itself, and may fire its block's source (R493). -/
theorem count_frame (s : State) (b u e n : Nat) : ∃ hub cnt out, s.count b u e n = { s with hub := hub, cnt := cnt, out := out } := by
  unfold State.count
  split
  · exact ⟨s.hub, s.cnt, s.out, rfl⟩
  · dsimp only
    split
    · have key (c : Cnt) : ∃ hub cnt out, State.fire { s with cnt := c } (992 + b) = { s with hub := hub, cnt := cnt, out := out } := by
        obtain ⟨h, o, he⟩ := fire_frame { s with cnt := c } (992 + b)
        exact ⟨h, c, o, he⟩
      exact key _
    · exact ⟨s.hub, _, s.out, rfl⟩

/-- A reply that is posted (R328, R330, R331). -/
theorem post_frame (s : State) (q : Nat) (r : Reply) :
    ∃ queues spi hub out, s.post q r = { s with queues := queues, spi := spi, hub := hub, out := out } := by
  unfold State.post
  dsimp only
  split
  · exact ⟨s.queues, _, s.hub, s.out, rfl⟩
  · split
    · unfold State.putEntry
      dsimp only
      split
      · split
        · obtain ⟨h, o, he⟩ := fire_frame ((s.setQueue q _).sramWrite (s.hub.rrBase8 + 32 * (s.queue q).cqTail) _) 25
          exact ⟨_, s.spi, h, o, he⟩
        · exact ⟨_, s.spi, _, s.out, rfl⟩
      · split
        · obtain ⟨h, o, he⟩ := msixSend_frame ((s.setQueue q _).emit (.dma q ((s.queue q).cqBase + 32 * (s.queue q).cqTail) _)) (s.queue q).vector
          exact ⟨_, s.spi, h, o, he⟩
        · exact ⟨_, s.spi, s.hub, _, rfl⟩
    · exact ⟨_, s.spi, s.hub, s.out, rfl⟩

/-- A result that is written (R350, R351). -/
theorem deliver_frame (s : State) (q : Nat) (r : Res) (bs : List Byte) :
    ∃ spi hub out, s.deliver q r bs = { s with spi := spi, hub := hub, out := out } := by
  unfold State.deliver
  split
  · exact ⟨_, s.hub, s.out, rfl⟩
  · split
    · exact ⟨s.spi, _, s.out, rfl⟩
    · exact ⟨s.spi, s.hub, _, rfl⟩

/-- A queue that stops empties (R330). -/
theorem finishStop_frame (s : State) (q : Nat) : ∃ queues, s.finishStop q = { s with queues := queues } := by
  unfold State.finishStop
  dsimp only
  split
  · exact ⟨_, rfl⟩
  · exact ⟨s.queues, rfl⟩

/-- A job that completes leaves the table, posts its reply, and no more (R336, R343). -/
theorem complete_frame (s : State) (j : Job) (st d : Nat) (ras : Option Nat) :
    ∃ queues spi hub out, s.complete j st d ras =
      { s with jobs := s.jobs.filter fun x => x.id != j.id, queues := queues, spi := spi, hub := hub, out := out } := by
  have hr : ∀ (u : State) (q seq tag st d : Nat) (ras : Option Nat), ∃ queues spi hub out,
      u.reply q seq tag st d ras = { u with queues := queues, spi := spi, hub := hub, out := out } := fun u q seq tag st d ras =>
    post_frame u q _
  have hrr : ∀ (u : State) (q seq tag st : Nat) (r : Res) (bs : List Byte) (ras : Option Nat), ∃ queues spi hub out,
      u.replyResult q seq tag st r bs ras = { u with queues := queues, spi := spi, hub := hub, out := out } := by
    intro u q seq tag st r bs ras
    unfold State.replyResult
    dsimp only
    split
    · obtain ⟨a1, a2, a3, a4, ha⟩ := hr u q seq tag st (min 0xFFFF (ceilDiv bs.length 4)) ras
      obtain ⟨b1, b2, b3, hb⟩ := deliver_frame (u.reply q seq tag st (min 0xFFFF (ceilDiv bs.length 4)) ras) q r bs
      rw [hb, ha]
      exact ⟨_, _, _, _, rfl⟩
    · obtain ⟨b1, b2, b3, hb⟩ := deliver_frame u q r bs
      obtain ⟨a1, a2, a3, a4, ha⟩ := hr (u.deliver q r bs) q seq tag st (min 0xFFFF (ceilDiv bs.length 4)) ras
      rw [ha, hb]
      exact ⟨_, _, _, _, rfl⟩
  have close : ∀ u : State, (∃ queues spi hub out, u = { s with jobs := s.jobs.filter fun x => x.id != j.id, queues := queues, spi := spi, hub := hub, out := out }) →
      ∃ queues spi hub out, (if j.sched || j.silent then u else (u.markDone j.queue j.seq).finishStop j.queue) =
        { s with jobs := s.jobs.filter fun x => x.id != j.id, queues := queues, spi := spi, hub := hub, out := out } := by
    rintro u ⟨a1, a2, a3, a4, rfl⟩
    split
    · exact ⟨_, _, _, _, rfl⟩
    · obtain ⟨c1, hc⟩ := finishStop_frame ((({ s with jobs := s.jobs.filter fun x => x.id != j.id, queues := a1, spi := a2, hub := a3, out := a4 } : State)).markDone j.queue j.seq) j.queue
      rw [hc]
      exact ⟨_, _, _, _, rfl⟩
  unfold State.complete
  dsimp only
  refine close _ ?_
  split
  · exact ⟨s.queues, s.spi, s.hub, s.out, rfl⟩
  · split
    · split
      · exact hrr _ _ _ _ _ _ _ _
      · exact hr _ _ _ _ _ _ _
    · exact hr _ _ _ _ _ _ _

/-! ### The fields that each leaves alone -/

@[simp] theorem fire_pending (s : State) (i : Nat) : (s.fire i).pending = s.pending := by
  obtain ⟨_, _, h⟩ := fire_frame s i; rw [h]
@[simp] theorem fire_clk (s : State) (i : Nat) : (s.fire i).clk = s.clk := by
  obtain ⟨_, _, h⟩ := fire_frame s i; rw [h]
@[simp] theorem fire_sys (s : State) (i : Nat) : (s.fire i).sys = s.sys := by
  obtain ⟨_, _, h⟩ := fire_frame s i; rw [h]
@[simp] theorem fire_houses (s : State) (i : Nat) : (s.fire i).houses = s.houses := by
  obtain ⟨_, _, h⟩ := fire_frame s i; rw [h]
@[simp] theorem fire_rasters (s : State) (i : Nat) : (s.fire i).rasters = s.rasters := by
  obtain ⟨_, _, h⟩ := fire_frame s i; rw [h]
@[simp] theorem fire_rx (s : State) (i : Nat) : (s.fire i).rx = s.rx := by
  obtain ⟨_, _, h⟩ := fire_frame s i; rw [h]
@[simp] theorem fire_tx (s : State) (i : Nat) : (s.fire i).tx = s.tx := by
  obtain ⟨_, _, h⟩ := fire_frame s i; rw [h]
@[simp] theorem fire_rxStreams (s : State) (i : Nat) : (s.fire i).rxStreams = s.rxStreams := by
  obtain ⟨_, _, h⟩ := fire_frame s i; rw [h]
@[simp] theorem fire_txStreams (s : State) (i : Nat) : (s.fire i).txStreams = s.txStreams := by
  obtain ⟨_, _, h⟩ := fire_frame s i; rw [h]
@[simp] theorem fire_queues (s : State) (i : Nat) : (s.fire i).queues = s.queues := by
  obtain ⟨_, _, h⟩ := fire_frame s i; rw [h]
@[simp] theorem fire_spi (s : State) (i : Nat) : (s.fire i).spi = s.spi := by
  obtain ⟨_, _, h⟩ := fire_frame s i; rw [h]
@[simp] theorem fire_jobs (s : State) (i : Nat) : (s.fire i).jobs = s.jobs := by
  obtain ⟨_, _, h⟩ := fire_frame s i; rw [h]
@[simp] theorem fire_nextJob (s : State) (i : Nat) : (s.fire i).nextJob = s.nextJob := by
  obtain ⟨_, _, h⟩ := fire_frame s i; rw [h]
@[simp] theorem fire_cnt (s : State) (i : Nat) : (s.fire i).cnt = s.cnt := by
  obtain ⟨_, _, h⟩ := fire_frame s i; rw [h]
@[simp] theorem fire_pair (s : State) (i : Nat) : (s.fire i).pair = s.pair := by
  obtain ⟨_, _, h⟩ := fire_frame s i; rw [h]
@[simp] theorem fire_clocks (s : State) (i : Nat) : (s.fire i).clocks = s.clocks := by
  obtain ⟨_, _, h⟩ := fire_frame s i; rw [h]
@[simp] theorem fire_keys (s : State) (i : Nat) : (s.fire i).keys = s.keys := by
  obtain ⟨_, _, h⟩ := fire_frame s i; rw [h]
@[simp] theorem fire_nv (s : State) (i : Nat) : (s.fire i).nv = s.nv := by
  obtain ⟨_, _, h⟩ := fire_frame s i; rw [h]
@[simp] theorem fire_pins (s : State) (i : Nat) : (s.fire i).pins = s.pins := by
  obtain ⟨_, _, h⟩ := fire_frame s i; rw [h]
@[simp] theorem fire_routes (s : State) (i : Nat) : (s.fire i).routes = s.routes := by
  obtain ⟨_, _, h⟩ := fire_frame s i; rw [h]
@[simp] theorem fire_pond (s : State) (i : Nat) : (s.fire i).pond = s.pond := by
  obtain ⟨_, _, h⟩ := fire_frame s i; rw [h]
@[simp] theorem fire_engines (s : State) (i : Nat) : (s.fire i).engines = s.engines := by
  obtain ⟨_, _, h⟩ := fire_frame s i; rw [h]
@[simp] theorem fire_comp (s : State) (i : Nat) : (s.fire i).comp = s.comp := by
  obtain ⟨_, _, h⟩ := fire_frame s i; rw [h]
@[simp] theorem fire_audio (s : State) (i : Nat) : (s.fire i).audio = s.audio := by
  obtain ⟨_, _, h⟩ := fire_frame s i; rw [h]
@[simp] theorem fire_fresh (s : State) (i : Nat) : (s.fire i).fresh = s.fresh := by
  obtain ⟨_, _, h⟩ := fire_frame s i; rw [h]

@[simp] theorem count_pending (s : State) (a b e n : Nat) : (s.count a b e n).pending = s.pending := by
  obtain ⟨_, _, _, h⟩ := count_frame s a b e n; rw [h]
@[simp] theorem count_clk (s : State) (a b e n : Nat) : (s.count a b e n).clk = s.clk := by
  obtain ⟨_, _, _, h⟩ := count_frame s a b e n; rw [h]
@[simp] theorem count_sys (s : State) (a b e n : Nat) : (s.count a b e n).sys = s.sys := by
  obtain ⟨_, _, _, h⟩ := count_frame s a b e n; rw [h]
@[simp] theorem count_houses (s : State) (a b e n : Nat) : (s.count a b e n).houses = s.houses := by
  obtain ⟨_, _, _, h⟩ := count_frame s a b e n; rw [h]
@[simp] theorem count_rasters (s : State) (a b e n : Nat) : (s.count a b e n).rasters = s.rasters := by
  obtain ⟨_, _, _, h⟩ := count_frame s a b e n; rw [h]
@[simp] theorem count_rx (s : State) (a b e n : Nat) : (s.count a b e n).rx = s.rx := by
  obtain ⟨_, _, _, h⟩ := count_frame s a b e n; rw [h]
@[simp] theorem count_tx (s : State) (a b e n : Nat) : (s.count a b e n).tx = s.tx := by
  obtain ⟨_, _, _, h⟩ := count_frame s a b e n; rw [h]
@[simp] theorem count_rxStreams (s : State) (a b e n : Nat) : (s.count a b e n).rxStreams = s.rxStreams := by
  obtain ⟨_, _, _, h⟩ := count_frame s a b e n; rw [h]
@[simp] theorem count_txStreams (s : State) (a b e n : Nat) : (s.count a b e n).txStreams = s.txStreams := by
  obtain ⟨_, _, _, h⟩ := count_frame s a b e n; rw [h]
@[simp] theorem count_queues (s : State) (a b e n : Nat) : (s.count a b e n).queues = s.queues := by
  obtain ⟨_, _, _, h⟩ := count_frame s a b e n; rw [h]
@[simp] theorem count_spi (s : State) (a b e n : Nat) : (s.count a b e n).spi = s.spi := by
  obtain ⟨_, _, _, h⟩ := count_frame s a b e n; rw [h]
@[simp] theorem count_jobs (s : State) (a b e n : Nat) : (s.count a b e n).jobs = s.jobs := by
  obtain ⟨_, _, _, h⟩ := count_frame s a b e n; rw [h]
@[simp] theorem count_nextJob (s : State) (a b e n : Nat) : (s.count a b e n).nextJob = s.nextJob := by
  obtain ⟨_, _, _, h⟩ := count_frame s a b e n; rw [h]
@[simp] theorem count_pair (s : State) (a b e n : Nat) : (s.count a b e n).pair = s.pair := by
  obtain ⟨_, _, _, h⟩ := count_frame s a b e n; rw [h]
@[simp] theorem count_clocks (s : State) (a b e n : Nat) : (s.count a b e n).clocks = s.clocks := by
  obtain ⟨_, _, _, h⟩ := count_frame s a b e n; rw [h]
@[simp] theorem count_keys (s : State) (a b e n : Nat) : (s.count a b e n).keys = s.keys := by
  obtain ⟨_, _, _, h⟩ := count_frame s a b e n; rw [h]
@[simp] theorem count_nv (s : State) (a b e n : Nat) : (s.count a b e n).nv = s.nv := by
  obtain ⟨_, _, _, h⟩ := count_frame s a b e n; rw [h]
@[simp] theorem count_pins (s : State) (a b e n : Nat) : (s.count a b e n).pins = s.pins := by
  obtain ⟨_, _, _, h⟩ := count_frame s a b e n; rw [h]
@[simp] theorem count_routes (s : State) (a b e n : Nat) : (s.count a b e n).routes = s.routes := by
  obtain ⟨_, _, _, h⟩ := count_frame s a b e n; rw [h]
@[simp] theorem count_pond (s : State) (a b e n : Nat) : (s.count a b e n).pond = s.pond := by
  obtain ⟨_, _, _, h⟩ := count_frame s a b e n; rw [h]
@[simp] theorem count_engines (s : State) (a b e n : Nat) : (s.count a b e n).engines = s.engines := by
  obtain ⟨_, _, _, h⟩ := count_frame s a b e n; rw [h]
@[simp] theorem count_comp (s : State) (a b e n : Nat) : (s.count a b e n).comp = s.comp := by
  obtain ⟨_, _, _, h⟩ := count_frame s a b e n; rw [h]
@[simp] theorem count_audio (s : State) (a b e n : Nat) : (s.count a b e n).audio = s.audio := by
  obtain ⟨_, _, _, h⟩ := count_frame s a b e n; rw [h]
@[simp] theorem count_fresh (s : State) (a b e n : Nat) : (s.count a b e n).fresh = s.fresh := by
  obtain ⟨_, _, _, h⟩ := count_frame s a b e n; rw [h]

@[simp] theorem complete_pending (s : State) (j : Job) (st d : Nat) (ras : Option Nat) : (s.complete j st d ras).pending = s.pending := by
  obtain ⟨_, _, _, _, h⟩ := complete_frame s j st d ras; rw [h]
@[simp] theorem complete_clk (s : State) (j : Job) (st d : Nat) (ras : Option Nat) : (s.complete j st d ras).clk = s.clk := by
  obtain ⟨_, _, _, _, h⟩ := complete_frame s j st d ras; rw [h]
@[simp] theorem complete_sys (s : State) (j : Job) (st d : Nat) (ras : Option Nat) : (s.complete j st d ras).sys = s.sys := by
  obtain ⟨_, _, _, _, h⟩ := complete_frame s j st d ras; rw [h]
@[simp] theorem complete_houses (s : State) (j : Job) (st d : Nat) (ras : Option Nat) : (s.complete j st d ras).houses = s.houses := by
  obtain ⟨_, _, _, _, h⟩ := complete_frame s j st d ras; rw [h]
@[simp] theorem complete_rasters (s : State) (j : Job) (st d : Nat) (ras : Option Nat) : (s.complete j st d ras).rasters = s.rasters := by
  obtain ⟨_, _, _, _, h⟩ := complete_frame s j st d ras; rw [h]
@[simp] theorem complete_rx (s : State) (j : Job) (st d : Nat) (ras : Option Nat) : (s.complete j st d ras).rx = s.rx := by
  obtain ⟨_, _, _, _, h⟩ := complete_frame s j st d ras; rw [h]
@[simp] theorem complete_tx (s : State) (j : Job) (st d : Nat) (ras : Option Nat) : (s.complete j st d ras).tx = s.tx := by
  obtain ⟨_, _, _, _, h⟩ := complete_frame s j st d ras; rw [h]
@[simp] theorem complete_rxStreams (s : State) (j : Job) (st d : Nat) (ras : Option Nat) : (s.complete j st d ras).rxStreams = s.rxStreams := by
  obtain ⟨_, _, _, _, h⟩ := complete_frame s j st d ras; rw [h]
@[simp] theorem complete_txStreams (s : State) (j : Job) (st d : Nat) (ras : Option Nat) : (s.complete j st d ras).txStreams = s.txStreams := by
  obtain ⟨_, _, _, _, h⟩ := complete_frame s j st d ras; rw [h]
@[simp] theorem complete_nextJob (s : State) (j : Job) (st d : Nat) (ras : Option Nat) : (s.complete j st d ras).nextJob = s.nextJob := by
  obtain ⟨_, _, _, _, h⟩ := complete_frame s j st d ras; rw [h]
@[simp] theorem complete_cnt (s : State) (j : Job) (st d : Nat) (ras : Option Nat) : (s.complete j st d ras).cnt = s.cnt := by
  obtain ⟨_, _, _, _, h⟩ := complete_frame s j st d ras; rw [h]
@[simp] theorem complete_pair (s : State) (j : Job) (st d : Nat) (ras : Option Nat) : (s.complete j st d ras).pair = s.pair := by
  obtain ⟨_, _, _, _, h⟩ := complete_frame s j st d ras; rw [h]
@[simp] theorem complete_clocks (s : State) (j : Job) (st d : Nat) (ras : Option Nat) : (s.complete j st d ras).clocks = s.clocks := by
  obtain ⟨_, _, _, _, h⟩ := complete_frame s j st d ras; rw [h]
@[simp] theorem complete_keys (s : State) (j : Job) (st d : Nat) (ras : Option Nat) : (s.complete j st d ras).keys = s.keys := by
  obtain ⟨_, _, _, _, h⟩ := complete_frame s j st d ras; rw [h]
@[simp] theorem complete_nv (s : State) (j : Job) (st d : Nat) (ras : Option Nat) : (s.complete j st d ras).nv = s.nv := by
  obtain ⟨_, _, _, _, h⟩ := complete_frame s j st d ras; rw [h]
@[simp] theorem complete_pins (s : State) (j : Job) (st d : Nat) (ras : Option Nat) : (s.complete j st d ras).pins = s.pins := by
  obtain ⟨_, _, _, _, h⟩ := complete_frame s j st d ras; rw [h]
@[simp] theorem complete_routes (s : State) (j : Job) (st d : Nat) (ras : Option Nat) : (s.complete j st d ras).routes = s.routes := by
  obtain ⟨_, _, _, _, h⟩ := complete_frame s j st d ras; rw [h]
@[simp] theorem complete_pond (s : State) (j : Job) (st d : Nat) (ras : Option Nat) : (s.complete j st d ras).pond = s.pond := by
  obtain ⟨_, _, _, _, h⟩ := complete_frame s j st d ras; rw [h]
@[simp] theorem complete_engines (s : State) (j : Job) (st d : Nat) (ras : Option Nat) : (s.complete j st d ras).engines = s.engines := by
  obtain ⟨_, _, _, _, h⟩ := complete_frame s j st d ras; rw [h]
@[simp] theorem complete_comp (s : State) (j : Job) (st d : Nat) (ras : Option Nat) : (s.complete j st d ras).comp = s.comp := by
  obtain ⟨_, _, _, _, h⟩ := complete_frame s j st d ras; rw [h]
@[simp] theorem complete_audio (s : State) (j : Job) (st d : Nat) (ras : Option Nat) : (s.complete j st d ras).audio = s.audio := by
  obtain ⟨_, _, _, _, h⟩ := complete_frame s j st d ras; rw [h]
@[simp] theorem complete_fresh (s : State) (j : Job) (st d : Nat) (ras : Option Nat) : (s.complete j st d ras).fresh = s.fresh := by
  obtain ⟨_, _, _, _, h⟩ := complete_frame s j st d ras; rw [h]

/-- A fold over a list keeps a relation that every part of it keeps. -/
theorem each_induct {α : Type} (P : State → Prop) (f : α → State → State) (h : ∀ x s, P s → P (f x s)) :
    ∀ (l : List α) (s : State), P s → P (State.each f l s)
  | [], _, hs => hs
  | x :: r, _, hs => each_induct P f h r _ (h x _ hs)

/-- Slots left unfinished change in the Millpond alone (R174). -/
theorem failSlots_frame (s : State) (l : List Nat) : ∃ pond, s.failSlots l = { s with pond := pond } :=
  each_induct (fun v => ∃ pond, v = { s with pond := pond }) _ (fun _ _ ⟨_, h⟩ => by subst h; exact ⟨_, rfl⟩) l s ⟨s.pond, rfl⟩

/-- Vectors are set to zero in the Millpond alone (R242). -/
theorem resetVectors_frame (s : State) (l : List Nat) : ∃ pond, s.resetVectors l = { s with pond := pond } := by
  refine each_induct (fun v => ∃ pond, v = { s with pond := pond }) _ (fun e v ⟨_, h⟩ => ?_) l s ⟨s.pond, rfl⟩
  subst h
  split
  · exact ⟨_, rfl⟩
  · exact ⟨_, rfl⟩

/-- Writers that stop change routes, the Millpond and the engines' tasks alone (R145, R174, R226). -/
theorem stopWriters_frame (s : State) (n : Nat) :
    ∃ routes pond engines, s.stopWriters n = { s with routes := routes, pond := pond, engines := engines } := by
  unfold State.stopWriters
  dsimp only
  rw [(failSlots_frame s _).choose_spec, (resetVectors_frame _ _).choose_spec]
  exact ⟨_, _, _, rfl⟩
@[simp] theorem stopWriters_rxStreams (s : State) (n : Nat) : (s.stopWriters n).rxStreams = s.rxStreams := by
  obtain ⟨_, _, _, h⟩ := stopWriters_frame s n; rw [h]
@[simp] theorem rxEvent_rxStreams (s : State) (b : Nat) : (s.rxEvent b).rxStreams = s.rxStreams := by
  unfold State.rxEvent; split <;> simp

end Sys2Proof.Laws
end

