-- ==== Sys2Proof/WellFormed.lean ====
section
/-! DEFINITION. Well-formed commands: every field of a packet fits the width its layout gives, every register value fits its
register, every index of an event names a unit of the device. -/

namespace Sys2Proof

/-- `v` fits `w` bits. -/
def fits (v w : Nat) : Bool := decide (v < 2 ^ w)

def Hdr.wf (h : Hdr) : Bool :=
  decide (h.queue < 10) && fits h.version 4 && fits h.seq 32 && fits h.length 16 && fits h.tag 16 && fits h.line 16 &&
  fits h.frame 32 && fits h.raster 16 && h.indirect.all fun i => fits i.addr 64 && fits i.bytes 32

/-- Result descriptor (R350). -/
def resFits (r : Res) : Bool := fits r.addr 64 && fits r.bytes 32

/-- Raster descriptor (Table 2.1). -/
def descFits (d : RasterDesc) : Bool :=
  fits d.totalLines 16 && fits d.totalSamples 16 && fits d.rateNum 32 && fits d.rateDen 32 && fits d.scan 8 &&
  fits d.field2Line 16 && fits d.activeLine1 16 && fits d.activeLines 16 && fits d.activeLine2 16 &&
  fits d.activeSample0 16 && fits d.activeSamples 16 && fits d.house 8 && fits d.ratio 8 && fits d.phaseLines 16 &&
  fits d.phaseSamples 16

/-- Buffer parameters (Table 7.2). -/
def bufFits (b : BufParams) : Bool :=
  fits b.typ 8 && fits b.format 8 && fits b.count 16 && fits b.width 16 && fits b.height 16 && fits b.tlines 16 &&
  fits b.rate 8 && fits b.scan 8 && fits b.size 64 && fits b.target 32 && fits b.hwRate 32 && fits b.dir 8

/-- STREAM_SET (Table 13.5). -/
def streamFits (p : StreamSetP) : Bool :=
  fits p.dir 8 && fits p.bundle 8 && fits p.lane 8 && fits p.g 8 && fits p.mode 8 && fits p.tag 8 && fits p.rate 8 &&
  fits p.activeSamples 16 && fits p.activeLines 16 && fits p.totalLines 16 && fits p.scan 8

/-- Port format descriptor (Table 8.3). -/
def portFits (x : PortFmt) : Bool :=
  fits x.width 16 && fits x.height 16 && fits x.format 8 && fits x.rate 8 && fits x.scan 8 && fits x.g 8

/-- Timed input geometry (Table 9.4). -/
def geoFits (g : Geometry) : Bool := fits g.inTLines 16 && fits g.inALine1 16 && fits g.inALine2 16

/-- A signed coefficient fits 32 bits. -/
def coefFits (n : Int) : Bool := decide (-(2 ^ 31) ≤ n) && decide (n < 2 ^ 31)

/-- The kernel block of a task (Tables 9.6 to 9.13, R243). -/
def blockFits : KBlock → Bool
  | .scale b => geoFits b.geo && fits b.htaps 8 && fits b.vtaps 8 && fits b.sharp 8 && fits b.aspect 8 && fits b.cropX 16 &&
      fits b.cropY 16 && fits b.cropW 16 && fits b.cropH 16 && fits b.dx 16 && fits b.dy 16 && fits b.dw 16 && fits b.dh 16
  | .deint b => fits b.hist 32 && fits b.mode 8 && fits b.edge 8 && fits b.cadence 8 && fits b.mgain 8 && fits b.mthresh 16
  | .frcMc b => fits b.hist 32 && fits b.mv 32 && fits b.fallback 8 && fits b.conf 8
  | .frcBlend b => fits b.hist 32 && fits b.mode 8
  | .color b => geoFits b.geo && fits b.stages 8 && fits b.decodeTf 8 && fits b.encodeTf 8 && fits b.outTag 8 &&
      fits b.sdrWhite 16 && fits b.hlgLw 16 &&
      (b.inMatrix ++ b.inOffset ++ b.gamut ++ b.outMatrix ++ b.outOffset).all coefFits && b.lut.all (fits · 16)
  | .chroma b => geoFits b.geo && fits b.filter 8 && fits b.in420 8 && fits b.out420 8
  | .key b => geoFits b.geo && fits b.mode 8 && fits b.matrix 8 && fits b.invert 8 && fits b.spill 8 && fits b.clip 32 &&
      fits b.gain 16 && fits b.hue 16 && fits b.accept 8
  | .other _ => true

/-- The fields of a parameter block fit their layouts (chapter 13). -/
def Params.wf : Params → Bool
  | .sysIdentify p => resFits p.res
  | .sysCaps p => resFits p.res
  | .stcRead p => resFits p.res
  | .weirQuery p => resFits p.res
  | .clockStatus p => resFits p.res
  | .pairStatus p => resFits p.res
  | .keyQuery p => resFits p.res
  | .tamperStatus p => resFits p.res
  | .gpioRead p => resFits p.res
  | .sysMode p => fits p.mode 8
  | .barrier p => fits p.timeout 32 && fits p.fence 8 && fits p.fenceValue 32 &&
      p.waits.all (fun w => fits (w.queue) 8 && fits (w.seq) 32)
  | .sysRestart p => fits p.kind 8
  | .sysWakeSet p => fits p.enables 8 && fits p.timer 64
  | .sysFaultRead p => resFits p.res
  | .rasterSet p => fits p.raster 16 && descFits p.desc
  | .rasterQuery p => resFits p.res && fits p.raster 16 && fits p.house 8 && fits p.predLine 16 && fits p.predFrame 64
  | .stcSet p => fits p.op 8 && fits p.value 64
  | .schedCancel p => fits p.queue 8 && fits p.seq 32
  | .bundleSet p => fits p.bundle 8 && fits p.dir 8 && fits p.rate 8 && fits p.laneMask 8 && fits p.swing 8 &&
      fits p.expectBase 16 && fits p.spread 8
  | .bundleStatus p => resFits p.res && fits p.bundle 8
  | .laneTrain p => fits p.bundle 8
  | .bundleSleep p => fits p.bundle 8 && fits p.dir 8
  | .bundleWake p => fits p.bundle 8 && fits p.dir 8
  | .loopbackSet p => fits p.port 8 && fits p.path 8
  | .prbsSet p => fits p.bundle 8 && fits p.dir 8 && fits p.laneMask 8 && fits p.pattern 8
  | .streamSet p => streamFits p
  | .routeTake p => fits p.count 16 && p.entries.all (fun w => fits (w.dest) 16 && fits (w.src) 16 && fits (w.g) 8 &&
      fits (w.extra) 8)
  | .routeQuery p => resFits p.res && p.dests.all (fun w => fits (w) 16)
  | .lossSet p => fits p.output 16 && fits p.policy 8 && fits p.holdLimit 16
  | .presetStore p => fits p.preset 8
  | .presetRecall p => fits p.preset 8
  | .presetColdstart p => fits p.preset 8
  | .bufCreate p => resFits p.res && bufFits p.params
  | .bufDestroy p => fits p.handle 32
  | .bufQuery p => resFits p.res && fits p.handle 32
  | .bufXfer p => fits p.window 32 && fits p.slot 16 && fits p.offset 64 && fits p.hostAddr 64 && fits p.bytes 32 &&
      fits p.frame 64 && fits p.doneStc 64
  | .captureBind p => fits p.cw 16 && fits p.g 8 && fits p.handle 32
  | .playoutBind p => fits p.pb 16 && fits p.g 8 && fits p.mode 8 && fits p.handle 32 && fits p.raster 16 &&
      fits p.extra 8 && fits p.slot 16
  | .kernelBind p => fits p.engine 16 && fits p.gang 8 && fits p.ov 8 && fits p.kernel 16 && fits p.raster 16 &&
      fits p.outAdv 16 && portFits p.in0 && portFits p.in1 && portFits p.out0 && portFits p.out1 && blockFits p.block
  | .kernelUpdate p => fits p.engine 16 && blockFits p.block
  | .kernelUnbind p => fits p.engine 16
  | .engineReserve p => fits p.first 16 && fits p.count 8 && fits p.ceiling 32
  | .engineMigrate p => fits p.engine 16 && fits p.target 16
  | .engineQuery p => resFits p.res && fits p.first 16 && fits p.count 16
  | .layerSet p => fits p.output 16 && fits p.count 8 && p.entries.all (fun w => fits (w.layer) 8 && fits (w.z) 8 &&
      fits (w.tag) 8 && fits (w.slot) 16 && fits (w.buf) 32 && fits (w.geom.cropX) 16 && fits (w.geom.cropY) 16 &&
      fits (w.geom.cropW) 16 && fits (w.geom.cropH) 16 && fits (w.geom.galpha) 16)
  | .layerFlip p => fits p.output 16 && fits p.layer 8 && fits p.sel 8 && fits p.buf 32 && fits p.slot 16 &&
      fits p.fence 8 && fits p.fenceValue 32 && fits p.frame 64 && fits p.expire 16
  | .layerQuery p => resFits p.res && fits p.output 16
  | .compSet p => fits p.output 16 && fits p.dl 8
  | .fenceBind p => fits p.fence 8 && fits p.point 16
  | .fenceSignal p => fits p.fence 8 && fits p.value 32
  | .fenceQuery p => resFits p.res && fits p.fence 8
  | .groupSet p => fits p.group 8 && p.members.all (fun w => fits (w.1) 16 && fits (w.2) 8)
  | .staticSet p => fits p.output 16 && fits p.run 8 && fits p.op 8 && fits p.zlo 8 && fits p.zhi 8 && fits p.bufA 32 &&
      fits p.bufB 32
  | .audioRoute p => fits p.count 16 && p.entries.all (fun w => fits (w.dst) 16 && fits (w.src) 16)
  | .audioEmbed p => fits p.output 16 && fits p.rate 8 && fits p.blkLen 8 && fits p.slots 8 && fits p.ring 32 &&
      fits p.gEmb 32 && fits p.lsTol 32
  | .asrcBind p => fits p.group 8 && fits p.op 8 && fits p.target 8 && fits p.tport 8 && fits p.outRate 8 &&
      fits p.bw 8 && fits p.first 16 && fits p.count 8
  | .aportSet p => fits p.port 8 && fits p.role 8 && fits p.rate 8 && fits p.slots 8 && fits p.width 8 &&
      fits p.offset 8 && fits p.fsWidth 16 && fits p.portDelay 32 && fits p.diMask 32 && fits p.doMask 32
  | .aportMask p => fits p.port 8 && fits p.diMask 32 && fits p.doMask 32
  | .audioRingBind p => fits p.handle 32 && fits p.kind 8 && fits p.rate 8 && fits p.house 8 && fits p.first 16 &&
      fits p.count 16
  | .audioQuery p => resFits p.res && fits p.side 8 && p.channels.all (fun w => fits (w) 16)
  | .refSet p => fits p.port 8 && fits p.scale 8 && fits p.freqHz 32
  | .synthSet p => fits p.synth 8 && fits p.policy 8 && fits p.bw 16 && fits p.slew 16 && fits p.lockN 16 &&
      fits p.lossM 16 && fits p.window 16 && fits p.spread 8 && fits p.sscKhz 8 && fits p.phaseMode 8 &&
      fits p.freq 64
  | .bandTableSet p => fits p.synth 8 && fits p.ceiling 64 && p.entries.all (fun w => fits (w.1) 64 && fits (w.2) 8)
  | .clkoutSet p => fits p.clkout 8 && fits p.synth 8 && fits p.divider 32 && fits p.delay 16
  | .clkoutSync p => fits p.synth 8
  | .pairSet p => fits p.role 8
  | .pairResync _ => true
  | .pairTransfer _ => true
  | .keyWrite p => fits p.slot 8 && fits p.usage 8 && fits p.parent 8 && fits p.key 256
  | .keyDerive p => fits p.slot 8 && fits p.parent 8 && fits p.usage 8
  | .keyInvalidate p => fits p.slot 8
  | .queueAuth p => fits p.queue 8 && fits p.slot 8
  | .laneCryptSet p => fits p.point 16 && fits p.dir 8 && fits p.slot 8
  | .attest p => resFits p.res && fits p.slot 8 && fits p.nonce 256
  | .tamperSet p => fits p.enables 8 && fits p.wake 8
  | .nvRead p => resFits p.res && fits p.addr 32 && fits p.bytes 32
  | .nvWrite p => fits p.addr 32
  | .nvProtect p => fits p.field 8
  | .nvCounter p => resFits p.res && fits p.counter 8 && fits p.op 8
  | .auditRead p => resFits p.res && fits p.first 32 && fits p.count 16
  | .counterRead p => resFits p.res && p.ids.all (fun w => fits (w) 32)
  | .counterSnapshot p => fits p.op 8
  | .monitorSet p => fits p.monitor 16 && fits p.port 16 && fits p.raster 16 && fits p.lines 16
  | .monitorRead p => resFits p.res && fits p.first 16 && fits p.count 16
  | .eventRoute p => fits p.first 16 && fits p.count 16 && fits p.targets 8 && fits p.cls 8
  | .gpioSet p => fits p.pin 8 && fits p.dir 8 && fits p.level 8 && fits p.owner 8
  | .gpioEdge p => fits p.mask 16 && fits p.value 16
  | .cpbLoad p => fits p.addr 32 && fits p.hostAddr 64 && fits p.bytes 32
  | .cpbCtrl p => fits p.op 8 && fits p.entry 32
  | .unknown op => fits op 16

def Packet.wf (k : Packet) : Bool := k.hdr.wf && k.params.wf

/-- The units that a Leat decision names exist. -/
def LeatBody.wf : LeatBody → Bool
  | .block dest _ _ => Decidable.decide (dest < 18432)
  | .domain id _ _ _ _ => Decidable.decide (id < 4128)
  | .asrc group _ st _ _ => Decidable.decide (group < 256) && Decidable.decide (st < 3)
  | .nonAudio pair _ => Decidable.decide (pair < 9216)
  | .delay output _ => Decidable.decide (output < 512)

/-- A command is well formed: each operand lies in the range its row gives. -/
def Instr.wf : Instr → Bool
  | .sysIdentify _ h p => h.wf && Params.wf (.sysIdentify p)
  | .sysCaps _ h p => h.wf && Params.wf (.sysCaps p)
  | .sysMode _ h p => h.wf && Params.wf (.sysMode p)
  | .barrier _ h p => h.wf && Params.wf (.barrier p)
  | .sysRestart _ h p => h.wf && Params.wf (.sysRestart p)
  | .sysWakeSet _ h p => h.wf && Params.wf (.sysWakeSet p)
  | .sysFaultRead _ h p => h.wf && Params.wf (.sysFaultRead p)
  | .rasterSet _ h p => h.wf && Params.wf (.rasterSet p)
  | .rasterQuery _ h p => h.wf && Params.wf (.rasterQuery p)
  | .stcSet _ h p => h.wf && Params.wf (.stcSet p)
  | .stcRead _ h p => h.wf && Params.wf (.stcRead p)
  | .schedCancel _ h p => h.wf && Params.wf (.schedCancel p)
  | .bundleSet _ h p => h.wf && Params.wf (.bundleSet p)
  | .bundleStatus _ h p => h.wf && Params.wf (.bundleStatus p)
  | .laneTrain _ h p => h.wf && Params.wf (.laneTrain p)
  | .bundleSleep _ h p => h.wf && Params.wf (.bundleSleep p)
  | .bundleWake _ h p => h.wf && Params.wf (.bundleWake p)
  | .loopbackSet _ h p => h.wf && Params.wf (.loopbackSet p)
  | .prbsSet _ h p => h.wf && Params.wf (.prbsSet p)
  | .streamSet _ h p => h.wf && Params.wf (.streamSet p)
  | .routeTake _ h p => h.wf && Params.wf (.routeTake p)
  | .routeQuery _ h p => h.wf && Params.wf (.routeQuery p)
  | .lossSet _ h p => h.wf && Params.wf (.lossSet p)
  | .presetStore _ h p => h.wf && Params.wf (.presetStore p)
  | .presetRecall _ h p => h.wf && Params.wf (.presetRecall p)
  | .presetColdstart _ h p => h.wf && Params.wf (.presetColdstart p)
  | .bufCreate _ h p => h.wf && Params.wf (.bufCreate p)
  | .bufDestroy _ h p => h.wf && Params.wf (.bufDestroy p)
  | .bufQuery _ h p => h.wf && Params.wf (.bufQuery p)
  | .bufXfer _ h p => h.wf && Params.wf (.bufXfer p)
  | .captureBind _ h p => h.wf && Params.wf (.captureBind p)
  | .playoutBind _ h p => h.wf && Params.wf (.playoutBind p)
  | .weirQuery _ h p => h.wf && Params.wf (.weirQuery p)
  | .kernelBind _ h p => h.wf && Params.wf (.kernelBind p)
  | .kernelUpdate _ h p => h.wf && Params.wf (.kernelUpdate p)
  | .kernelUnbind _ h p => h.wf && Params.wf (.kernelUnbind p)
  | .engineReserve _ h p => h.wf && Params.wf (.engineReserve p)
  | .engineMigrate _ h p => h.wf && Params.wf (.engineMigrate p)
  | .engineQuery _ h p => h.wf && Params.wf (.engineQuery p)
  | .layerSet _ h p => h.wf && Params.wf (.layerSet p)
  | .layerFlip _ h p => h.wf && Params.wf (.layerFlip p)
  | .layerQuery _ h p => h.wf && Params.wf (.layerQuery p)
  | .compSet _ h p => h.wf && Params.wf (.compSet p)
  | .fenceBind _ h p => h.wf && Params.wf (.fenceBind p)
  | .fenceSignal _ h p => h.wf && Params.wf (.fenceSignal p)
  | .fenceQuery _ h p => h.wf && Params.wf (.fenceQuery p)
  | .groupSet _ h p => h.wf && Params.wf (.groupSet p)
  | .staticSet _ h p => h.wf && Params.wf (.staticSet p)
  | .audioRoute _ h p => h.wf && Params.wf (.audioRoute p)
  | .audioEmbed _ h p => h.wf && Params.wf (.audioEmbed p)
  | .asrcBind _ h p => h.wf && Params.wf (.asrcBind p)
  | .aportSet _ h p => h.wf && Params.wf (.aportSet p)
  | .aportMask _ h p => h.wf && Params.wf (.aportMask p)
  | .audioRingBind _ h p => h.wf && Params.wf (.audioRingBind p)
  | .audioQuery _ h p => h.wf && Params.wf (.audioQuery p)
  | .refSet _ h p => h.wf && Params.wf (.refSet p)
  | .synthSet _ h p => h.wf && Params.wf (.synthSet p)
  | .bandTableSet _ h p => h.wf && Params.wf (.bandTableSet p)
  | .clkoutSet _ h p => h.wf && Params.wf (.clkoutSet p)
  | .clkoutSync _ h p => h.wf && Params.wf (.clkoutSync p)
  | .clockStatus _ h p => h.wf && Params.wf (.clockStatus p)
  | .pairSet _ h p => h.wf && Params.wf (.pairSet p)
  | .pairResync _ h p => h.wf && Params.wf (.pairResync p)
  | .pairTransfer _ h p => h.wf && Params.wf (.pairTransfer p)
  | .pairStatus _ h p => h.wf && Params.wf (.pairStatus p)
  | .keyWrite _ h p => h.wf && Params.wf (.keyWrite p)
  | .keyDerive _ h p => h.wf && Params.wf (.keyDerive p)
  | .keyInvalidate _ h p => h.wf && Params.wf (.keyInvalidate p)
  | .keyQuery _ h p => h.wf && Params.wf (.keyQuery p)
  | .queueAuth _ h p => h.wf && Params.wf (.queueAuth p)
  | .laneCryptSet _ h p => h.wf && Params.wf (.laneCryptSet p)
  | .attest _ h p => h.wf && Params.wf (.attest p)
  | .tamperSet _ h p => h.wf && Params.wf (.tamperSet p)
  | .tamperStatus _ h p => h.wf && Params.wf (.tamperStatus p)
  | .nvRead _ h p => h.wf && Params.wf (.nvRead p)
  | .nvWrite _ h p => h.wf && Params.wf (.nvWrite p)
  | .nvProtect _ h p => h.wf && Params.wf (.nvProtect p)
  | .nvCounter _ h p => h.wf && Params.wf (.nvCounter p)
  | .auditRead _ h p => h.wf && Params.wf (.auditRead p)
  | .counterRead _ h p => h.wf && Params.wf (.counterRead p)
  | .counterSnapshot _ h p => h.wf && Params.wf (.counterSnapshot p)
  | .monitorSet _ h p => h.wf && Params.wf (.monitorSet p)
  | .monitorRead _ h p => h.wf && Params.wf (.monitorRead p)
  | .eventRoute _ h p => h.wf && Params.wf (.eventRoute p)
  | .gpioSet _ h p => h.wf && Params.wf (.gpioSet p)
  | .gpioEdge _ h p => h.wf && Params.wf (.gpioEdge p)
  | .gpioRead _ h p => h.wf && Params.wf (.gpioRead p)
  | .cpbLoad _ h p => h.wf && Params.wf (.cpbLoad p)
  | .cpbCtrl _ h p => h.wf && Params.wf (.cpbCtrl p)
  | .sqTail _ q value written => Decidable.decide (q < 8) && Decidable.decide (value < 2 ^ 32) && written.all Packet.wf
  | .cqHead _ q value => Decidable.decide (q < 8) && Decidable.decide (value < 2 ^ 32)
  | .queueEnable _ q _ vector => Decidable.decide (q < 9) && Decidable.decide (vector < 64)
  | .queueDisable _ q _ vector => Decidable.decide (q < 9) && Decidable.decide (vector < 64)
  | .queueResume _ q => Decidable.decide (q < 9)
  | .claim _ target id => Decidable.decide (target < 3) && Decidable.decide (id < 1024)
  | .complete _ target id => Decidable.decide (target < 3) && Decidable.decide (id < 1024)
  | .cntSel _ _ id => Decidable.decide (id < 2 ^ 24)
  | .cntValOvfClear _ _ => true
  | .stcLowRead _ => true
  | .q8SqTail _ value written => Decidable.decide (value < 2 ^ 32) && written.all Packet.wf
  | .q8RrHead _ value => Decidable.decide (value < 2 ^ 32)
  | .swiSet _ id => Decidable.decide (id < 1024)
  | .timecmp _ value => Decidable.decide (value < 2 ^ 64)
  | .timerDisarm _ => true
  | .timerFiredClear _ => true
  | .gpioOut _ value => Decidable.decide (value < 2 ^ 32)
  | .cpbAccessFault _ _ size _ => (size == 1 || size == 2 || size == 4 || size == 8)
  | .registerWrite _ _ _ size value => (size == 1 || size == 2 || size == 4 || size == 8) && Decidable.decide (value < 2 ^ 64)
  | .writePacket _ pk _ _ => pk.wf
  | .readReply _ _ => true
  | .readStatus _ => true
  | .queueFetch _ q => Decidable.decide (q < 10)
  | .barrierRelease _ q => Decidable.decide (q < 10)
  | .barrierTimeout _ q => Decidable.decide (q < 10)
  | .rasterLineStart _ raster => Decidable.decide (raster < 514)
  | .outputFrameStart _ output => Decidable.decide (output < 512)
  | .flattenComplete _ output run => Decidable.decide (output < 512) && Decidable.decide (run < 2)
  | .sluiceDecisionLine _ output => Decidable.decide (output < 512)
  | .engineFrameStart _ engine => Decidable.decide (engine < 192)
  | .knownAnswerResult _ engine _ => Decidable.decide (engine < 192)
  | .kernelLoadVerified _ engine _ => Decidable.decide (engine < 192)
  | .motionEstimateDone _ engine => Decidable.decide (engine < 192)
  | .superframeReceive _ bundle lane _ => Decidable.decide (bundle ≤ 64) && Decidable.decide (lane < 8)
  | .superframeCrcResult _ point => Decidable.decide (point < 512)
  | .groupSuperframeBoundary _ point _ => Decidable.decide (point < 512)
  | .streamPresent _ point => Decidable.decide (point < 512)
  | .laneEnterSeed _ bundle lane => Decidable.decide (bundle ≤ 64) && Decidable.decide (lane < 8)
  | .laneEnterLocked _ bundle lane => Decidable.decide (bundle ≤ 64) && Decidable.decide (lane < 8)
  | .laneLossOfLock _ bundle lane => Decidable.decide (bundle ≤ 64) && Decidable.decide (lane < 8)
  | .misconnectionEvent _ bundle lane => Decidable.decide (bundle ≤ 64) && Decidable.decide (lane < 8)
  | .dllLock _ bundle => Decidable.decide (bundle ≤ 64)
  | .forwardedClockLost _ bundle => Decidable.decide (bundle ≤ 64)
  | .txSuperframe _ bundle => Decidable.decide (bundle ≤ 64)
  | .directionSleepComplete _ bundle dir => Decidable.decide (bundle ≤ 64) && Decidable.decide (dir < 2)
  | .directionWakeComplete _ bundle dir => Decidable.decide (bundle ≤ 64) && Decidable.decide (dir < 2)
  | .prbsWindowCheck _ bundle lane received => Decidable.decide (bundle ≤ 64) && Decidable.decide (lane < 8) && received.length == 1024
  | .trainingRoundStart _ bundle => Decidable.decide (bundle ≤ 64)
  | .trainingPhaseTimeout _ bundle => Decidable.decide (bundle ≤ 64)
  | .rxAdaptEnd _ bundle _ => Decidable.decide (bundle ≤ 64)
  | .bcAckReceived _ bundle lane bc => Decidable.decide (bundle ≤ 64) && Decidable.decide (lane < 8) && Decidable.decide (bc < 65536)
  | .firDwellEnd _ bundle lane => Decidable.decide (bundle ≤ 64) && Decidable.decide (lane < 8)
  | .bcRequestUnanswered _ bundle lane => Decidable.decide (bundle ≤ 64) && Decidable.decide (lane < 8)
  | .verifyEnd _ bundle => Decidable.decide (bundle ≤ 64)
  | .roundRetryWaitExpire _ bundle => Decidable.decide (bundle ≤ 64)
  | .bcRequestReceived _ bundle lane bc => Decidable.decide (bundle ≤ 64) && Decidable.decide (lane < 8) && Decidable.decide (bc < 65536)
  | .bcDoneReceived _ bundle lane => Decidable.decide (bundle ≤ 64) && Decidable.decide (lane < 8)
  | .sleepRequestReceived _ bundle lane bc => Decidable.decide (bundle ≤ 64) && Decidable.decide (lane < 8) && Decidable.decide (bc < 65536)
  | .refFrameSyncPulse _ port _ => Decidable.decide (port < 2)
  | .refLineSyncPulse _ port _ => Decidable.decide (port < 2)
  | .refAbsent _ port => Decidable.decide (port < 2)
  | .refPresent _ port => Decidable.decide (port < 2)
  | .frameSyncMissing _ port => Decidable.decide (port < 2)
  | .synthLock _ synth => Decidable.decide (synth < 36)
  | .synthLossOfLock _ synth => Decidable.decide (synth < 36)
  | .bandMiss _ synth => Decidable.decide (synth < 36)
  | .bandSearchDone _ synth band _ => Decidable.decide (synth < 36) && Decidable.decide (band < 64)
  | .syncInEdge _ => true
  | .fabricSynthLoss _ => true
  | .laneSynthLoss _ synth => Decidable.decide (synth < 36)
  | .cpbTimerCompare _ => true
  | .inputRasterStale _ point => Decidable.decide (point < 512)
  | .destinationBlockService _ dest => Decidable.decide (dest < 18432)
  | .underrunHoldExpire _ dest => Decidable.decide (dest < 18432)
  | .embedBlockSend _ output => Decidable.decide (output < 512)
  | .tdmFsEdge _ port _ => Decidable.decide (port < 32)
  | .tdmFsTimeout _ port => Decidable.decide (port < 32)
  | .domainLock _ domain house => Decidable.decide (domain < 4128) && Decidable.decide (house < 2)
  | .domainSampleTimeout _ domain => Decidable.decide (domain < 4128)
  | .asrcLock _ group => Decidable.decide (group < 256)
  | .asrcSourceTimeout _ group => Decidable.decide (group < 256)
  | .nonaudioRevert _ pair => Decidable.decide (pair < 9216)
  | .msgHello _ _ _ => true
  | .linkUp _ => true
  | .msgCmd _ _ m => m.packet.wf
  | .msgVerdict _ _ _ _ => true
  | .commitPoint _ _ => true
  | .msgCommit _ _ _ _ => true
  | .msgClass _ _ output frame _ _ => Decidable.decide (output < 896) && Decidable.decide (frame < 2 ^ 48)
  | .msgDecide _ _ output frame _ => Decidable.decide (output < 512) && Decidable.decide (frame < 2 ^ 48)
  | .msgLeat _ _ d => d.wf
  | .msgSig _ _ _ _ => true
  | .msgReport _ _ _ _ _ => true
  | .msgState _ _ _ _ _ _ items => items.all fun c => c.packet.wf
  | .msgXfer _ _ _ _ _ => true
  | .msgFail _ _ source => Decidable.decide (source < 11)
  | .msgHandover _ _ _ raster frame _ => Decidable.decide (raster < 514) && Decidable.decide (frame < 2 ^ 48)
  | .decisionDeadlineMiss _ => true
  | .granuleSignature _ _ => true
  | .signatureUnmatched _ _ => true
  | .attributionWindowEnd _ output => Decidable.decide (output < 512)
  | .resyncLockstep _ => true
  | .resyncTimeout _ => true
  | .transferComplete _ => true
  | .faultNAssert _ => true
  | .scrubGranule _ granule _ => Decidable.decide (granule < 2^28)
  | .lockstepMismatch _ core => Decidable.decide (core < 2)
  | .controlRestartEnd _ => true
  | .normalInterruptRecognise _ cp => Decidable.decide (cp < 2)
  | .fastInterruptRecognise _ cp => Decidable.decide (cp < 2)
  | .entryCommit _ cp => Decidable.decide (cp < 2)
  | .mret _ cp => Decidable.decide (cp < 2)
  | .exitCommit _ cp => Decidable.decide (cp < 2)
  | .gpioInputEdge _ pin _ => Decidable.decide (pin < 16)
  | .resetNAssert _ _ => true
  | .resetNDeassert _ => true
  | .nvRecallComplete _ => true
  | .bootVerifyEnd _ _ => true
  | .firmwareReady _ => true
  | .selfTestEnd _ => true
  | .startupComplete _ => true
  | .coldstartRecall _ => true
  | .pciePerstN _ _ => true
  | .railFault _ row => Decidable.decide (row < 32)
  | .nvPowerFail _ _ => true
  | .nvWriteDone _ => true
  | .refreshPassStart _ => true
  | .refreshWord _ _ _ => true
  | .auditAppend _ => true
  | .tamperAlarm _ source => Decidable.decide (source < 16)
  | .tamperCountStore _ => true
  | .thermalSample _ _ => true
  | .wakeNLow _ => true
  | .wakeTimer _ => true
  | .quietEntryEnd _ => true
  | .wakeEnd _ => true
  | .monitorWindowClose _ monitor _ => Decidable.decide (monitor < 2048)
  | .xferComplete _ _ => true
  | .cpbLoadChecked _ => true
  | .exactCommaFound _ bundle lane => Decidable.decide (bundle ≤ 64) && Decidable.decide (lane < 8)
  | .eccUncorrectableError _ source _ _ _ _ => Decidable.decide (source < 16)
  | .datapathLockstepMismatch _ _ => true
  | .endToEndCrcMismatch _ _ => true
  | .pfwNDeassert _ => true
  | .tamperSourceInactive _ source => Decidable.decide (source < 16)
  | .vaonPowerUp _ => true
  | .keyOperationEnd _ _ => true

end Sys2Proof
end

