-- ==== Sys2Proof/Tests/Slice0.lean ====
section
/-! SUPPORT. Tests of the model: the spec's worked examples, ill-formed commands that `WellFormed` refuses, and for every statement
with hypotheses a state and operands that meet them, clause by clause (`test_meets_<statement>`; the statements of one
obligation are its parts in `Certificates/Slice0/Obligations.lean`). -/

set_option linter.unusedVariables false
set_option Elab.async false

namespace Sys2Proof

open Machine Claims

/-- A device after start-up, in BRINGUP, with nothing configured. -/
def ready : State := { State.reset with sys := { stage := .done, nvRecalling := false } }

/-- The same with queue 0 enabled. -/
def served : State := ready.setQueue 0 { enable := true }

/-- The same in a mode. -/
def inMode (m : Mode) : State := { ready with sys := { ready.sys with mode := m } }

/-- The header of a packet on queue `q`. -/
def onQueue (q : Nat) (p : Params) : Hdr := { queue := q, length := packetWords ⟨{}, p⟩ }

/-- A result descriptor that queue 9 accepts. -/
def room : Res := { bytes := 720 }

/-- A group of one lane in mode 0 and the geometry of the default raster. -/
def lane (dir bundle k : Nat) : StreamSetP :=
  { dir := dir, bundle := bundle, lane := k, g := 1, rate := 6, activeSamples := 1920, activeLines := 1080, totalLines := 1125 }

/-- A device whose last output has its transmit group and raster, and whose first input has its receive group. -/
def wired : State :=
  { ready.setTxStream 511 (some { cfg := lane 1 63 7 }) with
    rasters := [(511, some { started := true })], rxStreams := [(0, some { cfg := lane 0 0 0 })] }

/-- A frame ring, a still pair and a window, as parameters. -/
def ringP : BufParams := { typ := 0, format := 0, count := 4, width := 1920, height := 1080, tlines := 1125, rate := 6 }
def stillP : BufParams := { typ := 2, format := 0, count := 1, width := 1920, height := 1080, tlines := 1125, rate := 6 }
def sparseP : BufParams := { typ := 3, format := 6, count := 65535, width := 1920, height := 1080 }
def audioP : BufParams := { typ := 4, count := 32, size := 1048576 }
def windowP : BufParams := { typ := 6, target := 16384, hwRate := 100, dir := 1 }

/-- A buffer of those parameters at an address. -/
def bufOf (p : BufParams) (a : Nat) : Buf := { params := p, addr := a, size := 67108864 }

/-- A state with buffers 0, 1, ... of generation 1, so that their handles are 16384, 16385, ... -/
def withBufs (s : State) (l : List BufParams) : State :=
  { s with pond := { s.pond with
    bufs := l.zipIdx.map fun e => (e.2, some (bufOf e.1 (67108864 * e.2)))
    gens := l.zipIdx.map fun e => (e.2, 1) } }

/-- A KEY task on the last engine, on house raster A. -/
def port (f : Nat) : PortFmt := { width := 64, height := 32, format := f, rate := 6, scan := 0, g := 1 }
def keyP : KernelBindP := { engine := 191, kernel := 0x0107, raster := 0, in0 := port 0, out0 := port 4, block := .key {} }

/-- A device whose house raster A has 32 active lines of 64 pixels. -/
def small : State := { ready with houses := [{ desc := { activeSamples := 64, activeLines := 32 }, started := true }, {}] }

def keyTask : Task := { p := keyP, loaded := true, added := 1000000 }

/-- The same with that task, its engine loaded. -/
def tasked : State :=
  (small.setTask 191 (some keyTask)).setEngine 191 { st := .bound, first := 191, kernel := 0x0107, verified := true }

/-- The last lane of the last bundle's receive direction stands as given. -/
def onLane (l : RxLane) : State := ready.setRx 63 { dll := true, lanes := setAt (List.replicate 8 {}) 7 l }

/-- CP_B runs. -/
def cpbOn : State := ready.setCpb { ready.hub.cpB with running := true }

/-! ### The spec's worked examples -/

/-- RasterDesc of 1080p59.94 and of 2160p59.94. -/
def hd : RasterDesc := {}
def uhd : RasterDesc :=
  { hd with totalLines := 2250, totalSamples := 4400, activeLine1 := 83, activeLines := 2160, activeSamples := 3840 }

/-- Chapter 4: the seed, the keystream and the first two header slots of LANE_ID 40, SFC 0x0000_0103 (Table 4.4). -/
theorem test_scrambler_example : scramblerSeed 40 0x103 = 0x450075A3 ∧ symbolsOf (keystreamBits 40 0x103 40) = [0xDA07B, 0x17A14] ∧
    (headerSymbols 40 true false false 0x103 0 0).take 2 = [0x14400, 0x00103] ∧ Nat.xor 0xDA07B 0x14400 = 0xCE47B := by
  decide +kernel

/-- Chapter 5: the back-channel values of the POST request on lane 3 of RXB20, its answer, and the answer at the limit. -/
theorem test_back_channel_example : bcField 1 2 1 0 0 5 = 0x6405 ∧ bcField 2 2 1 0 0 5 = 0xA405 ∧ bcField 2 2 1 0 1 5 = 0xA415 := by
  decide +kernel

/-- Chapter 3: five pixels of the 4:4:4 12-bit row make nine symbols; 16 channels in blocks of 32 make 615 and 80 symbols. -/
theorem test_packing_example : (packGroup 3 ((List.replicate 5 [0xEB0, 0x800, 0x800]).flatten)).length = 9 ∧
    (packGroup 3 ((List.replicate 5 [0xEB0, 0x800, 0x800]).flatten)).head? = some 0xEB080 ∧
    audSampleSymbols 16 32 = 615 ∧ audSideSymbols 16 32 = 80 ∧ blockSamples 1 = 32 := by
  decide +kernel

/-- Chapter 7: the first 40 bits of a 4:2:2 10-bit line as it lies in the Millpond, and its pitch. -/
theorem test_pixel_storage_example : placeBits 10 [0x200, 0x040, 0x200, 0x3AC] = 0xEB20010200 ∧ pitch 1920 0 = 4864 := by
  decide +kernel

/-- Chapter 7, Table 7.7: the unit charges in MB/s. -/
theorem test_charge_table :
    writerCharge { typ := 0, format := 0, count := 4, width := 1920, height := 1080, tlines := 1125, rate := 6 } = 329 ∧
    writerCharge { typ := 0, format := 0, count := 4, width := 3840, height := 2160, tlines := 2250, rate := 6 } = 1313 ∧
    writerCharge { typ := 0, format := 4, count := 4, width := 3840, height := 2160, tlines := 2250, rate := 6 } = 2591 ∧
    writerCharge { typ := 0, format := 4, count := 4, width := 1920, height := 1080, tlines := 1125, rate := 6 } = 657 ∧
    readerCharge 1920 0 hd = 329 ∧ readerCharge 3840 0 uhd = 1313 ∧ layerCharge 1920 4 hd = 674 ∧ layerCharge 3840 4 uhd = 2624 ∧
    sparseCharge 6 1920 1080 hd = 260 ∧ sparseCharge 10 3840 2160 uhd = 864 ∧ tilePositions 1920 1080 = 510 ∧
    tilePositions 3840 2160 = 2040 := by
  decide +kernel

/-- SCALE of chapter 8's example: 3840 columns in 4:4:4 12-bit on one engine and on two. -/
def downscale (gang ov : Nat) : KernelBindP :=
  { engine := 40, gang := gang, ov := ov, kernel := 0x0101, raster := 302, outAdv := 589,
    in0 := { width := 3840, height := 2160, format := 3, rate := 6, scan := 0, g := 2 },
    out0 := { width := 1920, height := 1080, format := 3, rate := 6, scan := 0, g := 1 },
    block := .scale { htaps := 16, vtaps := 8, cropW := 3840, cropH := 2160 } }

/-- Chapter 8: the line buffers of that example, and the stripe width of two engines. -/
theorem test_line_buffer_example : lineBuffer (downscale 1 0) 1 = 276480 ∧ ceilDiv 276480 256 = 1080 ∧
    stripeWidth (downscale 2 16) 16 = 1952 ∧ lineBuffer (downscale 2 16) 1 = 140544 := by
  decide +kernel

/-- SCALE of chapter 9's chain, from 1080 to 2160 lines. -/
def upscale : KernelBindP :=
  { engine := 66, kernel := 0x0101, raster := 412, in0 := { width := 1920, height := 1080, format := 0, rate := 6, g := 1 },
    out0 := { width := 3840, height := 2160, format := 0, rate := 6, g := 1 },
    block := .scale { geo := { inTLines := 1125, inALine1 := 42 }, htaps := 8, vtaps := 6, cropW := 1920, cropH := 1080, dw := 3840, dh := 2160 } }

/-- Chapter 9: output line 2 j + 1 of that SCALE needs input line j + 3, and its A is 270 ticks above the longest wait. -/
theorem test_added_latency_example : needLine upscale 1001 = some 503 ∧ needLine upscale 2159 = some 1079 ∧ needLine upscale 0 = some 2 ∧
    pipeP upscale.block = 270 ∧ lpos 503 1080 42 0 * 4004 - (lpos 1001 2160 83 0 - 1) * 2002 + 270 = 14284 := by
  decide +kernel

/-- Chapter 11: the audio of R316's example in both host formats. -/
theorem test_host_audio_example : toP4 2 [0x56, 0x34, 0x12, 0xBA, 0xDC, 0xFE] = [0, 0x56, 0x34, 0x12, 0, 0xBA, 0xDC, 0xFE] ∧
    toP3 2 [0, 0x56, 0x34, 0x12, 0, 0xBA, 0xDC, 0xFE] = [0x56, 0x34, 0x12, 0xBA, 0xDC, 0xFE] := by
  decide +kernel

/-- Chapter 13: the SYS_IDENTIFY of the example is 10 words long. -/
theorem test_packet_length_example : packetWords ⟨{}, .sysIdentify { res := { bytes := 96 } }⟩ = 10 := by
  decide +kernel

/-- Chapter 15: 148.5 MHz on a 59.94 Hz house is 148.3516 MHz. -/
theorem test_reference_example : (small.setRef 0 { freqHz := 148500000 }).scaledRef 0 / 100000 = 1483516 := by
  decide +kernel

/-- Chapter 13: the bytes of a LOSS_SET to HOLD on output 64, scheduled at 8812:1 on raster 66 with REJECT (R11, R333). -/
def lossPacket : Packet :=
  ⟨{ seq := 0xA2F, tag := 7, length := 8, sched := true, reject := true, line := 1, frame := 8812, raster := 66 },
   .lossSet { output := 64, policy := 1, holdLimit := 300 }⟩

theorem test_packet_example : Packet.bytes lossPacket =
    [0x31, 0x00, 0x04, 0x03, 0x2F, 0x0A, 0x00, 0x00, 0x08, 0x00, 0x07, 0x00, 0x42, 0x00, 0x6C, 0x22,
     0x00, 0x00, 0x01, 0x00, 0x00, 0x00, 0x00, 0x00, 0x40, 0x00, 0x01, 0x00, 0x2C, 0x01, 0x00, 0x00] := by
  decide +kernel

/-- Chapter 14: a line of a 32-line raster at 23.976 Hz has 163 granules (R389). -/
theorem test_granule_segments : segmentCount (frameTicks 24000 1001) 32 = 163 := by decide +kernel

/-- Chapter 12: INDIRECT puts a 16-byte descriptor in the place of the parameters (R335). -/
theorem test_indirect_packet :
    let pk : Packet := ⟨{ lossPacket.hdr with length := 10, indirect := some { addr := 0x1000, bytes := 8 } }, lossPacket.params⟩
    lengthOk pk = true ∧ (Packet.bytes pk).drop 24 = [0, 0x10, 0, 0, 0, 0, 0, 0, 8, 0, 0, 0, 0, 0, 0, 0] := by
  decide +kernel

/-! ### Ill-formed commands: each check of `WellFormed` refuses a term that breaks it alone -/

theorem test_wf_system : (([
     .sysIdentify { res := {} }, .sysCaps { res := {} }, .sysMode { mode := 0 }, .barrier {}, .sysRestart { kind := 0 },
     .sysWakeSet { enables := 0, timer := 0 }, .sysFaultRead { res := {} }, .rasterSet { raster := 0, desc := {} },
     .rasterQuery { res := {}, raster := 0 }, .stcSet { op := 0, value := 0 }, .stcRead { res := {} },
     .schedCancel { queue := 0, seq := 0 }] : List Params).all Params.wf) = true ∧ (([
     .sysIdentify { res := { addr := 2 ^ 64 } }, .sysIdentify { res := { bytes := 2 ^ 32 } }, .sysCaps { res := { addr := 2 ^ 64 } },
     .sysCaps { res := { bytes := 2 ^ 32 } }, .sysMode { mode := 2 ^ 8 }, .barrier { timeout := 2 ^ 32 }, .barrier { fence := 2 ^ 8 },
     .barrier { fenceValue := 2 ^ 32 }, .barrier { waits := [{ queue := 2 ^ 8, seq := 0 }] },
     .barrier { waits := [{ queue := 0, seq := 2 ^ 32 }] }, .sysRestart { kind := 2 ^ 8 },
     .sysWakeSet { enables := 2 ^ 8, timer := 0 }, .sysWakeSet { enables := 0, timer := 2 ^ 64 },
     .sysFaultRead { res := { addr := 2 ^ 64 } }, .sysFaultRead { res := { bytes := 2 ^ 32 } },
     .rasterSet { raster := 2 ^ 16, desc := {} }, .rasterSet { raster := 0, desc := { totalLines := 2 ^ 16 } },
     .rasterSet { raster := 0, desc := { totalSamples := 2 ^ 16 } }, .rasterSet { raster := 0, desc := { rateNum := 2 ^ 32 } },
     .rasterSet { raster := 0, desc := { rateDen := 2 ^ 32 } }, .rasterSet { raster := 0, desc := { scan := 2 ^ 8 } },
     .rasterSet { raster := 0, desc := { field2Line := 2 ^ 16 } }, .rasterSet { raster := 0, desc := { activeLine1 := 2 ^ 16 } },
     .rasterSet { raster := 0, desc := { activeLines := 2 ^ 16 } }, .rasterSet { raster := 0, desc := { activeLine2 := 2 ^ 16 } },
     .rasterSet { raster := 0, desc := { activeSample0 := 2 ^ 16 } }, .rasterSet { raster := 0, desc := { activeSamples := 2 ^ 16 } },
     .rasterSet { raster := 0, desc := { house := 2 ^ 8 } }, .rasterSet { raster := 0, desc := { ratio := 2 ^ 8 } },
     .rasterSet { raster := 0, desc := { phaseLines := 2 ^ 16 } }, .rasterSet { raster := 0, desc := { phaseSamples := 2 ^ 16 } },
     .rasterQuery { res := {}, raster := 2 ^ 16 }, .rasterQuery { res := {}, raster := 0, house := 2 ^ 8 },
     .rasterQuery { res := {}, raster := 0, predLine := 2 ^ 16 }, .rasterQuery { res := {}, raster := 0, predFrame := 2 ^ 64 },
     .rasterQuery { res := { addr := 2 ^ 64 }, raster := 0 }, .rasterQuery { res := { bytes := 2 ^ 32 }, raster := 0 },
     .stcSet { op := 2 ^ 8, value := 0 }, .stcSet { op := 0, value := 2 ^ 64 }, .stcRead { res := { addr := 2 ^ 64 } },
     .stcRead { res := { bytes := 2 ^ 32 } }, .schedCancel { queue := 2 ^ 8, seq := 0 }, .schedCancel { queue := 0, seq := 2 ^ 32 }] : List Params).any Params.wf) = false := by
  decide +kernel

theorem test_wf_lane : (([
     .bundleSet { bundle := 0, dir := 0 }, .bundleStatus { res := {}, bundle := 0 }, .laneTrain { bundle := 0 },
     .bundleSleep { bundle := 0, dir := 0 }, .bundleWake { bundle := 0, dir := 0 }, .loopbackSet { port := 0, path := 0 },
     .prbsSet { bundle := 0, dir := 0, laneMask := 0, pattern := 0 }, .streamSet { dir := 0, bundle := 0, lane := 0, g := 0 }] : List Params).all Params.wf) = true ∧ (([
     .bundleSet { bundle := 2 ^ 8, dir := 0 }, .bundleSet { bundle := 0, dir := 2 ^ 8 },
     .bundleSet { bundle := 0, dir := 0, rate := 2 ^ 8 }, .bundleSet { bundle := 0, dir := 0, laneMask := 2 ^ 8 },
     .bundleSet { bundle := 0, dir := 0, swing := 2 ^ 8 }, .bundleSet { bundle := 0, dir := 0, expectBase := 2 ^ 16 },
     .bundleSet { bundle := 0, dir := 0, spread := 2 ^ 8 }, .bundleStatus { res := {}, bundle := 2 ^ 8 },
     .bundleStatus { res := { addr := 2 ^ 64 }, bundle := 0 }, .bundleStatus { res := { bytes := 2 ^ 32 }, bundle := 0 },
     .laneTrain { bundle := 2 ^ 8 }, .bundleSleep { bundle := 2 ^ 8, dir := 0 }, .bundleSleep { bundle := 0, dir := 2 ^ 8 },
     .bundleWake { bundle := 2 ^ 8, dir := 0 }, .bundleWake { bundle := 0, dir := 2 ^ 8 }, .loopbackSet { port := 2 ^ 8, path := 0 },
     .loopbackSet { port := 0, path := 2 ^ 8 }, .prbsSet { bundle := 2 ^ 8, dir := 0, laneMask := 0, pattern := 0 },
     .prbsSet { bundle := 0, dir := 2 ^ 8, laneMask := 0, pattern := 0 },
     .prbsSet { bundle := 0, dir := 0, laneMask := 2 ^ 8, pattern := 0 },
     .prbsSet { bundle := 0, dir := 0, laneMask := 0, pattern := 2 ^ 8 }, .streamSet { dir := 2 ^ 8, bundle := 0, lane := 0, g := 0 },
     .streamSet { dir := 0, bundle := 2 ^ 8, lane := 0, g := 0 }, .streamSet { dir := 0, bundle := 0, lane := 2 ^ 8, g := 0 },
     .streamSet { dir := 0, bundle := 0, lane := 0, g := 2 ^ 8 },
     .streamSet { dir := 0, bundle := 0, lane := 0, g := 0, mode := 2 ^ 8 },
     .streamSet { dir := 0, bundle := 0, lane := 0, g := 0, tag := 2 ^ 8 },
     .streamSet { dir := 0, bundle := 0, lane := 0, g := 0, rate := 2 ^ 8 },
     .streamSet { dir := 0, bundle := 0, lane := 0, g := 0, activeSamples := 2 ^ 16 },
     .streamSet { dir := 0, bundle := 0, lane := 0, g := 0, activeLines := 2 ^ 16 },
     .streamSet { dir := 0, bundle := 0, lane := 0, g := 0, totalLines := 2 ^ 16 },
     .streamSet { dir := 0, bundle := 0, lane := 0, g := 0, scan := 2 ^ 8 }] : List Params).any Params.wf) = false := by
  decide +kernel

theorem test_wf_route : (([
     .routeTake { count := 0, entries := [] }, .routeQuery { res := {}, dests := [] }, .lossSet { output := 0, policy := 0 },
     .presetStore { preset := 0 }, .presetRecall { preset := 0 }, .presetColdstart { preset := 0, enable := false }] : List Params).all Params.wf) = true ∧ (([
     .routeTake { count := 2 ^ 16, entries := [] }, .routeTake { count := 0, entries := [{ dest := 2 ^ 16, src := 0 }] },
     .routeTake { count := 0, entries := [{ dest := 0, src := 2 ^ 16 }] },
     .routeTake { count := 0, entries := [{ dest := 0, src := 0, g := 2 ^ 8 }] },
     .routeTake { count := 0, entries := [{ dest := 0, src := 0, extra := 2 ^ 8 }] },
     .routeQuery { res := { addr := 2 ^ 64 }, dests := [] }, .routeQuery { res := { bytes := 2 ^ 32 }, dests := [] },
     .routeQuery { res := {}, dests := [2 ^ 16] }, .lossSet { output := 2 ^ 16, policy := 0 },
     .lossSet { output := 0, policy := 2 ^ 8 }, .lossSet { output := 0, policy := 0, holdLimit := 2 ^ 16 },
     .presetStore { preset := 2 ^ 8 }, .presetRecall { preset := 2 ^ 8 }, .presetColdstart { preset := 2 ^ 8, enable := false }] : List Params).any Params.wf) = false := by
  decide +kernel

theorem test_wf_buffer : (([
     .bufCreate { params := { typ := 0 }, res := {} }, .bufDestroy { handle := 0 }, .bufQuery { res := {}, handle := 0 },
     .bufXfer { window := 0, offset := 0, bytes := 0 }, .captureBind { cw := 0, g := 0, handle := 0 },
     .playoutBind { pb := 0, g := 0, handle := 0 }, .weirQuery { res := {} }] : List Params).all Params.wf) = true ∧ (([
     .bufCreate { params := { typ := 0 }, res := { addr := 2 ^ 64 } },
     .bufCreate { params := { typ := 0 }, res := { bytes := 2 ^ 32 } }, .bufCreate { params := { typ := 2 ^ 8 }, res := {} },
     .bufCreate { params := { typ := 0, format := 2 ^ 8 }, res := {} },
     .bufCreate { params := { typ := 0, count := 2 ^ 16 }, res := {} },
     .bufCreate { params := { typ := 0, width := 2 ^ 16 }, res := {} },
     .bufCreate { params := { typ := 0, height := 2 ^ 16 }, res := {} },
     .bufCreate { params := { typ := 0, tlines := 2 ^ 16 }, res := {} },
     .bufCreate { params := { typ := 0, rate := 2 ^ 8 }, res := {} }, .bufCreate { params := { typ := 0, scan := 2 ^ 8 }, res := {} },
     .bufCreate { params := { typ := 0, size := 2 ^ 64 }, res := {} },
     .bufCreate { params := { typ := 0, target := 2 ^ 32 }, res := {} },
     .bufCreate { params := { typ := 0, hwRate := 2 ^ 32 }, res := {} },
     .bufCreate { params := { typ := 0, dir := 2 ^ 8 }, res := {} }, .bufDestroy { handle := 2 ^ 32 },
     .bufQuery { res := {}, handle := 2 ^ 32 }, .bufQuery { res := { addr := 2 ^ 64 }, handle := 0 },
     .bufQuery { res := { bytes := 2 ^ 32 }, handle := 0 }, .bufXfer { window := 2 ^ 32, offset := 0, bytes := 0 },
     .bufXfer { window := 0, offset := 0, bytes := 0, slot := 2 ^ 16 }, .bufXfer { window := 0, offset := 2 ^ 64, bytes := 0 },
     .bufXfer { window := 0, offset := 0, bytes := 0, hostAddr := 2 ^ 64 }, .bufXfer { window := 0, offset := 0, bytes := 2 ^ 32 },
     .bufXfer { window := 0, offset := 0, bytes := 0, frame := 2 ^ 64 },
     .bufXfer { window := 0, offset := 0, bytes := 0, doneStc := 2 ^ 64 }, .captureBind { cw := 2 ^ 16, g := 0, handle := 0 },
     .captureBind { cw := 0, g := 2 ^ 8, handle := 0 }, .captureBind { cw := 0, g := 0, handle := 2 ^ 32 },
     .playoutBind { pb := 2 ^ 16, g := 0, handle := 0 }, .playoutBind { pb := 0, g := 2 ^ 8, handle := 0 },
     .playoutBind { pb := 0, g := 0, handle := 0, mode := 2 ^ 8 }, .playoutBind { pb := 0, g := 0, handle := 2 ^ 32 },
     .playoutBind { pb := 0, g := 0, handle := 0, raster := 2 ^ 16 }, .playoutBind { pb := 0, g := 0, handle := 0, extra := 2 ^ 8 },
     .playoutBind { pb := 0, g := 0, handle := 0, slot := 2 ^ 16 }, .weirQuery { res := { addr := 2 ^ 64 } },
     .weirQuery { res := { bytes := 2 ^ 32 } }] : List Params).any Params.wf) = false := by
  decide +kernel

theorem test_wf_engine : (([
     .kernelBind { engine := 0, kernel := 0, raster := 0, block := .other 0 }, .kernelUpdate { engine := 0, block := .other 0 },
     .kernelUnbind { engine := 0 }, .engineReserve { first := 0, count := 0 }, .engineMigrate { engine := 0, target := 0 },
     .engineQuery { res := {}, first := 0, count := 0 }] : List Params).all Params.wf) = true ∧ (([
     .kernelBind { engine := 2 ^ 16, kernel := 0, raster := 0, block := .other 0 },
     .kernelBind { engine := 0, kernel := 0, raster := 0, block := .other 0, gang := 2 ^ 8 },
     .kernelBind { engine := 0, kernel := 0, raster := 0, block := .other 0, ov := 2 ^ 8 },
     .kernelBind { engine := 0, kernel := 2 ^ 16, raster := 0, block := .other 0 },
     .kernelBind { engine := 0, kernel := 0, raster := 2 ^ 16, block := .other 0 },
     .kernelBind { engine := 0, kernel := 0, raster := 0, block := .other 0, outAdv := 2 ^ 16 },
     .kernelBind { engine := 0, kernel := 0, raster := 0, block := .other 0, in0 := { width := 2 ^ 16 } },
     .kernelBind { engine := 0, kernel := 0, raster := 0, block := .other 0, in0 := { height := 2 ^ 16 } },
     .kernelBind { engine := 0, kernel := 0, raster := 0, block := .other 0, in0 := { format := 2 ^ 8 } },
     .kernelBind { engine := 0, kernel := 0, raster := 0, block := .other 0, in0 := { rate := 2 ^ 8 } },
     .kernelBind { engine := 0, kernel := 0, raster := 0, block := .other 0, in0 := { scan := 2 ^ 8 } },
     .kernelBind { engine := 0, kernel := 0, raster := 0, block := .other 0, in0 := { g := 2 ^ 8 } },
     .kernelBind { engine := 0, kernel := 0, raster := 0, block := .other 0, in1 := { width := 2 ^ 16 } },
     .kernelBind { engine := 0, kernel := 0, raster := 0, block := .other 0, in1 := { height := 2 ^ 16 } },
     .kernelBind { engine := 0, kernel := 0, raster := 0, block := .other 0, in1 := { format := 2 ^ 8 } },
     .kernelBind { engine := 0, kernel := 0, raster := 0, block := .other 0, in1 := { rate := 2 ^ 8 } },
     .kernelBind { engine := 0, kernel := 0, raster := 0, block := .other 0, in1 := { scan := 2 ^ 8 } },
     .kernelBind { engine := 0, kernel := 0, raster := 0, block := .other 0, in1 := { g := 2 ^ 8 } },
     .kernelBind { engine := 0, kernel := 0, raster := 0, block := .other 0, out0 := { width := 2 ^ 16 } },
     .kernelBind { engine := 0, kernel := 0, raster := 0, block := .other 0, out0 := { height := 2 ^ 16 } },
     .kernelBind { engine := 0, kernel := 0, raster := 0, block := .other 0, out0 := { format := 2 ^ 8 } },
     .kernelBind { engine := 0, kernel := 0, raster := 0, block := .other 0, out0 := { rate := 2 ^ 8 } },
     .kernelBind { engine := 0, kernel := 0, raster := 0, block := .other 0, out0 := { scan := 2 ^ 8 } },
     .kernelBind { engine := 0, kernel := 0, raster := 0, block := .other 0, out0 := { g := 2 ^ 8 } },
     .kernelBind { engine := 0, kernel := 0, raster := 0, block := .other 0, out1 := { width := 2 ^ 16 } },
     .kernelBind { engine := 0, kernel := 0, raster := 0, block := .other 0, out1 := { height := 2 ^ 16 } },
     .kernelBind { engine := 0, kernel := 0, raster := 0, block := .other 0, out1 := { format := 2 ^ 8 } },
     .kernelBind { engine := 0, kernel := 0, raster := 0, block := .other 0, out1 := { rate := 2 ^ 8 } },
     .kernelBind { engine := 0, kernel := 0, raster := 0, block := .other 0, out1 := { scan := 2 ^ 8 } },
     .kernelBind { engine := 0, kernel := 0, raster := 0, block := .other 0, out1 := { g := 2 ^ 8 } },
     .kernelBind { engine := 0, kernel := 0, raster := 0, block := .scale { htaps := 2 ^ 8 } },
     .kernelBind { engine := 0, kernel := 0, raster := 0, block := .scale { vtaps := 2 ^ 8 } },
     .kernelBind { engine := 0, kernel := 0, raster := 0, block := .scale { sharp := 2 ^ 8 } },
     .kernelBind { engine := 0, kernel := 0, raster := 0, block := .scale { aspect := 2 ^ 8 } },
     .kernelBind { engine := 0, kernel := 0, raster := 0, block := .scale { cropX := 2 ^ 16 } },
     .kernelBind { engine := 0, kernel := 0, raster := 0, block := .scale { cropY := 2 ^ 16 } },
     .kernelBind { engine := 0, kernel := 0, raster := 0, block := .scale { cropW := 2 ^ 16 } },
     .kernelBind { engine := 0, kernel := 0, raster := 0, block := .scale { cropH := 2 ^ 16 } },
     .kernelBind { engine := 0, kernel := 0, raster := 0, block := .scale { dx := 2 ^ 16 } },
     .kernelBind { engine := 0, kernel := 0, raster := 0, block := .scale { dy := 2 ^ 16 } },
     .kernelBind { engine := 0, kernel := 0, raster := 0, block := .scale { dw := 2 ^ 16 } },
     .kernelBind { engine := 0, kernel := 0, raster := 0, block := .scale { dh := 2 ^ 16 } },
     .kernelBind { engine := 0, kernel := 0, raster := 0, block := .scale { geo := { inTLines := 2 ^ 16 } } },
     .kernelBind { engine := 0, kernel := 0, raster := 0, block := .scale { geo := { inALine1 := 2 ^ 16 } } },
     .kernelBind { engine := 0, kernel := 0, raster := 0, block := .scale { geo := { inALine2 := 2 ^ 16 } } },
     .kernelBind { engine := 0, kernel := 0, raster := 0, block := .deint { hist := 2 ^ 32 } },
     .kernelBind { engine := 0, kernel := 0, raster := 0, block := .deint { hist := 0, mode := 2 ^ 8 } },
     .kernelBind { engine := 0, kernel := 0, raster := 0, block := .deint { hist := 0, edge := 2 ^ 8 } },
     .kernelBind { engine := 0, kernel := 0, raster := 0, block := .deint { hist := 0, cadence := 2 ^ 8 } },
     .kernelBind { engine := 0, kernel := 0, raster := 0, block := .deint { hist := 0, mgain := 2 ^ 8 } },
     .kernelBind { engine := 0, kernel := 0, raster := 0, block := .deint { hist := 0, mthresh := 2 ^ 16 } },
     .kernelBind { engine := 0, kernel := 0, raster := 0, block := .frcMc { hist := 2 ^ 32, mv := 0 } },
     .kernelBind { engine := 0, kernel := 0, raster := 0, block := .frcMc { hist := 0, mv := 2 ^ 32 } },
     .kernelBind { engine := 0, kernel := 0, raster := 0, block := .frcMc { hist := 0, mv := 0, fallback := 2 ^ 8 } },
     .kernelBind { engine := 0, kernel := 0, raster := 0, block := .frcMc { hist := 0, mv := 0, conf := 2 ^ 8 } },
     .kernelBind { engine := 0, kernel := 0, raster := 0, block := .frcBlend { hist := 2 ^ 32 } },
     .kernelBind { engine := 0, kernel := 0, raster := 0, block := .frcBlend { hist := 0, mode := 2 ^ 8 } },
     .kernelBind { engine := 0, kernel := 0, raster := 0, block := .color { stages := 2 ^ 8 } },
     .kernelBind { engine := 0, kernel := 0, raster := 0, block := .color { decodeTf := 2 ^ 8 } },
     .kernelBind { engine := 0, kernel := 0, raster := 0, block := .color { encodeTf := 2 ^ 8 } },
     .kernelBind { engine := 0, kernel := 0, raster := 0, block := .color { outTag := 2 ^ 8 } },
     .kernelBind { engine := 0, kernel := 0, raster := 0, block := .color { sdrWhite := 2 ^ 16 } },
     .kernelBind { engine := 0, kernel := 0, raster := 0, block := .color { hlgLw := 2 ^ 16 } },
     .kernelBind { engine := 0, kernel := 0, raster := 0, block := .color { geo := { inTLines := 2 ^ 16 } } },
     .kernelBind { engine := 0, kernel := 0, raster := 0, block := .color { geo := { inALine1 := 2 ^ 16 } } },
     .kernelBind { engine := 0, kernel := 0, raster := 0, block := .color { geo := { inALine2 := 2 ^ 16 } } },
     .kernelBind { engine := 0, kernel := 0, raster := 0, block := .color { inMatrix := [2 ^ 31] } },
     .kernelBind { engine := 0, kernel := 0, raster := 0, block := .color { inOffset := [2 ^ 31] } },
     .kernelBind { engine := 0, kernel := 0, raster := 0, block := .color { gamut := [2 ^ 31] } },
     .kernelBind { engine := 0, kernel := 0, raster := 0, block := .color { outMatrix := [2 ^ 31] } },
     .kernelBind { engine := 0, kernel := 0, raster := 0, block := .color { outOffset := [2 ^ 31] } },
     .kernelBind { engine := 0, kernel := 0, raster := 0, block := .color { inMatrix := [-(2 ^ 31) - 1] } },
     .kernelBind { engine := 0, kernel := 0, raster := 0, block := .color { lut := [2 ^ 16] } },
     .kernelBind { engine := 0, kernel := 0, raster := 0, block := .chroma { filter := 2 ^ 8 } },
     .kernelBind { engine := 0, kernel := 0, raster := 0, block := .chroma { in420 := 2 ^ 8 } },
     .kernelBind { engine := 0, kernel := 0, raster := 0, block := .chroma { out420 := 2 ^ 8 } },
     .kernelBind { engine := 0, kernel := 0, raster := 0, block := .chroma { geo := { inTLines := 2 ^ 16 } } },
     .kernelBind { engine := 0, kernel := 0, raster := 0, block := .chroma { geo := { inALine1 := 2 ^ 16 } } },
     .kernelBind { engine := 0, kernel := 0, raster := 0, block := .chroma { geo := { inALine2 := 2 ^ 16 } } },
     .kernelBind { engine := 0, kernel := 0, raster := 0, block := .key { mode := 2 ^ 8 } },
     .kernelBind { engine := 0, kernel := 0, raster := 0, block := .key { matrix := 2 ^ 8 } },
     .kernelBind { engine := 0, kernel := 0, raster := 0, block := .key { invert := 2 ^ 8 } },
     .kernelBind { engine := 0, kernel := 0, raster := 0, block := .key { spill := 2 ^ 8 } },
     .kernelBind { engine := 0, kernel := 0, raster := 0, block := .key { clip := 2 ^ 32 } },
     .kernelBind { engine := 0, kernel := 0, raster := 0, block := .key { gain := 2 ^ 16 } },
     .kernelBind { engine := 0, kernel := 0, raster := 0, block := .key { hue := 2 ^ 16 } },
     .kernelBind { engine := 0, kernel := 0, raster := 0, block := .key { accept := 2 ^ 8 } },
     .kernelBind { engine := 0, kernel := 0, raster := 0, block := .key { geo := { inTLines := 2 ^ 16 } } },
     .kernelBind { engine := 0, kernel := 0, raster := 0, block := .key { geo := { inALine1 := 2 ^ 16 } } },
     .kernelBind { engine := 0, kernel := 0, raster := 0, block := .key { geo := { inALine2 := 2 ^ 16 } } },
     .kernelUpdate { engine := 2 ^ 16, block := .other 0 }, .kernelUpdate { engine := 0, block := .chroma { filter := 2 ^ 8 } },
     .kernelUnbind { engine := 2 ^ 16 }, .engineReserve { first := 2 ^ 16, count := 0 }, .engineReserve { first := 0, count := 2 ^ 8 },
     .engineReserve { first := 0, count := 0, ceiling := 2 ^ 32 }, .engineMigrate { engine := 2 ^ 16, target := 0 },
     .engineMigrate { engine := 0, target := 2 ^ 16 }, .engineQuery { res := {}, first := 2 ^ 16, count := 0 },
     .engineQuery { res := {}, first := 0, count := 2 ^ 16 }, .engineQuery { res := { addr := 2 ^ 64 }, first := 0, count := 0 },
     .engineQuery { res := { bytes := 2 ^ 32 }, first := 0, count := 0 }] : List Params).any Params.wf) = false := by
  decide +kernel

theorem test_wf_layer : (([
     .layerSet { output := 0, count := 0, entries := [] }, .layerFlip { output := 0, layer := 0, buf := 0 },
     .layerQuery { res := {}, output := 0 }, .compSet { output := 0, dl := 0 }, .fenceBind { fence := 0, point := 0 },
     .fenceSignal { fence := 0, value := 0 }, .fenceQuery { res := {}, fence := 0 }, .groupSet { group := 0, members := [] },
     .staticSet { output := 0, run := 0, op := 0 }] : List Params).all Params.wf) = true ∧ (([
     .layerSet { output := 2 ^ 16, count := 0, entries := [] }, .layerSet { output := 0, count := 2 ^ 8, entries := [] },
     .layerSet { output := 0, count := 0, entries := [{ layer := 2 ^ 8 }] },
     .layerSet { output := 0, count := 0, entries := [{ layer := 0, z := 2 ^ 8 }] },
     .layerSet { output := 0, count := 0, entries := [{ layer := 0, tag := 2 ^ 8 }] },
     .layerSet { output := 0, count := 0, entries := [{ layer := 0, slot := 2 ^ 16 }] },
     .layerSet { output := 0, count := 0, entries := [{ layer := 0, buf := 2 ^ 32 }] },
     .layerSet { output := 0, count := 0, entries := [{ layer := 0, geom := { cropX := 2 ^ 16 } }] },
     .layerSet { output := 0, count := 0, entries := [{ layer := 0, geom := { cropY := 2 ^ 16 } }] },
     .layerSet { output := 0, count := 0, entries := [{ layer := 0, geom := { cropW := 2 ^ 16 } }] },
     .layerSet { output := 0, count := 0, entries := [{ layer := 0, geom := { cropH := 2 ^ 16 } }] },
     .layerSet { output := 0, count := 0, entries := [{ layer := 0, geom := { galpha := 2 ^ 16 } }] },
     .layerFlip { output := 2 ^ 16, layer := 0, buf := 0 }, .layerFlip { output := 0, layer := 2 ^ 8, buf := 0 },
     .layerFlip { output := 0, layer := 0, buf := 0, sel := 2 ^ 8 }, .layerFlip { output := 0, layer := 0, buf := 2 ^ 32 },
     .layerFlip { output := 0, layer := 0, buf := 0, slot := 2 ^ 16 },
     .layerFlip { output := 0, layer := 0, buf := 0, fence := 2 ^ 8 },
     .layerFlip { output := 0, layer := 0, buf := 0, fenceValue := 2 ^ 32 },
     .layerFlip { output := 0, layer := 0, buf := 0, frame := 2 ^ 64 },
     .layerFlip { output := 0, layer := 0, buf := 0, expire := 2 ^ 16 }, .layerQuery { res := {}, output := 2 ^ 16 },
     .layerQuery { res := { addr := 2 ^ 64 }, output := 0 }, .layerQuery { res := { bytes := 2 ^ 32 }, output := 0 },
     .compSet { output := 2 ^ 16, dl := 0 }, .compSet { output := 0, dl := 2 ^ 8 }, .fenceBind { fence := 2 ^ 8, point := 0 },
     .fenceBind { fence := 0, point := 2 ^ 16 }, .fenceSignal { fence := 2 ^ 8, value := 0 },
     .fenceSignal { fence := 0, value := 2 ^ 32 }, .fenceQuery { res := {}, fence := 2 ^ 8 },
     .fenceQuery { res := { addr := 2 ^ 64 }, fence := 0 }, .fenceQuery { res := { bytes := 2 ^ 32 }, fence := 0 },
     .groupSet { group := 2 ^ 8, members := [] }, .groupSet { group := 0, members := [(2 ^ 16, 0)] },
     .groupSet { group := 0, members := [(0, 2 ^ 8)] }, .staticSet { output := 2 ^ 16, run := 0, op := 0 },
     .staticSet { output := 0, run := 2 ^ 8, op := 0 }, .staticSet { output := 0, run := 0, op := 2 ^ 8 },
     .staticSet { output := 0, run := 0, op := 0, zlo := 2 ^ 8 }, .staticSet { output := 0, run := 0, op := 0, zhi := 2 ^ 8 },
     .staticSet { output := 0, run := 0, op := 0, bufA := 2 ^ 32 }, .staticSet { output := 0, run := 0, op := 0, bufB := 2 ^ 32 }] : List Params).any Params.wf) = false := by
  decide +kernel

theorem test_wf_audio : (([
     .audioRoute { count := 0, entries := [] }, .audioEmbed { output := 0, enable := false }, .asrcBind { group := 0, op := 0 },
     .aportSet { port := 0, enable := false }, .aportMask { port := 0, diMask := 0, doMask := 0 },
     .audioRingBind { handle := 0, kind := 0 }, .audioQuery { res := {}, side := 0, channels := [] }] : List Params).all Params.wf) = true ∧ (([
     .audioRoute { count := 2 ^ 16, entries := [] }, .audioRoute { count := 0, entries := [{ dst := 2 ^ 16, src := 0 }] },
     .audioRoute { count := 0, entries := [{ dst := 0, src := 2 ^ 16 }] }, .audioEmbed { output := 2 ^ 16, enable := false },
     .audioEmbed { output := 0, enable := false, rate := 2 ^ 8 }, .audioEmbed { output := 0, enable := false, blkLen := 2 ^ 8 },
     .audioEmbed { output := 0, enable := false, slots := 2 ^ 8 }, .audioEmbed { output := 0, enable := false, ring := 2 ^ 32 },
     .audioEmbed { output := 0, enable := false, gEmb := 2 ^ 32 }, .audioEmbed { output := 0, enable := false, lsTol := 2 ^ 32 },
     .asrcBind { group := 2 ^ 8, op := 0 }, .asrcBind { group := 0, op := 2 ^ 8 }, .asrcBind { group := 0, op := 0, target := 2 ^ 8 },
     .asrcBind { group := 0, op := 0, tport := 2 ^ 8 }, .asrcBind { group := 0, op := 0, outRate := 2 ^ 8 },
     .asrcBind { group := 0, op := 0, bw := 2 ^ 8 }, .asrcBind { group := 0, op := 0, first := 2 ^ 16 },
     .asrcBind { group := 0, op := 0, count := 2 ^ 8 }, .aportSet { port := 2 ^ 8, enable := false },
     .aportSet { port := 0, enable := false, role := 2 ^ 8 }, .aportSet { port := 0, enable := false, rate := 2 ^ 8 },
     .aportSet { port := 0, enable := false, slots := 2 ^ 8 }, .aportSet { port := 0, enable := false, width := 2 ^ 8 },
     .aportSet { port := 0, enable := false, offset := 2 ^ 8 }, .aportSet { port := 0, enable := false, fsWidth := 2 ^ 16 },
     .aportSet { port := 0, enable := false, portDelay := 2 ^ 32 }, .aportSet { port := 0, enable := false, diMask := 2 ^ 32 },
     .aportSet { port := 0, enable := false, doMask := 2 ^ 32 }, .aportMask { port := 2 ^ 8, diMask := 0, doMask := 0 },
     .aportMask { port := 0, diMask := 2 ^ 32, doMask := 0 }, .aportMask { port := 0, diMask := 0, doMask := 2 ^ 32 },
     .audioRingBind { handle := 2 ^ 32, kind := 0 }, .audioRingBind { handle := 0, kind := 2 ^ 8 },
     .audioRingBind { handle := 0, kind := 0, rate := 2 ^ 8 }, .audioRingBind { handle := 0, kind := 0, house := 2 ^ 8 },
     .audioRingBind { handle := 0, kind := 0, first := 2 ^ 16 }, .audioRingBind { handle := 0, kind := 0, count := 2 ^ 16 },
     .audioQuery { res := {}, side := 2 ^ 8, channels := [] }, .audioQuery { res := { addr := 2 ^ 64 }, side := 0, channels := [] },
     .audioQuery { res := { bytes := 2 ^ 32 }, side := 0, channels := [] }, .audioQuery { res := {}, side := 0, channels := [2 ^ 16] }] : List Params).any Params.wf) = false := by
  decide +kernel

theorem test_wf_clock : (([
     .refSet { port := 0, enable := false }, .synthSet { synth := 0 }, .bandTableSet { synth := 0, ceiling := 0, entries := [] },
     .clkoutSet { clkout := 0, synth := 0, enable := false }, .clkoutSync { synth := 0 }, .clockStatus { res := {} },
     .pairSet { role := 0 }, .pairResync {}, .pairTransfer {}, .pairStatus { res := {} }] : List Params).all Params.wf) = true ∧ (([
     .refSet { port := 2 ^ 8, enable := false }, .refSet { port := 0, enable := false, scale := 2 ^ 8 },
     .refSet { port := 0, enable := false, freqHz := 2 ^ 32 }, .synthSet { synth := 2 ^ 8 }, .synthSet { synth := 0, policy := 2 ^ 8 },
     .synthSet { synth := 0, bw := 2 ^ 16 }, .synthSet { synth := 0, slew := 2 ^ 16 }, .synthSet { synth := 0, lockN := 2 ^ 16 },
     .synthSet { synth := 0, lossM := 2 ^ 16 }, .synthSet { synth := 0, window := 2 ^ 16 }, .synthSet { synth := 0, spread := 2 ^ 8 },
     .synthSet { synth := 0, sscKhz := 2 ^ 8 }, .synthSet { synth := 0, phaseMode := 2 ^ 8 }, .synthSet { synth := 0, freq := 2 ^ 64 },
     .bandTableSet { synth := 2 ^ 8, ceiling := 0, entries := [] }, .bandTableSet { synth := 0, ceiling := 2 ^ 64, entries := [] },
     .bandTableSet { synth := 0, ceiling := 0, entries := [(2 ^ 64, 0)] },
     .bandTableSet { synth := 0, ceiling := 0, entries := [(0, 2 ^ 8)] }, .clkoutSet { clkout := 2 ^ 8, synth := 0, enable := false },
     .clkoutSet { clkout := 0, synth := 2 ^ 8, enable := false },
     .clkoutSet { clkout := 0, synth := 0, enable := false, divider := 2 ^ 32 },
     .clkoutSet { clkout := 0, synth := 0, enable := false, delay := 2 ^ 16 }, .clkoutSync { synth := 2 ^ 8 },
     .clockStatus { res := { addr := 2 ^ 64 } }, .clockStatus { res := { bytes := 2 ^ 32 } }, .pairSet { role := 2 ^ 8 },
     .pairStatus { res := { addr := 2 ^ 64 } }, .pairStatus { res := { bytes := 2 ^ 32 } }] : List Params).any Params.wf) = false := by
  decide +kernel

theorem test_wf_key : (([
     .keyWrite { slot := 0, usage := 0, parent := 0, key := 0 }, .keyDerive { slot := 0, parent := 0, usage := 0 },
     .keyInvalidate { slot := 0 }, .keyQuery { res := {} }, .queueAuth { queue := 0, slot := 0 },
     .laneCryptSet { point := 0, dir := 0, slot := 0 }, .attest { res := {}, slot := 0, nonce := 0 },
     .tamperSet { enables := 0, wake := 0 }, .tamperStatus { res := {} }] : List Params).all Params.wf) = true ∧ (([
     .keyWrite { slot := 2 ^ 8, usage := 0, parent := 0, key := 0 }, .keyWrite { slot := 0, usage := 2 ^ 8, parent := 0, key := 0 },
     .keyWrite { slot := 0, usage := 0, parent := 2 ^ 8, key := 0 }, .keyWrite { slot := 0, usage := 0, parent := 0, key := 2 ^ 256 },
     .keyDerive { slot := 2 ^ 8, parent := 0, usage := 0 }, .keyDerive { slot := 0, parent := 2 ^ 8, usage := 0 },
     .keyDerive { slot := 0, parent := 0, usage := 2 ^ 8 }, .keyInvalidate { slot := 2 ^ 8 }, .keyQuery { res := { addr := 2 ^ 64 } },
     .keyQuery { res := { bytes := 2 ^ 32 } }, .queueAuth { queue := 2 ^ 8, slot := 0 }, .queueAuth { queue := 0, slot := 2 ^ 8 },
     .laneCryptSet { point := 2 ^ 16, dir := 0, slot := 0 }, .laneCryptSet { point := 0, dir := 2 ^ 8, slot := 0 },
     .laneCryptSet { point := 0, dir := 0, slot := 2 ^ 8 }, .attest { res := {}, slot := 2 ^ 8, nonce := 0 },
     .attest { res := {}, slot := 0, nonce := 2 ^ 256 }, .attest { res := { addr := 2 ^ 64 }, slot := 0, nonce := 0 },
     .attest { res := { bytes := 2 ^ 32 }, slot := 0, nonce := 0 }, .tamperSet { enables := 2 ^ 8, wake := 0 },
     .tamperSet { enables := 0, wake := 2 ^ 8 }, .tamperStatus { res := { addr := 2 ^ 64 } },
     .tamperStatus { res := { bytes := 2 ^ 32 } }] : List Params).any Params.wf) = false := by
  decide +kernel

theorem test_wf_store : (([
     .nvRead { res := {}, addr := 0, bytes := 0 }, .nvWrite { addr := 0, data := [] }, .nvProtect { field := 0 },
     .nvCounter { res := {}, counter := 0, op := 0 }, .auditRead { res := {}, first := 0, count := 0 },
     .counterRead { res := {}, ids := [] }, .counterSnapshot { op := 0 },
     .monitorSet { monitor := 0, port := 0, raster := 0, lines := 0 }, .monitorRead { res := {}, first := 0, count := 0 },
     .eventRoute { first := 0, count := 0, targets := 0, cls := 0 }, .gpioSet { pin := 0, dir := 0, level := 0, owner := 0 },
     .gpioEdge { mask := 0, value := 0 }, .gpioRead { res := {} }, .cpbLoad { addr := 0, bytes := 0, image := [] },
     .cpbCtrl { op := 0 }, .unknown 0] : List Params).all Params.wf) = true ∧ (([
     .nvRead { res := {}, addr := 2 ^ 32, bytes := 0 }, .nvRead { res := {}, addr := 0, bytes := 2 ^ 32 },
     .nvRead { res := { addr := 2 ^ 64 }, addr := 0, bytes := 0 }, .nvRead { res := { bytes := 2 ^ 32 }, addr := 0, bytes := 0 },
     .nvWrite { addr := 2 ^ 32, data := [] }, .nvProtect { field := 2 ^ 8 }, .nvCounter { res := {}, counter := 2 ^ 8, op := 0 },
     .nvCounter { res := {}, counter := 0, op := 2 ^ 8 }, .nvCounter { res := { addr := 2 ^ 64 }, counter := 0, op := 0 },
     .nvCounter { res := { bytes := 2 ^ 32 }, counter := 0, op := 0 }, .auditRead { res := {}, first := 2 ^ 32, count := 0 },
     .auditRead { res := {}, first := 0, count := 2 ^ 16 }, .auditRead { res := { addr := 2 ^ 64 }, first := 0, count := 0 },
     .auditRead { res := { bytes := 2 ^ 32 }, first := 0, count := 0 }, .counterRead { res := { addr := 2 ^ 64 }, ids := [] },
     .counterRead { res := { bytes := 2 ^ 32 }, ids := [] }, .counterRead { res := {}, ids := [2 ^ 32] },
     .counterSnapshot { op := 2 ^ 8 }, .monitorSet { monitor := 2 ^ 16, port := 0, raster := 0, lines := 0 },
     .monitorSet { monitor := 0, port := 2 ^ 16, raster := 0, lines := 0 },
     .monitorSet { monitor := 0, port := 0, raster := 2 ^ 16, lines := 0 },
     .monitorSet { monitor := 0, port := 0, raster := 0, lines := 2 ^ 16 }, .monitorRead { res := {}, first := 2 ^ 16, count := 0 },
     .monitorRead { res := {}, first := 0, count := 2 ^ 16 }, .monitorRead { res := { addr := 2 ^ 64 }, first := 0, count := 0 },
     .monitorRead { res := { bytes := 2 ^ 32 }, first := 0, count := 0 },
     .eventRoute { first := 2 ^ 16, count := 0, targets := 0, cls := 0 },
     .eventRoute { first := 0, count := 2 ^ 16, targets := 0, cls := 0 },
     .eventRoute { first := 0, count := 0, targets := 2 ^ 8, cls := 0 },
     .eventRoute { first := 0, count := 0, targets := 0, cls := 2 ^ 8 }, .gpioSet { pin := 2 ^ 8, dir := 0, level := 0, owner := 0 },
     .gpioSet { pin := 0, dir := 2 ^ 8, level := 0, owner := 0 }, .gpioSet { pin := 0, dir := 0, level := 2 ^ 8, owner := 0 },
     .gpioSet { pin := 0, dir := 0, level := 0, owner := 2 ^ 8 }, .gpioEdge { mask := 2 ^ 16, value := 0 },
     .gpioEdge { mask := 0, value := 2 ^ 16 }, .gpioRead { res := { addr := 2 ^ 64 } }, .gpioRead { res := { bytes := 2 ^ 32 } },
     .cpbLoad { addr := 2 ^ 32, bytes := 0, image := [] }, .cpbLoad { addr := 0, bytes := 0, image := [], hostAddr := 2 ^ 64 },
     .cpbLoad { addr := 0, bytes := 2 ^ 32, image := [] }, .cpbCtrl { op := 2 ^ 8 }, .cpbCtrl { op := 0, entry := 2 ^ 32 },
     .unknown (2 ^ 16)] : List Params).any Params.wf) = false := by
  decide +kernel

theorem test_wf_header : Hdr.wf {} = true ∧ (([{ queue := 10 }, { version := 2 ^ 4 }, { seq := 2 ^ 32 }, { length := 2 ^ 16 }, { tag := 2 ^ 16 }, { line := 2 ^ 16 }, { frame := 2 ^ 32 }, { raster := 2 ^ 16 }, { indirect := some { addr := 2 ^ 64 } }, { indirect := some { bytes := 2 ^ 32 } }] : List Hdr).any Hdr.wf) = false ∧
    Packet.wf ⟨{}, .pairResync {}⟩ = true ∧ Packet.wf ⟨{ queue := 10 }, .pairResync {}⟩ = false ∧ Packet.wf ⟨{}, .unknown (2 ^ 16)⟩ = false := by
  decide +kernel

theorem test_wf_packet_rows : (([
     .sysIdentify 0 {} { res := {} }, .sysCaps 0 {} { res := {} }, .sysMode 0 {} { mode := 0 }, .barrier 0 {} {},
     .sysRestart 0 {} { kind := 0 }, .sysWakeSet 0 {} { enables := 0, timer := 0 }, .sysFaultRead 0 {} { res := {} },
     .rasterSet 0 {} { raster := 0, desc := {} }, .rasterQuery 0 {} { res := {}, raster := 0 }, .stcSet 0 {} { op := 0, value := 0 },
     .stcRead 0 {} { res := {} }, .schedCancel 0 {} { queue := 0, seq := 0 }, .bundleSet 0 {} { bundle := 0, dir := 0 },
     .bundleStatus 0 {} { res := {}, bundle := 0 }, .laneTrain 0 {} { bundle := 0 }, .bundleSleep 0 {} { bundle := 0, dir := 0 },
     .bundleWake 0 {} { bundle := 0, dir := 0 }, .loopbackSet 0 {} { port := 0, path := 0 },
     .prbsSet 0 {} { bundle := 0, dir := 0, laneMask := 0, pattern := 0 },
     .streamSet 0 {} { dir := 0, bundle := 0, lane := 0, g := 0 }, .routeTake 0 {} { count := 0, entries := [] },
     .routeQuery 0 {} { res := {}, dests := [] }, .lossSet 0 {} { output := 0, policy := 0 }, .presetStore 0 {} { preset := 0 },
     .presetRecall 0 {} { preset := 0 }, .presetColdstart 0 {} { preset := 0, enable := false },
     .bufCreate 0 {} { params := { typ := 0 }, res := {} }, .bufDestroy 0 {} { handle := 0 },
     .bufQuery 0 {} { res := {}, handle := 0 }, .bufXfer 0 {} { window := 0, offset := 0, bytes := 0 },
     .captureBind 0 {} { cw := 0, g := 0, handle := 0 }, .playoutBind 0 {} { pb := 0, g := 0, handle := 0 },
     .weirQuery 0 {} { res := {} }, .kernelBind 0 {} { engine := 0, kernel := 0, raster := 0, block := .other 0 },
     .kernelUpdate 0 {} { engine := 0, block := .other 0 }, .kernelUnbind 0 {} { engine := 0 },
     .engineReserve 0 {} { first := 0, count := 0 }, .engineMigrate 0 {} { engine := 0, target := 0 },
     .engineQuery 0 {} { res := {}, first := 0, count := 0 }, .layerSet 0 {} { output := 0, count := 0, entries := [] },
     .layerFlip 0 {} { output := 0, layer := 0, buf := 0 }, .layerQuery 0 {} { res := {}, output := 0 },
     .compSet 0 {} { output := 0, dl := 0 }, .fenceBind 0 {} { fence := 0, point := 0 }, .fenceSignal 0 {} { fence := 0, value := 0 },
     .fenceQuery 0 {} { res := {}, fence := 0 }, .groupSet 0 {} { group := 0, members := [] },
     .staticSet 0 {} { output := 0, run := 0, op := 0 }, .audioRoute 0 {} { count := 0, entries := [] },
     .audioEmbed 0 {} { output := 0, enable := false }, .asrcBind 0 {} { group := 0, op := 0 },
     .aportSet 0 {} { port := 0, enable := false }, .aportMask 0 {} { port := 0, diMask := 0, doMask := 0 },
     .audioRingBind 0 {} { handle := 0, kind := 0 }, .audioQuery 0 {} { res := {}, side := 0, channels := [] },
     .refSet 0 {} { port := 0, enable := false }, .synthSet 0 {} { synth := 0 },
     .bandTableSet 0 {} { synth := 0, ceiling := 0, entries := [] }, .clkoutSet 0 {} { clkout := 0, synth := 0, enable := false },
     .clkoutSync 0 {} { synth := 0 }, .clockStatus 0 {} { res := {} }, .pairSet 0 {} { role := 0 }, .pairResync 0 {} {},
     .pairTransfer 0 {} {}, .pairStatus 0 {} { res := {} }, .keyWrite 0 {} { slot := 0, usage := 0, parent := 0, key := 0 },
     .keyDerive 0 {} { slot := 0, parent := 0, usage := 0 }, .keyInvalidate 0 {} { slot := 0 }, .keyQuery 0 {} { res := {} },
     .queueAuth 0 {} { queue := 0, slot := 0 }, .laneCryptSet 0 {} { point := 0, dir := 0, slot := 0 },
     .attest 0 {} { res := {}, slot := 0, nonce := 0 }, .tamperSet 0 {} { enables := 0, wake := 0 }, .tamperStatus 0 {} { res := {} },
     .nvRead 0 {} { res := {}, addr := 0, bytes := 0 }, .nvWrite 0 {} { addr := 0, data := [] }, .nvProtect 0 {} { field := 0 },
     .nvCounter 0 {} { res := {}, counter := 0, op := 0 }, .auditRead 0 {} { res := {}, first := 0, count := 0 },
     .counterRead 0 {} { res := {}, ids := [] }, .counterSnapshot 0 {} { op := 0 },
     .monitorSet 0 {} { monitor := 0, port := 0, raster := 0, lines := 0 }, .monitorRead 0 {} { res := {}, first := 0, count := 0 },
     .eventRoute 0 {} { first := 0, count := 0, targets := 0, cls := 0 }, .gpioSet 0 {} { pin := 0, dir := 0, level := 0, owner := 0 },
     .gpioEdge 0 {} { mask := 0, value := 0 }, .gpioRead 0 {} { res := {} }, .cpbLoad 0 {} { addr := 0, bytes := 0, image := [] },
     .cpbCtrl 0 {} { op := 0 }] : List Instr).all Instr.wf) = true ∧ (([
     .sysIdentify 0 { queue := 10 } { res := {} }, .sysIdentify 0 {} { res := { addr := 2 ^ 64 } },
     .sysCaps 0 { queue := 10 } { res := {} }, .sysCaps 0 {} { res := { addr := 2 ^ 64 } }, .sysMode 0 { queue := 10 } { mode := 0 },
     .sysMode 0 {} { mode := 2 ^ 8 }, .barrier 0 { queue := 10 } {}, .barrier 0 {} { timeout := 2 ^ 32 },
     .sysRestart 0 { queue := 10 } { kind := 0 }, .sysRestart 0 {} { kind := 2 ^ 8 },
     .sysWakeSet 0 { queue := 10 } { enables := 0, timer := 0 }, .sysWakeSet 0 {} { enables := 2 ^ 8, timer := 0 },
     .sysFaultRead 0 { queue := 10 } { res := {} }, .sysFaultRead 0 {} { res := { addr := 2 ^ 64 } },
     .rasterSet 0 { queue := 10 } { raster := 0, desc := {} }, .rasterSet 0 {} { raster := 2 ^ 16, desc := {} },
     .rasterQuery 0 { queue := 10 } { res := {}, raster := 0 }, .rasterQuery 0 {} { res := {}, raster := 2 ^ 16 },
     .stcSet 0 { queue := 10 } { op := 0, value := 0 }, .stcSet 0 {} { op := 2 ^ 8, value := 0 },
     .stcRead 0 { queue := 10 } { res := {} }, .stcRead 0 {} { res := { addr := 2 ^ 64 } },
     .schedCancel 0 { queue := 10 } { queue := 0, seq := 0 }, .schedCancel 0 {} { queue := 2 ^ 8, seq := 0 },
     .bundleSet 0 { queue := 10 } { bundle := 0, dir := 0 }, .bundleSet 0 {} { bundle := 2 ^ 8, dir := 0 },
     .bundleStatus 0 { queue := 10 } { res := {}, bundle := 0 }, .bundleStatus 0 {} { res := {}, bundle := 2 ^ 8 },
     .laneTrain 0 { queue := 10 } { bundle := 0 }, .laneTrain 0 {} { bundle := 2 ^ 8 },
     .bundleSleep 0 { queue := 10 } { bundle := 0, dir := 0 }, .bundleSleep 0 {} { bundle := 2 ^ 8, dir := 0 },
     .bundleWake 0 { queue := 10 } { bundle := 0, dir := 0 }, .bundleWake 0 {} { bundle := 2 ^ 8, dir := 0 },
     .loopbackSet 0 { queue := 10 } { port := 0, path := 0 }, .loopbackSet 0 {} { port := 2 ^ 8, path := 0 },
     .prbsSet 0 { queue := 10 } { bundle := 0, dir := 0, laneMask := 0, pattern := 0 },
     .prbsSet 0 {} { bundle := 2 ^ 8, dir := 0, laneMask := 0, pattern := 0 },
     .streamSet 0 { queue := 10 } { dir := 0, bundle := 0, lane := 0, g := 0 },
     .streamSet 0 {} { dir := 2 ^ 8, bundle := 0, lane := 0, g := 0 }, .routeTake 0 { queue := 10 } { count := 0, entries := [] },
     .routeTake 0 {} { count := 2 ^ 16, entries := [] }, .routeQuery 0 { queue := 10 } { res := {}, dests := [] },
     .routeQuery 0 {} { res := { addr := 2 ^ 64 }, dests := [] }, .lossSet 0 { queue := 10 } { output := 0, policy := 0 },
     .lossSet 0 {} { output := 2 ^ 16, policy := 0 }, .presetStore 0 { queue := 10 } { preset := 0 },
     .presetStore 0 {} { preset := 2 ^ 8 }, .presetRecall 0 { queue := 10 } { preset := 0 }, .presetRecall 0 {} { preset := 2 ^ 8 },
     .presetColdstart 0 { queue := 10 } { preset := 0, enable := false }, .presetColdstart 0 {} { preset := 2 ^ 8, enable := false },
     .bufCreate 0 { queue := 10 } { params := { typ := 0 }, res := {} },
     .bufCreate 0 {} { params := { typ := 0 }, res := { addr := 2 ^ 64 } }, .bufDestroy 0 { queue := 10 } { handle := 0 },
     .bufDestroy 0 {} { handle := 2 ^ 32 }, .bufQuery 0 { queue := 10 } { res := {}, handle := 0 },
     .bufQuery 0 {} { res := {}, handle := 2 ^ 32 }, .bufXfer 0 { queue := 10 } { window := 0, offset := 0, bytes := 0 },
     .bufXfer 0 {} { window := 2 ^ 32, offset := 0, bytes := 0 }, .captureBind 0 { queue := 10 } { cw := 0, g := 0, handle := 0 },
     .captureBind 0 {} { cw := 2 ^ 16, g := 0, handle := 0 }, .playoutBind 0 { queue := 10 } { pb := 0, g := 0, handle := 0 },
     .playoutBind 0 {} { pb := 2 ^ 16, g := 0, handle := 0 }, .weirQuery 0 { queue := 10 } { res := {} },
     .weirQuery 0 {} { res := { addr := 2 ^ 64 } },
     .kernelBind 0 { queue := 10 } { engine := 0, kernel := 0, raster := 0, block := .other 0 },
     .kernelBind 0 {} { engine := 2 ^ 16, kernel := 0, raster := 0, block := .other 0 },
     .kernelUpdate 0 { queue := 10 } { engine := 0, block := .other 0 }, .kernelUpdate 0 {} { engine := 2 ^ 16, block := .other 0 },
     .kernelUnbind 0 { queue := 10 } { engine := 0 }, .kernelUnbind 0 {} { engine := 2 ^ 16 },
     .engineReserve 0 { queue := 10 } { first := 0, count := 0 }, .engineReserve 0 {} { first := 2 ^ 16, count := 0 },
     .engineMigrate 0 { queue := 10 } { engine := 0, target := 0 }, .engineMigrate 0 {} { engine := 2 ^ 16, target := 0 },
     .engineQuery 0 { queue := 10 } { res := {}, first := 0, count := 0 },
     .engineQuery 0 {} { res := {}, first := 2 ^ 16, count := 0 },
     .layerSet 0 { queue := 10 } { output := 0, count := 0, entries := [] },
     .layerSet 0 {} { output := 2 ^ 16, count := 0, entries := [] },
     .layerFlip 0 { queue := 10 } { output := 0, layer := 0, buf := 0 }, .layerFlip 0 {} { output := 2 ^ 16, layer := 0, buf := 0 },
     .layerQuery 0 { queue := 10 } { res := {}, output := 0 }, .layerQuery 0 {} { res := {}, output := 2 ^ 16 },
     .compSet 0 { queue := 10 } { output := 0, dl := 0 }, .compSet 0 {} { output := 2 ^ 16, dl := 0 },
     .fenceBind 0 { queue := 10 } { fence := 0, point := 0 }, .fenceBind 0 {} { fence := 2 ^ 8, point := 0 },
     .fenceSignal 0 { queue := 10 } { fence := 0, value := 0 }, .fenceSignal 0 {} { fence := 2 ^ 8, value := 0 },
     .fenceQuery 0 { queue := 10 } { res := {}, fence := 0 }, .fenceQuery 0 {} { res := {}, fence := 2 ^ 8 },
     .groupSet 0 { queue := 10 } { group := 0, members := [] }, .groupSet 0 {} { group := 2 ^ 8, members := [] },
     .staticSet 0 { queue := 10 } { output := 0, run := 0, op := 0 }, .staticSet 0 {} { output := 2 ^ 16, run := 0, op := 0 },
     .audioRoute 0 { queue := 10 } { count := 0, entries := [] }, .audioRoute 0 {} { count := 2 ^ 16, entries := [] },
     .audioEmbed 0 { queue := 10 } { output := 0, enable := false }, .audioEmbed 0 {} { output := 2 ^ 16, enable := false },
     .asrcBind 0 { queue := 10 } { group := 0, op := 0 }, .asrcBind 0 {} { group := 2 ^ 8, op := 0 },
     .aportSet 0 { queue := 10 } { port := 0, enable := false }, .aportSet 0 {} { port := 2 ^ 8, enable := false },
     .aportMask 0 { queue := 10 } { port := 0, diMask := 0, doMask := 0 }, .aportMask 0 {} { port := 2 ^ 8, diMask := 0, doMask := 0 },
     .audioRingBind 0 { queue := 10 } { handle := 0, kind := 0 }, .audioRingBind 0 {} { handle := 2 ^ 32, kind := 0 },
     .audioQuery 0 { queue := 10 } { res := {}, side := 0, channels := [] },
     .audioQuery 0 {} { res := {}, side := 2 ^ 8, channels := [] }, .refSet 0 { queue := 10 } { port := 0, enable := false },
     .refSet 0 {} { port := 2 ^ 8, enable := false }, .synthSet 0 { queue := 10 } { synth := 0 }, .synthSet 0 {} { synth := 2 ^ 8 },
     .bandTableSet 0 { queue := 10 } { synth := 0, ceiling := 0, entries := [] },
     .bandTableSet 0 {} { synth := 2 ^ 8, ceiling := 0, entries := [] },
     .clkoutSet 0 { queue := 10 } { clkout := 0, synth := 0, enable := false },
     .clkoutSet 0 {} { clkout := 2 ^ 8, synth := 0, enable := false }, .clkoutSync 0 { queue := 10 } { synth := 0 },
     .clkoutSync 0 {} { synth := 2 ^ 8 }, .clockStatus 0 { queue := 10 } { res := {} },
     .clockStatus 0 {} { res := { addr := 2 ^ 64 } }, .pairSet 0 { queue := 10 } { role := 0 }, .pairSet 0 {} { role := 2 ^ 8 },
     .pairResync 0 { queue := 10 } {}, .pairTransfer 0 { queue := 10 } {}, .pairStatus 0 { queue := 10 } { res := {} },
     .pairStatus 0 {} { res := { addr := 2 ^ 64 } }, .keyWrite 0 { queue := 10 } { slot := 0, usage := 0, parent := 0, key := 0 },
     .keyWrite 0 {} { slot := 2 ^ 8, usage := 0, parent := 0, key := 0 },
     .keyDerive 0 { queue := 10 } { slot := 0, parent := 0, usage := 0 }, .keyDerive 0 {} { slot := 2 ^ 8, parent := 0, usage := 0 },
     .keyInvalidate 0 { queue := 10 } { slot := 0 }, .keyInvalidate 0 {} { slot := 2 ^ 8 }, .keyQuery 0 { queue := 10 } { res := {} },
     .keyQuery 0 {} { res := { addr := 2 ^ 64 } }, .queueAuth 0 { queue := 10 } { queue := 0, slot := 0 },
     .queueAuth 0 {} { queue := 2 ^ 8, slot := 0 }, .laneCryptSet 0 { queue := 10 } { point := 0, dir := 0, slot := 0 },
     .laneCryptSet 0 {} { point := 2 ^ 16, dir := 0, slot := 0 }, .attest 0 { queue := 10 } { res := {}, slot := 0, nonce := 0 },
     .attest 0 {} { res := {}, slot := 2 ^ 8, nonce := 0 }, .tamperSet 0 { queue := 10 } { enables := 0, wake := 0 },
     .tamperSet 0 {} { enables := 2 ^ 8, wake := 0 }, .tamperStatus 0 { queue := 10 } { res := {} },
     .tamperStatus 0 {} { res := { addr := 2 ^ 64 } }, .nvRead 0 { queue := 10 } { res := {}, addr := 0, bytes := 0 },
     .nvRead 0 {} { res := {}, addr := 2 ^ 32, bytes := 0 }, .nvWrite 0 { queue := 10 } { addr := 0, data := [] },
     .nvWrite 0 {} { addr := 2 ^ 32, data := [] }, .nvProtect 0 { queue := 10 } { field := 0 }, .nvProtect 0 {} { field := 2 ^ 8 },
     .nvCounter 0 { queue := 10 } { res := {}, counter := 0, op := 0 }, .nvCounter 0 {} { res := {}, counter := 2 ^ 8, op := 0 },
     .auditRead 0 { queue := 10 } { res := {}, first := 0, count := 0 }, .auditRead 0 {} { res := {}, first := 2 ^ 32, count := 0 },
     .counterRead 0 { queue := 10 } { res := {}, ids := [] }, .counterRead 0 {} { res := { addr := 2 ^ 64 }, ids := [] },
     .counterSnapshot 0 { queue := 10 } { op := 0 }, .counterSnapshot 0 {} { op := 2 ^ 8 },
     .monitorSet 0 { queue := 10 } { monitor := 0, port := 0, raster := 0, lines := 0 },
     .monitorSet 0 {} { monitor := 2 ^ 16, port := 0, raster := 0, lines := 0 },
     .monitorRead 0 { queue := 10 } { res := {}, first := 0, count := 0 },
     .monitorRead 0 {} { res := {}, first := 2 ^ 16, count := 0 },
     .eventRoute 0 { queue := 10 } { first := 0, count := 0, targets := 0, cls := 0 },
     .eventRoute 0 {} { first := 2 ^ 16, count := 0, targets := 0, cls := 0 },
     .gpioSet 0 { queue := 10 } { pin := 0, dir := 0, level := 0, owner := 0 },
     .gpioSet 0 {} { pin := 2 ^ 8, dir := 0, level := 0, owner := 0 }, .gpioEdge 0 { queue := 10 } { mask := 0, value := 0 },
     .gpioEdge 0 {} { mask := 2 ^ 16, value := 0 }, .gpioRead 0 { queue := 10 } { res := {} },
     .gpioRead 0 {} { res := { addr := 2 ^ 64 } }, .cpbLoad 0 { queue := 10 } { addr := 0, bytes := 0, image := [] },
     .cpbLoad 0 {} { addr := 2 ^ 32, bytes := 0, image := [] }, .cpbCtrl 0 { queue := 10 } { op := 0 }, .cpbCtrl 0 {} { op := 2 ^ 8 }] : List Instr).any Instr.wf) = false := by
  decide +kernel

theorem test_wf_event_rows : (([
     .sqTail 0 0 0 [], .cqHead 0 0 0, .queueEnable 0 0 false 0, .queueDisable 0 0 false 0, .queueResume 0 0, .claim 0 0 0,
     .complete 0 0 0, .cntSel 0 false 0, .cntValOvfClear 0 false, .stcLowRead 0, .q8SqTail 0 0 [], .q8RrHead 0 0, .swiSet 0 0,
     .timecmp 0 0, .timerDisarm 0, .timerFiredClear 0, .gpioOut 0 0, .cpbAccessFault 0 0 8 false, .registerWrite 0 false 0 8 0,
     .writePacket 0 ⟨{}, .pairResync {}⟩ 0 false, .readReply 0 0, .readStatus 0, .queueFetch 0 0, .barrierRelease 0 0,
     .barrierTimeout 0 0, .rasterLineStart 0 0, .outputFrameStart 0 0, .flattenComplete 0 0 0, .sluiceDecisionLine 0 0,
     .engineFrameStart 0 0, .knownAnswerResult 0 0 false, .kernelLoadVerified 0 0 false, .motionEstimateDone 0 0,
     .superframeReceive 0 0 0 {}, .superframeCrcResult 0 0, .groupSuperframeBoundary 0 0 0, .streamPresent 0 0, .laneEnterSeed 0 0 0,
     .laneEnterLocked 0 0 0, .laneLossOfLock 0 0 0, .misconnectionEvent 0 0 0, .dllLock 0 0, .forwardedClockLost 0 0,
     .txSuperframe 0 0, .directionSleepComplete 0 0 0, .directionWakeComplete 0 0 0,
     .prbsWindowCheck 0 0 0 (List.replicate 1024 false), .trainingRoundStart 0 0, .trainingPhaseTimeout 0 0, .rxAdaptEnd 0 0 [],
     .bcAckReceived 0 0 0 0, .firDwellEnd 0 0 0, .bcRequestUnanswered 0 0 0, .verifyEnd 0 0, .roundRetryWaitExpire 0 0,
     .bcRequestReceived 0 0 0 0, .bcDoneReceived 0 0 0, .sleepRequestReceived 0 0 0 0, .refFrameSyncPulse 0 0 0,
     .refLineSyncPulse 0 0 0, .refAbsent 0 0, .refPresent 0 0, .frameSyncMissing 0 0, .synthLock 0 0, .synthLossOfLock 0 0,
     .bandMiss 0 0, .bandSearchDone 0 0 0 0, .syncInEdge 0, .fabricSynthLoss 0, .laneSynthLoss 0 0, .cpbTimerCompare 0,
     .inputRasterStale 0 0, .destinationBlockService 0 0, .underrunHoldExpire 0 0, .embedBlockSend 0 0, .tdmFsEdge 0 0 { bits := 0 },
     .tdmFsTimeout 0 0, .domainLock 0 0 0, .domainSampleTimeout 0 0, .asrcLock 0 0, .asrcSourceTimeout 0 0, .nonaudioRevert 0 0,
     .msgHello 0 {} { role := 0, authority := false, fw := 0, lib := 0, frameA := 0, frameB := 0, stcOffset := 0 }, .linkUp 0,
     .msgCmd 0 {} { rix := 0, raster := 0, frame := 0, line := 0, packet := ⟨{}, .pairResync {}⟩ }, .msgVerdict 0 {} 0 0,
     .commitPoint 0 0, .msgCommit 0 {} 0 false, .msgClass 0 {} 0 0 0 0, .msgDecide 0 {} 0 0 0, .msgLeat 0 {} ((.nonAudio 0 false)),
     .msgSig 0 {} [] [], .msgReport 0 {} 0 0 0, .msgState 0 {} 0 false 0 0 [], .msgXfer 0 {} 0 0 [], .msgFail 0 {} 0,
     .msgHandover 0 {} 0 0 0 0, .decisionDeadlineMiss 0, .granuleSignature 0 { stream := 0, frame := 0, pos := 0, sig := 0 },
     .signatureUnmatched 0 { stream := 0, frame := 0, pos := 0, sig := 0 }, .attributionWindowEnd 0 0, .resyncLockstep 0,
     .resyncTimeout 0, .transferComplete 0, .faultNAssert 0, .scrubGranule 0 0 0, .lockstepMismatch 0 0, .controlRestartEnd 0,
     .normalInterruptRecognise 0 0, .fastInterruptRecognise 0 0, .entryCommit 0 0, .mret 0 0, .exitCommit 0 0,
     .gpioInputEdge 0 0 false, .resetNAssert 0 0, .resetNDeassert 0, .nvRecallComplete 0, .bootVerifyEnd 0 false, .firmwareReady 0,
     .selfTestEnd 0, .startupComplete 0, .coldstartRecall 0, .pciePerstN 0 false, .railFault 0 0, .nvPowerFail 0 0, .nvWriteDone 0,
     .refreshPassStart 0, .refreshWord 0 [] false, .auditAppend 0, .tamperAlarm 0 0, .tamperCountStore 0, .thermalSample 0 0,
     .wakeNLow 0, .wakeTimer 0, .quietEntryEnd 0, .wakeEnd 0, .monitorWindowClose 0 0 0, .xferComplete 0 0, .cpbLoadChecked 0,
     .exactCommaFound 0 0 0, .eccUncorrectableError 0 0 0 0 0 false, .datapathLockstepMismatch 0 0, .endToEndCrcMismatch 0 0,
     .pfwNDeassert 0, .tamperSourceInactive 0 0, .vaonPowerUp 0, .keyOperationEnd 0 0] : List Instr).all Instr.wf) = true ∧ (([
     .sqTail 0 8 0 [], .sqTail 0 0 (2 ^ 32) [], .sqTail 0 0 0 [⟨{ queue := 10 }, .pairResync {}⟩], .cqHead 0 8 0, .cqHead 0 0 (2 ^ 32),
     .queueEnable 0 9 false 0, .queueEnable 0 0 false 64, .queueDisable 0 9 false 0, .queueDisable 0 0 false 64, .queueResume 0 9,
     .claim 0 3 0, .claim 0 0 1024, .complete 0 3 0, .complete 0 0 1024, .cntSel 0 false (2 ^ 24), .q8SqTail 0 (2 ^ 32) [],
     .q8SqTail 0 0 [⟨{ queue := 10 }, .pairResync {}⟩], .q8RrHead 0 (2 ^ 32), .swiSet 0 1024, .timecmp 0 (2 ^ 64), .gpioOut 0 (2 ^ 32),
     .cpbAccessFault 0 0 3 false, .registerWrite 0 false 0 8 (2 ^ 64), .registerWrite 0 false 0 3 0,
     .writePacket 0 ⟨{ queue := 10 }, .pairResync {}⟩ 0 false, .queueFetch 0 10, .barrierRelease 0 10, .barrierTimeout 0 10,
     .rasterLineStart 0 514, .outputFrameStart 0 512, .flattenComplete 0 512 0, .flattenComplete 0 0 2, .sluiceDecisionLine 0 512,
     .engineFrameStart 0 192, .knownAnswerResult 0 192 false, .kernelLoadVerified 0 192 false, .motionEstimateDone 0 192,
     .superframeReceive 0 65 0 {}, .superframeReceive 0 0 8 {}, .superframeCrcResult 0 512, .groupSuperframeBoundary 0 512 0,
     .streamPresent 0 512, .laneEnterSeed 0 65 0, .laneEnterSeed 0 0 8, .laneEnterLocked 0 65 0, .laneEnterLocked 0 0 8,
     .laneLossOfLock 0 65 0, .laneLossOfLock 0 0 8, .misconnectionEvent 0 65 0, .misconnectionEvent 0 0 8, .dllLock 0 65,
     .forwardedClockLost 0 65, .txSuperframe 0 65, .directionSleepComplete 0 65 0, .directionSleepComplete 0 0 2,
     .directionWakeComplete 0 65 0, .directionWakeComplete 0 0 2, .prbsWindowCheck 0 65 0 (List.replicate 1024 false),
     .prbsWindowCheck 0 0 8 (List.replicate 1024 false), .prbsWindowCheck 0 0 0 (List.replicate 1023 false), .trainingRoundStart 0 65,
     .trainingPhaseTimeout 0 65, .rxAdaptEnd 0 65 [], .bcAckReceived 0 65 0 0, .bcAckReceived 0 0 8 0, .bcAckReceived 0 0 0 65536,
     .firDwellEnd 0 65 0, .firDwellEnd 0 0 8, .bcRequestUnanswered 0 65 0, .bcRequestUnanswered 0 0 8, .verifyEnd 0 65,
     .roundRetryWaitExpire 0 65, .bcRequestReceived 0 65 0 0, .bcRequestReceived 0 0 8 0, .bcRequestReceived 0 0 0 65536,
     .bcDoneReceived 0 65 0, .bcDoneReceived 0 0 8, .sleepRequestReceived 0 65 0 0, .sleepRequestReceived 0 0 8 0,
     .sleepRequestReceived 0 0 0 65536, .refFrameSyncPulse 0 2 0, .refLineSyncPulse 0 2 0, .refAbsent 0 2, .refPresent 0 2,
     .frameSyncMissing 0 2, .synthLock 0 36, .synthLossOfLock 0 36, .bandMiss 0 36, .bandSearchDone 0 36 0 0, .bandSearchDone 0 0 64 0,
     .laneSynthLoss 0 36, .inputRasterStale 0 512, .destinationBlockService 0 18432, .underrunHoldExpire 0 18432,
     .embedBlockSend 0 512, .tdmFsEdge 0 32 { bits := 0 }, .tdmFsTimeout 0 32, .domainLock 0 4128 0, .domainLock 0 0 2,
     .domainSampleTimeout 0 4128, .asrcLock 0 256, .asrcSourceTimeout 0 256, .nonaudioRevert 0 9216,
     .msgCmd 0 {} { rix := 0, raster := 0, frame := 0, line := 0, packet := ⟨{ queue := 10 }, .pairResync {}⟩ },
     .msgClass 0 {} 896 0 0 0, .msgClass 0 {} 0 (2 ^ 48) 0 0, .msgDecide 0 {} 512 0 0, .msgDecide 0 {} 0 (2 ^ 48) 0,
     .msgLeat 0 {} (.block 18432 0 false), .msgLeat 0 {} (.domain 4128 false false 0 0), .msgLeat 0 {} (.asrc 256 0 0 0 0),
     .msgLeat 0 {} (.asrc 0 0 3 0 0), .msgLeat 0 {} (.nonAudio 9216 false), .msgLeat 0 {} (.delay 512 0),
     .msgState 0 {} 0 false 0 0 [{ rix := 0, raster := 0, frame := 0, line := 0, packet := ⟨{ queue := 10 }, .pairResync {}⟩ }],
     .msgFail 0 {} 11, .msgHandover 0 {} 0 514 0 0, .msgHandover 0 {} 0 0 (2 ^ 48) 0, .attributionWindowEnd 0 512,
     .scrubGranule 0 (2^28) 0, .lockstepMismatch 0 2, .normalInterruptRecognise 0 2, .fastInterruptRecognise 0 2, .entryCommit 0 2,
     .mret 0 2, .exitCommit 0 2, .gpioInputEdge 0 16 false, .railFault 0 32, .tamperAlarm 0 16, .monitorWindowClose 0 2048 0,
     .exactCommaFound 0 65 0, .exactCommaFound 0 0 8, .eccUncorrectableError 0 16 0 0 0 false, .tamperSourceInactive 0 16] : List Instr).any Instr.wf) = false := by
  decide +kernel

/-! ### Witnesses: packets: system (table 13.2, table 12.15) -/

theorem test_meets_SystemReadsAnswer :
    (∃ (s : State) (t : Tick) (h : Hdr), ∃ p, Immediate s t h (.sysIdentify p) ∧
      ((fun _ => True) : State → Prop) (fetched s t h (.sysIdentify p)) ∧
      ((fun w =>
    leBytes 2 0x1D8B ++ leBytes 2 0x0512 ++ [0x42, 0x31] ++ leBytes 1 (b2n Config.grade) ++ leBytes 1 w.pair.role.code ++
    leBytes 1 w.sys.mode.code ++ leBytes 3 0 ++ leBytes 4 (Config.fwVersion w.sys.image) ++ leBytes 4 Config.romVersion ++
    leBytes 4 (Config.libVersion w.sys.image) ++ (List.range 16).map Config.uid ++ (List.range 48).map (Config.fwDigest w.sys.image) ++ leBytes 8 0 : State → List Byte) (fetched s t h (.sysIdentify p))).length ≤ p.res.bytes) ∧
    (∃ (s : State) (t : Tick) (h : Hdr), ∃ p, Immediate s t h (.sysCaps p) ∧
      ((fun _ => True) : State → Prop) (fetched s t h (.sysCaps p)) ∧
      ((fun _ =>
    [512, 512, 192, 512, 4096, 256, 128, 16, 256, 32, 32, 16384, 64, 3150, 16384, 0].flatMap (leBytes 2) : State → List Byte) (fetched s t h (.sysCaps p))).length ≤ p.res.bytes) ∧
    (∃ (s : State) (t : Tick) (h : Hdr), ∃ p, Immediate s t h (.sysFaultRead p) ∧
      ((fun w => p.rsvd = 0 ∧ (p.clear = true → w.sys.mode ≠ .failed)) : State → Prop) (fetched s t h (.sysFaultRead p)) ∧
      ((fun w => match w.sys.fault with
      | some r => leBytes 1 1 ++ leBytes 1 r.source ++ leBytes 2 r.unit ++ leBytes 1 r.modeBefore.code ++
          leBytes 1 w.sys.replaced ++ leBytes 2 0 ++ leBytes 8 r.addr ++ leBytes 8 r.stc ++ leBytes 8 r.position ++ leBytes 16 0
      | none => leBytes 48 0 : State → List Byte) (fetched s t h (.sysFaultRead p))).length ≤ p.res.bytes) :=
  ⟨⟨ready, 0, onQueue 9 (.sysIdentify { res := room }), { res := room }, by decide +kernel⟩,
   ⟨ready, 0, onQueue 9 (.sysCaps { res := room }), { res := room }, by decide +kernel⟩,
   ⟨ready, 0, onQueue 9 (.sysFaultRead { res := room, clear := true }), { res := room, clear := true }, by decide +kernel⟩⟩

theorem test_meets_ModeCommandTakesEffect :
    (∃ (s : State) (t : Tick) (h : Hdr) (p : SysModeP), p.mode < 6 ∧
      p.rsvd = 0 ∧
      Immediate s t h (.sysMode p) ∧
      ((fun w => w.sys.mode ≠ .quiet ∧ w.sys.quiet = .awake ∧ transitionOk w.sys.mode (modeOf p.mode) = true ∧ modeOf p.mode ≠ .quiet ∧
      (modeOf p.mode = .service → w.sys.coldRecall = false ∧ w.stepPolicy = false)) : State → Prop) (fetched s t h (.sysMode p))) ∧
    (∃ (s : State) (t : Tick) (h : Hdr) (p : SysModeP), p.mode < 6 ∧
      p.rsvd = 0 ∧
      Immediate s t h (.sysMode p) ∧
      ((fun w => (w.sys.mode = .bringup ∨ w.sys.mode = .service) ∧ w.sys.quiet = .awake ∧ modeOf p.mode = .quiet ∧
      w.pair.role = .solo ∧ Nat.land (w.latches none) w.sys.wakeEnables = 0) : State → Prop) (fetched s t h (.sysMode p))) ∧
    (∃ (s : State) (t : Tick) (h : Hdr) (p : SysModeP), p.mode < 6 ∧
      p.rsvd = 0 ∧
      Immediate s t h (.sysMode p) ∧
      ((fun w => w.sys.mode = .quiet ∧ bit w.sys.wakeEnables 1 = true ∧ modeOf p.mode = w.sys.modeBefore) : State → Prop) (fetched s t h (.sysMode p))) :=
  ⟨⟨ready, 0, onQueue 9 (.sysMode { mode := 1 }), { mode := 1 }, by decide +kernel⟩,
   ⟨{ ready with sys := { ready.sys with wakeEnables := 0 } }, 0, onQueue 9 (.sysMode { mode := 4 }), { mode := 4 }, by refine ⟨by decide +kernel, by decide +kernel, by decide +kernel, by decide +kernel, by decide +kernel, by decide +kernel, by decide +kernel, Nat.and_zero _⟩⟩,
   ⟨{ inMode .quiet with sys := { (inMode .quiet).sys with modeBefore := .service } }, 0, onQueue 9 (.sysMode { mode := 1 }), { mode := 1 }, by decide +kernel⟩⟩

theorem test_meets_RestartAndWakeSet :
    (∃ (s : State) (t : Tick) (h : Hdr), ∃ p, Immediate s t h (.sysRestart p) ∧
      ((fun w => p.kind = 0 ∧ p.rsvd = 0 ∧ w.sys.mode ≠ .failed ∧ ¬(w.pair.role = .lead ∧ w.pair.sync = .lockstep)) : State → Prop) (fetched s t h (.sysRestart p))) ∧
    (∃ (s : State) (t : Tick) (h : Hdr), ∃ p, Immediate s t h (.sysRestart p) ∧
      ((fun w => p.kind = 0 ∧ p.rsvd = 0 ∧ w.sys.mode ≠ .failed ∧ w.pair.role = .lead ∧ w.pair.sync = .lockstep) : State → Prop) (fetched s t h (.sysRestart p))) ∧
    (∃ (s : State) (t : Tick) (h : Hdr), ∃ (p : SysRestartP), Immediate s t h (.sysRestart p) ∧
      p.kind = 1 ∧
      p.rsvd = 0) ∧
    (∃ (s : State) (t : Tick) (h : Hdr), ∃ p, Immediate s t h (.sysWakeSet p) ∧
      ((fun _ => p.enables < 32 ∧ p.rsvd = 0) : State → Prop) (fetched s t h (.sysWakeSet p))) :=
  ⟨⟨ready, 0, onQueue 9 (.sysRestart { kind := 0 }), { kind := 0 }, by decide +kernel⟩,
   ⟨ready.setPair { role := .lead, sync := .lockstep }, 0, onQueue 9 (.sysRestart { kind := 0 }), { kind := 0 }, by decide +kernel⟩,
   ⟨ready, 0, onQueue 9 (.sysRestart { kind := 1 }), { kind := 1 }, by decide +kernel⟩,
   ⟨ready, 0, onQueue 9 (.sysWakeSet { enables := 31, timer := 0 }), { enables := 31, timer := 0 }, by decide +kernel⟩⟩

theorem test_meets_BarrierCompletesOrWaits :
    (∃ (s : State) (t : Tick) (h : Hdr) (p : BarrierP), p.rsvd = 0 ∧
      p.waits.length ≤ 10 ∧
      p.timeout ≤ 60000 ∧
      p.fence < 256 ∧
      (∀ x ∈ p.waits, x.queue < 10 ∧ x.queue ≠ h.queue) ∧
      Immediate s t h (.barrier p) ∧
      ((fun w => (∀ x ∈ p.waits, reaches (w.queue x.queue).lastSeq (BitVec.ofNat 32 x.seq) = true ∧
        (p.applied = true → ∀ j ∈ w.jobs, j.queue = x.queue → j.sched = true → j.kind = .apply →
          reaches (BitVec.ofNat 32 x.seq) (BitVec.ofNat 32 j.seq) = false)) ∧
      (p.fenceWait = true → reaches (w.fence p.fence).value (BitVec.ofNat 32 p.fenceValue) = true)) : State → Prop) (fetched s t h (.barrier p))) ∧
    (∃ (s : State) (t : Tick) (h : Hdr) (p : BarrierP), p.rsvd = 0 ∧
      p.waits.length ≤ 10 ∧
      p.timeout ≤ 60000 ∧
      p.fence < 256 ∧
      (∀ x ∈ p.waits, x.queue < 10 ∧ x.queue ≠ h.queue) ∧
      Immediate s t h (.barrier p) ∧
      ((fun w => w.barrierMet p = false) : State → Prop) (fetched s t h (.barrier p))) :=
  ⟨⟨ready, 0, onQueue 9 (.barrier { waits := [⟨0, 0⟩] }), { waits := [⟨0, 0⟩] }, by decide +kernel⟩,
   ⟨ready, 0, onQueue 9 (.barrier { waits := [⟨8, 1⟩] }), { waits := [⟨8, 1⟩] }, by decide +kernel⟩⟩

/-! ### Witnesses: packets: rasters and time (table 13.3) -/

theorem test_meets_RasterAndStcSetsWait :
    (∃ (s : State) (t : Tick) (h : Hdr), ∃ p, Immediate s t h (.rasterSet p) ∧
      ((fun w => p.raster < 2 ∧ p.rsvd = 0 ∧ (w.sys.mode = .bringup ∨ w.sys.mode = .test) ∧ descOk p.desc true = true ∧
      (∀ e ∈ w.outputsOn p.raster, ratioOk e.2.desc p.desc = true) ∧
      ((fget {} w.clocks.refs p.raster : Ref).enable = true →
        wholeCycles (fget {} w.clocks.refs p.raster : Ref).freqHz p.desc = true)) : State → Prop) (fetched s t h (.rasterSet p))) ∧
    (∃ (s : State) (t : Tick) (h : Hdr), ∃ p x, Immediate s t h (.rasterSet p) ∧
      ((fun w => 2 ≤ p.raster ∧ (w.raster? p.raster).isSome = true ∧ w.txStream (p.raster - 2) = some x ∧ p.rsvd = 0 ∧
      descOk p.desc false = true ∧ ratioOk p.desc (w.house p.desc.house).desc = true ∧ w.txPeakOk x.cfg p.desc = true) : State → Prop) (fetched s t h (.rasterSet p))) ∧
    (∃ (s : State) (t : Tick) (h : Hdr), ∃ p, Immediate s t h (.stcSet p) ∧
      ((fun _ => p.op < 2 ∧ p.rsvd = 0) : State → Prop) (fetched s t h (.stcSet p))) :=
  ⟨⟨ready, 0, onQueue 9 (.rasterSet { raster := 1, desc := {} }), { raster := 1, desc := {} }, by decide +kernel⟩,
   ⟨{ (ready.setTxStream 3 (some { cfg := { dir := 1, bundle := 0, lane := 3, g := 1 } })) with rasters := [(3, some {})] }, 0, onQueue 9 (.rasterSet { raster := 5, desc := {} }), { raster := 5, desc := {} }, { cfg := { dir := 1, bundle := 0, lane := 3, g := 1 } }, by decide +kernel⟩,
   ⟨ready, 0, onQueue 9 (.stcSet { op := 1, value := 0 }), { op := 1, value := 0 }, by decide +kernel⟩⟩

theorem test_meets_TimeReadsAnswer :
    (∃ (s : State) (t : Tick) (h : Hdr), ∃ p r, Immediate s t h (.rasterQuery p) ∧
      ((fun w => p.rsvd = 0 ∧ p.house < 2 ∧ w.raster? p.raster = some r ∧ p.predLine ≤ r.desc.totalLines ∧ p.predFrame < 2 ^ 48) : State → Prop) (fetched s t h (.rasterQuery p)) ∧
      ((fun w => descBytes r.desc ++ leBytes 1 (if p.raster < 2 then (w.house p.raster).st.code else 0) ++ leBytes 1 0 ++ leBytes 6 0 ++
      leBytes 8 r.frame ++ leBytes 2 r.line ++ leBytes 2 (r.sample w.now) ++ leBytes 4 0 ++ leBytes 8 (w.stcOf r.frameT) ++
      leBytes 8 (descPeriod r.desc) ++ leBytes 8 0 ++
      leBytes 8 (if p.predLine = 0 then 0 else w.stcOf (r.lineT' p.predFrame p.predLine)) : State → List Byte) (fetched s t h (.rasterQuery p))).length ≤ p.res.bytes) ∧
    (∃ (s : State) (t : Tick) (h : Hdr), ∃ p x, Immediate s t h (.rasterQuery p) ∧
      ((fun w => p.rsvd = 0 ∧ p.house < 2 ∧ 1024 ≤ p.raster ∧ p.raster < 1536 ∧ w.rxStream (p.raster - 1024) = some x) : State → Prop) (fetched s t h (.rasterQuery p)) ∧
      ((fun w => descBytes x.fmt ++ leBytes 1 0 ++ leBytes 1 (b2n x.present + 2 * b2n x.stale) ++ leBytes 6 0 ++ leBytes 8 x.frame ++
      leBytes 2 x.line ++ leBytes 2 0 ++ leBytes 4 0 ++ leBytes 8 x.markStc.toNat ++ leBytes 8 x.period ++
      leBytes 8 (if x.marked then encInt 64 (if p.house = 0 then x.phaseA else x.phaseB) else 0) ++ leBytes 8 0 : State → List Byte) (fetched s t h (.rasterQuery p))).length ≤ p.res.bytes) ∧
    (∃ (s : State) (t : Tick) (h : Hdr), ∃ p, Immediate s t h (.stcRead p) ∧
      ((fun _ => True) : State → Prop) (fetched s t h (.stcRead p)) ∧
      ((fun w =>
    leBytes 8 w.stc ++ leBytes 8 w.now ++
    (leBytes 8 (w.house 0).frame.toNat ++ leBytes 2 (w.house 0).line ++ leBytes 2 ((w.house 0).standing.sample w.now) ++
      leBytes 1 (w.house 0).st.code ++ leBytes 3 0) ++
    (leBytes 8 (w.house 1).frame.toNat ++ leBytes 2 (w.house 1).line ++ leBytes 2 ((w.house 1).standing.sample w.now) ++
      leBytes 1 (w.house 1).st.code ++ leBytes 3 0) : State → List Byte) (fetched s t h (.stcRead p))).length ≤ p.res.bytes) :=
  ⟨⟨ready, 0, onQueue 9 (.rasterQuery { res := room, raster := 1, predLine := 1125 }), { res := room, raster := 1, predLine := 1125 }, (ready.house 1).standing, by decide +kernel⟩,
   ⟨ready.setRxStream 0 (some { cfg := { dir := 0, bundle := 0, lane := 0, g := 1 } }), 0, onQueue 9 (.rasterQuery { res := room, raster := 1024, house := 1 }), { res := room, raster := 1024, house := 1 }, { cfg := { dir := 0, bundle := 0, lane := 0, g := 1 } }, by decide +kernel⟩,
   ⟨ready, 0, onQueue 9 (.stcRead { res := room }), { res := room }, by decide +kernel⟩⟩

theorem test_meets_SchedCancelRemovesAction :
    (∃ (s : State) (t : Tick) (h : Hdr) (p : SchedCancelP) (j : Job), Immediate s t h (.schedCancel p) ∧
      ((fun w => p.rsvd = 0 ∧ p.queue < 10 ∧ w.pendingAction p.queue p.seq = some j ∧ w.beforeArming j = true) : State → Prop) (fetched s t h (.schedCancel p))) :=
  ⟨{ ready with jobs := [{ id := 0, kind := .apply, queue := 2, seq := 7, tag := 0, sched := true, raster := 0, frame := some 9, params := .unknown 0 }], houses := [{ started := true }, {}] }, 0, onQueue 9 (.schedCancel { queue := 2, seq := 7 }), { queue := 2, seq := 7 }, { id := 0, kind := .apply, queue := 2, seq := 7, tag := 0, sched := true, raster := 0, frame := some 9, params := .unknown 0 }, by decide +kernel⟩

/-! ### Witnesses: packets: bundles and lanes (table 13.4) -/

theorem test_meets_BundleSetAndLaneTrain :
    (∃ (s : State) (t : Tick) (h : Hdr), ∃ p, Immediate s t h (.bundleSet p) ∧
      ((fun w => p.bundle < 64 ∧ p.dir = 0 ∧ p.rate < 3 ∧ p.laneMask < 256 ∧ p.rsvd = 0 ∧ p.swing = 0 ∧
      (p.expectBase ≤ 511 ∨ p.expectBase = 0xFFFF) ∧ spreadOk p.spread = true ∧
      (w.rxDir p.bundle).loopback = 0 ∧ (w.rxDir p.bundle).prbs = false) : State → Prop) (fetched s t h (.bundleSet p))) ∧
    (∃ (s : State) (t : Tick) (h : Hdr), ∃ p, Immediate s t h (.bundleSet p) ∧
      ((fun w => p.bundle < 64 ∧ p.dir = 1 ∧ p.rate < 3 ∧ p.laneMask < 256 ∧ p.rsvd = 0 ∧ 40 ≤ p.swing ∧ p.swing ≤ 100 ∧
      p.expectBase = 0 ∧ p.spread = 0 ∧ (w.txDir p.bundle).loopback = 0 ∧ (w.txDir p.bundle).prbs = false) : State → Prop) (fetched s t h (.bundleSet p))) ∧
    (∃ (s : State) (t : Tick) (h : Hdr), ∃ p, Immediate s t h (.laneTrain p) ∧
      ((fun w => p.bundle < 64 ∧ p.rsvd = 0 ∧ (w.rxDir p.bundle).training = false ∧ (w.rxDir p.bundle).asleep = false ∧
      (w.rxDir p.bundle).loopback = 0 ∧ (w.rxDir p.bundle).prbs = false) : State → Prop) (fetched s t h (.laneTrain p))) :=
  ⟨⟨ready, 0, onQueue 9 (.bundleSet { bundle := 63, dir := 0, rate := 2, expectBase := 0xFFFF }), { bundle := 63, dir := 0, rate := 2, expectBase := 0xFFFF }, by decide +kernel⟩,
   ⟨ready, 0, onQueue 9 (.bundleSet { bundle := 63, dir := 1, rate := 2, swing := 100 }), { bundle := 63, dir := 1, rate := 2, swing := 100 }, by decide +kernel⟩,
   ⟨ready, 0, onQueue 9 (.laneTrain { bundle := 63 }), { bundle := 63 }, by decide +kernel⟩⟩

theorem test_meets_BundleSleepAndWake :
    (∃ (s : State) (t : Tick) (h : Hdr) (p : BundleDirP), p.bundle < 64 ∧
      p.rsvd = 0 ∧
      Immediate s t h (.bundleSleep p) ∧
      ((fun w => p.dir = 0 ∧ (w.rxDir p.bundle).loopback = 0 ∧ (w.rxDir p.bundle).prbs = false ∧ (w.rxDir p.bundle).asleep = true) : State → Prop) (fetched s t h (.bundleSleep p))) ∧
    (∃ (s : State) (t : Tick) (h : Hdr) (p : BundleDirP), p.bundle < 64 ∧
      p.rsvd = 0 ∧
      Immediate s t h (.bundleSleep p) ∧
      ((fun w => p.dir = 0 ∧ (w.rxDir p.bundle).loopback = 0 ∧ (w.rxDir p.bundle).prbs = false ∧ (w.rxDir p.bundle).asleep = false) : State → Prop) (fetched s t h (.bundleSleep p))) ∧
    (∃ (s : State) (t : Tick) (h : Hdr) (p : BundleDirP), p.bundle < 64 ∧
      p.rsvd = 0 ∧
      Immediate s t h (.bundleSleep p) ∧
      ((fun w => p.dir = 1 ∧ (w.txDir p.bundle).loopback = 0 ∧ (w.txDir p.bundle).prbs = false ∧ (w.txDir p.bundle).asleep = true) : State → Prop) (fetched s t h (.bundleSleep p))) ∧
    (∃ (s : State) (t : Tick) (h : Hdr) (p : BundleDirP), p.bundle < 64 ∧
      p.rsvd = 0 ∧
      Immediate s t h (.bundleSleep p) ∧
      ((fun w => p.dir = 1 ∧ (w.txDir p.bundle).loopback = 0 ∧ (w.txDir p.bundle).prbs = false ∧ (w.txDir p.bundle).asleep = false ∧
      (w.txDir p.bundle).sends = true) : State → Prop) (fetched s t h (.bundleSleep p))) ∧
    (∃ (s : State) (t : Tick) (h : Hdr) (p : BundleDirP), p.bundle < 64 ∧
      p.rsvd = 0 ∧
      Immediate s t h (.bundleSleep p) ∧
      ((fun w => p.dir = 1 ∧ (w.txDir p.bundle).loopback = 0 ∧ (w.txDir p.bundle).prbs = false ∧ (w.txDir p.bundle).asleep = false ∧
      (w.txDir p.bundle).sends = false) : State → Prop) (fetched s t h (.bundleSleep p))) ∧
    (∃ (s : State) (t : Tick) (h : Hdr) (p : BundleDirP), p.bundle < 64 ∧
      p.rsvd = 0 ∧
      Immediate s t h (.bundleWake p) ∧
      ((fun w => p.dir = 0 ∧ (w.rxDir p.bundle).asleep = true ∨ p.dir = 1 ∧ (w.txDir p.bundle).asleep = true) : State → Prop) (fetched s t h (.bundleWake p))) ∧
    (∃ (s : State) (t : Tick) (h : Hdr) (p : BundleDirP), p.bundle < 64 ∧
      p.rsvd = 0 ∧
      Immediate s t h (.bundleWake p) ∧
      ((fun w => p.dir = 0 ∧ (w.rxDir p.bundle).asleep = false ∨ p.dir = 1 ∧ (w.txDir p.bundle).asleep = false) : State → Prop) (fetched s t h (.bundleWake p))) :=
  ⟨⟨ready.setRx 63 { asleep := true }, 0, onQueue 9 (.bundleSleep { bundle := 63, dir := 0 }), { bundle := 63, dir := 0 }, by decide +kernel⟩,
   ⟨ready, 0, onQueue 9 (.bundleSleep { bundle := 63, dir := 0 }), { bundle := 63, dir := 0 }, by decide +kernel⟩,
   ⟨ready.setTx 63 { asleep := true }, 0, onQueue 9 (.bundleSleep { bundle := 63, dir := 1 }), { bundle := 63, dir := 1 }, by decide +kernel⟩,
   ⟨ready, 0, onQueue 9 (.bundleSleep { bundle := 63, dir := 1 }), { bundle := 63, dir := 1 }, by decide +kernel⟩,
   ⟨ready.setTx 63 { enable := false }, 0, onQueue 9 (.bundleSleep { bundle := 63, dir := 1 }), { bundle := 63, dir := 1 }, by decide +kernel⟩,
   ⟨ready.setTx 63 { asleep := true }, 0, onQueue 9 (.bundleWake { bundle := 63, dir := 1 }), { bundle := 63, dir := 1 }, by decide +kernel⟩,
   ⟨ready, 0, onQueue 9 (.bundleWake { bundle := 63, dir := 0 }), { bundle := 63, dir := 0 }, by decide +kernel⟩⟩

theorem test_meets_LoopbackAndPatterns :
    (∃ (s : State) (t : Tick) (h : Hdr), ∃ p, Immediate s t h (.loopbackSet p) ∧
      ((fun w => p.port < 64 ∧ p.path < 4 ∧ p.rsvd = 0 ∧ (w.rxDir p.port).asleep = false ∧ (w.txDir p.port).asleep = false ∧
      (w.rxDir p.port).rate = (w.txDir p.port).rate) : State → Prop) (fetched s t h (.loopbackSet p))) ∧
    (∃ (s : State) (t : Tick) (h : Hdr), ∃ p, Immediate s t h (.prbsSet p) ∧
      ((fun w => p.bundle < 64 ∧ p.dir = 1 ∧ p.pattern < 4 ∧ p.laneMask < 256 ∧ p.rsvd = 0 ∧ (w.txDir p.bundle).asleep = false) : State → Prop) (fetched s t h (.prbsSet p))) ∧
    (∃ (s : State) (t : Tick) (h : Hdr), ∃ p, Immediate s t h (.prbsSet p) ∧
      ((fun w => p.bundle < 64 ∧ p.dir = 0 ∧ p.pattern < 4 ∧ p.laneMask < 256 ∧ p.rsvd = 0 ∧ (w.rxDir p.bundle).asleep = false) : State → Prop) (fetched s t h (.prbsSet p))) :=
  ⟨⟨inMode .test, 0, onQueue 9 (.loopbackSet { port := 63, path := 3 }), { port := 63, path := 3 }, by decide +kernel⟩,
   ⟨inMode .test, 0, onQueue 9 (.prbsSet { bundle := 63, dir := 1, laneMask := 255, pattern := 3 }), { bundle := 63, dir := 1, laneMask := 255, pattern := 3 }, by decide +kernel⟩,
   ⟨inMode .test, 0, onQueue 9 (.prbsSet { bundle := 63, dir := 0, laneMask := 255, pattern := 0 }), { bundle := 63, dir := 0, laneMask := 255, pattern := 0 }, by decide +kernel⟩⟩

theorem test_meets_BundleStatusAnswers :
    (∃ (s : State) (t : Tick) (h : Hdr) (p : BundleStatusP), Immediate s t h (.bundleStatus p) ∧
      ((fun _ => p.bundle < 64 ∧ p.rsvd = 0) : State → Prop) (fetched s t h (.bundleStatus p)) ∧
      ((fun w =>
    let d := w.rxDir p.bundle
    let e := w.txDir p.bundle
    leBytes 8 (rxDirWord d) ++ leBytes 8 (txDirWord e) ++ d.lanes.flatMap (fun l => leBytes 4 (rxLaneWord l)) ++
    e.lanes.flatMap (fun l => leBytes 4 (txLaneWord l)) ++
    if p.extended then (lanesOf p.bundle).flatMap fun k =>
      let r := (rxLaneOf d k).set
      [BitVec.ofNat 8 r.dcGain, BitVec.ofNat 8 (encInt 8 r.dfe2), BitVec.ofNat 8 (encInt 8 r.dfe3), BitVec.ofNat 8 (encInt 8 r.dfe4),
       BitVec.ofNat 8 (encInt 8 r.dfe5), BitVec.ofNat 8 (txLaneOf e k).main, 0, 0]
    else [] : State → List Byte) (fetched s t h (.bundleStatus p))).length ≤ p.res.bytes) :=
  ⟨ready, 0, onQueue 9 (.bundleStatus { res := room, bundle := 63, extended := true }), { res := room, bundle := 63, extended := true }, by decide +kernel⟩

/-! ### Witnesses: packets: streams, routes and presets (tables 13.5 and 13.6) -/

theorem test_meets_StreamAndLossSets :
    (∃ (s : State) (t : Tick) (h : Hdr), ∃ p, Immediate s t h (.streamSet p) ∧
      ((fun w => p.dir = 0 ∧ chkStreamSet h p w = none) : State → Prop) (fetched s t h (.streamSet p))) ∧
    (∃ (s : State) (t : Tick) (h : Hdr), ∃ p, Immediate s t h (.streamSet p) ∧
      ((fun w => p.dir = 1 ∧ chkStreamSet h p w = none ∧ (w.outRaster (8 * p.bundle + p.lane)).isSome = true) : State → Prop) (fetched s t h (.streamSet p))) ∧
    (∃ (s : State) (t : Tick) (h : Hdr), ∃ p, Immediate s t h (.streamSet p) ∧
      ((fun w => p.dir = 1 ∧ chkStreamSet h p w = none ∧ w.outRaster (8 * p.bundle + p.lane) = none) : State → Prop) (fetched s t h (.streamSet p))) ∧
    (∃ (s : State) (t : Tick) (h : Hdr), ∃ p, Immediate s t h (.lossSet p) ∧
      ((fun w => w.routes.recalling = false ∧ p.policy < 3 ∧ p.holdLimit ≤ 65535 ∧ p.rsvd = 0 ∧ p.output < 512 ∧
      (w.txStream p.output).isSome = true) : State → Prop) (fetched s t h (.lossSet p))) :=
  ⟨⟨ready, 0, onQueue 9 (.streamSet { dir := 0, bundle := 63, lane := 7, g := 1, activeSamples := 1920, activeLines := 1080, totalLines := 1125 }), { dir := 0, bundle := 63, lane := 7, g := 1, activeSamples := 1920, activeLines := 1080, totalLines := 1125 }, by decide +kernel⟩,
   ⟨{ ready.setTxStream 511 (some { cfg := { dir := 1, bundle := 63, lane := 7, g := 1 } }) with rasters := [(511, some {})] }, 0, onQueue 9 (.streamSet { dir := 1, bundle := 63, lane := 7, g := 1 }), { dir := 1, bundle := 63, lane := 7, g := 1 }, by decide +kernel⟩,
   ⟨ready, 0, onQueue 9 (.streamSet { dir := 1, bundle := 63, lane := 7, g := 1 }), { dir := 1, bundle := 63, lane := 7, g := 1 }, by decide +kernel⟩,
   ⟨ready.setTxStream 511 (some { cfg := { dir := 1, bundle := 63, lane := 7, g := 1 } }), 0, onQueue 9 (.lossSet { output := 511, policy := 2, holdLimit := 65535 }), { output := 511, policy := 2, holdLimit := 65535 }, by decide +kernel⟩⟩

theorem test_meets_TakeAndRecallReserve :
    (∃ (s : State) (t : Tick) (h : Hdr), ∃ (p : RouteTakeP), Immediate s t h (.routeTake p) ∧
      chkRouteTake h p (fetched s t h (.routeTake p)) = none) ∧
    (∃ (s : State) (t : Tick) (h : Hdr), ∃ (p : PresetRecallP), Immediate s t h (.presetRecall p) ∧
      chkPresetRecall h p (fetched s t h (.presetRecall p)) = none) :=
  ⟨⟨({ ready.setTxStream 511 (some { cfg := { dir := 1, bundle := 63, lane := 7, g := 1 } }) with rasters := [(511, some {})] }).setRxStream 0 (some { cfg := { dir := 0, bundle := 0, lane := 0, g := 1, rate := 6, activeSamples := 1920, activeLines := 1080, totalLines := 1125 } }), 0, onQueue 9 (.routeTake { count := 1, entries := [{ dest := 511, src := 0 }] }), { count := 1, entries := [{ dest := 511, src := 0 }] }, by decide +kernel⟩,
   ⟨{ ready with nv := { ready.nv with cells := [(0x20000, 1), (0x20022, 1), (0x20032, 1), (0x2003E, 1), (0x20880, 1), (0x2088e, 1), (0x2088f, 14), (0x20890, 238), (0x20891, 151), (0x208be, 1)] } }, 0, onQueue 9 (.presetRecall { preset := 7 }), { preset := 7 }, by decide +kernel⟩⟩

theorem test_meets_RouteQueryAnswers :
    (∃ (s : State) (t : Tick) (h : Hdr) (p : RouteQueryP), Immediate s t h (.routeQuery p) ∧
      ((fun _ => p.dests ≠ [] ∧ p.dests.length ≤ 1408 ∧ p.rsvd = 0 ∧ ∀ d ∈ p.dests, d ≤ 1407) : State → Prop) (fetched s t h (.routeQuery p)) ∧
      ((fun w => p.dests.flatMap fun dest => match w.route dest with
      | some r =>
        leBytes 2 dest ++ leBytes 2 r.src ++ leBytes 1 r.g ++ leBytes 1 (w.classNow dest r).code ++
        leBytes 1 (b2n r.syncRes + 2 * b2n r.forceSync + 4 * b2n r.autoCut) ++ leBytes 1 r.loss ++
        leBytes 2 ((r.resv.map fun v => 896 + v.cw).getD 0xFFFF) ++ leBytes 2 ((r.resv.map fun v => 896 + v.pb).getD 0xFFFF) ++
        leBytes 4 (min r.lead 0xFFFFFFFF) ++ leBytes 4 (min r.latency 0xFFFFFFFF) ++ leBytes 4 (w.pendingSeq dest)
      | none =>
        leBytes 2 dest ++ leBytes 2 0xFFFF ++ leBytes 1 (w.groupSizeAt dest) ++ leBytes 2 0 ++
        leBytes 1 (b2n (w.groupSizeAt dest != 0 && decide (dest < 512))) ++ leBytes 2 0xFFFF ++ leBytes 2 0xFFFF ++ leBytes 8 0 ++
        leBytes 4 (if w.groupSizeAt dest = 0 then 0 else w.pendingSeq dest) : State → List Byte) (fetched s t h (.routeQuery p))).length ≤ p.res.bytes) :=
  ⟨ready, 0, onQueue 9 (.routeQuery { res := room, dests := [0, 1407] }), { res := room, dests := [0, 1407] }, by decide +kernel⟩

theorem test_meets_PresetStoreAndColdstart :
    (∃ (s : State) (t : Tick) (h : Hdr), ∃ p, Immediate s t h (.presetStore p) ∧
      ((fun w => w.routes.recalling = false ∧ p.preset < 8 ∧ p.rsvd = 0 ∧ p.capture = true ∧ w.dirProtected = false) : State → Prop) (fetched s t h (.presetStore p))) ∧
    (∃ (s : State) (t : Tick) (h : Hdr), ∃ (p : PresetStoreP) (w1 : State), Immediate s t h (.presetStore p) ∧
      (fetched s t h (.presetStore p)).routes.recalling = false ∧
      p.preset < 8 ∧
      p.rsvd = 0 ∧
      p.capture = false ∧
      countsOk p.body = true ∧
      recordsOk p.body = true ∧
      (fetched s t h (.presetStore p)).dirProtected = false ∧
      (fetched s t h (.presetStore p)).storePreset (fetched s t h (.presetStore p)).nextJob p.preset p.body = some w1) ∧
    (∃ (s : State) (t : Tick) (h : Hdr), ∃ p, Immediate s t h (.presetColdstart p) ∧
      ((fun w => w.routes.recalling = false ∧ (p.preset < 8 ∨ p.preset = 255) ∧ p.rsvd = 0 ∧ w.dirProtected = false) : State → Prop) (fetched s t h (.presetColdstart p))) :=
  ⟨⟨ready, 0, onQueue 9 (.presetStore { preset := 7, capture := true }), { preset := 7, capture := true }, by decide +kernel⟩,
   ⟨ready, 0, onQueue 9 (.presetStore { preset := 7 }), { preset := 7 }, ((ready.storePreset 1 7 {}).getD ready), by decide +kernel⟩,
   ⟨ready, 0, onQueue 9 (.presetColdstart { preset := 255, enable := false }), { preset := 255, enable := false }, by decide +kernel⟩⟩

/-! ### Witnesses: packets: the millpond and the weir (table 13.7) -/

theorem test_meets_BufferCreateAndDestroy :
    (∃ (s : State) (t : Tick) (h : Hdr), ∃ (p : BufCreateP) (i a : Nat), Immediate s t h (.bufCreate p) ∧
      ((fun w => bufParamsOk p.params w = true ∧ p.params.typ ≠ 6 ∧ w.freeIndex = some i ∧ roundPond (bufBytes p.params) ≠ 0 ∧
      w.findExtent [] (roundPond (bufBytes p.params)) = some a) : State → Prop) (fetched s t h (.bufCreate p)) ∧
      ((fun w => leBytes 4 ((fget 0 w.pond.gens i % 262143 + 1) * 16384 + i) : State → List Byte) (fetched s t h (.bufCreate p))).length ≤ p.res.bytes) ∧
    (∃ (s : State) (t : Tick) (h : Hdr), ∃ (p : BufCreateP) (i : Nat), Immediate s t h (.bufCreate p) ∧
      ((fun w => bufParamsOk p.params w = true ∧ p.params.typ = 6 ∧ w.freeIndex = some i ∧ roundPond (bufBytes p.params) = 0 ∧
      w.admission (fun _ => false) [{ kind := 8, holder := 0, mb := p.params.hwRate }] = none) : State → Prop) (fetched s t h (.bufCreate p)) ∧
      ((fun w => leBytes 4 ((fget 0 w.pond.gens i % 262143 + 1) * 16384 + i) : State → List Byte) (fetched s t h (.bufCreate p))).length ≤ p.res.bytes) ∧
    (∃ (s : State) (t : Tick) (h : Hdr), ∃ p, Immediate s t h (.bufDestroy p) ∧
      ((fun w => (w.bufAt p.handle).isSome = true ∧ w.bufUsed p.handle = false) : State → Prop) (fetched s t h (.bufDestroy p))) :=
  ⟨⟨ready, 0, onQueue 9 (.bufCreate { params := { typ := 0, format := 0, count := 4, width := 1920, height := 1080, tlines := 1125, rate := 4, scan := 0 }, res := room }), { params := { typ := 0, format := 0, count := 4, width := 1920, height := 1080, tlines := 1125, rate := 4, scan := 0 }, res := room }, 0, 0, by decide +kernel⟩,
   ⟨{ ready with pond := { ready.pond with bufs := [(0, some { params := { typ := 0, format := 0, count := 4, width := 1920, height := 1080, tlines := 1125, rate := 4, scan := 0 }, addr := 0, size := 1048576 })], gens := [(0, 1)] } }, 0, onQueue 9 (.bufCreate { params := { typ := 6, target := 16384, hwRate := 8000, dir := 1 }, res := room }), { params := { typ := 6, target := 16384, hwRate := 8000, dir := 1 }, res := room }, 1, by decide +kernel⟩,
   ⟨{ ready with pond := { ready.pond with bufs := [(0, some { params := { typ := 0, format := 0, count := 4, width := 1920, height := 1080, tlines := 1125, rate := 4, scan := 0 }, addr := 0, size := 1048576 })], gens := [(0, 1)] } }, 0, onQueue 9 (.bufDestroy { handle := 16384 }), { handle := 16384 }, by decide +kernel⟩⟩

theorem test_meets_PondReadsAnswer :
    (∃ (s : State) (t : Tick) (h : Hdr), ∃ p b, Immediate s t h (.bufQuery p) ∧
      ((fun w => w.bufAt p.handle = some b ∧ p.rsvd = 0) : State → Prop) (fetched s t h (.bufQuery p)) ∧
      ((fun w =>
    let cs := w.pond.charges.filter fun c => c.sub == p.handle && c.kind != 7
    bufParamBytes b.params ++ leBytes 8 b.addr ++ leBytes 8 b.size ++ leBytes 4 (totalMb cs) ++ leBytes 2 cs.length ++ leBytes 18 0 : State → List Byte) (fetched s t h (.bufQuery p))).length ≤ p.res.bytes) ∧
    (∃ (s : State) (t : Tick) (h : Hdr), ∃ p, Immediate s t h (.weirQuery p) ∧
      ((fun _ => True) : State → Prop) (fetched s t h (.weirQuery p)) ∧
      ((fun w =>
    let share (size held : Nat) : List Byte := leBytes 4 size ++ leBytes 4 held ++ leBytes 4 (size - held)
    share 3150000 w.grantHeld ++ share 4000 4000 ++ share 32000 32000 ++ share 8000 w.windowHeld ++ share 6000 0 ++
    ((List.range 8).flatMap fun k => leBytes 4 (totalMb (w.pond.charges.filter fun c => c.kind == k))) ++ leBytes 4 0 ++
    leBytes 8 (total (·.2) (w.freeExtents [])) ++ leBytes 8 (((w.freeExtents []).map (·.2)).foldl max 0) : State → List Byte) (fetched s t h (.weirQuery p))).length ≤ p.res.bytes) :=
  ⟨⟨{ ready with pond := { ready.pond with bufs := [(0, some { params := { typ := 0, format := 0, count := 4, width := 1920, height := 1080, tlines := 1125, rate := 4, scan := 0 }, addr := 0, size := 1048576 })], gens := [(0, 1)] } }, 0, onQueue 9 (.bufQuery { res := room, handle := 16384 }), { res := room, handle := 16384 }, { params := { typ := 0, format := 0, count := 4, width := 1920, height := 1080, tlines := 1125, rate := 4, scan := 0 }, addr := 0, size := 1048576 }, by decide +kernel⟩,
   ⟨ready, 0, onQueue 9 (.weirQuery { res := room }), { res := room }, by decide +kernel⟩⟩

theorem test_meets_BufferTransferStarts :
    (∃ (s : State) (t : Tick) (h : Hdr) (p : BufXferP) (b tgt : Buf), Immediate s t h (.bufXfer p) ∧
      ((fun w => h.queue ≠ 9 ∧ w.bufAt p.window = some b ∧ b.params.typ = 6 ∧ w.bufAt b.params.target = some tgt ∧ p.rsvd = 0 ∧
      p.offset % 256 = 0 ∧ p.hostAddr % 256 = 0 ∧ p.bytes % 256 = 0 ∧ 0 < p.bytes ∧ p.offset + p.bytes ≤ tgt.size ∧
      (p.p3 = true → tgt.params.typ = 4) ∧
      (p.markComplete = true → b.params.dir = 1 ∧ isRing tgt = true ∧ p.slot < tgt.params.count) ∧
      (b.params.dir = 1 → isRing tgt = true →
        ∀ k ∈ slotsIn tgt p.offset (p.offset + p.bytes) ++ (if p.markComplete then [p.slot] else []),
          (w.heldSlots b.params.target).contains k = false) ∧
      (b.params.dir = 1 → tgt.params.typ = 3 → (w.comp.outs.any fun e => e.2.runs.any fun r => r.any fun (x : StaticRun) =>
        x.bufA == b.params.target || x.bufB == b.params.target) = false) ∧
      (b.params.dir = 1 → tgt.params.typ = 5 → (w.engines.tasks.any fun e => e.2.any fun (k : Task) =>
        (blockHandles k.p.block).contains b.params.target) = false)) : State → Prop) (fetched s t h (.bufXfer p))) :=
  ⟨{ served with pond := { served.pond with bufs := [(0, some { params := { typ := 0, format := 0, count := 4, width := 1920, height := 1080, tlines := 1125, rate := 4, scan := 0 }, addr := 0, size := 1048576 }), (1, some { params := { typ := 6, target := 16384, hwRate := 100, dir := 1 }, addr := 0, size := 0 })], gens := [(0, 1), (1, 1)] } }, 0, onQueue 0 (.bufXfer { window := 16385, markComplete := true, slot := 3, offset := 0, bytes := 1048576 }), { window := 16385, markComplete := true, slot := 3, offset := 0, bytes := 1048576 }, { params := { typ := 6, target := 16384, hwRate := 100, dir := 1 }, addr := 0, size := 0 }, { params := { typ := 0, format := 0, count := 4, width := 1920, height := 1080, tlines := 1125, rate := 4, scan := 0 }, addr := 0, size := 1048576 }, by decide +kernel⟩

theorem test_meets_CaptureAndPlayoutBind :
    (∃ (s : State) (t : Tick) (h : Hdr), ∃ (p : CaptureBindP), 
    let mine (c : Charge) : Bool := decide (c.kind < 2) && c.holder == p.cw
    
    let apart (w : State) : Bool := w.pond.caps.any fun e => e.2.any fun (c : CapBind) =>
        overlap e.1 c.p.g (p.cw - 896) p.g && (e.1 != p.cw - 896 || c.p.g != p.g)
    Immediate s t h (.captureBind p) ∧
      ((fun w => bindPointOk p.cw p.g = true ∧ p.rsvd = 0 ∧ p.handle = 0 ∧ p.oneShot = false ∧ w.destRouted p.cw p.g = false ∧
        w.resvHolds (p.cw - 896) p.g = false ∧ apart w = false ∧ w.admission mine [] = none) : State → Prop) (fetched s t h (.captureBind p))) ∧
    (∃ (s : State) (t : Tick) (h : Hdr), ∃ (p : CaptureBindP), 
    let mine (c : Charge) : Bool := decide (c.kind < 2) && c.holder == p.cw
    
    let apart (w : State) : Bool := w.pond.caps.any fun e => e.2.any fun (c : CapBind) =>
        overlap e.1 c.p.g (p.cw - 896) p.g && (e.1 != p.cw - 896 || c.p.g != p.g)
    ∃ (b : Buf), 
    let add : List Charge := [{ kind := if b.params.typ = 1 then 1 else 0, holder := p.cw, sub := p.handle, mb := writerCharge b.params }]
    
    let ok (w : State) : Prop := bindPointOk p.cw p.g = true ∧ p.rsvd = 0 ∧ p.handle ≠ 0 ∧ w.bufAt p.handle = some b ∧
          b.params.typ < 3 ∧ (p.oneShot = true → b.params.typ = 2) ∧ w.destRouted p.cw p.g = false ∧
          w.resvHolds (p.cw - 896) p.g = false ∧ apart w = false ∧ w.admission mine add = none
    Immediate s t h (.captureBind p) ∧
      ((fun w => p.oneShot = false ∧ ok w) : State → Prop) (fetched s t h (.captureBind p))) ∧
    (∃ (s : State) (t : Tick) (h : Hdr), ∃ (p : CaptureBindP), 
    let mine (c : Charge) : Bool := decide (c.kind < 2) && c.holder == p.cw
    
    let apart (w : State) : Bool := w.pond.caps.any fun e => e.2.any fun (c : CapBind) =>
        overlap e.1 c.p.g (p.cw - 896) p.g && (e.1 != p.cw - 896 || c.p.g != p.g)
    ∃ (b : Buf), 
    let add : List Charge := [{ kind := if b.params.typ = 1 then 1 else 0, holder := p.cw, sub := p.handle, mb := writerCharge b.params }]
    
    let ok (w : State) : Prop := bindPointOk p.cw p.g = true ∧ p.rsvd = 0 ∧ p.handle ≠ 0 ∧ w.bufAt p.handle = some b ∧
          b.params.typ < 3 ∧ (p.oneShot = true → b.params.typ = 2) ∧ w.destRouted p.cw p.g = false ∧
          w.resvHolds (p.cw - 896) p.g = false ∧ apart w = false ∧ w.admission mine add = none
    Immediate s t h (.captureBind p) ∧
      ((fun w => p.oneShot = true ∧ ok w) : State → Prop) (fetched s t h (.captureBind p))) ∧
    (∃ (s : State) (t : Tick) (h : Hdr), ∃ (p : PlayoutBindP), 
    let apart (w : State) : Bool := w.pond.plays.any fun e => e.2.any fun (c : PlayBind) =>
        overlap e.1 c.p.g (p.pb - 896) p.g && (e.1 != p.pb - 896 || c.p.g != p.g)
    Immediate s t h (.playoutBind p) ∧
      ((fun w => bindPointOk p.pb p.g = true ∧ p.rsvd = 0 ∧ p.handle = 0 ∧ w.bufAt 0 = none ∧ w.srcRouted p.pb p.g = false ∧
        w.resvHoldsPb (p.pb - 896) p.g = false ∧ apart w = false ∧ w.admission (ofUser 2 p.pb) [] = none) : State → Prop) (fetched s t h (.playoutBind p))) ∧
    (∃ (s : State) (t : Tick) (h : Hdr), ∃ (p : PlayoutBindP), 
    let apart (w : State) : Bool := w.pond.plays.any fun e => e.2.any fun (c : PlayBind) =>
        overlap e.1 c.p.g (p.pb - 896) p.g && (e.1 != p.pb - 896 || c.p.g != p.g)
    ∃ (b : Buf) (r : Standing), 
    let add : List Charge := [{ kind := 2, holder := p.pb, sub := p.handle, mb := readerCharge b.params.width b.params.format r.desc }]
    Immediate s t h (.playoutBind p) ∧
      ((fun w => bindPointOk p.pb p.g = true ∧ p.rsvd = 0 ∧ p.handle ≠ 0 ∧ w.bufAt p.handle = some b ∧ isRing b = true ∧
          w.raster? p.raster = some r ∧ p.mode < 3 ∧ (p.mode = 0 → p.extra ≤ 5) ∧ (p.mode = 2 → p.slot < b.params.count) ∧
          w.srcRouted p.pb p.g = false ∧ w.resvHoldsPb (p.pb - 896) p.g = false ∧ apart w = false ∧
          w.admission (ofUser 2 p.pb) add = none) : State → Prop) (fetched s t h (.playoutBind p))) :=
  ⟨⟨ready, 0, onQueue 9 (.captureBind { cw := 1407, g := 1, handle := 0 }), { cw := 1407, g := 1, handle := 0 }, by decide +kernel⟩,
   ⟨{ ready with pond := { ready.pond with bufs := [(0, some { params := { typ := 0, format := 0, count := 4, width := 1920, height := 1080, tlines := 1125, rate := 4, scan := 0 }, addr := 0, size := 1048576 })], gens := [(0, 1)] } }, 0, onQueue 9 (.captureBind { cw := 1407, g := 1, handle := 16384 }), { cw := 1407, g := 1, handle := 16384 }, { params := { typ := 0, format := 0, count := 4, width := 1920, height := 1080, tlines := 1125, rate := 4, scan := 0 }, addr := 0, size := 1048576 }, by decide +kernel⟩,
   ⟨{ ready with pond := { ready.pond with bufs := [(0, some { params := { typ := 2, format := 0, count := 1, width := 1920, height := 1080, tlines := 1125, rate := 4, scan := 0 }, addr := 0, size := 1048576 })], gens := [(0, 1)] } }, 0, onQueue 9 (.captureBind { cw := 1407, g := 1, oneShot := true, handle := 16384 }), { cw := 1407, g := 1, oneShot := true, handle := 16384 }, { params := { typ := 2, format := 0, count := 1, width := 1920, height := 1080, tlines := 1125, rate := 4, scan := 0 }, addr := 0, size := 1048576 }, by decide +kernel⟩,
   ⟨ready, 0, onQueue 9 (.playoutBind { pb := 1407, g := 1, handle := 0 }), { pb := 1407, g := 1, handle := 0 }, by decide +kernel⟩,
   ⟨{ ready with pond := { ready.pond with bufs := [(0, some { params := { typ := 0, format := 0, count := 4, width := 1920, height := 1080, tlines := 1125, rate := 4, scan := 0 }, addr := 0, size := 1048576 })], gens := [(0, 1)] } }, 0, onQueue 9 (.playoutBind { pb := 1407, g := 1, mode := 2, handle := 16384, raster := 1, slot := 3 }), { pb := 1407, g := 1, mode := 2, handle := 16384, raster := 1, slot := 3 }, { params := { typ := 0, format := 0, count := 4, width := 1920, height := 1080, tlines := 1125, rate := 4, scan := 0 }, addr := 0, size := 1048576 }, (ready.house 1).standing, by decide +kernel⟩⟩

/-! ### Witnesses: packets: engines (table 13.8) -/

theorem test_meets_KernelCommands :
    (∃ (s : State) (t : Tick) (h : Hdr), ∃ p, Immediate s t h (.kernelBind p) ∧
      ((fun w => chkKernelBind h p w = none) : State → Prop) (fetched s t h (.kernelBind p))) ∧
    (∃ (s : State) (t : Tick) (h : Hdr), ∃ p k, Immediate s t h (.kernelUpdate p) ∧
      ((fun w => w.task p.engine = some k ∧ chkKernelUpdate h p w = none) : State → Prop) (fetched s t h (.kernelUpdate p))) ∧
    (∃ (s : State) (t : Tick) (h : Hdr), ∃ p k, Immediate s t h (.kernelUnbind p) ∧
      ((fun w => w.task p.engine = some k ∧ p.rsvd = 0 ∧ w.pointsRouted (512 + 2 * p.engine) (2 * k.p.gang) = false ∧
      w.jobs.any (namesTask k.p.gang p.engine) = false ∧ k.migrate = none) : State → Prop) (fetched s t h (.kernelUnbind p))) ∧
    (∃ (s : State) (t : Tick) (h : Hdr), ∃ p k, Immediate s t h (.engineMigrate p) ∧
      ((fun w => w.task p.engine = some k ∧ chkEngineMigrate h p w = none) : State → Prop) (fetched s t h (.engineMigrate p))) :=
  ⟨⟨small, 0, onQueue 9 (.kernelBind keyP), keyP, by decide +kernel⟩,
   ⟨tasked, 0, onQueue 9 (.kernelUpdate { engine := 191, block := .key { gain := 4096 } }), { engine := 191, block := .key { gain := 4096 } }, keyTask, by decide +kernel⟩,
   ⟨tasked, 0, onQueue 9 (.kernelUnbind { engine := 191 }), { engine := 191 }, keyTask, by decide +kernel⟩,
   ⟨tasked.setEngine 0 { st := .spare }, 0, onQueue 9 (.engineMigrate { engine := 191, target := 0 }), { engine := 191, target := 0 }, keyTask, by decide +kernel⟩⟩

theorem test_meets_EngineReserveAndQuery :
    (∃ (s : State) (t : Tick) (h : Hdr), ∃ (p : EngineReserveP), 
    let es := (List.range p.count).map (p.first + ·)
    
    let add : List Charge := if p.ceiling = 0 then [] else es.map fun e => { kind := 6, holder := e, mb := p.ceiling }
    Immediate s t h (.engineReserve p) ∧
      ((fun w => p.release = false ∧ p.first < 192 ∧ 1 ≤ p.count ∧ p.first + p.count ≤ 192 ∧ p.rsvd = 0 ∧
        (∀ e ∈ es, (w.engine e).st = .free ∧ w.bindPending e = false) ∧ w.admission (fun _ => false) add = none) : State → Prop) (fetched s t h (.engineReserve p))) ∧
    (∃ (s : State) (t : Tick) (h : Hdr), ∃ (p : EngineReserveP), 
    let es := (List.range p.count).map (p.first + ·)
    Immediate s t h (.engineReserve p) ∧
      ((fun w => p.release = true ∧ p.first < 192 ∧ 1 ≤ p.count ∧ p.first + p.count ≤ 192 ∧ p.rsvd = 0 ∧
        ∀ e ∈ es, (w.engine e).st = .spare ∧ w.spareTaken e = false) : State → Prop) (fetched s t h (.engineReserve p))) ∧
    (∃ (s : State) (t : Tick) (h : Hdr), ∃ p, Immediate s t h (.engineQuery p) ∧
      ((fun _ => p.first < 192 ∧ 1 ≤ p.count ∧ p.first + p.count ≤ 192 ∧ p.rsvd = 0) : State → Prop) (fetched s t h (.engineQuery p)) ∧
      ((fun w => (List.range p.count).flatMap fun i => w.engineRecord (p.first + i) : State → List Byte) (fetched s t h (.engineQuery p))).length ≤ p.res.bytes) :=
  ⟨⟨ready, 0, onQueue 9 (.engineReserve { first := 0, count := 192 }), { first := 0, count := 192 }, by decide +kernel⟩,
   ⟨ready.setEngine 191 { st := .spare }, 0, onQueue 9 (.engineReserve { first := 191, count := 1, release := true }), { first := 191, count := 1, release := true }, by decide +kernel⟩,
   ⟨ready, 0, onQueue 9 (.engineQuery { res := room, first := 191, count := 1 }), { res := room, first := 191, count := 1 }, by decide +kernel⟩⟩

/-! ### Witnesses: packets: compositing (table 13.9) -/

theorem test_meets_LayerCommandsWait :
    (∃ (s : State) (t : Tick) (h : Hdr), ∃ p, Immediate s t h (.layerSet p) ∧
      ((fun w => chkLayerSet h p w = none) : State → Prop) (fetched s t h (.layerSet p))) ∧
    (∃ (s : State) (t : Tick) (h : Hdr), ∃ p, Immediate s t h (.layerFlip p) ∧
      ((fun w => chkLayerFlip h p w = none) : State → Prop) (fetched s t h (.layerFlip p))) ∧
    (∃ (s : State) (t : Tick) (h : Hdr), ∃ p, Immediate s t h (.compSet p) ∧
      ((fun w => p.rsvd = 0 ∧ p.output < 512 ∧ (w.txStream p.output).isSome = true ∧ 1 ≤ p.dl ∧ p.dl ≤ 16) : State → Prop) (fetched s t h (.compSet p))) ∧
    (∃ (s : State) (t : Tick) (h : Hdr), ∃ p, Immediate s t h (.staticSet p) ∧
      ((fun w => chkStaticSet h p w = none) : State → Prop) (fetched s t h (.staticSet p))) :=
  ⟨⟨withBufs wired [ringP], 0, onQueue 9 (.layerSet { output := 511, count := 1, entries := [{ layer := 7, setBuf := true, z := 7, buf := 16384, slot := 3, geom := { cropW := 1920, cropH := 1080 } }] }), { output := 511, count := 1, entries := [{ layer := 7, setBuf := true, z := 7, buf := 16384, slot := 3, geom := { cropW := 1920, cropH := 1080 } }] }, by decide +kernel⟩,
   ⟨withBufs wired [ringP], 0, onQueue 9 (.layerFlip { output := 511, layer := 7, buf := 16384, slot := 3 }), { output := 511, layer := 7, buf := 16384, slot := 3 }, by decide +kernel⟩,
   ⟨wired, 0, onQueue 9 (.compSet { output := 511, dl := 16 }), { output := 511, dl := 16 }, by decide +kernel⟩,
   ⟨withBufs wired [sparseP, sparseP], 0, onQueue 9 (.staticSet { output := 511, run := 1, op := 1, zlo := 1, zhi := 7, bufA := 16384, bufB := 16385 }), { output := 511, run := 1, op := 1, zlo := 1, zhi := 7, bufA := 16384, bufB := 16385 }, by decide +kernel⟩⟩

theorem test_meets_FencesAndGroups :
    (∃ (s : State) (t : Tick) (h : Hdr), ∃ p, Immediate s t h (.fenceBind p) ∧
      ((fun _ => p.rsvd = 0 ∧ p.fence < 256 ∧ (p.point < 512 ∨ p.point = 0xFFFF)) : State → Prop) (fetched s t h (.fenceBind p))) ∧
    (∃ (s : State) (t : Tick) (h : Hdr), ∃ p, Immediate s t h (.fenceSignal p) ∧
      ((fun w => p.rsvd = 0 ∧ p.fence < 256 ∧ p.reset = false ∧ BitVec.ofNat 32 p.value = (w.fence p.fence).value) : State → Prop) (fetched s t h (.fenceSignal p))) ∧
    (∃ (s : State) (t : Tick) (h : Hdr), ∃ p, Immediate s t h (.fenceSignal p) ∧
      ((fun w => p.rsvd = 0 ∧ p.fence < 256 ∧ (p.reset = true ∧ w.fenceNamed p.fence = false ∨
      p.reset = false ∧ advances (BitVec.ofNat 32 p.value) (w.fence p.fence).value = true)) : State → Prop) (fetched s t h (.fenceSignal p))) ∧
    (∃ (s : State) (t : Tick) (h : Hdr), ∃ p, Immediate s t h (.groupSet p) ∧
      ((fun w => p.members.length ≤ 64 ∧ p.rsvd = 0 ∧ p.group < 128 ∧ distinct p.members = true ∧
      (fget {} w.comp.groups p.group : Group).taking = [] ∧
      ∀ m ∈ p.members, m.1 < 512 ∧ (w.txStream m.1).isSome = true ∧ 1 ≤ m.2 ∧ m.2 ≤ 7 ∧
        (layerOf (settled (w.compOut m.1)) m.2).a.follow = false ∧
        rangeRun (settled (w.compOut m.1)) (layerOf (settled (w.compOut m.1)) m.2).a = none ∧
        ∀ k, (layerOf (settled (w.compOut m.1)) m.2).group = some k → k = p.group) : State → Prop) (fetched s t h (.groupSet p))) :=
  ⟨⟨ready, 0, onQueue 9 (.fenceBind { fence := 255, point := 0xFFFF }), { fence := 255, point := 0xFFFF }, by decide +kernel⟩,
   ⟨ready, 0, onQueue 9 (.fenceSignal { fence := 255, value := 0 }), { fence := 255, value := 0 }, by decide +kernel⟩,
   ⟨ready, 0, onQueue 9 (.fenceSignal { fence := 255, value := 0x7FFFFFFF }), { fence := 255, value := 0x7FFFFFFF }, by decide +kernel⟩,
   ⟨wired, 0, onQueue 9 (.groupSet { group := 127, members := [(511, 7)] }), { group := 127, members := [(511, 7)] }, by decide +kernel⟩⟩

theorem test_meets_CompositingReadsAnswer :
    (∃ (s : State) (t : Tick) (h : Hdr), ∃ p, Immediate s t h (.layerQuery p) ∧
      ((fun w => p.rsvd = 0 ∧ p.output < 512 ∧ (w.txStream p.output).isSome = true) : State → Prop) (fetched s t h (.layerQuery p)) ∧
      ((fun w => [1, 2, 3, 4, 5, 6, 7].flatMap fun l =>
      let c := w.compOut p.output
      let x := layerOf c l
      leBytes 1 l ++
      leBytes 1 (b2n x.a.enable + 2 * b2n x.a.follow + 8 * b2n (shownAttr c l).isSome +
        16 * b2n (c.runs.any fun r => r.any fun y => isStatic y x.a) + 32 * b2n x.group.isSome) ++
      leBytes 1 x.a.z ++ leBytes 1 x.sluice.code ++ leBytes 4 (x.a.buf.getD 0) ++ leBytes 2 x.a.slot ++
      leBytes 2 (x.group.getD 0xFFFF) ++ leBytes 4 (((x.pend.bind fun f => w.jobs.find? fun j => j.id == f.job).map (·.seq)).getD 0) ++
      leBytes 4 ((x.pend.map (·.defer)).getD 0) ++
      leBytes 4 (((w.pond.charges.find? fun k => k.kind == 3 && k.holder == 7 * p.output + l - 1).map fun k => k.mb).getD 0) ++
      leBytes 8 x.lastFlip : State → List Byte) (fetched s t h (.layerQuery p))).length ≤ p.res.bytes) ∧
    (∃ (s : State) (t : Tick) (h : Hdr), ∃ p, Immediate s t h (.fenceQuery p) ∧
      ((fun _ => p.rsvd = 0 ∧ p.fence < 256) : State → Prop) (fetched s t h (.fenceQuery p)) ∧
      ((fun w =>
    leBytes 4 (w.fence p.fence).value.toNat ++ leBytes 2 ((w.fence p.fence).point.getD 0xFFFF) ++ leBytes 2 0 ++
    leBytes 8 (w.fence p.fence).stamp ++ leBytes 8 (w.fence p.fence).discarded : State → List Byte) (fetched s t h (.fenceQuery p))).length ≤ p.res.bytes) :=
  ⟨⟨wired, 0, onQueue 9 (.layerQuery { res := room, output := 511 }), { res := room, output := 511 }, by decide +kernel⟩,
   ⟨ready, 0, onQueue 9 (.fenceQuery { res := room, fence := 255 }), { res := room, fence := 255 }, by decide +kernel⟩⟩

/-! ### Witnesses: packets: audio (table 13.10) -/

theorem test_meets_AudioCommandsWait :
    (∃ (s : State) (t : Tick) (h : Hdr), ∃ p, Immediate s t h (.audioRoute p) ∧
      ((fun w => 1 ≤ p.count ∧ p.count ≤ 256 ∧ p.count = p.entries.length ∧ p.rsvd = 0 ∧ distinct (p.entries.map (·.dst)) = true ∧
      ∀ e ∈ p.entries, w.dstValid e.dst = true ∧ (e.src = 0xFFFF ∨ w.srcValid e.src = true) ∧ e.rsvd = 0 ∧
        (e.gain = -32768 ∨ (-12000 ≤ e.gain ∧ e.gain ≤ 1200))) : State → Prop) (fetched s t h (.audioRoute p))) ∧
    (∃ (s : State) (t : Tick) (h : Hdr), ∃ p, Immediate s t h (.aportMask p) ∧
      ((fun w => p.rsvd = 0 ∧ p.port < 32 ∧ ∃ k, (w.port p.port).cfg = some k ∧ p.diMask < 2 ^ k.slots ∧ p.doMask < 2 ^ k.slots) : State → Prop) (fetched s t h (.aportMask p))) ∧
    (∃ (s : State) (t : Tick) (h : Hdr), ∃ p, Immediate s t h (.audioEmbed p) ∧
      ((fun w => chkAudioEmbed h p w = none) : State → Prop) (fetched s t h (.audioEmbed p))) :=
  ⟨⟨wired.setPort 31 { cfg := some { port := 31, enable := true } }, 0, onQueue 9 (.audioRoute { count := 1, entries := [{ dst := 17376, src := 0xFFFF }] }), { count := 1, entries := [{ dst := 17376, src := 0xFFFF }] }, by decide +kernel⟩,
   ⟨ready.setPort 31 { cfg := some { port := 31, enable := true } }, 0, onQueue 9 (.aportMask { port := 31, diMask := 0, doMask := 255 }), { port := 31, diMask := 0, doMask := 255 }, by exact ⟨by decide +kernel, by decide +kernel, by decide +kernel, { port := 31, enable := true }, by decide +kernel⟩⟩,
   ⟨withBufs wired [audioP], 0, onQueue 9 (.audioEmbed { output := 511, enable := true, ring := 16384 }), { output := 511, enable := true, ring := 16384 }, by decide +kernel⟩⟩

theorem test_meets_PortSetTakesEffect :
    (∃ (s : State) (t : Tick) (h : Hdr) (p : AportSetP), chkAportSet p = none ∧
      Immediate s t h (.aportSet p) ∧
      ((fun w => (w.port p.port).cfg = none ∧ ¬(p.enable = true ∧ p.role = 0)) : State → Prop) (fetched s t h (.aportSet p))) ∧
    (∃ (s : State) (t : Tick) (h : Hdr) (p : AportSetP), chkAportSet p = none ∧
      Immediate s t h (.aportSet p) ∧
      ((fun w => (w.port p.port).cfg = none ∧ p.enable = true ∧ p.role = 0) : State → Prop) (fetched s t h (.aportSet p))) ∧
    (∃ (s : State) (t : Tick) (h : Hdr) (p : AportSetP), ∃ k, chkAportSet p = none ∧
      Immediate s t h (.aportSet p) ∧
      ((fun w => (w.port p.port).cfg = some k ∧ p.enable = true ∧ (w.port p.port).stopping = false ∧ sameTiming k p = true) : State → Prop) (fetched s t h (.aportSet p))) ∧
    (∃ (s : State) (t : Tick) (h : Hdr) (p : AportSetP), ∃ k, chkAportSet p = none ∧
      Immediate s t h (.aportSet p) ∧
      ((fun w => (w.port p.port).cfg = some k ∧ (w.port p.port).stopping = false ∧ ¬(p.enable = true ∧ sameTiming k p = true) ∧
      (w.port p.port).opened = false ∧ ¬(p.enable = true ∧ p.role = 0)) : State → Prop) (fetched s t h (.aportSet p))) ∧
    (∃ (s : State) (t : Tick) (h : Hdr) (p : AportSetP), ∃ k, chkAportSet p = none ∧
      Immediate s t h (.aportSet p) ∧
      ((fun w => (w.port p.port).cfg = some k ∧ (w.port p.port).stopping = false ∧ p.enable = true ∧ sameTiming k p = false ∧
      (w.port p.port).opened = false ∧ p.role = 0) : State → Prop) (fetched s t h (.aportSet p))) ∧
    (∃ (s : State) (t : Tick) (h : Hdr) (p : AportSetP), ∃ k, chkAportSet p = none ∧
      Immediate s t h (.aportSet p) ∧
      ((fun w => (w.port p.port).cfg = some k ∧ ((w.port p.port).stopping = true ∨
      ¬(p.enable = true ∧ sameTiming k p = true) ∧ (w.port p.port).opened = true)) : State → Prop) (fetched s t h (.aportSet p))) :=
  ⟨⟨ready, 0, onQueue 9 (.aportSet { port := 31, enable := true, role := 1 }), { port := 31, enable := true, role := 1 }, by decide +kernel⟩,
   ⟨ready, 0, onQueue 9 (.aportSet { port := 31, enable := true }), { port := 31, enable := true }, by decide +kernel⟩,
   ⟨ready.setPort 31 { cfg := some { port := 31, enable := true } }, 0, onQueue 9 (.aportSet { port := 31, enable := true, doMask := 1 }), { port := 31, enable := true, doMask := 1 }, { port := 31, enable := true }, by decide +kernel⟩,
   ⟨ready.setPort 31 { cfg := some { port := 31, enable := true } }, 0, onQueue 9 (.aportSet { port := 31, enable := false }), { port := 31, enable := false }, { port := 31, enable := true }, by decide +kernel⟩,
   ⟨ready.setPort 31 { cfg := some { port := 31, enable := true } }, 0, onQueue 9 (.aportSet { port := 31, enable := true, fsLow := true }), { port := 31, enable := true, fsLow := true }, { port := 31, enable := true }, by decide +kernel⟩,
   ⟨ready.setPort 31 { cfg := some { port := 31, enable := true }, opened := true }, 0, onQueue 9 (.aportSet { port := 31, enable := false }), { port := 31, enable := false }, { port := 31, enable := true }, by decide +kernel⟩⟩

theorem test_meets_AsrcAndRingBind :
    (∃ (s : State) (t : Tick) (h : Hdr), ∃ p, Immediate s t h (.asrcBind p) ∧
      ((fun _ => p.rsvd = 0 ∧ p.group < 256 ∧ p.op = 0) : State → Prop) (fetched s t h (.asrcBind p))) ∧
    (∃ (s : State) (t : Tick) (h : Hdr), ∃ (p : AsrcBindP) (rate : Nat) (dom : SrcDom), 
    let a (now : Tick) : Asrc := { p := p, inRate := rate, sinceT := now }
    
    let chans := asrcChannels (a 0)
    Immediate s t h (.asrcBind p) ∧
      ((fun w => p.rsvd = 0 ∧ p.group < 256 ∧ p.op = 1 ∧ w.srcInfo p.first = some (rate, dom) ∧
        (p.target < 2 ∧ p.tport = 0 ∨ p.target = 2 ∧ p.tport < 32 ∧ ∃ k, (w.port p.tport).cfg = some k ∧ k.role = 1) ∧
        p.outRate < 6 ∧ p.bw < 3 ∧ 1 ≤ p.count ∧ p.count ≤ 32 ∧ p.first % rateK rate = 0 ∧
        oneSource p.first (chans.getLastD p.first) = true ∧ (∀ c ∈ chans, (w.srcInfo c).isSome = true) ∧
        p.count * max (rateK rate) (rateK p.outRate) ≤ 32 ∧ asrcRatesOk rate p.outRate = true ∧ w.asrc p.group = none ∧
        ∀ c ∈ chans, w.asrcOf c = none) : State → Prop) (fetched s t h (.asrcBind p))) ∧
    (∃ (s : State) (t : Tick) (h : Hdr), ∃ (p : AudioRingBindP), 
    let exact (b : RingBind) : Bool := b.p.kind == p.kind && b.p.first == p.first && b.p.count == p.count
    
    let meets (b : RingBind) : Bool := b.p.kind == p.kind && rangesMeet b.p.first b.p.count p.first p.count
    Immediate s t h (.audioRingBind p) ∧
      ((fun w => p.rsvd = 0 ∧ p.handle = 0 ∧ p.kind < 2 ∧ p.rate < 6 ∧ p.house < 2 ∧ 1 ≤ p.count ∧ p.first + p.count ≤ 1024 ∧
        ∀ b ∈ w.audio.rings, meets b = true → exact b = true) : State → Prop) (fetched s t h (.audioRingBind p))) ∧
    (∃ (s : State) (t : Tick) (h : Hdr), ∃ (p : AudioRingBindP), 
    let meets (b : RingBind) : Bool := b.p.kind == p.kind && rangesMeet b.p.first b.p.count p.first p.count
    ∃ (b : Buf), 
    let bound (w : State) : List RingBind := w.audio.rings ++ [{ p := p, origin := w.ringOrigin p.house p.rate 16 }]
    Immediate s t h (.audioRingBind p) ∧
      ((fun w => p.rsvd = 0 ∧ p.handle ≠ 0 ∧ p.kind < 2 ∧ p.rate < 6 ∧ p.house < 2 ∧ 1 ≤ p.count ∧ p.first + p.count ≤ 1024 ∧
          w.bufAt p.handle = some b ∧ b.params.typ = 4 ∧ p.count ≤ b.params.count ∧
          (p.kind = 0 → 0 ≤ p.delay ∧ p.delay ≤ 2100000) ∧ -2147483648 ≤ p.delay ∧ p.delay ≤ 2147483647 ∧
          (∀ x ∈ w.audio.rings, meets x = false ∧ ¬(x.p.kind = p.kind ∧ x.p.handle = p.handle)) ∧
          w.admission ofRings (ringChargesOf w (embedRings w.pond.charges) (bound w)) = none) : State → Prop) (fetched s t h (.audioRingBind p))) :=
  ⟨⟨ready, 0, onQueue 9 (.asrcBind { group := 255, op := 0 }), { group := 255, op := 0 }, by decide +kernel⟩,
   ⟨ready.setPort 31 { cfg := some { port := 31, enable := true } }, 0, onQueue 9 (.asrcBind { group := 255, op := 1, first := 17376 }), { group := 255, op := 1, first := 17376 }, 2, .grid 0, by decide +kernel⟩,
   ⟨ready, 0, onQueue 9 (.audioRingBind { handle := 0, kind := 1, first := 1023 }), { handle := 0, kind := 1, first := 1023 }, by decide +kernel⟩,
   ⟨withBufs ready [audioP], 0, onQueue 9 (.audioRingBind { handle := 16384, kind := 0, first := 1023, delay := 2100000 }), { handle := 16384, kind := 0, first := 1023, delay := 2100000 }, bufOf audioP 0, by decide +kernel⟩⟩

theorem test_meets_AudioQueryAnswers :
    (∃ (s : State) (t : Tick) (h : Hdr) (p : AudioQueryP), Immediate s t h (.audioQuery p) ∧
      ((fun w => p.channels ≠ [] ∧ p.channels.length ≤ 1024 ∧ p.rsvd = 0 ∧
      (p.side = 0 ∧ (∀ c ∈ p.channels, (w.dstRateOf c).isSome = true) ∨
       p.side = 1 ∧ ∀ c ∈ p.channels, (w.srcInfo c).isSome = true)) : State → Prop) (fetched s t h (.audioQuery p)) ∧
      ((fun w => p.channels.flatMap (w.audioRecord p.side) : State → List Byte) (fetched s t h (.audioQuery p))).length ≤ p.res.bytes) :=
  ⟨ready.setPort 31 { cfg := some { port := 31, enable := true } }, 0, onQueue 9 (.audioQuery { res := room, side := 1, channels := [17376] }), { res := room, side := 1, channels := [17376] }, by decide +kernel⟩

/-! ### Witnesses: packets: clocks, the pair and keys (tables 13.11 to 13.13) -/

theorem test_meets_ClockCommands :
    (∃ (s : State) (t : Tick) (h : Hdr), ∃ p, Immediate s t h (.refSet p) ∧
      ((fun w => chkRefSet p w = none) : State → Prop) (fetched s t h (.refSet p))) ∧
    (∃ (s : State) (t : Tick) (h : Hdr), ∃ p, Immediate s t h (.synthSet p) ∧
      ((fun w => chkSynthSet p w = none) : State → Prop) (fetched s t h (.synthSet p))) ∧
    (∃ (s : State) (t : Tick) (h : Hdr), ∃ p, Immediate s t h (.bandTableSet p) ∧
      ((fun w => (isHouse p.synth || isLane p.synth || isOutlet p.synth) = true ∧ p.rsvd = 0 ∧ p.entries ≠ [] ∧ p.entries.length ≤ 64 ∧
      (∀ e ∈ p.entries, e.2 < 64) ∧ ascending p.entries = true ∧ (∀ e, p.entries.getLast? = some e → e.1 < p.ceiling) ∧
      w.vco p.synth (w.synth p.synth) ≤ p.ceiling ∧ (w.synth p.synth).retuning = false ∧ (w.synth p.synth).searching = false) : State → Prop) (fetched s t h (.bandTableSet p))) ∧
    (∃ (s : State) (t : Tick) (h : Hdr), ∃ p, Immediate s t h (.clkoutSet p) ∧
      ((fun w => chkClkoutSet p w = none) : State → Prop) (fetched s t h (.clkoutSet p))) ∧
    (∃ (s : State) (t : Tick) (h : Hdr), ∃ p, Immediate s t h (.clkoutSync p) ∧
      ((fun w => isOutlet p.synth = true ∧ p.rsvd = 0 ∧ (w.synth p.synth).phaseMode = 0) : State → Prop) (fetched s t h (.clkoutSync p))) ∧
    (∃ (s : State) (t : Tick) (h : Hdr), ∃ p, Immediate s t h (.clockStatus p) ∧
      ((fun _ => True) : State → Prop) (fetched s t h (.clockStatus p)) ∧
      ((fun w => ([255, 0, 1] ++ (List.range 20).map (16 + ·) ++ [64, 65]).flatMap w.clockRecord : State → List Byte) (fetched s t h (.clockStatus p))).length ≤ p.res.bytes) :=
  ⟨⟨ready, 0, onQueue 9 (.refSet { port := 1, enable := true }), { port := 1, enable := true }, by decide +kernel⟩,
   ⟨ready, 0, onQueue 9 (.synthSet { synth := 35, freq := 800000000000 }), { synth := 35, freq := 800000000000 }, by decide +kernel⟩,
   ⟨ready, 0, onQueue 9 (.bandTableSet { synth := 16, ceiling := 2 ^ 63, entries := [(0, 63)] }), { synth := 16, ceiling := 2 ^ 63, entries := [(0, 63)] }, by decide +kernel⟩,
   ⟨ready, 0, onQueue 9 (.clkoutSet { clkout := 15, synth := 35, enable := true, divider := 65535, delay := 2047 }), { clkout := 15, synth := 35, enable := true, divider := 65535, delay := 2047 }, by decide +kernel⟩,
   ⟨ready, 0, onQueue 9 (.clkoutSync { synth := 35 }), { synth := 35 }, by decide +kernel⟩,
   ⟨ready, 0, onQueue 9 (.clockStatus { res := room }), { res := room }, by decide +kernel⟩⟩

theorem test_meets_PairCommands :
    (∃ (s : State) (t : Tick) (h : Hdr), ∃ p, Immediate s t h (.pairSet p) ∧
      ((fun w => p.role = 0 ∧ p.rsvd = 0 ∧ (w.routes.routes.any fun e => e.2.isSome) = false) : State → Prop) (fetched s t h (.pairSet p))) ∧
    (∃ (s : State) (t : Tick) (h : Hdr), ∃ (p : PairSetP), 
    let joins (w : State) : State := if w.pair.role = .solo then
          (w.setPair { w.pair with role := if p.role = 1 then .lead else .mate, authority := p.role == 1,
                                   adopt := p.role == 2 && w.pair.up, mateFailed := false }).fire 977
        else w
    
    let ok (w : State) : Prop := (p.role = 1 ∨ p.role = 2) ∧ p.rsvd = 0 ∧ (w.pair.role = .solo ∨ w.pair.role.code = p.role) ∧
        (w.routes.routes.any fun e => e.2.isSome) = false
    
    let settled (w : State) : Bool := w.pair.up && w.pair.hello.isSome && w.pair.deltaA = 0 && w.pair.deltaB = 0 && !(joins w).pair.adopt
    Immediate s t h (.pairSet p) ∧
      ((fun w => ok w ∧ settled w = false) : State → Prop) (fetched s t h (.pairSet p))) ∧
    (∃ (s : State) (t : Tick) (h : Hdr), ∃ (p : PairSetP), 
    let joins (w : State) : State := if w.pair.role = .solo then
          (w.setPair { w.pair with role := if p.role = 1 then .lead else .mate, authority := p.role == 1,
                                   adopt := p.role == 2 && w.pair.up, mateFailed := false }).fire 977
        else w
    
    let ok (w : State) : Prop := (p.role = 1 ∨ p.role = 2) ∧ p.rsvd = 0 ∧ (w.pair.role = .solo ∨ w.pair.role.code = p.role) ∧
        (w.routes.routes.any fun e => e.2.isSome) = false
    
    let settled (w : State) : Bool := w.pair.up && w.pair.hello.isSome && w.pair.deltaA = 0 && w.pair.deltaB = 0 && !(joins w).pair.adopt
    Immediate s t h (.pairSet p) ∧
      ((fun w => ok w ∧ settled w = true) : State → Prop) (fetched s t h (.pairSet p))) ∧
    (∃ (s : State) (t : Tick) (h : Hdr), ∃ p, Immediate s t h (.pairResync p) ∧
      ((fun w => p.rsvd = 0 ∧ w.pair.role = .lead ∧ w.pair.up = true ∧ w.mateApart = true ∧ w.jobOf isResync = none ∧
      (w.engines.tasks = [] ∨ libHolds w.pair.mateLib (Config.libVersion w.sys.image) = true)) : State → Prop) (fetched s t h (.pairResync p))) ∧
    (∃ (s : State) (t : Tick) (h : Hdr), ∃ p, Immediate s t h (.pairTransfer p) ∧
      ((fun w => p.rsvd = 0 ∧ w.pair.role = .lead ∧ w.pair.sync ≠ .apart ∧ w.jobOf isTransfer = none ∧ 500 ≤ w.windowRoom) : State → Prop) (fetched s t h (.pairTransfer p))) ∧
    (∃ (s : State) (t : Tick) (h : Hdr), ∃ p, Immediate s t h (.pairStatus p) ∧
      ((fun _ => True) : State → Prop) (fetched s t h (.pairStatus p)) ∧
      ((fun w =>
    leBytes 1 w.pair.role.code ++ leBytes 1 w.linkCode ++ leBytes 1 w.pair.sync.code ++ leBytes 1 0 ++ leBytes 4 w.pair.mateFw ++
    leBytes 8 w.pair.inMismatch ++ leBytes 8 w.pair.outMismatch ++ leBytes 8 w.pair.lastStc ++ leBytes 8 w.pair.forwarded ++ leBytes 8 0 : State → List Byte) (fetched s t h (.pairStatus p))).length ≤ p.res.bytes) :=
  ⟨⟨ready.setPair { role := .mate, sync := .lockstep }, 0, onQueue 9 (.pairSet { role := 0 }), { role := 0 }, by decide +kernel⟩,
   ⟨ready, 0, onQueue 9 (.pairSet { role := 2 }), { role := 2 }, by decide +kernel⟩,
   ⟨ready.setPair { up := true, hello := some ⟨2, false, 0, 0, 0, 0, 0, []⟩ }, 0, onQueue 9 (.pairSet { role := 1 }), { role := 1 }, by decide +kernel⟩,
   ⟨ready.setPair { role := .lead, up := true }, 0, onQueue 9 (.pairResync {}), {}, by decide +kernel⟩,
   ⟨ready.setPair { role := .lead, up := true, sync := .lockstep }, 0, onQueue 9 (.pairTransfer {}), {}, by decide +kernel⟩,
   ⟨ready, 0, onQueue 9 (.pairStatus { res := room }), { res := room }, by decide +kernel⟩⟩

theorem test_meets_KeyCommands :
    (∃ (s : State) (t : Tick) (h : Hdr), ∃ p, Immediate s t h (.keyWrite p) ∧
      ((fun w => p.slot < 32 ∧ p.usage < 16 ∧ p.rsvd = 0 ∧ w.keys.latched = 0 ∧
      (p.parent = 255 ∨ p.parent < 32 ∧ w.slotValid p.parent = true ∧ p.parent ≠ p.slot ∧
        (w.descendants p.slot).contains p.parent = false ∧ w.depthUnder p.slot p.parent ≤ 8) ∧
      w.slotRuns p.slot = false ∧ w.laneBound p.slot = false) : State → Prop) (fetched s t h (.keyWrite p))) ∧
    (∃ (s : State) (t : Tick) (h : Hdr), ∃ p, Immediate s t h (.keyDerive p) ∧
      ((fun w => p.slot < 32 ∧ p.parent < 32 ∧ p.usage < 16 ∧ p.label.length ≤ 64 ∧ p.context.length ≤ 64 ∧ p.rsvd = 0 ∧
      w.keys.latched = 0 ∧ (w.slot p.parent).st = 1 ∧ bit (w.slot p.parent).usage 2 = true ∧ p.parent ≠ p.slot ∧
      (w.descendants p.slot).contains p.parent = false ∧ w.depthUnder p.slot p.parent ≤ 8 ∧ w.slotRuns p.slot = false) : State → Prop) (fetched s t h (.keyDerive p))) ∧
    (∃ (s : State) (t : Tick) (h : Hdr), ∃ p, Immediate s t h (.keyInvalidate p) ∧
      ((fun _ => p.slot < 32 ∧ p.rsvd = 0) : State → Prop) (fetched s t h (.keyInvalidate p))) ∧
    (∃ (s : State) (t : Tick) (h : Hdr), ∃ p, Immediate s t h (.queueAuth p) ∧
      ((fun w => p.queue < 10 ∧ p.rsvd = 0 ∧ (p.slot = 255 ∨ p.slot < 32 ∧ (w.slot p.slot).st = 1 ∧ bit (w.slot p.slot).usage 0 = true)) : State → Prop) (fetched s t h (.queueAuth p))) ∧
    (∃ (s : State) (t : Tick) (h : Hdr), ∃ p, Immediate s t h (.laneCryptSet p) ∧
      ((fun w => p.dir = 0 ∧ (w.rxStream p.point).isSome = true ∧
      (p.slot = 255 ∨ p.slot < 32 ∧ (w.slot p.slot).st = 1 ∧ bit (w.slot p.slot).usage 1 = true)) : State → Prop) (fetched s t h (.laneCryptSet p))) ∧
    (∃ (s : State) (t : Tick) (h : Hdr), ∃ p, Immediate s t h (.laneCryptSet p) ∧
      ((fun w => p.dir = 1 ∧ (w.txStream p.point).isSome = true ∧
      (p.slot = 255 ∨ p.slot < 32 ∧ (w.slot p.slot).st = 1 ∧ bit (w.slot p.slot).usage 1 = true)) : State → Prop) (fetched s t h (.laneCryptSet p))) :=
  ⟨⟨ready, 0, onQueue 9 (.keyWrite { slot := 31, usage := 15, parent := 255, key := 1 }), { slot := 31, usage := 15, parent := 255, key := 1 }, by decide +kernel⟩,
   ⟨{ ready with keys := { ready.keys with slots := [(31, { usage := 15, st := 1 })] } }, 0, onQueue 9 (.keyDerive { slot := 0, parent := 31, usage := 1, label := [], context := [] }), { slot := 0, parent := 31, usage := 1, label := [], context := [] }, by decide +kernel⟩,
   ⟨ready, 0, onQueue 9 (.keyInvalidate { slot := 31 }), { slot := 31 }, by decide +kernel⟩,
   ⟨{ ready with keys := { ready.keys with slots := [(31, { usage := 15, st := 1 })] } }, 0, onQueue 9 (.queueAuth { queue := 9, slot := 31 }), { queue := 9, slot := 31 }, by decide +kernel⟩,
   ⟨{ wired with keys := { wired.keys with slots := [(31, { usage := 15, st := 1 })] } }, 0, onQueue 9 (.laneCryptSet { point := 0, dir := 0, slot := 31 }), { point := 0, dir := 0, slot := 31 }, by decide +kernel⟩,
   ⟨{ wired with keys := { wired.keys with slots := [(31, { usage := 15, st := 1 })] } }, 0, onQueue 9 (.laneCryptSet { point := 511, dir := 1, slot := 255 }), { point := 511, dir := 1, slot := 255 }, by decide +kernel⟩⟩

theorem test_meets_TamperAndAttest :
    (∃ (s : State) (t : Tick) (h : Hdr), ∃ p, Immediate s t h (.keyQuery p) ∧
      ((fun _ => True) : State → Prop) (fetched s t h (.keyQuery p)) ∧
      ((fun w => (List.range 32).flatMap fun i =>
    leBytes 1 (w.slot i).usage ++ leBytes 1 (w.slot i).parent ++ leBytes 1 (w.slot i).st ++ leBytes 1 0 ++ leBytes 4 (w.slot i).gen.toNat : State → List Byte) (fetched s t h (.keyQuery p))).length ≤ p.res.bytes) ∧
    (∃ (s : State) (t : Tick) (h : Hdr), ∃ p, Immediate s t h (.tamperSet p) ∧
      ((fun w => p.enables < 128 ∧ p.wake < 2 ∧ p.rsvd = 0 ∧
      (p.clear = true ∨ Nat.land w.keys.enables (Nat.xor 127 (Nat.land p.enables 127)) = 0)) : State → Prop) (fetched s t h (.tamperSet p))) ∧
    (∃ (s : State) (t : Tick) (h : Hdr), ∃ p, Immediate s t h (.tamperStatus p) ∧
      ((fun _ => True) : State → Prop) (fetched s t h (.tamperStatus p)) ∧
      ((fun w =>
    leBytes 2 w.keys.latched ++ leBytes 2 0 ++ leBytes 4 ((w.wear 63).value + w.keys.pendingCount) ++ leBytes 8 w.keys.latchStc : State → List Byte) (fetched s t h (.tamperStatus p))).length ≤ p.res.bytes) ∧
    (∃ (s : State) (t : Tick) (h : Hdr), ∃ p, Immediate s t h (.attest p) ∧
      ((fun w => p.slot < 32 ∧ p.rsvd = 0 ∧ w.keys.latched = 0 ∧ (w.slot p.slot).st = 1 ∧ bit (w.slot p.slot).usage 3 = true) : State → Prop) (fetched s t h (.attest p)) ∧
      ((fun w =>
      let body := beBytes 32 p.nonce ++ (List.range 16).map Config.uid ++ (List.range 48).map (Config.fwDigest w.sys.image) ++ sha256 w.routeTable ++
        leBytes 8 w.stc ++ leBytes 8 0
      body ++ hmac (w.slot p.slot).key body : State → List Byte) (fetched s t h (.attest p))).length ≤ p.res.bytes) :=
  ⟨⟨ready, 0, onQueue 9 (.keyQuery { res := room }), { res := room }, by decide +kernel⟩,
   ⟨ready, 0, onQueue 9 (.tamperSet { enables := 127, wake := 1, clear := true }), { enables := 127, wake := 1, clear := true }, by decide +kernel⟩,
   ⟨ready, 0, onQueue 9 (.tamperStatus { res := room }), { res := room }, by decide +kernel⟩,
   ⟨{ ready with keys := { ready.keys with slots := [(31, { usage := 15, st := 1 })] } }, 0, onQueue 9 (.attest { res := room, slot := 31, nonce := 0 }), { res := room, slot := 31, nonce := 0 }, by decide +kernel⟩⟩

/-! ### Witnesses: packets: parameter store, counters, events, gpio and cp_b (tables 13.14 to 13.16) -/

theorem test_meets_StoreCommands :
    (∃ (s : State) (t : Tick) (h : Hdr), ∃ p, Immediate s t h (.nvRead p) ∧
      ((fun _ => 1 ≤ p.bytes ∧ p.bytes ≤ 65536 ∧ p.addr + p.bytes ≤ 262144) : State → Prop) (fetched s t h (.nvRead p)) ∧
      ((fun w => (List.range p.bytes).map fun i => w.nvByte (p.addr + i) : State → List Byte) (fetched s t h (.nvRead p))).length ≤ p.res.bytes) ∧
    (∃ (s : State) (t : Tick) (h : Hdr), ∃ p, Immediate s t h (.nvWrite p) ∧
      ((fun w => p.data ≠ [] ∧ p.rsvd = 0 ∧ 0x150C0 ≤ p.addr ∧ p.addr + p.data.length ≤ 0x20000 ∧ 2 ≤ p.addr % 64 ∧
      p.addr % 64 + p.data.length ≤ 62 ∧ w.nvProtected p.addr = false ∧ w.nvProtected (p.addr + p.data.length - 1) = false) : State → Prop) (fetched s t h (.nvWrite p))) ∧
    (∃ (s : State) (t : Tick) (h : Hdr), ∃ p, Immediate s t h (.nvProtect p) ∧
      ((fun w => p.field < 4 ∧ p.rsvd = 0 ∧ (w.nvLock = true → p.unlock = true)) : State → Prop) (fetched s t h (.nvProtect p))) ∧
    (∃ (s : State) (t : Tick) (h : Hdr), ∃ p, Immediate s t h (.nvCounter p) ∧
      ((fun _ => p.op = 0 ∧ p.counter < 64 ∧ p.rsvd = 0) : State → Prop) (fetched s t h (.nvCounter p)) ∧
      ((fun w => leBytes 4 (w.wearNow p.counter).value ++ leBytes 2 (w.wearNow p.counter).epoch ++ leBytes 2 0 : State → List Byte) (fetched s t h (.nvCounter p))).length ≤ p.res.bytes) ∧
    (∃ (s : State) (t : Tick) (h : Hdr), ∃ p, Immediate s t h (.nvCounter p) ∧
      ((fun w => p.op = 1 ∧ p.counter < 63 ∧ p.rsvd = 0 ∧ w.sys.mode.config = true ∧ (w.wear p.counter).value < 48000000) : State → Prop) (fetched s t h (.nvCounter p)) ∧
      ((fun w => let x := (w.wearIncrement p.counter (.lastOf w.nextJob)).wear p.counter
      leBytes 4 x.value ++ leBytes 2 x.epoch ++ leBytes 2 0 : State → List Byte) (fetched s t h (.nvCounter p))).length ≤ p.res.bytes) ∧
    (∃ (s : State) (t : Tick) (h : Hdr), ∃ p, Immediate s t h (.auditRead p) ∧
      ((fun _ => p.first < 4096 ∧ 1 ≤ p.count ∧ p.count ≤ 4096 ∧ p.rsvd = 0) : State → Prop) (fetched s t h (.auditRead p)) ∧
      ((fun w => leBytes 4 (w.nv.newest.getD 0xFFFFFFFF) ++ leBytes 4 0 ++ w.nv.chain ++
      (List.range p.count).flatMap fun i => w.auditEntry (p.first + i) : State → List Byte) (fetched s t h (.auditRead p))).length ≤ p.res.bytes) :=
  ⟨⟨ready, 0, onQueue 9 (.nvRead { res := room, addr := 262143, bytes := 1 }), { res := room, addr := 262143, bytes := 1 }, by decide +kernel⟩,
   ⟨ready, 0, onQueue 9 (.nvWrite { addr := 0x1FFC2, data := List.replicate 60 1 }), { addr := 0x1FFC2, data := List.replicate 60 1 }, by decide +kernel⟩,
   ⟨ready, 0, onQueue 9 (.nvProtect { field := 3 }), { field := 3 }, by decide +kernel⟩,
   ⟨ready, 0, onQueue 9 (.nvCounter { res := room, counter := 63, op := 0 }), { res := room, counter := 63, op := 0 }, by decide +kernel⟩,
   ⟨ready, 0, onQueue 9 (.nvCounter { res := room, counter := 62, op := 1 }), { res := room, counter := 62, op := 1 }, by decide +kernel⟩,
   ⟨ready, 0, onQueue 9 (.auditRead { res := room, first := 4095, count := 1 }), { res := room, first := 4095, count := 1 }, by decide +kernel⟩⟩

theorem test_meets_CounterCommands :
    (∃ (s : State) (t : Tick) (h : Hdr), ∃ p, Immediate s t h (.counterRead p) ∧
      ((fun _ => p.ids ≠ [] ∧ p.ids.length ≤ 4096 ∧ p.rsvd = 0 ∧ ∀ i ∈ p.ids, counterKnown i = true) : State → Prop) (fetched s t h (.counterRead p)) ∧
      ((fun w => p.ids.flatMap fun i => match w.cnt.frozen with
      | some (f, stc) => leBytes 8 ((fget {} f i : Counter).value.toNat + b2n (fget {} f i : Counter).ovf * 2 ^ 48) ++ leBytes 8 stc.toNat
      | none => leBytes 8 ((fget {} w.cnt.live i : Counter).value.toNat + b2n (fget {} w.cnt.live i : Counter).ovf * 2 ^ 48) ++
          leBytes 8 w.stc : State → List Byte) (fetched s t h (.counterRead p))).length ≤ p.res.bytes) ∧
    (∃ (s : State) (t : Tick) (h : Hdr), ∃ p, Immediate s t h (.counterSnapshot p) ∧
      ((fun _ => p.op < 2 ∧ p.rsvd = 0) : State → Prop) (fetched s t h (.counterSnapshot p))) ∧
    (∃ (s : State) (t : Tick) (h : Hdr), ∃ p, Immediate s t h (.monitorSet p) ∧
      ((fun w => p.monitor < 2048 ∧ portKnown p.port = true ∧ (w.raster? p.raster).isSome = true ∧ p.lines < 65536) : State → Prop) (fetched s t h (.monitorSet p))) ∧
    (∃ (s : State) (t : Tick) (h : Hdr), ∃ p, Immediate s t h (.monitorRead p) ∧
      ((fun _ => p.first < 2048 ∧ 1 ≤ p.count ∧ p.first + p.count ≤ 2048) : State → Prop) (fetched s t h (.monitorRead p)) ∧
      ((fun w => (List.range p.count).flatMap fun i =>
      leBytes 8 (w.monitor (p.first + i)).lastBytes ++ leBytes 8 (w.monitor (p.first + i)).lastStart.toNat ++
      leBytes 8 (w.monitor (p.first + i)).lastEnd.toNat : State → List Byte) (fetched s t h (.monitorRead p))).length ≤ p.res.bytes) :=
  ⟨⟨ready, 0, onQueue 9 (.counterRead { res := room, ids := [0], clearOvf := true }), { res := room, ids := [0], clearOvf := true }, by decide +kernel⟩,
   ⟨ready, 0, onQueue 9 (.counterSnapshot { op := 1 }), { op := 1 }, by decide +kernel⟩,
   ⟨ready, 0, onQueue 9 (.monitorSet { monitor := 2047, port := 0, raster := 1, lines := 65535 }), { monitor := 2047, port := 0, raster := 1, lines := 65535 }, by decide +kernel⟩,
   ⟨ready, 0, onQueue 9 (.monitorRead { res := room, first := 2047, count := 1 }), { res := room, first := 2047, count := 1 }, by decide +kernel⟩⟩

theorem test_meets_HubCommands :
    (∃ (s : State) (t : Tick) (h : Hdr), ∃ p, Immediate s t h (.eventRoute p) ∧
      ((fun _ => p.first < 1023 ∧ 1 ≤ p.count ∧ p.first + p.count ≤ 1023 ∧ p.targets < 8 ∧ p.cls < 2 ∧ p.rsvd = 0) : State → Prop) (fetched s t h (.eventRoute p))) ∧
    (∃ (s : State) (t : Tick) (h : Hdr), ∃ p, Immediate s t h (.gpioSet p) ∧
      ((fun w => p.pin < 16 ∧ p.dir < 3 ∧ p.level < 2 ∧ p.owner < 2 ∧ ((w.gpio p.pin).cpb = true → h.queue = 8)) : State → Prop) (fetched s t h (.gpioSet p))) ∧
    (∃ (s : State) (t : Tick) (h : Hdr), ∃ p, Immediate s t h (.gpioEdge p) ∧
      ((fun w => ∀ i < 16, bit p.mask i = true → (w.gpio i).cpb = true → h.queue = 8) : State → Prop) (fetched s t h (.gpioEdge p))) ∧
    (∃ (s : State) (t : Tick) (h : Hdr), ∃ p, Immediate s t h (.gpioRead p) ∧
      ((fun _ => True) : State → Prop) (fetched s t h (.gpioRead p)) ∧
      ((fun w =>
    leBytes 2 (w.gpioMask Gpio.pin) ++ leBytes 2 (w.gpioMask fun x => x.dir != 0) ++ leBytes 2 (w.gpioMask fun x => x.cpb) ++ leBytes 2 0 : State → List Byte) (fetched s t h (.gpioRead p))).length ≤ p.res.bytes) ∧
    (∃ (s : State) (t : Tick) (h : Hdr), ∃ p, Immediate s t h (.cpbLoad p) ∧
      ((fun w => h.queue < 8 ∧ p.rsvd = 0 ∧ 36 ≤ p.bytes ∧ p.bytes % 4 = 0 ∧ p.addr + p.bytes ≤ 1048576 ∧ p.image.length = p.bytes ∧
      w.hub.cpB.running = false) : State → Prop) (fetched s t h (.cpbLoad p))) ∧
    (∃ (s : State) (t : Tick) (h : Hdr), ∃ p, Immediate s t h (.cpbCtrl p) ∧
      ((fun _ => h.queue < 8 ∧ p.op = 0 ∧ p.rsvd = 0) : State → Prop) (fetched s t h (.cpbCtrl p))) ∧
    (∃ (s : State) (t : Tick) (h : Hdr), ∃ p, Immediate s t h (.cpbCtrl p) ∧
      ((fun _ => h.queue < 8 ∧ p.op = 1 ∧ p.rsvd = 0 ∧ p.entry % 4 = 0 ∧ p.entry < 1048576) : State → Prop) (fetched s t h (.cpbCtrl p))) ∧
    (∃ (s : State) (t : Tick) (h : Hdr), ∃ p, Immediate s t h (.cpbCtrl p) ∧
      ((fun _ => h.queue < 8 ∧ p.op = 2 ∧ p.rsvd = 0) : State → Prop) (fetched s t h (.cpbCtrl p))) :=
  ⟨⟨ready, 0, onQueue 9 (.eventRoute { first := 1022, count := 1, targets := 7, cls := 1 }), { first := 1022, count := 1, targets := 7, cls := 1 }, by decide +kernel⟩,
   ⟨ready, 0, onQueue 9 (.gpioSet { pin := 15, dir := 2, level := 1, owner := 1 }), { pin := 15, dir := 2, level := 1, owner := 1 }, by decide +kernel⟩,
   ⟨ready, 0, onQueue 9 (.gpioEdge { mask := 65535, value := 0 }), { mask := 65535, value := 0 }, by decide +kernel⟩,
   ⟨ready, 0, onQueue 9 (.gpioRead { res := room }), { res := room }, by decide +kernel⟩,
   ⟨served, 0, onQueue 0 (.cpbLoad { addr := 1048540, hostAddr := 0, bytes := 36, image := List.replicate 36 0 }), { addr := 1048540, hostAddr := 0, bytes := 36, image := List.replicate 36 0 }, by decide +kernel⟩,
   ⟨served, 0, onQueue 0 (.cpbCtrl { op := 0 }), { op := 0 }, by decide +kernel⟩,
   ⟨served, 0, onQueue 0 (.cpbCtrl { op := 1, entry := 1048572 }), { op := 1, entry := 1048572 }, by decide +kernel⟩,
   ⟨served, 0, onQueue 0 (.cpbCtrl { op := 2 }), { op := 2 }, by decide +kernel⟩⟩

/-! ### Witnesses: registers (tables 12.3, 12.8 and 18.1) -/

theorem test_meets_QueueRegistersWrite :
    (∃ (s : State) (t : Tick) (q value : Nat), 
    let there (w : State) : Prop := w.senderOk q = true
    
    let off := value % 2 ^ 17
    
    let good (w : State) : Prop := off % 4 = 0 ∧ off < w.ringBytes q
    q < 9 ∧
      s.sys.stage ≠ .inReset ∧
      ((fun w => there w ∧ good w) : State → Prop) (s.advance t)) ∧
    (∃ (s : State) (t : Tick) (q value : Nat), 
    let there (w : State) : Prop := w.senderOk q = true
    
    let off := value % 2 ^ 17
    
    let good (w : State) : Prop := off % 4 = 0 ∧ off < w.ringBytes q
    q < 9 ∧
      s.sys.stage ≠ .inReset ∧
      ((fun w => there w ∧ ¬good w) : State → Prop) (s.advance t)) ∧
    (∃ (s : State) (t : Tick) (q value : Nat), 
    let there (w : State) : Prop := w.senderOk q = true
    
    let off := value % 2 ^ 17
    
    let good (w : State) : Prop := off % 4 = 0 ∧ off < w.ringBytes q
    q < 9 ∧
      q = 8 ∧
      s.sys.stage ≠ .inReset ∧
      ((fun w => there w ∧ good w) : State → Prop) (s.advance t)) ∧
    (∃ (s : State) (t : Tick) (q value : Nat), 
    let there (w : State) : Prop := w.senderOk q = true
    
    let off := value % 2 ^ 17
    
    let good (w : State) : Prop := off % 4 = 0 ∧ off < w.ringBytes q
    q < 9 ∧
      q = 8 ∧
      s.sys.stage ≠ .inReset ∧
      ((fun w => there w ∧ ¬good w) : State → Prop) (s.advance t)) ∧
    (∃ (s : State) (t : Tick) (q : Nat), 
    let there (w : State) : Prop := w.senderOk q = true
    q < 9 ∧
      s.sys.stage ≠ .inReset ∧
      (there : State → Prop) (s.advance t)) ∧
    (∃ (s : State) (t : Tick) (q : Nat), 
    let there (w : State) : Prop := w.senderOk q = true
    q < 9 ∧
      q = 8 ∧
      s.sys.stage ≠ .inReset ∧
      (there : State → Prop) (s.advance t)) ∧
    (∃ (s : State) (t : Tick) (q : Nat), 
    let there (w : State) : Prop := w.senderOk q = true
    q < 9 ∧
      s.sys.stage ≠ .inReset ∧
      (there : State → Prop) (s.advance t)) ∧
    (∃ (s : State) (t : Tick) (q : Nat), 
    let there (w : State) : Prop := w.senderOk q = true
    q < 9 ∧
      s.sys.stage ≠ .inReset ∧
      (there : State → Prop) (s.advance t)) ∧
    (∃ (s : State) (t : Tick) (q : Nat), 
    let there (w : State) : Prop := w.senderOk q = true
    q < 9 ∧
      s.sys.stage ≠ .inReset ∧
      ((fun w => there w ∧ (w.queue q).error = true ∧ (w.queue q).errCause = 2) : State → Prop) (s.advance t)) ∧
    (∃ (s : State) (t : Tick) (q : Nat), 
    let there (w : State) : Prop := w.senderOk q = true
    q < 9 ∧
      s.sys.stage ≠ .inReset ∧
      ((fun w => there w ∧ (w.queue q).errCause ≠ 2) : State → Prop) (s.advance t)) :=
  ⟨⟨ready, 0, 7, 131068, by decide +kernel⟩,
   ⟨ready, 0, 7, 131071, by decide +kernel⟩,
   ⟨cpbOn, 0, 8, 4092, by decide +kernel⟩,
   ⟨cpbOn, 0, 8, 4096, by decide +kernel⟩,
   ⟨ready, 0, 0, by decide +kernel⟩,
   ⟨cpbOn, 0, 8, by decide +kernel⟩,
   ⟨ready, 0, 7, by decide +kernel⟩,
   ⟨ready, 0, 7, by decide +kernel⟩,
   ⟨ready.setQueue 7 { error := true, errCause := 2 }, 0, 7, by decide +kernel⟩,
   ⟨ready, 0, 7, by decide +kernel⟩⟩

theorem test_meets_ClaimAndComplete :
    (∃ (s : State) (t : Tick) (target i : Nat), s.sys.stage ≠ .inReset ∧
      ((fun w => w.targetOk target = true ∧ (w.source i).st = .pending ∧ bit (w.source i).mask target = true) : State → Prop) (s.advance t)) ∧
    (∃ (s : State) (t : Tick) (target i : Nat), s.sys.stage ≠ .inReset ∧
      ((fun w => w.targetOk target = true ∧ ((w.source i).st ≠ .pending ∨ bit (w.source i).mask target = false)) : State → Prop) (s.advance t)) ∧
    (∃ (s : State) (t : Tick) (target i : Nat), s.sys.stage ≠ .inReset ∧
      ((fun w => w.targetOk target = true ∧ (w.source i).claimant = target ∧ (w.source i).st = .active) : State → Prop) (s.advance t)) ∧
    (∃ (s : State) (t : Tick) (target i : Nat), s.sys.stage ≠ .inReset ∧
      ((fun w => w.targetOk target = true ∧ (w.source i).claimant = target ∧ (w.source i).st = .activePending) : State → Prop) (s.advance t)) ∧
    (∃ (s : State) (t : Tick) (target i : Nat), s.sys.stage ≠ .inReset ∧
      ((fun w => w.targetOk target = true ∧ (w.source i).claimant ≠ target) : State → Prop) (s.advance t)) :=
  ⟨⟨ready.setSource 1022 { st := .pending, mask := 4 }, 0, 2, 1022, by decide +kernel⟩,
   ⟨ready, 0, 2, 1022, by decide +kernel⟩,
   ⟨ready.setSource 1022 { st := .active, mask := 4, claimant := 2 }, 0, 2, 1022, by decide +kernel⟩,
   ⟨ready.setSource 1022 { st := .activePending, mask := 4, claimant := 2 }, 0, 2, 1022, by decide +kernel⟩,
   ⟨ready, 0, 2, 1022, by decide +kernel⟩⟩

theorem test_meets_CounterRegisters :
    (∃ (s : State) (t : Tick) (cpb : Bool) (id_ : Nat), 
    let there (w : State) : Prop := (if cpb then w.cpbOk else w.hostOk) = true
    s.sys.stage ≠ .inReset ∧
      ((fun w => there w ∧ counterKnown id_ = true ∧ w.cnt.frozen = none) : State → Prop) (s.advance t)) ∧
    (∃ (s : State) (t : Tick) (cpb : Bool) (id_ : Nat), 
    let there (w : State) : Prop := (if cpb then w.cpbOk else w.hostOk) = true
    ∃ f st, s.sys.stage ≠ .inReset ∧
      ((fun w => there w ∧ counterKnown id_ = true ∧ w.cnt.frozen = some (f, st)) : State → Prop) (s.advance t)) ∧
    (∃ (s : State) (t : Tick) (cpb : Bool) (id_ : Nat), 
    let there (w : State) : Prop := (if cpb then w.cpbOk else w.hostOk) = true
    s.sys.stage ≠ .inReset ∧
      ((fun w => there w ∧ counterKnown id_ = false) : State → Prop) (s.advance t)) ∧
    (∃ (s : State) (t : Tick) (cpb : Bool), 
    let there (w : State) : Prop := (if cpb then w.cpbOk else w.hostOk) = true
    
    let sel (w : State) : Nat := if cpb then w.hub.latchB.sel else w.hub.latchHost.sel
    s.sys.stage ≠ .inReset ∧
      ((fun w => there w ∧ counterKnown (sel w) = true) : State → Prop) (s.advance t)) ∧
    (∃ (s : State) (t : Tick) (cpb : Bool), 
    let there (w : State) : Prop := (if cpb then w.cpbOk else w.hostOk) = true
    
    let sel (w : State) : Nat := if cpb then w.hub.latchB.sel else w.hub.latchHost.sel
    s.sys.stage ≠ .inReset ∧
      ((fun w => there w ∧ counterKnown (sel w) = false) : State → Prop) (s.advance t)) ∧
    (∃ (s : State) (t : Tick), s.sys.stage ≠ .inReset ∧
      ((fun w => w.hostOk = true) : State → Prop) (s.advance t)) :=
  ⟨⟨ready, 0, false, 0, by decide +kernel⟩,
   ⟨{ ready with cnt := { frozen := some ([], 5) } }, 0, false, 0, [], 5, by decide +kernel⟩,
   ⟨ready, 0, false, 0xFFFFFF, by decide +kernel⟩,
   ⟨ready, 0, false, by decide +kernel⟩,
   ⟨{ cpbOn with hub := { cpbOn.hub with latchB := { sel := 0xFFFFFF } } }, 0, true, by decide +kernel⟩,
   ⟨ready, 0, by decide +kernel⟩⟩

theorem test_meets_CpbRegisters :
    (∃ (s : State) (t : Tick) (v : Nat), s.sys.stage ≠ .inReset ∧
      ((fun w => w.cpbOk = true ∧ 1008 ≤ v ∧ v ≤ 1015) : State → Prop) (s.advance t)) ∧
    (∃ (s : State) (t : Tick) (v : Nat), s.sys.stage ≠ .inReset ∧
      ((fun w => w.cpbOk = true ∧ ¬(1008 ≤ v ∧ v ≤ 1015)) : State → Prop) (s.advance t)) ∧
    (∃ (s : State) (t : Tick) (v : Nat), s.sys.stage ≠ .inReset ∧
      ((fun w => w.cpbOk = true ∧ w.stc < v) : State → Prop) (s.advance t)) ∧
    (∃ (s : State) (t : Tick) (v : Nat), s.sys.stage ≠ .inReset ∧
      ((fun w => w.cpbOk = true ∧ v ≤ w.stc) : State → Prop) (s.advance t)) ∧
    (∃ (s : State) (t : Tick), s.sys.stage ≠ .inReset ∧
      ((fun w => w.cpbOk = true) : State → Prop) (s.advance t)) ∧
    (∃ (s : State) (t : Tick), s.sys.stage ≠ .inReset ∧
      ((fun w => w.cpbOk = true) : State → Prop) (s.advance t)) ∧
    (∃ (s : State) (t : Tick), s.sys.stage ≠ .inReset ∧
      ((fun w => w.cpbOk = true) : State → Prop) (s.advance t)) ∧
    (∃ (s : State) (t : Tick) (a size : Nat), s.sys.stage ≠ .inReset ∧
      ((fun w => w.cpbOk = true ∧ w.hub.cpB.seq = .run ∧ cpbAccepts a size = false) : State → Prop) (s.advance t)) ∧
    (∃ (s : State) (t : Tick) (a size : Nat), s.sys.stage ≠ .inReset ∧
      ((fun w => w.cpbOk = true ∧ cpbAccepts a size = true) : State → Prop) (s.advance t)) :=
  ⟨⟨cpbOn, 0, 1015, by decide +kernel⟩,
   ⟨cpbOn, 0, 1016, by decide +kernel⟩,
   ⟨cpbOn, 0, 1, by decide +kernel⟩,
   ⟨cpbOn, 0, 0, by decide +kernel⟩,
   ⟨cpbOn, 0, by decide +kernel⟩,
   ⟨cpbOn, 0, by decide +kernel⟩,
   ⟨cpbOn, 0, by decide +kernel⟩,
   ⟨cpbOn, 0, 0xFFFFFFFF, 4, by decide +kernel⟩,
   ⟨cpbOn, 0, 0x20000000, 4, by decide +kernel⟩⟩

theorem test_meets_RegisterWrites :
    (∃ (s : State) (t : Tick) (q v : Nat), 
    let x (w : State) := w.queue q
    q < 8 ∧
      s.sys.stage ≠ .inReset ∧
      ((fun w => w.hostOk = true ∧ (x w).enable = false ∧ v < 2 ^ 64 ∧ v % 4096 = 0) : State → Prop) (s.advance t)) ∧
    (∃ (s : State) (t : Tick) (q v : Nat), 
    let x (w : State) := w.queue q
    q < 8 ∧
      s.sys.stage ≠ .inReset ∧
      ((fun w => w.hostOk = true ∧ (x w).enable = false ∧ v % 4096 = 0) : State → Prop) (s.advance t)) ∧
    (∃ (s : State) (t : Tick) (q v : Nat), 
    let x (w : State) := w.queue q
    q < 8 ∧
      s.sys.stage ≠ .inReset ∧
      ((fun w => w.hostOk = true ∧ (x w).enable = false ∧ 6 ≤ v % 16 ∧ v % 16 ≤ 12) : State → Prop) (s.advance t)) ∧
    (∃ (s : State) (t : Tick) (q n : Nat), q < 8 ∧
      s.sys.stage ≠ .inReset ∧
      ((fun w => w.hostOk = true ∧ n < 256) : State → Prop) (s.advance t)) ∧
    (∃ (s : State) (t : Tick) (q v : Nat), q < 8 ∧
      s.sys.stage ≠ .inReset ∧
      ((fun w => w.cpbOk = true ∧ (w.queue 8).enable = false ∧ v % 256 = 0) : State → Prop) (s.advance t)) ∧
    (∃ (s : State) (t : Tick) (q v : Nat), q < 8 ∧
      s.sys.stage ≠ .inReset ∧
      ((fun w => w.cpbOk = true ∧ (w.queue 8).enable = false ∧ ∃ k, 12 ≤ k ∧ k ≤ 17 ∧ v = 2 ^ k) : State → Prop) (s.advance t)) ∧
    (∃ (s : State) (t : Tick) (q v : Nat), q < 8 ∧
      s.sys.stage ≠ .inReset ∧
      ((fun w => w.cpbOk = true ∧ (w.queue 8).enable = false ∧ v % 32 = 0) : State → Prop) (s.advance t)) ∧
    (∃ (s : State) (t : Tick) (q v : Nat), q < 8 ∧
      s.sys.stage ≠ .inReset ∧
      ((fun w => w.cpbOk = true ∧ (w.queue 8).enable = false ∧ 4 ≤ v % 16 ∧ v % 16 ≤ 12) : State → Prop) (s.advance t)) ∧
    (∃ (s : State) (t : Tick) (q : Nat), ∃ (off size : Nat), q < 8 ∧
      (size ≠ 4 ∧ size ≠ 8 ∨ off % size ≠ 0) ∧
      s.sys.stage ≠ .inReset ∧
      ((fun _ => True) : State → Prop) (s.advance t)) :=
  ⟨⟨ready, 0, 7, 2 ^ 64 - 4096, by decide +kernel⟩,
   ⟨ready, 0, 7, 4096, by decide +kernel⟩,
   ⟨ready, 0, 7, 12, by decide +kernel⟩,
   ⟨ready, 0, 0, 255, by decide +kernel⟩,
   ⟨cpbOn, 0, 0, 256, by decide +kernel⟩,
   ⟨cpbOn, 0, 0, 131072, by exact ⟨by decide, by decide, by decide +kernel, by decide +kernel, 17, by decide, by decide, by decide⟩⟩,
   ⟨cpbOn, 0, 0, 32, by decide +kernel⟩,
   ⟨cpbOn, 0, 0, 4, by decide +kernel⟩,
   ⟨ready, 0, 0, 2, 4, by decide +kernel⟩⟩

theorem test_meets_SpiPort :
    (∃ (s : State) (t : Tick), s.sys.stage ≠ .inReset ∧
      ((fun w => w.rxReady = false) : State → Prop) (s.advance t)) ∧
    (∃ (s : State) (t : Tick) (pk : Packet) (n : Nat) (good : Bool), s.sys.stage ≠ .inReset ∧
      ((fun w => w.rxReady = true ∧ (good = false ∨ n ≠ 4 * pk.hdr.length + 4)) : State → Prop) (s.advance t)) ∧
    (∃ (s : State) (t : Tick) (pk : Packet), s.sys.stage ≠ .inReset ∧
      ((fun w => w.rxReady = true ∧ w.fetches 9 = true ∧ (w.holds 9 = true ∨ w.fifoRoom pk = false)) : State → Prop) (s.advance t)) ∧
    (∃ (s : State) (pk : Packet), ∃ (p : SysWakeSetP), s.sys.stage ≠ .inReset ∧
      pk.params = .sysWakeSet p ∧
      pk.hdr.queue = 9) ∧
    (∃ (s : State) (t : Tick), s.sys.stage ≠ .inReset ∧
      ((fun w => w.spi.fifo = []) : State → Prop) (s.advance t)) ∧
    (∃ (s : State) (t : Tick) (n : Nat) (r : List Byte) (rest : List (List Byte)), s.sys.stage ≠ .inReset ∧
      ((fun w => w.spi.fifo = r :: rest ∧ 24 ≤ n) : State → Prop) (s.advance t)) ∧
    (∃ (s : State) (t : Tick) (n : Nat) (r : List Byte) (rest : List (List Byte)), s.sys.stage ≠ .inReset ∧
      ((fun w => w.spi.fifo = r :: rest ∧ n < 24) : State → Prop) (s.advance t)) ∧
    (∃ (s : State) (t : Tick), s.sys.stage ≠ .inReset ∧
      ((fun _ => True) : State → Prop) (s.advance t)) :=
  ⟨⟨{ ready with spi := { buffer := some ⟨{}, .pairResync {}⟩ } }, 0, by decide +kernel⟩,
   ⟨ready, 0, ⟨{}, .pairResync {}⟩, 27, false, by decide +kernel⟩,
   ⟨{ ready with spi := { fifo := List.replicate 31 [] } }, 0, ⟨{}, .pairResync {}⟩, by decide +kernel⟩,
   ⟨ready, ⟨{ queue := 9 }, .sysWakeSet { enables := 0, timer := 0 }⟩, { enables := 0, timer := 0 }, by decide +kernel⟩,
   ⟨ready, 0, by decide +kernel⟩,
   ⟨{ ready with spi := { fifo := [[1]] } }, 0, 24, [1], [], by decide +kernel⟩,
   ⟨{ ready with spi := { fifo := [[1]] } }, 0, 23, [1], [], by decide +kernel⟩,
   ⟨ready, 0, by decide +kernel⟩⟩

/-! ### Witnesses: lanes, groups and superframes (chapters 4 and 5) -/

theorem test_meets_LaneStatesMove :
    (∃ (s : State) (t : Tick) (b k : Nat), 
    let lane (w : State) : RxLane := rxLaneOf (w.rxDir b) k
    b < 65 ∧
      k < (if b = 64 then 4 else 8) ∧
      s.sys.stage ≠ .inReset ∧
      ((fun w => (lane w).st = .hunt) : State → Prop) (s.advance t)) ∧
    (∃ (s : State) (t : Tick) (b k : Nat), 
    let lane (w : State) : RxLane := rxLaneOf (w.rxDir b) k
    b < 65 ∧
      k < (if b = 64 then 4 else 8) ∧
      s.sys.stage ≠ .inReset ∧
      ((fun w => (lane w).st ≠ .hunt) : State → Prop) (s.advance t)) ∧
    (∃ (s : State) (t : Tick) (b k : Nat), 
    let lane (w : State) : RxLane := rxLaneOf (w.rxDir b) k
    b < 65 ∧
      k < (if b = 64 then 4 else 8) ∧
      s.sys.stage ≠ .inReset ∧
      ((fun w => (lane w).st = .confirm ∧ 3 ≤ (lane w).confirms) : State → Prop) (s.advance t)) ∧
    (∃ (s : State) (t : Tick) (b k : Nat), 
    let lane (w : State) : RxLane := rxLaneOf (w.rxDir b) k
    b < 65 ∧
      k < (if b = 64 then 4 else 8) ∧
      s.sys.stage ≠ .inReset ∧
      ((fun w => (lane w).st = .seed ∧ (lane w).seedOk = true) : State → Prop) (s.advance t)) ∧
    (∃ (s : State) (t : Tick) (b k : Nat), 
    let lane (w : State) : RxLane := rxLaneOf (w.rxDir b) k
    b < 65 ∧
      k < (if b = 64 then 4 else 8) ∧
      s.sys.stage ≠ .inReset ∧
      ((fun w => (lane w).st = .seed ∧ 16 ≤ (lane w).seedRun ∧ (lane w).seedOk = false) : State → Prop) (s.advance t)) ∧
    (∃ (s : State) (t : Tick) (b k : Nat), 
    let lane (w : State) : RxLane := rxLaneOf (w.rxDir b) k
    b < 65 ∧
      k < (if b = 64 then 4 else 8) ∧
      s.sys.stage ≠ .inReset ∧
      ((fun w => (lane w).st = .seed ∧ 2 ≤ (lane w).missRun) : State → Prop) (s.advance t)) ∧
    (∃ (s : State) (t : Tick) (b k : Nat), 
    let lane (w : State) : RxLane := rxLaneOf (w.rxDir b) k
    b < 65 ∧
      k < (if b = 64 then 4 else 8) ∧
      s.sys.stage ≠ .inReset ∧
      ((fun w => (lane w).st = .locked ∧ (2 ≤ (lane w).missRun ∨ 4 ≤ (lane w).crcRun ∨ 2 ≤ (lane w).sfcRun)) : State → Prop) (s.advance t)) ∧
    (∃ (s : State) (t : Tick) (b k : Nat), 
    let lane (w : State) : RxLane := rxLaneOf (w.rxDir b) k
    b < 65 ∧
      k < (if b = 64 then 4 else 8) ∧
      s.sys.stage ≠ .inReset ∧
      ((fun w => (lane w).st = .locked ∧ (lane w).missRun < 2 ∧ (lane w).crcRun < 4 ∧ (lane w).sfcRun < 2) : State → Prop) (s.advance t)) :=
  ⟨⟨onLane { st := .hunt }, 0, 63, 7, by decide +kernel⟩,
   ⟨ready, 0, 63, 7, by decide +kernel⟩,
   ⟨onLane { st := .confirm, confirms := 3 }, 0, 63, 7, by decide +kernel⟩,
   ⟨onLane { st := .seed, seedOk := true }, 0, 63, 7, by decide +kernel⟩,
   ⟨onLane { st := .seed, seedRun := 16 }, 0, 63, 7, by decide +kernel⟩,
   ⟨onLane { st := .seed, missRun := 2 }, 0, 63, 7, by decide +kernel⟩,
   ⟨onLane { st := .locked, crcRun := 4 }, 0, 63, 7, by decide +kernel⟩,
   ⟨onLane { st := .locked, missRun := 1, crcRun := 3, sfcRun := 1 }, 0, 63, 7, by decide +kernel⟩⟩

theorem test_meets_SuperframeStepsLane :
    (∃ (s : State) (t : Tick) (b k : Nat) (sf : Superframe), b < 65 ∧
      k < (if b = 64 then 4 else 8) ∧
      s.sys.stage ≠ .inReset ∧
      ((fun w => w.arriving b k sf = none) : State → Prop) (s.advance t)) ∧
    (∃ (s : State) (t : Tick) (b k : Nat) (sf f : Superframe), 
    let lane (w : State) : RxLane := rxLaneOf (w.rxDir b) k
    
    let gets (w : State) : Prop := w.arriving b k sf = some f
    b < 65 ∧
      k < (if b = 64 then 4 else 8) ∧
      s.sys.stage ≠ .inReset ∧
      ((fun w => gets w ∧ ((lane w).st = .idle ∨ (lane w).st = .hunt ∨ (lane w).st = .test)) : State → Prop) (s.advance t)) ∧
    (∃ (s : State) (t : Tick) (b k : Nat) (sf f : Superframe), 
    let lane (w : State) : RxLane := rxLaneOf (w.rxDir b) k
    
    let gets (w : State) : Prop := w.arriving b k sf = some f
    b < 65 ∧
      k < (if b = 64 then 4 else 8) ∧
      s.sys.stage ≠ .inReset ∧
      ((fun w => gets w ∧ (lane w).st = .confirm ∧ f.comma = 0) : State → Prop) (s.advance t)) ∧
    (∃ (s : State) (t : Tick) (b k : Nat) (sf f : Superframe), 
    let lane (w : State) : RxLane := rxLaneOf (w.rxDir b) k
    
    let gets (w : State) : Prop := w.arriving b k sf = some f
    b < 65 ∧
      k < (if b = 64 then 4 else 8) ∧
      s.sys.stage ≠ .inReset ∧
      ((fun w => gets w ∧ (lane w).st = .confirm ∧ f.comma ≠ 0) : State → Prop) (s.advance t)) ∧
    (∃ (s : State) (t : Tick) (b k : Nat) (sf f : Superframe), 
    let lane (w : State) : RxLane := rxLaneOf (w.rxDir b) k
    
    let gets (w : State) : Prop := w.arriving b k sf = some f
    b < 65 ∧
      k < (if b = 64 then 4 else 8) ∧
      s.sys.stage ≠ .inReset ∧
      ((fun w => gets w ∧ (lane w).st = .seed) : State → Prop) (s.advance t)) ∧
    (∃ (s : State) (t : Tick) (b k : Nat) (sf f : Superframe), 
    let at_ (w : State) (l : RxLane) : State := w.setRx b { w.rxDir b with lanes := setAt (w.rxDir b).lanes k l }
    
    let lane (w : State) : RxLane := rxLaneOf (w.rxDir b) k
    
    let miss (l : RxLane) : Nat := if 2 < f.comma then l.missRun + 1 else 0
    
    let counted (symbols sfcErrors : Nat) (w : State) : State :=
      let u := laneUnit b k
      ((((((w.count 1 u 0 symbols).count 1 u 1 f.stuffBits).count 1 u 2 f.violations).count 1 u 3 (if f.crcOk then 0 else 1)).count 1 u 4
        (if f.comma = 1 ∨ f.comma = 2 then 1 else 0)).count 1 u 5 (if 2 < f.comma then 1 else 0)).count 1 u 6 sfcErrors
    
    let locked (w : State) : State :=
      let l := lane w
      let e := (l.sfc + 1) % 2 ^ 32
      at_ (counted 4096 (if f.sfc = e then 0 else 1) w) { l with
        missRun := miss l, crcRun := if f.crcOk then 0 else l.crcRun + 1, sfcRun := if f.sfc = e then 0 else l.sfcRun + 1, sfc := e,
        cleanRun := if f.withdrawn then 0 else l.cleanRun + 1, withdrawn := f.withdrawn, bcIn := if f.crcOk then f.bc else l.bcIn,
        held := some f, delivered := false, arrival := w.now - superframeTicks (w.rxDir b).rate,
        dwell := l.dwell + (if f.crcOk = true ∧ f.comma ≤ 2 then total ones f.payload else 81740), dwellN := l.dwellN + 1 }
    
    let fir (w : State) : Prop := (w.rxDir b).phase = .fir
    
    let due (w : State) : Prop := f.adaptDue = true ∧ (w.rxDir b).adapt = true ∧ w.inPresent b k = false
    
    let gets (w : State) : Prop := w.arriving b k sf = some f
    b < 65 ∧
      k < (if b = 64 then 4 else 8) ∧
      s.sys.stage ≠ .inReset ∧
      ((fun w => gets w ∧ (lane w).st = .locked ∧ ¬fir w ∧ ¬due w) : State → Prop) (s.advance t)) ∧
    (∃ (s : State) (t : Tick) (b k : Nat) (sf f : Superframe), 
    let at_ (w : State) (l : RxLane) : State := w.setRx b { w.rxDir b with lanes := setAt (w.rxDir b).lanes k l }
    
    let lane (w : State) : RxLane := rxLaneOf (w.rxDir b) k
    
    let miss (l : RxLane) : Nat := if 2 < f.comma then l.missRun + 1 else 0
    
    let counted (symbols sfcErrors : Nat) (w : State) : State :=
      let u := laneUnit b k
      ((((((w.count 1 u 0 symbols).count 1 u 1 f.stuffBits).count 1 u 2 f.violations).count 1 u 3 (if f.crcOk then 0 else 1)).count 1 u 4
        (if f.comma = 1 ∨ f.comma = 2 then 1 else 0)).count 1 u 5 (if 2 < f.comma then 1 else 0)).count 1 u 6 sfcErrors
    
    let locked (w : State) : State :=
      let l := lane w
      let e := (l.sfc + 1) % 2 ^ 32
      at_ (counted 4096 (if f.sfc = e then 0 else 1) w) { l with
        missRun := miss l, crcRun := if f.crcOk then 0 else l.crcRun + 1, sfcRun := if f.sfc = e then 0 else l.sfcRun + 1, sfc := e,
        cleanRun := if f.withdrawn then 0 else l.cleanRun + 1, withdrawn := f.withdrawn, bcIn := if f.crcOk then f.bc else l.bcIn,
        held := some f, delivered := false, arrival := w.now - superframeTicks (w.rxDir b).rate,
        dwell := l.dwell + (if f.crcOk = true ∧ f.comma ≤ 2 then total ones f.payload else 81740), dwellN := l.dwellN + 1 }
    
    let fir (w : State) : Prop := (w.rxDir b).phase = .fir
    
    let gets (w : State) : Prop := w.arriving b k sf = some f
    b < 65 ∧
      k < (if b = 64 then 4 else 8) ∧
      s.sys.stage ≠ .inReset ∧
      ((fun w => gets w ∧ (lane w).st = .locked ∧ fir w ∧ (lane (w.adaptFir b k)).st = .locked) : State → Prop) (s.advance t)) ∧
    (∃ (s : State) (t : Tick) (b k : Nat) (sf f : Superframe), 
    let at_ (w : State) (l : RxLane) : State := w.setRx b { w.rxDir b with lanes := setAt (w.rxDir b).lanes k l }
    
    let lane (w : State) : RxLane := rxLaneOf (w.rxDir b) k
    
    let miss (l : RxLane) : Nat := if 2 < f.comma then l.missRun + 1 else 0
    
    let counted (symbols sfcErrors : Nat) (w : State) : State :=
      let u := laneUnit b k
      ((((((w.count 1 u 0 symbols).count 1 u 1 f.stuffBits).count 1 u 2 f.violations).count 1 u 3 (if f.crcOk then 0 else 1)).count 1 u 4
        (if f.comma = 1 ∨ f.comma = 2 then 1 else 0)).count 1 u 5 (if 2 < f.comma then 1 else 0)).count 1 u 6 sfcErrors
    
    let locked (w : State) : State :=
      let l := lane w
      let e := (l.sfc + 1) % 2 ^ 32
      at_ (counted 4096 (if f.sfc = e then 0 else 1) w) { l with
        missRun := miss l, crcRun := if f.crcOk then 0 else l.crcRun + 1, sfcRun := if f.sfc = e then 0 else l.sfcRun + 1, sfc := e,
        cleanRun := if f.withdrawn then 0 else l.cleanRun + 1, withdrawn := f.withdrawn, bcIn := if f.crcOk then f.bc else l.bcIn,
        held := some f, delivered := false, arrival := w.now - superframeTicks (w.rxDir b).rate,
        dwell := l.dwell + (if f.crcOk = true ∧ f.comma ≤ 2 then total ones f.payload else 81740), dwellN := l.dwellN + 1 }
    
    let fir (w : State) : Prop := (w.rxDir b).phase = .fir
    
    let due (w : State) : Prop := f.adaptDue = true ∧ (w.rxDir b).adapt = true ∧ w.inPresent b k = false
    
    let gets (w : State) : Prop := w.arriving b k sf = some f
    b < 65 ∧
      k < (if b = 64 then 4 else 8) ∧
      s.sys.stage ≠ .inReset ∧
      ((fun w => gets w ∧ (lane w).st = .locked ∧ ¬fir w ∧ due w ∧ (lane (w.adaptLane b k)).st = .locked) : State → Prop) (s.advance t)) :=
  ⟨⟨ready.setRx 63 { dll := true, loopback := 1 }, 0, 63, 7, {}, by decide +kernel⟩,
   ⟨onLane { st := .hunt }, 0, 63, 7, { crcOk := true }, receivedFrame ((.hunt : LaneSt) == .seed) 511 1 { crcOk := true }, by decide +kernel⟩,
   ⟨onLane { st := .confirm }, 0, 63, 7, {}, receivedFrame ((.confirm : LaneSt) == .seed) 511 1 {}, by decide +kernel⟩,
   ⟨onLane { st := .confirm }, 0, 63, 7, { comma := 1 }, receivedFrame ((.confirm : LaneSt) == .seed) 511 1 { comma := 1 }, by decide +kernel⟩,
   ⟨onLane { st := .seed }, 0, 63, 7, {}, receivedFrame ((.seed : LaneSt) == .seed) 511 1 {}, by decide +kernel⟩,
   ⟨onLane { st := .locked }, 0, 63, 7, { comma := 3 }, receivedFrame ((.locked : LaneSt) == .seed) 511 1 { comma := 3 }, by decide +kernel⟩,
   ⟨ready.setRx 63 { dll := true, phase := .fir, lanes := setAt (List.replicate 8 {}) 7 { st := .locked } }, 0, 63, 7, {}, receivedFrame ((.locked : LaneSt) == .seed) 511 1 {}, by decide +kernel⟩,
   ⟨onLane { st := .locked }, 0, 63, 7, { adaptDue := true }, receivedFrame ((.locked : LaneSt) == .seed) 511 1 { adaptDue := true }, by decide +kernel⟩⟩

theorem test_meets_GroupBoundaryJudged :
    (∃ (s : State) (t : Tick) (n : Nat) (x : RxStream), s.sys.stage ≠ .inReset ∧
      ((fun w => w.rxStream n = some x ∧ x.present = false ∧ 16 ≤ x.cleanRun ∧ x.skew = false) : State → Prop) (s.advance t)) ∧
    (∃ (s : State) (t : Tick) (n : Nat) (x : RxStream), s.sys.stage ≠ .inReset ∧
      ((fun w => w.rxStream n = some x ∧ (x.present = true ∨ x.cleanRun < 16 ∨ x.skew = true)) : State → Prop) (s.advance t)) ∧
    (∃ (s : State) (t : Tick) (n : Nat), s.sys.stage ≠ .inReset ∧
      ((fun w => w.rxStream n = none) : State → Prop) (s.advance t)) ∧
    (∃ (s : State) (t : Tick) (n spread : Nat) (x : RxStream), 
    let lanes (w : State) : List RxLane := (groupLanes x.cfg).map (rxLaneOf (w.rxDir x.cfg.bundle))
    
    let noStep (w : State) : Prop := ∀ l ∈ lanes w, (l.held.map (·.adaptDue)).getD false = false
    
    let inStep (w : State) : Prop := spread ≤ 64 ∧ ∃ v, ∀ l ∈ lanes w, ∀ f, l.held = some f → f.crcOk = true → f.sfc = v
    
    let wasLocked (w : State) (l : RxLane) : Prop := (if l.stT = w.now then l.stWas else l.st) = .locked
    
    let plain (w : State) : Prop := w.rxStream n = some x ∧ x.ending = false ∧ x.crypt = none ∧ x.cryptNext = none ∧ x.missed = [] ∧
      x.skew = false ∧ inStep w ∧ noStep w ∧ tblWf none w.rxStreams = true
    s.sys.stage ≠ .inReset ∧
      ((fun w => plain w ∧ (∀ l ∈ lanes w, wasLocked w l ∧ l.withdrawn = false ∧ 1 ≤ l.cleanRun) ∧ (w.rxDir x.cfg.bundle).phase = .none) : State → Prop) (s.advance t)) ∧
    (∃ (s : State) (t : Tick) (n spread : Nat) (x : RxStream), 
    let lanes (w : State) : List RxLane := (groupLanes x.cfg).map (rxLaneOf (w.rxDir x.cfg.bundle))
    
    let noStep (w : State) : Prop := ∀ l ∈ lanes w, (l.held.map (·.adaptDue)).getD false = false
    
    let inStep (w : State) : Prop := spread ≤ 64 ∧ ∃ v, ∀ l ∈ lanes w, ∀ f, l.held = some f → f.crcOk = true → f.sfc = v
    
    let wasLocked (w : State) (l : RxLane) : Prop := (if l.stT = w.now then l.stWas else l.st) = .locked
    
    let plain (w : State) : Prop := w.rxStream n = some x ∧ x.ending = false ∧ x.crypt = none ∧ x.cryptNext = none ∧ x.missed = [] ∧
      x.skew = false ∧ inStep w ∧ noStep w ∧ tblWf none w.rxStreams = true
    s.sys.stage ≠ .inReset ∧
      ((fun w => plain w ∧ x.present = true ∧ ((∃ l ∈ lanes w, ¬wasLocked w l) ∨ ∃ l ∈ lanes w, l.withdrawn = true)) : State → Prop) (s.advance t)) ∧
    (∃ (s : State) (t : Tick) (n spread : Nat) (x : RxStream), 
    let lanes (w : State) : List RxLane := (groupLanes x.cfg).map (rxLaneOf (w.rxDir x.cfg.bundle))
    
    let noStep (w : State) : Prop := ∀ l ∈ lanes w, (l.held.map (·.adaptDue)).getD false = false
    
    let inStep (w : State) : Prop := spread ≤ 64 ∧ ∃ v, ∀ l ∈ lanes w, ∀ f, l.held = some f → f.crcOk = true → f.sfc = v
    
    let wasLocked (w : State) (l : RxLane) : Prop := (if l.stT = w.now then l.stWas else l.st) = .locked
    
    let plain (w : State) : Prop := w.rxStream n = some x ∧ x.ending = false ∧ x.crypt = none ∧ x.cryptNext = none ∧ x.missed = [] ∧
      x.skew = false ∧ inStep w ∧ noStep w ∧ tblWf none w.rxStreams = true
    s.sys.stage ≠ .inReset ∧
      ((fun w => plain w ∧ x.present = false ∧ ((∃ l ∈ lanes w, ¬wasLocked w l) ∨ ∃ l ∈ lanes w, l.withdrawn = true)) : State → Prop) (s.advance t)) ∧
    (∃ (s : State) (t : Tick) (n : Nat), s.sys.stage ≠ .inReset ∧
      ((fun w => w.rxStream n = none) : State → Prop) (s.advance t)) ∧
    (∃ (s : State) (t : Tick) (n : Nat) (x : RxStream), s.sys.stage ≠ .inReset ∧
      ((fun w => w.rxStream n = some x ∧ x.marked = true ∧ x.period ≠ 0 ∧ x.stale = false ∧ 2 * x.markT + 3 * x.period ≤ 2 * w.now) : State → Prop) (s.advance t)) ∧
    (∃ (s : State) (t : Tick) (n : Nat) (x : RxStream), s.sys.stage ≠ .inReset ∧
      ((fun w => w.rxStream n = some x ∧ (2 * w.now < 2 * x.markT + 3 * x.period ∨ x.marked = false ∨ x.stale = true)) : State → Prop) (s.advance t)) ∧
    (∃ (s : State) (t : Tick) (n : Nat), s.sys.stage ≠ .inReset ∧
      ((fun w => w.rxStream n = none) : State → Prop) (s.advance t)) :=
  ⟨⟨({ ready with rxStreams := [(0, some { cfg := lane 0 0 0, cleanRun := 16 })] }).setRx 0 { dll := true, lanes := List.replicate 8 { st := .locked, cleanRun := 1 } }, 0, 0, { cfg := lane 0 0 0, cleanRun := 16 }, by decide +kernel⟩,
   ⟨({ ready with rxStreams := [(0, some { cfg := lane 0 0 0, cleanRun := 15 })] }).setRx 0 { dll := true, lanes := List.replicate 8 { st := .locked, cleanRun := 1 } }, 0, 0, { cfg := lane 0 0 0, cleanRun := 15 }, by decide +kernel⟩,
   ⟨ready, 0, 511, by decide +kernel⟩,
   ⟨({ ready with rxStreams := [(0, some { cfg := lane 0 0 0 })] }).setRx 0 { dll := true, lanes := List.replicate 8 { st := .locked, cleanRun := 1 } }, 1, 0, 64, { cfg := lane 0 0 0 }, by exact ⟨by decide, ⟨by decide +kernel, by decide, by decide, by decide, by decide, by decide, ⟨by decide, 0, by decide +kernel⟩, by decide +kernel, by decide +kernel⟩, by decide +kernel, by decide +kernel⟩⟩,
   ⟨({ ready with rxStreams := [(0, some { cfg := lane 0 0 0, present := true })] }).setRx 0 { dll := true, lanes := List.replicate 8 { st := .seed } }, 1, 0, 64, { cfg := lane 0 0 0, present := true }, by exact ⟨by decide, ⟨by decide +kernel, by decide, by decide, by decide, by decide, by decide, ⟨by decide, 0, by decide +kernel⟩, by decide +kernel, by decide +kernel⟩, by decide, Or.inl ⟨{ st := .seed }, by decide +kernel⟩⟩⟩,
   ⟨({ ready with rxStreams := [(0, some { cfg := lane 0 0 0 })] }).setRx 0 { dll := true, lanes := List.replicate 8 { st := .locked, withdrawn := true } }, 1, 0, 64, { cfg := lane 0 0 0 }, by exact ⟨by decide, ⟨by decide +kernel, by decide, by decide, by decide, by decide, by decide, ⟨by decide, 0, by decide +kernel⟩, by decide +kernel, by decide +kernel⟩, by decide, Or.inr ⟨{ st := .locked, withdrawn := true }, by decide +kernel⟩⟩⟩,
   ⟨ready, 0, 511, by decide +kernel⟩,
   ⟨({ ready with rxStreams := [(0, some { cfg := lane 0 0 0, marked := true, period := 2 })] }).setRx 0 { dll := true, lanes := List.replicate 8 { st := .locked, cleanRun := 1 } }, 3, 0, { cfg := lane 0 0 0, marked := true, period := 2 }, by decide +kernel⟩,
   ⟨({ ready with rxStreams := [(0, some { cfg := lane 0 0 0, marked := true, period := 2 })] }).setRx 0 { dll := true, lanes := List.replicate 8 { st := .locked, cleanRun := 1 } }, 2, 0, { cfg := lane 0 0 0, marked := true, period := 2 }, by decide +kernel⟩,
   ⟨ready, 0, 511, by decide +kernel⟩⟩

theorem test_meets_CrcResultDelivers :
    (∃ (s : State) (t : Tick) (n : Nat), s.sys.stage ≠ .inReset ∧
      ((fun w => w.rxStream n = none) : State → Prop) (s.advance t)) ∧
    (∃ (s : State) (t : Tick) (n : Nat) (x : RxStream), 
    let ks := groupLanes x.cfg
    
    let lanes (w : State) : List RxLane := ks.map (rxLaneOf (w.rxDir x.cfg.bundle))
    
    let allHeld (w : State) : Prop := ∀ l ∈ lanes w, l.held.isSome = true ∧ l.delivered = false
    s.sys.stage ≠ .inReset ∧
      ((fun w => w.rxStream n = some x ∧ ¬allHeld w) : State → Prop) (s.advance t)) ∧
    (∃ (s : State) (t : Tick) (n : Nat) (x : RxStream), 
    let ks := groupLanes x.cfg
    
    let lanes (w : State) : List RxLane := ks.map (rxLaneOf (w.rxDir x.cfg.bundle))
    
    let allHeld (w : State) : Prop := ∀ l ∈ lanes w, l.held.isSome = true ∧ l.delivered = false
    s.sys.stage ≠ .inReset ∧
      ((fun w => w.rxStream n = some x ∧ allHeld w ∧ x.present = false) : State → Prop) (s.advance t)) ∧
    (∃ (s : State) (t : Tick) (n : Nat) (x : RxStream), 
    let ks := groupLanes x.cfg
    
    let lanes (w : State) : List RxLane := ks.map (rxLaneOf (w.rxDir x.cfg.bundle))
    
    let allHeld (w : State) : Prop := ∀ l ∈ lanes w, l.held.isSome = true ∧ l.delivered = false
    
    let allGood (w : State) : Prop := ∀ l ∈ lanes w, (l.held.map (·.crcOk)).getD false = true
    s.sys.stage ≠ .inReset ∧
      ((fun w => w.rxStream n = some x ∧ allHeld w ∧ x.present = true ∧ allGood w) : State → Prop) (s.advance t)) ∧
    (∃ (s : State) (t : Tick) (n : Nat) (x : RxStream), 
    let ks := groupLanes x.cfg
    
    let lanes (w : State) : List RxLane := ks.map (rxLaneOf (w.rxDir x.cfg.bundle))
    
    let allHeld (w : State) : Prop := ∀ l ∈ lanes w, l.held.isSome = true ∧ l.delivered = false
    
    let allGood (w : State) : Prop := ∀ l ∈ lanes w, (l.held.map (·.crcOk)).getD false = true
    s.sys.stage ≠ .inReset ∧
      ((fun w => w.rxStream n = some x ∧ allHeld w ∧ x.present = true ∧ ¬allGood w) : State → Prop) (s.advance t)) :=
  ⟨⟨ready, 0, 0, by decide +kernel⟩,
   ⟨({ ready with rxStreams := [(0, some { cfg := lane 0 0 0 })] }).setRx 0 { dll := true, lanes := List.replicate 8 { st := .locked, cleanRun := 1 } }, 0, 0, { cfg := lane 0 0 0 }, by decide +kernel⟩,
   ⟨({ ready with rxStreams := [(0, some { cfg := lane 0 0 0 })] }).setRx 0 { dll := true, lanes := List.replicate 8 { st := .locked, held := some {} } }, 0, 0, { cfg := lane 0 0 0 }, by decide +kernel⟩,
   ⟨({ ready with rxStreams := [(0, some { cfg := lane 0 0 0, present := true })] }).setRx 0 { dll := true, lanes := List.replicate 8 { st := .locked, held := some {} } }, 0, 0, { cfg := lane 0 0 0, present := true }, by decide +kernel⟩,
   ⟨({ ready with rxStreams := [(0, some { cfg := lane 0 0 0, present := true })] }).setRx 0 { dll := true, lanes := List.replicate 8 { st := .locked, held := some { crcOk := false } } }, 0, 0, { cfg := lane 0 0 0, present := true }, by decide +kernel⟩⟩

theorem test_meets_ClockAndCheckerEvents :
    (∃ (s : State) (t : Tick) (b k : Nat), 
    let dark (w : State) : Prop :=
      (w.rxDir b).dll = false ∧ (w.rxDir b).asleep = false ∧ (w.rxDir b).enable = true ∧ w.sys.quiet = .awake
    b < 65 ∧
      k < (if b = 64 then 4 else 8) ∧
      s.sys.stage ≠ .inReset ∧
      ((fun w => dark w ∧ (w.rxDir b).phase ≠ .waitClk) : State → Prop) (s.advance t)) ∧
    (∃ (s : State) (t : Tick) (b k : Nat), 
    let dark (w : State) : Prop :=
      (w.rxDir b).dll = false ∧ (w.rxDir b).asleep = false ∧ (w.rxDir b).enable = true ∧ w.sys.quiet = .awake
    b < 65 ∧
      k < (if b = 64 then 4 else 8) ∧
      s.sys.stage ≠ .inReset ∧
      ((fun w => dark w ∧ (w.rxDir b).phase = .waitClk) : State → Prop) (s.advance t)) ∧
    (∃ (s : State) (t : Tick) (b k : Nat), b < 65 ∧
      k < (if b = 64 then 4 else 8) ∧
      s.sys.stage ≠ .inReset ∧
      ((fun w => (w.rxDir b).enable = false ∨ (w.rxDir b).asleep = true) : State → Prop) (s.advance t)) ∧
    (∃ (s : State) (t : Tick) (b k : Nat), b < 65 ∧
      k < (if b = 64 then 4 else 8) ∧
      s.sys.stage ≠ .inReset ∧
      ((fun w => (w.rxDir b).dll = true) : State → Prop) (s.advance t)) ∧
    (∃ (s : State) (t : Tick) (b k : Nat), 
    let lane (w : State) : RxLane := rxLaneOf (w.rxDir b) k
    b < 65 ∧
      k < (if b = 64 then 4 else 8) ∧
      s.sys.stage ≠ .inReset ∧
      ((fun w => (lane w).prbs = none) : State → Prop) (s.advance t)) ∧
    (∃ (s : State) (t : Tick) (b k : Nat) (received : List Bool) (c : Prbs), 
    let lane (w : State) : RxLane := rxLaneOf (w.rxDir b) k
    
    let plain := received.map (· != c.invert)
    
    let checked : Nat × Nat := match c.reg with
      | some q => prbsErrors c.pattern q plain
      | none => prbsErrors c.pattern (natOf (plain.take (prbsStages c.pattern))) (plain.drop (prbsStages c.pattern))
    b < 65 ∧
      k < (if b = 64 then 4 else 8) ∧
      s.sys.stage ≠ .inReset ∧
      ((fun w => (lane w).prbs = some c ∧ 64 < checked.1) : State → Prop) (s.advance t)) ∧
    (∃ (s : State) (t : Tick) (b k : Nat) (received : List Bool) (c : Prbs), 
    let lane (w : State) : RxLane := rxLaneOf (w.rxDir b) k
    
    let plain := received.map (· != c.invert)
    
    let checked : Nat × Nat := match c.reg with
      | some q => prbsErrors c.pattern q plain
      | none => prbsErrors c.pattern (natOf (plain.take (prbsStages c.pattern))) (plain.drop (prbsStages c.pattern))
    b < 65 ∧
      k < (if b = 64 then 4 else 8) ∧
      s.sys.stage ≠ .inReset ∧
      ((fun w => (lane w).prbs = some c ∧ checked.1 ≤ 64) : State → Prop) (s.advance t)) :=
  ⟨⟨ready, 0, 63, 7, by decide +kernel⟩,
   ⟨ready.setRx 63 { phase := .waitClk }, 0, 63, 7, by decide +kernel⟩,
   ⟨ready.setRx 63 { enable := false }, 0, 63, 7, by decide +kernel⟩,
   ⟨ready.setRx 63 { dll := true }, 0, 63, 7, by decide +kernel⟩,
   ⟨ready, 0, 63, 7, by decide +kernel⟩,
   ⟨onLane { prbs := some { pattern := 1, invert := false } }, 0, 63, 7, (List.replicate 207 true), { pattern := 1, invert := false }, by decide +kernel⟩,
   ⟨onLane { prbs := some { pattern := 1, invert := false } }, 0, 63, 7, (List.replicate 71 false), { pattern := 1, invert := false }, by decide +kernel⟩⟩

theorem test_meets_TransmitAndSleepEvents :
    (∃ (s : State) (t : Tick) (b : Nat), 
    let runs (w : State) : Prop := (w.txDir b).enable = true ∧ (w.txDir b).asleep = false ∧ (w.txDir b).phase ≠ .idle
    b < 65 ∧
      s.sys.stage ≠ .inReset ∧
      ((fun w => ¬runs w) : State → Prop) (s.advance t)) ∧
    (∃ (s : State) (t : Tick) (b : Nat), 
    let runs (w : State) : Prop := (w.txDir b).enable = true ∧ (w.txDir b).asleep = false ∧ (w.txDir b).phase ≠ .idle
    b < 65 ∧
      s.sys.stage ≠ .inReset ∧
      ((fun w => b < 64 ∧ tblWf {} w.tx = true ∧ runs w ∧ (w.txDir b).loopback ≠ 3 ∧ (w.txDir b).prbs = false) : State → Prop) (s.advance t)) ∧
    (∃ (s : State) (t : Tick) (b : Nat), 
    let d (w : State) : TxDir := { w.txDir b with lanes := (w.txDir b).lanes.map TxLane.answer }
    
    let keyed (w : State) : State := (w.txGroups b).foldl (fun v e => v.txKeyBoundary e.1 (w.txDir b).sfc) (w.setTx b (d w))
    
    let runs (w : State) : Prop := (w.txDir b).enable = true ∧ (w.txDir b).asleep = false ∧ (w.txDir b).phase ≠ .idle
    b < 65 ∧
      s.sys.stage ≠ .inReset ∧
      ((fun w => b < 64 ∧ tblWf {} w.tx = true ∧ runs w ∧ (w.txDir b).loopback = 3 ∧ (w.txDir b).prbs = false ∧
      ((keyed w).farFrames b).2 = false) : State → Prop) (s.advance t)) ∧
    (∃ (s : State) (t : Tick) (b dir : Nat) (j : Job), b < 65 ∧
      s.sys.stage ≠ .inReset ∧
      ((fun w => w.jobOf (bundleDirJob true b dir) = some j ∧ (dir = 1 → (w.txDir b).phase = .idle)) : State → Prop) (s.advance t)) ∧
    (∃ (s : State) (t : Tick) (b dir : Nat), b < 65 ∧
      s.sys.stage ≠ .inReset ∧
      ((fun w => w.jobOf (bundleDirJob true b dir) = none) : State → Prop) (s.advance t)) ∧
    (∃ (s : State) (t : Tick) (b : Nat) (j : Job), b < 65 ∧
      s.sys.stage ≠ .inReset ∧
      ((fun w => w.jobOf (bundleDirJob false b 0) = some j) : State → Prop) (s.advance t)) ∧
    (∃ (s : State) (t : Tick) (b : Nat) (j : Job), b < 65 ∧
      s.sys.stage ≠ .inReset ∧
      ((fun w => w.jobOf (bundleDirJob false b 1) = some j) : State → Prop) (s.advance t)) :=
  ⟨⟨ready.setTx 64 { enable := false }, 0, 64, by decide +kernel⟩,
   ⟨ready, 0, 63, by decide +kernel⟩,
   ⟨ready.setTx 63 { loopback := 3, lanes := List.replicate 8 { loop := [{}] } }, 0, 63, by decide +kernel⟩,
   ⟨{ ready with jobs := [{ id := 0, kind := .event, queue := 9, seq := 1, tag := 0, params := .bundleSleep { bundle := 63, dir := 0 } }] }, 0, 63, 0, { id := 0, kind := .event, queue := 9, seq := 1, tag := 0, params := .bundleSleep { bundle := 63, dir := 0 } }, by decide +kernel⟩,
   ⟨ready, 0, 63, 1, by decide +kernel⟩,
   ⟨{ ready with jobs := [{ id := 0, kind := .event, queue := 9, seq := 1, tag := 0, params := .bundleWake { bundle := 63, dir := 0 } }] }, 0, 63, { id := 0, kind := .event, queue := 9, seq := 1, tag := 0, params := .bundleWake { bundle := 63, dir := 0 } }, by decide +kernel⟩,
   ⟨{ ready with jobs := [{ id := 0, kind := .event, queue := 9, seq := 1, tag := 0, params := .bundleWake { bundle := 63, dir := 1 } }] }, 0, 63, { id := 0, kind := .event, queue := 9, seq := 1, tag := 0, params := .bundleWake { bundle := 63, dir := 1 } }, by decide +kernel⟩⟩

/-! ### Witnesses: training (chapter 5) -/

theorem test_meets_TrainingRoundMoves :
    (∃ (s : State) (t : Tick) (b : Nat), 
    let d (w : State) : RxDir := w.rxDir b
    
    let ready (w : State) : Prop := w.sys.restart = false ∧ w.sys.quiet = .awake
    
    let free (w : State) : Prop := (d w).enable = true ∧ (d w).asleep = false ∧ (d w).loopback = 0 ∧ (d w).prbs = false
    
    let due (w : State) : Prop := (d w).trainAuto = true ∧ (d w).dll = true ∧
      ∃ k, k < (d w).lanes.length ∧ (d w).live k = true ∧ (rxLaneOf (d w) k).st ≠ .locked
    b < 65 ∧
      s.sys.stage ≠ .inReset ∧
      ((fun w => ready w ∧ free w ∧ due w ∧ ((d w).phase = .none ∨ (d w).phase = .waiting)) : State → Prop) (s.advance t)) ∧
    (∃ (s : State) (t : Tick) (b : Nat), 
    let d (w : State) : RxDir := w.rxDir b
    
    let due (w : State) : Prop := (d w).trainAuto = true ∧ (d w).dll = true ∧
      ∃ k, k < (d w).lanes.length ∧ (d w).live k = true ∧ (rxLaneOf (d w) k).st ≠ .locked
    b < 65 ∧
      s.sys.stage ≠ .inReset ∧
      ((fun w => (d w).enable = false ∨ (d w).asleep = true ∨ ¬due w ∨ ((d w).phase ≠ .none ∧ (d w).phase ≠ .waiting)) : State → Prop) (s.advance t)) ∧
    (∃ (s : State) (t : Tick) (b : Nat), 
    let d (w : State) : RxDir := w.rxDir b
    b < 65 ∧
      s.sys.stage ≠ .inReset ∧
      ((fun w => (d w).phase = .waitClk ∨ (d w).phase = .acquire) : State → Prop) (s.advance t)) ∧
    (∃ (s : State) (t : Tick) (b : Nat), 
    let d (w : State) : RxDir := w.rxDir b
    b < 65 ∧
      s.sys.stage ≠ .inReset ∧
      ((fun w => (d w).phase ≠ .waitClk ∧ (d w).phase ≠ .acquire) : State → Prop) (s.advance t)) ∧
    (∃ (s : State) (t : Tick) (b : Nat), 
    let d (w : State) : RxDir := w.rxDir b
    b < 65 ∧
      s.sys.stage ≠ .inReset ∧
      ((fun w => (d w).phase = .rxAdapt) : State → Prop) (s.advance t)) ∧
    (∃ (s : State) (t : Tick) (b : Nat), 
    let d (w : State) : RxDir := w.rxDir b
    b < 65 ∧
      s.sys.stage ≠ .inReset ∧
      ((fun w => (d w).phase ≠ .rxAdapt) : State → Prop) (s.advance t)) ∧
    (∃ (s : State) (t : Tick) (b : Nat), 
    let d (w : State) : RxDir := w.rxDir b
    
    let clean (w : State) : Prop := ∀ k ∈ lanesOf b, (d w).live k = true →
      (rxLaneOf (d w) k).dwell = 0 ∧ 1024 ≤ (rxLaneOf (d w) k).dwellN
    b < 65 ∧
      s.sys.stage ≠ .inReset ∧
      ((fun w => (d w).phase = .verify ∧ clean w) : State → Prop) (s.advance t)) ∧
    (∃ (s : State) (t : Tick) (b : Nat), 
    let d (w : State) : RxDir := w.rxDir b
    
    let clean (w : State) : Prop := ∀ k ∈ lanesOf b, (d w).live k = true →
      (rxLaneOf (d w) k).dwell = 0 ∧ 1024 ≤ (rxLaneOf (d w) k).dwellN
    b < 65 ∧
      s.sys.stage ≠ .inReset ∧
      ((fun w => (d w).phase = .verify ∧ ¬clean w) : State → Prop) (s.advance t)) ∧
    (∃ (s : State) (t : Tick) (b : Nat), 
    let d (w : State) : RxDir := w.rxDir b
    b < 65 ∧
      s.sys.stage ≠ .inReset ∧
      ((fun w => (d w).phase ≠ .verify) : State → Prop) (s.advance t)) ∧
    (∃ (s : State) (t : Tick) (b : Nat), 
    let d (w : State) : RxDir := w.rxDir b
    
    let ready (w : State) : Prop := w.sys.restart = false ∧ w.sys.quiet = .awake
    
    let free (w : State) : Prop := (d w).enable = true ∧ (d w).asleep = false ∧ (d w).loopback = 0 ∧ (d w).prbs = false
    b < 65 ∧
      s.sys.stage ≠ .inReset ∧
      ((fun w => ready w ∧ free w ∧ (d w).phase = .waiting ∧ ((d w).noPartner = false ∨ w.anyPresent b = false)) : State → Prop) (s.advance t)) ∧
    (∃ (s : State) (t : Tick) (b : Nat), 
    let d (w : State) : RxDir := w.rxDir b
    
    let ready (w : State) : Prop := w.sys.restart = false ∧ w.sys.quiet = .awake
    
    let free (w : State) : Prop := (d w).enable = true ∧ (d w).asleep = false ∧ (d w).loopback = 0 ∧ (d w).prbs = false
    b < 65 ∧
      s.sys.stage ≠ .inReset ∧
      ((fun w => ready w ∧ free w ∧ (d w).phase = .waiting ∧ (d w).noPartner = true ∧ w.anyPresent b = true) : State → Prop) (s.advance t)) ∧
    (∃ (s : State) (t : Tick) (b : Nat), 
    let d (w : State) : RxDir := w.rxDir b
    
    let free (w : State) : Prop := (d w).enable = true ∧ (d w).asleep = false ∧ (d w).loopback = 0 ∧ (d w).prbs = false
    b < 65 ∧
      s.sys.stage ≠ .inReset ∧
      ((fun w => (d w).phase ≠ .waiting ∨ ¬free w) : State → Prop) (s.advance t)) :=
  ⟨⟨ready.setRx 63 { dll := true }, 0, 63, by exact ⟨by decide, by decide, by decide, by decide +kernel, ⟨by decide, by decide, 0, by decide, by decide, by decide⟩, Or.inl (by decide)⟩⟩,
   ⟨ready.setRx 63 { asleep := true }, 0, 63, by exact ⟨by decide, by decide, Or.inr (Or.inl (by decide))⟩⟩,
   ⟨ready.setRx 63 { phase := .acquire }, 0, 63, by decide +kernel⟩,
   ⟨ready, 0, 63, by decide +kernel⟩,
   ⟨ready.setRx 63 { phase := .rxAdapt }, 0, 63, by decide +kernel⟩,
   ⟨ready, 0, 63, by decide +kernel⟩,
   ⟨ready.setRx 63 { phase := .verify, lanes := List.replicate 8 { st := .locked, dwellN := 1024 } }, 0, 63, by decide +kernel⟩,
   ⟨ready.setRx 63 { phase := .verify }, 0, 63, by decide +kernel⟩,
   ⟨ready, 0, 63, by decide +kernel⟩,
   ⟨ready.setRx 63 { phase := .waiting }, 0, 63, by decide +kernel⟩,
   ⟨({ ready with rxStreams := [(0, some { cfg := lane 0 0 0, present := true })] }).setRx 0 { phase := .waiting, noPartner := true }, 0, 0, by decide +kernel⟩,
   ⟨ready, 0, 63, by decide +kernel⟩⟩

theorem test_meets_BackChannelMoves :
    (∃ (s : State) (t : Tick) (b k bc : Nat), 
    let tx (w : State) : TxLane := txLaneOf (w.txDir b) k
    
    let rx (w : State) : RxLane := rxLaneOf (w.rxDir b) k
    
    let hears (w : State) : Prop := (rx w).st = .locked ∧ (rx w).bcIn = bc
    
    let isRequest : Prop := bcKind bc = 1 ∧ ¬(bcTap bc = 3 ∧ bcAction bc = 3)
    
    let isNew (w : State) : Prop := (tx w).lastSeq ≠ some (bcSeq bc)
    b < 65 ∧
      k < (if b = 64 then 4 else 8) ∧
      s.sys.stage ≠ .inReset ∧
      ((fun w => hears w ∧ isRequest ∧ isNew w ∧ w.groupOfLane b k = none) : State → Prop) (s.advance t)) ∧
    (∃ (s : State) (t : Tick) (b k bc : Nat), 
    let tx (w : State) : TxLane := txLaneOf (w.txDir b) k
    
    let rx (w : State) : RxLane := rxLaneOf (w.rxDir b) k
    
    let hears (w : State) : Prop := (rx w).st = .locked ∧ (rx w).bcIn = bc
    
    let isRequest : Prop := bcKind bc = 1 ∧ ¬(bcTap bc = 3 ∧ bcAction bc = 3)
    
    let isNew (w : State) : Prop := (tx w).lastSeq ≠ some (bcSeq bc)
    ∃ n x, b < 65 ∧
      k < (if b = 64 then 4 else 8) ∧
      s.sys.stage ≠ .inReset ∧
      ((fun w => hears w ∧ isRequest ∧ isNew w ∧ w.groupOfLane b k = some (n, x) ∧ (tx w).training = false) : State → Prop) (s.advance t)) ∧
    (∃ (s : State) (t : Tick) (b k bc : Nat), 
    let tx (w : State) : TxLane := txLaneOf (w.txDir b) k
    
    let rx (w : State) : RxLane := rxLaneOf (w.rxDir b) k
    
    let hears (w : State) : Prop := (rx w).st = .locked ∧ (rx w).bcIn = bc
    
    let isRequest : Prop := bcKind bc = 1 ∧ ¬(bcTap bc = 3 ∧ bcAction bc = 3)
    
    let isNew (w : State) : Prop := (tx w).lastSeq ≠ some (bcSeq bc)
    ∃ n x, b < 65 ∧
      k < (if b = 64 then 4 else 8) ∧
      s.sys.stage ≠ .inReset ∧
      ((fun w => hears w ∧ isRequest ∧ isNew w ∧ w.groupOfLane b k = some (n, x) ∧ (tx w).training = true) : State → Prop) (s.advance t)) ∧
    (∃ (s : State) (t : Tick) (b k bc : Nat), 
    let tx (w : State) : TxLane := txLaneOf (w.txDir b) k
    
    let rx (w : State) : RxLane := rxLaneOf (w.rxDir b) k
    
    let hears (w : State) : Prop := (rx w).st = .locked ∧ (rx w).bcIn = bc
    
    let isRequest : Prop := bcKind bc = 1 ∧ ¬(bcTap bc = 3 ∧ bcAction bc = 3)
    
    let isNew (w : State) : Prop := (tx w).lastSeq ≠ some (bcSeq bc)
    b < 65 ∧
      k < (if b = 64 then 4 else 8) ∧
      s.sys.stage ≠ .inReset ∧
      ((fun w => ¬hears w ∨ ¬isRequest ∨ ¬isNew w) : State → Prop) (s.advance t)) ∧
    (∃ (s : State) (t : Tick) (b k : Nat), 
    let tx (w : State) : TxLane := txLaneOf (w.txDir b) k
    
    let rx (w : State) : RxLane := rxLaneOf (w.rxDir b) k
    
    let done (w : State) : Prop := (rx w).st = .locked ∧ bcKind (rx w).bcIn = 3
    b < 65 ∧
      k < (if b = 64 then 4 else 8) ∧
      s.sys.stage ≠ .inReset ∧
      ((fun w => done w ∧ (tx w).training = true ∧ (tx w).changed = false) : State → Prop) (s.advance t)) ∧
    (∃ (s : State) (t : Tick) (b k : Nat), 
    let tx (w : State) : TxLane := txLaneOf (w.txDir b) k
    
    let rx (w : State) : RxLane := rxLaneOf (w.rxDir b) k
    
    let done (w : State) : Prop := (rx w).st = .locked ∧ bcKind (rx w).bcIn = 3
    b < 65 ∧
      k < (if b = 64 then 4 else 8) ∧
      s.sys.stage ≠ .inReset ∧
      ((fun w => done w ∧ (tx w).training = true ∧ (tx w).changed = true) : State → Prop) (s.advance t)) ∧
    (∃ (s : State) (t : Tick) (b k : Nat), 
    let tx (w : State) : TxLane := txLaneOf (w.txDir b) k
    
    let rx (w : State) : RxLane := rxLaneOf (w.rxDir b) k
    
    let done (w : State) : Prop := (rx w).st = .locked ∧ bcKind (rx w).bcIn = 3
    b < 65 ∧
      k < (if b = 64 then 4 else 8) ∧
      s.sys.stage ≠ .inReset ∧
      ((fun w => ¬done w ∨ (tx w).training = false) : State → Prop) (s.advance t)) ∧
    (∃ (s : State) (t : Tick) (b k bc : Nat), 
    let tx (w : State) : TxLane := txLaneOf (w.txDir b) k
    
    let rx (w : State) : RxLane := rxLaneOf (w.rxDir b) k
    
    let hears (w : State) : Prop := (rx w).st = .locked ∧ (rx w).bcIn = bc
    
    let isSleep : Prop := bcKind bc = 1 ∧ bcTap bc = 3 ∧ bcAction bc = 3
    
    let isNew (w : State) : Prop := (tx w).lastSeq ≠ some (bcSeq bc)
    b < 65 ∧
      k < (if b = 64 then 4 else 8) ∧
      s.sys.stage ≠ .inReset ∧
      ((fun w => hears w ∧ isSleep ∧ isNew w) : State → Prop) (s.advance t)) ∧
    (∃ (s : State) (t : Tick) (b k bc : Nat), 
    let tx (w : State) : TxLane := txLaneOf (w.txDir b) k
    
    let rx (w : State) : RxLane := rxLaneOf (w.rxDir b) k
    
    let hears (w : State) : Prop := (rx w).st = .locked ∧ (rx w).bcIn = bc
    
    let isSleep : Prop := bcKind bc = 1 ∧ bcTap bc = 3 ∧ bcAction bc = 3
    
    let isNew (w : State) : Prop := (tx w).lastSeq ≠ some (bcSeq bc)
    b < 65 ∧
      k < (if b = 64 then 4 else 8) ∧
      s.sys.stage ≠ .inReset ∧
      ((fun w => ¬hears w ∨ ¬isSleep ∨ ¬isNew w) : State → Prop) (s.advance t)) ∧
    (∃ (s : State) (t : Tick) (b k bc : Nat), 
    let rx (w : State) : RxLane := rxLaneOf (w.rxDir b) k
    
    let hears (w : State) : Prop := (rx w).st = .locked ∧ (rx w).bcIn = bc
    
    let mine (w : State) : Prop := hears w ∧ bcKind bc = 2 ∧ (rx w).fir.waiting = true ∧ bcSeq bc = (rx w).fir.seq
    b < 65 ∧
      k < (if b = 64 then 4 else 8) ∧
      s.sys.stage ≠ .inReset ∧
      ((fun w => ¬mine w) : State → Prop) (s.advance t)) ∧
    (∃ (s : State) (t : Tick) (b k bc : Nat), 
    let rx (w : State) : RxLane := rxLaneOf (w.rxDir b) k
    
    let hears (w : State) : Prop := (rx w).st = .locked ∧ (rx w).bcIn = bc
    
    let mine (w : State) : Prop := hears w ∧ bcKind bc = 2 ∧ (rx w).fir.waiting = true ∧ bcSeq bc = (rx w).fir.seq
    b < 65 ∧
      k < (if b = 64 then 4 else 8) ∧
      s.sys.stage ≠ .inReset ∧
      ((fun w => mine w ∧ (w.rxDir b).phase ≠ .fir ∧ (w.rxDir b).phase ≠ .waiting) : State → Prop) (s.advance t)) ∧
    (∃ (s : State) (t : Tick) (b k bc : Nat), 
    let rx (w : State) : RxLane := rxLaneOf (w.rxDir b) k
    
    let hears (w : State) : Prop := (rx w).st = .locked ∧ (rx w).bcIn = bc
    
    let mine (w : State) : Prop := hears w ∧ bcKind bc = 2 ∧ (rx w).fir.waiting = true ∧ bcSeq bc = (rx w).fir.seq
    b < 65 ∧
      k < (if b = 64 then 4 else 8) ∧
      s.sys.stage ≠ .inReset ∧
      ((fun w => mine w ∧ (w.rxDir b).phase = .waiting ∧ (rx w).fir.step ≠ .restore ∧ (w.rxDir b).noPartner = true) : State → Prop) (s.advance t)) ∧
    (∃ (s : State) (t : Tick) (b k bc : Nat), 
    let rx (w : State) : RxLane := rxLaneOf (w.rxDir b) k
    
    let hears (w : State) : Prop := (rx w).st = .locked ∧ (rx w).bcIn = bc
    
    let mine (w : State) : Prop := hears w ∧ bcKind bc = 2 ∧ (rx w).fir.waiting = true ∧ bcSeq bc = (rx w).fir.seq
    b < 65 ∧
      k < (if b = 64 then 4 else 8) ∧
      s.sys.stage ≠ .inReset ∧
      ((fun w => mine w ∧ (w.rxDir b).phase = .waiting ∧ (rx w).fir.step = .restore ∧ bcStatus bc = 0) : State → Prop) (s.advance t)) ∧
    (∃ (s : State) (t : Tick) (b k bc : Nat), 
    let rx (w : State) : RxLane := rxLaneOf (w.rxDir b) k
    
    let hears (w : State) : Prop := (rx w).st = .locked ∧ (rx w).bcIn = bc
    
    let mine (w : State) : Prop := hears w ∧ bcKind bc = 2 ∧ (rx w).fir.waiting = true ∧ bcSeq bc = (rx w).fir.seq
    ∃ tap inc, b < 65 ∧
      k < (if b = 64 then 4 else 8) ∧
      s.sys.stage ≠ .inReset ∧
      ((fun w => mine w ∧ (w.rxDir b).phase = .fir ∧ bcStatus bc ≠ 0 ∧ (rx w).fir.step = .tap tap inc) : State → Prop) (s.advance t)) ∧
    (∃ (s : State) (t : Tick) (b k bc : Nat), 
    let rx (w : State) : RxLane := rxLaneOf (w.rxDir b) k
    
    let hears (w : State) : Prop := (rx w).st = .locked ∧ (rx w).bcIn = bc
    
    let mine (w : State) : Prop := hears w ∧ bcKind bc = 2 ∧ (rx w).fir.waiting = true ∧ bcSeq bc = (rx w).fir.seq
    ∃ tap inc, b < 65 ∧
      k < (if b = 64 then 4 else 8) ∧
      s.sys.stage ≠ .inReset ∧
      ((fun w => mine w ∧ (w.rxDir b).phase = .fir ∧ bcStatus bc = 0 ∧ (rx w).fir.step = .tap tap inc) : State → Prop) (s.advance t)) ∧
    (∃ (s : State) (t : Tick) (b k bc : Nat), 
    let rx (w : State) : RxLane := rxLaneOf (w.rxDir b) k
    
    let hears (w : State) : Prop := (rx w).st = .locked ∧ (rx w).bcIn = bc
    
    let mine (w : State) : Prop := hears w ∧ bcKind bc = 2 ∧ (rx w).fir.waiting = true ∧ bcSeq bc = (rx w).fir.seq
    ∃ tap inc, b < 65 ∧
      k < (if b = 64 then 4 else 8) ∧
      s.sys.stage ≠ .inReset ∧
      ((fun w => mine w ∧ (w.rxDir b).phase = .fir ∧ (rx w).fir.step = .undo tap inc) : State → Prop) (s.advance t)) ∧
    (∃ (s : State) (t : Tick) (b k bc : Nat), 
    let rx (w : State) : RxLane := rxLaneOf (w.rxDir b) k
    
    let hears (w : State) : Prop := (rx w).st = .locked ∧ (rx w).bcIn = bc
    
    let mine (w : State) : Prop := hears w ∧ bcKind bc = 2 ∧ (rx w).fir.waiting = true ∧ bcSeq bc = (rx w).fir.seq
    b < 65 ∧
      k < (if b = 64 then 4 else 8) ∧
      s.sys.stage ≠ .inReset ∧
      ((fun w => mine w ∧ (w.rxDir b).phase = .fir ∧ (rx w).fir.step = .ended) : State → Prop) (s.advance t)) ∧
    (∃ (s : State) (t : Tick) (b k : Nat), 
    let rx (w : State) : RxLane := rxLaneOf (w.rxDir b) k
    
    let dwells (w : State) : Prop := (w.rxDir b).phase = .fir ∧ (rx w).fir.waiting = false
    b < 65 ∧
      k < (if b = 64 then 4 else 8) ∧
      s.sys.stage ≠ .inReset ∧
      ((fun w => dwells w ∧ (rx w).fir.step = .preset) : State → Prop) (s.advance t)) ∧
    (∃ (s : State) (t : Tick) (b k : Nat), 
    let rx (w : State) : RxLane := rxLaneOf (w.rxDir b) k
    
    let atRx (w : State) (l : RxLane) : State := w.setRx b { w.rxDir b with lanes := setAt (w.rxDir b).lanes k l }
    
    let errors (w : State) : Nat := (rx w).dwell + 81740 * (64 - (rx w).dwellN)
    
    let best (w : State) : State := atRx w { rx w with fir := { (rx w).fir with best := some (errors w) } }
    
    let dwells (w : State) : Prop := (w.rxDir b).phase = .fir ∧ (rx w).fir.waiting = false
    ∃ tap inc, b < 65 ∧
      k < (if b = 64 then 4 else 8) ∧
      s.sys.stage ≠ .inReset ∧
      ((fun w => dwells w ∧ (rx w).fir.step = .tap tap inc ∧ errors w < (rx w).fir.best.getD 0 ∧ (rx w).fir.requests < 48) : State → Prop) (s.advance t)) ∧
    (∃ (s : State) (t : Tick) (b k : Nat), 
    let rx (w : State) : RxLane := rxLaneOf (w.rxDir b) k
    
    let atRx (w : State) (l : RxLane) : State := w.setRx b { w.rxDir b with lanes := setAt (w.rxDir b).lanes k l }
    
    let errors (w : State) : Nat := (rx w).dwell + 81740 * (64 - (rx w).dwellN)
    
    let best (w : State) : State := atRx w { rx w with fir := { (rx w).fir with best := some (errors w) } }
    
    let dwells (w : State) : Prop := (w.rxDir b).phase = .fir ∧ (rx w).fir.waiting = false
    ∃ tap inc, b < 65 ∧
      k < (if b = 64 then 4 else 8) ∧
      s.sys.stage ≠ .inReset ∧
      ((fun w => dwells w ∧ (rx w).fir.step = .tap tap inc ∧ (rx w).fir.best.getD 0 ≤ errors w) : State → Prop) (s.advance t)) ∧
    (∃ (s : State) (t : Tick) (b k : Nat), 
    let rx (w : State) : RxLane := rxLaneOf (w.rxDir b) k
    
    let dwells (w : State) : Prop := (w.rxDir b).phase = .fir ∧ (rx w).fir.waiting = false
    b < 65 ∧
      k < (if b = 64 then 4 else 8) ∧
      s.sys.stage ≠ .inReset ∧
      ((fun w => ¬dwells w) : State → Prop) (s.advance t)) ∧
    (∃ (s : State) (t : Tick) (b k : Nat), 
    let rx (w : State) : RxLane := rxLaneOf (w.rxDir b) k
    b < 65 ∧
      k < (if b = 64 then 4 else 8) ∧
      s.sys.stage ≠ .inReset ∧
      ((fun w => (rx w).fir.waiting = true ∧ (rx w).fir.resent = false) : State → Prop) (s.advance t)) ∧
    (∃ (s : State) (t : Tick) (b k : Nat), 
    let rx (w : State) : RxLane := rxLaneOf (w.rxDir b) k
    b < 65 ∧
      k < (if b = 64 then 4 else 8) ∧
      s.sys.stage ≠ .inReset ∧
      ((fun w => (rx w).fir.waiting = true ∧ (rx w).fir.resent = true ∧ ((w.rxDir b).phase = .fir ∨ (w.rxDir b).phase = .verify)) : State → Prop) (s.advance t)) ∧
    (∃ (s : State) (t : Tick) (b k : Nat), 
    let rx (w : State) : RxLane := rxLaneOf (w.rxDir b) k
    b < 65 ∧
      k < (if b = 64 then 4 else 8) ∧
      s.sys.stage ≠ .inReset ∧
      ((fun w => (rx w).fir.waiting = false) : State → Prop) (s.advance t)) :=
  ⟨⟨((ready.setTx 63 { lanes := setAt (List.replicate 8 {}) 7 {} }).setRx 63 { dll := true, lanes := setAt (List.replicate 8 {}) 7 { st := .locked, bcIn := (bcField 1 2 1 0 0 1) } }), 0, 63, 7, (bcField 1 2 1 0 0 1), by decide +kernel⟩,
   ⟨{ ((ready.setTx 63 { lanes := setAt (List.replicate 8 {}) 7 {} }).setRx 63 { dll := true, lanes := setAt (List.replicate 8 {}) 7 { st := .locked, bcIn := (bcField 1 2 1 0 0 1) } }) with txStreams := [(511, some { cfg := lane 1 63 7 })] }, 0, 63, 7, (bcField 1 2 1 0 0 1), 511, { cfg := lane 1 63 7 }, by decide +kernel⟩,
   ⟨{ ((ready.setTx 63 { lanes := setAt (List.replicate 8 {}) 7 { training := true } }).setRx 63 { dll := true, lanes := setAt (List.replicate 8 {}) 7 { st := .locked, bcIn := (bcField 1 2 1 0 0 1) } }) with txStreams := [(511, some { cfg := lane 1 63 7 })] }, 0, 63, 7, (bcField 1 2 1 0 0 1), 511, { cfg := lane 1 63 7 }, by decide +kernel⟩,
   ⟨((ready.setTx 63 { lanes := setAt (List.replicate 8 {}) 7 { lastSeq := some 1 } }).setRx 63 { dll := true, lanes := setAt (List.replicate 8 {}) 7 { st := .locked, bcIn := (bcField 1 2 1 0 0 1) } }), 0, 63, 7, (bcField 1 2 1 0 0 1), by decide +kernel⟩,
   ⟨((ready.setTx 63 { lanes := setAt (List.replicate 8 {}) 7 { training := true } }).setRx 63 { dll := true, lanes := setAt (List.replicate 8 {}) 7 { st := .locked, bcIn := bcField 3 0 0 0 0 0 } }), 0, 63, 7, by decide +kernel⟩,
   ⟨((ready.setTx 63 { lanes := setAt (List.replicate 8 {}) 7 { training := true, changed := true } }).setRx 63 { dll := true, lanes := setAt (List.replicate 8 {}) 7 { st := .locked, bcIn := bcField 3 0 0 0 0 0 } }), 0, 63, 7, by decide +kernel⟩,
   ⟨((ready.setTx 63 { lanes := setAt (List.replicate 8 {}) 7 {} }).setRx 63 { dll := true, lanes := setAt (List.replicate 8 {}) 7 { st := .locked, bcIn := bcField 3 0 0 0 0 0 } }), 0, 63, 7, by decide +kernel⟩,
   ⟨((ready.setTx 63 { lanes := setAt (List.replicate 8 {}) 7 {} }).setRx 63 { dll := true, lanes := setAt (List.replicate 8 {}) 7 { st := .locked, bcIn := (bcField 1 3 3 0 0 1) } }), 0, 63, 7, (bcField 1 3 3 0 0 1), by decide +kernel⟩,
   ⟨((ready.setTx 63 { lanes := setAt (List.replicate 8 {}) 7 { lastSeq := some 1 } }).setRx 63 { dll := true, lanes := setAt (List.replicate 8 {}) 7 { st := .locked, bcIn := (bcField 1 3 3 0 0 1) } }), 0, 63, 7, (bcField 1 3 3 0 0 1), by decide +kernel⟩,
   ⟨((ready.setTx 63 { lanes := setAt (List.replicate 8 {}) 7 {} }).setRx 63 { dll := true, lanes := setAt (List.replicate 8 {}) 7 { st := .locked, bcIn := (bcField 2 2 1 0 0 1) } }), 0, 63, 7, (bcField 2 2 1 0 0 1), by decide +kernel⟩,
   ⟨((ready.setTx 63 { lanes := setAt (List.replicate 8 {}) 7 {} }).setRx 63 { dll := true, lanes := setAt (List.replicate 8 {}) 7 { st := .locked, bcIn := (bcField 2 2 1 0 0 1), fir := { waiting := true, seq := 1 } } }), 0, 63, 7, (bcField 2 2 1 0 0 1), by decide +kernel⟩,
   ⟨((ready.setTx 63 { lanes := setAt (List.replicate 8 {}) 7 {} }).setRx 63 { dll := true, phase := .waiting, noPartner := true, lanes := setAt (List.replicate 8 {}) 7 { st := .locked, bcIn := (bcField 2 2 1 0 0 1), fir := { waiting := true, seq := 1, step := .ended } } }), 0, 63, 7, (bcField 2 2 1 0 0 1), by decide +kernel⟩,
   ⟨((ready.setTx 63 { lanes := setAt (List.replicate 8 {}) 7 {} }).setRx 63 { dll := true, phase := .waiting, lanes := setAt (List.replicate 8 {}) 7 { st := .locked, bcIn := (bcField 2 2 1 0 0 1), fir := { waiting := true, seq := 1, step := .restore } } }), 0, 63, 7, (bcField 2 2 1 0 0 1), by decide +kernel⟩,
   ⟨((ready.setTx 63 { lanes := setAt (List.replicate 8 {}) 7 {} }).setRx 63 { dll := true, phase := .fir, lanes := setAt (List.replicate 8 {}) 7 { st := .locked, bcIn := (bcField 2 2 1 0 1 1), fir := { waiting := true, seq := 1, step := .tap 2 true } } }), 0, 63, 7, (bcField 2 2 1 0 1 1), 2, true, by decide +kernel⟩,
   ⟨((ready.setTx 63 { lanes := setAt (List.replicate 8 {}) 7 {} }).setRx 63 { dll := true, phase := .fir, lanes := setAt (List.replicate 8 {}) 7 { st := .locked, bcIn := (bcField 2 2 1 0 0 1), fir := { waiting := true, seq := 1, step := .tap 2 true } } }), 0, 63, 7, (bcField 2 2 1 0 0 1), 2, true, by decide +kernel⟩,
   ⟨((ready.setTx 63 { lanes := setAt (List.replicate 8 {}) 7 {} }).setRx 63 { dll := true, phase := .fir, lanes := setAt (List.replicate 8 {}) 7 { st := .locked, bcIn := (bcField 2 2 1 0 0 1), fir := { waiting := true, seq := 1, step := .undo 2 true } } }), 0, 63, 7, (bcField 2 2 1 0 0 1), 2, true, by decide +kernel⟩,
   ⟨((ready.setTx 63 { lanes := setAt (List.replicate 8 {}) 7 {} }).setRx 63 { dll := true, phase := .fir, lanes := setAt (List.replicate 8 {}) 7 { st := .locked, bcIn := (bcField 2 2 1 0 0 1), fir := { waiting := true, seq := 1, step := .ended } } }), 0, 63, 7, (bcField 2 2 1 0 0 1), by decide +kernel⟩,
   ⟨((ready.setTx 63 { lanes := setAt (List.replicate 8 {}) 7 {} }).setRx 63 { dll := true, phase := .fir, lanes := setAt (List.replicate 8 {}) 7 { st := .locked, bcIn := 0, fir := { step := .preset } } }), 0, 63, 7, by decide +kernel⟩,
   ⟨((ready.setTx 63 { lanes := setAt (List.replicate 8 {}) 7 {} }).setRx 63 { dll := true, phase := .fir, lanes := setAt (List.replicate 8 {}) 7 { st := .locked, bcIn := 0, dwellN := 64, fir := { step := .tap 2 true, best := some 1, requests := 47 } } }), 0, 63, 7, 2, true, by decide +kernel⟩,
   ⟨((ready.setTx 63 { lanes := setAt (List.replicate 8 {}) 7 {} }).setRx 63 { dll := true, phase := .fir, lanes := setAt (List.replicate 8 {}) 7 { st := .locked, bcIn := 0, dwell := 1, dwellN := 64, fir := { step := .tap 2 true, best := some 1 } } }), 0, 63, 7, 2, true, by decide +kernel⟩,
   ⟨ready, 0, 63, 7, by decide +kernel⟩,
   ⟨((ready.setTx 63 { lanes := setAt (List.replicate 8 {}) 7 {} }).setRx 63 { dll := true, lanes := setAt (List.replicate 8 {}) 7 { st := .locked, bcIn := 0, fir := { waiting := true } } }), 0, 63, 7, by decide +kernel⟩,
   ⟨((ready.setTx 63 { lanes := setAt (List.replicate 8 {}) 7 {} }).setRx 63 { dll := true, phase := .verify, lanes := setAt (List.replicate 8 {}) 7 { st := .locked, bcIn := 0, fir := { waiting := true, resent := true } } }), 0, 63, 7, by decide +kernel⟩,
   ⟨ready, 0, 63, 7, by decide +kernel⟩⟩

/-! ### Witnesses: rasters, engines, layers and the millpond (chapters 2, 7, 9 and 10) -/

theorem test_meets_HouseLineStarts :
    (∃ (s : State) (t : Tick) (p : Nat), 
    let line (w : State) (h : House) : State := (w.advanceSources w.now).setHouse p h
    p < 2 ∧
      s.sys.stage ≠ .inReset ∧
      ((fun w => (w.house p).started = true ∧ (w.house p).stepDue = false ∧ (w.house p).line < (w.house p).desc.totalLines) : State → Prop) (s.advance t)) ∧
    (∃ (s : State) (t : Tick) (p : Nat), 
    let line (w : State) (h : House) : State := (w.advanceSources w.now).setHouse p h
    p < 2 ∧
      s.sys.stage ≠ .inReset ∧
      ((fun w => (w.house p).started = true ∧ (w.house p).stepDue = false ∧ (w.house p).desc.totalLines ≤ (w.house p).line) : State → Prop) (s.advance t)) ∧
    (∃ (s : State) (t : Tick) (p : Nat), p < 2 ∧
      s.sys.stage ≠ .inReset ∧
      ((fun w => (w.house p).started = true ∧ (w.house p).stepDue = true) : State → Prop) (s.advance t)) ∧
    (∃ (s : State) (t : Tick) (p : Nat), p < 2 ∧
      s.sys.stage ≠ .inReset ∧
      ((fun w => (w.house p).started = false) : State → Prop) (s.advance t)) :=
  ⟨⟨{ ready with houses := [{}, { started := true, line := 1124 }] }, 0, 1, by decide +kernel⟩,
   ⟨{ ready with houses := [{}, { started := true, line := 1125 }] }, 0, 1, by decide +kernel⟩,
   ⟨{ ready with houses := [{}, { started := true, line := 1124, stepPending := true }] }, 0, 1, by decide +kernel⟩,
   ⟨ready, 0, 1, by decide +kernel⟩⟩

theorem test_meets_OutputLineStarts :
    (∃ (s : State) (t : Tick) (n : Nat), n < 512 ∧
      s.sys.stage ≠ .inReset ∧
      ((fun w => w.outRaster n = none) : State → Prop) (s.advance t)) ∧
    (∃ (s : State) (t : Tick) (n : Nat) (o : OutRaster), n < 512 ∧
      s.sys.stage ≠ .inReset ∧
      ((fun w => w.outRaster n = some o ∧ o.owed = false ∧ o.ext.isSome = true) : State → Prop) (s.advance t)) ∧
    (∃ (s : State) (t : Tick) (n : Nat) (o : OutRaster), n < 512 ∧
      s.sys.stage ≠ .inReset ∧
      ((fun w => w.outRaster n = some o ∧ o.owed = false ∧ o.ext = none ∧ o.line < o.desc.totalLines) : State → Prop) (s.advance t)) ∧
    (∃ (s : State) (t : Tick) (n : Nat) (o : OutRaster), n < 512 ∧
      s.sys.stage ≠ .inReset ∧
      ((fun w => w.outRaster n = some o ∧ o.owed = false ∧ o.ext = none ∧ o.desc.totalLines ≤ o.line) : State → Prop) (s.advance t)) :=
  ⟨⟨ready, 0, 511, by decide +kernel⟩,
   ⟨{ ready with rasters := [(511, some { ext := some ⟨1, 0, 0⟩ })] }, 0, 511, { ext := some ⟨1, 0, 0⟩ }, by decide +kernel⟩,
   ⟨{ ready with rasters := [(511, some { line := 1124 })] }, 0, 511, { line := 1124 }, by decide +kernel⟩,
   ⟨{ ready with rasters := [(511, some { line := 1125 })] }, 0, 511, { line := 1125 }, by decide +kernel⟩⟩

theorem test_meets_OutputFrameSteps :
    (∃ (s : State) (t : Tick) (n : Nat) (o : OutRaster), s.sys.stage ≠ .inReset ∧
      ((fun w => w.outRaster n = some o ∧ o.owed = true ∧ o.ext = none ∧ o.relation = false ∧ w.setsFor n = [] ∧
      ∀ j ∈ w.jobs, j.raster ≠ 2 + n) : State → Prop) (s.advance t)) ∧
    (∃ (s : State) (t : Tick) (n : Nat), s.sys.stage ≠ .inReset ∧
      ((fun w => w.outRaster n = none) : State → Prop) (s.advance t)) ∧
    (∃ (s : State) (t : Tick) (n : Nat) (o : OutRaster), s.sys.stage ≠ .inReset ∧
      ((fun w => w.outRaster n = some o ∧ o.owed = false ∧ o.ext = none ∧ o.line ≠ o.desc.totalLines) : State → Prop) (s.advance t)) :=
  ⟨⟨{ ready with rasters := [(511, some { owed := true })] }, 0, 511, { owed := true }, by decide +kernel⟩,
   ⟨ready, 0, 511, by decide +kernel⟩,
   ⟨{ ready with rasters := [(511, some { line := 1124 })] }, 0, 511, { line := 1124 }, by decide +kernel⟩⟩

theorem test_meets_EngineEvents :
    (∃ (s : State) (t : Tick) (e : Nat), 
    let ended (w : State) : State := (w.advanceSources w.now).finishSources [512 + 2 * e]
    e < 192 ∧
      s.sys.stage ≠ .inReset ∧
      ((fun w => (ended w).sys.quiet = .awake ∧ ((ended w).engine e).st ≠ .bound) : State → Prop) (s.advance t)) ∧
    (∃ (s : State) (t : Tick) (e : Nat) (x : Task), 
    let ended (w : State) : State := (w.advanceSources w.now).finishSources [512 + 2 * e]
    ∃ f eo, e < 192 ∧
      s.sys.stage ≠ .inReset ∧
      ((fun w =>
      let z := ended w
      z.sys.quiet = .awake ∧ (z.engine e).st = .bound ∧ z.task e = some x ∧ z.eoFrame x.p = some (f, eo) ∧
        (x.started = true → x.frame < f) ∧ z.eoJobs e f = []) : State → Prop) (s.advance t)) ∧
    (∃ (s : State) (t : Tick) (e : Nat), e < 192 ∧
      s.sys.stage ≠ .inReset ∧
      ((fun w => (w.engine e).slice.isSome = true) : State → Prop) (s.advance t)) ∧
    (∃ (s : State) (t : Tick) (e : Nat), e < 192 ∧
      s.sys.stage ≠ .inReset ∧
      ((fun w => (w.engine e).slice.isSome = true) : State → Prop) (s.advance t)) ∧
    (∃ (s : State) (t : Tick) (e : Nat), e < 192 ∧
      s.sys.stage ≠ .inReset ∧
      ((fun w => (w.engine e).slice = none) : State → Prop) (s.advance t)) ∧
    (∃ (s : State) (t : Tick) (e : Nat), 
    let usable (w : State) : Prop := (w.engine e).verified = false ∧ (w.engine e).kernel ≠ 0 ∧
      ((w.engine e).st = .bound ∨ (w.engine e).st = .spare ∨ (w.engine e).st = .shadow)
    e < 192 ∧
      s.sys.stage ≠ .inReset ∧
      (usable : State → Prop) (s.advance t)) ∧
    (∃ (s : State) (t : Tick) (e : Nat) (x : Task) (v : HUnit) (id_ : Nat), e < 192 ∧
      s.sys.stage ≠ .inReset ∧
      ((fun w =>
      let v := w.setEngine e { w.engine e with verified := true }
      (w.engine e).verified = false ∧ (w.engine e).st = .bound ∧ (w.engine e).kernel ≠ 0 ∧ v.task (w.engine e).first = some x ∧
        x.loaded = false ∧ x.job = some id_ ∧ ∀ k ∈ gangOf x.p, (v.engine k).verified = true) : State → Prop) (s.advance t)) ∧
    (∃ (s : State) (t : Tick) (e : Nat), 
    let usable (w : State) : Prop := (w.engine e).verified = false ∧ (w.engine e).kernel ≠ 0 ∧
      ((w.engine e).st = .bound ∨ (w.engine e).st = .spare ∨ (w.engine e).st = .shadow)
    e < 192 ∧
      s.sys.stage ≠ .inReset ∧
      ((fun w => usable w ∧ (w.engine e).st ≠ .bound) : State → Prop) (s.advance t)) ∧
    (∃ (s : State) (t : Tick) (e : Nat) (x : Task) (v : HUnit), e < 192 ∧
      s.sys.stage ≠ .inReset ∧
      ((fun w =>
      let v := w.setEngine e { w.engine e with verified := true }
      (w.engine e).verified = false ∧ (w.engine e).st = .bound ∧ (w.engine e).kernel ≠ 0 ∧ v.task (w.engine e).first = some x ∧
        ∃ k ∈ gangOf x.p, (v.engine k).verified = false) : State → Prop) (s.advance t)) ∧
    (∃ (s : State) (t : Tick) (e : Nat) (x : Task) (u : HUnit) (b : Buf), 
    let oldest : Prop := u ∈ x.history ∧ u.est = false ∧ ∀ y ∈ x.history, y.est = false → y ≠ u → u.start < y.start
    e < 192 ∧
      s.sys.stage ≠ .inReset ∧
      ((fun w => w.task e = some x ∧ oldest ∧ w.histBuf x = some b ∧ newestUnit (newer u) x.history = none) : State → Prop) (s.advance t)) ∧
    (∃ (s : State) (t : Tick) (e : Nat) (x : Task) (u v : HUnit) (b : Buf), 
    let oldest : Prop := u ∈ x.history ∧ u.est = false ∧ ∀ y ∈ x.history, y.est = false → y ≠ u → u.start < y.start
    e < 192 ∧
      s.sys.stage ≠ .inReset ∧
      ((fun w => w.task e = some x ∧ oldest ∧ w.histBuf x = some b ∧ newestUnit (newer u) x.history = some v ∧
      (x.migrate = none ∨ ∃ g j, x.migrate = some (g, j) ∧ (w.engine g).st ≠ .shadow)) : State → Prop) (s.advance t)) ∧
    (∃ (s : State) (t : Tick) (e : Nat) (x : Task) (u v : HUnit) (b : Buf), 
    let oldest : Prop := u ∈ x.history ∧ u.est = false ∧ ∀ y ∈ x.history, y.est = false → y ≠ u → u.start < y.start
    ∃ g j, e < 192 ∧
      s.sys.stage ≠ .inReset ∧
      ((fun w => w.task e = some x ∧ oldest ∧ w.histBuf x = some b ∧ newestUnit (newer u) x.history = some v ∧
      x.migrate = some (g, j) ∧ (w.engine g).st = .shadow) : State → Prop) (s.advance t)) ∧
    (∃ (s : State) (t : Tick) (e : Nat) (x : Task), e < 192 ∧
      s.sys.stage ≠ .inReset ∧
      ((fun w => w.task e = some x ∧ ∀ y ∈ x.history, y.est = true) : State → Prop) (s.advance t)) :=
  ⟨⟨ready, 0, 191, by decide +kernel⟩,
   ⟨small.setTask 191 (some keyTask) |>.setEngine 191 { st := .bound, first := 191 }, 0, 191, keyTask, 0, 0, by decide +kernel⟩,
   ⟨ready.setEngine 191 { slice := some 0 }, 0, 191, by decide +kernel⟩,
   ⟨ready.setEngine 191 { slice := some 0 }, 0, 191, by decide +kernel⟩,
   ⟨ready, 0, 191, by decide +kernel⟩,
   ⟨ready.setEngine 191 { st := .bound, kernel := 0x0107 }, 0, 191, by decide +kernel⟩,
   ⟨(small.setTask 191 (some { p := keyP, job := some 1 })).setEngine 191 { st := .bound, first := 191, kernel := 0x0107 }, 0, 191, { p := keyP, job := some 1 }, { slot := 0, frame := 0, start := 0, done := 0 }, 1, by decide +kernel⟩,
   ⟨ready.setEngine 191 { st := .spare, kernel := 0x0107 }, 0, 191, by decide +kernel⟩,
   ⟨(small.setTask 190 (some { p := { keyP with engine := 190, gang := 2 } })).setEngine 190 { st := .bound, first := 190, kernel := 0x0107 }, 0, 190, { p := { keyP with engine := 190, gang := 2 } }, { slot := 0, frame := 0, start := 0, done := 0 }, by decide +kernel⟩,
   ⟨(withBufs ready [ringP, sparseP]).setTask 191 (some { p := { keyP with block := .frcMc { hist := 16384, mv := 16385 } }, history := [{ slot := 0, frame := 0, start := 5, done := 6, est := false }] }), 0, 191, { p := { keyP with block := .frcMc { hist := 16384, mv := 16385 } }, history := [{ slot := 0, frame := 0, start := 5, done := 6, est := false }] }, { slot := 0, frame := 0, start := 5, done := 6, est := false }, bufOf ringP 0, by decide +kernel⟩,
   ⟨(withBufs ready [ringP, sparseP]).setTask 191 (some { p := { keyP with block := .frcMc { hist := 16384, mv := 16385 } }, history := [{ slot := 0, frame := 0, start := 5, done := 6, est := false }, { slot := 1, frame := 1, start := 4, done := 5 }] }), 0, 191, { p := { keyP with block := .frcMc { hist := 16384, mv := 16385 } }, history := [{ slot := 0, frame := 0, start := 5, done := 6, est := false }, { slot := 1, frame := 1, start := 4, done := 5 }] }, { slot := 0, frame := 0, start := 5, done := 6, est := false }, { slot := 1, frame := 1, start := 4, done := 5 }, bufOf ringP 0, by exact ⟨by decide, by decide, by decide +kernel, by decide, by decide +kernel, by decide +kernel, Or.inl (by decide)⟩⟩,
   ⟨((withBufs ready [ringP, sparseP]).setTask 191 (some { p := { keyP with block := .frcMc { hist := 16384, mv := 16385 } }, history := [{ slot := 0, frame := 0, start := 5, done := 6, est := false }, { slot := 1, frame := 1, start := 4, done := 5 }], migrate := some (1, 5) })).setEngine 1 { st := .shadow }, 0, 191, { p := { keyP with block := .frcMc { hist := 16384, mv := 16385 } }, history := [{ slot := 0, frame := 0, start := 5, done := 6, est := false }, { slot := 1, frame := 1, start := 4, done := 5 }], migrate := some (1, 5) }, { slot := 0, frame := 0, start := 5, done := 6, est := false }, { slot := 1, frame := 1, start := 4, done := 5 }, bufOf ringP 0, 1, 5, by decide +kernel⟩,
   ⟨ready.setTask 191 (some keyTask), 0, 191, keyTask, by decide +kernel⟩⟩

theorem test_meets_DecisionAndFlatten :
    (∃ (s : State) (t : Tick) (n : Nat) (o : OutRaster), s.sys.stage ≠ .inReset ∧
      ((fun w => w.outRaster n = some o ∧ (w.atDecision n o = false ∨ (w.compOut n).decisionFor.isSome = true)) : State → Prop) (s.advance t)) ∧
    (∃ (s : State) (t : Tick) (n : Nat) (o : OutRaster), s.sys.stage ≠ .inReset ∧
      ((fun w => w.outRaster n = some o ∧ w.atDecision n o = true ∧ (w.compOut n).decisionFor = none ∧ w.sys.quiet = .awake ∧ w.isMate = true) : State → Prop) (s.advance t)) ∧
    (∃ (s : State) (t : Tick) (n : Nat) (o : OutRaster), s.sys.stage ≠ .inReset ∧
      ((fun w => w.outRaster n = some o ∧ w.atDecision n o = true ∧ (w.compOut n).decisionFor = none ∧ w.sys.quiet = .awake ∧ w.isMate = false) : State → Prop) (s.advance t)) ∧
    (∃ (s : State) (t : Tick) (n k : Nat) (o : OutRaster) (r : StaticRun) (x : Flatten) (b : Buf), 
    let tiles (w : State) : List Nat := w.occupiedTiles n x.from_ b.params.width b.params.height
    
    let ready (w : State) : Prop := runAt (w.compOut n) k = some r ∧ r.flat = some x ∧ w.outRaster n = some o ∧ x.result = none ∧
      w.sys.quiet = .awake ∧ w.bufAt x.into = some b
    s.sys.stage ≠ .inReset ∧
      ((fun w => ready w ∧ b.params.count < (tiles w).length) : State → Prop) (s.advance t)) ∧
    (∃ (s : State) (t : Tick) (n k : Nat) (o : OutRaster) (r : StaticRun) (x : Flatten) (b : Buf), 
    let tiles (w : State) : List Nat := w.occupiedTiles n x.from_ b.params.width b.params.height
    
    let new (w : State) : Nat := sparseCharge (densestRow b.params.width (tiles w)) b.params.width b.params.height o.desc
    
    let add (w : State) : Charge := { kind := 4, holder := 2 * n + k, sub := x.into, mb := max (w.sparseHeld n k) (new w) }
    
    let ready (w : State) : Prop := runAt (w.compOut n) k = some r ∧ r.flat = some x ∧ w.outRaster n = some o ∧ x.result = none ∧
      w.sys.quiet = .awake ∧ w.bufAt x.into = some b
    s.sys.stage ≠ .inReset ∧
      ((fun w => ready w ∧ (tiles w).length ≤ b.params.count ∧ (w.admission (ofSparse n k) [add w]).isSome = true) : State → Prop) (s.advance t)) ∧
    (∃ (s : State) (t : Tick) (n k : Nat) (o : OutRaster) (r : StaticRun) (x : Flatten) (b : Buf), 
    let tiles (w : State) : List Nat := w.occupiedTiles n x.from_ b.params.width b.params.height
    
    let new (w : State) : Nat := sparseCharge (densestRow b.params.width (tiles w)) b.params.width b.params.height o.desc
    
    let add (w : State) : Charge := { kind := 4, holder := 2 * n + k, sub := x.into, mb := max (w.sparseHeld n k) (new w) }
    
    let ready (w : State) : Prop := runAt (w.compOut n) k = some r ∧ r.flat = some x ∧ w.outRaster n = some o ∧ x.result = none ∧
      w.sys.quiet = .awake ∧ w.bufAt x.into = some b
    s.sys.stage ≠ .inReset ∧
      ((fun w => ready w ∧ (tiles w).length ≤ b.params.count ∧ w.admission (ofSparse n k) [add w] = none) : State → Prop) (s.advance t)) ∧
    (∃ (s : State) (t : Tick) (n k : Nat), s.sys.stage ≠ .inReset ∧
      ((fun w => runAt (w.compOut n) k = none) : State → Prop) (s.advance t)) :=
  ⟨⟨wired, 0, 511, { started := true }, by decide +kernel⟩,
   ⟨{ wired with rasters := [(511, some { started := true, line := 1124 })], pair := { role := .mate, sync := .lockstep } }, 0, 511, { started := true, line := 1124 }, by decide +kernel⟩,
   ⟨{ wired with rasters := [(511, some { started := true, line := 1124 })] }, 0, 511, { started := true, line := 1124 }, by decide +kernel⟩,
   ⟨withBufs { wired with comp := { outs := [(511, { runs := [none, some { zlo := 1, zhi := 7, bufA := 16384, bufB := 16385, flat := some { first := 0, into := 16385, from_ := [(1, { enable := true, buf := some 16386 })], jobs := [], flattener := 15 } }] })] }, pond := { ready.pond with mem := [(134217984 + 24, 2)] } } [{ typ := 3, format := 6, count := 0, width := 64, height := 64 }, { typ := 3, format := 6, count := 0, width := 64, height := 64 }, stillP], 0, 511, 1, { started := true }, { zlo := 1, zhi := 7, bufA := 16384, bufB := 16385, flat := some { first := 0, into := 16385, from_ := [(1, { enable := true, buf := some 16386 })], jobs := [], flattener := 15 } }, { first := 0, into := 16385, from_ := [(1, { enable := true, buf := some 16386 })], jobs := [], flattener := 15 }, bufOf { typ := 3, format := 6, count := 0, width := 64, height := 64 } 67108864, by decide +kernel⟩,
   ⟨withBufs { wired with comp := { outs := [(511, { runs := [none, some { zlo := 1, zhi := 7, bufA := 16384, bufB := 16385, flat := some { first := 0, into := 16385, from_ := [], jobs := [], flattener := 15 } }] })] }, pond := { ready.pond with charges := [{ kind := 0, holder := 0, mb := 3150001 }] } } [{ typ := 3, format := 6, count := 1, width := 64, height := 64 }, { typ := 3, format := 6, count := 1, width := 64, height := 64 }, stillP], 0, 511, 1, { started := true }, { zlo := 1, zhi := 7, bufA := 16384, bufB := 16385, flat := some { first := 0, into := 16385, from_ := [], jobs := [], flattener := 15 } }, { first := 0, into := 16385, from_ := [], jobs := [], flattener := 15 }, bufOf { typ := 3, format := 6, count := 1, width := 64, height := 64 } 67108864, by decide +kernel⟩,
   ⟨withBufs { wired with comp := { outs := [(511, { runs := [none, some { zlo := 1, zhi := 7, bufA := 16384, bufB := 16385, flat := some { first := 0, into := 16385, from_ := [], jobs := [], flattener := 15 } }] })] } } [{ typ := 3, format := 6, count := 1, width := 64, height := 64 }, { typ := 3, format := 6, count := 1, width := 64, height := 64 }, stillP], 0, 511, 1, { started := true }, { zlo := 1, zhi := 7, bufA := 16384, bufB := 16385, flat := some { first := 0, into := 16385, from_ := [], jobs := [], flattener := 15 } }, { first := 0, into := 16385, from_ := [], jobs := [], flattener := 15 }, bufOf { typ := 3, format := 6, count := 1, width := 64, height := 64 } 67108864, by decide +kernel⟩,
   ⟨ready, 0, 511, 1, by decide +kernel⟩⟩

theorem test_meets_PondEvents :
    (∃ (s : State) (t : Tick), s.sys.stage ≠ .inReset ∧
      ((fun w => w.sys.quiet = .awake) : State → Prop) (s.advance t)) ∧
    (∃ (s : State) (t : Tick), s.sys.stage ≠ .inReset ∧
      ((fun w => w.sys.quiet = .awake) : State → Prop) (s.advance t)) ∧
    (∃ (s : State) (t : Tick), s.sys.stage ≠ .inReset ∧
      ((fun w => w.sys.quiet = .awake) : State → Prop) (s.advance t)) ∧
    (∃ (s : State) (t : Tick) (source : Nat), s.sys.stage ≠ .inReset ∧
      ((fun _ => source = 1 ∨ source = 2 ∨ source = 9 ∨ source = 10) : State → Prop) (s.advance t)) ∧
    (∃ (s : State) (t : Tick), s.sys.stage ≠ .inReset ∧
      ((fun _ => True) : State → Prop) (s.advance t)) ∧
    (∃ (s : State) (t : Tick), s.sys.stage ≠ .inReset ∧
      ((fun _ => True) : State → Prop) (s.advance t)) ∧
    (∃ (s : State) (t : Tick) (source : Nat), ∃ corrected, s.sys.stage ≠ .inReset ∧
      ((fun _ => source ≠ 1 ∧ source ≠ 2 ∧ (corrected = false → source ≠ 9 ∧ source ≠ 10)) : State → Prop) (s.advance t)) ∧
    (∃ (s : State) (t : Tick) (id_ : Nat) (x : Xfer) (b : Buf), 
    let found (w : State) : Prop := w.pond.xfers.find? (fun y => y.job == id_) = some x ∧ w.bufAt x.buf = some b ∧ w.pair.role = .solo
    s.sys.stage ≠ .inReset ∧
      ((fun w => found w ∧ x.toDevice = true ∧ x.p.p3 = false ∧ x.p.markComplete = false) : State → Prop) (s.advance t)) ∧
    (∃ (s : State) (t : Tick) (id_ : Nat) (x : Xfer) (b : Buf), 
    let found (w : State) : Prop := w.pond.xfers.find? (fun y => y.job == id_) = some x ∧ w.bufAt x.buf = some b ∧ w.pair.role = .solo
    s.sys.stage ≠ .inReset ∧
      ((fun w => found w ∧ x.toDevice = true ∧ x.p.p3 = true ∧ x.p.markComplete = false) : State → Prop) (s.advance t)) ∧
    (∃ (s : State) (t : Tick) (id_ : Nat) (x : Xfer) (b : Buf), 
    let found (w : State) : Prop := w.pond.xfers.find? (fun y => y.job == id_) = some x ∧ w.bufAt x.buf = some b ∧ w.pair.role = .solo
    s.sys.stage ≠ .inReset ∧
      ((fun w => found w ∧ x.toDevice = true ∧ x.p.p3 = false ∧ x.p.markComplete = true) : State → Prop) (s.advance t)) ∧
    (∃ (s : State) (t : Tick) (id_ : Nat) (x : Xfer) (b : Buf), 
    let found (w : State) : Prop := w.pond.xfers.find? (fun y => y.job == id_) = some x ∧ w.bufAt x.buf = some b ∧ w.pair.role = .solo
    s.sys.stage ≠ .inReset ∧
      ((fun w => found w ∧ x.toDevice = false ∧ x.p.p3 = false) : State → Prop) (s.advance t)) ∧
    (∃ (s : State) (t : Tick) (id_ : Nat) (x : Xfer) (b : Buf), 
    let found (w : State) : Prop := w.pond.xfers.find? (fun y => y.job == id_) = some x ∧ w.bufAt x.buf = some b ∧ w.pair.role = .solo
    s.sys.stage ≠ .inReset ∧
      ((fun w => found w ∧ x.toDevice = false ∧ x.p.p3 = true) : State → Prop) (s.advance t)) :=
  ⟨⟨ready, 0, by decide +kernel⟩,
   ⟨ready, 0, by decide +kernel⟩,
   ⟨ready, 0, by decide +kernel⟩,
   ⟨ready, 0, 10, by decide +kernel⟩,
   ⟨ready, 0, by decide +kernel⟩,
   ⟨ready, 0, by decide +kernel⟩,
   ⟨ready, 0, 3, true, by decide +kernel⟩,
   ⟨withBufs { ready with pond := { ready.pond with xfers := [{ job := 1, p := { window := 16385, offset := 256, bytes := 256 }, buf := 16384, toDevice := true }] } } [ringP], 0, 1, { job := 1, p := { window := 16385, offset := 256, bytes := 256 }, buf := 16384, toDevice := true }, bufOf ringP 0, by decide +kernel⟩,
   ⟨withBufs { ready with pond := { ready.pond with xfers := [{ job := 1, p := { window := 16385, offset := 256, bytes := 256, p3 := true }, buf := 16384, toDevice := true }] } } [ringP], 0, 1, { job := 1, p := { window := 16385, offset := 256, bytes := 256, p3 := true }, buf := 16384, toDevice := true }, bufOf ringP 0, by decide +kernel⟩,
   ⟨withBufs { ready with pond := { ready.pond with xfers := [{ job := 1, p := { window := 16385, offset := 256, bytes := 256, markComplete := true, slot := 3 }, buf := 16384, toDevice := true }] } } [ringP], 0, 1, { job := 1, p := { window := 16385, offset := 256, bytes := 256, markComplete := true, slot := 3 }, buf := 16384, toDevice := true }, bufOf ringP 0, by decide +kernel⟩,
   ⟨withBufs { ready with pond := { ready.pond with xfers := [{ job := 1, p := { window := 16385, offset := 256, bytes := 256 }, buf := 16384, toDevice := false }] } } [ringP], 0, 1, { job := 1, p := { window := 16385, offset := 256, bytes := 256 }, buf := 16384, toDevice := false }, bufOf ringP 0, by decide +kernel⟩,
   ⟨withBufs { ready with pond := { ready.pond with xfers := [{ job := 1, p := { window := 16385, offset := 256, bytes := 256, p3 := true }, buf := 16384, toDevice := false }] } } [ringP], 0, 1, { job := 1, p := { window := 16385, offset := 256, bytes := 256, p3 := true }, buf := 16384, toDevice := false }, bufOf ringP 0, by decide +kernel⟩⟩

/-! ### Witnesses: references and clocks (chapter 15) -/

theorem test_meets_ReferenceEvents :
    (∃ (s : State) (t : Tick) (p : Nat), p < 2 ∧
      s.sys.stage ≠ .inReset ∧
      ((fun w => (w.ref p).present = true ∧ (w.synth p).locked = true) : State → Prop) (s.advance t)) ∧
    (∃ (s : State) (t : Tick) (p : Nat), p < 2 ∧
      s.sys.stage ≠ .inReset ∧
      ((fun w => (w.ref p).present = true ∧ (w.synth p).locked = false) : State → Prop) (s.advance t)) ∧
    (∃ (s : State) (t : Tick) (p : Nat), p < 2 ∧
      s.sys.stage ≠ .inReset ∧
      ((fun w => (w.ref p).present = false) : State → Prop) (s.advance t)) ∧
    (∃ (s : State) (t : Tick) (p : Nat), p < 2 ∧
      s.sys.stage ≠ .inReset ∧
      ((fun w => (w.ref p).present = false ∧ (w.ref p).enable = true) : State → Prop) (s.advance t)) ∧
    (∃ (s : State) (t : Tick) (p : Nat), p < 2 ∧
      s.sys.stage ≠ .inReset ∧
      ((fun w => (w.ref p).enable = false) : State → Prop) (s.advance t)) ∧
    (∃ (s : State) (t : Tick) (p : Nat), p < 2 ∧
      s.sys.stage ≠ .inReset ∧
      ((fun w => (w.ref p).present = true) : State → Prop) (s.advance t)) ∧
    (∃ (s : State) (t : Tick) (p : Nat), p < 2 ∧
      s.sys.stage ≠ .inReset ∧
      ((fun w => (w.ref p).present = false) : State → Prop) (s.advance t)) ∧
    (∃ (s : State) (t : Tick) (p : Nat), p < 2 ∧
      s.sys.stage ≠ .inReset ∧
      ((fun w => (w.ref p).present = true ∧ (w.ref p).lineSync = true) : State → Prop) (s.advance t)) ∧
    (∃ (s : State) (t : Tick) (p : Nat), p < 2 ∧
      s.sys.stage ≠ .inReset ∧
      ((fun w => (w.ref p).present = false ∨ (w.ref p).lineSync = false) : State → Prop) (s.advance t)) ∧
    (∃ (s : State) (t : Tick) (p : Nat), p < 2 ∧
      s.sys.stage ≠ .inReset ∧
      ((fun w => (w.ref p).present = false) : State → Prop) (s.advance t)) ∧
    (∃ (s : State) (t : Tick) (p : Nat), p < 2 ∧
      s.sys.stage ≠ .inReset ∧
      ((fun w => (w.ref p).present = true ∧
    (w.isMate = true ∨ (w.synth p).locked = false ∧ ((w.ref p).returned = false ∨ (w.synth p).aligned = false))) : State → Prop) (s.advance t)) ∧
    (∃ (s : State) (t : Tick) (p : Nat), p < 2 ∧
      s.sys.stage ≠ .inReset ∧
      ((fun w => (w.ref p).present = true ∧ (w.synth p).locked = true ∧ w.isMate = false ∧ (w.synth p).aligned = false) : State → Prop) (s.advance t)) ∧
    (∃ (s : State) (t : Tick) (p : Nat) (off : Int), 
    let away (w : State) (v : Int) : Prop := w.refPeriod p < (off - v).natAbs
    
    let judged (w : State) : Prop := (w.ref p).present = true ∧ w.isMate = false ∧ (w.synth p).aligned = true ∧
      ((w.synth p).locked = true ∨ (w.ref p).returned = true)
    p < 2 ∧
      s.sys.stage ≠ .inReset ∧
      ((fun w => judged w ∧ away w (w.synth p).buildout ∧ ((w.synth p).slewLeft = 0 ∨ away w (w.synth p).slewLeft)) : State → Prop) (s.advance t)) ∧
    (∃ (s : State) (t : Tick) (p : Nat) (off : Int), 
    let away (w : State) (v : Int) : Prop := w.refPeriod p < (off - v).natAbs
    
    let judged (w : State) : Prop := (w.ref p).present = true ∧ w.isMate = false ∧ (w.synth p).aligned = true ∧
      ((w.synth p).locked = true ∨ (w.ref p).returned = true)
    p < 2 ∧
      s.sys.stage ≠ .inReset ∧
      ((fun w => judged w ∧ (¬away w (w.synth p).buildout ∨ (w.synth p).slewLeft ≠ 0 ∧ ¬away w (w.synth p).slewLeft)) : State → Prop) (s.advance t)) :=
  ⟨⟨(ready.setRef 1 { present := true }).setSynth 1 { locked := true }, 0, 1, by decide +kernel⟩,
   ⟨(ready.setRef 1 { present := true }).setSynth 1 {  }, 0, 1, by decide +kernel⟩,
   ⟨ready, 0, 1, by decide +kernel⟩,
   ⟨(ready.setRef 1 { enable := true }).setSynth 1 {  }, 0, 1, by decide +kernel⟩,
   ⟨ready, 0, 1, by decide +kernel⟩,
   ⟨(ready.setRef 1 { present := true }).setSynth 1 {  }, 0, 1, by decide +kernel⟩,
   ⟨ready, 0, 1, by decide +kernel⟩,
   ⟨(ready.setRef 1 { present := true, lineSync := true }).setSynth 1 {  }, 0, 1, by decide +kernel⟩,
   ⟨ready, 0, 1, by decide +kernel⟩,
   ⟨ready, 0, 1, by decide +kernel⟩,
   ⟨(ready.setRef 1 { present := true }).setSynth 1 {  }, 0, 1, by decide +kernel⟩,
   ⟨(ready.setRef 1 { present := true }).setSynth 1 { locked := true }, 0, 1, by decide +kernel⟩,
   ⟨(ready.setRef 1 { present := true, enable := true, freqHz := 148500000 }).setSynth 1 { locked := true, aligned := true }, 0, 1, 1000000, by decide +kernel⟩,
   ⟨(ready.setRef 1 { present := true, enable := true, freqHz := 148500000 }).setSynth 1 { locked := true, aligned := true }, 0, 1, 0, by decide +kernel⟩⟩

theorem test_meets_SynthesizerEvents :
    (∃ (s : State) (t : Tick) (i : Nat), 
    let may (w : State) : Prop := if isHouse i then (w.ref i).present = true else if isOutlet i then (w.synth i).freq ≠ 0 else isLane i = true
    s.sys.stage ≠ .inReset ∧
      ((fun w => (w.synth i).locked = false ∧ (w.synth i).searching = false ∧ may w ∧ (isLane i && (w.synth i).retuning) = false) : State → Prop) (s.advance t)) ∧
    (∃ (s : State) (t : Tick) (i : Nat), 
    let may (w : State) : Prop := if isHouse i then (w.ref i).present = true else if isOutlet i then (w.synth i).freq ≠ 0 else isLane i = true
    s.sys.stage ≠ .inReset ∧
      ((fun w => (w.synth i).locked = false ∧ (w.synth i).searching = false ∧ may w ∧ isLane i = true ∧ (w.synth i).retuning = true) : State → Prop) (s.advance t)) ∧
    (∃ (s : State) (t : Tick) (i : Nat), 
    let may (w : State) : Prop := if isHouse i then (w.ref i).present = true else if isOutlet i then (w.synth i).freq ≠ 0 else isLane i = true
    s.sys.stage ≠ .inReset ∧
      ((fun w => (w.synth i).locked = true ∨ (w.synth i).searching = true ∨ ¬may w) : State → Prop) (s.advance t)) ∧
    (∃ (s : State) (t : Tick) (i : Nat), s.sys.stage ≠ .inReset ∧
      ((fun w => (w.synth i).locked = true ∧ isLane i = false) : State → Prop) (s.advance t)) ∧
    (∃ (s : State) (t : Tick) (i : Nat), s.sys.stage ≠ .inReset ∧
      ((fun w => (w.synth i).locked = false) : State → Prop) (s.advance t)) ∧
    (∃ (s : State) (t : Tick) (i : Nat), s.sys.stage ≠ .inReset ∧
      ((fun w => (w.synth i).retuning = true ∧ (w.synth i).searching = false ∧ ((w.synth i).bandFrom = .table ∨ (w.synth i).bandFrom = .stored)) : State → Prop) (s.advance t)) ∧
    (∃ (s : State) (t : Tick) (i : Nat), s.sys.stage ≠ .inReset ∧
      ((fun w => (w.synth i).retuning = false ∨ (w.synth i).searching = true) : State → Prop) (s.advance t)) ∧
    (∃ (s : State) (t : Tick) (i : Nat), s.sys.stage ≠ .inReset ∧
      ((fun w => (w.synth i).searching = true) : State → Prop) (s.advance t)) ∧
    (∃ (s : State) (t : Tick) (i : Nat), s.sys.stage ≠ .inReset ∧
      ((fun w => (w.synth i).searching = false) : State → Prop) (s.advance t)) ∧
    (∃ (s : State) (t : Tick), s.sys.stage ≠ .inReset ∧
      ((fun _ => True) : State → Prop) (s.advance t)) ∧
    (∃ (s : State) (t : Tick), s.sys.stage ≠ .inReset ∧
      ((fun _ => True) : State → Prop) (s.advance t)) ∧
    (∃ (s : State) (t : Tick) (i : Nat), s.sys.stage ≠ .inReset ∧
      ((fun w => isLane i = true ∧ (w.synth i).locked = true) : State → Prop) (s.advance t)) ∧
    (∃ (s : State) (t : Tick) (i : Nat), s.sys.stage ≠ .inReset ∧
      ((fun w => isLane i = false ∨ (w.synth i).locked = false) : State → Prop) (s.advance t)) ∧
    (∃ (s : State) (t : Tick), s.sys.stage ≠ .inReset ∧
      ((fun w => w.hub.armed = true ∧ w.hub.timecmp ≤ w.stc) : State → Prop) (s.advance t)) ∧
    (∃ (s : State) (t : Tick), s.sys.stage ≠ .inReset ∧
      ((fun w => w.hub.armed = false ∨ w.stc < w.hub.timecmp) : State → Prop) (s.advance t)) :=
  ⟨⟨ready.setRef 1 { present := true }, 0, 1, by decide +kernel⟩,
   ⟨ready.setSynth 31 { retuning := true }, 0, 31, by decide +kernel⟩,
   ⟨ready.setSynth 1 { locked := true }, 0, 1, by decide +kernel⟩,
   ⟨ready.setSynth 1 { locked := true }, 0, 1, by decide +kernel⟩,
   ⟨ready, 0, 35, by decide +kernel⟩,
   ⟨ready.setSynth 35 { retuning := true, bandFrom := .stored }, 0, 35, by decide +kernel⟩,
   ⟨ready, 0, 35, by decide +kernel⟩,
   ⟨ready.setSynth 35 { searching := true }, 0, 35, by decide +kernel⟩,
   ⟨ready, 0, 35, by decide +kernel⟩,
   ⟨ready, 0, by decide +kernel⟩,
   ⟨ready, 0, by decide +kernel⟩,
   ⟨ready.setSynth 31 { locked := true }, 0, 31, by decide +kernel⟩,
   ⟨ready, 0, 32, by decide +kernel⟩,
   ⟨{ ready with hub := { ready.hub with armed := true } }, 0, by decide +kernel⟩,
   ⟨ready, 0, by decide +kernel⟩⟩

/-! ### Witnesses: audio (chapter 11) -/

theorem test_meets_AudioDestinationEvents :
    (∃ (s : State) (t : Tick) (c : Nat) (d : DstInfo), 
    let served (w : State) : State := w.serveTo c (w.dueSample d)
    s.sys.stage ≠ .inReset ∧
      ((fun w => w.dstInfo c = some d ∧ w.sys.quiet ≠ .asleep ∧ (served w).isLead = false) : State → Prop) (s.advance t)) ∧
    (∃ (s : State) (t : Tick) (c : Nat) (d : DstInfo), 
    let served (w : State) : State := w.serveTo c (w.dueSample d)
    
    let block (w : State) : Nat := d.blockOf (d.zero + w.dueSample d * samplePeriod d.rate)
    
    let told (w : State) : State := (served w).emit (.brinen 7 [0, c, block w, if ((served w).dst c).under = 0 then 0 else 1])
    
    let from_ (w : State) : Option (Nat × Asrc) := (w.dst c).route.bind fun r => w.asrcOf r.src
    s.sys.stage ≠ .inReset ∧
      ((fun w => w.dstInfo c = some d ∧ w.sys.quiet ≠ .asleep ∧ (served w).isLead = true ∧ from_ (told w) = none) : State → Prop) (s.advance t)) ∧
    (∃ (s : State) (t : Tick) (c g : Nat) (d : DstInfo) (a : Asrc), 
    let served (w : State) : State := w.serveTo c (w.dueSample d)
    
    let block (w : State) : Nat := d.blockOf (d.zero + w.dueSample d * samplePeriod d.rate)
    
    let told (w : State) : State := (served w).emit (.brinen 7 [0, c, block w, if ((served w).dst c).under = 0 then 0 else 1])
    
    let from_ (w : State) : Option (Nat × Asrc) := (w.dst c).route.bind fun r => w.asrcOf r.src
    s.sys.stage ≠ .inReset ∧
      ((fun w => w.dstInfo c = some d ∧ w.sys.quiet ≠ .asleep ∧ (served w).isLead = true ∧ from_ (told w) = some (g, a)) : State → Prop) (s.advance t)) ∧
    (∃ (s : State) (t : Tick) (c : Nat), s.sys.stage ≠ .inReset ∧
      ((fun w => w.dstInfo c = none) : State → Prop) (s.advance t)) ∧
    (∃ (s : State) (t : Tick) (c : Nat) (d : DstInfo), s.sys.stage ≠ .inReset ∧
      ((fun w => w.dstInfo c = some d ∧ rateFs d.rate / 50 ≤ (w.dst c).under ∧ (w.dst c).zeroing = none ∧ (w.dst c).heldZero = false) : State → Prop) (s.advance t)) ∧
    (∃ (s : State) (t : Tick) (c : Nat) (d : DstInfo), s.sys.stage ≠ .inReset ∧
      ((fun w => w.dstInfo c = some d ∧ (w.dst c).under < rateFs d.rate / 50) : State → Prop) (s.advance t)) ∧
    (∃ (s : State) (t : Tick) (n : Nat) (p : AudioEmbedP), s.sys.stage ≠ .inReset ∧
      ((fun w => (w.embed n).p = none) : State → Prop) (s.advance t)) ∧
    (∃ (s : State) (t : Tick) (n : Nat) (p : AudioEmbedP), 
    let next (w : State) : Int := w.nextBlock n p
    
    let idle (w : State) : Prop := w.dueBlock n p < next w ∨ w.txStream n = none ∨ w.sys.quiet = .asleep
    s.sys.stage ≠ .inReset ∧
      ((fun w => (w.embed n).p = some p ∧ idle w) : State → Prop) (s.advance t)) ∧
    (∃ (s : State) (t : Tick) (n : Nat) (p : AudioEmbedP) (v : TxStream), 
    let next (w : State) : Int := w.nextBlock n p
    
    let b := blockSamples p.blkLen
    
    let chan (i : Nat) : Nat := 32 * n + rateK p.rate * i
    
    let nch := p.slots / rateK p.rate
    
    let ready (w : State) : State := (List.range nch).foldl (fun u i => u.serveTo (chan i) (next w * b + b - 1)) w
    
    let sample (w : State) (f i : Nat) : Int × Nat := (ready w).outAt (chan i) p.rate (next w * b + f)
    
    let lead (w : State) (i : Nat) : Nat :=
      if ((ready w).dst (chan (i / 2 * 2))).route.isSome || !((ready w).dst (chan (i / 2 * 2 + 1))).route.isSome then i / 2 * 2
      else i / 2 * 2 + 1
    
    let side (w : State) (f i : Nat) : Nat := (sample w f i).2 % 4 + (sample w f (lead w i)).2 / 4 * 4
    
    let all (w : State) : List (Int × Nat) :=
      (List.range b).flatMap fun f => (List.range nch).map fun i => ((sample w f i).1, side w f i)
    
    let packet (w : State) (ts : Nat) : List Nat := audSymbols p.rate nch b ts ((all w).map (·.1)) (side w)
    
    let drawn (w : State) : Nat × State := (((ready w).setEmbed n { (ready w).embed n with sent := some (next w) }).noteSent n (packet w 0)).freeNat
    
    let since (w : State) : Int := (w.now : Int) - (w.gridZero (w.houseOf n) + next w * b * samplePeriod p.rate) / 196
    
    let offset (w : State) : Nat :=
      min 1048575 ((since w).toNat + (drawn w).1 % (2 * superframeTicks (w.txDir v.cfg.bundle).rate + 1))
    
    let sent (w : State) : State := if v.idle then (drawn w).2
      else ((drawn w).2.emit (.aud n (next w).toNat (all w))).queuePackets n [packet w (offset w)]
    
    let idle (w : State) : Prop := w.dueBlock n p < next w ∨ w.txStream n = none ∨ w.sys.quiet = .asleep
    s.sys.stage ≠ .inReset ∧
      ((fun w => (w.embed n).p = some p ∧ w.txStream n = some v ∧ ¬idle w ∧ ((sent w).embed n).sent ≠ (w.embed n).sent) : State → Prop) (s.advance t)) :=
  ⟨⟨(ready.setPort 31 { cfg := some { port := 31, enable := true } }), 0, 17376, ⟨2, .grid 0, 0, 16, -529200, 264600000⟩, by decide +kernel⟩,
   ⟨{ (ready.setPort 31 { cfg := some { port := 31, enable := true } }) with pair := { role := .lead, sync := .lockstep } }, 0, 17376, ⟨2, .grid 0, 0, 16, -529200, 264600000⟩, by decide +kernel⟩,
   ⟨{ (((ready.setPort 31 { cfg := some { port := 31, enable := true } }).setDst 17376 { route := some { src := 17376 } }).setAsrc 255 (some { p := { group := 255, op := 1, first := 17376 }, inRate := 2 })) with pair := { role := .lead, sync := .lockstep } }, 0, 17376, 255, ⟨2, .grid 0, 0, 16, -529200, 264600000⟩, { p := { group := 255, op := 1, first := 17376 }, inRate := 2 }, by decide +kernel⟩,
   ⟨ready, 0, 17376, by decide +kernel⟩,
   ⟨((ready.setPort 31 { cfg := some { port := 31, enable := true } }).setDst 17376 { under := 960 }), 0, 17376, ⟨2, .grid 0, 0, 16, -529200, 264600000⟩, by decide +kernel⟩,
   ⟨((ready.setPort 31 { cfg := some { port := 31, enable := true } }).setDst 17376 { under := 959 }), 0, 17376, ⟨2, .grid 0, 0, 16, -529200, 264600000⟩, by decide +kernel⟩,
   ⟨ready, 0, 511, { output := 511, enable := true }, by decide +kernel⟩,
   ⟨{ (wired.setEmbed 511 { p := some { output := 511, enable := true } }) with txStreams := [] }, 0, 511, { output := 511, enable := true }, by decide +kernel⟩,
   ⟨(wired.setEmbed 511 { p := some { output := 511, enable := true } }), 2700000, 511, { output := 511, enable := true }, { cfg := lane 1 63 7 }, by decide +kernel⟩⟩

theorem test_meets_AudioPortEvents :
    (∃ (s : State) (t : Tick) (p : Nat), s.sys.stage ≠ .inReset ∧
      ((fun w => (w.port p).cfg = none) : State → Prop) (s.advance t)) ∧
    (∃ (s : State) (t : Tick) (p : Nat) (f : TdmFrame) (k : AportSetP), 
    let whole : Bool := k.role == 0 || f.bits == k.slots * k.width
    
    let received (w : State) : State := match (w.port p).lastEdge with
      | some u => if (w.port p).framed && whole then w.receiveFrame p k u f.slots else w
      | none => w
    
    let framed (w v : State) : State :=
      if k.role = 1 then v.frameTarget p k f.bits
      else if (w.port p).framed then v else v.beginTdm p
    
    let masked (w v : State) : State := let u := framed w v; (u.setPort p { u.port p with lastEdge := some w.now }).applyMasks p
    
    let shut (w : State) : Prop := w.sys.quiet = .asleep ∨ w.sys.quiet = .entering ∧ (w.port p).stopping = false
    ∃ k', s.sys.stage ≠ .inReset ∧
      ((fun w => (w.port p).cfg = some k ∧ ¬shut w ∧ ((received w).port p).stopping = false ∧
      ((masked w (received w)).port p).cfg = some k') : State → Prop) (s.advance t)) ∧
    (∃ (s : State) (t : Tick) (p : Nat) (f : TdmFrame) (k : AportSetP), 
    let whole : Bool := k.role == 0 || f.bits == k.slots * k.width
    
    let received (w : State) : State := match (w.port p).lastEdge with
      | some u => if (w.port p).framed && whole then w.receiveFrame p k u f.slots else w
      | none => w
    
    let shut (w : State) : Prop := w.sys.quiet = .asleep ∨ w.sys.quiet = .entering ∧ (w.port p).stopping = false
    s.sys.stage ≠ .inReset ∧
      ((fun w => (w.port p).cfg = some k ∧ ¬shut w ∧ ((received w).port p).stopping = true ∧ (received w).portSilent p = true) : State → Prop) (s.advance t)) ∧
    (∃ (s : State) (t : Tick) (p : Nat), 
    let shut (w : State) : Prop := w.sys.quiet = .asleep ∨ w.sys.quiet = .entering ∧ (w.port p).stopping = false
    s.sys.stage ≠ .inReset ∧
      (shut : State → Prop) (s.advance t)) ∧
    (∃ (s : State) (t : Tick) (p : Nat) (f : TdmFrame) (k : AportSetP) (last : Tick), 
    let framed (w v : State) : State :=
      if k.role = 1 then v.frameTarget p k f.bits
      else if (w.port p).framed then v else v.beginTdm p
    s.sys.stage ≠ .inReset ∧
      ((fun w => (w.port p).cfg = some k ∧ (w.port p).lastEdge = some last ∧ k.role = 1 ∧ (w.port p).framed = true ∧
      tick196 last + 4 * samplePeriod k.rate ≤ tick196 w.now) : State → Prop) (s.advance t)) ∧
    (∃ (s : State) (t : Tick) (p : Nat), s.sys.stage ≠ .inReset ∧
      ((fun w => (w.port p).cfg = none ∨ (w.port p).lastEdge = none) : State → Prop) (s.advance t)) ∧
    (∃ (s : State) (t : Tick) (d house : Nat), 
    let locked (x : Domain) : Domain :=
      if house = 0 then { x with lockA := x.lockA || decide (262144 ≤ x.runA) } else { x with lockB := x.lockB || decide (262144 ≤ x.runB) }
    s.sys.stage ≠ .inReset ∧
      ((fun w => locked (w.domain d) ≠ w.domain d ∧ w.isMate = false) : State → Prop) (s.advance t)) ∧
    (∃ (s : State) (t : Tick) (d house : Nat), 
    let locked (x : Domain) : Domain :=
      if house = 0 then { x with lockA := x.lockA || decide (262144 ≤ x.runA) } else { x with lockB := x.lockB || decide (262144 ≤ x.runB) }
    s.sys.stage ≠ .inReset ∧
      ((fun w => locked (w.domain d) = w.domain d ∨ w.isMate = true) : State → Prop) (s.advance t)) ∧
    (∃ (s : State) (t : Tick) (d : Nat) (last : Tick), s.sys.stage ≠ .inReset ∧
      ((fun w => (w.domain d).lastT = some last ∧ last + 270000000 ≤ w.now ∧ w.isMate = false ∧
      ((w.domain d).lockA = true ∨ (w.domain d).lockB = true)) : State → Prop) (s.advance t)) ∧
    (∃ (s : State) (t : Tick) (d : Nat) (last : Tick), s.sys.stage ≠ .inReset ∧
      ((fun w => (w.domain d).lastT = some last ∧ last + 270000000 ≤ w.now ∧ w.isMate = false ∧
      (w.domain d).lockA = false ∧ (w.domain d).lockB = false) : State → Prop) (s.advance t)) ∧
    (∃ (s : State) (t : Tick) (d : Nat), s.sys.stage ≠ .inReset ∧
      ((fun w => (w.domain d).lastT = none ∨ w.isMate = true) : State → Prop) (s.advance t)) ∧
    (∃ (s : State) (t : Tick) (g : Nat) (a : Asrc), s.sys.stage ≠ .inReset ∧
      ((fun w => w.asrc g = some a ∧ a.st = .acquire ∧ a.lastT.isSome = true ∧ a.sinceT + 67500000 ≤ w.now ∧ w.isMate = false) : State → Prop) (s.advance t)) ∧
    (∃ (s : State) (t : Tick) (g : Nat) (a : Asrc), s.sys.stage ≠ .inReset ∧
      ((fun w => w.asrc g = some a ∧ (a.st ≠ .acquire ∨ w.now < a.sinceT + 67500000 ∨ w.isMate = true)) : State → Prop) (s.advance t)) ∧
    (∃ (s : State) (t : Tick) (house g : Nat) (a : Asrc), 
    let locked (x : Domain) : Domain :=
      if house = 0 then { x with lockA := x.lockA || decide (262144 ≤ x.runA) } else { x with lockB := x.lockB || decide (262144 ≤ x.runB) }
    s.sys.stage ≠ .inReset ∧
      ((fun w => w.asrc g = some a ∧ a.st = .locked ∧ (∃ u, a.lastT = some u ∧ u + tick196 27000000 ≤ tick196 w.now) ∧ w.isMate = false) : State → Prop) (s.advance t)) ∧
    (∃ (s : State) (t : Tick) (house g : Nat) (a : Asrc), 
    let locked (x : Domain) : Domain :=
      if house = 0 then { x with lockA := x.lockA || decide (262144 ≤ x.runA) } else { x with lockB := x.lockB || decide (262144 ≤ x.runB) }
    s.sys.stage ≠ .inReset ∧
      ((fun w => w.asrc g = some a ∧ (a.st ≠ .locked ∨ w.isMate = true)) : State → Prop) (s.advance t)) ∧
    (∃ (s : State) (t : Tick) (pair : Nat), 
    let j (w : State) : PairJudge := fget {} w.audio.pairs pair
    s.sys.stage ≠ .inReset ∧
      ((fun w => (j w).non = true ∧ (j w).clean = 4096 ∧ (j w).bit1 = false ∧ w.isMate = false) : State → Prop) (s.advance t)) ∧
    (∃ (s : State) (t : Tick) (pair : Nat), 
    let j (w : State) : PairJudge := fget {} w.audio.pairs pair
    s.sys.stage ≠ .inReset ∧
      ((fun w => (j w).non = false ∨ (j w).clean ≠ 4096 ∨ (j w).bit1 = true ∨ w.isMate = true) : State → Prop) (s.advance t)) :=
  ⟨⟨ready, 0, 31, by decide +kernel⟩,
   ⟨(ready.setPort 31 { cfg := some { port := 31, enable := true } }), 0, 31, { bits := 0 }, { port := 31, enable := true }, { port := 31, enable := true }, by decide +kernel⟩,
   ⟨ready.setPort 31 { cfg := some { port := 31, enable := true }, stopping := true }, 0, 31, { bits := 0 }, { port := 31, enable := true }, by decide +kernel⟩,
   ⟨{ ready with sys := { ready.sys with quiet := .asleep } }, 0, 31, by decide +kernel⟩,
   ⟨ready.setPort 31 { cfg := some { port := 31, enable := true, role := 1 }, framed := true, lastEdge := some 0 }, 22500, 31, { bits := 0 }, { port := 31, enable := true, role := 1 }, 0, by decide +kernel⟩,
   ⟨ready, 0, 31, by decide +kernel⟩,
   ⟨ready.setDomain 4127 { runB := 262144 }, 0, 4127, 1, by decide +kernel⟩,
   ⟨ready, 0, 4127, 1, by decide +kernel⟩,
   ⟨ready.setDomain 4127 { lastT := some 0, lockB := true }, 270000000, 4127, 0, by decide +kernel⟩,
   ⟨ready.setDomain 4127 { lastT := some 0 }, 270000000, 4127, 0, by decide +kernel⟩,
   ⟨ready, 0, 4127, by decide +kernel⟩,
   ⟨ready.setAsrc 255 (some { p := { group := 255, op := 1, first := 17376 }, inRate := 2, lastT := some 0 }), 67500000, 255, { p := { group := 255, op := 1, first := 17376 }, inRate := 2, lastT := some 0 }, by decide +kernel⟩,
   ⟨ready.setAsrc 255 (some { p := { group := 255, op := 1, first := 17376 }, inRate := 2 }), 67499999, 255, { p := { group := 255, op := 1, first := 17376 }, inRate := 2 }, by decide +kernel⟩,
   ⟨ready.setAsrc 255 (some { p := { group := 255, op := 1, first := 17376 }, inRate := 2, st := .locked, lastT := some 0 }), 27000000, 1, 255, { p := { group := 255, op := 1, first := 17376 }, inRate := 2, st := .locked, lastT := some 0 }, by exact ⟨by decide, by decide +kernel, by decide, ⟨0, by decide +kernel⟩, by decide⟩⟩,
   ⟨ready.setAsrc 255 (some { p := { group := 255, op := 1, first := 17376 }, inRate := 2 }), 0, 1, 255, { p := { group := 255, op := 1, first := 17376 }, inRate := 2 }, by decide +kernel⟩,
   ⟨{ ready with audio := { pairs := [(9215, { non := true, clean := 4096 })] } }, 0, 9215, by decide +kernel⟩,
   ⟨ready, 0, 9215, by decide +kernel⟩⟩

/-! ### Witnesses: the pair (chapter 14) -/

theorem test_meets_LinkMessages :
    (∃ (bad a : Arrival), bad.crcOk = false ∧
      a.crcOk = true) ∧
    (∃ (s : State) (t : Tick) (bad a : Arrival) (m : HelloBody), 
    let clash (w : State) : Bool := w.pair.role == .lead && w.pair.authority && m.role == 1 && m.authority
    
    let up (w : State) : State := (w.setPair { w.pair with up := true, mateFailed := false }).fire 976
    bad.crcOk = false ∧
      a.crcOk = true ∧
      s.sys.stage ≠ .inReset ∧
      ((fun w => w.pair.up = false ∧ (clash w = false ∨ w.pair.conflict = true)) : State → Prop) (s.advance t)) ∧
    (∃ (s : State) (t : Tick) (bad a : Arrival) (m : HelloBody), 
    let clash (w : State) : Bool := w.pair.role == .lead && w.pair.authority && m.role == 1 && m.authority
    
    let up (w : State) : State := (w.setPair { w.pair with up := true, mateFailed := false }).fire 976
    bad.crcOk = false ∧
      a.crcOk = true ∧
      s.sys.stage ≠ .inReset ∧
      ((fun w => w.pair.up = false ∧ clash w = true ∧ w.pair.conflict = false) : State → Prop) (s.advance t)) ∧
    (∃ (s : State) (t : Tick) (bad a : Arrival) (m : HelloBody), 
    let clash (w : State) : Bool := w.pair.role == .lead && w.pair.authority && m.role == 1 && m.authority
    
    let level (w : State) : Prop := (m.frameA : Int) = (w.house 0).frame.toNat ∧ (m.frameB : Int) = (w.house 1).frame.toNat
    
    let up (w : State) : State := (w.setPair { w.pair with up := true, mateFailed := false }).fire 976
    bad.crcOk = false ∧
      a.crcOk = true ∧
      s.sys.stage ≠ .inReset ∧
      ((fun w => w.pair.up = true ∧ clash w = false ∧ level w) : State → Prop) (s.advance t)) ∧
    (∃ (s : State) (t : Tick) (bad a : Arrival) (m : HelloBody), 
    let up (w : State) : State := (w.setPair { w.pair with up := true, mateFailed := false }).fire 976
    
    let yields (w : State) : Prop := w.pair.role = .lead ∧ w.pair.authority = false ∧ m.role = 1 ∧ m.authority = true
    
    let opens (w : State) : Prop := w.pair.hello = some m ∧ w.pair.up = false ∧ w.pair.conflict = false ∧ w.brinenLocked = true
    bad.crcOk = false ∧
      a.crcOk = true ∧
      s.sys.stage ≠ .inReset ∧
      ((fun w => opens w ∧ ¬yields w ∧ (w.pair.deltaA ≠ 0 ∨ w.pair.deltaB ≠ 0)) : State → Prop) (s.advance t)) ∧
    (∃ (s : State) (t : Tick) (bad a : Arrival) (m : HelloBody), 
    let up (w : State) : State := (w.setPair { w.pair with up := true, mateFailed := false }).fire 976
    
    let yields (w : State) : Prop := w.pair.role = .lead ∧ w.pair.authority = false ∧ m.role = 1 ∧ m.authority = true
    
    let opens (w : State) : Prop := w.pair.hello = some m ∧ w.pair.up = false ∧ w.pair.conflict = false ∧ w.brinenLocked = true
    bad.crcOk = false ∧
      a.crcOk = true ∧
      s.sys.stage ≠ .inReset ∧
      ((fun w => opens w ∧ ¬yields w ∧ w.pair.deltaA = 0 ∧ w.pair.deltaB = 0) : State → Prop) (s.advance t)) ∧
    (∃ (s : State) (t : Tick) (bad a : Arrival) (m : HelloBody), 
    let up (w : State) : State := (w.setPair { w.pair with up := true, mateFailed := false }).fire 976
    
    let yields (w : State) : Prop := w.pair.role = .lead ∧ w.pair.authority = false ∧ m.role = 1 ∧ m.authority = true
    
    let opens (w : State) : Prop := w.pair.hello = some m ∧ w.pair.up = false ∧ w.pair.conflict = false ∧ w.brinenLocked = true
    bad.crcOk = false ∧
      a.crcOk = true ∧
      s.sys.stage ≠ .inReset ∧
      ((fun w => opens w ∧ yields w ∧ (w.pair.deltaA ≠ 0 ∨ w.pair.deltaB ≠ 0)) : State → Prop) (s.advance t)) ∧
    (∃ (s : State) (t : Tick) (bad a : Arrival), bad.crcOk = false ∧
      a.crcOk = true ∧
      s.sys.stage ≠ .inReset ∧
      ((fun w => w.pair.hello = none ∨ w.brinenLocked = false) : State → Prop) (s.advance t)) :=
  ⟨⟨{ crcOk := false }, {}, by decide +kernel⟩,
   ⟨ready, 0, { crcOk := false }, {}, ⟨2, false, 0, 0, 0, 0, 0, []⟩, by decide +kernel⟩,
   ⟨ready.setPair { role := .lead, authority := true }, 0, { crcOk := false }, {}, ⟨1, true, 0, 0, 0, 0, 0, []⟩, by decide +kernel⟩,
   ⟨ready.setPair { up := true }, 0, { crcOk := false }, {}, ⟨2, false, 0, 0, 0, 0, 0, []⟩, by decide +kernel⟩,
   ⟨(ready.setPair { hello := some ⟨2, false, 0, 0, 0, 0, 0, []⟩, deltaA := 1 }).setRx 64 { lanes := List.replicate 8 { st := .locked } }, 0, { crcOk := false }, {}, ⟨2, false, 0, 0, 0, 0, 0, []⟩, by decide +kernel⟩,
   ⟨(ready.setPair { hello := some ⟨2, false, 0, 0, 0, 0, 0, []⟩ }).setRx 64 { lanes := List.replicate 8 { st := .locked } }, 0, { crcOk := false }, {}, ⟨2, false, 0, 0, 0, 0, 0, []⟩, by decide +kernel⟩,
   ⟨(ready.setPair { role := .lead, hello := some ⟨1, true, 0, 0, 0, 0, 0, []⟩, deltaB := -1 }).setRx 64 { lanes := List.replicate 8 { st := .locked } }, 0, { crcOk := false }, {}, ⟨1, true, 0, 0, 0, 0, 0, []⟩, by decide +kernel⟩,
   ⟨ready, 0, { crcOk := false }, {}, by decide +kernel⟩⟩

theorem test_meets_PartnerMessages :
    (∃ (s : State) (t : Tick) (a : Arrival), 
    let apart (w : State) : State := (w.setPair { w.pair with sync := .apart, own := [], partner := [], windows := [] }).fire 980
    a.crcOk = true ∧
      s.sys.stage ≠ .inReset ∧
      ((fun w => w.pair.role ≠ .solo ∧ w.pair.mateFailed = false ∧ w.pair.sync ≠ .apart) : State → Prop) (s.advance t)) ∧
    (∃ (s : State) (t : Tick) (a : Arrival), a.crcOk = true ∧
      s.sys.stage ≠ .inReset ∧
      ((fun w => w.pair.role = .solo ∨ w.pair.mateFailed = true) : State → Prop) (s.advance t)) ∧
    (∃ (s : State) (t : Tick) (a : Arrival), a.crcOk = true ∧
      s.sys.stage ≠ .inReset ∧
      ((fun w => w.isMate = true ∧ w.pair.up = true) : State → Prop) (s.advance t)) ∧
    (∃ (s : State) (t : Tick) (a : Arrival), a.crcOk = true ∧
      s.sys.stage ≠ .inReset ∧
      ((fun w => w.isMate = false) : State → Prop) (s.advance t)) ∧
    (∃ (s : State) (t : Tick) (a : Arrival) (n f v x : Nat), a.crcOk = true ∧
      s.sys.stage ≠ .inReset ∧
      ((fun w => w.pair.role = .mate ∧ w.pair.received.contains ({ kind := 0, unit := n, key := f, value := v, extra := x } : Decision) = false) : State → Prop) (s.advance t)) ∧
    (∃ (s : State) (t : Tick) (a : Arrival) (n f v x : Nat), a.crcOk = true ∧
      s.sys.stage ≠ .inReset ∧
      ((fun w => w.pair.role ≠ .mate ∨ w.pair.received.contains ({ kind := 0, unit := n, key := f, value := v, extra := x } : Decision) = true) : State → Prop) (s.advance t)) ∧
    (∃ (s : State) (t : Tick) (a : Arrival) (n f v : Nat), a.crcOk = true ∧
      s.sys.stage ≠ .inReset ∧
      ((fun w => w.pair.role = .mate ∧ w.pair.received.contains ({ kind := 1, unit := n, key := f, value := v } : Decision) = false) : State → Prop) (s.advance t)) ∧
    (∃ (s : State) (t : Tick) (a : Arrival) (n f v : Nat), a.crcOk = true ∧
      s.sys.stage ≠ .inReset ∧
      ((fun w => w.pair.role ≠ .mate ∨ w.pair.received.contains ({ kind := 1, unit := n, key := f, value := v } : Decision) = true) : State → Prop) (s.advance t)) ∧
    (∃ (s : State) (t : Tick) (a : Arrival) (n f : Nat) (under : Bool), a.crcOk = true ∧
      s.sys.stage ≠ .inReset ∧
      ((fun w => w.pair.role = .mate ∧ w.pair.received.contains ({ kind := 2, unit := n, key := f, value := if under then 1 else 0 } : Decision) = false) : State → Prop) (s.advance t)) ∧
    (∃ (s : State) (t : Tick) (a : Arrival) (n f : Nat) (under : Bool), a.crcOk = true ∧
      s.sys.stage ≠ .inReset ∧
      ((fun w => w.pair.role ≠ .mate ∨ w.pair.received.contains ({ kind := 2, unit := n, key := f, value := if under then 1 else 0 } : Decision) = true) : State → Prop) (s.advance t)) ∧
    (∃ (s : State) (t : Tick) (a : Arrival), a.crcOk = true ∧
      s.sys.stage ≠ .inReset ∧
      ((fun w => w.pair.role ≠ .mate) : State → Prop) (s.advance t)) ∧
    (∃ (s : State) (t : Tick) (a : Arrival) (n : Nat) (la lb : Bool), a.crcOk = true ∧
      s.sys.stage ≠ .inReset ∧
      ((fun w => w.pair.role = .mate ∧ (w.domain n).lockA = la ∧ (w.domain n).lockB = lb) : State → Prop) (s.advance t)) ∧
    (∃ (s : State) (t : Tick) (a : Arrival) (n : Nat) (la lb : Bool), a.crcOk = true ∧
      s.sys.stage ≠ .inReset ∧
      ((fun w => w.pair.role = .mate ∧ ((w.domain n).lockA ≠ la ∨ (w.domain n).lockB ≠ lb)) : State → Prop) (s.advance t)) ∧
    (∃ (s : State) (t : Tick) (a : Arrival) (n v : Nat) (c : Asrc), a.crcOk = true ∧
      s.sys.stage ≠ .inReset ∧
      ((fun w => w.pair.role = .mate ∧ w.asrc n = some c ∧ c.st = asrcOfCode v) : State → Prop) (s.advance t)) ∧
    (∃ (s : State) (t : Tick) (a : Arrival) (n v : Nat) (c : Asrc), a.crcOk = true ∧
      s.sys.stage ≠ .inReset ∧
      ((fun w => w.pair.role = .mate ∧ w.asrc n = some c ∧ c.st ≠ asrcOfCode v) : State → Prop) (s.advance t)) ∧
    (∃ (s : State) (t : Tick) (a : Arrival), a.crcOk = true ∧
      s.sys.stage ≠ .inReset ∧
      ((fun w => w.pair.role = .mate) : State → Prop) (s.advance t)) ∧
    (∃ (s : State) (t : Tick) (a : Arrival) (n : Nat) (p : AudioEmbedP) (o : OutRaster), a.crcOk = true ∧
      s.sys.stage ≠ .inReset ∧
      ((fun w => w.pair.role = .mate ∧ (w.embed n).p = some p ∧ w.outRaster n = some o) : State → Prop) (s.advance t)) :=
  ⟨⟨ready.setPair { role := .mate, sync := .lockstep }, 0, {}, by decide +kernel⟩,
   ⟨ready, 0, {}, by decide +kernel⟩,
   ⟨ready.setPair { role := .mate, sync := .lockstep, up := true }, 0, {}, by decide +kernel⟩,
   ⟨ready, 0, {}, by decide +kernel⟩,
   ⟨ready.setPair { role := .mate }, 0, {}, 0, 0, 0, 0, by decide +kernel⟩,
   ⟨ready, 0, {}, 0, 0, 0, 0, by decide +kernel⟩,
   ⟨ready.setPair { role := .mate }, 0, {}, 0, 0, 0, by decide +kernel⟩,
   ⟨ready, 0, {}, 0, 0, 0, by decide +kernel⟩,
   ⟨ready.setPair { role := .mate }, 0, {}, 0, 0, false, by decide +kernel⟩,
   ⟨ready, 0, {}, 0, 0, false, by decide +kernel⟩,
   ⟨ready, 0, {}, by decide +kernel⟩,
   ⟨ready.setPair { role := .mate }, 0, {}, 4127, false, false, by decide +kernel⟩,
   ⟨ready.setPair { role := .mate }, 0, {}, 4127, true, false, by decide +kernel⟩,
   ⟨(ready.setPair { role := .mate }).setAsrc 255 (some { p := { group := 255, op := 1, first := 17376 }, inRate := 2 }), 0, {}, 255, 0, { p := { group := 255, op := 1, first := 17376 }, inRate := 2 }, by decide +kernel⟩,
   ⟨(ready.setPair { role := .mate }).setAsrc 255 (some { p := { group := 255, op := 1, first := 17376 }, inRate := 2 }), 0, {}, 255, 2, { p := { group := 255, op := 1, first := 17376 }, inRate := 2 }, by decide +kernel⟩,
   ⟨ready.setPair { role := .mate }, 0, {}, by decide +kernel⟩,
   ⟨{ (wired.setEmbed 511 { p := some { output := 511, enable := true } }) with pair := { role := .mate } }, 0, {}, 511, { output := 511, enable := true }, { started := true }, by decide +kernel⟩⟩

theorem test_meets_ForwardedCommands :
    (∃ (s : State) (t : Tick) (a : Arrival) (m : CmdBody) (rix : Nat), a.crcOk = true ∧
      s.sys.stage ≠ .inReset ∧
      ((fun w => w.pair.role = .mate ∧ w.pair.sync = .apart ∧ (w.pair.after.any fun x => x.rix == m.rix) = false) : State → Prop) (s.advance t)) ∧
    (∃ (s : State) (t : Tick) (a : Arrival) (m : CmdBody) (rix : Nat), 
    let b := runOfCmd m
    
    let counted (w : State) : State :=
      ({ w with pair := { w.pair with nextRix := m.rix + 1, forwarded := w.pair.forwarded + 1 } }).count 13 0 5
    
    let ans (w : State) : Ans := (counted w).forwardedAns m b
    
    let fresh (w : State) : Prop := w.pair.role = .mate ∧ w.pair.sync ≠ .apart ∧ w.pair.nextRix ≤ m.rix
    a.crcOk = true ∧
      s.sys.stage ≠ .inReset ∧
      ((fun w => fresh w ∧ m.packet.hdr.sched = false ∧ ansCheck (ans w) = none) : State → Prop) (s.advance t)) ∧
    (∃ (s : State) (t : Tick) (a : Arrival) (m : CmdBody) (rix e d : Nat), 
    let b := runOfCmd m
    
    let counted (w : State) : State :=
      ({ w with pair := { w.pair with nextRix := m.rix + 1, forwarded := w.pair.forwarded + 1 } }).count 13 0 5
    
    let ans (w : State) : Ans := (counted w).forwardedAns m b
    
    let fresh (w : State) : Prop := w.pair.role = .mate ∧ w.pair.sync ≠ .apart ∧ w.pair.nextRix ≤ m.rix
    a.crcOk = true ∧
      s.sys.stage ≠ .inReset ∧
      ((fun w => fresh w ∧ m.packet.hdr.sched = false ∧ ansCheck (ans w) = some (e, d)) : State → Prop) (s.advance t)) ∧
    (∃ (s : State) (t : Tick) (a : Arrival) (m : CmdBody) (rix : Nat), 
    let b := runOfCmd m
    
    let counted (w : State) : State :=
      ({ w with pair := { w.pair with nextRix := m.rix + 1, forwarded := w.pair.forwarded + 1 } }).count 13 0 5
    
    let fresh (w : State) : Prop := w.pair.role = .mate ∧ w.pair.sync ≠ .apart ∧ w.pair.nextRix ≤ m.rix
    a.crcOk = true ∧
      s.sys.stage ≠ .inReset ∧
      ((fun w => fresh w ∧ m.packet.hdr.sched = true ∧ checkOf (ctxOf b) b.params (counted w) = none) : State → Prop) (s.advance t)) ∧
    (∃ (s : State) (t : Tick) (a : Arrival) (m : CmdBody) (rix : Nat), a.crcOk = true ∧
      s.sys.stage ≠ .inReset ∧
      ((fun w => w.pair.role = .mate ∧ w.pair.sync ≠ .apart ∧ m.rix < w.pair.nextRix ∨ w.pair.role ≠ .mate) : State → Prop) (s.advance t)) ∧
    (∃ (s : State) (t : Tick) (a : Arrival) (j : Job) (rix : Nat), a.crcOk = true ∧
      s.sys.stage ≠ .inReset ∧
      ((fun w => w.byRix rix = some j ∧ w.pair.role = .lead ∧ j.committed = false ∧ j.verdict = none) : State → Prop) (s.advance t)) ∧
    (∃ (s : State) (t : Tick) (a : Arrival) (rix : Nat), a.crcOk = true ∧
      s.sys.stage ≠ .inReset ∧
      ((fun w => w.byRix rix = none) : State → Prop) (s.advance t)) ∧
    (∃ (s : State) (t : Tick) (a : Arrival) (j : Job) (rix st f : Nat), 
    let early (w : State) : Bool := (w.raster? j.raster).any fun p => j.frame.any fun f => p.onTime f j.line 2
    
    let points (w : State) : Prop := w.byRix rix = some j ∧ w.pair.role = .lead ∧ j.committed = false ∧ early w = false
    a.crcOk = true ∧
      s.sys.stage ≠ .inReset ∧
      ((fun w => points w ∧ j.verdict = some st ∧ (st = stOk ∨ st = stAccepted)) : State → Prop) (s.advance t)) ∧
    (∃ (s : State) (t : Tick) (a : Arrival) (j : Job) (rix st f : Nat), 
    let early (w : State) : Bool := (w.raster? j.raster).any fun p => j.frame.any fun f => p.onTime f j.line 2
    
    let points (w : State) : Prop := w.byRix rix = some j ∧ w.pair.role = .lead ∧ j.committed = false ∧ early w = false
    a.crcOk = true ∧
      s.sys.stage ≠ .inReset ∧
      ((fun w => points w ∧ j.verdict = some st ∧ st ≠ stOk ∧ st ≠ stAccepted) : State → Prop) (s.advance t)) ∧
    (∃ (s : State) (t : Tick) (a : Arrival) (j : Job) (rix f : Nat), 
    let early (w : State) : Bool := (w.raster? j.raster).any fun p => j.frame.any fun f => p.onTime f j.line 2
    
    let points (w : State) : Prop := w.byRix rix = some j ∧ w.pair.role = .lead ∧ j.committed = false ∧ early w = false
    a.crcOk = true ∧
      s.sys.stage ≠ .inReset ∧
      ((fun w => points w ∧ j.verdict = none) : State → Prop) (s.advance t)) ∧
    (∃ (s : State) (t : Tick) (a : Arrival) (j : Job) (rix : Nat), a.crcOk = true ∧
      s.sys.stage ≠ .inReset ∧
      ((fun w => w.byRix rix = some j ∧ w.pair.role = .mate) : State → Prop) (s.advance t)) ∧
    (∃ (s : State) (t : Tick) (a : Arrival) (j : Job) (rix : Nat), a.crcOk = true ∧
      s.sys.stage ≠ .inReset ∧
      ((fun w => w.byRix rix = some j ∧ w.pair.role = .mate) : State → Prop) (s.advance t)) ∧
    (∃ (s : State) (t : Tick) (a : Arrival) (rix : Nat), a.crcOk = true ∧
      s.sys.stage ≠ .inReset ∧
      ((fun w => w.isMate = true ∧ w.pair.nextRix ≤ rix ∧ w.byRix rix = none) : State → Prop) (s.advance t)) ∧
    (∃ (s : State) (t : Tick) (a : Arrival), a.crcOk = true ∧
      s.sys.stage ≠ .inReset ∧
      ((fun w => w.isMate = false) : State → Prop) (s.advance t)) :=
  ⟨⟨ready.setPair { role := .mate }, 0, {}, ⟨4, 0, 0, 1, ⟨{}, .pairResync {}⟩, 0, 0⟩, 4, by decide +kernel⟩,
   ⟨ready.setPair { role := .mate, sync := .lockstep }, 0, {}, ⟨4, 0, 0, 1, ⟨{}, .rasterSet { raster := 0, desc := {} }⟩, 0, 0⟩, 4, by exact ⟨by decide, by decide, by decide +kernel, by decide, by decide +kernel⟩⟩,
   ⟨ready.setPair { role := .mate, sync := .lockstep }, 0, {}, ⟨4, 0, 0, 1, ⟨{}, .rasterSet { raster := 1, desc := {}, rsvd := 1 }⟩, 0, 0⟩, 4, stBadParam, 0, by exact ⟨by decide, by decide, by decide +kernel, by decide, by decide +kernel⟩⟩,
   ⟨{ wired with pair := { role := .mate, sync := .lockstep } }, 0, {}, ⟨4, 0, 0, 1, ⟨{ sched := true, raster := 513, frame := 9, line := 1 }, .lossSet { output := 511, policy := 2 }⟩, 0, 0⟩, 4, by decide +kernel⟩,
   ⟨ready.setPair { role := .mate, sync := .lockstep, nextRix := 5 }, 0, {}, ⟨4, 0, 0, 1, ⟨{}, .pairResync {}⟩, 0, 0⟩, 4, by decide +kernel⟩,
   ⟨{ ready with pair := { role := .lead, sync := .lockstep }, jobs := [{ id := 0, kind := .exec, queue := 9, seq := 1, tag := 0, params := .pairResync {}, rix := some 4, committed := false }] }, 0, {}, { id := 0, kind := .exec, queue := 9, seq := 1, tag := 0, params := .pairResync {}, rix := some 4, committed := false }, 4, by decide +kernel⟩,
   ⟨ready, 0, {}, 4, by decide +kernel⟩,
   ⟨{ ready with pair := { role := .lead, sync := .lockstep }, jobs := [{ id := 0, kind := .exec, queue := 9, seq := 1, tag := 0, params := .pairResync {}, rix := some 4, committed := false, verdict := some stOk }] }, 0, {}, { id := 0, kind := .exec, queue := 9, seq := 1, tag := 0, params := .pairResync {}, rix := some 4, committed := false, verdict := some stOk }, 4, stOk, 0, by decide +kernel⟩,
   ⟨{ ready with pair := { role := .lead, sync := .lockstep }, jobs := [{ id := 0, kind := .exec, queue := 9, seq := 1, tag := 0, params := .pairResync {}, rix := some 4, committed := false, verdict := some stBusy }] }, 0, {}, { id := 0, kind := .exec, queue := 9, seq := 1, tag := 0, params := .pairResync {}, rix := some 4, committed := false, verdict := some stBusy }, 4, stBusy, 0, by decide +kernel⟩,
   ⟨{ ready with pair := { role := .lead, sync := .lockstep }, jobs := [{ id := 0, kind := .exec, queue := 9, seq := 1, tag := 0, params := .pairResync {}, rix := some 4, committed := false }] }, 0, {}, { id := 0, kind := .exec, queue := 9, seq := 1, tag := 0, params := .pairResync {}, rix := some 4, committed := false }, 4, 0, by decide +kernel⟩,
   ⟨{ ready with pair := { role := .mate, sync := .lockstep }, jobs := [{ id := 0, kind := .exec, queue := 9, seq := 1, tag := 0, params := .pairResync {}, rix := some 4, committed := false }] }, 0, {}, { id := 0, kind := .exec, queue := 9, seq := 1, tag := 0, params := .pairResync {}, rix := some 4, committed := false }, 4, by decide +kernel⟩,
   ⟨{ ready with pair := { role := .mate, sync := .lockstep }, jobs := [{ id := 0, kind := .exec, queue := 9, seq := 1, tag := 0, params := .pairResync {}, rix := some 4, committed := false }] }, 0, {}, { id := 0, kind := .exec, queue := 9, seq := 1, tag := 0, params := .pairResync {}, rix := some 4, committed := false }, 4, by decide +kernel⟩,
   ⟨ready.setPair { role := .mate, sync := .lockstep }, 0, {}, 4, by decide +kernel⟩,
   ⟨ready, 0, {}, by decide +kernel⟩⟩

theorem test_meets_SignatureEvents :
    (∃ (s : State) (t : Tick) (a : Arrival) (g : GranuleSig) (content : List Bool), 
    let paired (w : State) : Prop := w.pair.role ≠ .solo ∧ w.pair.sync ≠ .apart
    
    let mine : GranuleSig := { g with sig := crc32 content, frame := g.frame % 65536 }
    
    let same (x : GranuleSig) (y : GranuleSig × Tick) : Bool := sameGranule y.1 x
    
    let signs (w : State) : Prop := paired w ∧ w.granuleBits g = some content
    a.crcOk = true ∧
      s.sys.stage ≠ .inReset ∧
      ((fun w => signs w ∧ w.pair.partner.find? (same mine) = none) : State → Prop) (s.advance t)) ∧
    (∃ (s : State) (t : Tick) (a : Arrival) (g : GranuleSig) (content : List Bool) (e : GranuleSig × Tick), 
    let paired (w : State) : Prop := w.pair.role ≠ .solo ∧ w.pair.sync ≠ .apart
    
    let mine : GranuleSig := { g with sig := crc32 content, frame := g.frame % 65536 }
    
    let same (x : GranuleSig) (y : GranuleSig × Tick) : Bool := sameGranule y.1 x
    
    let signs (w : State) : Prop := paired w ∧ w.granuleBits g = some content
    a.crcOk = true ∧
      s.sys.stage ≠ .inReset ∧
      ((fun w => signs w ∧ w.pair.partner.find? (same mine) = some e ∧ e.1.sig = mine.sig) : State → Prop) (s.advance t)) ∧
    (∃ (s : State) (t : Tick) (a : Arrival) (g : GranuleSig), a.crcOk = true ∧
      s.sys.stage ≠ .inReset ∧
      ((fun w => w.pair.role = .solo ∨ w.pair.sync = .apart ∨ w.granuleBits g = none) : State → Prop) (s.advance t)) ∧
    (∃ (s : State) (t : Tick) (a : Arrival) (g : GranuleSig), 
    let paired (w : State) : Prop := w.pair.role ≠ .solo ∧ w.pair.sync ≠ .apart
    
    let same (x : GranuleSig) (y : GranuleSig × Tick) : Bool := sameGranule y.1 x
    a.crcOk = true ∧
      s.sys.stage ≠ .inReset ∧
      ((fun w => paired w ∧ w.pair.own.find? (same g) = none) : State → Prop) (s.advance t)) ∧
    (∃ (s : State) (t : Tick) (a : Arrival) (g : GranuleSig) (e : GranuleSig × Tick), 
    let paired (w : State) : Prop := w.pair.role ≠ .solo ∧ w.pair.sync ≠ .apart
    
    let same (x : GranuleSig) (y : GranuleSig × Tick) : Bool := sameGranule y.1 x
    a.crcOk = true ∧
      s.sys.stage ≠ .inReset ∧
      ((fun w => paired w ∧ w.pair.own.find? (same g) = some e ∧ e.1.sig = g.sig) : State → Prop) (s.advance t)) ∧
    (∃ (s : State) (t : Tick) (a : Arrival) (g : GranuleSig) (e : GranuleSig × Tick), 
    let paired (w : State) : Prop := w.pair.role ≠ .solo ∧ w.pair.sync ≠ .apart
    
    let same (x : GranuleSig) (y : GranuleSig × Tick) : Bool := sameGranule y.1 x
    a.crcOk = true ∧
      s.sys.stage ≠ .inReset ∧
      ((fun w => paired w ∧ w.pair.sync = .lockstep ∧ w.pair.own.find? (same g) = some e ∧ e.1.sig ≠ g.sig ∧ e.1.stream / 512 % 2 = 0) : State → Prop) (s.advance t)) ∧
    (∃ (s : State) (t : Tick) (a : Arrival) (g : GranuleSig) (keys : List Nat) (e : GranuleSig × Tick), 
    let paired (w : State) : Prop := w.pair.role ≠ .solo ∧ w.pair.sync ≠ .apart
    
    let same (x : GranuleSig) (y : GranuleSig × Tick) : Bool := sameGranule y.1 x
    
    let met (w : State) : State := w.setPair { w.pair with partnerKeys := keys, own := w.pair.own.filter fun x => !sameGranule x.1 g }
    
    let differs (w : State) : State := (met w).setPair { (met w).pair with
      outMismatch := w.pair.outMismatch + 1, lastStc := w.stc, lastBad := fset 0 w.pair.lastBad (e.1.stream % 512) (w.wholeFrame (e.1.stream % 512) e.1.frame + 1) }
    
    let out := e.1.stream % 512
    a.crcOk = true ∧
      s.sys.stage ≠ .inReset ∧
      ((fun w => paired w ∧ w.pair.sync = .lockstep ∧ w.pair.own.find? (same g) = some e ∧ e.1.sig ≠ g.sig ∧ e.1.stream / 512 % 2 ≠ 0 ∧
      ((differs w).count 13 0 1).tainted out = false ∧ ((differs w).count 13 0 1).keyDiffers out = false ∧
      fget none w.pair.windows out = none) : State → Prop) (s.advance t)) ∧
    (∃ (s : State) (t : Tick) (a : Arrival) (g : GranuleSig), a.crcOk = true ∧
      s.sys.stage ≠ .inReset ∧
      ((fun w => (w.pair.own.any fun x => sameGranule x.1 g && decide (x.2 + 540000 ≤ w.now)) = true) : State → Prop) (s.advance t)) ∧
    (∃ (s : State) (t : Tick) (a : Arrival) (g : GranuleSig), a.crcOk = true ∧
      s.sys.stage ≠ .inReset ∧
      ((fun w => (w.pair.own.any fun x => sameGranule x.1 g && decide (x.2 + 540000 ≤ w.now)) = false) : State → Prop) (s.advance t)) ∧
    (∃ (s : State) (t : Tick) (a : Arrival) (n : Nat) (t0 : Tick), 
    let path (w : State) : List Nat := ((w.route n).map fun r => w.pathEngines 192 r.src).getD []
    a.crcOk = true ∧
      s.sys.stage ≠ .inReset ∧
      ((fun w => fget none w.pair.windows n = some t0 ∧ (path w ≠ [] ∨ t0 + 5400 ≤ w.now) ∧ w.pair.role = .mate ∧ w.pair.sync = .lockstep) : State → Prop) (s.advance t)) ∧
    (∃ (s : State) (t : Tick) (a : Arrival) (n : Nat) (t0 : Tick), 
    let path (w : State) : List Nat := ((w.route n).map fun r => w.pathEngines 192 r.src).getD []
    a.crcOk = true ∧
      s.sys.stage ≠ .inReset ∧
      ((fun w => fget none w.pair.windows n = some t0 ∧ (path w ≠ [] ∨ t0 + 5400 ≤ w.now) ∧ w.pair.role ≠ .mate) : State → Prop) (s.advance t)) ∧
    (∃ (s : State) (t : Tick) (a : Arrival) (n : Nat), a.crcOk = true ∧
      s.sys.stage ≠ .inReset ∧
      ((fun w => fget none w.pair.windows n = none) : State → Prop) (s.advance t)) ∧
    (∃ (s : State) (t : Tick) (a : Arrival), a.crcOk = true ∧
      s.sys.stage ≠ .inReset ∧
      ((fun w => w.pair.role ≠ .solo) : State → Prop) (s.advance t)) ∧
    (∃ (s : State) (t : Tick) (a : Arrival) (unit : Nat), a.crcOk = true ∧
      s.sys.stage ≠ .inReset ∧
      ((fun w => w.pair.role ≠ .solo ∧ (w.pair.crcs.find? fun x => x.1 == unit && x.2.2 != false) = none) : State → Prop) (s.advance t)) ∧
    (∃ (s : State) (t : Tick) (a : Arrival), a.crcOk = true ∧
      s.sys.stage ≠ .inReset ∧
      ((fun w => w.pair.role = .solo) : State → Prop) (s.advance t)) :=
  ⟨⟨(ready.setTxStream 511 (some { cfg := lane 1 63 7, aud := some { frame := 0 } })).setPair { role := .lead, sync := .lockstep }, 0, {}, ⟨2047, 0, 0, 1⟩, [], by decide +kernel⟩,
   ⟨(ready.setTxStream 511 (some { cfg := lane 1 63 7, aud := some { frame := 0 } })).setPair { role := .lead, sync := .lockstep, partner := [(⟨2047, 0, 0, crc32 []⟩, 0)] }, 0, {}, ⟨2047, 0, 0, 1⟩, [], (⟨2047, 0, 0, crc32 []⟩, 0), by decide +kernel⟩,
   ⟨ready, 0, {}, ⟨511, 0, 0, 1⟩, by decide +kernel⟩,
   ⟨ready.setPair { role := .lead, sync := .lockstep }, 0, {}, ⟨511, 0, 0, 1⟩, by decide +kernel⟩,
   ⟨ready.setPair { role := .lead, sync := .lockstep, own := [(⟨511, 0, 0, 1⟩, 0)] }, 0, {}, ⟨511, 0, 0, 1⟩, (⟨511, 0, 0, 1⟩, 0), by decide +kernel⟩,
   ⟨ready.setPair { role := .lead, sync := .lockstep, own := [(⟨511, 0, 0, 2⟩, 0)] }, 0, {}, ⟨511, 0, 0, 1⟩, (⟨511, 0, 0, 2⟩, 0), by decide +kernel⟩,
   ⟨ready.setPair { role := .lead, sync := .lockstep, own := [(⟨1023, 0, 0, 2⟩, 0)] }, 0, {}, ⟨512 + 511, 0, 0, 1⟩, [], (⟨1023, 0, 0, 2⟩, 0), by decide +kernel⟩,
   ⟨ready.setPair { role := .lead, sync := .lockstep, own := [(⟨511, 0, 0, 1⟩, 0)] }, 540000, {}, ⟨511, 0, 0, 1⟩, by decide +kernel⟩,
   ⟨ready.setPair { role := .lead, sync := .lockstep, own := [(⟨511, 0, 0, 1⟩, 0)] }, 539999, {}, ⟨511, 0, 0, 1⟩, by decide +kernel⟩,
   ⟨{ ready with pair := { role := .mate, sync := .lockstep, windows := [(511, some 0)] } }, 5400, {}, 511, 0, by decide +kernel⟩,
   ⟨ready.setPair { role := .lead, sync := .lockstep, windows := [(511, some 0)] }, 5400, {}, 511, 0, by decide +kernel⟩,
   ⟨ready, 0, {}, 511, by decide +kernel⟩,
   ⟨ready.setPair { role := .lead, sync := .lockstep }, 0, {}, by decide +kernel⟩,
   ⟨ready.setPair { role := .lead, sync := .lockstep }, 0, {}, 0, by decide +kernel⟩,
   ⟨ready, 0, {}, by decide +kernel⟩⟩

theorem test_meets_ResyncEvents :
    (∃ (s : State) (t : Tick) (a : Arrival) (seq lib : Nat) (last : Bool) (items : List CmdBody), 
    let collects (w : State) : Prop := w.pair.role = .mate ∧ w.pair.sync = .apart ∧ seq % 256 ≠ w.pair.seqIn
    
    let held (w : State) : Bool := libHolds (Config.libVersion w.sys.image) lib && (w.pair.snapshot ++ items).all w.holdsVersion
    a.crcOk = true ∧
      s.sys.stage ≠ .inReset ∧
      ((fun w => collects w ∧ (last = false ∨ held w = true)) : State → Prop) (s.advance t)) ∧
    (∃ (s : State) (t : Tick) (a : Arrival) (seq lib : Nat) (last : Bool) (items : List CmdBody), 
    let collects (w : State) : Prop := w.pair.role = .mate ∧ w.pair.sync = .apart ∧ seq % 256 ≠ w.pair.seqIn
    
    let held (w : State) : Bool := libHolds (Config.libVersion w.sys.image) lib && (w.pair.snapshot ++ items).all w.holdsVersion
    a.crcOk = true ∧
      s.sys.stage ≠ .inReset ∧
      ((fun w => collects w ∧ last = true ∧ held w = false) : State → Prop) (s.advance t)) ∧
    (∃ (s : State) (t : Tick) (a : Arrival), a.crcOk = true ∧
      s.sys.stage ≠ .inReset ∧
      ((fun w => w.pair.role ≠ .mate ∨ w.pair.sync ≠ .apart) : State → Prop) (s.advance t)) ∧
    (∃ (s : State) (t : Tick) (a : Arrival), a.crcOk = true ∧
      s.sys.stage ≠ .inReset ∧
      ((fun w => w.pair.role = .mate ∧ (w.pond.charges.any ofTransfer) = true) : State → Prop) (s.advance t)) ∧
    (∃ (s : State) (t : Tick) (a : Arrival), a.crcOk = true ∧
      s.sys.stage ≠ .inReset ∧
      ((fun w => w.pair.role = .mate ∧ (w.pond.charges.any ofTransfer) = false) : State → Prop) (s.advance t)) ∧
    (∃ (s : State) (t : Tick) (a : Arrival), a.crcOk = true ∧
      s.sys.stage ≠ .inReset ∧
      ((fun w => w.pair.role ≠ .mate) : State → Prop) (s.advance t)) ∧
    (∃ (s : State) (t : Tick) (a : Arrival), 
    let matched (w : State) : Bool := w.rasters.all fun x => w.outMatched x.1
    a.crcOk = true ∧
      s.sys.stage ≠ .inReset ∧
      ((fun w => w.pair.role ≠ .solo ∧ w.pair.sync = .resync ∧ matched w = true ∧
      (w.pair.role = .lead → w.pair.authority = true)) : State → Prop) (s.advance t)) ∧
    (∃ (s : State) (t : Tick) (a : Arrival), 
    let matched (w : State) : Bool := w.rasters.all fun x => w.outMatched x.1
    a.crcOk = true ∧
      s.sys.stage ≠ .inReset ∧
      ((fun w => w.pair.sync = .resync ∧ matched w = true ∧ w.pair.role = .lead ∧ w.pair.authority = false) : State → Prop) (s.advance t)) ∧
    (∃ (s : State) (t : Tick) (a : Arrival), 
    let matched (w : State) : Bool := w.rasters.all fun x => w.outMatched x.1
    a.crcOk = true ∧
      s.sys.stage ≠ .inReset ∧
      ((fun w => w.pair.sync ≠ .resync ∨ matched w = false) : State → Prop) (s.advance t)) ∧
    (∃ (s : State) (t : Tick) (a : Arrival), a.crcOk = true ∧
      s.sys.stage ≠ .inReset ∧
      ((fun w => w.pair.sync = .resync ∧ w.pair.resyncT + 2700000000 ≤ w.now ∧ w.jobOf isTransfer = none) : State → Prop) (s.advance t)) ∧
    (∃ (s : State) (t : Tick) (a : Arrival), a.crcOk = true ∧
      s.sys.stage ≠ .inReset ∧
      ((fun w => w.pair.sync = .lockstep ∨ w.now < w.pair.resyncT + 2700000000) : State → Prop) (s.advance t)) ∧
    (∃ (s : State) (t : Tick) (a : Arrival), a.crcOk = true ∧
      s.sys.stage ≠ .inReset ∧
      ((fun _ => True) : State → Prop) (s.advance t)) ∧
    (∃ (s : State) (t : Tick) (a : Arrival), a.crcOk = true ∧
      s.sys.stage ≠ .inReset ∧
      ((fun w => w.sys.mode = .failed ∧ w.anySends = false ∧
      (w.pins.faultN = .high ∨ w.pins.faultN = .hiZ ∧ w.sys.stage = .done)) : State → Prop) (s.advance t)) ∧
    (∃ (s : State) (t : Tick) (a : Arrival), a.crcOk = true ∧
      s.sys.stage ≠ .inReset ∧
      ((fun w => w.sys.mode ≠ .failed ∨ w.anySends = true) : State → Prop) (s.advance t)) :=
  ⟨⟨ready.setPair { role := .mate }, 0, {}, 1, 0, false, [], by decide +kernel⟩,
   ⟨ready.setPair { role := .mate }, 0, {}, 1, Config.libVersion 0 + 1, true, [], by refine ⟨by decide, by decide, ⟨by decide, by decide, by decide⟩, rfl, ?_⟩; show (libHolds (Config.libVersion 0) (Config.libVersion 0 + 1) && true) = false; unfold libHolds; simp; try omega⟩,
   ⟨ready, 0, {}, by decide +kernel⟩,
   ⟨{ ready with pair := { role := .mate }, pond := { ready.pond with charges := [{ kind := 8, holder := 2 ^ 32, mb := 1 }] } }, 0, {}, by decide +kernel⟩,
   ⟨ready.setPair { role := .mate }, 0, {}, by decide +kernel⟩,
   ⟨ready, 0, {}, by decide +kernel⟩,
   ⟨ready.setPair { role := .mate, sync := .resync }, 0, {}, by decide +kernel⟩,
   ⟨ready.setPair { role := .lead, sync := .resync }, 0, {}, by decide +kernel⟩,
   ⟨ready, 0, {}, by decide +kernel⟩,
   ⟨ready.setPair { role := .mate, sync := .resync }, 2700000000, {}, by decide +kernel⟩,
   ⟨ready.setPair { role := .mate, sync := .lockstep }, 0, {}, by decide +kernel⟩,
   ⟨ready, 0, {}, by decide +kernel⟩,
   ⟨{ ready with sys := { ready.sys with mode := .failed }, pins := { ready.pins with faultN := .high }, tx := (List.range 65).map fun b => (b, { enable := false }) }, 0, {}, by decide +kernel⟩,
   ⟨ready, 0, {}, by decide +kernel⟩⟩

theorem test_meets_QueueEvents :
    (∃ (s : State) (t : Tick) (q : Nat) (pk : Packet) (rest : List Packet), 
    let ready (w : State) : Prop := (w.queue q).ring = pk :: rest ∧ w.fetches q = true ∧ (w.queue q).enable = true ∧
      (w.queue q).error = false ∧ w.holds q = false ∧ w.covered q pk = true
    q < 9 ∧
      s.sys.stage ≠ .inReset ∧
      ((fun w => ready w ∧ w.ringRoom q pk = true) : State → Prop) (s.advance t)) ∧
    (∃ (s : State) (t : Tick) (q : Nat) (pk : Packet) (rest : List Packet), 
    let ready (w : State) : Prop := (w.queue q).ring = pk :: rest ∧ w.fetches q = true ∧ (w.queue q).enable = true ∧
      (w.queue q).error = false ∧ w.holds q = false ∧ w.covered q pk = true
    q < 9 ∧
      s.sys.stage ≠ .inReset ∧
      ((fun w => ready w ∧ w.ringRoom q pk = false) : State → Prop) (s.advance t)) ∧
    (∃ (s : State) (t : Tick) (q : Nat), q < 9 ∧
      s.sys.stage ≠ .inReset ∧
      ((fun w => (w.queue q).ring = []) : State → Prop) (s.advance t)) ∧
    (∃ (s : State) (t : Tick) (q : Nat) (j : Job) (p : BarrierP) (limit : Tick), 
    let waits (w : State) : Prop := w.barrier? q = some (j, p)
    
    let due (w : State) : Prop := waits w ∧ j.deadline = some limit ∧ limit ≤ w.now
    q < 9 ∧
      s.sys.stage ≠ .inReset ∧
      (due : State → Prop) (s.advance t)) ∧
    (∃ (s : State) (t : Tick) (pk : Packet), s.sys.stage ≠ .inReset ∧
      ((fun w => w.spi.buffer = some pk ∧ w.fetches 9 = true ∧ w.holds 9 = false ∧ w.fifoRoom pk = true) : State → Prop) (s.advance t)) ∧
    (∃ (s : State) (t : Tick) (q : Nat) (j : Job) (p : BarrierP), 
    let waits (w : State) : Prop := w.barrier? q = some (j, p)
    s.sys.stage ≠ .inReset ∧
      ((fun w => waits w ∧ w.barrierMet p = true) : State → Prop) (s.advance t)) ∧
    (∃ (s : State) (t : Tick) (q : Nat) (j : Job) (p : BarrierP), 
    let waits (w : State) : Prop := w.barrier? q = some (j, p)
    s.sys.stage ≠ .inReset ∧
      ((fun w => waits w ∧ w.barrierMet p = false ∨ w.barrier? q = none) : State → Prop) (s.advance t)) ∧
    (∃ (s : State) (t : Tick) (q : Nat) (j : Job) (p : BarrierP) (limit : Tick), 
    let waits (w : State) : Prop := w.barrier? q = some (j, p)
    
    let due (w : State) : Prop := waits w ∧ j.deadline = some limit ∧ limit ≤ w.now
    q = 9 ∧
      s.sys.stage ≠ .inReset ∧
      (due : State → Prop) (s.advance t)) ∧
    (∃ (s : State) (t : Tick) (q : Nat), s.sys.stage ≠ .inReset ∧
      ((fun w => w.barrier? q = none) : State → Prop) (s.advance t)) :=
  ⟨⟨ready.setQueue 7 { enable := true, ring := [⟨{}, .pairResync {}⟩], sqTail := 24 }, 0, 7, ⟨{}, .pairResync {}⟩, [], by decide +kernel⟩,
   ⟨ready.setQueue 7 { enable := true, ring := [⟨{}, .pairResync {}⟩], sqTail := 24, heldReplies := List.replicate 64 ⟨0, 0, 0, 0, 0, 0⟩ }, 0, 7, ⟨{}, .pairResync {}⟩, [], by decide +kernel⟩,
   ⟨ready, 0, 7, by decide +kernel⟩,
   ⟨{ ready with jobs := [{ id := 0, kind := .event, queue := 7, seq := 1, tag := 0, params := .barrier {}, deadline := some 5 }] }, 5, 7, { id := 0, kind := .event, queue := 7, seq := 1, tag := 0, params := .barrier {}, deadline := some 5 }, {}, 5, by decide +kernel⟩,
   ⟨{ ready with spi := { buffer := some ⟨{}, .pairResync {}⟩ } }, 0, ⟨{}, .pairResync {}⟩, by decide +kernel⟩,
   ⟨{ ready with jobs := [{ id := 0, kind := .event, queue := 7, seq := 1, tag := 0, params := .barrier {}, deadline := some 5 }] }, 0, 7, { id := 0, kind := .event, queue := 7, seq := 1, tag := 0, params := .barrier {}, deadline := some 5 }, {}, by decide +kernel⟩,
   ⟨ready, 0, 7, { id := 0, kind := .event, queue := 7, seq := 1, tag := 0, params := .barrier {}, deadline := some 5 }, {}, by decide +kernel⟩,
   ⟨{ ready with jobs := [{ id := 0, kind := .event, queue := 9, seq := 1, tag := 0, params := .barrier {}, deadline := some 5 }] }, 5, 9, { id := 0, kind := .event, queue := 9, seq := 1, tag := 0, params := .barrier {}, deadline := some 5 }, {}, 5, by decide +kernel⟩,
   ⟨ready, 0, 7, by decide +kernel⟩⟩

/-! ### Witnesses: processors (chapter 18) -/

theorem test_meets_ControlEvents :
    (∃ (s : State) (t : Tick), 
    let near (w : State) : Bool := w.sys.faultRestartEnd.any fun e => decide (w.now < e + 270000000)
    
    let grave (w : State) : Prop := w.sys.mode = .quiet ∨ w.sys.restart = true ∨ near w = true
    s.sys.stage ≠ .inReset ∧
      ((fun w => w.sys.mode ≠ .failed ∧ grave w) : State → Prop) (s.advance t)) ∧
    (∃ (s : State) (t : Tick), 
    let near (w : State) : Bool := w.sys.faultRestartEnd.any fun e => decide (w.now < e + 270000000)
    
    let grave (w : State) : Prop := w.sys.mode = .quiet ∨ w.sys.restart = true ∨ near w = true
    s.sys.stage ≠ .inReset ∧
      ((fun w => w.sys.mode ≠ .failed ∧ ¬grave w) : State → Prop) (s.advance t)) ∧
    (∃ (s : State) (t : Tick), s.sys.stage ≠ .inReset ∧
      ((fun w => w.sys.mode = .failed) : State → Prop) (s.advance t)) ∧
    (∃ (s : State) (t : Tick), s.sys.stage ≠ .inReset ∧
      ((fun w => w.cpbOk = true) : State → Prop) (s.advance t)) ∧
    (∃ (s : State) (t : Tick), s.sys.stage ≠ .inReset ∧
      ((fun w => w.cpbOk = false) : State → Prop) (s.advance t)) ∧
    (∃ (s : State) (t : Tick), 
    let late (w : State) : List Job := w.jobs.filter fun x => x.kind == .event
    s.sys.stage ≠ .inReset ∧
      ((fun w => w.sys.restart = true ∧ late w = []) : State → Prop) (s.advance t)) ∧
    (∃ (s : State) (t : Tick) (j : Job) (r : SysRestartP), 
    let late (w : State) : List Job := w.jobs.filter fun x => x.kind == .event
    s.sys.stage ≠ .inReset ∧
      ((fun w => w.sys.restart = true ∧ late w = [j] ∧ j.params = .sysRestart r) : State → Prop) (s.advance t)) ∧
    (∃ (s : State) (t : Tick), s.sys.stage ≠ .inReset ∧
      ((fun w => w.sys.restart = false) : State → Prop) (s.advance t)) ∧
    (∃ (s : State) (t : Tick) (j : Job) (p : CpbLoadP) (st d : Nat), s.sys.stage ≠ .inReset ∧
      ((fun w => w.loadJob = some (j, p) ∧ w.chkImage p = some (st, d)) : State → Prop) (s.advance t)) ∧
    (∃ (s : State) (t : Tick) (j : Job) (p : CpbLoadP), s.sys.stage ≠ .inReset ∧
      ((fun w => w.loadJob = some (j, p) ∧ w.chkImage p = none ∧ p.start = false) : State → Prop) (s.advance t)) ∧
    (∃ (s : State) (t : Tick) (j : Job) (p : CpbLoadP), s.sys.stage ≠ .inReset ∧
      ((fun w => w.loadJob = some (j, p) ∧ w.chkImage p = none ∧ p.start = true) : State → Prop) (s.advance t)) ∧
    (∃ (s : State) (t : Tick), s.sys.stage ≠ .inReset ∧
      ((fun w => w.loadJob = none) : State → Prop) (s.advance t)) ∧
    (∃ (s : State) (t : Tick) (pin : Nat) (level : Bool), pin < 16 ∧
      s.sys.stage ≠ .inReset ∧
      ((fun w => (w.gpio pin).input ≠ level ∧ (w.gpio pin).dir = 0) : State → Prop) (s.advance t)) ∧
    (∃ (s : State) (t : Tick) (pin : Nat) (level : Bool), pin < 16 ∧
      s.sys.stage ≠ .inReset ∧
      ((fun w => (w.gpio pin).input ≠ level ∧ (w.gpio pin).dir ≠ 0) : State → Prop) (s.advance t)) ∧
    (∃ (s : State) (t : Tick) (pin : Nat) (level : Bool), pin < 16 ∧
      s.sys.stage ≠ .inReset ∧
      ((fun w => (w.gpio pin).input = level) : State → Prop) (s.advance t)) ∧
    (∃ (s : State) (t : Tick) (m : Nat), 
    let x (w : State) : Monitor := w.monitor m
    s.sys.stage ≠ .inReset ∧
      ((fun w => (x w).running = true ∧ (x w).due = true) : State → Prop) (s.advance t)) ∧
    (∃ (s : State) (t : Tick) (m : Nat), 
    let x (w : State) : Monitor := w.monitor m
    s.sys.stage ≠ .inReset ∧
      ((fun w => (x w).running = false ∨ (x w).due = false) : State → Prop) (s.advance t)) :=
  ⟨⟨{ ready with sys := { ready.sys with mode := .quiet } }, 0, by decide +kernel⟩,
   ⟨ready, 0, by decide +kernel⟩,
   ⟨{ ready with sys := { ready.sys with mode := .failed } }, 0, by decide +kernel⟩,
   ⟨ready.setCpb { ready.hub.cpB with running := true }, 0, by decide +kernel⟩,
   ⟨ready, 0, by decide +kernel⟩,
   ⟨{ ready with sys := { ready.sys with restart := true } }, 0, by decide +kernel⟩,
   ⟨{ ({ ready with sys := { ready.sys with restart := true } }) with jobs := [{ id := 0, kind := .event, queue := 9, seq := 1, tag := 0, params := .sysRestart { kind := 0 } }] }, 0, { id := 0, kind := .event, queue := 9, seq := 1, tag := 0, params := .sysRestart { kind := 0 } }, { kind := 0 }, by decide +kernel⟩,
   ⟨ready, 0, by decide +kernel⟩,
   ⟨{ (ready.setSlot 0 { st := 3 }) with jobs := [{ id := 0, kind := .event, queue := 9, seq := 1, tag := 0, params := .cpbLoad { addr := 0x80000000, bytes := 32, image := [], start := false } }] }, 0, { id := 0, kind := .event, queue := 9, seq := 1, tag := 0, params := .cpbLoad { addr := 0x80000000, bytes := 32, image := [], start := false } }, { addr := 0x80000000, bytes := 32, image := [], start := false }, stBadMac, 3, by decide +kernel⟩,
   ⟨{ ready with jobs := [{ id := 0, kind := .event, queue := 9, seq := 1, tag := 0, params := .cpbLoad { addr := 0x80000000, bytes := 32, image := [], start := false } }] }, 0, { id := 0, kind := .event, queue := 9, seq := 1, tag := 0, params := .cpbLoad { addr := 0x80000000, bytes := 32, image := [], start := false } }, { addr := 0x80000000, bytes := 32, image := [], start := false }, by decide +kernel⟩,
   ⟨{ ready with jobs := [{ id := 0, kind := .event, queue := 9, seq := 1, tag := 0, params := .cpbLoad { addr := 0x80000000, bytes := 32, image := [], start := true } }] }, 0, { id := 0, kind := .event, queue := 9, seq := 1, tag := 0, params := .cpbLoad { addr := 0x80000000, bytes := 32, image := [], start := true } }, { addr := 0x80000000, bytes := 32, image := [], start := true }, by decide +kernel⟩,
   ⟨ready, 0, by decide +kernel⟩,
   ⟨ready, 0, 15, true, by decide +kernel⟩,
   ⟨ready.setGpio 15 { dir := 1 }, 0, 15, true, by decide +kernel⟩,
   ⟨ready, 0, 15, false, by decide +kernel⟩,
   ⟨ready.setMonitor 15 { running := true, due := true }, 0, 15, by decide +kernel⟩,
   ⟨ready, 0, 15, by decide +kernel⟩⟩

theorem test_meets_InterruptEvents :
    (∃ (s : State) (t : Tick) (cp : Nat), 
    let x (w : State) : Core := w.core cp
    
    let at_ (w : State) (q : CoreSeq) : Prop := w.coreOk cp = true ∧ (x w).seq = q
    s.sys.stage ≠ .inReset ∧
      ((fun w => at_ w .run ∧ w.normalReady cp = true) : State → Prop) (s.advance t)) ∧
    (∃ (s : State) (t : Tick) (cp : Nat), s.sys.stage ≠ .inReset ∧
      ((fun w => w.normalReady cp = false) : State → Prop) (s.advance t)) ∧
    (∃ (s : State) (t : Tick) (cp id : Nat), 
    let x (w : State) : Core := w.core cp
    
    let fast (w : State) : Prop := w.coreOk cp = true ∧ (x w).mie.getLsbD 16 = true ∧ fie (x w) = true ∧ w.firstPresented cp true = some id
    s.sys.stage ≠ .inReset ∧
      ((fun w => fast w ∧ (x w).seq = .run ∧ (x w).inFast = false) : State → Prop) (s.advance t)) ∧
    (∃ (s : State) (t : Tick) (cp id : Nat), 
    let x (w : State) : Core := w.core cp
    
    let fast (w : State) : Prop := w.coreOk cp = true ∧ (x w).mie.getLsbD 16 = true ∧ fie (x w) = true ∧ w.firstPresented cp true = some id
    s.sys.stage ≠ .inReset ∧
      ((fun w => fast w ∧ (x w).seq = .entryNormal) : State → Prop) (s.advance t)) ∧
    (∃ (s : State) (t : Tick) (cp id : Nat), 
    let x (w : State) : Core := w.core cp
    
    let fast (w : State) : Prop := w.coreOk cp = true ∧ (x w).mie.getLsbD 16 = true ∧ fie (x w) = true ∧ w.firstPresented cp true = some id
    s.sys.stage ≠ .inReset ∧
      ((fun w => fast w ∧ (x w).seq = .exitNormal none) : State → Prop) (s.advance t)) ∧
    (∃ (s : State) (t : Tick) (cp id : Nat), 
    let x (w : State) : Core := w.core cp
    
    let fast (w : State) : Prop := w.coreOk cp = true ∧ (x w).mie.getLsbD 16 = true ∧ fie (x w) = true ∧ w.firstPresented cp true = some id
    s.sys.stage ≠ .inReset ∧
      ((fun w => fast w ∧ (x w).seq = .exitFast none) : State → Prop) (s.advance t)) ∧
    (∃ (s : State) (t : Tick) (cp : Nat), s.sys.stage ≠ .inReset ∧
      ((fun w => w.firstPresented cp true = none) : State → Prop) (s.advance t)) ∧
    (∃ (s : State) (t : Tick) (cp : Nat), 
    let x (w : State) : Core := w.core cp
    
    let at_ (w : State) (q : CoreSeq) : Prop := w.coreOk cp = true ∧ (x w).seq = q
    s.sys.stage ≠ .inReset ∧
      ((fun w => at_ w .entryNormal) : State → Prop) (s.advance t)) ∧
    (∃ (s : State) (t : Tick) (cp id : Nat) (b : Bool), 
    let x (w : State) : Core := w.core cp
    
    let at_ (w : State) (q : CoreSeq) : Prop := w.coreOk cp = true ∧ (x w).seq = q
    s.sys.stage ≠ .inReset ∧
      ((fun w => at_ w (.entryFast id b)) : State → Prop) (s.advance t)) ∧
    (∃ (s : State) (t : Tick) (cp : Nat), 
    let x (w : State) : Core := w.core cp
    
    let at_ (w : State) (q : CoreSeq) : Prop := w.coreOk cp = true ∧ (x w).seq = q
    s.sys.stage ≠ .inReset ∧
      ((fun w => at_ w .run) : State → Prop) (s.advance t)) ∧
    (∃ (s : State) (t : Tick) (cp : Nat), 
    let x (w : State) : Core := w.core cp
    
    let at_ (w : State) (q : CoreSeq) : Prop := w.coreOk cp = true ∧ (x w).seq = q
    s.sys.stage ≠ .inReset ∧
      ((fun w => at_ w .run ∧ (x w).priv = 3 ∧ (x w).inFast = false) : State → Prop) (s.advance t)) ∧
    (∃ (s : State) (t : Tick) (cp id : Nat), 
    let x (w : State) : Core := w.core cp
    
    let at_ (w : State) (q : CoreSeq) : Prop := w.coreOk cp = true ∧ (x w).seq = q
    s.sys.stage ≠ .inReset ∧
      ((fun w => at_ w .run ∧ (x w).priv = 3 ∧ (x w).inFast = true ∧ (x w).fastId = some id ∧ (w.source id).claimant ≠ cp) : State → Prop) (s.advance t)) ∧
    (∃ (s : State) (t : Tick) (cp id : Nat), 
    let x (w : State) : Core := w.core cp
    
    let at_ (w : State) (q : CoreSeq) : Prop := w.coreOk cp = true ∧ (x w).seq = q
    s.sys.stage ≠ .inReset ∧
      ((fun w => at_ w .run ∧ (x w).priv = 3 ∧ (x w).inFast = true ∧ (x w).fastId = some id ∧ (w.source id).claimant = cp) : State → Prop) (s.advance t)) ∧
    (∃ (s : State) (t : Tick) (cp : Nat), 
    let x (w : State) : Core := w.core cp
    s.sys.stage ≠ .inReset ∧
      ((fun w => (x w).seq ≠ .run ∨ (x w).priv ≠ 3) : State → Prop) (s.advance t)) ∧
    (∃ (s : State) (t : Tick) (cp : Nat), 
    let x (w : State) : Core := w.core cp
    
    let at_ (w : State) (q : CoreSeq) : Prop := w.coreOk cp = true ∧ (x w).seq = q
    
    let keep (y : Core) : Nat := y.mstatus.toNat - bits y.mstatus.toNat 12 11 * 2 ^ 11 - bits y.mstatus.toNat 7 7 * 2 ^ 7 - bits y.mstatus.toNat 3 3 * 2 ^ 3
    
    let mprv (y : Core) : Nat := if bits y.mstatus.toNat 12 11 = 3 then 0 else bits y.mstatus.toNat 17 17 * 2 ^ 17
    
    let normal (y : Core) : Core := { y with
      priv := bits y.mstatus.toNat 12 11, mstatus := BitVec.ofNat 64 (keep y - mprv y + 2 ^ 7 + b2n (mpie y) * 2 ^ 3), pc := y.mepc }
    
    let goes (w : State) (y : Core) (q : CoreSeq) : State := w.setCore cp { y with seq := q }
    s.sys.stage ≠ .inReset ∧
      ((fun w => at_ w (.exitNormal none) ∧ (goes w (normal (x w)) .run).normalReady cp = false) : State → Prop) (s.advance t)) ∧
    (∃ (s : State) (t : Tick) (cp : Nat), 
    let x (w : State) : Core := w.core cp
    
    let at_ (w : State) (q : CoreSeq) : Prop := w.coreOk cp = true ∧ (x w).seq = q
    
    let keep (y : Core) : Nat := y.mstatus.toNat - bits y.mstatus.toNat 12 11 * 2 ^ 11 - bits y.mstatus.toNat 7 7 * 2 ^ 7 - bits y.mstatus.toNat 3 3 * 2 ^ 3
    
    let mprv (y : Core) : Nat := if bits y.mstatus.toNat 12 11 = 3 then 0 else bits y.mstatus.toNat 17 17 * 2 ^ 17
    
    let normal (y : Core) : Core := { y with
      priv := bits y.mstatus.toNat 12 11, mstatus := BitVec.ofNat 64 (keep y - mprv y + 2 ^ 7 + b2n (mpie y) * 2 ^ 3), pc := y.mepc }
    
    let goes (w : State) (y : Core) (q : CoreSeq) : State := w.setCore cp { y with seq := q }
    s.sys.stage ≠ .inReset ∧
      ((fun w => at_ w (.exitNormal none) ∧ (goes w (normal (x w)) .run).normalReady cp = true) : State → Prop) (s.advance t)) ∧
    (∃ (s : State) (t : Tick) (cp id : Nat), 
    let x (w : State) : Core := w.core cp
    
    let at_ (w : State) (q : CoreSeq) : Prop := w.coreOk cp = true ∧ (x w).seq = q
    s.sys.stage ≠ .inReset ∧
      ((fun w => at_ w (.exitNormal (some id))) : State → Prop) (s.advance t)) ∧
    (∃ (s : State) (t : Tick) (cp : Nat), 
    let x (w : State) : Core := w.core cp
    
    let at_ (w : State) (q : CoreSeq) : Prop := w.coreOk cp = true ∧ (x w).seq = q
    
    let back (y : Core) : Core := { y with
      priv := bits y.mfstatus.toNat 3 2, mfstatus := BitVec.ofNat 64 (b2n (y.mfstatus.getLsbD 1)), inFast := false, fastId := none, pc := y.mfepc }
    
    let goes (w : State) (y : Core) (q : CoreSeq) : State := w.setCore cp { y with seq := q }
    s.sys.stage ≠ .inReset ∧
      ((fun w => at_ w (.exitFast none) ∧ (goes w (back (x w)) .run).normalReady cp = false) : State → Prop) (s.advance t)) ∧
    (∃ (s : State) (t : Tick) (cp id : Nat), 
    let x (w : State) : Core := w.core cp
    
    let at_ (w : State) (q : CoreSeq) : Prop := w.coreOk cp = true ∧ (x w).seq = q
    s.sys.stage ≠ .inReset ∧
      ((fun w => at_ w (.exitFast (some id))) : State → Prop) (s.advance t)) ∧
    (∃ (s : State) (t : Tick) (cp : Nat), 
    let x (w : State) : Core := w.core cp
    
    let at_ (w : State) (q : CoreSeq) : Prop := w.coreOk cp = true ∧ (x w).seq = q
    s.sys.stage ≠ .inReset ∧
      ((fun w => at_ w .run) : State → Prop) (s.advance t)) :=
  ⟨⟨{ ready with hub := { ready.hub with cpA := { mstatus := 0x88, mie := 0x800 }, srcs := [(7, { st := .pending, mask := 1 })] } }, 0, 0, by decide +kernel⟩,
   ⟨ready, 0, 0, by decide +kernel⟩,
   ⟨{ ready with hub := { ready.hub with cpA := { mie := 0x10000, mfstatus := 1 }, srcs := [(7, { st := .pending, mask := 1, fast := true })] } }, 0, 0, 7, by decide +kernel⟩,
   ⟨{ ready with hub := { ready.hub with cpA := { mie := 0x10000, mfstatus := 1, seq := .entryNormal }, srcs := [(7, { st := .pending, mask := 1, fast := true })] } }, 0, 0, 7, by decide +kernel⟩,
   ⟨{ ready with hub := { ready.hub with cpA := { mie := 0x10000, mfstatus := 1, seq := .exitNormal none }, srcs := [(7, { st := .pending, mask := 1, fast := true })] } }, 0, 0, 7, by decide +kernel⟩,
   ⟨{ ready with hub := { ready.hub with cpA := { mie := 0x10000, mfstatus := 2, inFast := true, seq := .exitFast none }, srcs := [(7, { st := .pending, mask := 1, fast := true })] } }, 0, 0, 7, by decide +kernel⟩,
   ⟨ready, 0, 0, by decide +kernel⟩,
   ⟨{ ready with hub := { ready.hub with cpA := { seq := .entryNormal } } }, 0, 0, by decide +kernel⟩,
   ⟨{ ready with hub := { ready.hub with cpA := { seq := .entryFast 7 false } } }, 0, 0, 7, false, by decide +kernel⟩,
   ⟨ready, 0, 0, by decide +kernel⟩,
   ⟨ready, 0, 0, by decide +kernel⟩,
   ⟨{ ready with hub := { ready.hub with cpA := { inFast := true, fastId := some 7 } } }, 0, 0, 7, by decide +kernel⟩,
   ⟨{ ready with hub := { ready.hub with cpA := { inFast := true, fastId := some 7 }, srcs := [(7, { st := .active, fast := true, mask := 1, claimant := 0 })] } }, 0, 0, 7, by decide +kernel⟩,
   ⟨{ ready with hub := { ready.hub with cpA := { priv := 0 } } }, 0, 0, by decide +kernel⟩,
   ⟨{ ready with hub := { ready.hub with cpA := { seq := .exitNormal none, mstatus := 0x1800 } } }, 0, 0, by decide +kernel⟩,
   ⟨{ ready with hub := { ready.hub with cpA := { seq := .exitNormal none, mstatus := 0x88, mie := 0x800 }, srcs := [(7, { st := .pending, mask := 1 })] } }, 0, 0, by decide +kernel⟩,
   ⟨{ ready with hub := { ready.hub with cpA := { seq := .exitNormal (some 7) } } }, 0, 0, 7, by decide +kernel⟩,
   ⟨{ ready with hub := { ready.hub with cpA := { seq := .exitFast none, inFast := true } } }, 0, 0, by decide +kernel⟩,
   ⟨{ ready with hub := { ready.hub with cpA := { seq := .exitFast (some 7), inFast := true } } }, 0, 0, 7, by decide +kernel⟩,
   ⟨ready, 0, 0, by decide +kernel⟩⟩

theorem test_meets_StartupEvents :
    (∃ (s : State) (t : Tick), s.sys.stage ≠ .inReset ∧
      ((fun _ => True) : State → Prop) (s.advance t)) ∧
    (∃ (s : State), s.sys.stage = .inReset) ∧
    (∃ (s : State) (t : Tick), s.sys.stage ≠ .inReset ∧
      ((fun _ => True) : State → Prop) (s.advance t)) ∧
    (∃ (s : State) (t : Tick), s.sys.stage ≠ .inReset ∧
      ((fun w => w.sys.nvRecalling = true ∧ w.sys.stage = .s1 ∧ w.tornPages = []) : State → Prop) (s.advance t)) ∧
    (∃ (s : State) (t : Tick), s.sys.stage ≠ .inReset ∧
      ((fun w => w.sys.nvRecalling = true ∧ w.sys.stage = .s1 ∧ w.tornPages ≠ []) : State → Prop) (s.advance t)) ∧
    (∃ (s : State) (t : Tick), s.sys.stage ≠ .inReset ∧
      ((fun w => w.sys.nvRecalling = false) : State → Prop) (s.advance t)) ∧
    (∃ (s : State) (t : Tick), s.sys.stage ≠ .inReset ∧
      ((fun w => w.sys.restart = false ∧ w.sys.stage = .s2 ∧ w.sys.mode ≠ .failed) : State → Prop) (s.advance t)) ∧
    (∃ (s : State) (t : Tick), s.sys.stage ≠ .inReset ∧
      ((fun w => w.sys.restart = false ∧ w.sys.stage = .s2) : State → Prop) (s.advance t)) ∧
    (∃ (s : State) (t : Tick), s.sys.stage ≠ .inReset ∧
      ((fun w => w.sys.restart = true) : State → Prop) (s.advance t)) ∧
    (∃ (s : State) (t : Tick), s.sys.stage ≠ .inReset ∧
      ((fun w => w.sys.restart = true) : State → Prop) (s.advance t)) ∧
    (∃ (s : State) (t : Tick), s.sys.stage ≠ .inReset ∧
      ((fun w => w.sys.stage = .s3) : State → Prop) (s.advance t)) ∧
    (∃ (s : State) (t : Tick), s.sys.stage ≠ .inReset ∧
      ((fun w => w.sys.stage ≠ .s3) : State → Prop) (s.advance t)) ∧
    (∃ (s : State) (t : Tick), s.sys.stage ≠ .inReset ∧
      ((fun w => w.sys.stage = .s4) : State → Prop) (s.advance t)) ∧
    (∃ (s : State) (t : Tick), s.sys.stage ≠ .inReset ∧
      ((fun w => w.sys.stage ≠ .s4) : State → Prop) (s.advance t)) ∧
    (∃ (s : State) (t : Tick), s.sys.stage ≠ .inReset ∧
      ((fun w => w.sys.stage = .s5 ∧ w.recallDue = true ∧ w.sys.mode = .bringup) : State → Prop) (s.advance t)) ∧
    (∃ (s : State) (t : Tick), s.sys.stage ≠ .inReset ∧
      ((fun w => w.sys.stage = .s5 ∧ (w.recallDue = false ∨ w.sys.mode ≠ .bringup)) : State → Prop) (s.advance t)) ∧
    (∃ (s : State) (t : Tick), s.sys.stage ≠ .inReset ∧
      ((fun w => w.sys.stage ≠ .s5) : State → Prop) (s.advance t)) ∧
    (∃ (s : State) (t : Tick), s.sys.stage ≠ .inReset ∧
      ((fun w => w.sys.stage = .s6 ∧ w.sys.mode = .bringup) : State → Prop) (s.advance t)) ∧
    (∃ (s : State) (t : Tick), s.sys.stage ≠ .inReset ∧
      ((fun w => w.sys.stage = .s6 ∧ w.sys.mode ≠ .bringup) : State → Prop) (s.advance t)) ∧
    (∃ (s : State) (t : Tick), s.sys.stage ≠ .inReset ∧
      ((fun w => w.sys.stage ≠ .s6) : State → Prop) (s.advance t)) ∧
    (∃ (s : State) (t : Tick), s.sys.stage ≠ .inReset ∧
      ((fun _ => True) : State → Prop) (s.advance t)) ∧
    (∃ (s : State) (t : Tick), s.sys.stage ≠ .inReset ∧
      ((fun _ => True) : State → Prop) (s.advance t)) :=
  ⟨⟨ready, 0, by decide +kernel⟩,
   ⟨{ ready with sys := { ready.sys with stage := .inReset } }, by decide +kernel⟩,
   ⟨ready, 0, by decide +kernel⟩,
   ⟨{ ready with sys := { ready.sys with stage := .s1, nvRecalling := true } }, 0, by decide +kernel⟩,
   ⟨{ ({ ready with sys := { ready.sys with stage := .s1, nvRecalling := true } }) with nv := { ready.nv with cells := [(0x3C000, 1)] } }, 0, by decide +kernel⟩,
   ⟨ready, 0, by decide +kernel⟩,
   ⟨{ ready with sys := { ready.sys with stage := .s2 } }, 0, by decide +kernel⟩,
   ⟨{ ready with sys := { ready.sys with stage := .s2 } }, 0, by decide +kernel⟩,
   ⟨{ ready with sys := { ready.sys with restart := true } }, 0, by decide +kernel⟩,
   ⟨{ ready with sys := { ready.sys with restart := true } }, 0, by decide +kernel⟩,
   ⟨{ ready with sys := { ready.sys with stage := .s3 } }, 0, by decide +kernel⟩,
   ⟨ready, 0, by decide +kernel⟩,
   ⟨{ ready with sys := { ready.sys with stage := .s4 } }, 0, by decide +kernel⟩,
   ⟨ready, 0, by decide +kernel⟩,
   ⟨{ ({ ready with sys := { ready.sys with stage := .s5 } }) with nv := { ready.nv with cells := [(0x20000, 1), (0x20040, 1)] } }, 0, by decide +kernel⟩,
   ⟨{ ready with sys := { ready.sys with stage := .s5, mode := .service } }, 0, by decide +kernel⟩,
   ⟨ready, 0, by decide +kernel⟩,
   ⟨{ ready with sys := { ready.sys with stage := .s6 } }, 0, by decide +kernel⟩,
   ⟨{ ready with sys := { ready.sys with stage := .s6, mode := .service } }, 0, by decide +kernel⟩,
   ⟨ready, 0, by decide +kernel⟩,
   ⟨ready, 0, by decide +kernel⟩,
   ⟨ready, 0, by decide +kernel⟩⟩

theorem test_meets_FaultEvents :
    (∃ (s : State) (t : Tick) (row : Nat), row < 6 ∧
      s.sys.stage ≠ .inReset ∧
      ((fun w => w.sys.mode ≠ .failed) : State → Prop) (s.advance t)) ∧
    (∃ (s : State) (t : Tick) (row : Nat), row < 6 ∧
      s.sys.stage ≠ .inReset ∧
      ((fun w => w.sys.mode = .failed) : State → Prop) (s.advance t)) ∧
    (∃ (s : State) (t : Tick) (row : Nat), 6 ≤ row ∧
      s.sys.stage ≠ .inReset ∧
      ((fun _ => True) : State → Prop) (s.advance t)) ∧
    (∃ (s : State) (t : Tick), s.sys.stage ≠ .inReset ∧
      ((fun w => w.sys.mode ≠ .failed) : State → Prop) (s.advance t)) ∧
    (∃ (s : State) (t : Tick), s.sys.stage ≠ .inReset ∧
      ((fun w => w.sys.mode = .failed) : State → Prop) (s.advance t)) ∧
    (∃ (s : State) (t : Tick), s.sys.stage ≠ .inReset ∧
      ((fun w => w.sys.mode ≠ .failed) : State → Prop) (s.advance t)) ∧
    (∃ (s : State) (t : Tick), s.sys.stage ≠ .inReset ∧
      ((fun w => w.sys.mode = .failed) : State → Prop) (s.advance t)) ∧
    (∃ (s : State) (t : Tick) (src : Nat), (src = 1 ∨ src = 2 ∨ src = 9 ∨ src = 10) ∧
      s.sys.stage ≠ .inReset ∧
      ((fun w => w.sys.mode ≠ .failed) : State → Prop) (s.advance t)) ∧
    (∃ (s : State) (t : Tick) (src : Nat), (src = 1 ∨ src = 2 ∨ src = 9 ∨ src = 10) ∧
      s.sys.stage ≠ .inReset ∧
      ((fun w => w.sys.mode = .failed) : State → Prop) (s.advance t)) ∧
    (∃ (s : State) (t : Tick) (temp : Int), 
    let calm (w : State) : Prop := minJunction - 20 ≤ temp ∧ temp ≤ 125 ∧ bit w.keys.active 5 = false
    s.sys.stage ≠ .inReset ∧
      ((fun w => calm w ∧ thermNext w.pins.thermLow temp = w.pins.thermLow) : State → Prop) (s.advance t)) ∧
    (∃ (s : State) (t : Tick) (temp : Int), 
    let calm (w : State) : Prop := minJunction - 20 ≤ temp ∧ temp ≤ 125 ∧ bit w.keys.active 5 = false
    s.sys.stage ≠ .inReset ∧
      ((fun w => calm w ∧ thermNext w.pins.thermLow temp ≠ w.pins.thermLow) : State → Prop) (s.advance t)) ∧
    (∃ (s : State) (t : Tick) (temp : Int), s.sys.stage ≠ .inReset ∧
      ((fun w => temp < minJunction - 20 ∧ w.pins.thermLow = false ∧ bit w.keys.active 5 = true) : State → Prop) (s.advance t)) ∧
    (∃ (s : State) (t : Tick) (temp : Int), s.sys.stage ≠ .inReset ∧
      ((fun w => 125 < temp ∧ w.pins.thermLow = true ∧ bit w.keys.active 5 = true ∧ w.pins.hotRun ≠ 3) : State → Prop) (s.advance t)) ∧
    (∃ (s : State) (t : Tick) (temp : Int), s.sys.stage ≠ .inReset ∧
      ((fun w => 125 < temp ∧ w.pins.thermLow = true ∧ bit w.keys.active 5 = true ∧ w.pins.hotRun = 3 ∧ w.sys.mode ≠ .failed) : State → Prop) (s.advance t)) ∧
    (∃ (s : State) (t : Tick) (temp : Int), s.sys.stage ≠ .inReset ∧
      ((fun w => (125 < temp ∨ temp < minJunction - 20) ∧ bit w.keys.active 5 = false ∧ bit w.keys.enables 5 = false ∧ w.pins.hotRun = 0 ∧
      thermNext w.pins.thermLow temp = w.pins.thermLow) : State → Prop) (s.advance t)) :=
  ⟨⟨ready, 0, 5, by decide +kernel⟩,
   ⟨{ ready with sys := { ready.sys with mode := .failed } }, 0, 5, by decide +kernel⟩,
   ⟨ready, 0, 6, by decide +kernel⟩,
   ⟨ready, 0, by decide +kernel⟩,
   ⟨{ ready with sys := { ready.sys with mode := .failed } }, 0, by decide +kernel⟩,
   ⟨ready, 0, by decide +kernel⟩,
   ⟨{ ready with sys := { ready.sys with mode := .failed } }, 0, by decide +kernel⟩,
   ⟨ready, 0, 10, by decide +kernel⟩,
   ⟨{ ready with sys := { ready.sys with mode := .failed } }, 0, 10, by decide +kernel⟩,
   ⟨ready, 0, 25, by first | decide +kernel | (refine ⟨by decide, ?_⟩; simp only [minJunction, maxJunction, thermNext]; have h : Config.grade = true ∨ Config.grade = false := (by cases Config.grade <;> simp); rcases h with h | h <;> simp only [h] <;> decide)⟩,
   ⟨ready, 0, 105, by first | decide +kernel | (refine ⟨by decide, ?_⟩; simp only [minJunction, maxJunction, thermNext]; have h : Config.grade = true ∨ Config.grade = false := (by cases Config.grade <;> simp); rcases h with h | h <;> simp only [h] <;> decide)⟩,
   ⟨{ ready with pins := { ready.pins with thermLow := false }, keys := { ready.keys with active := 32 } }, 0, -61, by first | decide +kernel | (refine ⟨by decide, ?_⟩; simp only [minJunction, maxJunction, thermNext]; have h : Config.grade = true ∨ Config.grade = false := (by cases Config.grade <;> simp); rcases h with h | h <;> simp only [h] <;> decide)⟩,
   ⟨{ ready with pins := { ready.pins with thermLow := true, hotRun := 4 }, keys := { ready.keys with active := 32 } }, 0, 126, by decide +kernel⟩,
   ⟨{ ready with pins := { ready.pins with thermLow := true, hotRun := 3 }, keys := { ready.keys with active := 32 } }, 0, 126, by decide +kernel⟩,
   ⟨{ ready with pins := { ready.pins with thermLow := true }, keys := { ready.keys with active := 0, enables := 0 } }, 0, 126, by first | decide +kernel | (refine ⟨by decide, ?_⟩; simp only [minJunction, maxJunction, thermNext]; have h : Config.grade = true ∨ Config.grade = false := (by cases Config.grade <;> simp); rcases h with h | h <;> simp only [h] <;> decide)⟩⟩

theorem test_meets_ParameterStoreEvents :
    (∃ (s : State) (t : Tick) (x : NvWrite) (rest : List NvWrite), 
    let head (w : State) : Prop := w.nv.writes = x :: rest ∧ w.nv.stopped = false
    s.sys.stage ≠ .inReset ∧
      (head : State → Prop) (s.advance t)) ∧
    (∃ (s : State) (t : Tick), s.sys.stage ≠ .inReset ∧
      ((fun w => w.nv.writes = [] ∨ w.nv.stopped = true) : State → Prop) (s.advance t)) ∧
    (∃ (s : State) (t : Tick), s.sys.stage ≠ .inReset ∧
      ((fun _ => True) : State → Prop) (s.advance t)) ∧
    (∃ (s : State) (t : Tick) (x : NvWrite) (rest : List NvWrite), 
    let head (w : State) : Prop := w.nv.writes = x :: rest ∧ w.nv.stopped = false
    s.sys.stage ≠ .inReset ∧
      ((fun w => head w ∧ x.why = .record) : State → Prop) (s.advance t)) ∧
    (∃ (s : State) (t : Tick) (x : NvWrite) (rest : List NvWrite) (id : Nat), 
    let head (w : State) : Prop := w.nv.writes = x :: rest ∧ w.nv.stopped = false
    s.sys.stage ≠ .inReset ∧
      ((fun w => head w ∧ x.why = .lastOf id) : State → Prop) (s.advance t)) ∧
    (∃ (s : State) (t : Tick) (x : NvWrite) (rest : List NvWrite) (key pos : Nat) (entry : List Byte), 
    let head (w : State) : Prop := w.nv.writes = x :: rest ∧ w.nv.stopped = false
    
    let marks := entrySeq entry % 64 = 63 ∨ (entry.getD 2 0).toNat = 5
    s.sys.stage ≠ .inReset ∧
      ((fun w => head w ∧ x.why = .audit entry key pos ∧ ¬marks) : State → Prop) (s.advance t)) ∧
    (∃ (s : State) (t : Tick) (x : NvWrite) (rest : List NvWrite) (key pos : Nat) (entry : List Byte), 
    let head (w : State) : Prop := w.nv.writes = x :: rest ∧ w.nv.stopped = false
    
    let marks := entrySeq entry % 64 = 63 ∨ (entry.getD 2 0).toNat = 5
    s.sys.stage ≠ .inReset ∧
      ((fun w => head w ∧ x.why = .audit entry key pos ∧ marks) : State → Prop) (s.advance t)) ∧
    (∃ (s : State) (t : Tick), s.sys.stage ≠ .inReset ∧
      ((fun w => w.nv.writes = [] ∨ w.nv.stopped = true) : State → Prop) (s.advance t)) ∧
    (∃ (s : State) (t : Tick), s.sys.stage ≠ .inReset ∧
      ((fun w => w.sys.quiet = .awake ∧ w.nv.refresh = none) : State → Prop) (s.advance t)) ∧
    (∃ (s : State) (t : Tick), s.sys.stage ≠ .inReset ∧
      ((fun w => w.sys.quiet ≠ .awake ∨ w.nv.refresh ≠ none) : State → Prop) (s.advance t)) ∧
    (∃ (s : State) (t : Tick) (n : Nat), 
    let reads (w : State) : Prop := w.nv.refresh = some n ∧ w.sys.quiet = .awake ∧ w.sys.restart = false
    s.sys.stage ≠ .inReset ∧
      (reads : State → Prop) (s.advance t)) ∧
    (∃ (s : State) (t : Tick) (n : Nat), 
    let reads (w : State) : Prop := w.nv.refresh = some n ∧ w.sys.quiet = .awake ∧ w.sys.restart = false
    s.sys.stage ≠ .inReset ∧
      (reads : State → Prop) (s.advance t)) ∧
    (∃ (s : State) (t : Tick), s.sys.stage ≠ .inReset ∧
      ((fun w => w.nv.refresh = none) : State → Prop) (s.advance t)) ∧
    (∃ (s : State) (t : Tick) (e : AuditEntry) (tail : List AuditEntry), s.sys.stage ≠ .inReset ∧
      ((fun w => w.nv.audit = e :: tail ∧ w.auditBusy = false ∧ w.sys.nvRecalling = false ∧ w.firmwareRuns = true) : State → Prop) (s.advance t)) ∧
    (∃ (s : State) (t : Tick), s.sys.stage ≠ .inReset ∧
      ((fun w => w.nv.audit = [] ∨ w.auditBusy = true ∨ w.firmwareRuns = false) : State → Prop) (s.advance t)) :=
  ⟨⟨{ ready with nv := { ready.nv with writes := [{ addr := 0x3FFFF, bytes := [7], why := .record }] } }, 0, { addr := 0x3FFFF, bytes := [7], why := .record }, [], by decide +kernel⟩,
   ⟨ready, 0, by decide +kernel⟩,
   ⟨ready, 0, by decide +kernel⟩,
   ⟨{ ready with nv := { ready.nv with writes := [{ addr := 0x3FFFF, bytes := [7], why := .record }] } }, 0, { addr := 0x3FFFF, bytes := [7], why := .record }, [], by decide +kernel⟩,
   ⟨{ ready with nv := { ready.nv with writes := [{ addr := 0x3FFFF, bytes := [7], why := .lastOf 1 }] } }, 0, { addr := 0x3FFFF, bytes := [7], why := .lastOf 1 }, [], 1, by decide +kernel⟩,
   ⟨{ ready with nv := { ready.nv with writes := [{ addr := 0x3FFFF, bytes := [7], why := .audit [62, 0, 3] 1 4095 }] } }, 0, { addr := 0x3FFFF, bytes := [7], why := .audit [62, 0, 3] 1 4095 }, [], 1, 4095, [62, 0, 3], by decide +kernel⟩,
   ⟨{ ready with nv := { ready.nv with writes := [{ addr := 0x3FFFF, bytes := [7], why := .audit [63, 0, 3] 1 4095 }] } }, 0, { addr := 0x3FFFF, bytes := [7], why := .audit [63, 0, 3] 1 4095 }, [], 1, 4095, [63, 0, 3], by decide +kernel⟩,
   ⟨ready, 0, by decide +kernel⟩,
   ⟨ready, 0, by decide +kernel⟩,
   ⟨{ ready with nv := { ready.nv with refresh := some 0 } }, 0, by decide +kernel⟩,
   ⟨{ ready with nv := { ready.nv with refresh := some 16383 } }, 0, 16383, by decide +kernel⟩,
   ⟨{ ready with nv := { ready.nv with refresh := some 16383 } }, 0, 16383, by decide +kernel⟩,
   ⟨ready, 0, by decide +kernel⟩,
   ⟨{ ready with nv := { ready.nv with audit := [{ kind := 1, stc := 0 }] } }, 0, { kind := 1, stc := 0 }, [], by decide +kernel⟩,
   ⟨ready, 0, by decide +kernel⟩⟩

theorem test_meets_KeyEvents :
    (∃ (w : State), ∃ i, tblWf ({} : Slot) w.keys.slots = true ∧
      i < 32) ∧
    (∃ (w : State), tblWf ({} : Slot) w.keys.slots = true) ∧
    (∃ (s : State) (t : Tick) (src : Nat), 
    let alarms (w : State) : Prop := src < 7 ∧ bit w.keys.active src = false
    s.sys.stage ≠ .inReset ∧
      ((fun w => alarms w ∧ bit w.keys.enables src = false) : State → Prop) (s.advance t)) ∧
    (∃ (s : State) (t : Tick) (src : Nat), 
    let alarms (w : State) : Prop := src < 7 ∧ bit w.keys.active src = false
    s.sys.stage ≠ .inReset ∧
      ((fun w => alarms w ∧ bit w.keys.enables src = true ∧ (bit w.sys.wakeEnables 4 = false ∨ w.sys.quiet ≠ .asleep)) : State → Prop) (s.advance t)) ∧
    (∃ (s : State) (t : Tick) (src : Nat), 
    let alarms (w : State) : Prop := src < 7 ∧ bit w.keys.active src = false
    s.sys.stage ≠ .inReset ∧
      ((fun w => alarms w ∧ bit w.keys.enables src = true ∧ bit w.sys.wakeEnables 4 = true ∧ w.sys.quiet = .asleep) : State → Prop) (s.advance t)) ∧
    (∃ (s : State) (t : Tick) (src : Nat), s.sys.stage ≠ .inReset ∧
      ((fun w => 7 ≤ src ∨ bit w.keys.active src = true) : State → Prop) (s.advance t)) ∧
    (∃ (s : State) (t : Tick) (src : Nat), s.sys.stage ≠ .inReset ∧
      ((fun w => bit w.keys.active src = true) : State → Prop) (s.advance t)) ∧
    (∃ (s : State) (t : Tick) (src : Nat), s.sys.stage ≠ .inReset ∧
      ((fun w => bit w.keys.active src = false) : State → Prop) (s.advance t)) ∧
    (∃ (s : State) (t : Tick), 
    let stores (w : State) : Prop := w.firmwareRuns = true ∧ w.sys.nvRecalling = false ∧ 0 < w.keys.pendingCount
    s.sys.stage ≠ .inReset ∧
      (stores : State → Prop) (s.advance t)) ∧
    (∃ (s : State) (t : Tick), s.sys.stage ≠ .inReset ∧
      ((fun w => w.keys.pendingCount = 0) : State → Prop) (s.advance t)) ∧
    (∃ (s : State) (t : Tick), s.sys.stage ≠ .inReset ∧
      ((fun _ => True) : State → Prop) (s.advance t)) ∧
    (∃ (s : State) (t : Tick) (id : Nat) (o : KeyOp), 
    let runs (w : State) : Prop := (w.keys.ops.find? fun y => y.job == id) = some o
    s.sys.stage ≠ .inReset ∧
      ((fun w => runs w ∧ o.derive_ = true ∧ o.changed = false) : State → Prop) (s.advance t)) ∧
    (∃ (s : State) (t : Tick) (id : Nat) (o : KeyOp), 
    let runs (w : State) : Prop := (w.keys.ops.find? fun y => y.job == id) = some o
    s.sys.stage ≠ .inReset ∧
      ((fun w => runs w ∧ o.derive_ = true ∧ o.changed = true) : State → Prop) (s.advance t)) ∧
    (∃ (s : State) (t : Tick) (id : Nat) (o : KeyOp), 
    let runs (w : State) : Prop := (w.keys.ops.find? fun y => y.job == id) = some o
    s.sys.stage ≠ .inReset ∧
      ((fun w => runs w ∧ o.derive_ = false) : State → Prop) (s.advance t)) ∧
    (∃ (s : State) (t : Tick) (id : Nat), s.sys.stage ≠ .inReset ∧
      ((fun w => (w.keys.ops.find? fun y => y.job == id) = none) : State → Prop) (s.advance t)) :=
  ⟨⟨ready, 31, by decide +kernel⟩,
   ⟨ready, by decide +kernel⟩,
   ⟨{ (ready) with keys := { ready.keys with enables := 63 } }, 0, 6, by decide +kernel⟩,
   ⟨ready, 0, 6, by decide +kernel⟩,
   ⟨{ ({ ready with sys := { ready.sys with quiet := .asleep, wakeEnables := 16 } }) with keys := { ready.keys with enables := 127 } }, 0, 6, by decide +kernel⟩,
   ⟨ready, 0, 7, by decide +kernel⟩,
   ⟨{ (ready) with keys := { ready.keys with active := 64 } }, 0, 6, by decide +kernel⟩,
   ⟨ready, 0, 6, by decide +kernel⟩,
   ⟨{ (ready) with keys := { ready.keys with pendingCount := 255 } }, 0, by decide +kernel⟩,
   ⟨ready, 0, by decide +kernel⟩,
   ⟨ready, 0, by decide +kernel⟩,
   ⟨{ (ready) with keys := { ready.keys with ops := [{ job := 1, slot := 31, parent := 0, derive_ := true, key := 9, changed := false }] } }, 0, 1, { job := 1, slot := 31, parent := 0, derive_ := true, key := 9, changed := false }, by decide +kernel⟩,
   ⟨{ (ready) with keys := { ready.keys with ops := [{ job := 1, slot := 31, parent := 0, derive_ := true, key := 9, changed := true }] } }, 0, 1, { job := 1, slot := 31, parent := 0, derive_ := true, key := 9, changed := true }, by decide +kernel⟩,
   ⟨{ (ready) with keys := { ready.keys with ops := [{ job := 1, slot := 31, parent := 0, derive_ := false, key := 9, changed := true }] } }, 0, 1, { job := 1, slot := 31, parent := 0, derive_ := false, key := 9, changed := true }, by decide +kernel⟩,
   ⟨ready, 0, 1, by decide +kernel⟩⟩

theorem test_meets_QuietEvents :
    (∃ (s : State) (t : Tick), 
    let calls (w : State) (b : Nat) : Prop := bit w.sys.wakeEnables b = true ∧ w.sys.quiet = .asleep
    s.sys.stage ≠ .inReset ∧
      ((fun w => calls w 0) : State → Prop) (s.advance t)) ∧
    (∃ (s : State) (t : Tick), 
    let calls (w : State) (b : Nat) : Prop := bit w.sys.wakeEnables b = true ∧ w.sys.quiet = .asleep
    s.sys.stage ≠ .inReset ∧
      ((fun w => ¬calls w 0) : State → Prop) (s.advance t)) ∧
    (∃ (s : State) (t : Tick), 
    let calls (w : State) (b : Nat) : Prop := bit w.sys.wakeEnables b = true ∧ w.sys.quiet = .asleep
    s.sys.stage ≠ .inReset ∧
      ((fun w => w.sys.wakeTimer ≤ w.stc ∧ calls w 2) : State → Prop) (s.advance t)) ∧
    (∃ (s : State) (t : Tick), 
    let calls (w : State) (b : Nat) : Prop := bit w.sys.wakeEnables b = true ∧ w.sys.quiet = .asleep
    s.sys.stage ≠ .inReset ∧
      ((fun w => w.sys.wakeTimer ≤ w.stc ∧ ¬calls w 2) : State → Prop) (s.advance t)) ∧
    (∃ (s : State) (t : Tick), s.sys.stage ≠ .inReset ∧
      ((fun w => w.stc < w.sys.wakeTimer) : State → Prop) (s.advance t)) ∧
    (∃ (s : State) (t : Tick), 
    let slept (w : State) : State := { w with sys := { w.sys with quiet := .asleep } }.setMode .quiet
    
    let asked (w : State) : Nat := Nat.land ((slept w).latches none) (slept w).sys.wakeEnables
    
    let mode (w : State) : State :=
      { w with sys := { w.sys with quiet := .awake, wakeLatch := Nat.land w.sys.wakeLatch 20 } }.setMode w.sys.modeBefore
    s.sys.stage ≠ .inReset ∧
      ((fun w => w.sys.quiet = .entering ∧ w.sys.mode ≠ .recovery ∧ asked w = 0) : State → Prop) (s.advance t)) ∧
    (∃ (s : State) (t : Tick), 
    let slept (w : State) : State := { w with sys := { w.sys with quiet := .asleep } }.setMode .quiet
    
    let asked (w : State) : Nat := Nat.land ((slept w).latches none) (slept w).sys.wakeEnables
    
    let mode (w : State) : State :=
      { w with sys := { w.sys with quiet := .awake, wakeLatch := Nat.land w.sys.wakeLatch 20 } }.setMode w.sys.modeBefore
    s.sys.stage ≠ .inReset ∧
      ((fun w => w.sys.quiet = .entering ∧ w.sys.mode ≠ .recovery ∧ asked w ≠ 0) : State → Prop) (s.advance t)) ∧
    (∃ (s : State) (t : Tick), 
    let mode (w : State) : State :=
      { w with sys := { w.sys with quiet := .awake, wakeLatch := Nat.land w.sys.wakeLatch 20 } }.setMode w.sys.modeBefore
    
    let lanes (w : State) : State := (List.range 65).foldl (fun u b =>
      if (u.txDir b).enable && !(u.txDir b).asleep then u.txStart b else u) w.lanesOnRecords
    
    let stays (w : State) : State :=
      (lanes { w with sys := { w.sys with quiet := .awake } }.reloadEngines).wakeAudio
    s.sys.stage ≠ .inReset ∧
      ((fun w => w.sys.quiet = .entering ∧ w.sys.mode = .recovery ∧ ∀ x ∈ (stays w).jobs, x.kind ≠ .parked) : State → Prop) (s.advance t)) ∧
    (∃ (s : State) (t : Tick) (j : Job), 
    let mode (w : State) : State :=
      { w with sys := { w.sys with quiet := .awake, wakeLatch := Nat.land w.sys.wakeLatch 20 } }.setMode w.sys.modeBefore
    
    let lanes (w : State) : State := (List.range 65).foldl (fun u b =>
      if (u.txDir b).enable && !(u.txDir b).asleep then u.txStart b else u) w.lanesOnRecords
    
    let stays (w : State) : State :=
      (lanes { w with sys := { w.sys with quiet := .awake } }.reloadEngines).wakeAudio
    s.sys.stage ≠ .inReset ∧
      ((fun w => w.sys.quiet = .entering ∧ w.sys.mode = .recovery ∧ (stays w).jobs = [j] ∧ j.kind = .parked) : State → Prop) (s.advance t)) ∧
    (∃ (s : State) (t : Tick), s.sys.stage ≠ .inReset ∧
      ((fun w => w.sys.quiet ≠ .entering) : State → Prop) (s.advance t)) ∧
    (∃ (s : State) (t : Tick), s.sys.stage ≠ .inReset ∧
      ((fun w => w.sys.quiet = .waking ∧ w.sys.wakeT + 1080000 ≤ w.now) : State → Prop) (s.advance t)) ∧
    (∃ (s : State) (t : Tick), s.sys.stage ≠ .inReset ∧
      ((fun w => w.sys.quiet ≠ .waking ∨ w.now < w.sys.wakeT + 1080000) : State → Prop) (s.advance t)) :=
  ⟨⟨{ ready with sys := { ready.sys with quiet := .asleep } }, 0, by decide +kernel⟩,
   ⟨ready, 0, by decide +kernel⟩,
   ⟨{ ready with sys := { ready.sys with quiet := .asleep, wakeEnables := 4 } }, 0, by decide +kernel⟩,
   ⟨ready, 0, by decide +kernel⟩,
   ⟨{ ready with sys := { ready.sys with wakeTimer := 1 } }, 0, by decide +kernel⟩,
   ⟨{ ready with sys := { ready.sys with quiet := .entering, wakeEnables := 1, wakeLatch := 2 } }, 0, by decide +kernel⟩,
   ⟨{ ready with sys := { ready.sys with quiet := .entering, wakeEnables := 2, wakeLatch := 2 } }, 0, by decide +kernel⟩,
   ⟨{ ready with sys := { ready.sys with quiet := .entering, mode := .recovery } }, 0, by decide +kernel⟩,
   ⟨{ ({ ready with sys := { ready.sys with quiet := .entering, mode := .recovery } }) with jobs := [{ id := 0, kind := .parked, queue := 9, seq := 1, tag := 0, params := .lossSet { output := 511, policy := 2 } }] }, 0, { id := 0, kind := .parked, queue := 9, seq := 1, tag := 0, params := .lossSet { output := 511, policy := 2 } }, by decide +kernel⟩,
   ⟨ready, 0, by decide +kernel⟩,
   ⟨{ ready with sys := { ready.sys with quiet := .waking, wakeT := 0 } }, 1080000, by decide +kernel⟩,
   ⟨ready, 0, by decide +kernel⟩⟩

/-! ### Witnesses: every packet, and the statements on chosen rules -/

/-- A device whose queue 9 is bound to slot 31 as given. -/
def bound (k : Slot) : State := (ready.setSlot 31 k).setQueue 9 { macSlot := some 31, macSeq := some 5 }

/-- A packet of queue 9 with the MAC that key 1 gives, and one whose MAC is off by one. -/
def signed (seq : Nat) : Hdr :=
  { queue := 9, seq := seq, mac := some (macOf 1 9 { queue := 9, seq := seq, mac := some 0 } (.pairResync {})) }
def forged : Hdr :=
  { queue := 9, mac := some (macOf 1 9 { queue := 9, mac := some 0 } (.pairResync {}) + 1) }

/-- The MAC itself is not under the MAC. -/
theorem macOf_mac (k q a b : Nat) (h : Hdr) (p : Params) : macOf k q { h with mac := some a } p = macOf k q { h with mac := some b } p := by
  have : signedBytes q { h with mac := some a } p = signedBytes q { h with mac := some b } p := by
    simp only [signedBytes, headerBytes, headerFlags, Option.isSome_some]
  unfold macOf; rw [this]

theorem signed_mac (seq : Nat) : (signed seq).mac = some (macOf 1 9 (signed seq) (.pairResync {})) :=
  congrArg some (macOf_mac 1 9 0 _ { queue := 9, seq := seq } _)

theorem forged_mac : forged.mac = some (macOf 1 9 forged (.pairResync {}) + 1) :=
  congrArg (fun m => some (m + 1)) (macOf_mac 1 9 0 _ { queue := 9 } _)

/-- The MAC of `signed` fits a slot that holds key 1, and that of `forged` does not. -/
theorem signed_fits (seq k : Nat) (h : k = 1) :
    macOf 1 9 (signed seq) (.pairResync {}) = macOf k (signed seq).queue (signed seq) (.pairResync {}) := by
  subst h; rfl

theorem forged_fails (k : Nat) (h : k = 1) :
    macOf 1 9 forged (.pairResync {}) + 1 ≠ macOf k forged.queue forged (.pairResync {}) := by
  have e : forged.queue = 9 := rfl
  rw [h, e]
  generalize macOf 1 9 forged (.pairResync {}) = m
  omega

theorem test_meets_PacketsAreJudgedInOrder :
    (∃ (s : State) (t : Tick) (h : Hdr) (p : Params) (i : Instr) (e : Nat × Nat),
      packetRow t h p = some i ∧ Taken s t h p ∧ frameCheck h.queue h = some e ∧ h.queue < 9 ∧ (h.version ≠ 1 ∨ h.length < 6)) ∧
    (∃ (s : State) (t : Tick) (h : Hdr) (p : Params) (i : Instr) (e : Nat × Nat),
      packetRow t h p = some i ∧ Taken s t h p ∧ frameCheck h.queue h = some e ∧
      (h.queue = 9 ∨ h.version = 1 ∧ 6 ≤ h.length)) ∧
    (∃ (s : State) (t : Tick) (h : Hdr) (p : Params) (i : Instr) (e : Nat × Nat),
      packetRow t h p = some i ∧ Taken s t h p ∧ frameCheck h.queue h = none ∧ (reached s t h p).authCheck h.queue h p = some e) ∧
    (∃ (s : State) (t : Tick) (h : Hdr) (p : Params) (i : Instr) (e : Nat × Nat),
      packetRow t h p = some i ∧ Taken s t h p ∧ frameCheck h.queue h = none ∧ (reached s t h p).authCheck h.queue h p = none ∧
      (fetched s t h p).opcodeCheck h.queue p = some e) ∧
    (∃ (s : State) (t : Tick) (h : Hdr) (p : Params) (i : Instr) (e : Nat × Nat),
      packetRow t h p = some i ∧ Taken s t h p ∧ frameCheck h.queue h = none ∧ (reached s t h p).authCheck h.queue h p = none ∧
      (fetched s t h p).opcodeCheck h.queue p = none ∧ (fetched s t h p).headerCheck h.queue h p = some e) ∧
    (∃ (s : State) (t : Tick) (h : Hdr) (p : Params) (i : Instr) (e : Nat × Nat),
      packetRow t h p = some i ∧ Taken s t h p ∧ frameCheck h.queue h = none ∧ (reached s t h p).authCheck h.queue h p = none ∧
      (fetched s t h p).opcodeCheck h.queue p = none ∧ (fetched s t h p).headerCheck h.queue h p = none ∧
      (fetched s t h p).modeCheck h.queue ⟨h, p⟩ = some e) ∧
    (∃ (s : State) (t : Tick) (h : Hdr) (p : Params) (i : Instr) (e : Nat × Nat),
      packetRow t h p = some i ∧ Taken s t h p ∧ Immediate s t h p ∧
      ansCheck (startOf ⟨h.queue, h⟩ p (fetched s t h p)) = some e) :=
  ⟨⟨served, 0, { length := 5 }, .pairResync {}, _, (stBadLength, 1), rfl, by decide +kernel⟩,
   ⟨served, 0, { length := 16385 }, .pairResync {}, _, (stBadLength, 0), rfl, by decide +kernel⟩,
   ⟨ready, 0, { queue := 9, mac := some 1 }, .pairResync {}, _, (stKeyAbsent, 0), rfl, by decide +kernel⟩,
   ⟨served, 0, {}, .keyWrite { slot := 0, usage := 1, parent := 255, key := 1 }, _, (stBadOpcode, 0), rfl, by decide +kernel⟩,
   ⟨ready, 0, { queue := 9, rsvd := 1 }, .pairResync {}, _, (stBadParam, 0), rfl, by decide +kernel⟩,
   ⟨ready, 0, { queue := 9, length := 7 }, .barrier {}, _, (stBadLength, 0), rfl, by decide +kernel⟩,
   ⟨ready, 0, onQueue 9 (.sysMode { mode := 9 }), .sysMode { mode := 9 }, _, (stBadParam, 0), rfl, by decide +kernel⟩⟩

theorem test_meets_PacketsWaitInTheirRing :
    (∃ (s : State) (t : Tick) (h : Hdr) (p : Params) (i : Instr),
      let u := s.enter t
      let x := u.queue h.queue
      packetRow t h p = some i ∧ tblWf ({} : Queue) s.queues = true ∧ h.queue < 9 ∧ u.senderOk h.queue = true ∧
      (x.ring ≠ [] ∨ (u.fetches h.queue && x.enable && !x.error && !u.holds h.queue) = false)) ∧
    (∃ (s : State) (t : Tick) (h : Hdr) (p : Params) (i : Instr),
      let u := s.enter t
      let x := u.queue h.queue
      packetRow t h p = some i ∧ tblWf ({} : Queue) s.queues = true ∧ h.queue < 9 ∧ u.senderOk h.queue = true ∧ x.ring = [] ∧
      (u.fetches h.queue && x.enable && !x.error && !u.holds h.queue) = true ∧ x.sqTail = x.sqHead ∧
      x.sqHead < u.ringBytes h.queue ∧ ringSize ⟨h, p⟩ < u.ringBytes h.queue ∧ u.ringRoom h.queue ⟨h, p⟩ = false) ∧
    (∃ (s : State) (t : Tick) (h : Hdr) (p : Params) (i : Instr), packetRow t h p = some i ∧
      tblWf ({} : Queue) s.queues = true ∧ (10 ≤ h.queue ∨ (s.enter t).senderOk h.queue = false)) ∧
    (∃ (s : State) (t : Tick) (h : Hdr) (p : Params) (i : Instr), packetRow t h p = some i ∧
      tblWf ({} : Queue) s.queues = true ∧ h.queue = 9 ∧ (s.enter t).senderOk 9 = true ∧ (s.enter t).rxReady = false) :=
  ⟨⟨ready, 0, {}, .pairResync {}, _, rfl, by decide +kernel⟩,
   ⟨ready.setQueue 7 { enable := true, entries := List.replicate 64 ⟨⟨0, 0, 0, 0, 0, 0⟩, 7, true⟩ }, 0, { queue := 7 }, .pairResync {}, _,
    rfl, by decide +kernel⟩,
   ⟨ready, 0, { queue := 10 }, .pairResync {}, _, rfl, by decide +kernel⟩,
   ⟨{ ready with spi := { buffer := some ⟨{}, .pairResync {}⟩ } }, 0, { queue := 9 }, .pairResync {}, _, rfl, by decide +kernel⟩⟩

/-- A LOSS_SET for frame 9 of the raster of the last output of `wired`. -/
def later (policy : Nat) (reject : Bool) (frame : Nat) : Hdr × LossSetP :=
  ({ onQueue 9 (.lossSet { output := 511, policy := policy }) with
     sched := true, raster := 513, frame := frame, line := 1, reject := reject }, { output := 511, policy := policy })

/-- An action that stands in the table. -/
def resident : Job := { id := 0, kind := .apply, queue := 0, seq := 0, tag := 0, sched := true, params := .pairResync {} }

theorem test_meets_ScheduledCommandsReside :
    (∃ (s : State) (t : Tick) (h : Hdr) (p : Params) (i : Instr) (e : Nat × Nat), packetRow t h p = some i ∧ Accepted s t h p ∧
      h.sched = true ∧ ((fetched s t h p).isLead && (rowOf p).pair == .s) = false ∧ checkOf ⟨h.queue, h⟩ p (fetched s t h p) = some e) ∧
    (∃ (s : State) (t : Tick) (h : Hdr) (p : Params) (i : Instr), packetRow t h p = some i ∧ Accepted s t h p ∧
      h.sched = true ∧ ((fetched s t h p).isLead && (rowOf p).pair == .s) = false ∧ checkOf ⟨h.queue, h⟩ p (fetched s t h p) = none ∧
      16384 ≤ (fetched s t h p).resident) ∧
    (∃ (s : State) (t : Tick) (h : Hdr) (p : Params) (i : Instr), packetRow t h p = some i ∧ Accepted s t h p ∧
      h.sched = true ∧ ((fetched s t h p).isLead && (rowOf p).pair == .s) = false ∧ checkOf ⟨h.queue, h⟩ p (fetched s t h p) = none ∧
      (fetched s t h p).resident < 16384 ∧
      (fetched s t h p).target h.raster h.frame h.line (armingOf p (fetched s t h p)) h.reject = none) ∧
    (∃ (s : State) (t : Tick) (h : Hdr) (p : Params) (i : Instr) (f : Nat), packetRow t h p = some i ∧ Accepted s t h p ∧
      h.sched = true ∧ ((fetched s t h p).isLead && (rowOf p).pair == .s) = false ∧ checkOf ⟨h.queue, h⟩ p (fetched s t h p) = none ∧
      (fetched s t h p).resident < 16384 ∧
      (fetched s t h p).target h.raster h.frame h.line (armingOf p (fetched s t h p)) h.reject = some f) :=
  ⟨⟨wired, 0, (later 9 false 9).1, .lossSet (later 9 false 9).2, _, (stBadParam, 0), rfl, by decide +kernel⟩,
   ⟨{ wired with jobs := List.replicate 16384 resident }, 0, (later 2 false 9).1, .lossSet (later 2 false 9).2, _, rfl, by decide +kernel⟩,
   ⟨wired, 0, (later 2 true 0).1, .lossSet (later 2 true 0).2, _, rfl, by decide +kernel⟩,
   ⟨wired, 0, (later 2 false 9).1, .lossSet (later 2 false 9).2, _, 9, rfl, by decide +kernel⟩⟩

/-- A command of a queue that has run. -/
def ran (q : Nat) : Job := { id := 0, kind := .event, queue := q, seq := 1, tag := 0, params := .pairResync {} }

theorem test_meets_RepliesTouchOnlyQueues :
    (∃ (w : State) (b : Job), tblWf ({} : Queue) w.queues = true ∧ JobsInOrder w.jobs w.nextJob ∧ b.queue < 9 ∧ b.queue ≠ 8 ∧
      b.silent = false ∧ b.res = none ∧ w.sys.mode ≠ .failed ∧ (w.queue b.queue).enable = true ∧ (w.queue b.queue).stopping = false ∧
      (w.queue b.queue).heldReplies = [] ∧ (w.queue b.queue).entries.length < 2 ^ (w.queue b.queue).cqSize) ∧
    (∃ (w : State) (b : Job), tblWf ({} : Queue) w.queues = true ∧ JobsInOrder w.jobs w.nextJob ∧ b.queue = 9 ∧ b.silent = false ∧
      b.res = none) :=
  ⟨⟨served, ran 0, by decide +kernel, ⟨by decide, by decide⟩, by decide +kernel⟩,
   ⟨ready, ran 9, by decide +kernel, ⟨by decide, by decide⟩, by decide +kernel⟩⟩

theorem test_meets_StepRunsTheFrontCommand :
    (∃ (s : State) (c : Instr) (rest : List Instr), s.pending = c :: rest) ∧ (∃ s : State, s.pending = []) :=
  ⟨⟨{ ready with pending := [.readStatus 0] }, .readStatus 0, [], rfl⟩, ⟨ready, rfl⟩⟩

theorem test_meets_StepTakesOneAndTimeGoesOn : ∃ s s' : State, step s = .next s' :=
  ⟨{ ready with pending := [.readStatus 5] }, _, rfl⟩

theorem test_meets_StepKeepsSound : ∃ s s' : State, Sound s ∧ step s = .next s' :=
  ⟨State.reset, State.reset, ⟨⟨rfl, rfl, rfl⟩, ⟨List.Pairwise.nil, fun _ h => (nomatch h)⟩, ⟨fun h => (nomatch h), fun h => (nomatch h)⟩, rfl, rfl⟩, rfl⟩

theorem test_meets_SequenceWindowStopsReplays :
    (∃ (s : State) (t : Tick) (h : Hdr) (p : Params) (i : Instr) (slot mac : Nat), packetRow t h p = some i ∧ Taken s t h p ∧
      frameCheck h.queue h = none ∧ (s.queue h.queue).macSlot = some slot ∧ (reached s t h p).useSlot 0 slot = none ∧
      h.mac = some mac ∧ mac ≠ macOf ((reached s t h p).slot slot).key h.queue h p) ∧
    (∃ (s : State) (t : Tick) (h : Hdr) (p : Params) (i : Instr) (slot mac : Nat), packetRow t h p = some i ∧ Taken s t h p ∧
      frameCheck h.queue h = none ∧ (s.queue h.queue).macSlot = some slot ∧ (reached s t h p).useSlot 0 slot = none ∧
      h.mac = some mac ∧ mac = macOf ((reached s t h p).slot slot).key h.queue h p ∧ (s.queue h.queue).macSeq = none) ∧
    (∃ (s : State) (t : Tick) (h : Hdr) (p : Params) (i : Instr) (slot mac : Nat) (last : BitVec 32), packetRow t h p = some i ∧
      Taken s t h p ∧ frameCheck h.queue h = none ∧ (s.queue h.queue).macSlot = some slot ∧
      (reached s t h p).useSlot 0 slot = none ∧ h.mac = some mac ∧ mac = macOf ((reached s t h p).slot slot).key h.queue h p ∧
      (s.queue h.queue).macSeq = some last ∧ 1 ≤ (BitVec.ofNat 32 h.seq - last).toNat ∧
      (BitVec.ofNat 32 h.seq - last).toNat < 2 ^ 31) ∧
    (∃ (s : State) (t : Tick) (h : Hdr) (p : Params) (i : Instr) (slot mac : Nat) (last : BitVec 32), packetRow t h p = some i ∧
      Taken s t h p ∧ frameCheck h.queue h = none ∧ (s.queue h.queue).macSlot = some slot ∧
      (reached s t h p).useSlot 0 slot = none ∧ h.mac = some mac ∧ mac = macOf ((reached s t h p).slot slot).key h.queue h p ∧
      (s.queue h.queue).macSeq = some last ∧
      ¬(1 ≤ (BitVec.ofNat 32 h.seq - last).toNat ∧ (BitVec.ofNat 32 h.seq - last).toNat < 2 ^ 31)) :=
  ⟨⟨bound { st := 1, usage := 1, key := 1 }, 0, forged, .pairResync {}, _, 31, _, rfl, by decide +kernel, by decide +kernel,
     by decide +kernel, by decide +kernel, forged_mac, forged_fails _ (by decide +kernel)⟩,
   ⟨(bound { st := 1, usage := 1, key := 1 }).setQueue 9 { macSlot := some 31 }, 0, signed 0, .pairResync {}, _, 31, _, rfl,
     by decide +kernel, by decide +kernel, by decide +kernel, by decide +kernel, signed_mac 0, signed_fits 0 _ (by decide +kernel),
     by decide +kernel⟩,
   ⟨bound { st := 1, usage := 1, key := 1 }, 0, signed (2 ^ 31 + 4), .pairResync {}, _, 31, _, 5, rfl, by decide +kernel,
     by decide +kernel, by decide +kernel, by decide +kernel, signed_mac _, signed_fits _ _ (by decide +kernel), by decide +kernel⟩,
   ⟨bound { st := 1, usage := 1, key := 1 }, 0, signed (2 ^ 31 + 5), .pairResync {}, _, 31, _, 5, rfl, by decide +kernel,
     by decide +kernel, by decide +kernel, by decide +kernel, signed_mac _, signed_fits _ _ (by decide +kernel), by decide +kernel⟩⟩

theorem test_meets_TamperBitsClear :
    (∃ (s : State) (t : Tick) (h : Hdr) (p : TamperSetP) (b : Nat), Immediate s t h (.tamperSet p) ∧ p.clear = true ∧
      p.enables < 128 ∧ p.wake < 2 ∧ p.rsvd = 0 ∧ bit (fetched s t h (.tamperSet p)).keys.latched b = true) ∧
    (∃ (s : State) (t : Tick) (h : Hdr) (p : KeyWriteP), Immediate s t h (.keyWrite p) ∧ p.slot < 32 ∧ p.usage < 16 ∧
      p.parent = 255 ∧ p.rsvd = 0 ∧ (fetched s t h (.keyWrite p)).slotRuns p.slot = false ∧
      (fetched s t h (.keyWrite p)).laneBound p.slot = false ∧ (fetched s t h (.keyWrite p)).keys.latched = 0) ∧
    (∃ (s : State) (t : Tick) (h : Hdr) (p : KeyWriteP), Immediate s t h (.keyWrite p) ∧ p.slot < 32 ∧ p.usage < 16 ∧
      p.parent = 255 ∧ p.rsvd = 0 ∧ (fetched s t h (.keyWrite p)).slotRuns p.slot = false ∧
      (fetched s t h (.keyWrite p)).laneBound p.slot = false ∧ (fetched s t h (.keyWrite p)).keys.latched ≠ 0) :=
  ⟨⟨{ ready with keys := { latched := 64 } }, 0, onQueue 9 (.tamperSet { enables := 127, wake := 1, clear := true }),
     { enables := 127, wake := 1, clear := true }, 6, by decide +kernel⟩,
   ⟨ready, 0, onQueue 9 (.keyWrite { slot := 31, usage := 15, parent := 255, key := 1 }), { slot := 31, usage := 15, parent := 255, key := 1 },
     by decide +kernel⟩,
   ⟨{ ready with keys := { latched := 64 } }, 0, onQueue 9 (.keyWrite { slot := 31, usage := 15, parent := 255, key := 1 }),
     { slot := 31, usage := 15, parent := 255, key := 1 }, by decide +kernel⟩⟩

/-- A device whose Parameter Store holds the LOCK flag in the protection page. -/
def locked : State := { ready with nv := { ready.nv with cells := [(0x15002, 4)] } }

theorem test_meets_ProtectionFieldWrites :
    (∃ (s : State) (t : Tick) (h : Hdr) (p : NvProtectP), p.field < 4 ∧ p.rsvd = 0 ∧ Immediate s t h (.nvProtect p) ∧
      (fetched s t h (.nvProtect p)).nvLock = false) ∧
    (∃ (s : State) (t : Tick) (h : Hdr) (p : NvProtectP), p.field < 4 ∧ p.rsvd = 0 ∧ Immediate s t h (.nvProtect p) ∧
      (fetched s t h (.nvProtect p)).nvLock = true ∧ p.unlock = true) ∧
    (∃ (v : State) (x : NvWrite) (rest : List NvWrite), v.sys.stage ≠ .inReset ∧ v.nv.writes = x :: rest ∧ v.nv.stopped = false ∧
      memWf nvDefault v.nv.cells = true) ∧
    (∃ (s : State) (t : Tick) (h : Hdr) (p : NvProtectP), p.field < 4 ∧ p.rsvd = 0 ∧ Immediate s t h (.nvProtect p) ∧
      (fetched s t h (.nvProtect p)).nvLock = true ∧ p.unlock = false) ∧
    (∃ (s : State) (t : Tick) (h : Hdr) (p : NvProtectP), p.field < 4 ∧ p.rsvd = 0 ∧ Taken s t h (.nvProtect p) ∧
      frameCheck h.queue h = none ∧ (reached s t h (.nvProtect p)).authCheck h.queue h (.nvProtect p) = none ∧ p.unlock = true ∧
      h.queue < 8) :=
  ⟨⟨ready, 0, onQueue 9 (.nvProtect { field := 3 }), { field := 3 }, by decide +kernel⟩,
   ⟨locked, 0, onQueue 9 (.nvProtect { field := 3, unlock := true }), { field := 3, unlock := true }, by decide +kernel⟩,
   ⟨{ locked with nv := { locked.nv with writes := [⟨0x15000, [7], 0, .lastOf 1⟩] } }, _, _, by decide, rfl, rfl, by decide +kernel⟩,
   ⟨locked, 0, onQueue 9 (.nvProtect { field := 3 }), { field := 3 }, by decide +kernel⟩,
   ⟨served, 0, {}, { field := 3, unlock := true }, by decide +kernel⟩⟩

theorem test_meets_StcIsTheSum :
    (∃ p : StcSetP, p.op = 0 ∧ p.value < 2 ^ 64) ∧ (∃ p : StcSetP, p.op ≠ 0) :=
  ⟨⟨{ op := 0, value := 2 ^ 64 - 1 }, by decide⟩, ⟨{ op := 1, value := 1 }, by decide⟩⟩

theorem test_meets_KeyChangeRevokes :
    ∃ (w : State) (i : Nat) (k j : Nat), tblWf ({} : Slot) w.keys.slots = true ∧ (w.descendants i).contains k = true ∧
      j ≠ i ∧ (w.descendants i).contains j = false :=
  ⟨{ ready with keys := { slots := [(0, { st := 1 }), (31, { st := 1, parent := 0 })] } }, 0, 31, 1, by decide +kernel⟩

theorem test_meets_MemoryWritesLand :
    (∃ s : State, Sound s ∧ s.sys.stage ≠ .inReset ∧ s.pair.role = .mate) ∧
    (∃ (s : State) (x : NvWrite) (rest : List NvWrite), Sound s ∧ s.sys.stage ≠ .inReset ∧ s.nv.writes = x :: rest ∧
      s.nv.stopped = false) :=
  ⟨⟨{ ready with pair := { role := .mate } },
     ⟨⟨rfl, rfl, rfl⟩, ⟨List.Pairwise.nil, fun _ h => (nomatch h)⟩, ⟨fun h => (nomatch h), fun h => (nomatch h)⟩, rfl, rfl⟩, by decide +kernel⟩,
   ⟨{ ready with nv := { ready.nv with writes := [⟨0x3FFFF, [7], 0, .record⟩] } }, _, _,
     ⟨⟨rfl, rfl, rfl⟩, ⟨List.Pairwise.nil, fun _ h => (nomatch h)⟩, ⟨fun h => (nomatch h), fun h => (nomatch h)⟩, rfl, rfl⟩, by decide, rfl, rfl⟩⟩

theorem test_meets_CountersAddAndWrap :
    (∃ (s : State) (k : Nat), tblWf ({} : Counter) s.cnt.live = true ∧ k ≠ cntId 15 0 0 ∧
      decide (2 ^ 48 ≤ (fget ({} : Counter) s.cnt.live (cntId 15 0 0)).value.toNat + 1) = false) ∧
    (∃ s : State, tblWf ({} : Counter) s.cnt.live = true ∧
      decide (2 ^ 48 ≤ (fget ({} : Counter) s.cnt.live (cntId 15 0 0)).value.toNat + 1) = true) :=
  ⟨⟨ready, 0, by decide +kernel⟩,
   ⟨{ ready with cnt := { live := [(cntId 15 0 0, { value := BitVec.ofNat 48 (2 ^ 48 - 1) })] } }, by decide +kernel⟩⟩

theorem test_meets_ActionsAtTheirLine :
    (∃ (w : State) (p : FenceSignalP), chkSignalNow p w = none) ∧ (∃ (w : State) (p : FenceSignalP) (e : Nat × Nat), chkSignalNow p w = some e) ∧
    (∃ (w : State) (p : ClkoutSetP), chkClkoutSet p w = none) ∧ (∃ (w : State) (p : ClkoutSetP) (e : Nat × Nat), chkClkoutSet p w = some e) ∧
    (∃ (w : State) (p : ClkoutSyncP), chkClkoutSync p w = none) ∧
    (∃ (w : State) (p : ClkoutSyncP) (e : Nat × Nat), chkClkoutSync p w = some e) ∧
    (∃ p : RasterSetP, 2 ≤ p.raster) ∧ (∃ p : RasterSetP, p.raster < 2) ∧
    (∃ (w : State) (j : Job) (p : PresetRecallP) (b : PresetBody), (match j.preset with | some c => some c | none => w.readPreset p.preset) = some b) ∧
    (∃ (w : State) (j : Job) (p : PresetRecallP), (match j.preset with | some c => some c | none => w.readPreset p.preset) = none) ∧
    (∃ (w : State) (id : Nat) (p : PresetStoreP), w.storePreset id p.preset w.snapshot = none) ∧
    (∃ (w : State) (id : Nat) (p : PresetStoreP), (w.storePreset id p.preset w.snapshot).isSome = true) ∧
    (∃ (w : State) (p : KernelBindP), ∀ e ∈ gangOf p, (w.engine e).st = .free) ∧
    (∃ (w : State) (p : KernelBindP), ∃ e ∈ gangOf p, (w.engine e).st ≠ .free) ∧
    (∃ (w : State) (p : LayerFlipP) (o : OutRaster) (j : Job), w.outRaster p.output = some o ∧
      j.line = w.decisionLine p.output o) ∧
    (∃ (w : State) (p : LayerFlipP) (o : OutRaster) (j : Job), w.outRaster p.output = some o ∧
      j.line ≠ w.decisionLine p.output o) ∧
    (∃ (j : Job) (p : CompSetP), j.raster = 2 + p.output) :=
  ⟨⟨ready, { fence := 127, value := 1 }, by decide +kernel⟩,
   ⟨{ ready with comp := { fences := [(127, { value := 2 })] } }, { fence := 127, value := 1 }, (stBadParam, 0), by decide +kernel⟩,
   ⟨ready, { clkout := 15, synth := 35, enable := true, divider := 65535 }, by decide +kernel⟩,
   ⟨ready, { clkout := 16, synth := 35, enable := true }, (stBadParam, 0), by decide +kernel⟩,
   ⟨ready, { synth := 35 }, by decide +kernel⟩,
   ⟨ready.setSynth 35 { phaseMode := 1 }, { synth := 35 }, (stBusy, 0), by decide +kernel⟩,
   ⟨{ raster := 2, desc := {} }, by decide⟩, ⟨{ raster := 1, desc := {} }, by decide⟩,
   ⟨ready, { ran 9 with preset := some {} }, { preset := 7 }, {}, rfl⟩,
   ⟨ready, ran 9, { preset := 7 }, by decide +kernel⟩,
   ⟨{ ready with nv := { ready.nv with cells := [(0x15002, 3)] } }, 1, { preset := 7, capture := true }, by decide +kernel⟩,
   ⟨ready, 1, { preset := 7, capture := true }, by decide +kernel⟩,
   ⟨ready, keyP, by decide +kernel⟩, ⟨tasked, keyP, 191, by decide +kernel⟩,
   ⟨wired, { output := 511, layer := 1, buf := 16384 }, { started := true }, { ran 9 with line := 1124 }, by decide +kernel⟩,
   ⟨wired, { output := 511, layer := 1, buf := 16384 }, { started := true }, { ran 9 with line := 1125 }, by decide +kernel⟩,
   ⟨{ ran 9 with raster := 513 }, { output := 511, dl := 2 }, rfl⟩⟩

theorem test_meets_ModeAndLinkChanges :
    (∃ m : Mode, m = .service ∨ m = .quiet ∨ m = .failed) ∧
    (∃ w : State, w.pair.up = false ∨ w.brinenLocked = true) ∧
    (∃ w : State, w.pair.up = true ∧ w.brinenLocked = false ∧ w.pair.role = .mate) ∧
    (∃ w : State, w.pair.up = true ∧ w.brinenLocked = false ∧ w.pair.role ≠ .mate) :=
  ⟨⟨.failed, by decide⟩, ⟨ready, by decide +kernel⟩, ⟨{ ready with pair := { up := true, role := .mate } }, by decide +kernel⟩,
   ⟨{ ready with pair := { up := true, role := .lead } }, by decide +kernel⟩⟩

theorem test_meets_QueueWithLostKeyRefuses :
    (∃ (s : State) (t : Tick) (h : Hdr) (p : Params) (i : Instr) (k mac : Nat), packetRow t h p = some i ∧ Taken s t h p ∧
      frameCheck h.queue h = none ∧ ((reached s t h p).queue h.queue).macSlot = some k ∧ h.mac = some mac ∧
      ((reached s t h p).slot k).st = 3) ∧
    (∃ (s : State) (t : Tick) (h : Hdr) (p : Params) (i : Instr) (k mac : Nat), packetRow t h p = some i ∧ Taken s t h p ∧
      frameCheck h.queue h = none ∧ ((reached s t h p).queue h.queue).macSlot = some k ∧ h.mac = some mac ∧
      ((reached s t h p).slot k).st = 2) ∧
    (∃ (s : State) (t : Tick) (h : Hdr) (p : Params) (i : Instr) (k mac : Nat), packetRow t h p = some i ∧ Taken s t h p ∧
      frameCheck h.queue h = none ∧ ((reached s t h p).queue h.queue).macSlot = some k ∧ h.mac = some mac ∧
      (reached s t h p).useSlot 0 k = none ∧ mac ≠ macOf ((reached s t h p).slot k).key h.queue h p) ∧
    (∃ (s : State) (t : Tick) (h : Hdr) (p : Params) (i : Instr) (k mac : Nat), packetRow t h p = some i ∧ Taken s t h p ∧
      frameCheck h.queue h = none ∧ ((reached s t h p).queue h.queue).macSlot = some k ∧ h.mac = some mac ∧
      (reached s t h p).useSlot 0 k = none ∧ mac = macOf ((reached s t h p).slot k).key h.queue h p ∧
      inWindow ((reached s t h p).queue h.queue).macSeq h.seq = false) ∧
    (∃ (s : State) (t : Tick) (h : Hdr) (p : Params) (i : Instr) (k : Nat), packetRow t h p = some i ∧ Taken s t h p ∧
      frameCheck h.queue h = none ∧ ((reached s t h p).queue h.queue).macSlot = some k ∧ h.mac = none ∧
      ((reached s t h p).slot k).st = 1) ∧
    (∃ (s : State) (t : Tick) (h : Hdr) (p : KeyWriteP) (i : Instr) (k : Nat), packetRow t h (.keyWrite p) = some i ∧
      Taken s t h (.keyWrite p) ∧ frameCheck h.queue h = none ∧ ((reached s t h (.keyWrite p)).queue h.queue).macSlot = some k ∧
      h.mac = none ∧ h.queue = 9 ∧ ((reached s t h (.keyWrite p)).slot k).st ≠ 1) ∧
    (∃ (s : State) (t : Tick) (h : Hdr) (p : Params) (i : Instr) (mac : Nat), packetRow t h p = some i ∧ Taken s t h p ∧
      frameCheck h.queue h = none ∧ ((reached s t h p).queue h.queue).macSlot = none ∧ h.mac = some mac) :=
  ⟨⟨bound { st := 3 }, 0, { queue := 9, mac := some 1 }, .pairResync {}, _, 31, 1, rfl, by decide +kernel⟩,
   ⟨bound { st := 2 }, 0, { queue := 9, mac := some 1 }, .pairResync {}, _, 31, 1, rfl, by decide +kernel⟩,
   ⟨bound { st := 1, usage := 1, key := 1 }, 0, forged, .pairResync {}, _, 31, _, rfl, by decide +kernel, by decide +kernel,
     by decide +kernel, forged_mac, by decide +kernel, forged_fails _ (by decide +kernel)⟩,
   ⟨bound { st := 1, usage := 1, key := 1 }, 0, signed 5, .pairResync {}, _, 31, _, rfl, by decide +kernel, by decide +kernel,
     by decide +kernel, signed_mac 5, by decide +kernel, signed_fits 5 _ (by decide +kernel), by decide +kernel⟩,
   ⟨bound { st := 1 }, 0, { queue := 9 }, .pairResync {}, _, 31, rfl, by decide +kernel⟩,
   ⟨bound { st := 2 }, 0, { queue := 9 }, { slot := 31, usage := 1, parent := 255, key := 1 }, _, 31, rfl, by decide +kernel⟩,
   ⟨ready, 0, { queue := 9, mac := some 1 }, .pairResync {}, _, 1, rfl, by decide +kernel⟩⟩

end Sys2Proof
end

section
/-! Modes, restarts, faults, temperatures and the wake (chapters 0, 13, 14, 18 and 20): what each operation does, case by case, and the
statements that rest on it. -/

namespace Sys2Proof.Laws

open Sys2Proof.Machine Sys2Proof.Claims

/-! ### How a row is settled from its meaning -/

section Rows

variable {s : State} {t : Tick} {h : Hdr} {p : Params} {i : Instr} {ok : State → Prop} {eff : State → State}

/-- A packet row completes as its command's start answers. -/
theorem completes_of_start {ras : Option Nat} (hx : exec i s = .next (submit p t h s))
    (ha : ∀ w, ok w → startOf ⟨h.queue, h⟩ p w = .done (eff w) ras) : Completes s t h p i ok eff ras :=
  fun hi hok => by rw [hx, completes_done hi (ha _ hok)]

/-- A packet row waits as its command's start answers. -/
theorem waits_of_start {kind : JobKind} {ras : Nat} {aux : State → List Nat} (hx : exec i s = .next (submit p t h s))
    (hp : plainWait p = true) (ha : ∀ w, ok w → startOf ⟨h.queue, h⟩ p w = .later (eff w) kind ras (aux w)) :
    Waits s t h p i ok eff kind ras aux :=
  fun hi hok => by rw [hx, completes_later hi hp (ha _ hok)]

/-- A command whose start answers silently leaves that state. -/
theorem immediate_silent {s1 : State} (hi : Immediate s t h p) (ha : answerOf s t h p = .silent s1) :
    submit p t h s = s1.settleLink := by
  rw [immediate_runs hi, ha]; rfl

/-- Out of reset, time comes to the row's tick. -/
theorem enter_of_running (hs : s.sys.stage ≠ .inReset) : s.enter t = s.advance t := if_neg hs

/-- An event row that runs out of reset alone has the effect of its event. -/
theorem events_of_onEvent {f : State → State} (hx : exec i s = .next (onEvent f (s.enter t)))
    (hf : ∀ w, w.sys.stage ≠ .inReset → ok w → f w = eff w) : Events s t i ok eff := fun hs hok => by
  have hw : (s.advance t).sys.stage ≠ .inReset := hs
  rw [hx, enter_of_running hs, onEvent, if_neg hw, hf _ hw hok]

/-- An event row that runs in reset too has, out of it, the effect of its event. -/
theorem events_of_event {f : State → State} (hx : exec i s = .next (f (s.enter t)))
    (hf : ∀ w, w.sys.stage ≠ .inReset → ok w → f w = eff w) : Events s t i ok eff := fun hs hok => by
  have hw : (s.advance t).sys.stage ≠ .inReset := hs
  rw [hx, enter_of_running hs, hf _ hw hok]

end Rows

/-! ### Repetition -/

theorem each_eq_foldl {α : Type} (f : α → State → State) (l : List α) (s : State) :
    State.each f l s = l.foldl (fun u x => f x u) s := by
  induction l generalizing s with
  | nil => rfl
  | cons x r ih => exact ih (f x s)

/-- Parts that each leave the state alone do so together. -/
theorem each_of_unchanged {α : Type} {f : α → State → State} {l : List α} (hf : ∀ x ∈ l, ∀ s, f x s = s) (s : State) :
    State.each f l s = s := by
  induction l with
  | nil => rfl
  | cons x r ih =>
    rw [State.each, hf x List.mem_cons_self]
    exact ih fun y hy => hf y (List.mem_cons_of_mem x hy)

/-! ### Mode changes (R6, R128, R495) -/

/-- What a mode change leaves of the state before source 0 fires. -/
theorem setMode_eq (s : State) (m : Mode) :
    s.setMode m =
      let base := if s.sys.mode = .test then s.leaveTest else s
      { base with cnt := if m = Mode.service ∨ m = Mode.quiet ∨ m = Mode.failed then { base.cnt with frozen := none } else base.cnt,
                  sys := { base.sys with mode := m } }.fire 0 := by
  cases m <;> rfl

@[simp] theorem leaveTest_sys (s : State) : s.leaveTest.sys = s.sys := (leaveTest_sysKept (SysKept.refl s)).1

@[simp] theorem setMode_sys (s : State) (m : Mode) : (s.setMode m).sys = { s.sys with mode := m } := by
  rw [setMode_eq]
  by_cases ht : s.sys.mode = .test <;> simp [ht]

/-- SERVICE, QUIET and FAILED hold no counter snapshot. -/
theorem setMode_releases (s : State) {m : Mode} (hm : m = .service ∨ m = .quiet ∨ m = .failed) : (s.setMode m).cnt.frozen = none := by
  rw [setMode_eq]
  simp [hm]

/-! ### The Brinen link (R382, R400) -/

theorem settleLink_kept {s : State} (h : s.pair.up = false ∨ s.brinenLocked = true) : s.settleLink = s := by
  unfold State.settleLink
  rcases h with h | h <;> simp [h]

theorem settleLink_lost {s : State} (hu : s.pair.up = true) (hl : s.brinenLocked = false) : s.settleLink = s.linkLost := by
  simp [State.settleLink, hu, hl]

/-- Settles O58: the mode change by its equation, the link's loss by whether the member was a MATE. -/
theorem modeAndLinkChanges : Obligations.ModeAndLinkChanges := by
  intro w m u base releases down leads
  refine ⟨setMode_eq w m, by simp [u], setMode_releases w, settleLink_kept, ?_, ?_⟩
  · intro hu hl hr
    rw [settleLink_lost hu hl]
    simp [State.linkLost, hu, hr, State.setPair, leads, down]
  · intro hu hl hr
    rw [settleLink_lost hu hl]
    simp [State.linkLost, hu, hr, State.setPair, down]

/-! ### SYS_MODE, SYS_RESTART and SYS_WAKE_SET (R355, R356, R510) -/

section SysMode

variable {s : State} {p : SysModeP}

/-- A mode command passes the checks of the mode that holds (R355, R509). -/
theorem chkModeNow_ok {m : Mode} (ht : transitionOk s.sys.mode m = true) (hq : s.sys.quiet = .awake)
    (hs : m = .service → s.sys.coldRecall = false ∧ s.stepPolicy = false) (hr : m = .quiet → s.pair.role = .solo) :
    chkModeNow m s = none := by
  have h1 : (m == .service && (s.sys.coldRecall || s.stepPolicy)) = false := by
    by_cases hm : m = .service
    · simp [hs hm]
    · simp [hm]
  have h2 : (m == .quiet && s.pair.role != .solo) = false := by
    by_cases hm : m = .quiet
    · simp [hr hm]
    · simp [hm]
  simp [chkModeNow, failIf, ht, hq, h1, h2]

/-- Outside QUIET a mode command that passes its checks answers with its effect. -/
theorem startSysMode_of_ok {s1 : State} (hp : p.mode < 6) (hz : p.rsvd = 0) (hm : s.sys.mode ≠ .quiet)
    (hc : chkModeNow (modeOf p.mode) s = none) (he : s.modeEffect (modeOf p.mode) none = ((stOk, 0), s1)) :
    startSysMode p s = .done s1 := by
  have hc' : chkSysMode p s = none := by
    simp [chkSysMode, failIf, hz, hm, hc, Nat.not_le.mpr hp]
  simp [startSysMode, hc', hm, he]

/-- A transition to a mode other than QUIET takes place at once. -/
theorem startSysMode_transition (hp : p.mode < 6) (hz : p.rsvd = 0) (hm : s.sys.mode ≠ .quiet) (hq : s.sys.quiet = .awake)
    (ht : transitionOk s.sys.mode (modeOf p.mode) = true) (hn : modeOf p.mode ≠ .quiet)
    (hs : modeOf p.mode = .service → s.sys.coldRecall = false ∧ s.stepPolicy = false) :
    startSysMode p s = .done (s.setMode (modeOf p.mode)) := by
  have hc := chkModeNow_ok ht hq hs fun e => absurd e hn
  refine startSysMode_of_ok hp hz hm hc ?_
  simp [State.modeEffect, hc, hn]

/-- Quiet entry begins where no enabled latch is set (R510, R511). -/
theorem startSysMode_quiet (hp : p.mode < 6) (hz : p.rsvd = 0) (hm : s.sys.mode = .bringup ∨ s.sys.mode = .service)
    (hq : s.sys.quiet = .awake) (hg : modeOf p.mode = .quiet) (hr : s.pair.role = .solo)
    (hl : Nat.land (s.latches none) s.sys.wakeEnables = 0) : startSysMode p s = .done s.beginQuiet := by
  have hc : chkModeNow (modeOf p.mode) s = none := by
    refine chkModeNow_ok ?_ hq (by simp [hg]) fun _ => hr
    rcases hm with hm | hm <;> simp [hm, hg, transitionOk]
  refine startSysMode_of_ok hp hz (by rcases hm with hm | hm <;> simp [hm]) hc ?_
  rw [hg] at hc ⊢
  simp only [State.modeEffect, hc, hl, if_true]

/-- In QUIET the command asks for the wake (R355). -/
theorem startSysMode_wakes (hp : p.mode < 6) (hz : p.rsvd = 0) (hm : s.sys.mode = .quiet) (he : bit s.sys.wakeEnables 1 = true)
    (hb : modeOf p.mode = s.sys.modeBefore) : startSysMode p s = .later (s.setLatch 1) .event := by
  have hc : chkSysMode p s = none := by
    simp [chkSysMode, failIf, hz, hm, he, hb, Nat.not_le.mpr hp]
  simp [startSysMode, hc, hm]

end SysMode

section SysRestart

variable {s : State} {c : Ctx} {p : SysRestartP} {reset : State → State}

theorem startRestart_firmware (hk : p.kind = 0) (hz : p.rsvd = 0) (hf : s.sys.mode ≠ .failed)
    (hp : ¬(s.pair.role = .lead ∧ s.pair.sync = .lockstep)) : startRestart c p reset s = .later (s.beginRestart false) .event := by
  simp [startRestart, hk, hz, hf, hp]

/-- A LEAD in lockstep hands over at a stamped line first (R403). -/
theorem startRestart_handover (hk : p.kind = 0) (hz : p.rsvd = 0) (hf : s.sys.mode ≠ .failed)
    (hp : s.pair.role = .lead ∧ s.pair.sync = .lockstep) : startRestart c p reset s =
      .later (s.emit (.brinen 13 [s.pair.nextRix, (s.stamp (4 * c.hdr.length)).1, (s.stamp (4 * c.hdr.length)).2])) .exec 0
        [(s.stamp (4 * c.hdr.length)).1, (s.stamp (4 * c.hdr.length)).2] := by
  simp [startRestart, hk, hz, hf, hp]

theorem startRestart_device (hk : p.kind = 1) (hz : p.rsvd = 0) : startRestart c p reset s = .silent (reset s) := by
  simp [startRestart, hk, hz]

end SysRestart

/-- The wake settings are stored, and a latch stays set only while its condition holds (R510). -/
theorem startWakeSet_ok {s : State} {p : SysWakeSetP} (he : p.enables < 32) (hz : p.rsvd = 0) :
    startWakeSet p s = .done { s with sys := { s.sys with
      wakeEnables := p.enables, wakeTimer := p.timer,
      wakeLatch := b2n (bit s.sys.wakeLatch 0 && Config.wakeLow s.now) + 4 * b2n (decide (p.timer ≤ s.stc)) } } := by
  simp [startWakeSet, failIf, orAns, hz, Nat.not_le.mpr he]

/-- Settles O3: each clause from what the command's start answers. -/
theorem modeRestartAndWakeCommands : Obligations.ModeRestartAndWakeCommands := by
  refine ⟨fun s t h p hp hz => ⟨?_, ?_, ?_⟩, fun s t h => ⟨fun p => ?_, fun p => ?_, fun p hi hk hz => ?_, fun p => ?_⟩⟩
  · exact completes_of_start rfl fun w ⟨hm, hq, ht, hn, hs⟩ => startSysMode_transition hp hz hm hq ht hn hs
  · exact completes_of_start rfl fun w ⟨hm, hq, hg, hr, hl⟩ => startSysMode_quiet hp hz hm hq hg hr hl
  · exact waits_of_start rfl rfl fun w ⟨hm, he, hb⟩ => startSysMode_wakes hp hz hm he hb
  · exact waits_of_start rfl rfl fun w ⟨hk, hz, hf, hp⟩ => startRestart_firmware hk hz hf hp
  · exact waits_of_start rfl rfl fun w ⟨hk, hz, hf, hp⟩ => startRestart_handover hk hz hf hp
  · exact congrArg Host.Outcome.next (immediate_silent hi (startRestart_device hk hz))
  · exact completes_of_start rfl fun w ⟨he, hz⟩ => startWakeSet_ok he hz

/-! ### Faults (R8, R25, R165, R398) -/

/-- A running device on its way to FAILED: the record is latched, what waited is dropped, every direction that sends is withdrawn and the
partner told. -/
def failedState (s : State) (src unit addr : Nat) : State :=
  let u := (s.latchFault src unit addr).setMode .failed
  (({ u with sys := { u.sys with restart := false, quiet := .awake }, jobs := [],
             routes := { u.routes with waits := [] } } : State).withdrawAll 2 .fail).failNotice src

/-- FAILED is entered once. -/
theorem enterFailed_of_failed {s : State} (h : s.sys.mode = .failed) (src unit addr : Nat) : s.enterFailed src unit addr = s := by
  simp [State.enterFailed, h]

theorem enterFailed_of_running {s : State} (hs : s.sys.stage ≠ .inReset) (h : s.sys.mode ≠ .failed) (src unit addr : Nat) :
    s.enterFailed src unit addr = failedState s src unit addr := by
  simp [State.enterFailed, failedState, h, hs]

theorem memoryFault_of_failed {s : State} (h : s.sys.mode = .failed) (src unit addr user : Nat) :
    s.memoryFault src unit addr user = s := by
  simp [State.memoryFault, h]

/-- A memory's fault records the user of the read (R165). -/
theorem memoryFault_of_running {s : State} (hs : s.sys.stage ≠ .inReset) (h : s.sys.mode ≠ .failed) (src unit addr user : Nat) :
    s.memoryFault src unit addr user =
      let u := failedState s src unit addr
      { u with sys := { u.sys with fault := u.sys.fault.map fun r => { r with user := user } } } := by
  simp [State.memoryFault, enterFailed_of_running hs h, h, hs]

/-- An uncorrectable error of the Millpond, the engines' memory, processor SRAM or the Parameter Store is that memory's fault. -/
theorem doEccError_uncorrectable {src : Nat} (h : src = 1 ∨ src = 2 ∨ src = 9 ∨ src = 10) (unit addr user : Nat) (s : State) :
    doEccError src unit addr user false s = s.memoryFault src unit addr user := by
  rcases h with rfl | rfl | rfl | rfl <;> rfl

/-! ### Temperature (R444, R536, R537) -/

/-- The sample as the tamper monitor of the temperature takes it. -/
def thermTamper (temp : Int) (s : State) : State :=
  let read := { s with pins := { s.pins with temp := temp } }
  if 125 < temp ∨ temp < minJunction - 20 then doTamperAlarm 5 read else doTamperInactive 5 read

/-- A sample out of reset: the tamper monitor, then THERM_N and the run of samples above 125 degrees, whose fourth fails the device. -/
theorem doThermal_of_running {s : State} (hs : s.sys.stage ≠ .inReset) (temp : Int) :
    doThermal temp s =
      let low := thermNext s.pins.thermLow temp
      let u := thermTamper temp s
      let v := { u with pins := { u.pins with thermLow := low, hotRun := if 125 < temp then u.pins.hotRun + 1 else 0 } }
      let x := if low = s.pins.thermLow then v else v.fire 24
      if v.pins.hotRun = 4 then x.enterFailed 10 0x200 0 else x := by
  simp [doThermal, thermTamper, hs]

/-- A temperature in range leaves a source that is not active as it is. -/
theorem thermTamper_of_calm {s : State} {temp : Int} (hl : minJunction - 20 ≤ temp) (hh : temp ≤ 125)
    (ha : bit s.keys.active 5 = false) : thermTamper temp s = { s with pins := { s.pins with temp := temp } } := by
  simp [thermTamper, doTamperInactive, ha, Int.not_lt.mpr hl, Int.not_lt.mpr hh]

/-- A source already active raises no second alarm. -/
theorem thermTamper_of_active {s : State} {temp : Int} (hr : 125 < temp ∨ temp < minJunction - 20)
    (ha : bit s.keys.active 5 = true) : thermTamper temp s = { s with pins := { s.pins with temp := temp } } := by
  simp [thermTamper, doTamperAlarm, ha, hr]

/-- A source that is not enabled becomes active alone (R444). -/
theorem thermTamper_of_disabled {s : State} {temp : Int} (hr : 125 < temp ∨ temp < minJunction - 20)
    (ha : bit s.keys.active 5 = false) (he : bit s.keys.enables 5 = false) :
    thermTamper temp s = { s with pins := { s.pins with temp := temp },
                                  keys := { s.keys with active := Nat.lor s.keys.active (2 ^ 5) } } := by
  simp [thermTamper, doTamperAlarm, ha, he, hr]

theorem minJunction_nonpos : minJunction ≤ 0 := by
  unfold minJunction; split <;> decide

theorem maxJunction_range : 100 ≤ maxJunction ∧ maxJunction ≤ 105 := by
  unfold maxJunction; split <;> decide

/-- THERM_N stays low above 125 degrees. -/
theorem thermNext_of_hot {temp : Int} (h : 125 < temp) : thermNext true temp = true := by
  have := maxJunction_range
  simp only [thermNext, if_true, decide_eq_true_eq]
  omega

/-- THERM_N stays high below the range. -/
theorem thermNext_of_cold {temp : Int} (h : temp < minJunction - 20) : thermNext false temp = false := by
  have := maxJunction_range
  have := minJunction_nonpos
  simp only [thermNext, Bool.false_eq_true, if_false, decide_eq_false_iff_not]
  omega

/-- A further sample above 125 degrees lengthens the run, and the fourth in a row fails the device (R537). -/
theorem doThermal_of_hot {s : State} {temp : Int} (hs : s.sys.stage ≠ .inReset) (hh : 125 < temp) (hl : s.pins.thermLow = true)
    (ha : bit s.keys.active 5 = true) :
    doThermal temp s =
      let u := { s with pins := { s.pins with temp := temp, thermLow := true, hotRun := s.pins.hotRun + 1 } }
      if s.pins.hotRun = 3 then u.enterFailed 10 0x200 0 else u := by
  rw [doThermal_of_running hs, thermTamper_of_active (.inl hh) ha]
  simp [hl, thermNext_of_hot hh, hh]

/-! ### The wake (R194, R510 to R513) -/

/-- The wake has begun at this tick, and the engines reload (R194, R512). -/
def wakingState (s : State) : State := ({ s with sys := { s.sys with quiet := .waking, wakeT := s.now } } : State).reloadEngines

theorem beginWake_of_asleep {s : State} (h : s.sys.quiet = .asleep) : s.beginWake = wakingState s := if_pos h

theorem beginWake_of_other {s : State} (h : s.sys.quiet ≠ .asleep) : s.beginWake = s := if_neg h

/-- The state with wake latch `b` set. -/
def latchedState (s : State) (b : Nat) : State := { s with sys := { s.sys with wakeLatch := Nat.lor s.sys.wakeLatch (2 ^ b) } }

theorem setLatch_wakes {s : State} {b : Nat} (h : bit s.sys.wakeEnables b = true ∧ s.sys.quiet = .asleep) :
    s.setLatch b = wakingState (latchedState s b) :=
  (if_pos h.1).trans (beginWake_of_asleep h.2)

theorem setLatch_sets {s : State} {b : Nat} (h : ¬(bit s.sys.wakeEnables b = true ∧ s.sys.quiet = .asleep)) :
    s.setLatch b = latchedState s b := by
  by_cases he : bit s.sys.wakeEnables b = true
  · exact (if_pos he).trans (beginWake_of_other fun hq => h ⟨he, hq⟩)
  · exact if_neg he

theorem powerUp_eq (s : State) :
    s.powerUp = ((List.range 65).foldl (fun u b => if (u.txDir b).enable && !(u.txDir b).asleep then u.txStart b else u)
      s.lanesOnRecords).wakeAudio := by
  rw [State.powerUp, each_eq_foldl]

/-- The device at the end of Quiet entry, before a latch asks for the wake. -/
def sleptState (s : State) : State := ({ s with sys := { s.sys with quiet := .asleep } } : State).setMode .quiet

theorem sleptState_asleep (s : State) : (sleptState s).sys.quiet = .asleep := by simp [sleptState]

theorem doQuietEntryEnd_of_outside {s : State} (h : s.sys.quiet ≠ .entering) : doQuietEntryEnd s = s := by
  simp [doQuietEntryEnd, h]

/-- Entry ends in QUIET (R511). -/
theorem doQuietEntryEnd_sleeps {s : State} (hq : s.sys.quiet = .entering) (hm : s.sys.mode ≠ .recovery)
    (hl : Nat.land ((sleptState s).latches none) (sleptState s).sys.wakeEnables = 0) : doQuietEntryEnd s = sleptState s := by
  rw [doQuietEntryEnd, if_pos hq, if_neg hm]
  exact if_pos hl

/-- An enabled latch that is set by the end of entry begins the wake (R511). -/
theorem doQuietEntryEnd_wakes {s : State} (hq : s.sys.quiet = .entering) (hm : s.sys.mode ≠ .recovery)
    (hl : Nat.land ((sleptState s).latches none) (sleptState s).sys.wakeEnables ≠ 0) :
    doQuietEntryEnd s = wakingState (sleptState s) := by
  rw [doQuietEntryEnd, if_pos hq, if_neg hm]
  exact (if_neg hl).trans (beginWake_of_asleep (sleptState_asleep s))

/-- The device that a restart during entry took to RECOVERY, powered up again (R6, R489). -/
def stayedState (s : State) : State := ({ s with sys := { s.sys with quiet := .awake } } : State).reloadEngines.powerUp

/-- What had fallen due during entry completes CANCELLED. -/
theorem doQuietEntryEnd_stays {s : State} (hq : s.sys.quiet = .entering) (hm : s.sys.mode = .recovery) :
    doQuietEntryEnd s = State.each (fun j u => if j.kind = .parked then u.complete j stCancelled 4 (some j.raster) else u)
      (stayedState s).jobs (stayedState s) := by
  rw [doQuietEntryEnd, if_pos hq, if_pos hm]
  rfl

theorem doWakeEnd_early {s : State} (h : s.sys.quiet ≠ .waking ∨ s.now < s.sys.wakeT + 1080000) : doWakeEnd s = s := by
  rcases h with h | h <;> simp [doWakeEnd, h, Nat.not_le.mpr]

/-- The wake ends: the mode before QUIET, the latches of sources 0, 1 and 3 clear, lanes and audio run, and what waited completes (R512, R513). -/
theorem doWakeEnd_due {s : State} (hq : s.sys.quiet = .waking) (hd : s.sys.wakeT + 1080000 ≤ s.now) :
    doWakeEnd s =
      let u := (({ s with sys := { s.sys with quiet := .awake, wakeLatch := Nat.land s.sys.wakeLatch 20 } } : State).setMode
        s.sys.modeBefore).powerUp
      State.each endWakeJob u.jobs u := by
  simp [doWakeEnd, hq, hd]

/-! ### The rows of faults, temperatures and the wake -/

/-- A row that fails the device takes a running one to FAILED and leaves a failed one as it is. -/
theorem events_of_fault {s : State} {t : Tick} {i : Instr} {src unit addr : Nat}
    (hx : exec i s = .next (onEvent (doFault src unit addr) (s.enter t))) :
    Events s t i (fun w => w.sys.mode ≠ .failed) (fun w => failedState w src unit addr) ∧
    Events s t i (fun w => w.sys.mode = .failed) id :=
  ⟨events_of_onEvent hx fun _ hs hm => enterFailed_of_running hs hm src unit addr,
   events_of_onEvent hx fun _ _ hm => enterFailed_of_failed hm src unit addr⟩

/-- Settles O39: faults and temperatures by the way to FAILED and the tamper monitor's answer, the wake by what ends it. -/
theorem faultAndQuietRows : Obligations.FaultAndQuietRows := by
  refine ⟨fun s t row unit src addr user temp => ?_, fun s t j => ?_⟩
  · intro latched dropped silent fails named read calm hot
    have hsilent : ∀ w src unit addr, failedState w src unit addr = silent w src unit addr := fun w src unit addr => by
      simp only [failedState, silent, dropped, latched]
    have hfails : ∀ i src unit addr, exec i s = .next (onEvent (doFault src unit addr) (s.enter t)) → fails i src unit addr :=
      fun i src unit addr hx => by
        have hf := events_of_fault hx
        simp only [hsilent] at hf
        exact hf
    refine ⟨fun hr => ?_, fun hr => ?_, ?_, ?_, fun hsrc => ⟨?_, ?_⟩, ?_, ?_, ?_, ?_, ?_, ?_⟩
    · exact hfails _ _ _ _ (congrArg (fun f => Host.Outcome.next (onEvent f (s.enter t))) (funext fun w => if_pos hr))
    · exact events_of_onEvent rfl fun w _ _ => if_neg (Nat.not_lt.mpr hr)
    · exact hfails _ _ _ _ rfl
    · exact hfails _ _ _ _ rfl
    · refine events_of_onEvent rfl fun w hs hm => ?_
      rw [doEccError_uncorrectable hsrc, memoryFault_of_running hs hm, hsilent]
    · refine events_of_onEvent rfl fun w _ hm => ?_
      rw [doEccError_uncorrectable hsrc, memoryFault_of_failed hm]
      rfl
    · refine events_of_event rfl fun w hs ⟨⟨hl, hh, ha⟩, hn⟩ => ?_
      rw [doThermal_of_running hs, thermTamper_of_calm hl hh ha]
      simp [hn, Int.not_lt.mpr hh]
    · refine events_of_event rfl fun w hs ⟨⟨hl, hh, ha⟩, hn⟩ => ?_
      rw [doThermal_of_running hs, thermTamper_of_calm hl hh ha]
      simp [Int.not_lt.mpr hh, Bool.eq_not_of_ne hn]
    · refine events_of_event rfl fun w hs ⟨hl, ht, ha⟩ => ?_
      have hh : ¬125 < temp := by have := minJunction_nonpos; omega
      rw [doThermal_of_running hs, thermTamper_of_active (.inr hl) ha]
      simp [ht, thermNext_of_cold hl, hh]
    · exact events_of_event rfl fun w hs ⟨hh, ht, ha, hr⟩ => (doThermal_of_hot hs hh ht ha).trans (if_neg hr)
    · refine events_of_event rfl fun w hs ⟨hh, ht, ha, hr, hm⟩ => ?_
      have hx : doThermal temp w = (hot w).enterFailed 10 0x200 0 := (doThermal_of_hot hs hh ht ha).trans (if_pos hr)
      rw [hx, enterFailed_of_running (s := hot w) hs hm, hsilent]
    · refine events_of_event rfl fun w hs ⟨ho, ha, he, hr, hn⟩ => ?_
      rw [doThermal_of_running hs, thermTamper_of_disabled ho ha he]
      by_cases hh : 125 < temp <;> simp [hn, hh, hr, read]
  · intro latch wakes calls slept asked mode lanes up stays
    have hstays : ∀ w, stayedState w = stays w := fun w => powerUp_eq _
    refine ⟨?_, ?_, ?_, ?_, ?_, ?_, ?_, ?_, ?_, ?_, ?_, ?_⟩
    · exact events_of_onEvent rfl fun w _ hc => setLatch_wakes hc
    · exact events_of_onEvent rfl fun w _ hc => setLatch_sets hc
    · exact events_of_onEvent rfl fun w _ ⟨ht, hc⟩ => (if_pos ht).trans (setLatch_wakes hc)
    · exact events_of_onEvent rfl fun w _ ⟨ht, hc⟩ => (if_pos ht).trans (setLatch_sets hc)
    · exact events_of_onEvent rfl fun w _ ht => if_neg (Nat.not_le.mpr ht)
    · exact events_of_onEvent rfl fun w _ ⟨hq, hm, hl⟩ => doQuietEntryEnd_sleeps hq hm hl
    · exact events_of_onEvent rfl fun w _ ⟨hq, hm, hl⟩ => doQuietEntryEnd_wakes hq hm hl
    · refine events_of_onEvent rfl fun w _ ⟨hq, hm, hj⟩ => ?_
      rw [doQuietEntryEnd_stays hq hm, hstays]
      exact each_of_unchanged (fun x hx u => if_neg (hj x hx)) _
    · refine events_of_onEvent rfl fun w _ ⟨hq, hm, hj, hk⟩ => ?_
      rw [doQuietEntryEnd_stays hq hm, hstays, hj]
      exact if_pos hk
    · exact events_of_onEvent rfl fun w _ hq => doQuietEntryEnd_of_outside hq
    · refine events_of_onEvent rfl fun w _ ⟨hq, hd⟩ => ?_
      rw [doWakeEnd_due hq hd, powerUp_eq, each_eq_foldl]
    · exact events_of_onEvent rfl fun w _ hw => doWakeEnd_early hw

end Sys2Proof.Laws
end

section
/-! The frame start of an output (R22): where no action waits on its raster and its relation stays, the way from the frame start that is owed
to the steps of the frame. -/

namespace Sys2Proof.Laws

open Sys2Proof.Machine Sys2Proof.Claims

section FrameStart

variable {s : State} {n : Nat} {o : OutRaster}

/-! ### A raster on which no action waits -/

/-- Where a test picks no resident action, none runs. -/
theorem runThese_of_none {r : Nat} {f : Job → Bool} (h : ∀ j ∈ s.jobs, f j = false) : s.runThese r f = s := by
  have hp : ∀ g : Job → Bool, s.jobs.filter (fun j => f j && g j) = [] := fun g =>
    List.filter_eq_nil_iff.mpr fun j hj => by simp [h j hj]
  rw [State.runThese, State.runNext]
  simp only [Bool.and_assoc, hp, firstPlaced]

/-- An action is due only on the raster that it names. -/
theorem not_due_elsewhere {r f l : Nat} {j : Job} (h : j.raster ≠ r) : (duePast r f l j || dueHere r f l j) = false := by
  simp [duePast, dueHere, waitsOn, h]

theorem cancelSkipped_of_none {lo hi : Nat} (h : ∀ j ∈ s.jobs, j.raster ≠ 2 + n) : s.cancelSkipped n lo hi = s := by
  have hgone : s.jobs.filter (fun j => j.kind == .apply && j.sched && j.raster == 2 + n &&
      j.frame.any fun x => decide (lo < x) && decide (x < hi)) = [] :=
    List.filter_eq_nil_iff.mpr fun j hj => by simp [h j hj]
  rw [State.cancelSkipped, hgone]
  rfl

/-! ### A relation that stays -/

/-- An output whose relation stays starts the frame after the one that ended (R40). -/
theorem relate_of_kept (hr : o.relation = false) (he : o.ext = none) (d : RasterDesc) :
    s.relate o d d = (o.frame.toNat, o.o, false) := by
  simp [State.relate, hr, he]

/-- The output raster at line 1 of the frame whose start was owed. -/
def frameBegun (s : State) (o : OutRaster) : OutRaster :=
  { o with line := 1, lineT := s.now, frameT := s.now, owed := false, ext := none, relation := false, adopted := false }

/-- With its descriptor and relation kept and no RASTER_SET carried out, the frame's steps follow on the raster's new frame (R22). -/
theorem beginFrame_of_kept (ho : s.outRaster n = some o) :
    s.beginFrame n o.frame.toNat o.o o.desc [] =
      let f := o.frame.toNat
      let acts := ((((s.setOutRaster n (some (frameBegun s o))).swapFrame n f).flipFrame n f).runReached n).runDue (2 + n)
      let v := (acts.resumeOutput n).sendMarker n
      if (v.outRaster n).isNone then v
      else
        let v1 := (v.overlayFrame n).pondFrame n f
        let v2 := v1.applyOutWaits n f
        let v3 := v2.judgeOutput n f (frameBegun s o) (decide (v2.routes.waits.length < v1.routes.waits.length))
        if v3.live then (v3.frameReads n).activeReads n o.desc 1 else v3 := by
  simp -zeta only [State.beginFrame, ho, BitVec.ofNat_toNat, BitVec.setWidth_eq, if_true]
  rfl

/-- The work of a frame start that is owed, on a raster where nothing waits, is the beginning of the frame. -/
theorem frameWork_of_kept (ho : s.outRaster n = some o) (he : o.ext = none) (hr : o.relation = false) (hs : s.setsFor n = [])
    (hj : ∀ j ∈ s.jobs, j.raster ≠ 2 + n) : s.frameWork n = s.beginFrame n o.frame.toNat o.o o.desc [] := by
  have hnone : ∀ g : Params → Bool, s.runThese (2 + n) (fun j => g j.params &&
      (duePast (2 + n) o.frame.toNat 1 j || dueHere (2 + n) o.frame.toNat 1 j)) = s := fun g =>
    runThese_of_none fun j hm => by rw [not_due_elsewhere (hj j hm), Bool.and_false]
  simp [State.frameWork, ho, he, hs, hnone, lastDesc, relate_of_kept hr he, cancelSkipped_of_none hj]

/-! ### Whether a frame start is owed -/

theorem doOutputFrame_owed (hr : s.sys.stage ≠ .inReset) (ho : s.outRaster n = some o) (hw : o.owed = true) :
    doOutputFrame n s = s.frameWork n := by
  simp [doOutputFrame, hr, ho, hw]

theorem doOutputFrame_of_noRaster (ho : s.outRaster n = none) : doOutputFrame n s = s := by
  simp [doOutputFrame, ho]

/-- Within a frame no frame start is owed. -/
theorem doOutputFrame_within (ho : s.outRaster n = some o) (hw : o.owed = false) (he : o.ext = none)
    (hl : o.line ≠ o.desc.totalLines) : doOutputFrame n s = s := by
  simp [doOutputFrame, ho, hw, he, hl]

end FrameStart

/-- Settles O27: an owed frame start is the beginning of its frame, and no other takes a step. -/
theorem frameStartOfOutput : Obligations.FrameStartOfOutput := by
  intro s t n o
  refine ⟨?_, ?_, ?_⟩
  · refine events_of_onEvent rfl fun w hr ⟨ho, hw, he, hk, hs, hj⟩ => ?_
    rw [doOutputFrame_owed hr ho hw, frameWork_of_kept ho he hk hs hj, beginFrame_of_kept ho]
    rfl
  · exact events_of_onEvent rfl fun w _ ho => doOutputFrame_of_noRaster ho
  · exact events_of_onEvent rfl fun w _ ⟨ho, hw, he, hl⟩ => doOutputFrame_within ho hw he hl

end Sys2Proof.Laws
end

section
/-! The STC and the commands of schedule and time (chapter 2): what BARRIER, SCHED_CANCEL, RASTER_SET, STC_SET, STREAM_SET and LOSS_SET answer
where their checks pass, and how a scheduled command becomes resident. -/

namespace Sys2Proof.Laws

open Sys2Proof.Machine Sys2Proof.Claims

/-! ### The STC (R48 to R50) -/

theorem stc_eq_sum (s : State) : s.stc = (s.clk.mono + s.clk.offset.toNat) % 2 ^ 64 := by
  simp [State.stc]

@[simp] theorem timerCompare_clk (s : State) : s.timerCompare.clk = s.clk := by
  unfold State.timerCompare
  split <;> simp

/-- The offset that STC_SET leaves. -/
def stcSetOffset (p : StcSetP) (s : State) : BitVec 64 :=
  if p.op = 0 then BitVec.ofNat 64 p.value - BitVec.ofNat 64 s.clk.mono else s.clk.offset + BitVec.ofNat 64 p.value

/-- STC_SET writes the offset alone. -/
theorem applyStcSet_clk (j : Job) (p : StcSetP) (s : State) :
    (applyStcSet j p s).clk = { s.clk with offset := stcSetOffset p s } := by
  by_cases hw : s.sys.wakeTimer ≤ s.stc <;> simp [applyStcSet, stcSetOffset, hw]

theorem applyStcSet_stc (j : Job) (p : StcSetP) (s : State) :
    (applyStcSet j p s).stc = (BitVec.ofNat 64 s.clk.mono + stcSetOffset p s).toNat := by
  rw [State.stc, applyStcSet_clk]

/-- Settles O53: the STC by the width of its sum, STC_SET by the offset that it leaves. -/
theorem stcIsTheSum : Obligations.StcIsTheSum := by
  intro s t j p
  refine ⟨stc_eq_sum s, by rw [applyStcSet_clk], rfl, Nat.le_max_left _ _, fun hop hv => ?_, fun hop => ?_⟩
  · have hsum : BitVec.ofNat 64 s.clk.mono + stcSetOffset p s = BitVec.ofNat 64 p.value := by
      rw [stcSetOffset, if_pos hop, BitVec.add_comm, BitVec.sub_add_cancel]
    rw [applyStcSet_stc, hsum, BitVec.toNat_ofNat, Nat.mod_eq_of_lt hv]
  · have hsum : BitVec.ofNat 64 s.clk.mono + stcSetOffset p s =
        BitVec.ofNat 64 s.clk.mono + s.clk.offset + BitVec.ofNat 64 p.value := by
      rw [stcSetOffset, if_neg hop, BitVec.add_assoc]
    rw [applyStcSet_stc, hsum, BitVec.toNat_add, BitVec.toNat_ofNat, Nat.add_mod_mod]
    rfl

/-! ### Commands that are checked -/

theorem orAns_of_pass {c : Check} (h : c = none) (a : Ans) : orAns c a = a := by rw [h]; rfl

/-- A command that executes at once is bound to no raster's frame start (R40, R52). -/
theorem onFrame_of_immediate {h : Hdr} (hs : h.sched = false) (raster : Nat) : onFrame h raster = none := by
  simp [onFrame, failIf, hs]

section ImmediateStart

variable {s : State} {t : Tick} {h : Hdr} {p : Params} {i : Instr} {ok : State → Prop} {eff : State → State}

/-- A packet row waits as its command's start answers for an immediate command. -/
theorem waits_of_immediate_start {kind : JobKind} {ras : Nat} {aux : State → List Nat} (hx : exec i s = .next (submit p t h s))
    (hp : plainWait p = true) (ha : h.sched = false → ∀ w, ok w → startOf ⟨h.queue, h⟩ p w = .later (eff w) kind ras (aux w)) :
    Waits s t h p i ok eff kind ras aux :=
  fun hi hok => waits_of_start hx hp (ha hi.2.1) hi hok

end ImmediateStart

/-! ### BARRIER (R344) -/

section Barrier

variable {s : State} {c : Ctx} {p : BarrierP}

theorem waitMet_iff (s : State) (applied : Bool) (x : BarrierWait) :
    s.waitMet applied x = true ↔
      reaches (s.queue x.queue).lastSeq (BitVec.ofNat 32 x.seq) = true ∧
      (applied = true → ∀ j ∈ s.jobs, j.queue = x.queue → j.sched = true → j.kind = .apply →
        reaches (BitVec.ofNat 32 x.seq) (BitVec.ofNat 32 j.seq) = false) := by
  cases applied <;> simp [State.waitMet, List.any_eq_false]

theorem barrierMet_iff (s : State) (p : BarrierP) :
    s.barrierMet p = true ↔
      (∀ x ∈ p.waits, s.waitMet p.applied x = true) ∧
      (p.fenceWait = true → reaches (s.fence p.fence).value (BitVec.ofNat 32 p.fenceValue) = true) := by
  cases hf : p.fenceWait <;> simp [State.barrierMet, hf]

/-- A well-formed BARRIER asks for its conditions alone. -/
theorem startBarrier_of_wf (hz : p.rsvd = 0) (hn : p.waits.length ≤ 10) (ht : p.timeout ≤ 60000) (hf : p.fence < 256)
    (hq : ∀ x ∈ p.waits, x.queue < 10 ∧ x.queue ≠ c.queue) :
    startBarrier c p s = if s.barrierMet p then .done s else .later s .event := by
  have hw : (p.waits.any fun w => decide (10 ≤ w.queue) || w.queue == c.queue) = false :=
    List.any_eq_false.mpr fun x hx => by simp [hq x hx]
  refine orAns_of_pass ?_ _
  rw [hw]
  simp [failIf, hz, Nat.not_lt.mpr hn, Nat.not_lt.mpr ht, Nat.not_le.mpr hf]

end Barrier

/-! ### SCHED_CANCEL, RASTER_SET and STC_SET (R40, R49, R55) -/

theorem startSchedCancel_ahead {s : State} {p : SchedCancelP} {j : Job} (release : Job → State → State) (hz : p.rsvd = 0)
    (hq : p.queue < 10) (hj : s.pendingAction p.queue p.seq = some j) (ha : s.beforeArming j = true) :
    startSchedCancel release p s = .done ((release j s).complete j stCancelled 0 (some j.raster)) := by
  simp [startSchedCancel, hz, hj, ha, Nat.not_le.mpr hq]

section RasterSet

variable {s : State} {h : Hdr} {p : RasterSetP}

/-- The checks of an immediate RASTER_SET of a house raster pass (R37, R39, R359, R407). -/
theorem chkRasterSet_house (hs : h.sched = false) (hr : p.raster < 2) (hz : p.rsvd = 0)
    (hm : s.sys.mode = .bringup ∨ s.sys.mode = .test) (hd : descOk p.desc true = true)
    (ho : ∀ e ∈ s.outputsOn p.raster, ratioOk e.2.desc p.desc = true)
    (hw : (fget {} s.clocks.refs p.raster : Ref).enable = true →
      wholeCycles (fget {} s.clocks.refs p.raster : Ref).freqHz p.desc = true) : chkRasterSet h p s = none := by
  have hmode : (s.sys.mode != .bringup && s.sys.mode != .test) = false := by
    rcases hm with hm | hm <;> simp [hm]
  have hall : ((s.outputsOn p.raster).all fun e => ratioOk e.2.desc p.desc) = true := List.all_eq_true.mpr ho
  have hcyc : ((fget {} s.clocks.refs p.raster : Ref).enable &&
      !wholeCycles (fget {} s.clocks.refs p.raster : Ref).freqHz p.desc) = false := by
    cases he : (fget {} s.clocks.refs p.raster : Ref).enable
    · rfl
    · simp [hw he]
  rw [chkRasterSet, if_pos hr]
  simp [failIf, hz, hmode, hd, hall, hcyc, onFrame_of_immediate hs]

/-- The checks of an immediate RASTER_SET of an output raster pass (R37, R39, R60). -/
theorem chkRasterSet_output {x : TxStream} (hs : h.sched = false) (hr : 2 ≤ p.raster) (ho : (s.raster? p.raster).isSome = true)
    (hx : s.txStream (p.raster - 2) = some x) (hz : p.rsvd = 0) (hd : descOk p.desc false = true)
    (hq : ratioOk p.desc (s.house p.desc.house).desc = true) (hp : s.txPeakOk x.cfg p.desc = true) : chkRasterSet h p s = none := by
  obtain ⟨g, hg⟩ := Option.isSome_iff_exists.mp ho
  rw [chkRasterSet, if_neg (Nat.not_lt.mpr hr), hg, hx]
  simp [failIf, hz, hd, hq, hp, onFrame_of_immediate hs]

end RasterSet

theorem chkStcSet_ok {h : Hdr} {p : StcSetP} (hs : h.sched = false) (ho : p.op < 2) (hz : p.rsvd = 0) : chkStcSet h p = none := by
  simp [chkStcSet, failIf, hs, hz, Nat.not_le.mpr ho]

/-- Settles O4: BARRIER by whether its conditions are met, the others by what their start answers when their checks pass. -/
theorem scheduleAndTimeCommands : Obligations.ScheduleAndTimeCommands := by
  refine ⟨fun s t h p hz hn ht hf hq => ⟨?_, ?_⟩, fun s t h p j => ?_, fun s t h => ⟨fun p => ?_, fun p x => ?_, fun p => ?_⟩⟩
  · refine completes_of_start rfl fun w ⟨hw, hv⟩ => ?_
    have hmet : w.barrierMet p = true := (barrierMet_iff w p).mpr ⟨fun x hx => (waitMet_iff w p.applied x).mpr (hw x hx), hv⟩
    exact (startBarrier_of_wf hz hn ht hf hq).trans (if_pos hmet)
  · refine waits_of_start rfl rfl fun w hmet => ?_
    exact (startBarrier_of_wf hz hn ht hf hq).trans (if_neg (by simp [hmet]))
  · exact completes_of_start rfl fun w ⟨hz, hq, hj, ha⟩ => startSchedCancel_ahead releaseOf hz hq hj ha
  · exact waits_of_immediate_start rfl rfl fun hs w ⟨hr, hz, hm, hd, ho, hw⟩ =>
      orAns_of_pass (chkRasterSet_house hs hr hz hm hd ho hw) _
  · exact waits_of_immediate_start rfl rfl fun hs w ⟨hr, ho, hx, hz, hd, hq, hp⟩ =>
      orAns_of_pass (chkRasterSet_output hs hr ho hx hz hd hq hp) _
  · exact waits_of_immediate_start rfl rfl fun hs w ⟨ho, hz⟩ => orAns_of_pass (chkStcSet_ok hs ho hz) _

/-! ### STREAM_SET and LOSS_SET (R56, R58, R151, R363) -/

section Stream

variable {s : State} {h : Hdr} {p : StreamSetP}

theorem startStreamSet_receive (hd : p.dir = 0) (hc : chkStreamSet h p s = none) : startStreamSet h p s = .done (setReceive p s) :=
  (orAns_of_pass hc _).trans (if_pos hd)

/-- A transmit group waits on its output's raster, or on house A where the output has none yet. -/
theorem startStreamSet_transmit (hd : p.dir = 1) (hc : chkStreamSet h p s = none) :
    startStreamSet h p s = .later s .apply (if (s.outRaster (pointOf p)).isSome then 2 + pointOf p else 0) :=
  (orAns_of_pass hc _).trans (if_neg (by simp [hd]))

end Stream

theorem chkLossSet_ok {s : State} {h : Hdr} {p : LossSetP} (hs : h.sched = false) (hr : s.routes.recalling = false)
    (hp : p.policy < 3) (hl : p.holdLimit ≤ 65535) (hz : p.rsvd = 0) (ho : p.output < 512)
    (hx : (s.txStream p.output).isSome = true) : chkLossSet h p s = none := by
  have hn : (s.txStream p.output).isNone = false := by simp [← Option.not_isSome, hx]
  simp [chkLossSet, failIf, hs, hr, hz, hn, Nat.not_le.mpr hp, Nat.not_lt.mpr hl, Nat.not_le.mpr ho]

/-- Settles O6: STREAM_SET by its direction and by whether its output has a raster, LOSS_SET by its checks. -/
theorem streamAndLossCommands : Obligations.StreamAndLossCommands := by
  intro s t h
  refine ⟨fun p => ?_, fun p => ?_, fun p => ?_, fun p => ?_⟩
  · exact completes_of_start rfl fun w ⟨hd, hc⟩ => startStreamSet_receive hd hc
  · refine waits_of_start rfl rfl fun w ⟨hd, hc, ho⟩ => (startStreamSet_transmit hd hc).trans ?_
    rw [pointOf, if_pos ho]
    rfl
  · refine waits_of_start rfl rfl fun w ⟨hd, hc, ho⟩ => (startStreamSet_transmit hd hc).trans ?_
    rw [pointOf, ho]
    rfl
  · exact waits_of_immediate_start rfl rfl fun hs w ⟨hr, hp, hl, hz, ho, hx⟩ => orAns_of_pass (chkLossSet_ok hs hr hp hl hz ho hx) _

/-! ### Residency (R51 to R54) -/

/-- A packet's row sends its packet. -/
theorem exec_packetRow {t : Tick} {h : Hdr} {p : Params} {i : Instr} (hi : packetRow t h p = some i) (s : State) :
    exec i s = .next (submit p t h s) := by
  cases p <;> cases hi <;> rfl

section Residency

variable {w : State} {b : Job} {e : Nat × Nat} {f : Nat}

theorem schedule_of_fail (h : w.scheduleCheck b = some e) : w.schedule b = w.refuse b e := by
  rw [State.schedule, h]

/-- The chapter's checks come first (R339). -/
theorem scheduleCheck_of_check (h : checkOf (ctxOf b) b.params w = some e) : w.scheduleCheck b = some e := by
  simp [State.scheduleCheck, h]

theorem scheduleCheck_of_full (h : checkOf (ctxOf b) b.params w = none) (hr : 16384 ≤ w.resident) :
    w.scheduleCheck b = some (stNoResource, 0) := by
  simp [State.scheduleCheck, failIf, h, hr]

theorem scheduleCheck_of_late (h : checkOf (ctxOf b) b.params w = none) (hr : w.resident < 16384)
    (ht : w.target b.hdr.raster b.hdr.frame b.hdr.line (armingOf b.params w) b.hdr.reject = none) :
    w.scheduleCheck b = some (stLate, 0) := by
  simp [State.scheduleCheck, failIf, h, ht, Nat.not_le.mpr hr]

theorem schedule_of_pass (h : checkOf (ctxOf b) b.params w = none) (hr : w.resident < 16384)
    (ht : w.target b.hdr.raster b.hdr.frame b.hdr.line (armingOf b.params w) b.hdr.reject = some f) :
    w.schedule b = w.reside b f := by
  have hc : w.scheduleCheck b = none := by
    simp [State.scheduleCheck, failIf, h, ht, Nat.not_le.mpr hr]
  rw [State.schedule, hc, ht]
  rfl

end Residency

/-- An accepted command that is scheduled, and that no LEAD stamps, is judged for residency. -/
theorem scheduled_runs {s : State} {t : Tick} {h : Hdr} {p : Params} {i : Instr} (hi : packetRow t h p = some i)
    (ha : Accepted s t h p) (hs : h.sched = true) (hl : ((fetched s t h p).isLead && (rowOf p).pair == .s) = false) :
    exec i s = .next ((fetched s t h p).schedule (command h p)).settleLink := by
  have hsched : (command h p).hdr.sched = true := hs
  have hpar : (command h p).params = p := rfl
  rw [exec_packetRow hi, accepted_runs s t h p ha, State.run, hpar, hl, hsched]
  rfl

/-- Settles O44: the checks, the room in the table and the target in turn. -/
theorem scheduledCommandsReside : Obligations.ScheduledCommandsReside := by
  intro s t h p i e f hi ha hs hl w c target planned resident
  have hrun : ∀ {v}, w.schedule (command h p) = v → exec i s = .next v.settleLink := fun hv => by
    rw [scheduled_runs hi ha hs hl, hv]
  refine ⟨fun hc => ?_, fun hc hr => ?_, fun hc hr ht => ?_, fun hc hr ht => ?_⟩
  · exact hrun (schedule_of_fail (scheduleCheck_of_check hc))
  · exact hrun (schedule_of_fail (scheduleCheck_of_full hc hr))
  · exact hrun (schedule_of_fail (scheduleCheck_of_late hc hr ht))
  · exact hrun (schedule_of_pass hc hr ht)

end Sys2Proof.Laws
end

section
/-! Line starts of house and output rasters (R33 to R41): which step of its raster a line start takes, and the work that follows it. -/

namespace Sys2Proof.Laws

open Sys2Proof.Machine Sys2Proof.Claims

/-! ### Where a house raster goes (R33, R36) -/

section HouseNext

variable {h : House} (now : Tick)

theorem next_within (hs : h.started = true) (hd : h.stepDue = false) (hl : h.line < h.desc.totalLines) :
    h.next now = ({ h with line := h.line + 1, lineT := now }, false) := by
  simp [House.next, hs, hd, Nat.not_le.mpr hl]

theorem next_wraps (hs : h.started = true) (hd : h.stepDue = false) (hl : h.desc.totalLines ≤ h.line) :
    h.next now = ({ h with frame := h.frame + 1, line := 1, lineT := now, frameT := now }, true) := by
  simp [House.next, hs, hd, hl]

/-- A realignment that is due begins the next frame. -/
theorem next_realigns (hs : h.started = true) (hd : h.stepDue = true) :
    h.next now = ({ h with frame := h.frame + 1, line := 1, lineT := now, frameT := now, stepPending := false }, true) := by
  simp [House.next, hs, hd]

theorem next_starts (hs : h.started = false) :
    h.next now = ({ h with started := true, line := 1, lineT := now, frameT := now }, true) := by
  simp [House.next, hs]

end HouseNext

/-! ### The work of a house line start -/

/-- House raster `p` stands at `h`, and its sources have sent what ended before. -/
def houseStands (p : Nat) (s : State) (h : House) : State := (s.advanceSources s.now).setHouse p h

/-- The STC_SETs of a line start of house raster `p`: those that wait, then those due there (R49). -/
def stcTimes (p : Nat) (v : State) : State := (if p = 0 then v.applyStcWaits else v).runStc p

/-- A slew moves on, sources start, and a LEAD decides, at the line start that comes to `s`. -/
def slewAndLead (p : Nat) (s v : State) : State := ((v.slewLine p).advanceSources (s.now + 1)).leadInputs p

/-- The work of a line start within a frame. -/
def lineWork (p : Nat) (s v : State) : State :=
  let u := (slewAndLead p s (stcTimes p v)).runDue p
  u.monitorLines p (u.house p).line

/-- The work of a line start that begins a frame. -/
def frameStartWork (p : Nat) (s v : State) : State :=
  let v1 := slewAndLead p s ((stcTimes p v).policyFrame p)
  let v2 := (if p = 0 then v1.adoptPair else v1).runDue p
  let v3 := (if p = 0 then v2.applySnapshot else v2).playSources p
  v3.monitorLines p (v3.house p).line

section HouseLine

variable {s : State} {p : Nat} {h : House}

theorem doLineStart_house (hs : s.sys.stage ≠ .inReset) (hp : p < 2) : doLineStart p s = s.houseLine p := by
  rw [doLineStart, if_neg hs, if_pos hp]

theorem houseLine_of_line (hn : (s.house p).next s.now = (h, false)) (hd : (s.house p).stepDue = false) :
    s.houseLine p = lineWork p s (houseStands p s h) := by
  simp [State.houseLine, hn, hd, lineWork, slewAndLead, stcTimes, houseStands]

theorem houseLine_of_frame (hn : (s.house p).next s.now = (h, true))
    (hd : ((s.house p).started && (s.house p).stepDue) = false) :
    s.houseLine p = frameStartWork p s (houseStands p s h) := by
  simp [State.houseLine, hn, hd, frameStartWork, slewAndLead, stcTimes, houseStands]

/-- Output rasters follow a realignment (R36, R41). -/
theorem houseLine_of_realignment (hn : (s.house p).next s.now = (h, true))
    (hd : ((s.house p).started && (s.house p).stepDue) = true) :
    s.houseLine p = frameStartWork p s ((houseStands p s h).followStep p) := by
  simp [State.houseLine, hn, hd, frameStartWork, slewAndLead, stcTimes, houseStands]

end HouseLine

/-! ### Line starts of an output raster (R33, R41) -/

section OutputLine

variable {s : State} {n : Nat} {o : OutRaster}

theorem doLineStart_output (hs : s.sys.stage ≠ .inReset) (hn : n < 512) : doLineStart (2 + n) s = s.outputLine n := by
  rw [doLineStart, if_neg hs, if_neg (by omega), if_pos (by omega), Nat.add_sub_cancel_left]

theorem outputLine_of_noRaster (ho : s.outRaster n = none) : s.outputLine n = s := by
  simp [State.outputLine, ho]

/-- The monitors follow the line at which output `n` stands. -/
def watchOutput (n : Nat) (v : State) : State := v.monitorLines (2 + n) (((v.outRaster n).map (·.line)).getD 0)

theorem outputLine_extension (ho : s.outRaster n = some o) (hw : o.owed = false) (he : o.ext.isSome = true) :
    s.outputLine n = watchOutput n (s.extensionLine n o) := by
  simp [State.outputLine, watchOutput, ho, hw, he]

theorem outputLine_within (ho : s.outRaster n = some o) (hw : o.owed = false) (he : o.ext = none)
    (hl : o.line < o.desc.totalLines) : s.outputLine n = watchOutput n (s.withinFrame n o) := by
  simp [State.outputLine, watchOutput, ho, hw, he, hl]

theorem outputLine_wraps (ho : s.outRaster n = some o) (hw : o.owed = false) (he : o.ext = none)
    (hl : o.desc.totalLines ≤ o.line) : s.outputLine n = watchOutput n (s.endFrameLines n o) := by
  simp [State.outputLine, watchOutput, ho, hw, he, Nat.not_lt.mpr hl]

/-- Outside the active lines nothing is read. -/
theorem activeReads_of_blanking {d : RasterDesc} {l : Nat} (h : activeIndex d l = none) : s.activeReads n d l = s := by
  rw [State.activeReads, h]

theorem activeReads_of_active {d : RasterDesc} {l k : Nat} (h : activeIndex d l = some k) :
    s.activeReads n d l = (s.ringMisses n k).layerReads n k := by
  rw [State.activeReads, h]

end OutputLine

/-- Settles O26: the house raster by where it goes, the output raster by whether it is in an extension, within a frame or at its end. -/
theorem rasterLineStarts : Obligations.RasterLineStarts := by
  refine ⟨fun s t p hp => ?_, fun s t n o hn => ?_⟩
  · intro line times slew frame
    refine ⟨?_, ?_, ?_, ?_⟩
    · refine events_of_onEvent rfl fun w hs ⟨hst, hd, hl⟩ => ?_
      exact (doLineStart_house hs hp).trans (houseLine_of_line (next_within w.now hst hd hl) hd)
    · refine events_of_onEvent rfl fun w hs ⟨hst, hd, hl⟩ => ?_
      exact (doLineStart_house hs hp).trans (houseLine_of_frame (next_wraps w.now hst hd hl) (by simp [hd]))
    · refine events_of_onEvent rfl fun w hs ⟨hst, hd⟩ => ?_
      exact (doLineStart_house hs hp).trans (houseLine_of_realignment (next_realigns w.now hst hd) (by simp [hst, hd]))
    · refine events_of_onEvent rfl fun w hs hst => ?_
      exact (doLineStart_house hs hp).trans (houseLine_of_frame (next_starts w.now hst) (by simp [hst]))
  · intro watch sent
    refine ⟨?_, ?_, ?_, ?_⟩
    · exact events_of_onEvent rfl fun w hs ho => (doLineStart_output hs hn).trans (outputLine_of_noRaster ho)
    · exact events_of_onEvent rfl fun w hs ⟨ho, hw, he⟩ => (doLineStart_output hs hn).trans (outputLine_extension ho hw he)
    · refine events_of_onEvent rfl fun w hs ⟨ho, hw, he, hl⟩ => ?_
      rw [doLineStart_output hs hn, outputLine_within ho hw he hl]
      refine congrArg (watchOutput n) ?_
      unfold State.withinFrame
      cases ha : activeIndex o.desc (o.line + 1) with
      | none => simp only [activeReads_of_blanking ha, ite_self]; rfl
      | some k => simp only [activeReads_of_active ha]; rfl
    · exact events_of_onEvent rfl fun w hs ⟨ho, hw, he, hl⟩ => (doLineStart_output hs hn).trans (outputLine_wraps ho hw he hl)

end Sys2Proof.Laws
end

section
/-! References, frame sync pulses and synthesizers (chapter 15), and CP_B's timer (R479): what each event does, case by case. -/

namespace Sys2Proof.Laws

open Sys2Proof.Machine Sys2Proof.Claims

/-! ### References (R408 to R411, R510) -/

/-- A port's event row has the effect of its event on a port that exists. -/
theorem events_of_onPort {s : State} {t : Tick} {i : Instr} {ok : State → Prop} {f eff : State → State} {p : Nat} (hp : p < 2)
    (hx : exec i s = .next (onEvent (onPort p f) (s.enter t))) (hf : ∀ w, ok w → f w = eff w) : Events s t i ok eff :=
  events_of_onEvent hx fun w _ hok => (if_pos hp).trans (hf w hok)

section Reference

variable {s : State} {p : Nat} {off : Int}

theorem lockHistory_house (hp : p < 2) (x : Synth) : s.lockHistory p x = decide (x.lockT + 270000000 ≤ s.now) := by
  simp [State.lockHistory, isHouse, hp]

/-- The house synthesizer of a reference that is lost gives up its lock, and coasts. -/
theorem doRefAbsent_locked (hp : p < 2) (hr : (s.ref p).present = true) (hl : (s.synth p).locked = true) :
    doRefAbsent p s = ((((s.setRef p { s.ref p with present := false }).fire (962 + p)).setSynth p
      { s.synth p with locked := false, lost := true, history := decide ((s.synth p).lockT + 270000000 ≤ s.now) }).fire
        (960 + p)).syncClocks := by
  simp [doRefAbsent, hr, hl, lockHistory_house hp]

theorem doRefAbsent_unlocked (hr : (s.ref p).present = true) (hl : (s.synth p).locked = false) :
    doRefAbsent p s = ((s.setRef p { s.ref p with present := false }).fire (962 + p)).syncClocks := by
  simp [doRefAbsent, hr, hl]

theorem doRefAbsent_of_absent (hr : (s.ref p).present = false) : doRefAbsent p s = s := by
  simp [doRefAbsent, hr]

theorem doRefPresent_returns (hr : (s.ref p).present = false) (he : (s.ref p).enable = true) :
    doRefPresent p s = ((((s.setRef p { s.ref p with present := true, everPresent := true, returned := (s.ref p).everPresent }).setSynth p
      { s.synth p with lost := false }).fire (962 + p)).syncClocks).setLatch 3 := by
  simp [doRefPresent, hr, he]

theorem doRefPresent_of_disabled (he : (s.ref p).enable = false) : doRefPresent p s = s := by
  simp [doRefPresent, he]

theorem doFrameSyncMissing_present (hr : (s.ref p).present = true) :
    doFrameSyncMissing p s = (s.setRef p { s.ref p with fsMissing := true }).fire (962 + p) := if_pos hr

theorem doFrameSyncMissing_of_absent (hr : (s.ref p).present = false) : doFrameSyncMissing p s = s := by
  simp [doFrameSyncMissing, hr]

theorem doLinePulse_measures (h : (s.ref p).present = true ∧ (s.ref p).lineSync = true) :
    doLinePulse p off s = s.setSynth p { s.synth p with phaseErr := phaseOf off } := by
  simp [doLinePulse, h]

theorem doLinePulse_ignored (h : (s.ref p).present = false ∨ (s.ref p).lineSync = false) : doLinePulse p off s = s := by
  rcases h with h | h <;> simp [doLinePulse, h]

/-! ### Frame sync pulses (R36, R412 to R414) -/

/-- A pulse is noted: the reference has frame sync, and PHASE_ERR holds the measurement. -/
def pulseSeen (p : Nat) (off : Int) (s : State) : State :=
  (s.setRef p { s.ref p with fsMissing := false, returned := false }).setSynth p { s.synth p with phaseErr := phaseOf off }

/-- A pulse that is not judged: the synthesizer is unlocked and this is not the first pulse of a reference that returns to a raster once
aligned, or the device is a MATE. -/
def pulseSkipped (p : Nat) (s : State) : Bool := !((s.synth p).locked || ((s.ref p).returned && (s.synth p).aligned)) || s.isMate

/-- A pulse that is a phase jump: it lies more than a reference period from the offset held, and from where a slew is to end. -/
def pulseJumps (p : Nat) (off : Int) (s : State) : Bool :=
  decide (s.refPeriod p < (off - (s.synth p).buildout).natAbs) &&
    ((s.synth p).slewLeft = 0 || decide (s.refPeriod p < (off - (s.synth p).slewLeft).natAbs))

/-- The raster is aligned by this pulse. -/
def pulseAligned (p : Nat) (off : Int) (s : State) : State :=
  (pulseSeen p off s).setSynth p { (pulseSeen p off s).synth p with aligned := true }

theorem doFramePulse_of_absent (hr : (s.ref p).present = false) : doFramePulse p off s = s := by
  simp [doFramePulse, hr]

theorem doFramePulse_of_present (hr : (s.ref p).present = true) :
    doFramePulse p off s =
      if pulseSkipped p s then pulseSeen p off s
      else if !(s.synth p).aligned then (pulseAligned p off s).realign p
      else if pulseJumps p off s then ((pulseSeen p off s).jump p off).fire (960 + p)
      else pulseSeen p off s :=
  if_neg (by simp [hr])

/-- Noting a pulse leaves the rasters, the clock and the pair alone, so the realignment is as of `s`. -/
theorem realign_pulseAligned :
    (pulseAligned p off s).realign p = (pulseAligned p off s).setHouse p { s.house p with
      stepPending := true, stepAt := if s.isLead then some (stampFrom (s.house p).standing (s.now + 1350) 256 5) else none } := rfl

theorem pulseSkipped_of_unjudged
    (h : s.isMate = true ∨ (s.synth p).locked = false ∧ ((s.ref p).returned = false ∨ (s.synth p).aligned = false)) :
    pulseSkipped p s = true := by
  rcases h with h | ⟨hl, h | h⟩
  · simp [pulseSkipped, h]
  · simp [pulseSkipped, hl, h]
  · simp [pulseSkipped, hl, h]

theorem pulseSkipped_of_locked (hm : s.isMate = false) (hl : (s.synth p).locked = true) : pulseSkipped p s = false := by
  simp [pulseSkipped, hm, hl]

/-- Once the raster is aligned, the first pulse of a returning reference is judged before the relock (R36). -/
theorem pulseSkipped_of_judged (hm : s.isMate = false) (ha : (s.synth p).aligned = true)
    (hl : (s.synth p).locked = true ∨ (s.ref p).returned = true) : pulseSkipped p s = false := by
  rcases hl with hl | hl <;> simp [pulseSkipped, hm, ha, hl]

theorem pulseJumps_iff :
    pulseJumps p off s = true ↔ s.refPeriod p < (off - (s.synth p).buildout).natAbs ∧
      ((s.synth p).slewLeft = 0 ∨ s.refPeriod p < (off - (s.synth p).slewLeft).natAbs) := by
  simp [pulseJumps]

end Reference

/-! ### Synthesizers (R406, R409, R411, R416, R419 to R421, R423) -/

section Synthesizer

variable {s : State} {i : Nat}

/-- What a synthesizer needs to lock: its reference, its frequency, or nothing more. -/
def lockable (i : Nat) (s : State) : Prop :=
  if isHouse i then (s.ref i).present = true else if isOutlet i then (s.synth i).freq ≠ 0 else isLane i = true

/-- A synthesizer has locked, which ends its retune. -/
def synthLocked (i : Nat) (s : State) : State :=
  (s.setSynth i { s.synth i with locked := true, everLocked := true, lost := false, retuning := false, lockT := s.now }).fire (synthEvent i)

/-- A direction that a lane synthesizer's retune had taken to idle resumes (R416). -/
def resumeDirection (b : Nat) (u : State) : State :=
  if (u.txDir b).enable && !(u.txDir b).asleep && (u.txDir b).phase = .idle && u.sys.mode != .failed then applyRecords b 1 (u.txStart b) else u

theorem lockable_iff : (if isHouse i then (s.ref i).present else if isOutlet i then (s.synth i).freq != 0 else isLane i) = true ↔
    lockable i s := by
  unfold lockable
  by_cases hh : isHouse i = true
  · simp [hh]
  · by_cases ho : isOutlet i = true <;> simp [hh, ho]

theorem doSynthLock_of_unable (h : (s.synth i).locked = true ∨ (s.synth i).searching = true ∨ ¬lockable i s) : doSynthLock i s = s := by
  rw [← lockable_iff] at h
  refine if_pos ?_
  rcases h with h | h | h <;> simp [h]

/-- A synthesizer that may lock does; the directions that a lane retune idled resume. -/
theorem doSynthLock_of_able (hl : (s.synth i).locked = false) (hs : (s.synth i).searching = false) (hm : lockable i s) :
    doSynthLock i s = (if isLane i && (s.synth i).retuning then State.each resumeDirection (servedBy i) (synthLocked i s)
      else synthLocked i s).syncClocks := by
  rw [← lockable_iff] at hm
  exact if_neg (by simp [hl, hs, hm])

theorem doSynthLoss_of_locked (hl : (s.synth i).locked = true) (hn : isLane i = false) :
    doSynthLoss i s = ((s.setSynth i { s.synth i with locked := false, lost := true, history := s.lockHistory i (s.synth i) }).fire
      (synthEvent i)).syncClocks :=
  if_neg (by simp [hl, hn])

theorem doSynthLoss_of_unlocked (hl : (s.synth i).locked = false) : doSynthLoss i s = s :=
  if_pos (by simp [hl])

/-- A band from the table or from a stored result that misses leads to a search. -/
theorem doBandMiss_searches (hr : (s.synth i).retuning = true) (hs : (s.synth i).searching = false)
    (hb : (s.synth i).bandFrom = .table ∨ (s.synth i).bandFrom = .stored) :
    doBandMiss i s = (s.startSearch i).fire (synthEvent i) := by
  refine if_pos ?_
  rcases hb with hb | hb <;> simp [hr, hs, hb]

theorem doBandMiss_ignored (h : (s.synth i).retuning = false ∨ (s.synth i).searching = true) : doBandMiss i s = s := by
  refine if_neg ?_
  rcases h with h | h <;> simp [h]

theorem doLaneLoss_locked (h : isLane i = true ∧ (s.synth i).locked = true) :
    doLaneLoss i s = (s.setSynth i { s.synth i with locked := false }).enterFailed 10 i 0 :=
  if_pos (by simp [h])

theorem doLaneLoss_ignored (h : isLane i = false ∨ (s.synth i).locked = false) : doLaneLoss i s = s := by
  refine if_neg ?_
  rcases h with h | h <;> simp [h]

end Synthesizer

/-! ### SYNC_IN (R425) and CP_B's timer (R479) -/

theorem doSyncIn_eq (s : State) :
    doSyncIn s = [32, 33, 34, 35].foldl
      (fun u k => if (u.synth k).freq ≠ 0 ∧ (u.synth k).phaseMode = 0 then u.resetDividers k else u) s := by
  simp [doSyncIn, each_eq_foldl]

theorem timerCompare_fires {s : State} (h : s.hub.armed = true ∧ s.hub.timecmp ≤ s.stc) :
    s.timerCompare = { s with hub := { s.hub with armed := false, fired := true } }.fire 6 :=
  if_pos (by simp [h])

theorem timerCompare_waits {s : State} (h : s.hub.armed = false ∨ s.stc < s.hub.timecmp) : s.timerCompare = s := by
  refine if_neg ?_
  rcases h with h | h <;> simp [h]

/-- Settles O30: each row by the equation of its event in that case. -/
theorem referenceAndSynthesizerRows : Obligations.ReferenceAndSynthesizerRows := by
  refine ⟨fun s t p off hp => ?_, fun s t i band temp => ?_⟩
  · intro err seen away judged line
    refine ⟨?_, ?_, ?_, ?_, ?_, ?_, ?_, ?_, ?_, ?_, ?_, ?_, ?_, ?_⟩
    · exact events_of_onPort hp rfl fun w ⟨hr, hl⟩ => doRefAbsent_locked hp hr hl
    · exact events_of_onPort hp rfl fun w ⟨hr, hl⟩ => doRefAbsent_unlocked hr hl
    · exact events_of_onPort hp rfl fun w hr => doRefAbsent_of_absent hr
    · exact events_of_onPort hp rfl fun w ⟨hr, he⟩ => doRefPresent_returns hr he
    · exact events_of_onPort hp rfl fun w he => doRefPresent_of_disabled he
    · exact events_of_onPort hp rfl fun w hr => doFrameSyncMissing_present hr
    · exact events_of_onPort hp rfl fun w hr => doFrameSyncMissing_of_absent hr
    · exact events_of_onPort hp rfl fun w h => doLinePulse_measures h
    · exact events_of_onPort hp rfl fun w h => doLinePulse_ignored h
    · exact events_of_onPort hp rfl fun w hr => doFramePulse_of_absent hr
    · refine events_of_onPort hp rfl fun w ⟨hr, h⟩ => ?_
      exact (doFramePulse_of_present hr).trans (if_pos (pulseSkipped_of_unjudged h))
    · refine events_of_onPort hp rfl fun w ⟨hr, hl, hm, ha⟩ => ?_
      rw [doFramePulse_of_present hr, pulseSkipped_of_locked hm hl, ha]
      exact realign_pulseAligned
    · refine events_of_onPort hp rfl fun w ⟨⟨hr, hm, ha, hl⟩, hj⟩ => ?_
      rw [doFramePulse_of_present hr, pulseSkipped_of_judged hm ha hl, ha]
      exact if_pos (pulseJumps_iff.mpr hj)
    · refine events_of_onPort hp rfl fun w ⟨⟨hr, hm, ha, hl⟩, hj⟩ => ?_
      have hno : pulseJumps p off w = false := Bool.eq_false_iff.mpr fun hx => by
        obtain ⟨hb, hs⟩ := pulseJumps_iff.mp hx
        exact hj.elim (· hb) fun ⟨hz, hw⟩ => hs.elim hz hw
      rw [doFramePulse_of_present hr, pulseSkipped_of_judged hm ha hl, ha, hno]
      rfl
  · intro may lock
    refine ⟨?_, ?_, ?_, ?_, ?_, ?_, ?_, ?_, ?_, ?_, ?_, ?_, ?_, ?_, ?_⟩
    · refine events_of_onEvent rfl fun w _ ⟨hl, hs, hm, hn⟩ => ?_
      rw [doSynthLock_of_able hl hs hm, hn]
      rfl
    · refine events_of_onEvent rfl fun w _ ⟨hl, hs, hm, hn, hr⟩ => ?_
      rw [doSynthLock_of_able hl hs hm, hn, hr, each_eq_foldl]
      rfl
    · exact events_of_onEvent rfl fun w _ h => doSynthLock_of_unable h
    · exact events_of_onEvent rfl fun w _ ⟨hl, hn⟩ => doSynthLoss_of_locked hl hn
    · exact events_of_onEvent rfl fun w _ hl => doSynthLoss_of_unlocked hl
    · exact events_of_onEvent rfl fun w _ ⟨hr, hs, hb⟩ => doBandMiss_searches hr hs hb
    · exact events_of_onEvent rfl fun w _ h => doBandMiss_ignored h
    · exact events_of_onEvent rfl fun w _ hs => if_pos hs
    · exact events_of_onEvent rfl fun w _ hs => if_neg (by simp [hs])
    · exact events_of_onEvent rfl fun w _ _ => doSyncIn_eq w
    · exact events_of_onEvent rfl fun _ _ _ => rfl
    · exact events_of_onEvent rfl fun w _ h => doLaneLoss_locked h
    · exact events_of_onEvent rfl fun w _ h => doLaneLoss_ignored h
    · exact events_of_onEvent rfl fun w _ h => timerCompare_fires h
    · exact events_of_onEvent rfl fun w _ h => timerCompare_waits h

end Sys2Proof.Laws
end

section
/-! Groups at their superframe boundaries, and the delivery of their packets (chapters 3 and 4): what each event does, case by case. -/

namespace Sys2Proof.Laws

open Sys2Proof.Machine Sys2Proof.Claims

/-! ### A receive stream that is set -/

section SetStream

variable {s : State} {n : Nat} {x y z : RxStream}

/-- The stream set is the stream that stands, but for the record of what decisions saw of it. -/
theorem rxStream_setRxStream (hw : tblWf none s.rxStreams = true) (y : RxStream) :
    ∃ v, (s.setRxStream n (some y)).rxStream n = some { y with views := v } :=
  ⟨_, fget_fset_same none s.rxStreams n _ hw⟩

theorem setRxStream_wf (hw : tblWf none s.rxStreams = true) (o : Option RxStream) :
    tblWf none (s.setRxStream n o).rxStreams = true := tblWf_fset none s.rxStreams n _ hw

theorem noteChange_same {α : Type} [DecidableEq α] (now : Tick) (v : α) (h : List (Tick × α)) : noteChange now v v h = h :=
  if_pos (by simp)

/-- A stream put back as it stands changes nothing. -/
theorem setRxStream_again (hw : tblWf none s.rxStreams = true) (hz : (s.setRxStream n (some y)).rxStream n = some z) :
    (s.setRxStream n (some y)).setRxStream n (some z) = s.setRxStream n (some y) := by
  have hold : fget none (s.setRxStream n (some y)).rxStreams n = some z := hz
  have hset : (s.setRxStream n (some y)).rxStreams = fset none s.rxStreams n (some z) := by
    rw [← hz]
    exact congrArg (fset none s.rxStreams n) (fget_fset_same none s.rxStreams n _ hw).symm
  conv => lhs; rw [State.setRxStream, hold]
  dsimp only [Option.map_some, Option.getD_some]
  rw [noteChange_same, hset, fset_fset none s.rxStreams n _ _ hw, ← hset]

theorem present_of_found (h : s.rxStream n = some x) : s.present n = x.present := by
  unfold State.present
  rw [h]

end SetStream

/-! ### STREAM_PRESENT and INPUT_RASTER_STALE (R72, R102) -/

section Presence

variable {s : State} {n : Nat} {x : RxStream}

theorem doStreamPresent_of_none (h : s.rxStream n = none) : doStreamPresent n s = s := by
  unfold doStreamPresent
  rw [h]

theorem doStreamPresent_becomes (h : s.rxStream n = some x) (hp : x.present = false) (hc : 16 ≤ x.cleanRun) (hk : x.skew = false) :
    doStreamPresent n s = (s.setRxStream n (some { x with present := true, lap := x.lapAt s.now })).rxEvent x.cfg.bundle := by
  unfold doStreamPresent
  rw [h]
  exact if_pos (by simp [hp, hc, hk])

theorem doStreamPresent_stays (h : s.rxStream n = some x) (hn : x.present = true ∨ x.cleanRun < 16 ∨ x.skew = true) :
    doStreamPresent n s = s := by
  unfold doStreamPresent
  rw [h]
  refine if_neg fun hb => ?_
  simp only [Bool.and_eq_true, Bool.not_eq_true', decide_eq_true_eq] at hb
  obtain ⟨⟨hp, hc⟩, hk⟩ := hb
  obtain h1 | h1 | h1 := hn
  · simp [h1] at hp
  · omega
  · simp [h1] at hk

theorem doInputStale_of_none (h : s.rxStream n = none) : doInputStale n s = s := by
  unfold doInputStale
  rw [h]

theorem doInputStale_expires (h : s.rxStream n = some x) (hm : x.marked = true) (hp : x.period ≠ 0) (hs : x.stale = false)
    (ht : 2 * x.markT + 3 * x.period ≤ 2 * s.now) :
    doInputStale n s = (s.setRxStream n (some { x with stale := true })).rxEvent x.cfg.bundle := by
  unfold doInputStale
  rw [h]
  exact if_pos (by simp [hm, hp, hs, ht])

theorem doInputStale_stays (h : s.rxStream n = some x)
    (hn : 2 * s.now < 2 * x.markT + 3 * x.period ∨ x.marked = false ∨ x.stale = true) : doInputStale n s = s := by
  unfold doInputStale
  rw [h]
  refine if_neg fun hb => ?_
  simp only [Bool.and_eq_true, Bool.not_eq_true', decide_eq_true_eq] at hb
  obtain ⟨⟨⟨hm, _⟩, hs⟩, ht⟩ := hb
  obtain h1 | h1 | h1 := hn
  · exact absurd ht (Nat.not_le.mpr h1)
  · simp [h1] at hm
  · simp [h1] at hs

end Presence

/-! ### GROUP_SUPERFRAME_BOUNDARY (R97, R101) -/

/-- The lanes of the group of a stream. -/
def groupOf (x : RxStream) (s : State) : List RxLane := (groupLanes x.cfg).map (rxLaneOf (s.rxDir x.cfg.bundle))

/-- The stream at `n` has a group in step without encryption, without a step of adaptation due, and without a change that waits. -/
structure PlainGroup (n spread : Nat) (x : RxStream) (s : State) : Prop where
  found : s.rxStream n = some x
  notEnding : x.ending = false
  clear : x.crypt = none
  clearNext : x.cryptNext = none
  noneMissed : x.missed = []
  inStep : x.skew = false
  near : spread ≤ 64
  sameSfc : ∃ v, ∀ l ∈ groupOf x s, ∀ f, l.held = some f → f.crcOk = true → f.sfc = v
  noStep : ∀ l ∈ groupOf x s, (l.held.map (·.adaptDue)).getD false = false
  wf : tblWf none s.rxStreams = true

/-- The SFCs of the group's superframes whose CRC passes. -/
def heldSfcs (x : RxStream) (s : State) : List Nat :=
  (groupOf x s).filterMap fun l => l.held.bind fun f => if f.crcOk then some f.sfc else none

/-- The lanes of the group are out of step (R97). -/
def groupSkew (spread : Nat) (x : RxStream) (s : State) : Bool :=
  decide (64 < spread) || !((heldSfcs x s).all fun v => some v == (heldSfcs x s).head?)

/-- Every lane of the group was LOCKED before now. -/
def groupLocked (x : RxStream) (s : State) : Bool := (groupOf x s).all fun l => l.stBefore s.now == .locked

/-- A lane of the group carried WITHDRAWN. -/
def groupFlagged (x : RxStream) (s : State) : Bool := (groupOf x s).any (·.withdrawn)

/-- The superframe that ends counts towards the 16 of R102. -/
def groupClean (spread : Nat) (x : RxStream) (s : State) : Bool :=
  groupLocked x s && !groupSkew spread x s && !groupFlagged x s && !(s.rxDir x.cfg.bundle).training &&
    (groupOf x s).all fun l => decide (1 ≤ l.cleanRun)

/-- The group is withdrawn at the boundary. -/
def groupLost (spread : Nat) (x : RxStream) (s : State) : Bool :=
  !groupLocked x s || groupSkew spread x s || groupFlagged x s || (s.rxDir x.cfg.bundle).training

/-- The superframe that ends carried a VID packet of a present stream. -/
def groupVid (x : RxStream) (s : State) : Bool := x.present && carriesVid (groupOf x s)

/-- A setting that waits is in force from the boundary on (R440). -/
def keySwitched (x : RxStream) : RxStream :=
  match x.cryptNext with
  | some c => { x with crypt := c, cryptNext := none, keyDead := false }
  | none => x

/-- The stream with its run of clean superframes counted on or ended. -/
def countedClean (spread : Nat) (x : RxStream) (s : State) : RxStream :=
  { x with ending := false, skew := groupSkew spread x s, cleanRun := if groupClean spread x s then x.cleanRun + 1 else 0 }

/-- The stream after its boundary. -/
def boundaryStream (spread : Nat) (x : RxStream) (s : State) : RxStream :=
  keySwitched (adaptMiss x.cfg (s.rxDir x.cfg.bundle) (groupVid x s) (countedClean spread x s))

/-- The stream is set, and lanes that fell out of step raise the bundle's event. -/
def boundarySet (n spread : Nat) (x : RxStream) (s : State) : State :=
  let u := (s.endOld n x).setRxStream n (some (boundaryStream spread x s))
  if groupSkew spread x s && !x.skew then u.rxEvent x.cfg.bundle else u

/-- A present stream's lanes adapt. -/
def boundaryAdapted (n spread : Nat) (x : RxStream) (s : State) : State :=
  if x.present then (boundarySet n spread x s).adapt x.cfg.bundle (groupLanes x.cfg) (groupVid x s) else boundarySet n spread x s

/-- Every lane was LOCKED, not flagged, and has a clean superframe. -/
def LanesClean (x : RxStream) (s : State) : Prop :=
  ∀ l ∈ groupOf x s, l.stBefore s.now = .locked ∧ l.withdrawn = false ∧ 1 ≤ l.cleanRun

/-- A lane was not LOCKED, or was flagged. -/
def LanesFail (x : RxStream) (s : State) : Prop :=
  (∃ l ∈ groupOf x s, ¬l.stBefore s.now = .locked) ∨ ∃ l ∈ groupOf x s, l.withdrawn = true

theorem all_eq_head {l : List Nat} {v : Nat} (h : ∀ a ∈ l, a = v) : (l.all fun a => some a == l.head?) = true := by
  cases l with
  | nil => rfl
  | cons a r =>
    have ha : a = v := h a List.mem_cons_self
    exact List.all_eq_true.mpr fun b hb => by simp [h b hb, ha]

/-- Parts that each leave this state alone do so together. -/
theorem each_of_fixed {α : Type} {f : α → State → State} {l : List α} {s : State} (hf : ∀ x ∈ l, f x s = s) : State.each f l s = s := by
  induction l with
  | nil => rfl
  | cons x r ih =>
    rw [State.each, hf x List.mem_cons_self]
    exact ih fun y hy => hf y (List.mem_cons_of_mem x hy)

section Boundary

variable {s : State} {n spread : Nat} {x : RxStream}

theorem noStep_lane (h : ∀ l ∈ groupOf x s, (l.held.map (·.adaptDue)).getD false = false) {k : Nat} (hk : k ∈ groupLanes x.cfg) :
    ((rxLaneOf (s.rxDir x.cfg.bundle) k).held.map (·.adaptDue)).getD false = false := h _ (List.mem_map_of_mem hk)

theorem adaptMiss_of_noStep (h : ∀ l ∈ groupOf x s, (l.held.map (·.adaptDue)).getD false = false) (vid : Bool) {y : RxStream}
    (hm : y.missed = []) : adaptMiss x.cfg (s.rxDir x.cfg.bundle) vid y = y := by
  have hdue : (groupLanes x.cfg).filter (fun k => ((rxLaneOf (s.rxDir x.cfg.bundle) k).held.map (·.adaptDue)).getD false) = [] :=
    List.filter_eq_nil_iff.mpr fun k hk => by simp [noStep_lane h hk]
  unfold adaptMiss
  dsimp only
  rw [hdue, hm, List.append_nil, List.filter_nil, List.eraseDups_nil, ite_self, ← hm]

theorem adapt_of_noStep (h : ∀ l ∈ groupOf x s, (l.held.map (·.adaptDue)).getD false = false) (vid : Bool) :
    s.adapt x.cfg.bundle (groupLanes x.cfg) vid = s := by
  unfold State.adapt
  split
  · exact each_of_fixed fun k hk => if_neg (by simp [noStep_lane h hk])
  · rfl

/-- The SFCs of the group are not out of step (R97). -/
theorem PlainGroup.noSkew (h : PlainGroup n spread x s) : groupSkew spread x s = false := by
  obtain ⟨v, hv⟩ := h.sameSfc
  have hall : ∀ a ∈ heldSfcs x s, a = v := by
    intro a ha
    obtain ⟨l, hl, hf⟩ := List.mem_filterMap.mp ha
    obtain ⟨f, hh, hc⟩ := Option.bind_eq_some_iff.mp hf
    split at hc
    next hok => rw [← Option.some.inj hc]; exact hv l hl f hh hok
    next => cases hc
  rw [groupSkew, all_eq_head hall]
  simp [h.near]

/-- What the boundary does to the group of a stream. -/
theorem doGroupBoundary_of_found (h : s.rxStream n = some x) :
    doGroupBoundary n spread s =
      if groupLost spread x s then (boundaryAdapted n spread x s).withdraw n else boundaryAdapted n spread x s := by
  unfold doGroupBoundary
  rw [h]
  rfl

theorem keySwitched_of_none {y : RxStream} (h : y.cryptNext = none) : keySwitched y = y := by
  unfold keySwitched
  rw [h]

/-- The boundary of a plain group counts the superframe alone. -/
theorem PlainGroup.boundaryAdapted_eq (h : PlainGroup n spread x s) :
    boundaryAdapted n spread x s = s.setRxStream n (some (countedClean spread x s)) := by
  have hend : s.endOld n x = s := if_neg (by simp [h.notEnding])
  have hstream : boundaryStream spread x s = countedClean spread x s := by
    rw [boundaryStream, adaptMiss_of_noStep h.noStep (y := countedClean spread x s) _ h.noneMissed]
    exact keySwitched_of_none h.clearNext
  have hset : boundarySet n spread x s = s.setRxStream n (some (countedClean spread x s)) := by
    rw [boundarySet, hend, hstream, h.noSkew]
    rfl
  rw [boundaryAdapted, hset]
  split
  · exact adapt_of_noStep (s := s.setRxStream n _) h.noStep _
  · rfl

theorem PlainGroup.countedClean_eq (h : PlainGroup n spread x s) :
    countedClean spread x s = { x with cleanRun := if groupClean spread x s then x.cleanRun + 1 else 0 } := by
  rw [countedClean, h.noSkew]
  congr 1
  · exact h.notEnding.symm
  · exact h.inStep.symm

/-- Out of training a plain group with clean lanes counts on. -/
theorem PlainGroup.doGroupBoundary_clean (h : PlainGroup n spread x s)
    (hl : LanesClean x s)
    (ht : (s.rxDir x.cfg.bundle).phase = .none) :
    doGroupBoundary n spread s = s.setRxStream n (some { x with cleanRun := x.cleanRun + 1 }) := by
  have hlock : groupLocked x s = true := List.all_eq_true.mpr fun l hm => beq_iff_eq.mpr (hl l hm).1
  have hflag : groupFlagged x s = false := List.any_eq_false.mpr fun l hm => by simp [(hl l hm).2.1]
  have htrain : (s.rxDir x.cfg.bundle).training = false := by simp [RxDir.training, ht]
  have hrun : ((groupOf x s).all fun l => decide (1 ≤ l.cleanRun)) = true :=
    List.all_eq_true.mpr fun l hm => decide_eq_true (hl l hm).2.2
  have hlost : groupLost spread x s = false := by simp [groupLost, hlock, hflag, htrain, h.noSkew]
  have hclean : groupClean spread x s = true := by simp [groupClean, hlock, hflag, htrain, hrun, h.noSkew]
  rw [doGroupBoundary_of_found h.found, hlost, h.boundaryAdapted_eq, h.countedClean_eq, hclean]
  rfl

/-- A plain group of which a lane fails is withdrawn. -/
theorem PlainGroup.doGroupBoundary_lost (h : PlainGroup n spread x s)
    (hl : LanesFail x s) :
    doGroupBoundary n spread s = (s.setRxStream n (some { x with cleanRun := 0 })).withdraw n := by
  have hbad : groupLocked x s = false ∨ groupFlagged x s = true := hl.imp
    (fun ⟨l, hm, hn⟩ => List.all_eq_false.mpr ⟨l, hm, by simp [hn]⟩)
    (fun ⟨l, hm, hf⟩ => List.any_eq_true.mpr ⟨l, hm, hf⟩)
  have hlost : groupLost spread x s = true := by obtain hb | hb := hbad <;> simp [groupLost, hb]
  have hclean : groupClean spread x s = false := by obtain hb | hb := hbad <;> simp [groupClean, hb]
  rw [doGroupBoundary_of_found h.found, hlost, h.boundaryAdapted_eq, h.countedClean_eq, hclean]
  rfl

theorem groupBoundary_of_none (h : s.rxStream n = none) : groupBoundary n spread s = s := by
  have hd : doGroupBoundary n spread s = s := by
    unfold doGroupBoundary
    rw [h]
  have hk : s.rxKeyBoundary n false = s := by
    unfold State.rxKeyBoundary
    rw [h]
  have hp : s.present n = false := by
    unfold State.present
    rw [h]
  unfold groupBoundary
  simp [h, hd, hk, hp]

theorem rxKeyBoundary_of_clear (h : s.rxStream n = some x) (hc : x.crypt = none) : s.rxKeyBoundary n false = s := by
  unfold State.rxKeyBoundary
  rw [h]
  dsimp only
  rw [hc]
  rfl

/-- Without encryption the boundary is the group's own, and ends the frame of a stream that it withdraws (R83). -/
theorem groupBoundary_of_clear {y : RxStream} (h : PlainGroup n spread x s) (hy : (doGroupBoundary n spread s).rxStream n = some y)
    (hc : y.crypt = none) :
    groupBoundary n spread s =
      if x.present && !y.present then (doGroupBoundary n spread s).countMissing n else doGroupBoundary n spread s := by
  unfold groupBoundary
  simp [h.found, h.clearNext, rxKeyBoundary_of_clear hy hc, present_of_found hy, present_of_found h.found]

theorem withdraw_of_present (h : s.rxStream n = some x) (hp : x.present = true) :
    s.withdraw n = (((s.setRxStream n (some (absentNow x))).count 3 n 13).stopWriters n).rxEvent x.cfg.bundle := by
  unfold State.withdraw
  rw [h]
  exact if_pos hp

theorem withdraw_of_absent (h : s.rxStream n = some x) (hp : x.present = false) :
    s.withdraw n = s.setRxStream n (some { x with cleanRun := 0 }) := by
  unfold State.withdraw
  rw [h]
  exact if_neg (by simp [hp])

/-- A stream that is withdrawn stands as absent. -/
theorem withdraw_rxStream (hw : tblWf none s.rxStreams = true) (h : s.rxStream n = some x) (hp : x.present = true) :
    ∃ v, (s.withdraw n).rxStream n = some { absentNow x with views := v } := by
  rw [withdraw_of_present h hp, State.rxStream, rxEvent_rxStreams, stopWriters_rxStreams, count_rxStreams]
  exact rxStream_setRxStream hw _

theorem PlainGroup.groupBoundary_clean (h : PlainGroup n spread x s)
    (hl : LanesClean x s)
    (ht : (s.rxDir x.cfg.bundle).phase = .none) :
    groupBoundary n spread s = s.setRxStream n (some { x with cleanRun := x.cleanRun + 1 }) := by
  have hd := h.doGroupBoundary_clean hl ht
  obtain ⟨v, hv⟩ := rxStream_setRxStream (n := n) h.wf { x with cleanRun := x.cleanRun + 1 }
  have hy := (congrArg (·.rxStream n) hd).trans hv
  rw [groupBoundary_of_clear h hy h.clear, hd]
  exact if_neg (by simp)

theorem PlainGroup.groupBoundary_withdraws (h : PlainGroup n spread x s) (hp : x.present = true)
    (hl : LanesFail x s) :
    groupBoundary n spread s = ((s.setRxStream n (some { x with cleanRun := 0 })).withdraw n).countMissing n := by
  have hd := h.doGroupBoundary_lost hl
  obtain ⟨v, hv⟩ := rxStream_setRxStream (n := n) h.wf { x with cleanRun := 0 }
  obtain ⟨u, hu⟩ := withdraw_rxStream (setRxStream_wf h.wf _) hv hp
  have hy := (congrArg (·.rxStream n) hd).trans hu
  rw [groupBoundary_of_clear h hy h.clear, hd]
  exact if_pos (by simp [hp, absentNow])

/-- The boundary of an absent group that is lost ends its run alone. -/
theorem PlainGroup.groupBoundary_absent (h : PlainGroup n spread x s) (hp : x.present = false)
    (hl : LanesFail x s) :
    groupBoundary n spread s = s.setRxStream n (some { x with cleanRun := 0 }) := by
  obtain ⟨v, hv⟩ := rxStream_setRxStream (n := n) h.wf { x with cleanRun := 0 }
  have hd : doGroupBoundary n spread s = s.setRxStream n (some { x with cleanRun := 0 }) := by
    rw [h.doGroupBoundary_lost hl, withdraw_of_absent hv hp]
    exact setRxStream_again h.wf hv
  have hy := (congrArg (·.rxStream n) hd).trans hv
  rw [groupBoundary_of_clear h hy h.clear, hd]
  exact if_neg (by simp [hp])

end Boundary

/-! ### SUPERFRAME_CRC_RESULT (R82, R103) -/

/-- The superframe of every lane of the group is held, and not yet delivered. -/
def GroupHeld (x : RxStream) (s : State) : Prop := ∀ l ∈ groupOf x s, l.held.isSome = true ∧ l.delivered = false

section CrcResult

variable {s : State} {n : Nat} {x : RxStream}

theorem not_groupHeld_iff : (!(groupOf x s).all fun l => l.held.isSome && !l.delivered) = true ↔ ¬GroupHeld x s := by
  simp [GroupHeld]

/-- The lanes' superframes are delivered. -/
def groupDelivered (x : RxStream) (s : State) : State :=
  s.setRx x.cfg.bundle { s.rxDir x.cfg.bundle with lanes := mapAt (dropHeld (groupLanes x.cfg)) 0 (s.rxDir x.cfg.bundle).lanes }

theorem doCrcResult_of_none (h : s.rxStream n = none) : doCrcResult n s = s := by
  unfold doCrcResult
  rw [h]

theorem doCrcResult_of_unheld (h : s.rxStream n = some x) (hn : ¬GroupHeld x s) :
    doCrcResult n s = s := by
  unfold doCrcResult
  rw [h]
  exact if_pos (not_groupHeld_iff.mpr hn)

theorem doCrcResult_of_absent (h : s.rxStream n = some x) (ha : GroupHeld x s)
    (hp : x.present = false) : doCrcResult n s = groupDelivered x s := by
  unfold doCrcResult
  rw [h]
  exact (if_neg fun hn => not_groupHeld_iff.mp hn ha).trans (if_pos (by simp [hp]))

/-- The packets of the group's superframes as they arrived, and whether one ran beyond them. -/
def groupRaw (x : RxStream) (s : State) : List LanePacket × Bool :=
  parsePackets (1 + (groupSymbolsOf (groupPayload (groupOf x s))).length) (4087 * x.cfg.g) 0 (groupSymbolsOf (groupPayload (groupOf x s)))

/-- The LANE_IDs that the group's lanes expect. -/
def groupIds (x : RxStream) (s : State) : List Nat := (groupLanes x.cfg).map ((s.rxDir x.cfg.bundle).expected x.cfg.bundle)

/-- The key that deciphers the group, unless its slot is dead (R438, R441). -/
def groupKey (x : RxStream) (s : State) : Option Nat :=
  match x.crypt with
  | some k => if x.keyDead then none else some (s.slot k).key
  | none => none

/-- The packets deciphered (R438). -/
def groupPackets (x : RxStream) (s : State) : List LanePacket :=
  (groupRaw x s).1.map (decipher (groupKey x s) x.cfg.g (groupIds x s) ((groupOf x s).map fun l => (l.held.map (·.sfc)).getD 0))

/-- When symbol `j` of the group arrived, counted from the arrival of its latest lane (R97). -/
def groupTimes (x : RxStream) (s : State) (j : Nat) : Tick :=
  let need := ((groupPackets x s).map fun p => p.at_ + 1 + p.length).foldl max 0
  let times := ((groupOf x s).zip (groupIds x s)).map fun e =>
    laneTimes (s.rxDir x.cfg.bundle).rate e.2 (ceilDiv need x.cfg.g) (((groupOf x s).map (·.arrival)).foldl max 0) e.1
  (times.getD (j % x.cfg.g) []).getD (j / x.cfg.g) s.now

/-- The CRC of every lane of the group passes. -/
def groupGood (x : RxStream) (s : State) : Bool := (groupOf x s).all fun l => (l.held.map (·.crcOk)).getD false

/-- The packets `ps` at the Headrace. -/
def headPackets (n : Nat) (times : Nat → Tick) (good : Bool) (ps : List LanePacket) (s : State) : State :=
  ps.foldl (fun u p => u.headPacket n times good p) s

/-- Bad packets that a CUT path sent on are counted and reported (R103). -/
def badReported (n : Nat) (x : RxStream) (raw : List LanePacket) (u : State) : State :=
  if (raw.any fun p => p.typ == 1 || p.typ == 3) && (u.fedBy n).any fun e => passes e.1 e.2 then
    (u.count 3 n 12).rxEvent x.cfg.bundle
  else u

/-- Bad packets of a picture or its marker spoil the frame in progress. -/
def badSpoils (n : Nat) (good : Bool) (raw : List LanePacket) (u : State) : State :=
  if !good && raw.any fun p => p.typ == 1 || (p.typ == 2 && p.tag == 0) then
    u.setRxStream n ((u.rxStream n).map fun y => { y with frameGood := false, fieldGood := false })
  else u

/-- A superframe with a packet that runs beyond it, or with a CRC that fails, is counted (R82, R103). -/
def crcCounted (n : Nat) (x : RxStream) (s : State) (good : Bool) : State :=
  if good then (if (groupRaw x s).2 then s.count 3 n 1 else s) else s.count 3 n 0

/-- What a present stream's packets bring, where every CRC passes and where one fails. -/
def packetsDelivered (n : Nat) (x : RxStream) (s : State) (good : Bool) : State :=
  let u := headPackets n (groupTimes x s) good (groupPackets x s) (crcCounted n x s good)
  badSpoils n good (groupRaw x s).1 (if good then u else badReported n x (groupRaw x s).1 u)

theorem doCrcResult_of_present (h : s.rxStream n = some x) (ha : GroupHeld x s)
    (hp : x.present = true) : doCrcResult n s = groupDelivered x (packetsDelivered n x s (groupGood x s)) := by
  unfold doCrcResult
  rw [h]
  refine (if_neg fun hn => not_groupHeld_iff.mp hn ha).trans ((if_neg (by simp [hp])).trans ?_)
  rfl

theorem groupKey_eq : groupKey x s = x.crypt.bind fun k => if x.keyDead then none else some (s.slot k).key := by
  unfold groupKey
  cases x.crypt <;> rfl

/-- A packet of a superframe whose CRC fails is passed over, unless a CUT path has sent its type on (R103). -/
theorem headPacket_of_bad {times : Nat → Tick} {p : LanePacket} (h : (p.typ == 1 || p.typ == 3) = false) :
    s.headPacket n times false p = s := by
  simp only [Bool.or_eq_false_iff, beq_eq_false_iff_ne] at h
  unfold State.headPacket
  split
  · rfl
  · exact absurd ‹_› h.1
  · rfl
  · exact absurd ‹_› h.2
  · rfl
  · rfl
  · rfl

/-- Where a CRC fails, the packets of types VID and ANC are all that the Headrace takes. -/
theorem headPackets_bad (times : Nat → Tick) (ps : List LanePacket) (s : State) :
    headPackets n times false ps s = (ps.filter fun p => p.typ == 1 || p.typ == 3).foldl (fun u p => u.headPacket n times false p) s := by
  rw [List.foldl_filter, headPackets]
  congr 1
  funext u p
  split
  · rfl
  · exact headPacket_of_bad (Bool.eq_false_iff.mpr ‹_›)

theorem groupGood_iff : groupGood x s = true ↔ ∀ l ∈ groupOf x s, (l.held.map (·.crcOk)).getD false = true := List.all_eq_true

theorem doCrcResult_good (h : s.rxStream n = some x) (ha : GroupHeld x s)
    (hp : x.present = true) (hg : ∀ l ∈ groupOf x s, (l.held.map (·.crcOk)).getD false = true) :
    doCrcResult n s = groupDelivered x
      (headPackets n (groupTimes x s) true (groupPackets x s) (if (groupRaw x s).2 then s.count 3 n 1 else s)) := by
  rw [doCrcResult_of_present h ha hp, groupGood_iff.mpr hg]
  rfl

theorem doCrcResult_bad (h : s.rxStream n = some x) (ha : GroupHeld x s)
    (hp : x.present = true) (hg : ¬∀ l ∈ groupOf x s, (l.held.map (·.crcOk)).getD false = true) :
    doCrcResult n s = groupDelivered x (badSpoils n false (groupRaw x s).1 (badReported n x (groupRaw x s).1
      (((groupPackets x s).filter fun p => p.typ == 1 || p.typ == 3).foldl (fun u p => u.headPacket n (groupTimes x s) false p)
        (s.count 3 n 0)))) := by
  rw [doCrcResult_of_present h ha hp, Bool.eq_false_iff.mpr (mt groupGood_iff.mp hg), ← headPackets_bad]
  rfl

end CrcResult

/-- Settles O23: presence and age by their conditions, the boundary by whether the group is lost, the delivery by presence and CRC. -/
theorem groupAndDelivery : Obligations.GroupAndDelivery := by
  refine ⟨?_, ?_⟩
  · intro s t n spread x lanes noStep inStep wasLocked plain
    have hplain {w : State} (h : plain w) : PlainGroup n spread x w := by
      obtain ⟨hx, he, hc, hcn, hm, hk, ⟨hn, hv⟩, hs, hw⟩ := h
      exact ⟨hx, he, hc, hcn, hm, hk, hn, hv, hs, hw⟩
    refine ⟨?_, ?_, ?_, ?_, ?_, ?_, ?_, ?_, ?_, ?_⟩
    · exact events_of_onEvent rfl fun w _ ⟨hx, hp, hc, hk⟩ => doStreamPresent_becomes hx hp hc hk
    · exact events_of_onEvent rfl fun w _ ⟨hx, hn⟩ => doStreamPresent_stays hx hn
    · exact events_of_onEvent rfl fun w _ hx => doStreamPresent_of_none hx
    · exact events_of_onEvent rfl fun w _ ⟨h, hl, ht⟩ => (hplain h).groupBoundary_clean hl ht
    · exact events_of_onEvent rfl fun w _ ⟨h, hp, hl⟩ => (hplain h).groupBoundary_withdraws hp hl
    · exact events_of_onEvent rfl fun w _ ⟨h, hp, hl⟩ => (hplain h).groupBoundary_absent hp hl
    · exact events_of_onEvent rfl fun w _ hx => groupBoundary_of_none hx
    · exact events_of_onEvent rfl fun w _ ⟨hx, hm, hp, hs, ht⟩ => doInputStale_expires hx hm hp hs ht
    · exact events_of_onEvent rfl fun w _ ⟨hx, hn⟩ => doInputStale_stays hx hn
    · exact events_of_onEvent rfl fun w _ hx => doInputStale_of_none hx
  · intro s t n x ks lanes clear raw ids key ps times allHeld allGood
    have hps (w : State) : groupPackets x w = ps w := by
      rw [groupPackets, groupKey_eq]
      rfl
    have htimes (w : State) : groupTimes x w = times w := by
      funext j
      rw [groupTimes, hps]
      rfl
    refine ⟨?_, ?_, ?_, ?_, ?_⟩
    · exact events_of_onEvent rfl fun w _ hx => doCrcResult_of_none hx
    · exact events_of_onEvent rfl fun w _ ⟨hx, hn⟩ => doCrcResult_of_unheld hx hn
    · exact events_of_onEvent rfl fun w _ ⟨hx, ha, hp⟩ => doCrcResult_of_absent hx ha hp
    · refine events_of_onEvent rfl fun w _ ⟨hx, ha, hp, hg⟩ => ?_
      rw [doCrcResult_good hx ha hp hg, htimes, hps]
      rfl
    · refine events_of_onEvent rfl fun w _ ⟨hx, ha, hp, hg⟩ => ?_
      rw [doCrcResult_bad hx ha hp hg, htimes, hps]
      rfl

end Sys2Proof.Laws
end

section
/-! Embedded audio and the service of destination channels (chapter 11): what each event does, case by case. -/

namespace Sys2Proof.Laws

open Sys2Proof.Machine Sys2Proof.Claims

variable {s : State} {c n : Nat} {d : DstInfo}

/-! ### DESTINATION_BLOCK_SERVICE (R287, R320) -/

/-- Destination `c` served up to the last sample whose time has come. -/
def servedNow (c : Nat) (d : DstInfo) (s : State) : State := s.serveTo c (s.dueSample d)

/-- The block of destination `c` in which that sample stands. -/
def servedBlock (d : DstInfo) (s : State) : Nat := d.blockOf (d.zero + s.dueSample d * samplePeriod d.rate)

/-- A LEAD has told its partner whether that block is in underrun. -/
def servedAndTold (c : Nat) (d : DstInfo) (s : State) : State :=
  (servedNow c d s).emit (.brinen 7 [0, c, servedBlock d s, if ((servedNow c d s).dst c).under = 0 then 0 else 1])

theorem sendLeat_of_lead (h : s.isLead = true) (body : List Nat) : s.sendLeat body = s.emit (.brinen 7 body) := if_pos h

theorem sendLeat_of_other (h : s.isLead = false) (body : List Nat) : s.sendLeat body = s := if_neg (by simp [h])

theorem doBlockService_of_absent (hd : s.dstInfo c = none) : doBlockService c s = s := by
  unfold doBlockService
  rw [hd]

/-- The converter that feeds destination `c`. -/
def feederOf (c : Nat) (s : State) : Option (Nat × Asrc) := (s.dst c).route.bind fun r => s.asrcOf r.src

/-- What is sent of the converter that feeds destination `c`, for its block `k`. -/
def converterSent (c k : Nat) (s : State) : State :=
  match feederOf c s with
  | some (g, a) => s.sendLeat [2, g, k, asrcCode a.st, encInt 64 a.per, encInt 64 a.phase]
  | none => s

theorem converterSent_of_none {k : Nat} (hf : feederOf c s = none) : converterSent c k s = s := by
  unfold converterSent
  rw [hf]

theorem converterSent_of_other {k : Nat} (h : s.isLead = false) : converterSent c k s = s := by
  unfold converterSent
  split
  · exact sendLeat_of_other h _
  · rfl

theorem converterSent_of_lead {k g : Nat} {a : Asrc} (h : s.isLead = true)
    (hf : feederOf c s = some (g, a)) :
    converterSent c k s = s.emit (.brinen 7 [2, g, k, asrcCode a.st, encInt 64 a.per, encInt 64 a.phase]) := by
  unfold converterSent
  rw [hf]
  exact sendLeat_of_lead h _

/-- Out of sleep the destination is served, and what a LEAD decided is sent, the converter's state after it. -/
theorem doBlockService_of_awake (hd : s.dstInfo c = some d) (hq : s.sys.quiet ≠ .asleep) :
    doBlockService c s = converterSent c (servedBlock d s)
      ((servedNow c d s).sendLeat [0, c, servedBlock d s, b2n (((servedNow c d s).dst c).under != 0)]) := by
  unfold doBlockService
  rw [hd]
  exact if_neg hq

/-- A member that is no LEAD serves and sends nothing. -/
theorem doBlockService_of_other (hd : s.dstInfo c = some d) (hq : s.sys.quiet ≠ .asleep) (hl : (servedNow c d s).isLead = false) :
    doBlockService c s = servedNow c d s := by
  rw [doBlockService_of_awake hd hq, sendLeat_of_other hl, converterSent_of_other hl]

theorem sendLeat_underrun (hl : (servedNow c d s).isLead = true) :
    (servedNow c d s).sendLeat [0, c, servedBlock d s, b2n (((servedNow c d s).dst c).under != 0)] = servedAndTold c d s := by
  rw [sendLeat_of_lead hl, servedAndTold]
  by_cases h : ((servedNow c d s).dst c).under = 0 <;> simp [b2n, h]

/-- A LEAD whose destination no converter feeds tells of the block alone. -/
theorem doBlockService_of_lead (hd : s.dstInfo c = some d) (hq : s.sys.quiet ≠ .asleep) (hl : (servedNow c d s).isLead = true)
    (hf : feederOf c (servedAndTold c d s) = none) :
    doBlockService c s = servedAndTold c d s := by
  rw [doBlockService_of_awake hd hq, sendLeat_underrun hl, converterSent_of_none hf]

/-- A LEAD whose destination a converter feeds tells of the converter too. -/
theorem doBlockService_of_converter {g : Nat} {a : Asrc} (hd : s.dstInfo c = some d) (hq : s.sys.quiet ≠ .asleep)
    (hl : (servedNow c d s).isLead = true)
    (hf : feederOf c (servedAndTold c d s) = some (g, a)) :
    doBlockService c s =
      (servedAndTold c d s).emit (.brinen 7 [2, g, servedBlock d s, asrcCode a.st, encInt 64 a.per, encInt 64 a.phase]) := by
  rw [doBlockService_of_awake hd hq, sendLeat_underrun hl, converterSent_of_lead (s := servedAndTold c d s) hl hf]

/-! ### UNDERRUN_HOLD_EXPIRE (R295) -/

theorem doHoldExpire_long (hd : s.dstInfo c = some d) (hu : rateFs d.rate / 50 ≤ (s.dst c).under) (hz : (s.dst c).zeroing = none)
    (hh : (s.dst c).heldZero = false) : doHoldExpire c s = s.setDst c { s.dst c with zeroing := some 0 } := by
  unfold doHoldExpire
  rw [hd]
  exact if_pos (by simp [hu, hz, hh])

theorem doHoldExpire_short (hd : s.dstInfo c = some d) (hu : (s.dst c).under < rateFs d.rate / 50) : doHoldExpire c s = s := by
  unfold doHoldExpire
  rw [hd]
  exact if_neg (by simp [Nat.not_le.mpr hu])

/-! ### EMBED_BLOCK_SEND (R303) -/

/-- A block that is not sent moves nothing through the delay lines. -/
theorem embedSends_of_unsent (h : doEmbedSend n s = s) : embedSends n s = s := by
  unfold embedSends
  dsimp only
  rw [h, if_pos rfl]

theorem embedSends_of_sent (h : ((doEmbedSend n s).embed n).sent ≠ (s.embed n).sent) :
    embedSends n s = ((doEmbedSend n s).someTraffic 5842 0).someTraffic 5842 1 := if_neg h

theorem doEmbedSend_of_unbound (hp : (s.embed n).p = none) : doEmbedSend n s = s := by
  unfold doEmbedSend
  rw [hp]

/-- Whether EMBED_BLOCK_SEND finds nothing to send. -/
theorem noBlock_iff (p : AudioEmbedP) :
    (decide (s.dueBlock n p < s.nextBlock n p) || (s.txStream n).isNone || decide (s.sys.quiet = .asleep)) = true ↔
      s.dueBlock n p < s.nextBlock n p ∨ s.txStream n = none ∨ s.sys.quiet = .asleep := by
  simp [or_assoc]

theorem doEmbedSend_of_idle {p : AudioEmbedP} (hp : (s.embed n).p = some p)
    (hi : s.dueBlock n p < s.nextBlock n p ∨ s.txStream n = none ∨ s.sys.quiet = .asleep) : doEmbedSend n s = s := by
  unfold doEmbedSend
  rw [hp]
  exact if_pos ((noBlock_iff p).mpr hi)

/-- Settles O31: the service by who decides, the hold by its length, the block by whether one is due and sent. -/
theorem audioServiceRows : Obligations.AudioServiceRows := by
  intro s t c n g d p a v served next b chan nch ready sample lead side all packet drawn since offset sent idle block told from_
  refine ⟨?_, ?_, ?_, ?_, ?_, ?_, ?_, ?_, ?_⟩
  · exact events_of_onEvent rfl fun w _ ⟨hd, hq, hl⟩ => doBlockService_of_other hd hq hl
  · exact events_of_onEvent rfl fun w _ ⟨hd, hq, hl, hf⟩ => doBlockService_of_lead hd hq hl hf
  · exact events_of_onEvent rfl fun w _ ⟨hd, hq, hl, hf⟩ => doBlockService_of_converter hd hq hl hf
  · exact events_of_onEvent rfl fun w _ hd => doBlockService_of_absent hd
  · exact events_of_onEvent rfl fun w _ ⟨hd, hu, hz, hh⟩ => doHoldExpire_long hd hu hz hh
  · exact events_of_onEvent rfl fun w _ ⟨hd, hu⟩ => doHoldExpire_short hd hu
  · exact events_of_onEvent rfl fun w _ hp => embedSends_of_unsent (doEmbedSend_of_unbound hp)
  · exact events_of_onEvent rfl fun w _ ⟨hp, hi⟩ => embedSends_of_unsent (doEmbedSend_of_idle hp hi)
  · refine events_of_onEvent rfl fun w _ ⟨hp, hv, hi, hs⟩ => ?_
    -- The statement's `ready`, `all` and `offset` are the model's own, at the group `v` that the output has.
    have hsend : doEmbedSend n w = sent w := by
      unfold doEmbedSend
      rw [hp]
      refine (if_neg (mt (noBlock_iff p).mp hi)).trans ?_
      rw [hv]
      rfl
    rw [embedSends_of_sent (by rwa [hsend]), hsend]

end Sys2Proof.Laws
end

section
/-! The lane receiver (chapter 4): how a lane moves between the states of Table 4.5, and what a superframe does to it. -/

namespace Sys2Proof.Laws

open Sys2Proof.Machine Sys2Proof.Claims

/-! ### Rows of a lane and of a direction -/

/-- The lanes of a direction are numbered from zero. -/
theorem lanesOf_contains {b k : Nat} (hk : k < if b = 64 then 4 else 8) : (lanesOf b).contains k = true := by
  simp [lanesOf, hk]

section LaneRows

variable {s : State} {t : Tick} {i : Instr} {b k : Nat} {ok : State → Prop} {f eff : State → State}

/-- An event row of a lane that exists has the effect of its event, and the link settles (R382). -/
theorem events_of_onLane (hk : k < if b = 64 then 4 else 8) (hx : exec i s = .next (onEvent (Machine.onLane b k f) (s.enter t)))
    (hf : ∀ w, ok w → f w = eff w) : Events s t i ok fun w => (eff w).settleLink :=
  events_of_onEvent hx fun w _ hok => (if_pos (lanesOf_contains hk)).trans (congrArg State.settleLink (hf w hok))

/-- An event row of a direction that exists has the effect of its event, and the link settles. -/
theorem events_of_onDir (hb : b < 65) (hx : exec i s = .next (onEvent (Machine.onDir b f) (s.enter t)))
    (hf : ∀ w, ok w → f w = eff w) : Events s t i ok fun w => (eff w).settleLink :=
  events_of_onEvent hx fun w _ hok => (if_pos hb).trans (congrArg State.settleLink (hf w hok))

end LaneRows

/-! ### A lane moves (R98, R100) -/

section LaneMoves

variable {s : State} {b k : Nat}

/-- Lane `k` of bundle `b` in state `st`, which it entered now. -/
def moved (b k : Nat) (st : LaneSt) (s : State) : State :=
  s.setRxLane b k { (rxLaneOf (s.rxDir b) k).moveTo st with stWas := (rxLaneOf (s.rxDir b) k).stBefore s.now, stT := s.now }

/-- A move that does not leave LOCKED sets the lane alone. -/
theorem laneTo_of_moved {st : LaneSt} (h : (rxLaneOf (s.rxDir b) k).st ≠ .locked ∨ st = .locked) : s.laneTo b k st = moved b k st s := by
  refine if_neg ?_
  rcases h with h | h <;> simp [h]

/-- An exit from LOCKED is counted and raises the bundle's event (R100). -/
theorem laneTo_of_exit {st : LaneSt} (h : (rxLaneOf (s.rxDir b) k).st = .locked) (hs : st ≠ .locked) :
    s.laneTo b k st = ((moved b k st s).count 1 (laneUnit b k) 7).rxEvent b :=
  if_pos (by simp [h, hs])

theorem doExactComma_of_hunt (h : (rxLaneOf (s.rxDir b) k).st = .hunt) : doExactComma b k s = moved b k .confirm s :=
  (if_pos h).trans (laneTo_of_moved (.inl (by simp [h])))

theorem doExactComma_of_other (h : (rxLaneOf (s.rxDir b) k).st ≠ .hunt) : doExactComma b k s = s := if_neg h

theorem doEnterSeed_of_confirmed (h : (rxLaneOf (s.rxDir b) k).st = .confirm) (hc : 3 ≤ (rxLaneOf (s.rxDir b) k).confirms) :
    doEnterSeed b k s = moved b k .seed s :=
  (if_pos (by simp [h, hc])).trans (laneTo_of_moved (.inl (by simp [h])))

/-- A confirmed seed locks the lane; the reuse of its key is judged, and ACQUIRE may end (R99, R440). -/
theorem doEnterLocked_of_seed (h : (rxLaneOf (s.rxDir b) k).st = .seed) (ho : (rxLaneOf (s.rxDir b) k).seedOk = true) :
    doEnterLocked b k s = ((moved b k .locked s).leaveIdle ((s.rxDir b).expected b k)
      ((s.rxStreams.find? fun e => e.2.any fun x => x.cfg.bundle == b && (groupLanes x.cfg).contains k).bind
        fun e => e.2.bind (·.crypt))).maybeFir b := by
  rw [← laneTo_of_moved (.inr rfl)]
  exact if_pos (by simp [h, ho])

theorem doMisconnection_of_run (h : (rxLaneOf (s.rxDir b) k).st = .seed) (hr : 16 ≤ (rxLaneOf (s.rxDir b) k).seedRun)
    (ho : (rxLaneOf (s.rxDir b) k).seedOk = false) :
    doMisconnection b k s = (s.setRxLane b k { rxLaneOf (s.rxDir b) k with seedRun := 0 }).rxEvent b :=
  if_pos (by simp [h, hr, ho])

theorem doLossOfLock_of_seed (h : (rxLaneOf (s.rxDir b) k).st = .seed) (hm : 2 ≤ (rxLaneOf (s.rxDir b) k).missRun) :
    doLossOfLock b k s = moved b k .hunt s :=
  (if_pos (by simp [h, hm])).trans (laneTo_of_moved (.inl (by simp [h])))

theorem doLossOfLock_of_locked (h : (rxLaneOf (s.rxDir b) k).st = .locked)
    (hr : 2 ≤ (rxLaneOf (s.rxDir b) k).missRun ∨ 4 ≤ (rxLaneOf (s.rxDir b) k).crcRun ∨ 2 ≤ (rxLaneOf (s.rxDir b) k).sfcRun) :
    doLossOfLock b k s = ((moved b k .hunt s).count 1 (laneUnit b k) 7).rxEvent b :=
  (if_pos (by simp [h, hr, or_assoc])).trans (laneTo_of_exit h (by decide))

/-- Runs shorter than those of Table 4.5 leave a LOCKED lane as it is. -/
theorem doLossOfLock_of_short (h : (rxLaneOf (s.rxDir b) k).st = .locked) (hm : (rxLaneOf (s.rxDir b) k).missRun < 2)
    (hc : (rxLaneOf (s.rxDir b) k).crcRun < 4) (hs : (rxLaneOf (s.rxDir b) k).sfcRun < 2) : doLossOfLock b k s = s :=
  if_neg (by simp [h, hm, hc, hs])

end LaneMoves

/-- Settles O21: each move of Table 4.5 from the condition that brings it about. -/
theorem laneReceiverMoves : Obligations.LaneReceiverMoves := by
  intro s t b k hb hk at_ lane moved'
  refine ⟨?_, ?_, ?_, ?_, ?_, ?_, ?_, ?_⟩
  · exact events_of_onLane hk rfl fun w h => doExactComma_of_hunt h
  · exact events_of_onLane hk rfl fun w h => doExactComma_of_other h
  · exact events_of_onLane hk rfl fun w ⟨h, hc⟩ => doEnterSeed_of_confirmed h hc
  · exact events_of_onLane hk rfl fun w ⟨h, ho⟩ => doEnterLocked_of_seed h ho
  · exact events_of_onLane hk rfl fun w ⟨h, hr, ho⟩ => doMisconnection_of_run h hr ho
  · exact events_of_onLane hk rfl fun w ⟨h, hm⟩ => doLossOfLock_of_seed h hm
  · exact events_of_onLane hk rfl fun w ⟨h, hr⟩ => doLossOfLock_of_locked h hr
  · exact events_of_onLane hk rfl fun w ⟨h, hm, hc, hs⟩ => doLossOfLock_of_short h hm hc hs

/-! ### SUPERFRAME_RECEIVE (R96, R98 to R100, R113, R121, R122, R125, R383) -/

/-- What a superframe on lane `k` adds to its counters, with the line symbols and the SFC errors that count where a SFC is predicted. -/
def countedFrame (b k : Nat) (f : Superframe) (symbols sfcErrors : Nat) (s : State) : State :=
  let u := laneUnit b k
  ((((((s.count 1 u 0 symbols).count 1 u 1 f.stuffBits).count 1 u 2 f.violations).count 1 u 3 (if f.crcOk then 0 else 1)).count 1 u 4
    (if f.comma = 1 ∨ f.comma = 2 then 1 else 0)).count 1 u 5 (if 2 < f.comma then 1 else 0)).count 1 u 6 sfcErrors

theorem b2n_not (c : Bool) : b2n (!c) = if c then 0 else 1 := by cases c <;> rfl

theorem b2n_decide (p : Prop) [Decidable p] : b2n (decide p) = if p then 1 else 0 := by
  by_cases h : p <;> simp [b2n, h]

theorem countLane_seeding (s : State) (b k : Nat) (f : Superframe) (e : Nat) : s.countLane b k f false e = countedFrame b k f 0 0 s := by
  simp only [State.countLane, countedFrame, b2n_not, b2n_decide, Bool.false_eq_true, if_false, Bool.false_and]
  rfl

theorem countLane_locked (s : State) (b k : Nat) (f : Superframe) (e : Nat) :
    s.countLane b k f true e = countedFrame b k f 4096 (if f.sfc = e then 0 else 1) s := by
  have he : b2n (f.sfc != e) = if f.sfc = e then 0 else 1 := by by_cases h : f.sfc = e <;> simp [b2n, h]
  simp only [State.countLane, countedFrame, b2n_not, b2n_decide, if_true, Bool.true_and, he]

section ReceivedFrame

variable {s : State} {b k : Nat} {sf f : Superframe}

/-- The direction adapts where a step is due: throughout FIR, and for a lane outside every present stream (R113, R121). -/
def adaptedFor (b k : Nat) (f : Superframe) (s : State) : State :=
  if (s.rxDir b).phase = .fir then s.adaptFir b k
  else if f.adaptDue && (s.rxDir b).adapt && !s.inPresent b k then s.adaptLane b k else s

/-- A superframe on a lane that was LOCKED: it is counted, judged and handed on, and SLEEP takes the direction to IDLE (R100, R122, R125). -/
def receivedLocked (b k : Nat) (f : Superframe) (s : State) : State :=
  let l := rxLaneOf (s.rxDir b) k
  let u := ((countedFrame b k f 4096 (if f.sfc = (l.sfc + 1) % 2 ^ 32 then 0 else 1) s).setRxLane b k
    (superframeLane (s.rxDir b) b k f s.now l)).loopIn b k f
  if f.crcOk = true ∧ f.sleep = true then u.lanesIdle b else u

theorem doSuperframe_of_none (h : s.arriving b k sf = none) : doSuperframe b k sf s = s := by
  unfold doSuperframe
  rw [h]

/-- Outside SEED and LOCKED a superframe is not counted. -/
theorem doSuperframe_of_uncounted (h : s.arriving b k sf = some f) (hl : (rxLaneOf (s.rxDir b) k).st ≠ .locked)
    (hs : (rxLaneOf (s.rxDir b) k).st ≠ .seed) :
    doSuperframe b k sf s = s.setRxLane b k (superframeLane (s.rxDir b) b k f s.now (rxLaneOf (s.rxDir b) k)) := by
  unfold doSuperframe
  rw [h]
  simp [hl, hs]

theorem doSuperframe_of_seed (h : s.arriving b k sf = some f) (hs : (rxLaneOf (s.rxDir b) k).st = .seed) :
    doSuperframe b k sf s =
      (countedFrame b k f 0 0 s).setRxLane b k (superframeLane (s.rxDir b) b k f s.now (rxLaneOf (s.rxDir b) k)) := by
  unfold doSuperframe
  rw [h]
  have hn : (LaneSt.seed == LaneSt.locked) = false := rfl
  simp [hs, hn, countLane_seeding]

theorem doSuperframe_of_locked (h : s.arriving b k sf = some f) (hl : (rxLaneOf (s.rxDir b) k).st = .locked) :
    doSuperframe b k sf s = receivedLocked b k f (adaptedFor b k f s) := by
  unfold doSuperframe
  rw [h]
  simp [hl, receivedLocked, adaptedFor, countLane_locked]

/-- A lane that is not LOCKED tells nothing of the partner. -/
theorem laneReceives_of_unlocked (hl : (rxLaneOf (s.rxDir b) k).st ≠ .locked) : laneReceives b k sf s = doSuperframe b k sf s := by
  simp [laneReceives, hl]

theorem laneReceives_of_none (h : s.arriving b k sf = none) : laneReceives b k sf s = s := by
  simp [laneReceives, h, doSuperframe_of_none h]

/-- A LOCKED lane of the Brinen link reads the partner's fields (R383). -/
theorem laneReceives_of_locked (h : s.arriving b k sf = some f) (hl : (rxLaneOf (s.rxDir b) k).st = .locked) :
    laneReceives b k sf s =
      let u := receivedLocked b k f (adaptedFor b k f s)
      if b = 64 then u.brinenHeader f else u := by
  have hd := doSuperframe_of_locked h hl
  by_cases hb : b = 64
  · subst hb
    simp [laneReceives, hl, h, hd]
  · simp [laneReceives, hb, hd]

theorem adaptedFor_of_fir (h : (s.rxDir b).phase = .fir) : adaptedFor b k f s = s.adaptFir b k := if_pos h

theorem adaptedFor_of_due (hn : ¬(s.rxDir b).phase = .fir) (hd : f.adaptDue = true ∧ (s.rxDir b).adapt = true ∧ s.inPresent b k = false) :
    adaptedFor b k f s = s.adaptLane b k :=
  (if_neg hn).trans (if_pos (by simp [hd]))

theorem adaptedFor_of_none (hn : ¬(s.rxDir b).phase = .fir)
    (hd : ¬(f.adaptDue = true ∧ (s.rxDir b).adapt = true ∧ s.inPresent b k = false)) : adaptedFor b k f s = s :=
  (if_neg hn).trans (if_neg (by simpa [and_assoc] using hd))

end ReceivedFrame

section SuperframeLane

variable {d : RxDir} {b k : Nat} {f : Superframe} {now : Tick} {l : RxLane}

/-- A lane in IDLE, HUNT or TEST takes nothing from a superframe. -/
theorem superframeLane_of_resting (h : l.st = .idle ∨ l.st = .hunt ∨ l.st = .test) : superframeLane d b k f now l = l := by
  unfold superframeLane
  rcases h with h | h | h <;> rw [h]

theorem superframeLane_of_confirm (h : l.st = .confirm) :
    superframeLane d b k f now l = if f.comma = 0 then { l with confirms := l.confirms + 1 } else l.moveTo .hunt := by
  unfold superframeLane
  rw [h]

theorem superframeLane_of_seed (h : l.st = .seed) :
    superframeLane d b k f now l =
      let ok := f.crcOk && f.laneId == d.expected b k
      { l with missRun := if 2 < f.comma then l.missRun + 1 else 0, seedRun := l.seedRun + 1,
               seedSfc := if ok then some f.sfc else none,
               seedOk := ok && l.seedSfc == some ((f.sfc + 2 ^ 32 - 1) % 2 ^ 32), sfc := f.sfc } := by
  unfold superframeLane
  rw [h]

/-- The errors of a dwell that a superframe brings (R113). -/
theorem dwellErrors_eq (f : Superframe) :
    dwellErrors f = if f.crcOk = true ∧ f.comma ≤ 2 then total ones f.payload else 81740 := by
  simp [dwellErrors]

theorem superframeLane_of_locked (h : l.st = .locked) :
    superframeLane d b k f now l =
      let e := (l.sfc + 1) % 2 ^ 32
      { l with
        missRun := if 2 < f.comma then l.missRun + 1 else 0, crcRun := if f.crcOk then 0 else l.crcRun + 1,
        sfcRun := if f.sfc = e then 0 else l.sfcRun + 1, sfc := e,
        cleanRun := if f.withdrawn then 0 else l.cleanRun + 1, withdrawn := f.withdrawn, bcIn := if f.crcOk then f.bc else l.bcIn,
        held := some f, delivered := false, arrival := now - superframeTicks d.rate,
        dwell := l.dwell + (if f.crcOk = true ∧ f.comma ≤ 2 then total ones f.payload else 81740), dwellN := l.dwellN + 1 } := by
  rw [← dwellErrors_eq]
  unfold superframeLane
  rw [h]

end SuperframeLane

/-- In CONFIRM an exact comma counts, and any other sends the lane back to HUNT (R98). -/
theorem laneReceives_of_confirm {s : State} {b k : Nat} {sf f : Superframe} (h : s.arriving b k sf = some f)
    (hc : (rxLaneOf (s.rxDir b) k).st = .confirm) :
    laneReceives b k sf s = s.setRxLane b k
      (if f.comma = 0 then { rxLaneOf (s.rxDir b) k with confirms := (rxLaneOf (s.rxDir b) k).confirms + 1 }
        else (rxLaneOf (s.rxDir b) k).moveTo .hunt) := by
  have hl : (rxLaneOf (s.rxDir b) k).st ≠ .locked := by simp [hc]
  rw [laneReceives_of_unlocked hl, doSuperframe_of_uncounted h hl (by simp [hc]), superframeLane_of_confirm hc]

/-- Settles O22: a superframe by the state of its lane, and in LOCKED by the step of adaptation that comes first. -/
theorem superframeOnLane : Obligations.SuperframeOnLane := by
  intro s t b k sf f hb hk at_ lane partner miss good counted locked ends fir due gets
  have hends {w : State} (hl : (lane w).st = .locked) : receivedLocked b k f w = ends w := by
    rw [receivedLocked, superframeLane_of_locked hl]
    rfl
  refine ⟨?_, ?_, ?_, ?_, ?_, ?_, ?_, ?_⟩
  · exact events_of_onLane hk rfl fun w h => laneReceives_of_none h
  · refine events_of_onLane hk rfl fun w ⟨h, hr⟩ => ?_
    have hl : (lane w).st ≠ .locked := by rcases hr with hr | hr | hr <;> simp [hr]
    have hs : (lane w).st ≠ .seed := by rcases hr with hr | hr | hr <;> simp [hr]
    rw [laneReceives_of_unlocked hl, doSuperframe_of_uncounted h hl hs, superframeLane_of_resting hr]
    rfl
  · refine events_of_onLane hk rfl fun w ⟨h, hc, h0⟩ => ?_
    rw [laneReceives_of_confirm h hc, if_pos h0]
    rfl
  · refine events_of_onLane hk rfl fun w ⟨h, hc, h0⟩ => ?_
    rw [laneReceives_of_confirm h hc, if_neg h0]
    rfl
  · refine events_of_onLane hk rfl fun w ⟨h, hs⟩ => ?_
    rw [laneReceives_of_unlocked (by simp [lane, hs]), doSuperframe_of_seed h hs, superframeLane_of_seed hs]
    rfl
  · refine events_of_onLane hk rfl fun w ⟨h, hl, hn, hd⟩ => ?_
    rw [laneReceives_of_locked h hl, adaptedFor_of_none hn hd, hends hl]
  · refine events_of_onLane hk rfl fun w ⟨h, hl, hf, ha⟩ => ?_
    rw [laneReceives_of_locked h hl, adaptedFor_of_fir hf, hends ha]
  · refine events_of_onLane hk rfl fun w ⟨h, hl, hn, hd, ha⟩ => ?_
    rw [laneReceives_of_locked h hl, adaptedFor_of_due hn hd, hends ha]

end Sys2Proof.Laws
end

section
/-! The forwarded clock, pattern checkers, transmitted superframes, sleep and wake (chapters 4 and 5): what each event does, case by case. -/

namespace Sys2Proof.Laws

open Sys2Proof.Machine Sys2Proof.Claims

/-! ### The forwarded clock (R95, R98) -/

section ForwardedClock

variable {s : State} {b : Nat}

/-- A direction that runs and waits for its clock is enabled and awake, without lock, in a device that is awake. -/
def ClockAwaited (b : Nat) (s : State) : Prop :=
  (s.rxDir b).dll = false ∧ (s.rxDir b).asleep = false ∧ (s.rxDir b).enable = true ∧ s.sys.quiet = .awake

theorem doDllLock_of_awaited (h : ClockAwaited b s) :
    doDllLock b s = (s.setRx b { s.rxDir b with
      dll := true, phase := if (s.rxDir b).phase = .waitClk then .rxAdapt else (s.rxDir b).phase,
      phaseT := if (s.rxDir b).phase = .waitClk then s.now else (s.rxDir b).phaseT }).lanesHunt b := by
  obtain ⟨hd, ha, he, hq⟩ := h
  exact if_neg (by simp [hd, ha, he, hq])

/-- Outside WAIT_CLK the clock alone is gained. -/
theorem doDllLock_of_otherPhase (h : ClockAwaited b s) (hp : (s.rxDir b).phase ≠ .waitClk) :
    doDllLock b s = (s.setRx b { s.rxDir b with dll := true }).lanesHunt b := by
  rw [doDllLock_of_awaited h, if_neg hp, if_neg hp]

/-- WAIT_CLK ends with the clock. -/
theorem doDllLock_of_waitClk (h : ClockAwaited b s) (hp : (s.rxDir b).phase = .waitClk) :
    doDllLock b s = (s.setRx b { s.rxDir b with dll := true, phase := .rxAdapt, phaseT := s.now }).lanesHunt b := by
  rw [doDllLock_of_awaited h, if_pos hp, if_pos hp]

theorem doDllLock_of_stopped (h : (s.rxDir b).enable = false ∨ (s.rxDir b).asleep = true) : doDllLock b s = s := by
  refine if_pos ?_
  rcases h with h | h <;> simp [h]

theorem doClockLost_of_locked (h : (s.rxDir b).dll = true) :
    doClockLost b s = (s.setRx b { s.rxDir b with dll := false }).lanesIdle b := if_pos h

end ForwardedClock

/-! ### Pattern checkers (R127) -/

section PatternChecker

variable {s : State} {b k : Nat} {received : List Bool} {c : Prbs}

theorem doPrbsWindow_of_none (h : (rxLaneOf (s.rxDir b) k).prbs = none) : doPrbsWindow b k received s = s := by
  unfold doPrbsWindow
  dsimp only
  rw [h]

/-- A window with more than 64 errors loses the pattern. -/
theorem doPrbsWindow_loses (h : (rxLaneOf (s.rxDir b) k).prbs = some c) (hn : 64 < (prbsWindow c.pattern c.invert c.reg received).1) :
    doPrbsWindow b k received s =
      (s.setRxLane b k { rxLaneOf (s.rxDir b) k with prbs := some { c with reg := none } }).count 1 (laneUnit b k) 9 := by
  unfold doPrbsWindow
  dsimp only
  rw [h]
  exact if_pos hn

theorem doPrbsWindow_counts (h : (rxLaneOf (s.rxDir b) k).prbs = some c) (hn : (prbsWindow c.pattern c.invert c.reg received).1 ≤ 64) :
    doPrbsWindow b k received s =
      (s.setRxLane b k { rxLaneOf (s.rxDir b) k with
        prbs := some { c with reg := some (prbsWindow c.pattern c.invert c.reg received).2 } }).count 1 (laneUnit b k) 8
          (prbsWindow c.pattern c.invert c.reg received).1 := by
  unfold doPrbsWindow
  dsimp only
  rw [h]
  exact if_neg (Nat.not_lt.mpr hn)

end PatternChecker

/-! ### What a transmit direction's steps leave alone -/

theorem txDir_setTx {s : State} {b : Nat} (hw : tblWf {} s.tx = true) (d : TxDir) : (s.setTx b d).txDir b = d :=
  fget_fset_same _ _ _ _ hw

/-- Parts that each leave the transmit directions alone do so together. -/
theorem each_tx {α : Type} {f : α → State → State} (hf : ∀ x u, (f x u).tx = u.tx) (l : List α) (s : State) :
    (State.each f l s).tx = s.tx :=
  each_induct (fun u => u.tx = s.tx) f (fun x u hu => (hf x u).trans hu) l s rfl

@[simp] theorem useKey_tx (s : State) (dirLane slot : Nat) : (s.useKey dirLane slot).tx = s.tx := by
  unfold State.useKey; split <;> rfl

@[simp] theorem counterReuse_tx (s : State) : s.counterReuse.tx = s.tx := by simp [State.counterReuse]

@[simp] theorem cryptSwitched_tx (s : State) (dir point sfc : Nat) : (s.cryptSwitched dir point sfc).tx = s.tx :=
  each_tx (fun _ _ => complete_tx _ _ _ _ _) _ s

/-- The keys of a group's superframe are its stream's, the jobs' and the counters' matter (R439 to R441). -/
@[simp] theorem txKeyBoundary_tx (s : State) (n sfc : Nat) : (s.txKeyBoundary n sfc).tx = s.tx := by
  have huse (b k : Nat) (l : List Nat) (u : State) : (State.each (fun i v => v.useKey (512 + 8 * b + i) k) l u).tx = u.tx :=
    each_tx (fun _ _ => useKey_tx _ _ _) l u
  unfold State.txKeyBoundary
  dsimp only
  repeat' split
  all_goals simp [huse]

/-! ### TX_SUPERFRAME (R86, R88, R109, R110, R122, R125) -/

section Transmit

variable {s : State} {b : Nat}

/-- A request of the partner moves the taps alone. -/
theorem applyRequest_prbs (bc : Nat) (l : TxLane) : (applyRequest bc l).1.prbs = l.prbs := by
  unfold applyRequest
  dsimp only
  repeat' split
  all_goals rfl

theorem answer_prbs (l : TxLane) : l.answer.prbs = l.prbs := by
  unfold TxLane.answer
  split
  · exact applyRequest_prbs _ _
  · rfl

/-- The direction in which the requests of the partner have acted (R109). -/
def answered (d : TxDir) : TxDir := { d with lanes := d.lanes.map TxLane.answer }

theorem answered_prbs (d : TxDir) : (answered d).prbs = d.prbs := by
  simp [TxDir.prbs, answered, Function.comp_def, answer_prbs]

theorem txLaneOf_prbs {d : TxDir} (h : d.prbs = false) (k : Nat) : (txLaneOf d k).prbs = none := by
  rw [txLaneOf, List.getD_eq_getElem?_getD]
  cases hl : d.lanes[k]? with
  | none => rfl
  | some l => exact Option.not_isSome_iff_eq_none.mp (List.any_eq_false.mp h l (List.mem_of_getElem? hl))

theorem sendPatterns_of_none (h : (s.txDir b).prbs = false) : s.sendPatterns b = s := by
  unfold State.sendPatterns
  dsimp only
  rw [h, each_of_unchanged fun k _ u => by rw [txLaneOf_prbs h k]]
  rfl

/-- Requests have acted, and every group of the direction has met its key boundary. -/
def keyed (b : Nat) (s : State) : State :=
  (s.txGroups b).foldl (fun v e => v.txKeyBoundary e.1 (s.txDir b).sfc) (s.setTx b (answered (s.txDir b)))

theorem foldl_txKeyBoundary_tx {α : Type} (f : α → Nat) (sfc : Nat) (l : List α) (s : State) :
    (l.foldl (fun v e => v.txKeyBoundary (f e) sfc) s).tx = s.tx := by
  rw [← each_eq_foldl (fun e v => v.txKeyBoundary (f e) sfc)]
  exact each_tx (fun _ _ => txKeyBoundary_tx _ _ _) l s

theorem keyed_txDir (hw : tblWf {} s.tx = true) : (keyed b s).txDir b = answered (s.txDir b) := by
  rw [State.txDir, keyed, foldl_txKeyBoundary_tx]
  exact txDir_setTx hw _

/-- What each group of the direction sends, and the group after it. -/
def groupFrames (b : Nat) (v : State) : List (Nat × List Nat × TxStream) :=
  (v.txGroups b).map fun e => (e.1, v.groupFrame e.2 (v.txDir b).sfc)

/-- The superframes that the lanes make of their own. -/
def ownFrames (b : Nat) (v : State) : List (Nat × Superframe) :=
  ((v.txDir b).framing b).map fun k => (k, v.ownFrame b k ((groupFrames b v).map fun e => (e.2.2, e.2.1)))

/-- The groups and the direction move on to the next number and phase (R88, R122). -/
def nextFrame (b : Nat) (v u : State) : State :=
  let u1 := (groupFrames b v).foldl (fun u e => u.setTxStream e.1 (some e.2.2)) u
  u1.setTx b { u1.txDir b with sfc := ((v.txDir b).sfc + 1) % 2 ^ 32, phase := (v.txDir b).phase.after,
                               asleep := (v.txDir b).asleep || decide ((v.txDir b).phase = .withdrawing 1 .sleep) }

theorem runs_iff (d : TxDir) : d.runs = true ↔ d.enable = true ∧ d.asleep = false ∧ d.phase ≠ .idle := by
  simp [TxDir.runs, and_assoc]

theorem doTxSuperframe_of_stopped (h : (s.txDir b).runs = false) : doTxSuperframe b s = s := if_pos (by simp [h])

/-- A direction that runs without a generator: its lanes send their own superframes, or on the far-end path the partner's, where one that runs
dry slips (R125). -/
theorem doTxSuperframe_of_running (hw : tblWf {} s.tx = true) (hr : (s.txDir b).runs = true) (hp : (s.txDir b).prbs = false) :
    doTxSuperframe b s =
      let v := keyed b s
      nextFrame b v ((if (s.txDir b).loopback = 3 && (v.farFrames b).2 then v.slip b else v).sendFrames b
        (if (s.txDir b).loopback = 3 then (v.farFrames b).1 else ownFrames b v)) := by
  have hd : (s.setTx b (answered (s.txDir b))).txDir b = answered (s.txDir b) := txDir_setTx hw _
  have hs : (s.setTx b (answered (s.txDir b))).sendPatterns b = s.setTx b (answered (s.txDir b)) :=
    sendPatterns_of_none (by rw [hd, answered_prbs, hp])
  unfold doTxSuperframe
  rw [if_neg (by simp [hr])]
  simp only [answered] at hs hd
  simp only [hs, hd, each_eq_foldl, nextFrame, ownFrames, groupFrames, keyed_txDir hw, answered]
  rfl

/-- A lane's superframe is counted (Table 19.2). -/
def countedSent (b : Nat) (u : State) (e : Nat × Superframe) : State :=
  ((u.count 2 (8 * b + e.1) 0 4096).count 2 (8 * b + e.1) 1 (onLine e.2).stuffBits).count 2 (8 * b + e.1) 3 (if e.2.withdrawn then 1 else 0)

/-- Off the Brinen link the superframes of a running direction are counted and kept, and leave the device but on the near-end serial path. -/
theorem sendFrames_of_running (hb : b < 64) (hr : (s.txDir b).runs = true) (fs : List (Nat × Superframe)) :
    s.sendFrames b fs =
      let v1 := fs.foldl (countedSent b) s
      let v2 := v1.setTx b { v1.txDir b with lanes := mapAt (TxLane.sentOne fs) 0 (v1.txDir b).lanes }
      if (s.txDir b).loopback = 1 then v2 else v2.emit (.superframe b (fs.map fun e => (e.1, onLine e.2))) := by
  have hne : b ≠ 64 := by omega
  have hsends : (s.txDir b).sends = true ↔ ¬(s.txDir b).loopback = 1 := by simp [TxDir.sends, hr]
  simp only [State.sendFrames, each_eq_foldl, hne, laneUnit, if_false, hsends, ite_not]
  rfl

/-- Off the Brinen link a direction's superframe is all that its start brings. -/
theorem transmits_of_bundle (hb : b ≠ 64) : transmits b s = doTxSuperframe b s := by
  simp [transmits, hb]

theorem transmits_of_stopped (h : (s.txDir b).runs = false) : transmits b s = s := by
  by_cases hb : b = 64
  · subst hb
    simp [transmits, doTxSuperframe_of_stopped h, TxDir.sends, h]
  · rw [transmits_of_bundle hb, doTxSuperframe_of_stopped h]

end Transmit

/-! ### Sleep and wake (R122, R123) -/

section SleepWake

variable {s : State} {b dir : Nat} {j : Job}

theorem doSleepComplete_of_none (h : s.jobOf (bundleDirJob true b dir) = none) : doSleepComplete b dir s = s := by
  unfold doSleepComplete
  rw [h]

/-- A direction that fell asleep completes the command that waits for it: a transmit direction once its lanes are idle. -/
theorem doSleepComplete_of_asleep (h : s.jobOf (bundleDirJob true b dir) = some j) (hi : dir = 1 → (s.txDir b).phase = .idle) :
    doSleepComplete b dir s = s.complete j stOk 0 none := by
  unfold doSleepComplete
  rw [h]
  by_cases hd : dir = 1 <;> simp [hd, hi]

theorem doWakeComplete_of_rx (h : s.jobOf (bundleDirJob false b 0) = some j) :
    doWakeComplete applyRecords b 0 s =
      (((s.setRx b { s.rxDir b with asleep := false }).lanesHunt b).useRxRecords b).complete j stOk 0 none := by
  unfold doWakeComplete
  rw [h]
  rfl

theorem doWakeComplete_of_tx (h : s.jobOf (bundleDirJob false b 1) = some j) :
    doWakeComplete applyRecords b 1 s =
      let v := s.txStart b
      (v.setTx b { v.txDir b with lanes := mapAt (storedTxLane v b) 0 (v.txDir b).lanes }).complete j stOk 0 none := by
  unfold doWakeComplete
  rw [h]
  rfl

end SleepWake

/-- Settles O24: clock and checker by their conditions, the superframe by the path it takes, sleep and wake by the command that waits. -/
theorem forwardedClockAndTransmit : Obligations.ForwardedClockAndTransmit := by
  refine ⟨?_, ?_⟩
  · intro s t b k received c hb hk at_ lane dark plain checked
    refine ⟨?_, ?_, ?_, ?_, ?_, ?_, ?_⟩
    · exact events_of_onDir hb rfl fun w ⟨hd, hp⟩ => doDllLock_of_otherPhase hd hp
    · exact events_of_onDir hb rfl fun w ⟨hd, hp⟩ => doDllLock_of_waitClk hd hp
    · exact events_of_onDir hb rfl fun w h => doDllLock_of_stopped h
    · exact events_of_onDir hb rfl fun w h => doClockLost_of_locked h
    · exact events_of_onLane hk rfl fun w h => doPrbsWindow_of_none h
    · exact events_of_onLane hk rfl fun w ⟨h, hn⟩ => doPrbsWindow_loses h hn
    · exact events_of_onLane hk rfl fun w ⟨h, hn⟩ => doPrbsWindow_counts h hn
  · intro s t b dir j hb d keyed' makes frame sent next runs own
    have hruns (w : State) : (w.txDir b).runs = true ↔ runs w := runs_iff _
    have hown (hb : b < 64) (v : State) : ownFrames b v = own v := by
      have hne : b ≠ 64 := by omega
      simp only [ownFrames, State.ownFrame, txLaneId, hne, if_false]
      rfl
    have hsent {w : State} (hb : b < 64) (hw : tblWf {} w.tx = true) (hr : runs w) (fs : List (Nat × Superframe)) :
        (keyed b w).sendFrames b fs = sent fs (keyed b w) :=
      sendFrames_of_running hb (by rw [keyed_txDir hw]; exact (hruns w).mpr hr) fs
    refine ⟨?_, ?_, ?_, ?_, ?_, ?_, ?_⟩
    · exact events_of_onDir hb rfl fun w h => transmits_of_stopped (Bool.eq_false_iff.mpr (mt (hruns w).mp h))
    · refine events_of_onDir hb rfl fun w ⟨hb, hw, hr, hl, hp⟩ => ?_
      rw [transmits_of_bundle (by omega), doTxSuperframe_of_running hw ((hruns w).mpr hr) hp]
      simp only [hl, decide_false, Bool.false_and, Bool.false_eq_true, if_false, hown hb, hsent hb hw hr]
      rfl
    · refine events_of_onDir hb rfl fun w ⟨hb, hw, hr, hl, hp, hf⟩ => ?_
      have hf' : ((keyed b w).farFrames b).2 = false := hf
      rw [transmits_of_bundle (by omega), doTxSuperframe_of_running hw ((hruns w).mpr hr) hp]
      simp only [hl, hf', Bool.and_false, Bool.false_eq_true, if_false, if_true, hsent hb hw hr]
      rfl
    · exact events_of_onDir hb rfl fun w ⟨h, hi⟩ => doSleepComplete_of_asleep h hi
    · exact events_of_onDir hb rfl fun w h => doSleepComplete_of_none h
    · exact events_of_onDir hb rfl fun w h => doWakeComplete_of_rx h
    · exact events_of_onDir hb rfl fun w h => doWakeComplete_of_tx h

end Sys2Proof.Laws
end

section
/-! The bundle commands (Table 13.4): what each answers when its checks pass. -/

namespace Sys2Proof.Laws

open Sys2Proof.Machine Sys2Proof.Claims

/-! ### BUNDLE_SET and LANE_TRAIN (R84, R117, R118, R361) -/

section BundleSet

variable {s : State} {p : BundleSetP}

theorem chkBundleSet_rx (hb : p.bundle < 64) (hd : p.dir = 0) (hr : p.rate < 3) (hm : p.laneMask < 256) (hz : p.rsvd = 0)
    (hw : p.swing = 0) (he : p.expectBase ≤ 511 ∨ p.expectBase = 0xFFFF) (hs : spreadOk p.spread = true)
    (hl : (s.rxDir p.bundle).loopback = 0) (hp : (s.rxDir p.bundle).prbs = false) : chkBundleSet p s = none := by
  have he' : 511 < p.expectBase → p.expectBase = 0xFFFF := by omega
  simpa [chkBundleSet, failIf, rateOk, hb, hd, hr, hm, hz, hw, hs, hl, hp] using he'

theorem chkBundleSet_tx (hb : p.bundle < 64) (hd : p.dir = 1) (hr : p.rate < 3) (hm : p.laneMask < 256) (hz : p.rsvd = 0)
    (hlo : 40 ≤ p.swing) (hhi : p.swing ≤ 100) (he : p.expectBase = 0) (hs : p.spread = 0)
    (hl : (s.txDir p.bundle).loopback = 0) (hp : (s.txDir p.bundle).prbs = false) : chkBundleSet p s = none := by
  simp [chkBundleSet, failIf, rateOk, hb, hd, hr, hm, hz, hlo, hhi, he, hs, hl, hp]

/-- A receive direction takes its settings, and a new rate begins a training round where one may run (R117, R361). -/
theorem startBundleRate_rx (hd : p.dir = 0) (hc : chkBundleSet p s = none) :
    startBundleRate p s = .done
      (if (s.rxDir p.bundle).rate ≠ p.rate ∧ ((setRxBundle p s).rxDir p.bundle).mayTrain = true
        then (setRxBundle p s).startRound p.bundle else setRxBundle p s) := by
  simp [startBundleRate, startBundleSet, orAns_of_pass hc, hd]

theorem startBundleRate_tx (hd : p.dir = 1) (hc : chkBundleSet p s = none) : startBundleRate p s = .done (setTxBundle p s) := by
  simp [startBundleRate, startBundleSet, orAns_of_pass hc, hd]

/-- A transmit direction that is awake starts anew with a new rate, or as it is enabled (R361). -/
theorem setTxBundle_eq :
    setTxBundle p s =
      let d := s.txDir p.bundle
      let w := s.setTx p.bundle { d with enable := p.enable, mask := p.laneMask, rate := p.rate, trainAuto := p.trainAuto,
                                         adapt := p.adapt, swing := p.swing }
      if (d.rate ≠ p.rate ∨ (p.enable = true ∧ d.enable = false)) ∧ d.asleep = false then w.txStart p.bundle else w := by
  simp [setTxBundle]

end BundleSet

theorem startLaneTrain_ok {s : State} {p : LaneTrainP} (hb : p.bundle < 64) (hz : p.rsvd = 0)
    (ht : (s.rxDir p.bundle).training = false) (ha : (s.rxDir p.bundle).asleep = false) (hl : (s.rxDir p.bundle).loopback = 0)
    (hp : (s.rxDir p.bundle).prbs = false) : startLaneTrain p s = .later (s.startRound p.bundle) .event := by
  refine orAns_of_pass ?_ _
  simp [failIf, hb, hz, ht, ha, hl, hp]

/-! ### BUNDLE_SLEEP and BUNDLE_WAKE (R111, R122, R123) -/

section SleepCommands

variable {s : State} {p : BundleDirP}

theorem chkBundleDir_ok (hb : p.bundle < 64) (hd : p.dir < 2) (hz : p.rsvd = 0) : chkBundleDir p = none := by
  simp [chkBundleDir, failIf, hb, hd, hz]

/-- The receive direction asleep: its round dropped, its lanes idle, the clock given up. -/
def rxAsleep (b : Nat) (s : State) : State :=
  let w := (s.dropRound b).lanesIdle b
  w.setRx b { w.rxDir b with asleep := true, dll := false }

/-- Out of a test path a receive direction falls asleep, unless it is, and asks for the partner's sleep where it can send (R111, R122). -/
theorem startBundleSleep_rx (hb : p.bundle < 64) (hz : p.rsvd = 0) (hd : p.dir = 0) (hl : (s.rxDir p.bundle).loopback = 0)
    (hp : (s.rxDir p.bundle).prbs = false) :
    startBundleSleep p s =
      if (s.rxDir p.bundle).asleep then .done s
      else .later (if ((rxAsleep p.bundle s).txDir p.bundle).asleep then rxAsleep p.bundle s
        else State.each (fun k v => v.askPartner p.bundle k 3 3 0 false) (lanesOf p.bundle) (rxAsleep p.bundle s)) .event := by
  refine (orAns_of_pass ?_ _).trans (if_pos hd)
  simp [chkBundleDir_ok hb (by omega) hz, failIf, hd, hl, hp]

/-- Out of a test path a transmit direction that sends is withdrawn first; one that is silent falls asleep at once (R122). -/
theorem startBundleSleep_tx (hb : p.bundle < 64) (hz : p.rsvd = 0) (hd : p.dir = 1) (hl : (s.txDir p.bundle).loopback = 0)
    (hp : (s.txDir p.bundle).prbs = false) :
    startBundleSleep p s =
      if (s.txDir p.bundle).asleep then .done s
      else if (s.txDir p.bundle).sends then
        .later (s.setTx p.bundle { s.txDir p.bundle with phase := .withdrawing 3 .sleep }) .event
      else .done (s.setTx p.bundle { s.txDir p.bundle with asleep := true, phase := .idle }) := by
  refine (orAns_of_pass ?_ _).trans (if_neg (by simp [hd]))
  simp [chkBundleDir_ok hb (by omega) hz, failIf, hd, hl, hp]

/-- A direction that sleeps wakes in time. -/
theorem startBundleWake_waits (hb : p.bundle < 64) (hz : p.rsvd = 0)
    (h : p.dir = 0 ∧ (s.rxDir p.bundle).asleep = true ∨ p.dir = 1 ∧ (s.txDir p.bundle).asleep = true) :
    startBundleWake p s = .later s .event := by
  obtain ⟨hd, ha⟩ | ⟨hd, ha⟩ := h <;>
    simp [startBundleWake, chkBundleDir_ok hb (by omega) hz, orAns, hd, ha]

theorem startBundleWake_done (hb : p.bundle < 64) (hz : p.rsvd = 0)
    (h : p.dir = 0 ∧ (s.rxDir p.bundle).asleep = false ∨ p.dir = 1 ∧ (s.txDir p.bundle).asleep = false) :
    startBundleWake p s = .done s := by
  obtain ⟨hd, ha⟩ | ⟨hd, ha⟩ := h <;>
    simp [startBundleWake, chkBundleDir_ok hb (by omega) hz, orAns, hd, ha]

end SleepCommands

/-! ### LOOPBACK_SET and PRBS_SET (R124, R126) -/

/-- A path that is set already stays; another ends the round and starts both directions of the port anew. -/
theorem startLoopback_ok {s : State} {p : LoopbackSetP} (hb : p.port < 64) (hp : p.path < 4) (hz : p.rsvd = 0)
    (hr : (s.rxDir p.port).asleep = false) (ht : (s.txDir p.port).asleep = false)
    (he : (s.rxDir p.port).rate = (s.txDir p.port).rate) :
    startLoopback p s = .done
      (if (s.rxDir p.port).loopback = p.path then s
       else
        let w0 := s.dropRound p.port
        let w1 := w0.setRx p.port { w0.rxDir p.port with loopback := p.path }
        ((w1.setTx p.port { w1.txDir p.port with loopback := p.path }).txStart p.port).reacquire p.port) := by
  refine (orAns_of_pass ?_ _).trans (apply_ite Ans.done _ _ _).symm
  simp [failIf, hb, hp, hz, hr, ht, he]

section Prbs

variable {s : State} {p : PrbsSetP}

/-- Generators of the lanes of the mask; pattern 0 ends them. -/
theorem startPrbs_tx (hb : p.bundle < 64) (hd : p.dir = 1) (hp : p.pattern < 4) (hm : p.laneMask < 256) (hz : p.rsvd = 0)
    (ha : (s.txDir p.bundle).asleep = false) :
    startPrbs p s = .done (s.setTx p.bundle { s.txDir p.bundle with
      lanes := mapAt (setGenerator p) 0 (s.txDir p.bundle).lanes }) := by
  refine (orAns_of_pass ?_ _).trans (if_neg (by simp [hd]))
  simp [failIf, hb, hd, hp, hm, hz, ha]

/-- A lane of the mask goes to TEST with a checker, or with pattern 0 to IDLE without one. -/
def testLane (p : PrbsSetP) (k : Nat) (s : State) : State :=
  if p.laneMask.testBit k then
    let w := s.laneTo p.bundle k (if p.pattern = 0 then .idle else .test)
    w.setRxLane p.bundle k { rxLaneOf (w.rxDir p.bundle) k with
      prbs := if p.pattern = 0 then none else some { pattern := p.pattern, invert := p.invert } }
  else s

theorem startPrbs_rx (hb : p.bundle < 64) (hd : p.dir = 0) (hp : p.pattern < 4) (hm : p.laneMask < 256) (hz : p.rsvd = 0)
    (ha : (s.rxDir p.bundle).asleep = false) :
    startPrbs p s = .done ((State.each (testLane p) (lanesOf p.bundle)
      (if p.pattern = 0 then s else s.dropRound p.bundle)).lanesHunt p.bundle) := by
  have hon : (p.pattern != 0) = !decide (p.pattern = 0) := rfl
  refine (orAns_of_pass ?_ _).trans ((if_pos hd).trans ?_)
  · simp [failIf, hb, hd, hp, hm, hz, ha]
  · simp only [hon, Bool.not_eq_true', decide_eq_false_iff_not, ite_not]
    rfl

end Prbs

/-- Settles O5: each clause from what the command's start answers. -/
theorem bundleCommands : Obligations.BundleCommands := by
  refine ⟨fun s t h => ⟨fun p => ?_, fun p => ?_, fun p => ?_⟩, fun s t h p hb hz => ⟨?_, ?_, ?_, ?_, ?_, ?_, ?_⟩,
    fun s t h => ⟨fun p => ?_, fun p => ?_, fun p => ?_⟩⟩
  · exact completes_of_start rfl fun w ⟨hb, hd, hr, hm, hz, hw, he, hs, hl, hp⟩ =>
      startBundleRate_rx hd (chkBundleSet_rx hb hd hr hm hz hw he hs hl hp)
  · refine completes_of_start rfl fun w ⟨hb, hd, hr, hm, hz, hlo, hhi, he, hs, hl, hp⟩ => ?_
    exact (startBundleRate_tx hd (chkBundleSet_tx hb hd hr hm hz hlo hhi he hs hl hp)).trans (congrArg Ans.done setTxBundle_eq)
  · exact waits_of_start rfl rfl fun w ⟨hb, hz, ht, ha, hl, hp⟩ => startLaneTrain_ok hb hz ht ha hl hp
  · exact completes_of_start rfl fun w ⟨hd, hl, hp, ha⟩ => (startBundleSleep_rx hb hz hd hl hp).trans (if_pos ha)
  · exact waits_of_start rfl rfl fun w ⟨hd, hl, hp, ha⟩ => (startBundleSleep_rx hb hz hd hl hp).trans (if_neg (by simp [ha]))
  · exact completes_of_start rfl fun w ⟨hd, hl, hp, ha⟩ => (startBundleSleep_tx hb hz hd hl hp).trans (if_pos ha)
  · exact waits_of_start rfl rfl fun w ⟨hd, hl, hp, ha, hs⟩ =>
      (startBundleSleep_tx hb hz hd hl hp).trans ((if_neg (by simp [ha])).trans (if_pos hs))
  · exact completes_of_start rfl fun w ⟨hd, hl, hp, ha, hs⟩ =>
      (startBundleSleep_tx hb hz hd hl hp).trans ((if_neg (by simp [ha])).trans (if_neg (by simp [hs])))
  · exact waits_of_start rfl rfl fun w ha => startBundleWake_waits hb hz ha
  · exact completes_of_start rfl fun w ha => startBundleWake_done hb hz ha
  · exact completes_of_start rfl fun w ⟨hb, hp, hz, hr, ht, he⟩ => startLoopback_ok hb hp hz hr ht he
  · exact completes_of_start rfl fun w ⟨hb, hd, hp, hm, hz, ha⟩ => startPrbs_tx hb hd hp hm hz ha
  · exact completes_of_start rfl fun w ⟨hb, hd, hp, hm, hz, ha⟩ => startPrbs_rx hb hd hp hm hz ha

end Sys2Proof.Laws
end

section
/-! The reads of identity, faults, rasters, time, routes and bundles (chapters 6 and 13): what each answers when its checks pass. -/

namespace Sys2Proof.Laws

open Sys2Proof.Machine Sys2Proof.Claims

/-- A packet row answers with the result that its command's start gives, where it fits the descriptor. -/
theorem answers_of_start {s : State} {t : Tick} {h : Hdr} {p : Params} {i : Instr} {ok : State → Prop} {eff : State → State} {r : Res}
    {bytes : State → List Byte} (hx : exec i s = .next (submit p t h s))
    (ha : ∀ w, ok w → startOf ⟨h.queue, h⟩ p w = .result (eff w) r (bytes w)) : Answers s t h p i r ok eff bytes :=
  fun hi hok hr => by rw [hx, completes_result hi (ha _ hok) hr]

/-! ### Faults (R357) -/

/-- The fault record as Table 13.2 lays it out. -/
def faultBytes (s : State) : List Byte :=
  match s.sys.fault with
  | some r => leBytes 1 1 ++ leBytes 1 r.source ++ leBytes 2 r.unit ++ leBytes 1 r.modeBefore.code ++
      leBytes 1 s.sys.replaced ++ leBytes 2 0 ++ leBytes 8 r.addr ++ leBytes 8 r.stc ++ leBytes 8 r.position ++ leBytes 16 0
  | none => leBytes 48 0

theorem startFaultRead_ok {s : State} {p : SysFaultReadP} (hz : p.rsvd = 0) (hc : p.clear = true → s.sys.mode ≠ .failed) :
    startFaultRead p s =
      .result (if p.clear then { s with sys := { s.sys with fault := none, replaced := 0 } } else s) p.res (faultBytes s) :=
  orAns_of_pass (by simpa [failIf, hz] using hc) _

/-! ### Rasters (R43, R358) -/

section RasterQuery

variable {s : State} {p : RasterQueryP}

/-- A standing raster answers where it stands, with the line asked for predicted. -/
theorem startRasterQuery_of_raster {r : Standing} (hz : p.rsvd = 0) (hh : p.house < 2) (hr : s.raster? p.raster = some r)
    (hl : p.predLine ≤ r.desc.totalLines) (hf : p.predFrame < 2 ^ 48) :
    startRasterQuery p s = .result s p.res (s.rasterResult p r (if p.raster < 2 then (s.house p.raster).st.code else 0)) := by
  unfold startRasterQuery
  rw [hr]
  exact (if_neg (by simp [hz, hh])).trans (if_neg (by simp only [Bool.or_eq_true, decide_eq_true_eq]; omega))

/-- The numbers of input rasters name no house and no output. -/
theorem raster?_of_input {n : Nat} (h : 1024 ≤ n) : s.raster? n = none :=
  (if_neg (by omega)).trans (if_neg (by omega))

theorem startRasterQuery_of_input {x : RxStream} (hz : p.rsvd = 0) (hh : p.house < 2) (hlo : 1024 ≤ p.raster) (hhi : p.raster < 1536)
    (hx : s.rxStream (p.raster - 1024) = some x) : startRasterQuery p s = .result s p.res (inputResult p x) := by
  have hin : (if 1024 ≤ p.raster && p.raster < 1536 then s.rxStream (p.raster - 1024) else none) = some x := by simp [hlo, hhi, hx]
  unfold startRasterQuery
  rw [raster?_of_input hlo, hin]
  exact if_neg (by simp [hz, hh])

end RasterQuery

/-! ### Routes and bundles (R129, R155) -/

theorem startRouteQuery_ok {s : State} {p : RouteQueryP} (hne : p.dests ≠ []) (hn : p.dests.length ≤ 1408) (hz : p.rsvd = 0)
    (hd : ∀ d ∈ p.dests, d ≤ 1407) : startRouteQuery p s = .result s p.res (p.dests.flatMap s.routeRecord) := by
  have hlist : (p.dests.isEmpty || decide (1408 < p.dests.length)) = false := by simp [hne, hn]
  have hdest : (p.rsvd != 0 || p.dests.any fun d => decide (1407 < d)) = false := by simpa [hz] using hd
  exact orAns_of_pass (by rw [hlist, hdest]; rfl) _

/-- The settings of a lane that the extended status adds (Table 13.4). -/
def laneSettings (d : RxDir) (e : TxDir) (k : Nat) : List Byte :=
  let r := (rxLaneOf d k).set
  [BitVec.ofNat 8 r.dcGain, BitVec.ofNat 8 (encInt 8 r.dfe2), BitVec.ofNat 8 (encInt 8 r.dfe3), BitVec.ofNat 8 (encInt 8 r.dfe4),
   BitVec.ofNat 8 (encInt 8 r.dfe5), BitVec.ofNat 8 (txLaneOf e k).main, 0, 0]

theorem startBundleStatus_ok {s : State} {p : BundleStatusP} (hb : p.bundle < 64) (hz : p.rsvd = 0) :
    startBundleStatus p s = .result s p.res
      (leBytes 8 (rxDirWord (s.rxDir p.bundle)) ++ leBytes 8 (txDirWord (s.txDir p.bundle)) ++
        (s.rxDir p.bundle).lanes.flatMap (fun l => leBytes 4 (rxLaneWord l)) ++
        (s.txDir p.bundle).lanes.flatMap (fun l => leBytes 4 (txLaneWord l)) ++
        if p.extended then (lanesOf p.bundle).flatMap (laneSettings (s.rxDir p.bundle) (s.txDir p.bundle)) else []) := by
  refine (orAns_of_pass (by simp [failIf, hb, hz]) _).trans (congrArg (Ans.result s p.res) ?_)
  cases p.extended
  · exact (List.append_nil _).symm
  · rfl

/-- Settles O1: each read by the layout of what its start answers. -/
theorem readsOfRoutesAndTime : Obligations.ReadsOfRoutesAndTime := by
  refine ⟨fun s t h => ⟨fun p => ?_, fun p => ?_, fun p => ?_⟩, fun s t h => ⟨fun p r => ?_, fun p x => ?_, fun p => ?_⟩,
    fun s t h p => ?_, fun s t h p => ?_⟩
  · exact answers_of_start rfl fun _ _ => rfl
  · exact answers_of_start rfl fun _ _ => rfl
  · exact answers_of_start rfl fun w ⟨hz, hc⟩ => startFaultRead_ok hz hc
  · exact answers_of_start rfl fun w ⟨hz, hh, hr, hl, hf⟩ => startRasterQuery_of_raster hz hh hr hl hf
  · exact answers_of_start rfl fun w ⟨hz, hh, hlo, hhi, hx⟩ => startRasterQuery_of_input hz hh hlo hhi hx
  · exact answers_of_start rfl fun _ _ => rfl
  · exact answers_of_start rfl fun w ⟨hne, hn, hz, hd⟩ => startRouteQuery_ok hne hn hz hd
  · exact answers_of_start rfl fun w ⟨hb, hz⟩ => startBundleStatus_ok hb hz

end Sys2Proof.Laws
end

section
/-! Training rounds and the back channel (chapter 5): what each event does, case by case. -/

namespace Sys2Proof.Laws

open Sys2Proof.Machine Sys2Proof.Claims

/-! ### The training round (R112, R115 to R117, R119) -/

section TrainingRound

variable {s : State} {b : Nat} {sets : List RxSet}

/-- The direction may train but for its phase (R112). -/
def Trainable (b : Nat) (s : State) : Prop :=
  (s.rxDir b).enable = true ∧ (s.rxDir b).asleep = false ∧ (s.rxDir b).loopback = 0 ∧ (s.rxDir b).prbs = false

/-- A firmware that is not restarted and a device that is awake run rounds. -/
def RoundsRun (s : State) : Prop := s.sys.restart = false ∧ s.sys.quiet = .awake

/-- The round that a direction owes on its own (R117). -/
def RoundOwed (b : Nat) (s : State) : Prop :=
  (s.rxDir b).trainAuto = true ∧ (s.rxDir b).dll = true ∧
    ∃ k, k < (s.rxDir b).lanes.length ∧ (s.rxDir b).live k = true ∧ (rxLaneOf (s.rxDir b) k).st ≠ .locked

/-- Every live lane has received its 1,024 superframes without an error (R113). -/
def VerifyClean (b : Nat) (s : State) : Prop :=
  ∀ k ∈ lanesOf b, (s.rxDir b).live k = true → (rxLaneOf (s.rxDir b) k).dwell = 0 ∧ 1024 ≤ (rxLaneOf (s.rxDir b) k).dwellN

theorem training_eq_false_iff (d : RxDir) : d.training = false ↔ d.phase = .none ∨ d.phase = .waiting := by
  cases hp : d.phase <;> simp [RxDir.training, hp]

theorem mayTrain_iff (d : RxDir) :
    d.mayTrain = true ↔ (d.enable = true ∧ d.asleep = false ∧ d.loopback = 0 ∧ d.prbs = false) ∧ d.training = false := by
  simp [RxDir.mayTrain, and_assoc]

theorem roundDue_iff : (s.rxDir b).roundDue = true ↔ RoundOwed b s := by
  simp [RxDir.roundDue, RoundOwed, and_assoc]

theorem doRoundDue_starts (hr : RoundsRun s) (hf : Trainable b s) (hd : RoundOwed b s)
    (hp : (s.rxDir b).phase = .none ∨ (s.rxDir b).phase = .waiting) : doRoundDue b s = s.startRound b := by
  have hm : (s.rxDir b).mayTrain = true := (mayTrain_iff _).mpr ⟨hf, (training_eq_false_iff _).mpr hp⟩
  obtain ⟨hrs, hq⟩ := hr
  exact (if_pos (roundDue_iff.mpr hd)).trans (if_pos (by simp [hm, hrs, hq]))

theorem doRoundDue_stays (h : (s.rxDir b).enable = false ∨ (s.rxDir b).asleep = true ∨ ¬RoundOwed b s ∨
    (s.rxDir b).phase ≠ .none ∧ (s.rxDir b).phase ≠ .waiting) : doRoundDue b s = s := by
  by_cases hd : RoundOwed b s
  · have hm : (s.rxDir b).mayTrain = false := Bool.eq_false_iff.mpr fun hm => by
      obtain ⟨⟨he, ha, _⟩, ht⟩ := (mayTrain_iff _).mp hm
      obtain h | h | h | ⟨hn, hw⟩ := h
      · simp [h] at he
      · simp [h] at ha
      · exact h hd
      · exact ((training_eq_false_iff _).mp ht).elim hn hw
    exact (if_pos (roundDue_iff.mpr hd)).trans (if_neg (by simp [hm]))
  · exact if_neg (mt roundDue_iff.mp hd)

theorem doPhaseTimeout_fails (h : (s.rxDir b).phase = .waitClk ∨ (s.rxDir b).phase = .acquire) :
    doPhaseTimeout b s = s.failRound b := if_pos (by simpa using h)

theorem doPhaseTimeout_stays (h : (s.rxDir b).phase ≠ .waitClk ∧ (s.rxDir b).phase ≠ .acquire) : doPhaseTimeout b s = s :=
  if_neg (by simpa using h)

theorem doRxAdaptEnd_acquires (h : (s.rxDir b).phase = .rxAdapt) :
    doRxAdaptEnd b sets s = (s.setRx b { s.rxDir b with
      lanes := mapAt (fun k l => if (s.rxDir b).live k then { l with set := sets.getD k l.set } else l) 0 (s.rxDir b).lanes,
      phase := .acquire, phaseT := s.now }).maybeFir b := if_pos h

theorem doRxAdaptEnd_stays (h : (s.rxDir b).phase ≠ .rxAdapt) : doRxAdaptEnd b sets s = s := if_neg h

/-- A dwell of `n` superframes counts no error where none came with one and none is missing. -/
theorem errors_eq_zero_iff (l : RxLane) (n : Nat) : l.errors n = 0 ↔ l.dwell = 0 ∧ n ≤ l.dwellN := by
  simp only [RxLane.errors]
  omega

theorem verifyClean_iff : ((lanesOf b).all fun k => !(s.rxDir b).live k || (rxLaneOf (s.rxDir b) k).errors 1024 == 0) = true ↔
    VerifyClean b s := by
  simp only [List.all_eq_true, Bool.or_eq_true, Bool.not_eq_true', beq_iff_eq, errors_eq_zero_iff, VerifyClean]
  exact forall₂_congr fun k _ => by cases (s.rxDir b).live k <;> simp

theorem doVerifyEnd_succeeds (hp : (s.rxDir b).phase = .verify) (hc : VerifyClean b s) :
    doVerifyEnd b s = (((s.setRx b { s.rxDir b with phase := .none, phaseT := s.now, fails := 0, noPartner := false,
                                                    trained := maskOf fun k => (s.rxDir b).live k }).sendDone b).writeRxRecords
      b).completeWhere (isTrain b) stOk 0 none :=
  (if_neg (by simp [hp])).trans (if_pos (verifyClean_iff.mpr hc))

theorem doVerifyEnd_fails (hp : (s.rxDir b).phase = .verify) (hc : ¬VerifyClean b s) : doVerifyEnd b s = s.failRound b :=
  (if_neg (by simp [hp])).trans (if_neg (mt verifyClean_iff.mp hc))

theorem doVerifyEnd_stays (hp : (s.rxDir b).phase ≠ .verify) : doVerifyEnd b s = s := if_pos (by simpa using hp)

/-- The wait ends in the next round, or in a probe where the partner is missing and a stream must not be cut (R116). -/
theorem doRetryWait_of_waiting (hr : RoundsRun s) (hf : Trainable b s) (hp : (s.rxDir b).phase = .waiting) :
    doRetryWait b s = if (s.rxDir b).noPartner && s.anyPresent b then
      (lanesOf b).foldl (fun u k => if (u.rxDir b).live k then u.sendRequest b k 3 0 0 else u)
        (s.setRx b { s.rxDir b with phaseT := s.now })
      else s.startRound b := by
  have hm : (s.rxDir b).mayTrain = true := (mayTrain_iff _).mpr ⟨hf, (training_eq_false_iff _).mpr (.inr hp)⟩
  obtain ⟨hrs, hq⟩ := hr
  rw [← each_eq_foldl]
  exact if_neg (by simp [hp, hm, hrs, hq])

theorem doRetryWait_retries (hr : RoundsRun s) (hf : Trainable b s) (hp : (s.rxDir b).phase = .waiting)
    (hn : (s.rxDir b).noPartner = false ∨ s.anyPresent b = false) : doRetryWait b s = s.startRound b := by
  refine (doRetryWait_of_waiting hr hf hp).trans (if_neg ?_)
  rcases hn with hn | hn <;> simp [hn]

theorem doRetryWait_probes (hr : RoundsRun s) (hf : Trainable b s) (hp : (s.rxDir b).phase = .waiting)
    (hn : (s.rxDir b).noPartner = true) (ha : s.anyPresent b = true) :
    doRetryWait b s = (lanesOf b).foldl (fun u k => if (u.rxDir b).live k then u.sendRequest b k 3 0 0 else u)
      (s.setRx b { s.rxDir b with phaseT := s.now }) :=
  (doRetryWait_of_waiting hr hf hp).trans (if_pos (by simp [hn, ha]))

theorem doRetryWait_stays (h : (s.rxDir b).phase ≠ .waiting ∨ ¬Trainable b s) : doRetryWait b s = s := by
  refine if_pos ?_
  obtain h | h := h
  · simp [h]
  · have hm : (s.rxDir b).mayTrain = false := Bool.eq_false_iff.mpr fun hm => h ((mayTrain_iff _).mp hm).1
    simp [hm]

end TrainingRound

/-! ### The transmitter's side of the back channel (R108 to R111, R119) -/

section Transmitter

variable {s : State} {b k bc : Nat}

/-- The back channel says `bc` on the LOCKED lane. -/
def Heard (b k bc : Nat) (s : State) : Prop := (rxLaneOf (s.rxDir b) k).st = .locked ∧ (rxLaneOf (s.rxDir b) k).bcIn = bc

/-- A request that is no sleep request. -/
def IsRequest (bc : Nat) : Prop := bcKind bc = 1 ∧ ¬(bcTap bc = 3 ∧ bcAction bc = 3)

def IsSleep (bc : Nat) : Prop := bcKind bc = 1 ∧ bcTap bc = 3 ∧ bcAction bc = 3

/-- The SEQ is not the one taken last (R109). -/
def IsNew (b k bc : Nat) (s : State) : Prop := (txLaneOf (s.txDir b) k).lastSeq ≠ some (bcSeq bc)

/-- The lane has taken the request and trains. -/
def requestTaken (b k bc : Nat) (s : State) : State :=
  s.setTxLane b k { txLaneOf (s.txDir b) k with lastSeq := some (bcSeq bc), request := some bc, training := true }

/-- DONE is heard. -/
def DoneHeard (b k : Nat) (s : State) : Prop :=
  (rxLaneOf (s.rxDir b) k).st = .locked ∧ bcKind (rxLaneOf (s.rxDir b) k).bcIn = 3

theorem hears_iff : s.hears b k bc = true ↔ Heard b k bc s := by
  simp [State.hears, Heard]

/-- What BC_REQUEST_RECEIVED does not pass over is a new request that is heard. -/
theorem takesRequest_iff : (!s.hears b k bc || bcKind bc != 1 || (bcTap bc = 3 && bcAction bc = 3) ||
      (txLaneOf (s.txDir b) k).lastSeq = some (bcSeq bc)) = false ↔
    Heard b k bc s ∧ IsRequest bc ∧ IsNew b k bc s := by
  simp [← hears_iff, IsRequest, IsNew, and_assoc]

/-- A new request on a lane of no group is taken. -/
theorem doBcRequest_ungrouped (hh : Heard b k bc s) (hr : IsRequest bc) (hn : IsNew b k bc s) (hg : s.groupOfLane b k = none) :
    doBcRequest b k bc s = requestTaken b k bc s := by
  unfold doBcRequest
  dsimp only
  rw [if_neg (Bool.eq_false_iff.mp (takesRequest_iff.mpr ⟨hh, hr, hn⟩)), hg]
  rfl

/-- A new request puts the lane's group into training transmission, unless the lane trains already (R110). -/
theorem doBcRequest_grouped {n : Nat} {x : TxStream} (hh : Heard b k bc s) (hr : IsRequest bc) (hn : IsNew b k bc s)
    (hg : s.groupOfLane b k = some (n, x)) :
    doBcRequest b k bc s =
      if (txLaneOf (s.txDir b) k).training then requestTaken b k bc s
      else (requestTaken b k bc s).setTxStream n (some { x with idle := true, withdrawLeft := 2 }) := by
  unfold doBcRequest
  dsimp only
  rw [if_neg (Bool.eq_false_iff.mp (takesRequest_iff.mpr ⟨hh, hr, hn⟩)), hg]
  rfl

theorem doBcRequest_stays (h : ¬Heard b k bc s ∨ ¬IsRequest bc ∨ ¬IsNew b k bc s) : doBcRequest b k bc s = s :=
  if_pos (eq_true_of_ne_false fun hc =>
    have ⟨hh, hr, hn⟩ := takesRequest_iff.mp hc
    h.elim (· hh) fun h => h.elim (· hr) (· hn))

theorem doBcDone_ends (hd : DoneHeard b k s) (ht : (txLaneOf (s.txDir b) k).training = true) :
    doBcDone b k s =
      let u := s.setTxLane b k { txLaneOf (s.txDir b) k with training := false, changed := false, bcOut := 0 }
      if (txLaneOf (s.txDir b) k).changed then u.writeTxRecord b k else u := by
  obtain ⟨hl, hk⟩ := hd
  exact if_pos (by simp [ht, hl, hk])

theorem doBcDone_stays (h : ¬DoneHeard b k s ∨ (txLaneOf (s.txDir b) k).training = false) : doBcDone b k s = s := by
  refine if_neg fun hc => ?_
  simp only [Bool.and_eq_true, beq_iff_eq] at hc
  obtain ⟨⟨ht, hl⟩, hk⟩ := hc
  obtain h | h := h
  · exact h ⟨hl, hk⟩
  · simp [h] at ht

theorem doSleepRequest_acknowledges (hh : Heard b k bc s) (hs : IsSleep bc) (hn : IsNew b k bc s) :
    doSleepRequest b k bc s = (s.setTxLane b k { txLaneOf (s.txDir b) k with
      lastSeq := some (bcSeq bc), request := none,
      bcOut := bcField 2 3 3 (bcPreset bc) (if 8 ≤ bcPreset bc then 2 else 0) (bcSeq bc) }).rxEvent b := by
  obtain ⟨hk, ht, ha⟩ := hs
  exact if_pos (by simp [hears_iff.mpr hh, hk, ht, ha, show _ ≠ _ from hn])

theorem doSleepRequest_stays (h : ¬Heard b k bc s ∨ ¬IsSleep bc ∨ ¬IsNew b k bc s) : doSleepRequest b k bc s = s := by
  refine if_neg fun hc => ?_
  simp only [Bool.and_eq_true, decide_eq_true_eq, bne_iff_ne] at hc
  obtain ⟨⟨⟨⟨hh, hk⟩, ht⟩, ha⟩, hn⟩ := hc
  exact h.elim (· (hears_iff.mp hh)) fun h => h.elim (· ⟨hk, ht, ha⟩) (· hn)

end Transmitter

/-! ### The receiver's search (R113 to R116) -/

section Receiver

variable {s : State} {b k bc tap : Nat} {inc : Bool}

/-- An acknowledge of the request in hand is heard. -/
def AckHeard (b k bc : Nat) (s : State) : Prop :=
  Heard b k bc s ∧ bcKind bc = 2 ∧ (rxLaneOf (s.rxDir b) k).fir.waiting = true ∧ bcSeq bc = (rxLaneOf (s.rxDir b) k).fir.seq

/-- The lane with its acknowledge, which begins a dwell and tells what the partner's FIR has become. -/
def ackedLane (bc : Nat) (l : RxLane) : RxLane :=
  let u := { l with atLimit := bcStatus bc == 1, dwell := 0, dwellN := 0, fir := { l.fir with waiting := false } }
  if bcStatus bc = 0 then trackPartner bc u else u

def acked (b k bc : Nat) (s : State) : State := s.setRxLane b k (ackedLane bc (rxLaneOf (s.rxDir b) k))

/-- What BC_ACK_RECEIVED does not pass over is an acknowledge of the request in hand. -/
theorem takesAck_iff : (!s.hears b k bc || bcKind bc != 2 || !(rxLaneOf (s.rxDir b) k).fir.waiting ||
      bcSeq bc != (rxLaneOf (s.rxDir b) k).fir.seq) = false ↔ AckHeard b k bc s := by
  simp [AckHeard, ← hears_iff, and_assoc]

theorem doBcAck_stays (h : ¬AckHeard b k bc s) : doBcAck b k bc s = s :=
  if_pos (eq_true_of_ne_false (mt takesAck_iff.mp h))

/-- What follows an acknowledge, by the phase of the direction and the step of the lane's search. -/
theorem doBcAck_of_heard (h : AckHeard b k bc s) :
    doBcAck b k bc s =
      if (s.rxDir b).phase = .fir then
        match (rxLaneOf (s.rxDir b) k).fir.step with
        | .tap tap inc => if bcStatus bc = 0 then acked b k bc s else (acked b k bc s).firGo b k (firNext (.tap tap inc))
        | .undo tap inc => (acked b k bc s).firGo b k (firNext (.undo tap inc))
        | .ended => (acked b k bc s).sendRequest b k 3 0 0
        | _ => acked b k bc s
      else if (s.rxDir b).phase = .waiting && (rxLaneOf (s.rxDir b) k).fir.step = .restore then
        if bcStatus bc = 0 then (acked b k bc s).restoreFir b k false else (acked b k bc s).laneDone b k
      else if (s.rxDir b).phase = .waiting && (s.rxDir b).noPartner then (acked b k bc s).rxEvent b
      else acked b k bc s :=
  if_neg (Bool.eq_false_iff.mp (takesAck_iff.mpr h))

/-- An acknowledge outside FIR and the wait between rounds begins a dwell alone. -/
theorem doBcAck_elsewhere (h : AckHeard b k bc s) (hf : (s.rxDir b).phase ≠ .fir) (hw : (s.rxDir b).phase ≠ .waiting) :
    doBcAck b k bc s = acked b k bc s := by
  simp [doBcAck_of_heard h, hf, hw]

/-- A probe's acknowledge tells that the partner answers (R116). -/
theorem doBcAck_of_probe (h : AckHeard b k bc s) (hp : (s.rxDir b).phase = .waiting)
    (hs : (rxLaneOf (s.rxDir b) k).fir.step ≠ .restore) (hn : (s.rxDir b).noPartner = true) :
    doBcAck b k bc s = (acked b k bc s).rxEvent b := by
  simp [doBcAck_of_heard h, hp, hs, hn]

/-- After a failed round the partner's FIR goes on being restored (R115). -/
theorem doBcAck_of_restore (h : AckHeard b k bc s) (hp : (s.rxDir b).phase = .waiting)
    (hs : (rxLaneOf (s.rxDir b) k).fir.step = .restore) (h0 : bcStatus bc = 0) :
    doBcAck b k bc s = (acked b k bc s).restoreFir b k false := by
  simp [doBcAck_of_heard h, hp, hs, h0]

theorem doBcAck_of_tap (h : AckHeard b k bc s) (hp : (s.rxDir b).phase = .fir)
    (hs : (rxLaneOf (s.rxDir b) k).fir.step = .tap tap inc) :
    doBcAck b k bc s =
      if bcStatus bc = 0 then acked b k bc s else (acked b k bc s).firGo b k (firNext (.tap tap inc)) := by
  rw [doBcAck_of_heard h, if_pos hp, hs]

theorem doBcAck_of_undo (h : AckHeard b k bc s) (hp : (s.rxDir b).phase = .fir)
    (hs : (rxLaneOf (s.rxDir b) k).fir.step = .undo tap inc) :
    doBcAck b k bc s = (acked b k bc s).firGo b k (firNext (.undo tap inc)) := by
  rw [doBcAck_of_heard h, if_pos hp, hs]

/-- A lane whose search has ended holds until all have ended (R113). -/
theorem doBcAck_of_ended (h : AckHeard b k bc s) (hp : (s.rxDir b).phase = .fir)
    (hs : (rxLaneOf (s.rxDir b) k).fir.step = .ended) : doBcAck b k bc s = (acked b k bc s).sendRequest b k 3 0 0 := by
  rw [doBcAck_of_heard h, if_pos hp, hs]

/-- The lane dwells on a setting of its search. -/
def Dwells (b k : Nat) (s : State) : Prop := (s.rxDir b).phase = .fir ∧ (rxLaneOf (s.rxDir b) k).fir.waiting = false

/-- The errors of the dwell's 64 superframes are the fewest so far. -/
def bestNoted (b k : Nat) (s : State) : State :=
  let l := rxLaneOf (s.rxDir b) k
  s.setRxLane b k { l with fir := { l.fir with best := some (l.errors 64) } }

theorem dwells_iff : ((s.rxDir b).phase != .fir || (rxLaneOf (s.rxDir b) k).fir.waiting) = false ↔ Dwells b k s := by
  simp [Dwells]

theorem doFirDwell_stays (h : ¬Dwells b k s) : doFirDwell b k s = s :=
  if_pos (eq_true_of_ne_false (mt dwells_iff.mp h))

/-- What the end of a dwell decides, by the step of the lane's search. -/
theorem doFirDwell_of_dwells (h : Dwells b k s) :
    doFirDwell b k s =
      match (rxLaneOf (s.rxDir b) k).fir.step with
      | .preset => (bestNoted b k s).firGo b k (.tap 2 true)
      | .tap tap inc =>
        if (rxLaneOf (s.rxDir b) k).errors 64 < (rxLaneOf (s.rxDir b) k).fir.best.getD 0 then
          (bestNoted b k s).firGo b k (if (rxLaneOf (s.rxDir b) k).fir.requests < 48 then .tap tap inc else firNext (.tap tap inc))
        else s.firGo b k (.undo tap inc)
      | _ => s :=
  if_neg (Bool.eq_false_iff.mp (dwells_iff.mpr h))

theorem doFirDwell_of_preset (h : Dwells b k s) (hs : (rxLaneOf (s.rxDir b) k).fir.step = .preset) :
    doFirDwell b k s = (bestNoted b k s).firGo b k (.tap 2 true) := by
  rw [doFirDwell_of_dwells h, hs]

/-- A step that lowers the errors is repeated while requests are left. -/
theorem doFirDwell_improves (h : Dwells b k s) (hs : (rxLaneOf (s.rxDir b) k).fir.step = .tap tap inc)
    (hl : (rxLaneOf (s.rxDir b) k).errors 64 < (rxLaneOf (s.rxDir b) k).fir.best.getD 0)
    (hr : (rxLaneOf (s.rxDir b) k).fir.requests < 48) :
    doFirDwell b k s = (bestNoted b k s).firGo b k (.tap tap inc) := by
  rw [doFirDwell_of_dwells h, hs]
  exact (if_pos hl).trans (by rw [if_pos hr])

/-- A step that does not is undone. -/
theorem doFirDwell_undoes (h : Dwells b k s) (hs : (rxLaneOf (s.rxDir b) k).fir.step = .tap tap inc)
    (hl : (rxLaneOf (s.rxDir b) k).fir.best.getD 0 ≤ (rxLaneOf (s.rxDir b) k).errors 64) :
    doFirDwell b k s = s.firGo b k (.undo tap inc) := by
  rw [doFirDwell_of_dwells h, hs]
  exact if_neg (Nat.not_lt.mpr hl)

theorem doUnanswered_repeats (hw : (rxLaneOf (s.rxDir b) k).fir.waiting = true) (hr : (rxLaneOf (s.rxDir b) k).fir.resent = false) :
    doUnanswered b k s =
      (s.setRxLane b k { rxLaneOf (s.rxDir b) k with fir := { (rxLaneOf (s.rxDir b) k).fir with resent := true } }).setTxLane b k
        { txLaneOf (s.txDir b) k with bcOut := (rxLaneOf (s.rxDir b) k).fir.asked } :=
  (if_neg (by simp [hw])).trans (if_pos (by simp [hr]))

theorem doUnanswered_fails (hw : (rxLaneOf (s.rxDir b) k).fir.waiting = true) (hr : (rxLaneOf (s.rxDir b) k).fir.resent = true)
    (hp : (s.rxDir b).phase = .fir ∨ (s.rxDir b).phase = .verify) : doUnanswered b k s = s.failRound b :=
  (if_neg (by simp [hw])).trans ((if_neg (by simp [hr])).trans (if_pos (by simpa using hp)))

theorem doUnanswered_stays (hw : (rxLaneOf (s.rxDir b) k).fir.waiting = false) : doUnanswered b k s = s := if_pos (by simp [hw])

end Receiver

/-- Settles O25: the round by its phase, the transmitter by what it hears, the receiver by the step of its search. -/
theorem trainingAndBackChannel : Obligations.TrainingAndBackChannel := by
  refine ⟨?_, ?_⟩
  · intro s t b sets hb d ready free due clean
    refine ⟨?_, ?_, ?_, ?_, ?_, ?_, ?_, ?_, ?_, ?_, ?_, ?_⟩
    · exact events_of_onDir hb rfl fun w ⟨hr, hf, hd, hp⟩ => doRoundDue_starts hr hf hd hp
    · exact events_of_onDir hb rfl fun w h => doRoundDue_stays h
    · exact events_of_onDir hb rfl fun w h => doPhaseTimeout_fails h
    · exact events_of_onDir hb rfl fun w h => doPhaseTimeout_stays h
    · exact events_of_onDir hb rfl fun w h => doRxAdaptEnd_acquires h
    · exact events_of_onDir hb rfl fun w h => doRxAdaptEnd_stays h
    · exact events_of_onDir hb rfl fun w ⟨hp, hc⟩ => doVerifyEnd_succeeds hp hc
    · exact events_of_onDir hb rfl fun w ⟨hp, hc⟩ => doVerifyEnd_fails hp hc
    · exact events_of_onDir hb rfl fun w hp => doVerifyEnd_stays hp
    · exact events_of_onDir hb rfl fun w ⟨hr, hf, hp, hn⟩ => doRetryWait_retries hr hf hp hn
    · exact events_of_onDir hb rfl fun w ⟨hr, hf, hp, hn, ha⟩ => doRetryWait_probes hr hf hp hn ha
    · exact events_of_onDir hb rfl fun w h => doRetryWait_stays h
  · intro s t b k bc hb hk tx rx atTx atRx hears isRequest isSleep isNew taken tracked mine errors best dwells done
    refine ⟨?_, fun n x => ?_, fun n x => ?_, ?_, ?_, ?_, ?_, ?_, ?_, ?_, ?_, ?_, ?_, fun tap inc => ?_, fun tap inc => ?_, fun tap inc => ?_,
      ?_, ?_, fun tap inc => ?_, fun tap inc => ?_, ?_, ?_, ?_, ?_⟩
    · exact events_of_onLane hk rfl fun w ⟨hh, hr, hn, hg⟩ => doBcRequest_ungrouped hh hr hn hg
    · exact events_of_onLane hk rfl fun w ⟨hh, hr, hn, hg, ht⟩ =>
        (doBcRequest_grouped hh hr hn hg).trans (if_neg (Bool.eq_false_iff.mp ht))
    · exact events_of_onLane hk rfl fun w ⟨hh, hr, hn, hg, ht⟩ => (doBcRequest_grouped hh hr hn hg).trans (if_pos ht)
    · exact events_of_onLane hk rfl fun w h => doBcRequest_stays h
    · exact events_of_onLane hk rfl fun w ⟨hd, ht, hc⟩ => (doBcDone_ends hd ht).trans (if_neg (Bool.eq_false_iff.mp hc))
    · exact events_of_onLane hk rfl fun w ⟨hd, ht, hc⟩ => (doBcDone_ends hd ht).trans (if_pos hc)
    · exact events_of_onLane hk rfl fun w h => doBcDone_stays h
    · exact events_of_onLane hk rfl fun w ⟨hh, hs, hn⟩ => doSleepRequest_acknowledges hh hs hn
    · exact events_of_onLane hk rfl fun w h => doSleepRequest_stays h
    · exact events_of_onLane hk rfl fun w h => doBcAck_stays h
    · exact events_of_onLane hk rfl fun w ⟨h, hf, hw⟩ => doBcAck_elsewhere h hf hw
    · exact events_of_onLane hk rfl fun w ⟨h, hp, hs, hn⟩ => doBcAck_of_probe h hp hs hn
    · exact events_of_onLane hk rfl fun w ⟨h, hp, hs, h0⟩ => doBcAck_of_restore h hp hs h0
    · exact events_of_onLane hk rfl fun w ⟨h, hp, h0, hs⟩ => (doBcAck_of_tap h hp hs).trans (if_neg h0)
    · exact events_of_onLane hk rfl fun w ⟨h, hp, h0, hs⟩ => (doBcAck_of_tap h hp hs).trans (if_pos h0)
    · exact events_of_onLane hk rfl fun w ⟨h, hp, hs⟩ => doBcAck_of_undo h hp hs
    · exact events_of_onLane hk rfl fun w ⟨h, hp, hs⟩ => doBcAck_of_ended h hp hs
    · exact events_of_onLane hk rfl fun w ⟨h, hs⟩ => doFirDwell_of_preset h hs
    · exact events_of_onLane hk rfl fun w ⟨h, hs, hl, hr⟩ => doFirDwell_improves h hs hl hr
    · exact events_of_onLane hk rfl fun w ⟨h, hs, hl⟩ => doFirDwell_undoes h hs hl
    · exact events_of_onLane hk rfl fun w h => doFirDwell_stays h
    · exact events_of_onLane hk rfl fun w ⟨hw, hr⟩ => doUnanswered_repeats hw hr
    · exact events_of_onLane hk rfl fun w ⟨hw, hr, hp⟩ => doUnanswered_fails hw hr hp
    · exact events_of_onLane hk rfl fun w hw => doUnanswered_stays hw

end Sys2Proof.Laws
end

section
/-! Reset, the stages of start-up and PCIE_PERST_N (chapters 20 and 21): what each event does, case by case. -/

namespace Sys2Proof.Laws

open Sys2Proof.Machine Sys2Proof.Claims

variable {s : State}

/-! ### RESET_N (R502, R504) -/

/-- A device held in reset leaves it for stage 1. -/
theorem doResetDeassert_of_reset (h : s.sys.stage = .inReset) :
    doResetDeassert s = { s with sys := { s.sys with stage := .s1 }, pins := { s.pins with resetN := true } } := if_pos h

theorem doResetDeassert_of_running (h : s.sys.stage ≠ .inReset) : doResetDeassert s = s := if_neg h

/-! ### The recall and the boot (R192, R459, R464, R503, R506) -/

/-- The Parameter Store recalled, with the pages found torn counted. -/
def recalledStore (s : State) : State :=
  (({ s with sys := { s.sys with nvRecalling := false }, nv := { s.nv with torn := s.tornPages } } : State).recallAudit.count 14 0 1
    s.tornPages.length).fire 970

/-- A recall that finds a torn page raises its event. -/
theorem doRecallComplete_of_recalling (h : s.sys.nvRecalling = true) :
    doRecallComplete s = if s.tornPages.isEmpty then recalledStore s else (recalledStore s).fire 971 := if_pos h

/-- The recall of start-up ends stage 1. -/
theorem doNvRecall_of_stage1 (h : s.sys.nvRecalling = true) (hs : s.sys.stage = .s1) :
    doNvRecall s = (if s.tornPages.isEmpty then recalledStore s else (recalledStore s).fire 971).toStage .s2 := by
  rw [← doRecallComplete_of_recalling h]
  exact if_pos (by simp [h, hs])

theorem doNvRecall_of_recalled (h : s.sys.nvRecalling = false) : doNvRecall s = s :=
  (if_neg (by simp [h])).trans (if_neg (by simp [h]))

/-- Stage 2 ends with the image that passes, and FAULT_N is driven high. -/
theorem doBootVerify_passes (hr : s.sys.restart = false) (hs : s.sys.stage = .s2) (hm : s.sys.mode ≠ .failed) :
    doBootVerify true s =
      let u := s.bootImage.toStage .s3
      { u with pins := { u.pins with faultN := .high } }.emit (.faultN false) :=
  (if_neg (by simp [hr])).trans ((if_pos hs).trans ((if_pos rfl).trans (if_neg hm)))

theorem doBootVerify_holds (hr : s.sys.restart = false) (hs : s.sys.stage = .s2) :
    doBootVerify false s = (s.toStage .held).latchFault 10 0xFFFF 0 :=
  (if_neg (by simp [hr])).trans ((if_pos hs).trans (if_neg Bool.false_ne_true))

/-- In a restart the image that passes runs, and one that fails ends it (R490). -/
theorem doBootVerify_of_restart (hr : s.sys.restart = true) (ok : Bool) :
    doBootVerify ok s = if ok then s.bootImage else { s with sys := { s.sys with restart := false, restartFailed := true } } :=
  if_pos hr

/-! ### Firmware, self test and the cold-start recall (R117, R120, R159, R505) -/

theorem doFirmwareReady_of_stage3 (h : s.sys.stage = .s3) :
    doFirmwareReady s = s.lanesOnRecords.applyClockRecord.toStage .s4 := if_pos h

theorem doFirmwareReady_elsewhere (h : s.sys.stage ≠ .s3) : doFirmwareReady s = s := if_neg h

/-- The self test ends in a training round of every direction that may train. -/
theorem doSelfTestEnd_of_stage4 (h : s.sys.stage = .s4) :
    doSelfTestEnd s = (List.range 65).foldl (fun u b => doRoundStart b u) (s.toStage .s5) := by
  rw [← each_eq_foldl]
  exact if_pos h

theorem doSelfTestEnd_elsewhere (h : s.sys.stage ≠ .s4) : doSelfTestEnd s = s := if_neg h

theorem doStartupComplete_recalls (hs : s.sys.stage = .s5) (hd : s.recallDue = true) (hm : s.sys.mode = .bringup) :
    doStartupComplete s =
      { s with sys := { s.sys with stage := .s6, coldRecall := true }, routes := { s.routes with recalling := true } } :=
  (if_pos hs).trans (if_pos (by simp [hd, hm]))

theorem doStartupComplete_ends (hs : s.sys.stage = .s5) (h : s.recallDue = false ∨ s.sys.mode ≠ .bringup) :
    doStartupComplete s = s.toStage .done := by
  refine (if_pos hs).trans (if_neg ?_)
  rcases h with h | h <;> simp [h]

theorem doStartupComplete_elsewhere (h : s.sys.stage ≠ .s5) : doStartupComplete s = s := if_neg h

/-- Start-up over, and its recall with it. -/
def startedUp (s : State) : State :=
  { s with sys := { s.sys with stage := .done, coldRecall := false }, routes := { s.routes with recalling := false } }

theorem doColdRecall_of_stage6 (h : s.sys.stage = .s6) :
    doColdRecall s = if s.sys.mode = .bringup then (startedUp s).recallCold else startedUp s := if_pos h

theorem doColdRecall_elsewhere (h : s.sys.stage ≠ .s6) : doColdRecall s = s := if_neg h

/-! ### PCIE_PERST_N (R529) -/

theorem doPerst_released (h : s.sys.stage ≠ .inReset) :
    doPerst true s = { s with pins := { s.pins with perstLow := false }, sys := { s.sys with pcieUp := true } } := if_neg h

/-- The endpoint's reset disables its queues and clears the table and the pending bits of MSI-X. -/
theorem doPerst_asserted (h : s.sys.stage ≠ .inReset) :
    doPerst false s =
      let u := (List.range 8).foldl (fun u q => u.disableQueue q)
        { s with pins := { s.pins with perstLow := true }, sys := { s.sys with pcieUp := false } }
      { u with hub := { u.hub with msix := [], pba := [] } } := by
  simp [doPerst, h, each_eq_foldl]

/-- Settles O38: each row by the stage, the mode or the level that it finds. -/
theorem startupRows : Obligations.StartupRows := by
  intro s t done stop at_ recalled image opened
  refine ⟨?_, fun hr => ?_, ?_, ?_, ?_, ?_, ?_, ?_, ?_, ?_, ?_, ?_, ?_, ?_, ?_, ?_, ?_, ?_, ?_, ?_, ?_, ?_⟩
  · exact events_of_event rfl fun _ _ _ => rfl
  · have he : s.enter t = s := if_pos hr
    exact congrArg Host.Outcome.next ((congrArg doResetDeassert he).trans (doResetDeassert_of_reset hr))
  · exact events_of_event rfl fun w hs _ => doResetDeassert_of_running hs
  · exact events_of_onEvent rfl fun w _ ⟨h, hs, ht⟩ => by rw [doNvRecall_of_stage1 h hs, ht]; rfl
  · refine events_of_onEvent rfl fun w _ ⟨h, hs, ht⟩ => ?_
    rw [doNvRecall_of_stage1 h hs, if_neg (by simpa using ht)]
    rfl
  · exact events_of_onEvent rfl fun w _ h => doNvRecall_of_recalled h
  · exact events_of_onEvent rfl fun w _ ⟨hr, hs, hm⟩ => doBootVerify_passes hr hs hm
  · exact events_of_onEvent rfl fun w _ ⟨hr, hs⟩ => doBootVerify_holds hr hs
  · exact events_of_onEvent rfl fun w _ hr => doBootVerify_of_restart hr true
  · exact events_of_onEvent rfl fun w _ hr => doBootVerify_of_restart hr false
  · exact events_of_onEvent rfl fun w _ h => doFirmwareReady_of_stage3 h
  · exact events_of_onEvent rfl fun w _ h => doFirmwareReady_elsewhere h
  · exact events_of_onEvent rfl fun w _ h => doSelfTestEnd_of_stage4 h
  · exact events_of_onEvent rfl fun w _ h => doSelfTestEnd_elsewhere h
  · exact events_of_onEvent rfl fun w _ ⟨hs, hd, hm⟩ => doStartupComplete_recalls hs hd hm
  · exact events_of_onEvent rfl fun w _ ⟨hs, h⟩ => doStartupComplete_ends hs h
  · exact events_of_onEvent rfl fun w _ h => doStartupComplete_elsewhere h
  · exact events_of_onEvent rfl fun w _ ⟨hs, hm⟩ => (doColdRecall_of_stage6 hs).trans (if_pos hm)
  · exact events_of_onEvent rfl fun w _ ⟨hs, hm⟩ => (doColdRecall_of_stage6 hs).trans (if_neg hm)
  · exact events_of_onEvent rfl fun w _ h => doColdRecall_elsewhere h
  · exact events_of_event rfl fun w hs _ => doPerst_released hs
  · exact events_of_event rfl fun w hs _ => doPerst_asserted hs

end Sys2Proof.Laws
end

section
/-! Takes and presets (chapter 6): the plan that an immediate command leaves, and what it does once it is a job. -/

namespace Sys2Proof.Laws

open Sys2Proof.Machine Sys2Proof.Claims

/-- An immediate command whose start lets it wait becomes a job, and a take or a recall goes on from there (R137, R158). -/
theorem immediate_later {s s1 : State} {t : Tick} {h : Hdr} {p : Params} {kind : JobKind} {ras : Nat} {aux : List Nat}
    (hi : Immediate s t h p) (ha : answerOf s t h p = .later s1 kind ras aux none) :
    submit p t h s = (afterAdd (waiting s1 h p kind ras aux none) (joined s1 h p kind ras aux)).settleLink := by
  rw [immediate_runs hi, ha]
  rfl

/-! ### ROUTE_TAKE and PRESET_RECALL (R136, R137, R158) -/

theorem startRouteTake_ok {s : State} {h : Hdr} {p : RouteTakeP} (hc : chkRouteTake h p s = none) :
    startRouteTake h p s = .later (planTake h s.nextJob p.entries s) .event (takeRaster p.entries) := orAns_of_pass hc _

theorem startPresetRecall_ok {s : State} {h : Hdr} {p : PresetRecallP} (hc : chkPresetRecall h p s = none) :
    startPresetRecall h p s =
      .later (planPresetRecall h s.nextJob p s) .event (takeRaster (((s.readPreset p.preset).map (·.routes)).getD [])) :=
  orAns_of_pass hc _

/-! ### PRESET_STORE and PRESET_COLDSTART (R157, R159) -/

section Store

variable {s s1 : State} {p : PresetStoreP}

theorem startPresetStore_capture (hr : s.routes.recalling = false) (hp : p.preset < 8) (hz : p.rsvd = 0) (hc : p.capture = true)
    (hd : s.dirProtected = false) : startPresetStore p s = .later s .apply 0 :=
  (orAns_of_pass (by simp [failIf, hr, hz, hc, hd, Nat.not_le.mpr hp]) _).trans (if_pos hc)

theorem startPresetStore_body (hr : s.routes.recalling = false) (hp : p.preset < 8) (hz : p.rsvd = 0) (hc : p.capture = false)
    (hn : countsOk p.body = true) (hb : recordsOk p.body = true) (hd : s.dirProtected = false)
    (hs : s.storePreset s.nextJob p.preset p.body = some s1) : startPresetStore p s = .later s1 .event := by
  refine (orAns_of_pass (by simp [failIf, hr, hz, hn, hb, hd, Nat.not_le.mpr hp]) _).trans ?_
  rw [hc, hs]
  rfl

end Store

theorem startPresetColdstart_ok {s : State} {p : PresetColdstartP} (hr : s.routes.recalling = false) (hp : p.preset < 8 ∨ p.preset = 255)
    (hz : p.rsvd = 0) (hd : s.dirProtected = false) :
    startPresetColdstart p s =
      .later (s.writeDir s.dirSoon.1 (patch s.dirSoon.2 2 (leBytes 1 p.preset ++ leBytes 1 (b2n p.enable))) (.lastOf s.nextJob)) .event := by
  have hrange : (decide (8 ≤ p.preset) && p.preset != 255) = false := by
    rcases hp with hp | hp
    · rw [decide_eq_false (Nat.not_le.mpr hp), Bool.false_and]
    · rw [hp]; rfl
  refine orAns_of_pass ?_ _
  rw [hrange]
  simp [failIf, hr, hz, hd]

/-- Settles O7: the take and the recall by what follows when they are jobs, the presets' writes by what their start answers. -/
theorem routeAndPresetCommands : Obligations.RouteAndPresetCommands := by
  refine ⟨fun s t h => ⟨fun p hi hc => ?_, fun p hi hc => ?_⟩,
    fun s t h => ⟨fun p => ?_, fun p w1 hi hr hp hz hc hn hb hd hs => ?_, fun p => ?_⟩⟩
  · exact congrArg Host.Outcome.next (immediate_later hi (startRouteTake_ok hc))
  · exact congrArg Host.Outcome.next (immediate_later hi (startPresetRecall_ok hc))
  · exact waits_of_start rfl rfl fun w ⟨hr, hp, hz, hc, hd⟩ => startPresetStore_capture hr hp hz hc hd
  · exact congrArg Host.Outcome.next (completes_later hi rfl (startPresetStore_body hr hp hz hc hn hb hd hs))
  · exact waits_of_start rfl rfl fun w ⟨hr, hp, hz, hd⟩ => startPresetColdstart_ok hr hp hz hd

end Sys2Proof.Laws
end

section
/-! The redundant pair (chapter 14): HELLO and the link, a partner that fails or is lost, and the LEAD's decisions, case by case. -/

namespace Sys2Proof.Laws

open Sys2Proof.Machine Sys2Proof.Claims

@[simp] theorem setPair_pair (s : State) (p : Pair) : (s.setPair p).pair = p := rfl

theorem isMate_iff (s : State) : s.isMate = true ↔ s.pair.role = .mate ∧ s.pair.sync ≠ .apart := by simp [State.isMate]

/-! ### Messages (R384) -/

/-- A message's row has, out of reset and with a good CRC, the effect of its message. -/
theorem events_of_message {s : State} {t : Tick} {a : Arrival} {i : Instr} {f eff : State → State} {ok : State → Prop}
    (ha : a.crcOk = true) (hx : exec i s = .next (onEvent (onMessage a f) (s.enter t))) (hf : ∀ w, ok w → f w = eff w) :
    Events s t i ok eff :=
  events_of_onEvent hx fun w _ hok => (if_pos ha).trans (hf w hok)

theorem onMessage_of_bad {a : Arrival} (ha : a.crcOk = false) (f : State → State) (s : State) : onMessage a f s = s.count 13 0 3 :=
  if_neg (by simp [ha])

/-! ### The end of PAIR_SET (R380) -/

/-- A PAIR_SET that waits for the link. -/
def waitsForLink (j : Job) : Bool := match j.params with
  | .pairSet _ => true
  | _ => false

theorem settlePair_level {s : State} (hu : s.pair.up = true) (hh : s.pair.hello.isSome = true) (ha : s.pair.deltaA = 0)
    (hb : s.pair.deltaB = 0) : s.settlePair = s.completeWhere waitsForLink stOk 0 none :=
  if_pos (by simp [hu, hh, ha, hb])

theorem settlePair_waits {s : State} (h : s.pair.up = false ∨ s.pair.deltaA ≠ 0 ∨ s.pair.deltaB ≠ 0) : s.settlePair = s :=
  if_neg (by rcases h with h | h | h <;> simp [h])

/-! ### HELLO (R380, R382) -/

section Hello

variable {s : State} {m : HelloBody}

/-- Both members lead with authority. -/
def clashes (m : HelloBody) (s : State) : Bool := s.pair.role == .lead && s.pair.authority && m.role == 1 && m.authority

/-- What HELLO tells is noted. -/
def noteHello (m : HelloBody) (s : State) : State :=
  s.setPair { s.pair with
    hello := some m, mateFw := m.fw, mateLib := m.lib, conflict := clashes m s,
    deltaA := (m.frameA : Int) - (s.house 0).frame.toNat, deltaB := (m.frameB : Int) - (s.house 1).frame.toNat }

theorem doHello_quiet (h : clashes m s = false ∨ s.pair.conflict = true) : doHello m s = (noteHello m s).settlePair := by
  have hc : (clashes m s && !s.pair.conflict) = false := by rcases h with h | h <;> simp [h]
  exact congrArg State.settlePair (if_neg (show ¬(clashes m s && !s.pair.conflict) = true by rw [hc]; decide))

/-- A conflict that is new raises event 976. -/
theorem doHello_conflict (hc : clashes m s = true) (hn : s.pair.conflict = false) :
    doHello m s = ((noteHello m s).fire 976).settlePair :=
  congrArg State.settlePair (if_pos (show (clashes m s && !s.pair.conflict) = true by simp [hc, hn]))

end Hello

/-! ### LINK_UP (R382, Table 14.1) -/

section LinkUp

variable {s : State} {m : HelloBody}

/-- The link may come up: a HELLO without conflict and four locked lanes. -/
def Opens (m : HelloBody) (s : State) : Prop :=
  s.pair.hello = some m ∧ s.pair.up = false ∧ s.pair.conflict = false ∧ s.brinenLocked = true

/-- A LEAD without authority meets one with it. -/
def Yields (m : HelloBody) (s : State) : Prop := s.pair.role = .lead ∧ s.pair.authority = false ∧ m.role = 1 ∧ m.authority = true

/-- The link is up. -/
def linkOpened (s : State) : State := (s.setPair { s.pair with up := true, mateFailed := false }).fire 976

/-- The link is up, and a LEAD without authority has become the MATE. -/
def linkYielded (s : State) : State := ((linkOpened s).setPair { (linkOpened s).pair with role := .mate }).fire 977

/-- Whether the member will adopt the partner's counts is settled. -/
def setAdopt (b : Bool) (s : State) : State := s.setPair { s.pair with adopt := b }

@[simp] theorem linkOpened_pair (s : State) : (linkOpened s).pair = { s.pair with up := true, mateFailed := false } := fire_pair _ _

@[simp] theorem linkYielded_pair (s : State) : (linkYielded s).pair = { s.pair with up := true, mateFailed := false, role := .mate } := by
  simp [linkYielded]

/-- The end of LINK_UP, by whether the member yields. -/
theorem doLinkUp_of_opens (h : Opens m s) :
    doLinkUp s =
      (let u := if (linkOpened s).pair.role == .lead && !(linkOpened s).pair.authority && m.role == 1 && m.authority then linkYielded s
         else linkOpened s
       setAdopt (u.pair.role == .mate) u).settlePair := by
  obtain ⟨hh, hu, hc, hl⟩ := h
  unfold doLinkUp
  rw [hh]
  exact if_neg (by simp [hu, hc, hl])

theorem doLinkUp_keepsRole (h : Opens m s) (hy : ¬Yields m s) :
    doLinkUp s = (setAdopt (s.pair.role == .mate) (linkOpened s)).settlePair := by
  rw [doLinkUp_of_opens h, if_neg (by simpa [Yields, and_assoc] using hy)]
  dsimp only
  rw [linkOpened_pair]

theorem doLinkUp_yields (h : Opens m s) (hy : Yields m s) : doLinkUp s = (setAdopt true (linkYielded s)).settlePair := by
  rw [doLinkUp_of_opens h, if_pos (by simpa [Yields, and_assoc] using hy)]
  dsimp only
  rw [linkYielded_pair]
  rfl

theorem doLinkUp_stays (h : s.pair.hello = none ∨ s.brinenLocked = false) : doLinkUp s = s := by
  unfold doLinkUp
  split
  · rfl
  · next m hm =>
    have hl : s.brinenLocked = false := h.resolve_left (by simp [hm])
    exact if_pos (by simp [hl])

end LinkUp

/-! ### The partner fails or is lost (R388, R399, R400) -/

section Loss

variable {s : State}

theorem dropApart_of_paired (h : s.pair.sync ≠ .apart) :
    s.dropApart = (s.setPair { s.pair with sync := .apart, own := [], partner := [], windows := [] }).fire 980 := if_neg h

/-- The member leads on after a failure notice. -/
def leadsOn (s : State) : State :=
  (s.setPair { s.pair with mateFailed := true, role := .lead, authority := s.pair.role == .mate || s.pair.authority }).fire 977

@[simp] theorem leadsOn_sync (s : State) : (leadsOn s).pair.sync = s.pair.sync := by simp [leadsOn]

theorem mateFails_first (hr : s.pair.role ≠ .solo) (hf : s.pair.mateFailed = false) : s.mateFails = (leadsOn s).dropApart.goOn := by
  have hauth : (if s.pair.role = .mate then true else s.pair.authority) = (s.pair.role == .mate || s.pair.authority) := by
    cases s.pair.role <;> rfl
  refine (if_neg (by simp [hr, hf])).trans ?_
  rw [hauth]
  rfl

theorem mateFails_again (h : s.pair.role = .solo ∨ s.pair.mateFailed = true) : s.mateFails = s := if_pos (by simpa using h)

/-- The link leaves UP, and what the partner had begun to send is forgotten. -/
def linkClosed (s : State) : State :=
  (s.setPair { s.pair with up := false, adopt := false, hello := none, snapshot := [], snapReady := false, after := [] }).fire 976

/-- The member takes the lead without authority. -/
def takesLead (s : State) : State := (s.setPair { s.pair with role := .lead, authority := false }).fire 977

theorem linkLost_of_mate (hu : s.pair.up = true) (hr : s.pair.role = .mate) :
    s.linkLost = (takesLead (linkClosed s)).dropApart.goOn := by
  have hc : (linkClosed s).pair.role = .mate := by simpa [linkClosed] using hr
  exact (if_neg (by simp [hu])).trans (congrArg (fun u : State => u.dropApart.goOn) (if_pos hc))

/-- A MATE whose deadline passes leads on alone. -/
theorem doDeadlineMiss_of_mate (hm : s.isMate = true) (hu : s.pair.up = true) :
    doDeadlineMiss s = (takesLead (linkClosed s)).dropApart.goOn :=
  (if_pos hm).trans (linkLost_of_mate hu ((isMate_iff s).mp hm).1)

theorem takesLead_linkClosed_sync (s : State) : (takesLead (linkClosed s)).pair.sync = s.pair.sync := by simp [takesLead, linkClosed]

end Loss

/-! ### The LEAD's decisions (R142, R272, R320) -/

section Decisions

variable {s : State}

theorem decided_new {d : Decision} (hr : s.pair.role = .mate) (hd : s.pair.received.contains d = false) :
    s.decided d = s.setPair { s.pair with
      received := d :: s.pair.received.filter fun x => !(x.kind == d.kind && x.unit == d.unit && decide (x.key + 8 ≤ d.key)) } :=
  if_neg (by rw [hr, hd]; decide)

theorem decided_known {d : Decision} (h : s.pair.role ≠ .mate ∨ s.pair.received.contains d = true) : s.decided d = s :=
  if_pos (by simpa only [Bool.or_eq_true, decide_eq_true_eq] using h)

theorem doLeat_elsewhere (hr : s.pair.role ≠ .mate) (d : LeatBody) : doLeat d s = s := if_pos hr

theorem doLeat_block (n k : Nat) (under : Bool) (s : State) :
    doLeat (.block n k under) s = s.decided { kind := 2, unit := n, key := k, value := if under then 1 else 0 } := by
  by_cases hr : s.pair.role = .mate
  · exact if_neg (by simp [hr])
  · rw [doLeat_elsewhere hr, decided_known (.inl hr)]

theorem doLeat_domain_kept {n : Nat} {la lb : Bool} {oa ob : Int} (hr : s.pair.role = .mate) (ha : (s.domain n).lockA = la)
    (hb : (s.domain n).lockB = lb) :
    doLeat (.domain n la lb oa ob) s = s.setDomain n { s.domain n with offA := oa, offB := ob } := by
  subst ha hb
  exact (if_neg (by simp [hr])).trans (if_pos (by simp))

theorem doLeat_domain_moved {n : Nat} {la lb : Bool} {oa ob : Int} (hr : s.pair.role = .mate)
    (h : (s.domain n).lockA ≠ la ∨ (s.domain n).lockB ≠ lb) :
    doLeat (.domain n la lb oa ob) s =
      (s.setDomain n { s.domain n with lockA := la, lockB := lb, offA := oa, offB := ob }).domainEvent n :=
  (if_neg (by simp [hr])).trans (if_neg (by rcases h with h | h <;> simp [h]))

/-- A converter that is bound takes the ratio, and the state where it differs. -/
theorem doLeat_asrc {g k st : Nat} {per phase : Int} {c : Asrc} (hr : s.pair.role = .mate) (hc : s.asrc g = some c) :
    doLeat (.asrc g k st per phase) s =
      if c.st = asrcOfCode st then s.setAsrc g (some { c with per := per, phase := phase })
      else s.asrcTo g { c with per := per, phase := phase } (asrcOfCode st) := by
  simp [doLeat, hr, hc]

theorem doLeat_nonAudio (hr : s.pair.role = .mate) (n : Nat) (non : Bool) :
    doLeat (.nonAudio n non) s = { s with audio := { s.audio with
      pairs := fset {} s.audio.pairs n { (fget {} s.audio.pairs n : PairJudge) with non := non } } } :=
  if_neg (by simp [hr])

theorem doLeat_delay {n v : Nat} {p : AudioEmbedP} {o : OutRaster} (hr : s.pair.role = .mate) (hp : (s.embed n).p = some p)
    (ho : s.outRaster n = some o) : doLeat (.delay n v) s = s.applyDelay n p v o.frameT := by
  simp [doLeat, hr, hp, ho]

end Decisions

/-- Settles O33: the link by HELLO's and LINK_UP's cases, the loss of the partner by how it shows, and each decision by whether the MATE
holds it or what it changes. -/
theorem pairLinkRows : Obligations.PairLinkRows := by
  refine ⟨?_, ?_⟩
  · intro s t bad a m hbad ha clash told level paired up yields opens adopts
    refine ⟨fun f => onMessage_of_bad hbad f s, ?_, ?_, ?_, ?_, ?_, ?_, ?_⟩
    · exact events_of_message ha rfl fun w ⟨hu, hc⟩ => (doHello_quiet hc).trans (settlePair_waits (.inl hu))
    · exact events_of_message ha rfl fun w ⟨hu, hc, hn⟩ =>
        (doHello_conflict hc hn).trans (settlePair_waits (.inl (by rw [fire_pair]; exact hu)))
    · exact events_of_message ha rfl fun w ⟨hu, hc, hA, hB⟩ =>
        (doHello_quiet (.inl hc)).trans (settlePair_level hu rfl (Int.sub_eq_zero.mpr hA) (Int.sub_eq_zero.mpr hB))
    · exact events_of_onEvent rfl fun w _ ⟨ho, hy, hd⟩ =>
        (doLinkUp_keepsRole ho hy).trans (settlePair_waits (.inr (by simpa [setAdopt] using hd)))
    · exact events_of_onEvent rfl fun w _ ⟨ho, hy, hA, hB⟩ => (doLinkUp_keepsRole ho hy).trans
        (settlePair_level (by simp [setAdopt]) (by simp [setAdopt, ho.1]) (by simpa [setAdopt] using hA) (by simpa [setAdopt] using hB))
    · exact events_of_onEvent rfl fun w _ ⟨ho, hy, hd⟩ =>
        (doLinkUp_yields ho hy).trans (settlePair_waits (.inr (by simpa [setAdopt] using hd)))
    · exact events_of_onEvent rfl fun w _ h => doLinkUp_stays h
  · intro s t a src n f v x la lb non under oa ob c p o ha apart takes hears
    have hear {i : Instr} {d : Decision} (hx : exec i s = .next (onEvent (onMessage a (State.decided · d)) (s.enter t))) : hears i d :=
      ⟨events_of_message ha hx fun w ⟨hr, hd⟩ => decided_new hr hd, events_of_message ha hx fun w h => decided_known h⟩
    refine ⟨?_, ?_, ?_, ?_, hear rfl, hear rfl, hear ?_, fun d => ?_, ?_, ?_, ?_, ?_, ?_, ?_⟩
    · refine events_of_message ha rfl fun w ⟨hr, hf, hs⟩ => (mateFails_first hr hf).trans ?_
      rw [dropApart_of_paired (by simpa using hs)]
      rfl
    · exact events_of_message ha rfl fun w h => mateFails_again h
    · refine events_of_onEvent rfl fun w _ ⟨hm, hu⟩ => (doDeadlineMiss_of_mate hm hu).trans ?_
      rw [dropApart_of_paired (by rw [takesLead_linkClosed_sync]; exact ((isMate_iff w).mp hm).2)]
      rfl
    · exact events_of_onEvent rfl fun w _ hm => if_neg (by simp [hm])
    · exact congrArg (fun g => Host.Outcome.next (onEvent (onMessage a g) (s.enter t))) (funext (doLeat_block n f under))
    · exact events_of_message ha rfl fun w hr => doLeat_elsewhere hr d
    · exact events_of_message ha rfl fun w ⟨hr, hla, hlb⟩ => doLeat_domain_kept hr hla hlb
    · exact events_of_message ha rfl fun w ⟨hr, h⟩ => doLeat_domain_moved hr h
    · exact events_of_message ha rfl fun w ⟨hr, hc, hst⟩ => (doLeat_asrc hr hc).trans (if_pos hst)
    · exact events_of_message ha rfl fun w ⟨hr, hc, hst⟩ => (doLeat_asrc hr hc).trans (if_neg hst)
    · exact events_of_message ha rfl fun w hr => doLeat_nonAudio hr n non
    · exact events_of_message ha rfl fun w ⟨hr, hp, ho⟩ => doLeat_delay hr hp ho

end Sys2Proof.Laws
end

section
/-! What a step keeps: each row's meaning is made of operations that keep the invariants (Laws/Keeps), so that every step keeps them. -/

namespace Sys2Proof.Laws

open Sys2Proof.Machine

/-! ### One row -/

/-- The row `i` answers a state that operations reach from the one to which its time has come. -/
def RowKeeps (i : Instr) (s : State) : Prop := ∃ (t : Tick) (s' : State), exec i s = .next s' ∧ Keeps (s.enter t) s'

namespace RowKeeps

variable {i : Instr} {s : State} {t : Tick} {f : State → State}

/-- A packet passes through its queue, whatever it carries. -/
theorem packet {h : Hdr} {p : Params} (hx : exec i s = .next (submit p t h s)) : RowKeeps i s :=
  ⟨t, _, hx, settleLink_keeps (submitted_keeps (Keeps.refl _))⟩

/-- A row that acts in reset too. -/
theorem plain (hx : exec i s = .next (f (s.enter t))) (hf : ∀ {a w : State}, Keeps a w → Keeps a (f w)) : RowKeeps i s :=
  ⟨t, _, hx, hf (Keeps.refl _)⟩

/-- A row that acts out of reset alone. -/
theorem event (hx : exec i s = .next (onEvent f (s.enter t))) (hf : ∀ {a w : State}, Keeps a w → Keeps a (f w)) : RowKeeps i s :=
  plain hx fun h => onEvent_keeps (fun _ hw => hf hw) h

theorem lane {b k : Nat} (hx : exec i s = .next (onEvent (Machine.onLane b k f) (s.enter t)))
    (hf : ∀ {a w : State}, Keeps a w → Keeps a (f w)) : RowKeeps i s :=
  event hx (onLane_keeps fun _ hw => hf hw)

theorem dir {b : Nat} (hx : exec i s = .next (onEvent (onDir b f) (s.enter t)))
    (hf : ∀ {a w : State}, Keeps a w → Keeps a (f w)) : RowKeeps i s :=
  event hx (onDir_keeps fun _ hw => hf hw)

theorem port {n : Nat} (hx : exec i s = .next (onEvent (onPort n f) (s.enter t)))
    (hf : ∀ {a w : State}, Keeps a w → Keeps a (f w)) : RowKeeps i s :=
  event hx (onPort_keeps fun _ hw => hf hw)

theorem engine {e : Nat} {g : Nat → State → State} (hx : exec i s = .next (onEvent (onEngine e g) (s.enter t)))
    (hf : ∀ {a w : State} {n : Nat}, Keeps a w → Keeps a (g n w)) : RowKeeps i s :=
  event hx (onEngine_keeps fun _ _ hw => hf hw)

theorem message {m : Arrival} (hx : exec i s = .next (onEvent (onMessage m f) (s.enter t)))
    (hf : ∀ {a w : State}, Keeps a w → Keeps a (f w)) : RowKeeps i s :=
  event hx (onMessage_keeps fun _ hw => hf hw)

end RowKeeps

/-! ### Every row -/

/-- Row by row, the operation that it is made of keeps the invariants. -/
theorem row_keeps (i : Instr) (s : State) : RowKeeps i s := by
  cases i with
  -- packets (Table 13.1)
  | sysIdentify | sysCaps | sysMode | barrier | sysRestart | sysWakeSet | sysFaultRead | rasterSet | rasterQuery | stcSet
  | stcRead | schedCancel | bundleSet | bundleStatus | laneTrain | bundleSleep | bundleWake | loopbackSet | prbsSet | streamSet
  | routeTake | routeQuery | lossSet | presetStore | presetRecall | presetColdstart | bufCreate | bufDestroy | bufQuery
  | bufXfer | captureBind | playoutBind | weirQuery | kernelBind | kernelUpdate | kernelUnbind | engineReserve | engineMigrate
  | engineQuery | layerSet | layerFlip | layerQuery | compSet | fenceBind | fenceSignal | fenceQuery | groupSet | staticSet
  | audioRoute | audioEmbed | asrcBind | aportSet | aportMask | audioRingBind | audioQuery | refSet | synthSet | bandTableSet
  | clkoutSet | clkoutSync | clockStatus | pairSet | pairResync | pairTransfer | pairStatus | keyWrite | keyDerive
  | keyInvalidate | keyQuery | queueAuth | laneCryptSet | attest | tamperSet | tamperStatus | nvRead | nvWrite | nvProtect
  | nvCounter | auditRead | counterRead | counterSnapshot | monitorSet | monitorRead | eventRoute | gpioSet | gpioEdge
  | gpioRead | cpbLoad | cpbCtrl => exact .packet rfl
  -- registers and the management SPI port (Tables 12.3, 12.8 and 18.1)
  | sqTail => exact .plain rfl doSqTail_keeps
  | cqHead => exact .plain rfl doCqHead_keeps
  | queueEnable => exact .plain rfl doQueueEnable_keeps
  | queueDisable => exact .plain rfl doQueueDisable_keeps
  | queueResume => exact .plain rfl doQueueResume_keeps
  | claim => exact .plain rfl doClaim_keeps
  | complete => exact .plain rfl doComplete_keeps
  | cntSel => exact .plain rfl doCntSel_keeps
  | cntValOvfClear => exact .plain rfl doOvfClear_keeps
  | stcLowRead => exact .plain rfl doStcLow_keeps
  | q8SqTail => exact .plain rfl doSqTail_keeps
  | q8RrHead => exact .plain rfl doCqHead_keeps
  | swiSet => exact .plain rfl doSwi_keeps
  | timecmp => exact .plain rfl doTimecmp_keeps
  | timerDisarm => exact .plain rfl doDisarm_keeps
  | timerFiredClear => exact .plain rfl doFiredClear_keeps
  | gpioOut => exact .plain rfl doGpioOut_keeps
  | cpbAccessFault => exact .plain rfl doAccessFault_keeps
  | registerWrite => exact .plain rfl doRegisterWrite_keeps
  | writePacket => exact .event rfl fun h => settleLink_keeps (takeSpi_keeps h)
  | readReply => exact .plain rfl doReadReply_keeps
  | readStatus => exact .plain rfl doReadStatus_keeps
  -- events
  | queueFetch => exact .event rfl fun h => settleLink_keeps (fetchOne_keeps h)
  | barrierRelease => exact .event rfl doBarrierRelease_keeps
  | barrierTimeout => exact .event rfl doBarrierTimeout_keeps
  | rasterLineStart => exact .event rfl doLineStart_keeps
  | outputFrameStart => exact .event rfl doOutputFrame_keeps
  | flattenComplete => exact .event rfl flattenEnd_keeps
  | sluiceDecisionLine => exact .event rfl doDecisionLine_keeps
  | engineFrameStart => exact .engine rfl engineStart_keeps
  | knownAnswerResult => exact .event rfl doKnownAnswer_keeps
  | kernelLoadVerified => exact .event rfl doKernelLoaded_keeps
  | motionEstimateDone => exact .event rfl doMotionDone_keeps
  | superframeReceive => exact .lane rfl laneReceives_keeps
  | superframeCrcResult => exact .event rfl doCrcResult_keeps
  | groupSuperframeBoundary => exact .event rfl groupBoundary_keeps
  | streamPresent => exact .event rfl doStreamPresent_keeps
  | laneEnterSeed => exact .lane rfl doEnterSeed_keeps
  | laneEnterLocked => exact .lane rfl doEnterLocked_keeps
  | laneLossOfLock => exact .lane rfl doLossOfLock_keeps
  | misconnectionEvent => exact .lane rfl doMisconnection_keeps
  | dllLock => exact .dir rfl doDllLock_keeps
  | forwardedClockLost => exact .dir rfl doClockLost_keeps
  | txSuperframe => exact .dir rfl transmits_keeps
  | directionSleepComplete => exact .dir rfl doSleepComplete_keeps
  | directionWakeComplete => exact .dir rfl (doWakeComplete_keeps fun _ _ _ => applyRecords_keeps)
  | prbsWindowCheck => exact .lane rfl doPrbsWindow_keeps
  | trainingRoundStart => exact .dir rfl doRoundDue_keeps
  | trainingPhaseTimeout => exact .dir rfl doPhaseTimeout_keeps
  | rxAdaptEnd => exact .dir rfl doRxAdaptEnd_keeps
  | bcAckReceived => exact .lane rfl doBcAck_keeps
  | firDwellEnd => exact .lane rfl doFirDwell_keeps
  | bcRequestUnanswered => exact .lane rfl doUnanswered_keeps
  | verifyEnd => exact .dir rfl doVerifyEnd_keeps
  | roundRetryWaitExpire => exact .dir rfl doRetryWait_keeps
  | bcRequestReceived => exact .lane rfl doBcRequest_keeps
  | bcDoneReceived => exact .lane rfl doBcDone_keeps
  | sleepRequestReceived => exact .lane rfl doSleepRequest_keeps
  | refFrameSyncPulse => exact .port rfl doFramePulse_keeps
  | refLineSyncPulse => exact .port rfl doLinePulse_keeps
  | refAbsent => exact .port rfl doRefAbsent_keeps
  | refPresent => exact .port rfl doRefPresent_keeps
  | frameSyncMissing => exact .port rfl doFrameSyncMissing_keeps
  | synthLock => exact .event rfl doSynthLock_keeps
  | synthLossOfLock => exact .event rfl doSynthLoss_keeps
  | bandMiss => exact .event rfl doBandMiss_keeps
  | bandSearchDone => exact .event rfl doBandSearch_keeps
  | syncInEdge => exact .event rfl doSyncIn_keeps
  | fabricSynthLoss => exact .event rfl doFabricLoss_keeps
  | laneSynthLoss => exact .event rfl doLaneLoss_keeps
  | cpbTimerCompare => exact .event rfl timerCompare_keeps
  | inputRasterStale => exact .event rfl doInputStale_keeps
  | destinationBlockService => exact .event rfl doBlockService_keeps
  | underrunHoldExpire => exact .event rfl doHoldExpire_keeps
  | embedBlockSend => exact .event rfl embedSends_keeps
  | tdmFsEdge => exact .event rfl doTdmEdge_keeps
  | tdmFsTimeout => exact .event rfl doTdmTimeout_keeps
  | domainLock => exact .event rfl doDomainLock_keeps
  | domainSampleTimeout => exact .event rfl doDomainTimeout_keeps
  | asrcLock => exact .event rfl doAsrcLock_keeps
  | asrcSourceTimeout => exact .event rfl doAsrcTimeout_keeps
  | nonaudioRevert => exact .event rfl doNonaudioRevert_keeps
  | msgHello => exact .message rfl doHello_keeps
  | linkUp => exact .event rfl doLinkUp_keeps
  | msgCmd => exact .message rfl doCmd_keeps
  | msgVerdict => exact .message rfl doVerdict_keeps
  | commitPoint => exact .event rfl doCommitPoint_keeps
  | msgCommit => exact .message rfl doCommit_keeps
  | msgClass => exact .message rfl decideWith_keeps
  | msgDecide => exact .message rfl decideWith_keeps
  | msgLeat => exact .message rfl doLeat_keeps
  | msgSig => exact .message rfl doSig_keeps
  | msgReport => exact .message rfl doReport_keeps
  | msgState => exact .message rfl doState_keeps
  | msgXfer => exact .message rfl doXfer_keeps
  | msgFail => exact .message rfl partnerFails_keeps
  | msgHandover => exact .message rfl doHandover_keeps
  | decisionDeadlineMiss => exact .event rfl doDeadlineMiss_keeps
  | granuleSignature => exact .event rfl doGranule_keeps
  | signatureUnmatched => exact .event rfl doUnmatched_keeps
  | attributionWindowEnd => exact .event rfl doWindowEnd_keeps
  | resyncLockstep => exact .event rfl doLockstep_keeps
  | resyncTimeout => exact .event rfl doResyncTimeout_keeps
  | transferComplete => exact .event rfl doTransferComplete_keeps
  | faultNAssert => exact .event rfl doFaultN_keeps
  | scrubGranule => exact .event rfl doScrub_keeps
  | lockstepMismatch => exact .event rfl doLockstepMismatch_keeps
  | controlRestartEnd => exact .event rfl doRestartEnd_keeps
  | normalInterruptRecognise => exact .event rfl doNormal_keeps
  | fastInterruptRecognise => exact .event rfl doFast_keeps
  | entryCommit => exact .event rfl doEntryCommit_keeps
  | mret => exact .event rfl doMret_keeps
  | exitCommit => exact .event rfl doExitCommit_keeps
  | gpioInputEdge => exact .plain rfl doGpioInput_keeps
  | resetNAssert => exact .plain rfl doResetAssert_keeps
  | resetNDeassert => exact .plain rfl doResetDeassert_keeps
  | nvRecallComplete => exact .event rfl doNvRecall_keeps
  | bootVerifyEnd => exact .event rfl doBootVerify_keeps
  | firmwareReady => exact .event rfl doFirmwareReady_keeps
  | selfTestEnd => exact .event rfl doSelfTestEnd_keeps
  | startupComplete => exact .event rfl doStartupComplete_keeps
  | coldstartRecall => exact .event rfl doColdRecall_keeps
  | pciePerstN => exact .plain rfl doPerst_keeps
  | railFault => exact .event rfl doRailFault_keeps
  | nvPowerFail => exact .plain rfl doNvPowerFail_keeps
  | nvWriteDone => exact .event rfl doNvWriteDone_keeps
  | refreshPassStart => exact .event rfl doRefreshStart_keeps
  | refreshWord => exact .event rfl doRefreshWord_keeps
  | auditAppend => exact .event rfl doAuditAppend_keeps
  | tamperAlarm => exact .plain rfl doTamperAlarm_keeps
  | tamperCountStore => exact .event rfl doTamperStore_keeps
  | thermalSample => exact .plain rfl doThermal_keeps
  | wakeNLow => exact .event rfl doWakeNLow_keeps
  | wakeTimer => exact .event rfl doWakeTimer_keeps
  | quietEntryEnd => exact .event rfl doQuietEntryEnd_keeps
  | wakeEnd => exact .event rfl doWakeEnd_keeps
  | monitorWindowClose => exact .event rfl doMonitorClose_keeps
  | xferComplete => exact .event rfl xferEnds_keeps
  | cpbLoadChecked => exact .event rfl doLoadChecked_keeps
  | exactCommaFound => exact .lane rfl doExactComma_keeps
  | eccUncorrectableError => exact .event rfl doEccError_keeps
  | datapathLockstepMismatch => exact .event rfl doFault_keeps
  | endToEndCrcMismatch => exact .event rfl doFault_keeps
  | pfwNDeassert => exact .plain rfl doPfwDeassert_keeps
  | tamperSourceInactive => exact .plain rfl doTamperInactive_keeps
  | vaonPowerUp => exact .plain rfl doVaonPowerUp_keeps
  | keyOperationEnd => exact .event rfl doKeyOpEnd_keeps

/-! ### A step -/

/-- A command keeps the invariants and the commands behind it, and takes no time back but in a reset. -/
theorem exec_keeps {i : Instr} {s s' : State} (hx : exec i s = .next s') :
    (Sound s → Sound s') ∧ s'.pending = s.pending ∧ (s'.clk.mono = 0 ∨ s.clk.mono ≤ s'.clk.mono) := by
  obtain ⟨t, u, hu, hk⟩ := row_keeps i s
  obtain rfl : u = s' := Host.Outcome.next.inj (hu.symm.trans hx)
  exact after_enter hk

/-- A step idles on an empty queue, or runs the command in front of it. -/
theorem step_cases {s s' : State} (h : step s = .next s') :
    s.pending = [] ∧ s' = s ∨ ∃ c rest, s.pending = c :: rest ∧ exec c { s with pending := rest } = .next s' := by
  unfold step at h
  split at h
  next he => exact .inl ⟨he, (Host.Outcome.next.inj h).symm⟩
  next c rest he => exact .inr ⟨c, rest, he, h⟩

/-- The queue of commands is no part of what is sound. -/
theorem sound_of_pending {s : State} (rest : List Instr) (h : Sound s) : Sound { s with pending := rest } := h

/-- Settles O48: an idle step changes nothing, any other keeps what its command's row keeps. -/
theorem stepKeepsSound : Obligations.StepKeepsSound := by
  intro s s' hs hstep
  obtain ⟨-, rfl⟩ | ⟨c, rest, -, hx⟩ := step_cases hstep
  · exact hs
  · exact (exec_keeps hx).1 (sound_of_pending rest hs)

end Sys2Proof.Laws
end

section
/-! Buffer objects, transfers, and the points bound to them (chapter 7): what each command's start answers when its checks pass. -/

namespace Sys2Proof.Laws

open Sys2Proof.Machine Sys2Proof.Claims

/-! ### Checks that pass -/

theorem failIf_pass {c : Bool} (h : c = false) (st d : Nat) : failIf c st d = none := if_neg (by simp [h])

/-- Of two checks made in turn both pass. -/
theorem checks_pass {a b : Check} (ha : a = none) (hb : b = none) : (a <|> b) = none := by rw [ha]; exact hb

/-- A check that two conditions guard passes where it holds under both. -/
theorem failIf_guarded {a b c : Bool} (h : a = true → b = true → c = false) (st d : Nat) : failIf (a && b && c) st d = none := by
  cases ha : a
  · rfl
  · cases hb : b
    · rfl
    · exact failIf_pass (h ha hb) st d

/-! ### BUF_CREATE and BUF_DESTROY (R163, R171, R172, R186) -/

section Objects

variable {s : State}

/-- An object is created where its parameters are in range and an index, an extent and its share of the Weir are free. -/
theorem startBufCreate_ok {p : BufCreateP} {i a : Nat} (hb : bufParamsOk p.params s = true) (hi : s.freeIndex = some i)
    (ha : (if roundPond (bufBytes p.params) = 0 then some 0 else s.findExtent [] (roundPond (bufBytes p.params))) = some a)
    (hw : (if p.params.typ = 6 then s.admission (fun _ => false) [{ kind := 8, holder := 0, mb := p.params.hwRate }] else none) = none) :
    startBufCreate p s = .result (s.createBuf p.params i a).2 p.res (leBytes 4 ((fget 0 s.pond.gens i % 262143 + 1) * 16384 + i)) := by
  unfold startBufCreate
  dsimp only
  rw [hi, ha]
  exact (orAns_of_pass (failIf_pass (by simp [hb]) _ _) _).trans (orAns_of_pass hw _)

theorem startBufDestroy_ok {p : BufDestroyP} (hb : (s.bufAt p.handle).isSome = true) (hu : s.bufUsed p.handle = false) :
    startBufDestroy p s =
      .done (({ s with pond := { s.pond with bufs := fset none s.pond.bufs (p.handle % 16384) none } }).charge (ofUser 8 p.handle) []) :=
  orAns_of_pass (checks_pass (failIf_pass (by simpa [Option.isSome_iff_ne_none] using hb) _ _) (failIf_pass hu _ _)) _

end Objects

/-! ### BUF_XFER (R179, R180, R316) -/

section Transfer

variable {s : State} {p : BufXferP} {b tgt : Buf}

/-- The operands of a transfer through the window `b` fit its target `tgt`. -/
def XferFits (p : BufXferP) (b tgt : Buf) : Prop :=
  p.rsvd = 0 ∧ p.offset % 256 = 0 ∧ p.hostAddr % 256 = 0 ∧ p.bytes % 256 = 0 ∧ 0 < p.bytes ∧ p.offset + p.bytes ≤ tgt.size ∧
  (p.p3 = true → tgt.params.typ = 4) ∧ (p.markComplete = true → b.params.dir = 1 ∧ isRing tgt = true ∧ p.slot < tgt.params.count)

theorem xferOperands_pass (h : XferFits p b tgt) :
    (p.rsvd != 0 || p.offset % 256 != 0 || p.hostAddr % 256 != 0 || p.bytes % 256 != 0 || p.bytes == 0 ||
      decide (tgt.size < p.offset + p.bytes) ||
      (p.markComplete && !(b.params.dir == 1 && isRing tgt && decide (p.slot < tgt.params.count))) ||
      (p.p3 && tgt.params.typ != 4)) = false := by
  obtain ⟨hz, ho, ha, hb, hn, hs, hp, hm⟩ := h
  have hp3 : (p.p3 && tgt.params.typ != 4) = false := by
    cases he : p.p3
    · rfl
    · simp [hp he]
  have hmark : (p.markComplete && !(b.params.dir == 1 && isRing tgt && decide (p.slot < tgt.params.count))) = false := by
    cases he : p.markComplete
    · rfl
    · obtain ⟨hd, hr, hk⟩ := hm he
      simp [hd, hr, hk]
  rw [hp3, hmark]
  simp [hz, ho, ha, hb, Nat.ne_of_gt hn, Nat.not_lt.mpr hs]

/-- A transfer through a host window whose target no reader holds where it writes. -/
theorem startBufXfer_ok (hw : s.bufAt p.window = some b) (ht : b.params.typ = 6) (hg : s.bufAt b.params.target = some tgt)
    (hf : XferFits p b tgt)
    (hr : b.params.dir = 1 → isRing tgt = true →
      ∀ k ∈ slotsIn tgt p.offset (p.offset + p.bytes) ++ (if p.markComplete then [p.slot] else []),
        (s.heldSlots b.params.target).contains k = false)
    (hs : b.params.dir = 1 → tgt.params.typ = 3 → (s.comp.outs.any fun e => e.2.runs.any fun r => r.any fun (x : StaticRun) =>
      x.bufA == b.params.target || x.bufB == b.params.target) = false)
    (hk : b.params.dir = 1 → tgt.params.typ = 5 → (s.engines.tasks.any fun e => e.2.any fun (k : Task) =>
      (blockHandles k.p.block).contains b.params.target) = false) :
    startBufXfer p s = .later { s with pond := { s.pond with
      xfers := s.pond.xfers ++ [{ job := s.nextJob, p := p, buf := b.params.target, toDevice := b.params.dir == 1 }] } } .event := by
  unfold startBufXfer
  rw [hw]
  dsimp only
  rw [if_pos ht, hg]
  refine orAns_of_pass (checks_pass (failIf_pass (xferOperands_pass hf) _ _) (checks_pass (failIf_guarded ?_ _ _)
    (checks_pass (failIf_guarded ?_ _ _) (failIf_guarded ?_ _ _)))) _
  · exact fun hd hring => List.any_eq_false.mpr fun k hk => Bool.eq_false_iff.mp (hr (eq_of_beq hd) hring k hk)
  · exact fun hd htyp => hs (eq_of_beq hd) (eq_of_beq htyp)
  · exact fun hd htyp => hk (eq_of_beq hd) (eq_of_beq htyp)

end Transfer

/-- Settles O8: each command from what its start answers, a host window apart from the objects that take an extent. -/
theorem bufferCommands : Obligations.BufferCommands := by
  refine ⟨fun s t h => ⟨fun p i a => ?_, fun p i => ?_, fun p => ?_⟩, fun s t h p b tgt => ?_⟩
  · exact answers_of_start rfl fun w ⟨hb, ht, hi, hn, ha⟩ => startBufCreate_ok hb hi ((if_neg hn).trans ha) (if_neg ht)
  · exact answers_of_start rfl fun w ⟨hb, ht, hi, hn, hw⟩ => startBufCreate_ok hb hi (if_pos hn) ((if_pos ht).trans hw)
  · exact completes_of_start rfl fun w ⟨hb, hu⟩ => startBufDestroy_ok hb hu
  · exact waits_of_start rfl rfl fun w ⟨hq, hw, ht, hg, hz, ho, ha, hn, hp, hl, h3, hm, hr, hs, hk⟩ =>
      (orAns_of_pass (failIf_pass (by simpa using hq) _ _) _).trans
        (startBufXfer_ok hw ht hg ⟨hz, ho, ha, hn, hp, hl, h3, hm⟩ hr hs hk)

/-! ### CAPTURE_BIND (R181) -/

section Capture

variable {s : State} {p : CaptureBindP}

/-- The charges of the writer at point `cw` (Table 7.5). -/
def ofWriter (cw : Nat) (c : Charge) : Bool := decide (c.kind < 2) && c.holder == cw

/-- The charge that a writer into `b` takes. -/
def writerAdd (p : CaptureBindP) (b : Buf) : List Charge :=
  [{ kind := if b.params.typ = 1 then 1 else 0, holder := p.cw, sub := p.handle, mb := writerCharge b.params }]

/-- A writer group of another place or size overlaps the one asked for. -/
def otherWriter (p : CaptureBindP) (s : State) : Bool := s.pond.caps.any fun e => e.2.any fun (c : CapBind) =>
  overlap e.1 c.p.g (p.cw - 896) p.g && (e.1 != p.cw - 896 || c.p.g != p.g)

/-- The points of the writer group are in range and free. -/
def WriterFree (p : CaptureBindP) (s : State) : Prop :=
  bindPointOk p.cw p.g = true ∧ p.rsvd = 0 ∧ s.destRouted p.cw p.g = false ∧ s.resvHolds (p.cw - 896) p.g = false ∧
  otherWriter p s = false

/-- The binding that a CAPTURE_BIND leaves. -/
def captureBinding (p : CaptureBindP) (s : State) : CapBind := { p := p, job := if p.oneShot then some s.nextJob else none }

/-- The state once the writer is bound to `b`. -/
def captureBound (p : CaptureBindP) (b : Buf) (s : State) : State :=
  ((endBind (fget none s.pond.caps (p.cw - 896)) s).setCap (p.cw - 896) (some (captureBinding p s))).charge (ofWriter p.cw) (writerAdd p b)

theorem startCaptureBind_unbinds (hf : WriterFree p s) (hh : p.handle = 0) (ho : p.oneShot = false)
    (ha : s.admission (ofWriter p.cw) [] = none) :
    startCaptureBind p s =
      .done (endBind (fget none s.pond.caps (p.cw - 896)) ((s.setCap (p.cw - 896) none).charge (ofWriter p.cw) [])) := by
  obtain ⟨hp, hz, hr, hv, hother⟩ := hf
  unfold startCaptureBind
  simp only [if_pos hh]
  refine orAns_of_pass (checks_pass (failIf_pass ?_ _ _) (checks_pass (failIf_pass ?_ _ _) (checks_pass (failIf_pass ?_ _ _) ha))) _
  · simp [hp, hz, ho]
  · simp [hh]
  · rw [hr, hv]; exact hother

theorem startCaptureBind_binds {b : Buf} (hf : WriterFree p s) (hh : p.handle ≠ 0) (hb : s.bufAt p.handle = some b)
    (ht : b.params.typ < 3) (ho : p.oneShot = true → b.params.typ = 2) (ha : s.admission (ofWriter p.cw) (writerAdd p b) = none) :
    startCaptureBind p s = if p.oneShot then .later (captureBound p b s) .event else .done (captureBound p b s) := by
  obtain ⟨hp, hz, hr, hv, hother⟩ := hf
  have hshot : (!p.oneShot || b.params.typ == 2) = true := by
    cases he : p.oneShot
    · rfl
    · simp [ho he]
  unfold startCaptureBind
  simp only [if_neg hh, hb]
  refine orAns_of_pass (checks_pass (failIf_pass ?_ _ _) (checks_pass (failIf_pass ?_ _ _) (checks_pass (failIf_pass ?_ _ _) ha))) _
  · simp [hp, hz, hh]
  · simp [ht, hshot]
  · rw [hr, hv]; exact hother

end Capture

/-! ### PLAYOUT_BIND (R181) -/

section Playout

variable {s : State} {p : PlayoutBindP}

/-- A reader group of another place or size overlaps the one asked for. -/
def otherReader (p : PlayoutBindP) (s : State) : Bool := s.pond.plays.any fun e => e.2.any fun (c : PlayBind) =>
  overlap e.1 c.p.g (p.pb - 896) p.g && (e.1 != p.pb - 896 || c.p.g != p.g)

/-- The points of the reader group are in range and free. -/
def ReaderFree (p : PlayoutBindP) (s : State) : Prop :=
  bindPointOk p.pb p.g = true ∧ p.rsvd = 0 ∧ s.srcRouted p.pb p.g = false ∧ s.resvHoldsPb (p.pb - 896) p.g = false ∧
  otherReader p s = false

/-- The charge that a reader of `b` on raster `r` takes. -/
def readerAdd (p : PlayoutBindP) (b : Buf) (r : Standing) : List Charge :=
  [{ kind := 2, holder := p.pb, sub := p.handle, mb := readerCharge b.params.width b.params.format r.desc }]

theorem startPlayoutBind_unbinds (hf : ReaderFree p s) (hh : p.handle = 0) (hb : s.bufAt 0 = none)
    (ha : s.admission (ofUser 2 p.pb) [] = none) :
    startPlayoutBind p s = .done ((s.setPlay (p.pb - 896) none).charge (ofUser 2 p.pb) []) := by
  obtain ⟨hp, hz, hr, hv, hother⟩ := hf
  unfold startPlayoutBind
  simp only [hh, hb, if_true]
  refine orAns_of_pass (checks_pass (failIf_pass ?_ _ _) (checks_pass (failIf_pass rfl _ _) (checks_pass (failIf_pass ?_ _ _) ha))) _
  · simp [hp, hz]
  · rw [hr, hv]; exact hother

theorem startPlayoutBind_binds {b : Buf} {r : Standing} (hf : ReaderFree p s) (hh : p.handle ≠ 0) (hb : s.bufAt p.handle = some b)
    (hring : isRing b = true) (hraster : s.raster? p.raster = some r) (hm : p.mode < 3) (he : p.mode = 0 → p.extra ≤ 5)
    (hs : p.mode = 2 → p.slot < b.params.count) (ha : s.admission (ofUser 2 p.pb) (readerAdd p b r) = none) :
    startPlayoutBind p s = .done ((s.setPlay (p.pb - 896) (some { p := p })).charge (ofUser 2 p.pb) (readerAdd p b r)) := by
  obtain ⟨hp, hz, hr, hv, hother⟩ := hf
  have hextra : (p.mode != 0 || decide (p.extra ≤ 5)) = true := by
    by_cases h0 : p.mode = 0
    · simp only [he h0, decide_true, Bool.or_true]
    · simp only [bne_iff_ne.mpr h0, Bool.true_or]
  have hslot : (p.mode != 2 || decide (p.slot < b.params.count)) = true := by
    by_cases h2 : p.mode = 2
    · simp only [hs h2, decide_true, Bool.or_true]
    · simp only [bne_iff_ne.mpr h2, Bool.true_or]
  unfold startPlayoutBind
  simp only [hb, hraster, if_neg hh]
  refine orAns_of_pass (checks_pass (failIf_pass ?_ _ _) (checks_pass (failIf_pass ?_ _ _) (checks_pass (failIf_pass ?_ _ _) ha))) _
  · simp [hp, hz]
  · simp [hm, hextra, hslot, hring]
  · rw [hr, hv]; exact hother

end Playout

/-- Settles O9: each bind and unbind from what its start answers, a one-shot bind by its wait. -/
theorem captureAndPlayoutCommands : Obligations.CaptureAndPlayoutCommands := by
  intro s t h
  refine ⟨fun p => ⟨?_, fun b => ⟨?_, ?_⟩⟩, fun p => ⟨?_, fun b r => ?_⟩⟩
  · exact completes_of_start rfl fun w ⟨hp, hz, hh, ho, hr, hv, hother, ha⟩ =>
      startCaptureBind_unbinds ⟨hp, hz, hr, hv, hother⟩ hh ho ha
  · refine completes_of_start rfl fun w ⟨hshot, hp, hz, hh, hb, ht, ho, hr, hv, hother, ha⟩ =>
      (startCaptureBind_binds ⟨hp, hz, hr, hv, hother⟩ hh hb ht ho ha).trans ?_
    simp only [hshot, captureBound, captureBinding]
    rfl
  · refine waits_of_start rfl rfl fun w ⟨hshot, hp, hz, hh, hb, ht, ho, hr, hv, hother, ha⟩ =>
      (startCaptureBind_binds ⟨hp, hz, hr, hv, hother⟩ hh hb ht ho ha).trans ?_
    simp only [hshot, captureBound, captureBinding]
    rfl
  · exact completes_of_start rfl fun w ⟨hp, hz, hh, hb, hr, hv, hother, ha⟩ =>
      startPlayoutBind_unbinds ⟨hp, hz, hr, hv, hother⟩ hh hb ha
  · exact completes_of_start rfl fun w ⟨hp, hz, hh, hb, hring, hraster, hm, he, hs, hr, hv, hother, ha⟩ =>
      startPlayoutBind_binds ⟨hp, hz, hr, hv, hother⟩ hh hb hring hraster hm he hs ha

end Sys2Proof.Laws
end

section
/-! The reads of buffers, the Weir, layers, fences and audio channels (chapters 7, 10 and 11): what each answers when its checks pass. -/

namespace Sys2Proof.Laws

open Sys2Proof.Machine Sys2Proof.Claims

variable {s : State}

/-- The charges held on the object `h`: those of a reservation's ring name none (R365). -/
def chargesOn (h : Nat) (s : State) : List Charge := s.pond.charges.filter fun c => c.sub == h && c.kind != 7

theorem startBufQuery_ok {p : BufQueryP} {b : Buf} (hb : s.bufAt p.handle = some b) (hz : p.rsvd = 0) :
    startBufQuery p s = .result s p.res (bufParamBytes b.params ++ leBytes 8 b.addr ++ leBytes 8 b.size ++
      leBytes 4 (totalMb (chargesOn p.handle s)) ++ leBytes 2 (chargesOn p.handle s).length ++ leBytes 18 0) := by
  unfold startBufQuery
  rw [hb]
  exact orAns_of_pass (failIf_pass (by simp [hz]) _ _) _

theorem startLayerQuery_ok {p : OutputQueryP} (hz : p.rsvd = 0) (ho : p.output < 512) (hx : (s.txStream p.output).isSome = true) :
    startLayerQuery p s = .result s p.res (layerNos.flatMap (s.layerRecord p.output)) := by
  obtain ⟨x, hx⟩ := Option.isSome_iff_exists.mp hx
  exact orAns_of_pass (failIf_pass (by simp [hz, hx, Nat.not_le.mpr ho]) _ _) _

theorem startFenceQuery_ok {p : FenceQueryP} (hz : p.rsvd = 0) (hf : p.fence < 256) :
    startFenceQuery p s = .result s p.res (leBytes 4 (s.fence p.fence).value.toNat ++ leBytes 2 ((s.fence p.fence).point.getD 0xFFFF) ++
      leBytes 2 0 ++ leBytes 8 (s.fence p.fence).stamp ++ leBytes 8 (s.fence p.fence).discarded) :=
  orAns_of_pass (failIf_pass (by simp [hz, Nat.not_le.mpr hf]) _ _) _

/-- The side asked for has every channel of the list. -/
def ChannelsThere (p : AudioQueryP) (s : State) : Prop :=
  p.side = 0 ∧ (∀ c ∈ p.channels, (s.dstRateOf c).isSome = true) ∨ p.side = 1 ∧ ∀ c ∈ p.channels, (s.srcInfo c).isSome = true

theorem channelsThere_pass {p : AudioQueryP} (h : ChannelsThere p s) :
    (decide (2 ≤ p.side) || !(p.channels.all fun c => if p.side = 0 then (s.dstRateOf c).isSome else (s.srcInfo c).isSome)) = false := by
  rcases h with ⟨hs, hc⟩ | ⟨hs, hc⟩
  · simpa [hs] using hc
  · simpa [hs] using hc

theorem startAudioQuery_ok {p : AudioQueryP} (hne : p.channels ≠ []) (hn : p.channels.length ≤ 1024) (hz : p.rsvd = 0)
    (hc : ChannelsThere p s) : startAudioQuery p s = .result s p.res (p.channels.flatMap (s.audioRecord p.side)) := by
  refine orAns_of_pass (checks_pass (failIf_pass ?_ _ _) (failIf_pass ?_ _ _)) _
  · simp [hne, hn]
  · rw [Bool.or_assoc, channelsThere_pass hc]
    simp [hz]

/-- Settles O2: each read by the layout of what its start answers. -/
theorem readsOfPondLayersAudio : Obligations.ReadsOfPondLayersAudio := by
  refine ⟨fun s t h => ⟨fun p b => ?_, fun p => ?_⟩, fun s t h => ⟨fun p => ?_, fun p => ?_⟩, fun s t h p => ?_⟩
  · exact answers_of_start rfl fun w ⟨hb, hz⟩ => startBufQuery_ok hb hz
  · exact answers_of_start rfl fun _ _ => rfl
  · exact answers_of_start rfl fun w ⟨hz, ho, hx⟩ => startLayerQuery_ok hz ho hx
  · exact answers_of_start rfl fun w ⟨hz, hf⟩ => startFenceQuery_ok hz hf
  · exact answers_of_start rfl fun w ⟨hne, hn, hz, hc⟩ => startAudioQuery_ok hne hn hz hc

end Sys2Proof.Laws
end

section
/-! Signatures, attribution, taint, resynchronisation and transfer of a pair (chapter 14): what each event does, case by case. -/

namespace Sys2Proof.Laws

open Sys2Proof.Machine Sys2Proof.Claims

/-- The member compares signatures: it is of a pair and not apart (R391). -/
def Paired (s : State) : Prop := s.pair.role ≠ .solo ∧ s.pair.sync ≠ .apart

theorem Paired.compares {s : State} (h : Paired s) : ¬(s.pair.role = .solo || s.pair.sync = .apart) = true := by
  simpa [Paired] using h

/-! ### Own signatures (R389, R390) -/

section Own

variable {s : State} {g : GranuleSig} {content : List Bool}

/-- The granule as it is signed: its content's CRC-32, its frame modulo 2^16. -/
def signedGranule (g : GranuleSig) (content : List Bool) : GranuleSig := { g with sig := crc32 content, frame := g.frame % 65536 }

/-- The signature has left on the link, with the keys that are usable (R394). -/
def signatureSent (g : GranuleSig) (s : State) : State := s.emit (.brinen 8 ([g.stream, g.frame, g.pos, g.sig] ++ s.usableKeys))

theorem doGranule_of_content (hc : s.granuleBits g = some content) : doGranule g s = signGranule g content s := by
  unfold doGranule
  rw [hc]

theorem doGranule_waits (hp : Paired s) (hc : s.granuleBits g = some content)
    (hf : s.pair.partner.find? (fun e => sameGranule e.1 (signedGranule g content)) = none) :
    doGranule g s = (signatureSent (signedGranule g content) s).setPair { s.pair with own := s.pair.own ++ [(signedGranule g content, s.now)] } := by
  rw [doGranule_of_content hc]
  refine (if_neg hp.compares).trans ?_
  unfold signedGranule at hf
  rw [hf]
  rfl

theorem doGranule_agrees {e : GranuleSig × Tick} (hp : Paired s) (hc : s.granuleBits g = some content)
    (hf : s.pair.partner.find? (fun e => sameGranule e.1 (signedGranule g content)) = some e) (he : e.1.sig = (signedGranule g content).sig) :
    doGranule g s = (signatureSent (signedGranule g content) s).setPair
      { s.pair with partner := s.pair.partner.filter fun x => !sameGranule x.1 (signedGranule g content) } := by
  rw [doGranule_of_content hc]
  refine (if_neg hp.compares).trans ?_
  unfold signedGranule at hf
  rw [hf]
  exact if_pos he.symm

theorem doGranule_stays (h : s.pair.role = .solo ∨ s.pair.sync = .apart ∨ s.granuleBits g = none) : doGranule g s = s := by
  cases hc : s.granuleBits g with
  | none => unfold doGranule; rw [hc]
  | some content =>
    have hp : s.pair.role = .solo ∨ s.pair.sync = .apart := by simpa [hc] using h
    rw [doGranule_of_content hc]
    exact if_pos (by simpa using hp)

theorem doUnmatched_counts (h : (s.pair.own.any fun x => sameGranule x.1 g && decide (x.2 + 540000 ≤ s.now)) = true) :
    doUnmatched g s = (s.setPair { s.pair with own := s.pair.own.filter fun x => !sameGranule x.1 g }).count 13 0 2 := if_pos h

theorem doUnmatched_stays (h : (s.pair.own.any fun x => sameGranule x.1 g && decide (x.2 + 540000 ≤ s.now)) = false) :
    doUnmatched g s = s := if_neg (by simp [h])

end Own

/-! ### The partner's signatures (R390, R391, R393) -/

section Partner

variable {s : State} {g : GranuleSig} {keys : List Nat} {e : GranuleSig × Tick}

/-- The own signature of the granule has been taken out for comparison. -/
def signatureMet (g : GranuleSig) (keys : List Nat) (s : State) : State :=
  s.setPair { s.pair with partnerKeys := keys, own := s.pair.own.filter fun x => !sameGranule x.1 g }

theorem doSig_waits (hp : Paired s) (hf : s.pair.own.find? (fun e => sameGranule e.1 g) = none) :
    doSig [g] keys s = s.setPair { s.pair with partnerKeys := keys, partner := young s.now s.pair.partner ++ [(g, s.now)] } := by
  refine (if_neg hp.compares).trans ?_
  unfold State.each
  rw [setPair_pair, hf]
  rfl

/-- A signature whose own counterpart is stored meets it. -/
theorem doSig_meets (hp : Paired s) (hf : s.pair.own.find? (fun e => sameGranule e.1 g) = some e) :
    doSig [g] keys s = (signatureMet g keys s).meet e.1 g := by
  refine (if_neg hp.compares).trans ?_
  unfold State.each
  rw [setPair_pair, hf]
  rfl

theorem meet_equal {a b : GranuleSig} (h : a.sig = b.sig) (s : State) : s.meet a b = s := if_pos h

theorem meet_unequal {a b : GranuleSig} (h : a.sig ≠ b.sig) (s : State) : s.meet a b = s.mismatch a.stream a.frame := if_neg h

/-- In lockstep an input's signatures that differ are reported and taint it (R392, R393). -/
theorem mismatch_input {n f : Nat} (hl : s.pair.sync = .lockstep) (hi : n / 512 % 2 = 0) :
    s.mismatch n f = s.inputMismatch.taint 0 (n % 512) f := by
  refine (if_pos hi).trans ?_
  rw [if_neg (by simp [hl])]

/-- The mismatch of an output is counted (R391). -/
def outputDiffers (n f : Nat) (s : State) : State :=
  (s.setPair { s.pair with outMismatch := s.pair.outMismatch + 1, lastStc := s.stc,
                           lastBad := fset 0 s.pair.lastBad (n % 512) (s.wholeFrame (n % 512) f + 1) }).count 13 0 1

/-- In lockstep an output's signatures that differ open its attribution window, where nothing explains them (R393). -/
theorem mismatch_output {n f : Nat} (hl : s.pair.sync = .lockstep) (ho : n / 512 % 2 ≠ 0)
    (ht : (outputDiffers n f s).tainted (n % 512) = false) (hk : (outputDiffers n f s).keyDiffers (n % 512) = false)
    (hw : fget none s.pair.windows (n % 512) = none) :
    s.mismatch n f = (outputDiffers n f s).setPair { (outputDiffers n f s).pair with
      windows := fset none (outputDiffers n f s).pair.windows (n % 512) (some (outputDiffers n f s).now) } := by
  have hopen : (fget none (outputDiffers n f s).pair.windows (n % 512)).isSome = false := by
    simp [outputDiffers, hw]
  refine (if_neg ho).trans ((if_neg (by simp [hl])).trans ((if_neg ?_).trans (if_neg ?_)))
  · exact Bool.eq_false_iff.mp (by rw [Bool.or_eq_false_iff]; exact ⟨ht, hk⟩)
  · exact Bool.eq_false_iff.mp hopen

end Partner

/-! ### Attribution and reports (R392, R393) -/

section Attribution

variable {s : State} {n : Nat} {t0 : Tick}

/-- The engines on the path of output `n`. -/
def enginesBehind (n : Nat) (s : State) : List Nat := ((s.route n).map fun r => s.pathEngines 192 r.src).getD []

/-- The attribution window of output `n` is closed. -/
def windowClosed (n : Nat) (s : State) : State := s.setPair { s.pair with windows := fset none s.pair.windows n none }

theorem doWindowEnd_closes (hw : fget none s.pair.windows n = some t0) (hd : enginesBehind n s ≠ [] ∨ t0 + 5400 ≤ s.now) :
    doWindowEnd n s =
      if s.pair.role = .mate && s.pair.sync = .lockstep then (windowClosed n s).enterFailed 7 n 0 else windowClosed n s := by
  have hdue : ((enginesBehind n s).isEmpty && decide (s.now < t0 + 5400)) = false := by
    rcases hd with hd | hd
    · simp [hd]
    · simp [Nat.not_lt.mpr hd]
  unfold doWindowEnd
  rw [hw]
  exact if_neg (Bool.eq_false_iff.mp hdue)

theorem doWindowEnd_stays (hw : fget none s.pair.windows n = none) : doWindowEnd n s = s := by
  unfold doWindowEnd
  rw [hw]

theorem doReport_missing (hr : s.pair.role ≠ .solo) (unit v : Nat) : doReport 0 unit v s = s.inputMismatch.taint 2 unit v :=
  if_neg hr

theorem doReport_of_solo (hr : s.pair.role = .solo) (kind unit v : Nat) : doReport kind unit v s = s := if_pos hr

/-- A slot's CRC is kept until both members' are there. -/
theorem doReport_crc {unit v : Nat} (hr : s.pair.role ≠ .solo)
    (hf : s.pair.crcs.find? (fun x => x.1 == unit && x.2.2 != false) = none) :
    doReport 1 unit v s = s.setPair { s.pair with crcs := s.pair.crcs ++ [(unit, v, false)] } := by
  refine (if_neg hr).trans (?_ : s.slotCrc unit v false = _)
  unfold State.slotCrc
  rw [hf]

end Attribution

/-! ### The snapshot and the content (R401, R402) -/

section Snapshot

variable {s : State} {seq rix lib addr : Nat} {last : Bool} {items : List CmdBody} {content : List Byte}

/-- The versions that a snapshot names are all held (R401). -/
def snapshotHeld (lib : Nat) (items : List CmdBody) (s : State) : Bool :=
  libHolds (Config.libVersion s.sys.image) lib && (s.pair.snapshot ++ items).all s.holdsVersion

/-- A MATE that is apart collects a fragment that it has not seen. -/
def Collects (seq : Nat) (s : State) : Prop := s.pair.role = .mate ∧ s.pair.sync = .apart ∧ seq % 256 ≠ s.pair.seqIn

theorem Collects.takes (h : Collects seq s) : ¬(s.pair.role ≠ .mate || s.pair.sync ≠ .apart || seq % 256 = s.pair.seqIn) = true := by
  simpa [Collects, and_assoc] using h

theorem doState_collects (hc : Collects seq s) (hh : last = false ∨ snapshotHeld lib items s = true) :
    doState seq last rix lib items s = s.setPair { s.pair with
      seqIn := seq % 256, snapshot := s.pair.snapshot ++ items, snapRix := rix, snapReady := last } := by
  have hheld : (last && !snapshotHeld lib items s) = false := by
    rcases hh with hh | hh <;> simp [hh]
  exact (if_neg hc.takes).trans (if_neg (Bool.eq_false_iff.mp hheld))

theorem doState_lacks (hc : Collects seq s) (hl : last = true) (hh : snapshotHeld lib items s = false) :
    doState seq last rix lib items s = s.setPair { s.pair with seqIn := seq % 256, snapshot := [] } := by
  have hlacks : (last && !snapshotHeld lib items s) = true := by rw [hl, hh]; rfl
  exact (if_neg hc.takes).trans (if_pos hlacks)

theorem doState_stays (h : s.pair.role ≠ .mate ∨ s.pair.sync ≠ .apart) : doState seq last rix lib items s = s :=
  if_pos (by rcases h with h | h <;> simp [h])

/-- The Weir holds a transfer's budget (R402). -/
def transferCharged (s : State) : State := s.charge (fun _ => false) [{ kind := 8, holder := 2 ^ 32, mb := s.transferRate }]

/-- The content has been stored, what lies past the Millpond's end dropped. -/
def contentStored (seq addr : Nat) (content : List Byte) (s : State) : State :=
  (s.pondWrite addr (content.take (pondSize - addr))).setPair { s.pair with seqIn := seq % 256 }

theorem doXfer_stores (hr : s.pair.role = .mate) :
    doXfer seq addr content s = contentStored seq addr content (if s.pond.charges.any ofTransfer then s else transferCharged s) :=
  if_neg (by simp [hr])

theorem doXfer_stays (hr : s.pair.role ≠ .mate) : doXfer seq addr content s = s := if_pos hr

end Snapshot

/-! ### The end of resynchronisation (R401) -/

section Lockstep

variable {s : State}

/-- Every output has matched for four frames. -/
def allMatched (s : State) : Bool := s.rasters.all fun x => s.outMatched x.1

/-- The members are in lockstep, and the LEAD leads with authority. -/
def lockstepReached (s : State) : State := (s.setPair { s.pair with sync := .lockstep, authority := s.pair.role == .lead }).fire 980

theorem doLockstep_locks (hr : s.pair.role ≠ .solo) (hs : s.pair.sync = .resync) (hm : allMatched s = true) :
    doLockstep s = (if s.pair.role = .lead && !s.pair.authority then (lockstepReached s).fire 977 else lockstepReached s).completeWhere
      (fun j => isResync j.params) stOk 0 none :=
  if_neg (by simpa [hr, hs, allMatched] using hm)

theorem doLockstep_stays (h : s.pair.sync ≠ .resync ∨ allMatched s = false) : doLockstep s = s := by
  refine if_pos ?_
  rcases h with h | h
  · simp [h]
  · rw [allMatched] at h
    simp [h]

/-- The first output that still mismatches. -/
def firstBad (s : State) : Nat := ((s.rasters.find? fun x => !s.outMatched x.1).map (·.1)).getD 0

theorem doResyncTimeout_ends (hs : s.pair.sync = .resync) (ht : s.pair.resyncT + 2700000000 ≤ s.now) (hj : s.jobOf isTransfer = none) :
    doResyncTimeout s = s.dropApart.completeWhere (fun j => isResync j.params) stPairDiverged (firstBad s) none :=
  if_neg (by simp [State.resyncOver, hs, ht, hj])

theorem doResyncTimeout_stays (h : s.pair.sync = .lockstep ∨ s.now < s.pair.resyncT + 2700000000) : doResyncTimeout s = s := by
  refine if_pos ?_
  rcases h with h | h
  · simp [h]
  · simp [State.resyncOver, Nat.not_le.mpr h]

end Lockstep

/-! ### FAULT_N (R398) -/

section FaultN

variable {s : State}

theorem doFaultN_asserts (hm : s.sys.mode = .failed) (hs : s.anySends = false)
    (hp : s.pins.faultN = .high ∨ s.pins.faultN = .hiZ ∧ s.sys.stage = .done) :
    doFaultN s = { s with pins := { s.pins with faultN := .low } }.emit (.faultN true) := by
  refine if_pos ?_
  rcases hp with hp | ⟨hp, hb⟩
  · simp [hm, hs, hp]
  · simp [hm, hs, hp, State.pastBoot, hb]

theorem doFaultN_stays (h : s.sys.mode ≠ .failed ∨ s.anySends = true) : doFaultN s = s :=
  if_neg (by rcases h with h | h <;> simp [h])

end FaultN

/-- Settles O35: signatures by whether a counterpart is stored and equal, the window by whether it is due, the rest by what each
message or event finds. -/
theorem signatureAndResyncRows : Obligations.SignatureAndResyncRows := by
  refine ⟨?_, ?_⟩
  · intro s t a g content keys e unit v n t0 ha
    refine ⟨?_, ?_, ?_, ?_, ?_, ?_, ?_, ?_, ?_, ?_, ?_, ?_, ?_, ?_, ?_⟩
    · exact events_of_onEvent rfl fun w _ ⟨⟨hp, hc⟩, hf⟩ => doGranule_waits hp hc hf
    · exact events_of_onEvent rfl fun w _ ⟨⟨hp, hc⟩, hf, he⟩ => doGranule_agrees hp hc hf he
    · exact events_of_onEvent rfl fun w _ h => doGranule_stays h
    · exact events_of_message ha rfl fun w ⟨hp, hf⟩ => doSig_waits hp hf
    · exact events_of_message ha rfl fun w ⟨hp, hf, he⟩ => (doSig_meets hp hf).trans (meet_equal he _)
    · exact events_of_message ha rfl fun w ⟨hp, hl, hf, he, hi⟩ =>
        (doSig_meets hp hf).trans ((meet_unequal he _).trans (mismatch_input hl hi))
    · exact events_of_message ha rfl fun w ⟨hp, hl, hf, he, ho, ht, hk, hw⟩ =>
        (doSig_meets hp hf).trans ((meet_unequal he _).trans (mismatch_output hl ho ht hk hw))
    · exact events_of_onEvent rfl fun w _ h => doUnmatched_counts h
    · exact events_of_onEvent rfl fun w _ h => doUnmatched_stays h
    · exact events_of_onEvent rfl fun w _ ⟨hw, hd, hr, hs⟩ => (doWindowEnd_closes hw hd).trans (if_pos (by simp [hr, hs]))
    · exact events_of_onEvent rfl fun w _ ⟨hw, hd, hr⟩ => (doWindowEnd_closes hw hd).trans (if_neg (by simp [hr]))
    · exact events_of_onEvent rfl fun w _ hw => doWindowEnd_stays hw
    · exact events_of_message ha rfl fun w hr => doReport_missing hr unit v
    · exact events_of_message ha rfl fun w ⟨hr, hf⟩ => doReport_crc hr hf
    · exact events_of_message ha rfl fun w hr => doReport_of_solo hr 0 unit v
  · intro s t a seq addr rix lib last content items ha
    refine ⟨?_, ?_, ?_, ?_, ?_, ?_, ?_, ?_, ?_, ?_, ?_, ?_, ?_, ?_⟩
    · exact events_of_message ha rfl fun w ⟨hc, hh⟩ => doState_collects hc hh
    · exact events_of_message ha rfl fun w ⟨hc, hl, hh⟩ => doState_lacks hc hl hh
    · exact events_of_message ha rfl fun w h => doState_stays h
    · exact events_of_message ha rfl fun w ⟨hr, hc⟩ => (doXfer_stores hr).trans (congrArg _ (if_pos hc))
    · exact events_of_message ha rfl fun w ⟨hr, hc⟩ => (doXfer_stores hr).trans (congrArg _ (if_neg (by simp [hc])))
    · exact events_of_message ha rfl fun w hr => doXfer_stays hr
    · exact events_of_onEvent rfl fun w _ ⟨hr, hs, hm, ha⟩ =>
        (doLockstep_locks hr hs hm).trans (congrArg (fun u : State => u.completeWhere _ _ _ _) (if_neg (by simpa using ha)))
    · exact events_of_onEvent rfl fun w _ ⟨hs, hm, hr, ha⟩ => (doLockstep_locks (by simp [hr]) hs hm).trans
        (congrArg (fun u : State => u.completeWhere _ _ _ _) (if_pos (by simp [hr, ha])))
    · exact events_of_onEvent rfl fun w _ h => doLockstep_stays h
    · refine events_of_onEvent rfl fun w _ ⟨hs, ht, hj⟩ => (doResyncTimeout_ends hs ht hj).trans ?_
      rw [dropApart_of_paired (by simp [hs])]
      rfl
    · exact events_of_onEvent rfl fun w _ h => doResyncTimeout_stays h
    · exact events_of_onEvent rfl fun _ _ _ => rfl
    · exact events_of_onEvent rfl fun w _ ⟨hm, hs, hp⟩ => doFaultN_asserts hm hs hp
    · exact events_of_onEvent rfl fun w _ h => doFaultN_stays h

end Sys2Proof.Laws
end

section
/-! Conversion engines (chapters 8 and 9): what each engine command's start answers when its checks pass, and what each engine event
does, case by case. -/

namespace Sys2Proof.Laws

open Sys2Proof.Machine Sys2Proof.Claims

/-! ### KERNEL_UPDATE, KERNEL_UNBIND and ENGINE_MIGRATE (R195, R209, R212) -/

section Tasks

variable {s : State} {h : Hdr} {k : Task}

theorem startKernelUpdate_ok {p : KernelUpdateP} (hk : s.task p.engine = some k) (hc : chkKernelUpdate h p s = none) :
    startKernelUpdate h p s =
      .later s .apply k.p.raster [s.firstFrame k.p.raster (s.armEo k.p.raster k.p.outAdv s.armLines)] := by
  have harm : s.taskArm p.engine = s.armEo k.p.raster k.p.outAdv s.armLines := by rw [State.taskArm, hk]
  refine (orAns_of_pass hc _).trans ?_
  rw [hk, harm]
  rfl

theorem startKernelUnbind_ok {p : KernelUnbindP} (hk : s.task p.engine = some k) (hz : p.rsvd = 0)
    (hr : s.pointsRouted (512 + 2 * p.engine) (2 * k.p.gang) = false) (hj : s.jobs.any (namesTask k.p.gang p.engine) = false)
    (hm : k.migrate = none) :
    startKernelUnbind p s = .done (State.each (fun e s => s.setEngine e { slice := (s.engine e).slice }) (gangOf k.p)
      (((s.endLoading k).setTask p.engine none).charge (fun c => (gangOf k.p).any fun e => ofEngine e c) [])) := by
  unfold startKernelUnbind
  rw [hk]
  exact orAns_of_pass (checks_pass (failIf_pass (by simp [hz]) _ _) (failIf_pass (by simp [hr, hj, hm]) _ _)) _

theorem startEngineMigrate_ok {p : EngineMigrateP} (hk : s.task p.engine = some k) (hc : chkEngineMigrate h p s = none) :
    startEngineMigrate h p s =
      .later (planEngineMigrate s.nextJob p s) .apply k.p.raster [s.firstFrame k.p.raster (s.migrateLines k)] := by
  unfold startEngineMigrate
  rw [hk]
  exact orAns_of_pass hc _

end Tasks

/-! ### ENGINE_RESERVE and ENGINE_QUERY (R211) -/

/-- A check made on every element of a list passes where it passes on each. -/
theorem firstFail_pass {α : Type} {f : α → Check} {l : List α} (h : ∀ x ∈ l, f x = none) : firstFail f l = none := by
  induction l with
  | nil => rfl
  | cons x r ih =>
    rw [firstFail, h x List.mem_cons_self]
    exact ih fun y hy => h y (List.mem_cons_of_mem x hy)

/-- `count` engines from `first` exist, and the command's reserved bytes are 0. -/
def EnginesThere (first count rsvd : Nat) : Prop := first < 192 ∧ 1 ≤ count ∧ first + count ≤ 192 ∧ rsvd = 0

theorem enginesThere_pass {first count rsvd : Nat} (h : EnginesThere first count rsvd) :
    failIf (decide (191 < first) || decide (count < 1) || decide (192 < first + count) || rsvd != 0) stBadParam = none := by
  obtain ⟨hf, hc, hn, hz⟩ := h
  rw [decide_eq_false (Nat.not_lt.mpr (Nat.le_of_lt_succ hf)), decide_eq_false (Nat.not_lt.mpr hc), decide_eq_false (Nat.not_lt.mpr hn), hz]
  rfl

section Reserve

variable {s : State} {p : EngineReserveP}

/-- The engines that an ENGINE_RESERVE names. -/
def reservedEngines (p : EngineReserveP) : List Nat := (List.range p.count).map (p.first + ·)

/-- What the Weir holds for spares at the ceiling that the command gives. -/
def ceilingCharges (p : EngineReserveP) : List Charge :=
  if p.ceiling = 0 then [] else (reservedEngines p).map fun e => { kind := 6, holder := e, mb := p.ceiling }

theorem startEngineReserve_reserves (hr : p.release = false) (ht : EnginesThere p.first p.count p.rsvd)
    (hf : ∀ e ∈ reservedEngines p, (s.engine e).st = .free ∧ s.bindPending e = false)
    (ha : s.admission (fun _ => false) (ceilingCharges p) = none) :
    startEngineReserve p s =
      .done ((State.each (fun e s => s.setEngine e { s.engine e with st := .spare, ceiling := p.ceiling }) (reservedEngines p) s).charge
        (fun _ => false) (ceilingCharges p)) := by
  have hfree : (reservedEngines p).all (fun e => (s.engine e).st == .free && !s.bindPending e) = true :=
    List.all_eq_true.mpr fun e he => by simp [hf e he]
  unfold startEngineReserve
  simp only [hr, Bool.false_eq_true, if_false]
  exact orAns_of_pass (checks_pass (enginesThere_pass ht) (checks_pass (failIf_pass (congrArg (!·) hfree) _ _) ha)) _

theorem startEngineReserve_releases (hr : p.release = true) (ht : EnginesThere p.first p.count p.rsvd)
    (hs : ∀ e ∈ reservedEngines p, (s.engine e).st = .spare ∧ s.spareTaken e = false) :
    startEngineReserve p s =
      .done ((State.each (fun e s => s.setEngine e { slice := (s.engine e).slice }) (reservedEngines p) s).charge
        (fun c => (reservedEngines p).any fun e => ofEngine e c) []) := by
  unfold startEngineReserve
  simp only [hr, if_true]
  refine orAns_of_pass (checks_pass (enginesThere_pass ht) (checks_pass (firstFail_pass fun e he => ?_) rfl)) _
  obtain ⟨hspare, hnamed⟩ := hs e he
  rw [hspare]
  exact failIf_pass hnamed _ _

end Reserve

/-- Settles O10: each command from what its start answers, ENGINE_RESERVE by whether it reserves or releases. -/
theorem engineCommands : Obligations.EngineCommands := by
  refine ⟨fun s t h => ⟨fun p => ?_, fun p k => ?_, fun p k => ?_, fun p k => ?_⟩, fun s t h => ⟨fun p => ⟨?_, ?_⟩, fun p => ?_⟩⟩
  · exact waits_of_start rfl rfl fun w hc => orAns_of_pass hc _
  · exact waits_of_start rfl rfl fun w ⟨hk, hc⟩ => startKernelUpdate_ok hk hc
  · exact completes_of_start rfl fun w ⟨hk, hz, hr, hj, hm⟩ => startKernelUnbind_ok hk hz hr hj hm
  · exact waits_of_start rfl rfl fun w ⟨hk, hc⟩ => startEngineMigrate_ok hk hc
  · exact completes_of_start rfl fun w ⟨hr, hf, hc, hn, hz, hfree, ha⟩ => startEngineReserve_reserves hr ⟨hf, hc, hn, hz⟩ hfree ha
  · exact completes_of_start rfl fun w ⟨hr, hf, hc, hn, hz, hs⟩ => startEngineReserve_releases hr ⟨hf, hc, hn, hz⟩ hs
  · exact answers_of_start rfl fun w ht => orAns_of_pass (enginesThere_pass ht) _

/-! ### ENGINE_FRAME_START (R204, R217, R241) -/

theorem events_of_onEngine {s : State} {t : Tick} {i : Instr} {e : Nat} {f : Nat → State → State} {ok : State → Prop}
    {eff : State → State} (he : e < 192) (hx : exec i s = .next (onEvent (onEngine e f) (s.enter t)))
    (hf : ∀ w, ok w → f e w = eff w) : Events s t i ok eff :=
  events_of_onEvent hx fun w _ hok => (if_pos he).trans (hf w hok)

section Frame

variable {s : State} {e : Nat}

/-- The tasks of `v` that have taken a frame since `w` and put it out, each with whether it is captured. -/
def movedTasks (w v : State) : List (Nat × Bool) :=
  v.engines.tasks.filterMap fun y => y.2.bind fun (a : Task) =>
    if (fget none w.engines.tasks y.1).any fun (c : Task) => c.started && c.eoT == a.eoT && c.frame == a.frame then none
    else if a.present then some (y.1, capturedKernel a.p.block) else none

/-- The output of the task `y` starts as a source; a captured task counts its fallbacks and reads its history. -/
def startMoved (z : State) (y : Nat × Bool) : State :=
  if y.2 then ((z.startSource (512 + 2 * y.1)).countFallbacks y.1).someTraffic (5632 + y.1) 0 else z.startSource (512 + 2 * y.1)

/-- The state in which the frame that ends at the engine's frame start has gone out. -/
def frameEnded (e : Nat) (w : State) : State := (w.advanceSources w.now).finishSources [512 + 2 * e]

theorem engineStart_of_frame {w v : State} (hv : doEngineFrame e (frameEnded e w) = v) :
    engineStart e w = (movedTasks w v).foldl startMoved v := by
  subst hv
  exact each_eq_foldl _ _ _

theorem doEngineFrame_slice (hq : s.sys.quiet = .awake) (hb : (s.engine e).st ≠ .bound) : doEngineFrame e s = s.startSlice e := by
  unfold doEngineFrame
  cases hst : (s.engine e).st
  case bound => exact absurd hst hb
  all_goals simp [hq, hst]

theorem doEngineFrame_task {x : Task} {f : Nat} {eo : Int} (hq : s.sys.quiet = .awake) (hb : (s.engine e).st = .bound)
    (hx : s.task e = some x) (hf : s.eoFrame x.p = some (f, eo)) (hd : x.started = true → x.frame < f) (hj : s.eoJobs e f = []) :
    doEngineFrame e s = s.taskFrame e f eo := by
  have hdue : (x.started && decide (f ≤ x.frame)) = false := by
    cases hs : x.started
    · rfl
    · simp [hd hs]
  unfold doEngineFrame
  simp [hq, hb, hx, hf, hdue, hj, State.runEo]

end Frame

/-! ### Known-answer slices and the checks of programs (R193, R218) -/

section Checks

variable {s : State} {e : Nat}

theorem doKnownAnswer_running (good : Bool) (hs : (s.engine e).slice.isSome = true) :
    doKnownAnswer e good s =
      if good then s.setEngine e { s.engine e with slice := none }
      else (s.setEngine e { s.engine e with slice := none }).enterFailed 3 e 0 := by
  obtain ⟨n, hn⟩ := Option.isSome_iff_exists.mp hs
  unfold doKnownAnswer
  rw [hn]

theorem doKnownAnswer_stays (good : Bool) (hs : (s.engine e).slice = none) : doKnownAnswer e good s = s := by
  unfold doKnownAnswer
  rw [hs]

/-- The engine holds a program whose check has not ended. -/
def ProgramOpen (e : Nat) (s : State) : Prop :=
  (s.engine e).verified = false ∧ (s.engine e).kernel ≠ 0 ∧
  ((s.engine e).st = .bound ∨ (s.engine e).st = .spare ∨ (s.engine e).st = .shadow)

/-- The engine's program is checked. -/
def programVerified (e : Nat) (s : State) : State := s.setEngine e { s.engine e with verified := true }

theorem doKernelLoaded_checks (good : Bool) (h : ProgramOpen e s) :
    doKernelLoaded e good s =
      if good then
        if (s.engine e).st = .bound then (programVerified e s).finishLoad (s.engine e).first else programVerified e s
      else s.enterFailed 4 e 0 := by
  obtain ⟨hv, hk, hst⟩ := h
  have hopen : ¬((s.engine e).verified || ((s.engine e).st != .bound && (s.engine e).st != .spare && (s.engine e).st != .shadow) ||
      (s.engine e).kernel = 0) = true := by
    rcases hst with hst | hst | hst <;> simp [hv, hk, hst]
  unfold doKernelLoaded
  rw [if_neg hopen]
  cases good <;> rfl

/-- The check of a bound engine's program passes: its task may have loaded. -/
theorem doKernelLoaded_bound (hv : (s.engine e).verified = false) (hb : (s.engine e).st = .bound) (hk : (s.engine e).kernel ≠ 0) :
    doKernelLoaded e true s = (programVerified e s).finishLoad (s.engine e).first :=
  (doKernelLoaded_checks true ⟨hv, hk, .inl hb⟩).trans (if_pos hb)

theorem finishLoad_completes {x : Task} {n id : Nat} (hx : s.task n = some x) (hl : x.loaded = false) (hj : x.job = some id)
    (hg : ∀ k ∈ gangOf x.p, (s.engine k).verified = true) :
    s.finishLoad n = (s.setTask n (some { x with loaded := true, job := none })).completeId id stOk 0 (some x.p.raster) := by
  have hall : ((gangOf x.p).all fun k => (s.engine k).verified) = true := List.all_eq_true.mpr hg
  unfold State.finishLoad
  simp [hx, hl, hj, hall]

theorem finishLoad_stays {x : Task} {n : Nat} (hx : s.task n = some x) (hg : ∃ k ∈ gangOf x.p, (s.engine k).verified = false) :
    s.finishLoad n = s := by
  obtain ⟨k, hk, hv⟩ := hg
  have hall : ((gangOf x.p).all fun k => (s.engine k).verified) = false := List.all_eq_false.mpr ⟨k, hk, by simp [hv]⟩
  unfold State.finishLoad
  simp [hx, hall]

end Checks

/-! ### MOTION_ESTIMATE_DONE (R240, R242) -/

section Oldest

variable {u : HUnit} {l : List HUnit}

/-- A search that stands at the older of two units stays there. -/
theorem older_stays {y : HUnit} (h : y ≠ u → u.start < y.start) : older (some u) y = some u := by
  change (if newer u y then some y else some u) = some u
  by_cases he : y = u
  · rw [he, ite_self]
  · exact if_neg fun hn => Nat.lt_asymm (h he) (of_decide_eq_true hn)

/-- A search that stands at the younger of two units moves to the older. -/
theorem older_moves {x : HUnit} (h : x ≠ u → u.start < x.start) : older (some x) u = some u := by
  change (if newer x u then some u else some x) = some u
  by_cases he : x = u
  · rw [he, ite_self]
  · exact if_pos (decide_eq_true (h he))

/-- A step of the search ends at the unit it stands at or at the one it meets. -/
theorem older_picks {a : Option HUnit} {y z : HUnit} (h : z ∈ older a y) : z = y ∨ z ∈ a := by
  cases a with
  | none => exact .inl (Option.some.inj h).symm
  | some x =>
    by_cases hn : newer x y = true
    · have hstep : older (some x) y = some y := if_pos hn
      exact .inl (Option.some.inj (hstep.symm.trans h)).symm
    · have hstep : older (some x) y = some x := if_neg hn
      exact .inr (hstep.symm.trans h)

/-- Once the search stands at a unit older than every other, it stays there. -/
theorem older_foldl_stays (ho : ∀ y ∈ l, y ≠ u → u.start < y.start) : l.foldl older (some u) = some u := by
  induction l with
  | nil => rfl
  | cons y r ih =>
    rw [List.foldl_cons, older_stays (ho y List.mem_cons_self)]
    exact ih fun z hz => ho z (List.mem_cons_of_mem y hz)

/-- The search reaches a unit older than every other from whatever other unit it stands at. -/
theorem older_foldl_finds (hu : u ∈ l) (ho : ∀ y ∈ l, y ≠ u → u.start < y.start) {a : Option HUnit}
    (ha : ∀ y ∈ a, y ≠ u → u.start < y.start) : l.foldl older a = some u := by
  induction l generalizing a with
  | nil => cases hu
  | cons y r ih =>
    have hr : ∀ z ∈ r, z ≠ u → u.start < z.start := fun z hz => ho z (List.mem_cons_of_mem y hz)
    rw [List.foldl_cons]
    by_cases he : y = u
    · have hstep : older a u = some u := by
        cases a with
        | none => rfl
        | some x => exact older_moves (ha x rfl)
      rw [he, hstep]
      exact older_foldl_stays hr
    · refine ih ((List.mem_cons.mp hu).resolve_left (Ne.symm he)) hr fun z hz => ?_
      rcases older_picks hz with rfl | hza
      · exact ho z List.mem_cons_self
      · exact ha z hza

/-- Of a list's units the one that started before every other is the oldest. -/
theorem oldestUnit_of_least (hu : u ∈ l) (ho : ∀ y ∈ l, y ≠ u → u.start < y.start) : oldestUnit l = some u :=
  older_foldl_finds hu ho nofun

end Oldest

section Motion

variable {s : State} {e : Nat} {x : Task} {u v : HUnit} {b : Buf}

/-- Of the task's units whose estimation has not ended, `u` started before every other. -/
def NextToEstimate (x : Task) (u : HUnit) : Prop :=
  u ∈ x.history ∧ u.est = false ∧ ∀ y ∈ x.history, y.est = false → y ≠ u → u.start < y.start

theorem NextToEstimate.oldest (h : NextToEstimate x u) : oldestUnit (x.history.filter fun y => !y.est) = some u := by
  obtain ⟨hm, he, ho⟩ := h
  refine oldestUnit_of_least (List.mem_filter.mpr ⟨hm, by simp [he]⟩) fun y hy hne => ?_
  obtain ⟨hy, hopen⟩ := List.mem_filter.mp hy
  exact ho y hy (by simpa using hopen) hne

/-- The estimation of `u` ends. -/
def estimationEnded (e : Nat) (x : Task) (u : HUnit) (s : State) : State :=
  s.setTask e (some { x with history := x.history.map fun y => if y = u then { y with est := true } else y })

/-- The running task writes the vectors of `u` against `v` to its bank of MV. -/
def vectorsWritten (e : Nat) (x : Task) (u v : HUnit) (b : Buf) (s : State) : State :=
  (estimationEnded e x u s).writeVectors (s.engine e).version x false (s.slotPic b u.slot) (s.slotPic b v.slot)

/-- The first unit of a history has none before it to estimate against. -/
theorem doMotionDone_first (hx : s.task e = some x) (hu : NextToEstimate x u) (hb : s.histBuf x = some b)
    (hv : newestUnit (newer u) x.history = none) : doMotionDone e s = estimationEnded e x u s := by
  unfold doMotionDone
  simp only [hx, hu.oldest, hb, hv]
  rfl

theorem doMotionDone_writes (hx : s.task e = some x) (hu : NextToEstimate x u) (hb : s.histBuf x = some b)
    (hv : newestUnit (newer u) x.history = some v)
    (hm : x.migrate = none ∨ ∃ g j, x.migrate = some (g, j) ∧ (s.engine g).st ≠ .shadow) :
    doMotionDone e s = vectorsWritten e x u v b s := by
  unfold doMotionDone vectorsWritten estimationEnded
  rcases hm with hm | ⟨g, j, hm, hs⟩
  · simp only [hx, hu.oldest, hb, hv, hm]
  · simp only [hx, hu.oldest, hb, hv, hm, if_neg hs]

/-- A SHADOW target that follows the task writes the other bank. -/
theorem doMotionDone_follows {g j : Nat} (hx : s.task e = some x) (hu : NextToEstimate x u) (hb : s.histBuf x = some b)
    (hv : newestUnit (newer u) x.history = some v) (hm : x.migrate = some (g, j)) (hs : (s.engine g).st = .shadow) :
    doMotionDone e s =
      (vectorsWritten e x u v b s).writeVectors (s.engine g).version x true (s.slotPic b u.slot) (s.slotPic b v.slot) := by
  unfold doMotionDone vectorsWritten estimationEnded
  simp only [hx, hu.oldest, hb, hv, hm, if_pos hs]

theorem doMotionDone_stays (hx : s.task e = some x) (he : ∀ y ∈ x.history, y.est = true) : doMotionDone e s = s := by
  have hnone : (x.history.filter fun y => !y.est) = [] := List.filter_eq_nil_iff.mpr fun y hy => by simp [he y hy]
  unfold doMotionDone
  simp only [hx, hnone]
  rfl

end Motion

/-- Settles O28: the frame start by whether the engine has a task, the checks by their results, and the estimation by who writes its
vectors. -/
theorem engineRows : Obligations.EngineRows := by
  intro s t e x u v b id_ he ended moved estimated oldest vectors usable
  refine ⟨?_, fun f eo => ?_, ?_, ?_, fun good => ?_, ?_, ?_, ?_, ?_, ?_, ?_, fun g j => ?_, ?_⟩
  · exact events_of_onEngine he rfl fun w ⟨hq, hb⟩ => engineStart_of_frame (doEngineFrame_slice hq hb)
  · exact events_of_onEngine he rfl fun w ⟨hq, hb, hx, hf, hd, hj⟩ => engineStart_of_frame (doEngineFrame_task hq hb hx hf hd hj)
  · exact events_of_onEvent rfl fun w _ hs => doKnownAnswer_running true hs
  · exact events_of_onEvent rfl fun w _ hs => doKnownAnswer_running false hs
  · exact events_of_onEvent rfl fun w _ hs => doKnownAnswer_stays good hs
  · exact events_of_onEvent rfl fun w _ h => doKernelLoaded_checks false h
  · exact events_of_onEvent rfl fun w _ ⟨hv, hb, hk, hx, hl, hj, hg⟩ =>
      (doKernelLoaded_bound hv hb hk).trans (finishLoad_completes hx hl hj hg)
  · exact events_of_onEvent rfl fun w _ ⟨h, hb⟩ => (doKernelLoaded_checks true h).trans (if_neg hb)
  · exact events_of_onEvent rfl fun w _ ⟨hv, hb, hk, hx, hg⟩ => (doKernelLoaded_bound hv hb hk).trans (finishLoad_stays hx hg)
  · exact events_of_onEvent rfl fun w _ ⟨hx, hu, hb, hv⟩ => doMotionDone_first hx hu hb hv
  · exact events_of_onEvent rfl fun w _ ⟨hx, hu, hb, hv, hm⟩ => doMotionDone_writes hx hu hb hv hm
  · exact events_of_onEvent rfl fun w _ ⟨hx, hu, hb, hv, hm, hs⟩ => doMotionDone_follows hx hu hb hv hm hs
  · exact events_of_onEvent rfl fun w _ ⟨hx, hest⟩ => doMotionDone_stays hx hest

end Sys2Proof.Laws
end

section
/-! Layers, fences and atomic groups (chapter 10): what each command's start answers when its checks pass. -/

namespace Sys2Proof.Laws

open Sys2Proof.Machine Sys2Proof.Claims

variable {s : State}

/-! ### COMP_SET (R259) -/

theorem chkCompSet_ok {h : Hdr} {p : CompSetP} (hs : h.sched = false) (hz : p.rsvd = 0) (ho : p.output < 512)
    (hx : (s.txStream p.output).isSome = true) (h1 : 1 ≤ p.dl) (h16 : p.dl ≤ 16) : chkCompSet h p s = none := by
  obtain ⟨x, hx⟩ := Option.isSome_iff_exists.mp hx
  exact failIf_pass (by simp [hs, hz, hx, between, h1, h16, Nat.not_le.mpr ho]) _ _

/-! ### FENCE_BIND and FENCE_SIGNAL (R260, R261) -/

theorem startFenceBind_ok {p : FenceBindP} (hz : p.rsvd = 0) (hf : p.fence < 256) (hp : p.point < 512 ∨ p.point = 0xFFFF) :
    startFenceBind p s =
      .done (s.setFence p.fence { s.fence p.fence with point := if p.point = 0xFFFF then none else some p.point }) := by
  have hpoint : (decide (512 ≤ p.point) && p.point != 0xFFFF) = false := by
    rcases hp with hp | hp
    · simp [Nat.not_le.mpr hp]
    · simp [hp]
  refine orAns_of_pass (failIf_pass ?_ _ _) _
  rw [hpoint]
  simp [hz, Nat.not_le.mpr hf]

section Signal

variable {p : FenceSignalP}

theorem startFenceSignal_ok (hz : p.rsvd = 0) (hf : p.fence < 256) (hc : chkSignalNow p s = none) :
    startFenceSignal p s = .done (signalNow p s) :=
  orAns_of_pass (checks_pass (failIf_pass (by simp [hz, Nat.not_le.mpr hf]) _ _) hc) _

/-- A value is not ahead of itself (R80). -/
theorem not_advances_self (v : BitVec 32) : advances v v = false := by simp [advances, between]

/-- A reset passes where no pending flip names the fence. -/
theorem chkSignalNow_reset (hr : p.reset = true) (hn : s.fenceNamed p.fence = false) : chkSignalNow p s = none := by
  rw [chkSignalNow, if_pos hr]
  exact failIf_pass hn _ _

/-- A signal passes where its value is the fence's or advances it. -/
theorem chkSignalNow_value (hr : p.reset = false)
    (hv : BitVec.ofNat 32 p.value = (s.fence p.fence).value ∨ advances (BitVec.ofNat 32 p.value) (s.fence p.fence).value = true) :
    chkSignalNow p s = none := by
  rw [chkSignalNow, if_neg (by simp [hr])]
  refine failIf_pass ?_ _ _
  rcases hv with hv | hv
  · simp [hv]
  · simp [hv]

theorem signalNow_same (hr : p.reset = false) (hv : BitVec.ofNat 32 p.value = (s.fence p.fence).value) : signalNow p s = s :=
  if_pos (by simp [hr, hv])

theorem signalNow_reset (hr : p.reset = true) : signalNow p s = s.signal p.fence (BitVec.ofNat 32 p.value) :=
  if_neg (by simp [hr])

theorem signalNow_advances (ha : advances (BitVec.ofNat 32 p.value) (s.fence p.fence).value = true) :
    signalNow p s = s.signal p.fence (BitVec.ofNat 32 p.value) := by
  have hne : BitVec.ofNat 32 p.value ≠ (s.fence p.fence).value := fun he => by
    rw [he, not_advances_self] at ha
    exact Bool.false_ne_true ha
  exact if_neg (by simp [hne])

end Signal

/-! ### GROUP_SET (R270) -/

section Groups

/-- The layer `m` of an output may join the group `g`: its stream is there, it follows nothing, lies in no static run and belongs to no
other group. -/
def MayJoin (g : Nat) (m : Nat × Nat) (s : State) : Prop :=
  m.1 < 512 ∧ (s.txStream m.1).isSome = true ∧ 1 ≤ m.2 ∧ m.2 ≤ 7 ∧ (layerOf (settled (s.compOut m.1)) m.2).a.follow = false ∧
  rangeRun (settled (s.compOut m.1)) (layerOf (settled (s.compOut m.1)) m.2).a = none ∧
  ∀ k, (layerOf (settled (s.compOut m.1)) m.2).group = some k → k = g

/-- The layers `ms` are put in the group `k`, or in none. -/
def putLayers (k : Option Nat) (s : State) (ms : List (Nat × Nat)) : State :=
  State.each (fun m s => s.modLayer m.1 m.2 fun x => { x with group := k }) ms s

/-- The group `g` takes the members `ms` in place of those it had. -/
def regrouped (g : Nat) (ms : List (Nat × Nat)) (s : State) : State :=
  let s1 := putLayers (some g) (putLayers none s (fget {} s.comp.groups g : Group).members) ms
  { s1 with comp := { s1.comp with groups := fset {} s1.comp.groups g { members := ms } } }

theorem startGroupSet_ok {p : GroupSetP} (hn : p.members.length ≤ 64) (hz : p.rsvd = 0) (hg : p.group < 128)
    (hd : distinct p.members = true) (ht : (fget {} s.comp.groups p.group : Group).taking = [])
    (hm : ∀ m ∈ p.members, MayJoin p.group m s) : startGroupSet p s = .done (regrouped p.group p.members s) := by
  refine orAns_of_pass (checks_pass (failIf_pass ?_ _ _) (checks_pass (failIf_pass ?_ _ _) (failIf_pass ?_ _ _))) _
  · exact decide_eq_false (Nat.not_lt.mpr hn)
  · rw [List.all_eq_true.mpr fun m hmem => ?_]
    · simp [hz, hd, Nat.not_le.mpr hg]
    · obtain ⟨ho, hx, h1, h7, hf, hr, hk⟩ := hm m hmem
      simpa [ho, hx, h1, h7, hf, hr, between, Option.all_eq_true] using hk
  · simp [ht]

end Groups

/-- Settles O11: the four that wait by what their start answers once their checks pass, FENCE_SIGNAL by whether its value moves the fence. -/
theorem layerAndFenceCommands : Obligations.LayerAndFenceCommands := by
  refine ⟨fun s t h => ⟨fun p => ?_, fun p => ?_, fun p => ?_, fun p => ?_⟩,
    fun s t h => ⟨fun p => ?_, fun p => ?_, fun p => ?_, fun p => ?_⟩⟩
  · exact waits_of_start rfl rfl fun w hc => orAns_of_pass hc _
  · exact waits_of_start rfl rfl fun w hc => orAns_of_pass hc _
  · exact waits_of_immediate_start rfl rfl fun hs w ⟨hz, ho, hx, h1, h16⟩ => orAns_of_pass (chkCompSet_ok hs hz ho hx h1 h16) _
  · exact waits_of_start rfl rfl fun w hc => orAns_of_pass hc _
  · exact completes_of_start rfl fun w ⟨hz, hf, hp⟩ => startFenceBind_ok hz hf hp
  · exact completes_of_start rfl fun w ⟨hz, hf, hr, hv⟩ =>
      (startFenceSignal_ok hz hf (chkSignalNow_value hr (.inl hv))).trans (congrArg (Ans.done ·) (signalNow_same hr hv))
  · refine completes_of_start rfl fun w ⟨hz, hf, hsignal⟩ => ?_
    rcases hsignal with ⟨hr, hn⟩ | ⟨hr, ha⟩
    · exact (startFenceSignal_ok hz hf (chkSignalNow_reset hr hn)).trans (congrArg (Ans.done ·) (signalNow_reset hr))
    · exact (startFenceSignal_ok hz hf (chkSignalNow_value hr (.inr ha))).trans (congrArg (Ans.done ·) (signalNow_advances ha))
  · exact completes_of_start rfl fun w ⟨hn, hz, hg, hd, ht, hm⟩ => startGroupSet_ok hn hz hg hd ht hm

end Sys2Proof.Laws
end

section
/-! The device right after RESET_N (chapters 13, 16, 18 to 20): what reading its tables and memories gives. -/

namespace Sys2Proof.Laws

open Sys2Proof.Machine

/-- Both house rasters are free at reset and have not started (R504). -/
theorem house_reset (x : Nat) : State.reset.house x = {} := ite_self _

/-- The STC is the free-running count alone where nothing has set it (R48). -/
theorem stc_reset : State.reset.stc = 0 := by rw [stc_eq_sum]; rfl

/-- Settles O59: the registers by their reset values, each table by its listing nothing. -/
theorem resetValues : Obligations.ResetValues := by
  refine ⟨rfl, rfl, rfl, rfl, rfl, rfl, rfl, rfl, stc_reset, rfl, fun _ _ _ => rfl, fun _ => rfl, fun _ => ⟨rfl, rfl⟩, fun _ => ⟨rfl, rfl⟩,
    rfl, rfl, fun _ => ⟨rfl, rfl, rfl⟩, rfl, rfl, rfl, fun _ => ⟨rfl, rfl, rfl⟩, rfl, rfl, rfl, rfl, fun x => ?_, fun _ => ⟨rfl, rfl⟩,
    rfl, rfl, fun _ => rfl, fun _ => rfl⟩
  rw [house_reset]
  exact ⟨rfl, rfl, rfl⟩

end Sys2Proof.Laws
end

section
/-! Audio routes, ports, converters and rings (chapter 11): what each command's start answers when its checks pass. -/

namespace Sys2Proof.Laws

open Sys2Proof.Machine Sys2Proof.Claims

variable {s : State}

/-! ### AUDIO_ROUTE and APORT_MASK (R290, R311) -/

section Routes

/-- The entry `e` names a destination, a source or none, and a gain in range. -/
def EntryFits (e : AudioEntry) (s : State) : Prop :=
  s.dstValid e.dst = true ∧ (e.src = 0xFFFF ∨ s.srcValid e.src = true) ∧ e.rsvd = 0 ∧
  (e.gain = -32768 ∨ (-12000 ≤ e.gain ∧ e.gain ≤ 1200))

theorem entryFits_iff {e : AudioEntry} :
    (s.dstValid e.dst && (e.src == 0xFFFF || s.srcValid e.src) && e.rsvd == 0 &&
      (e.gain == -32768 || (decide (-12000 ≤ e.gain) && decide (e.gain ≤ 1200)))) = true ↔ EntryFits e s := by
  simp [EntryFits, and_assoc]

theorem startAudioRoute_ok {p : AudioRouteP} (h1 : 1 ≤ p.count) (h256 : p.count ≤ 256) (hn : p.count = p.entries.length) (hz : p.rsvd = 0)
    (hd : distinct (p.entries.map (·.dst)) = true) (he : ∀ e ∈ p.entries, EntryFits e s) :
    startAudioRoute p s = .later (s.commitRoutes s.nextJob p.entries) .event := by
  refine orAns_of_pass (checks_pass (failIf_pass ?_ _ _) (failIf_pass ?_ _ _)) _
  · rw [← hn]
    simp [Nat.not_lt.mpr h256, Nat.one_le_iff_ne_zero.mp h1]
  · rw [List.all_eq_true.mpr fun e hmem => entryFits_iff.mpr (he e hmem)]
    simp [hz, hd]

theorem startAportMask_ok {p : AportMaskP} {k : AportSetP} (hz : p.rsvd = 0) (hp : p.port < 32) (hk : (s.port p.port).cfg = some k)
    (hi : p.diMask < 2 ^ k.slots) (ho : p.doMask < 2 ^ k.slots) :
    startAportMask p s = .later (s.waitMask s.nextJob p) .event :=
  orAns_of_pass (failIf_pass (by simp [hz, hk, hi, ho, Nat.not_le.mpr hp]) _ _) _

end Routes

/-! ### APORT_SET (R307, R312) -/

section Ports

variable {p k : AportSetP}

/-- The configuration that APORT_SET asks for. -/
def portNext (p : AportSetP) : Option AportSetP := if p.enable then some p else none

/-- A command waits for its port to start where it asks for a controller. -/
theorem startsLater_portNext : startsLater (portNext p) = true ↔ p.enable = true ∧ p.role = 0 := by
  cases h : p.enable <;> simp [startsLater, portNext, h]

theorem portNext_of_enable (h : p.enable = true) : portNext p = some p := if_pos h

/-- Only a port that runs on takes a setting that leaves its timing alone at once. -/
theorem takesNow_iff :
    (p.enable && !(s.port p.port).stopping && sameTiming k p) = true ↔
      (s.port p.port).stopping = false ∧ p.enable = true ∧ sameTiming k p = true := by
  cases (s.port p.port).stopping <;> simp

/-- A port that is not running takes its configuration, to start at its first FS edge if it is a controller. -/
theorem startAportSet_of_idle (hc : chkAportSet p = none) (hx : (s.port p.port).cfg = none) :
    startAportSet p s =
      if startsLater (portNext p) then
        .later (s.setPort p.port { s.port p.port with cfg := portNext p, jobs := (s.port p.port).jobs ++ [s.nextJob] }) .event
      else .done (s.setPort p.port { s.port p.port with cfg := portNext p }) := by
  refine (orAns_of_pass hc _).trans ?_
  rw [hx]
  rfl

/-- A port that runs takes new masks and a new delay at once. -/
theorem startAportSet_of_sameTiming (hc : chkAportSet p = none) (hx : (s.port p.port).cfg = some k) (he : p.enable = true)
    (hs : (s.port p.port).stopping = false) (ht : sameTiming k p = true) :
    startAportSet p s = .done (s.setPort p.port { s.port p.port with cfg := portNext p }) := by
  refine (orAns_of_pass hc _).trans ?_
  rw [hx]
  exact if_pos (takesNow_iff.mpr ⟨hs, he, ht⟩)

/-- A port whose slots are not open stops at once for another configuration. -/
theorem startAportSet_of_closed (hc : chkAportSet p = none) (hx : (s.port p.port).cfg = some k) (hs : (s.port p.port).stopping = false)
    (ht : ¬(p.enable = true ∧ sameTiming k p = true)) (ho : (s.port p.port).opened = false) :
    startAportSet p s =
      if startsLater (portNext p) then
        .later ((s.setPort p.port { s.port p.port with
          next := portNext p, jobs := (s.port p.port).jobs ++ [s.nextJob] }).endStop p.port) .event
      else .done ((s.setPort p.port { s.port p.port with next := portNext p }).endStop p.port) := by
  refine (orAns_of_pass hc _).trans ?_
  dsimp only
  rw [hx]
  have hclosed : ¬((s.port p.port).opened || (s.port p.port).stopping) = true := by simp [ho, hs]
  exact (if_neg fun h => ht (takesNow_iff.mp h).2).trans (if_neg hclosed)

/-- A port whose slots are open, or that stops already, fades them to zero first. -/
theorem startAportSet_of_open (hc : chkAportSet p = none) (hx : (s.port p.port).cfg = some k)
    (h : (s.port p.port).stopping = true ∨ ¬(p.enable = true ∧ sameTiming k p = true) ∧ (s.port p.port).opened = true) :
    startAportSet p s = .later (s.setPort p.port { s.port p.port with
      next := portNext p, stopping := true, jobs := (s.port p.port).jobs ++ [s.nextJob] }) .event := by
  refine (orAns_of_pass hc _).trans ?_
  dsimp only
  rw [hx]
  have hopen : ((s.port p.port).opened || (s.port p.port).stopping) = true := by
    rcases h with hs | ⟨_, ho⟩
    · simp [hs]
    · simp [ho]
  refine (if_neg fun hnow => ?_).trans (if_pos hopen)
  obtain ⟨hs, ht⟩ := takesNow_iff.mp hnow
  exact h.elim (by simp [hs]) fun h => h.1 ht

end Ports

/-! ### ASRC_BIND (R297) -/

section Converters

variable {p : AsrcBindP} {rate : Nat}

theorem startAsrcBind_frees (hz : p.rsvd = 0) (hg : p.group < 256) (ho : p.op = 0) :
    startAsrcBind p s = .done (s.setAsrc p.group none) :=
  (if_pos ho).trans (orAns_of_pass (failIf_pass (by simp [hz, ho, Nat.not_le.mpr hg]) _ _) _)

/-- The group's target is a house grid, or the domain of a target port. -/
def TargetThere (p : AsrcBindP) (s : State) : Prop :=
  p.target < 2 ∧ p.tport = 0 ∨ p.target = 2 ∧ p.tport < 32 ∧ ∃ k, (s.port p.tport).cfg = some k ∧ k.role = 1

theorem targetThere_pass (h : TargetThere p s) :
    (decide (3 ≤ p.target) ||
      (if p.target = 2 then decide (32 ≤ p.tport) || !((s.port p.tport).cfg.any fun k => k.role == 1) else p.tport != 0)) = false := by
  rcases h with ⟨ht, hp⟩ | ⟨ht, hp, k, hk, hr⟩
  · simp [hp, Nat.ne_of_lt ht, Nat.not_le.mpr (Nat.lt_succ_of_lt ht)]
  · simp [ht, hk, hr, Nat.not_le.mpr hp]

/-- The converter that the command binds at time `now`, its source channels at `rate`. -/
def asrcAsked (p : AsrcBindP) (rate : Nat) (now : Tick) : Asrc := { p := p, inRate := rate, sinceT := now }

/-- The channels `chans` of the group lie in one source, exist, and fit the group at its two rates. -/
def GroupFits (p : AsrcBindP) (rate : Nat) (chans : List Nat) (s : State) : Prop :=
  p.outRate < 6 ∧ p.bw < 3 ∧ 1 ≤ p.count ∧ p.count ≤ 32 ∧ p.first % rateK rate = 0 ∧
  oneSource p.first (chans.getLastD p.first) = true ∧ (∀ c ∈ chans, (s.srcInfo c).isSome = true) ∧
  p.count * max (rateK rate) (rateK p.outRate) ≤ 32 ∧ asrcRatesOk rate p.outRate = true

theorem groupFits_pass {chans : List Nat} (h : GroupFits p rate chans s) {b : Bool} (hb : b = false) :
    (b || decide (6 ≤ p.outRate) || decide (3 ≤ p.bw) || !between 1 p.count 32 || p.first % rateK rate != 0 ||
      !oneSource p.first (chans.getLastD p.first) || !(chans.all fun c => (s.srcInfo c).isSome) ||
      decide (32 < p.count * max (rateK rate) (rateK p.outRate)) || !asrcRatesOk rate p.outRate) = false := by
  obtain ⟨ho, hw, h1, h32, hk, hone, hc, hm, hr⟩ := h
  have hthere : (chans.all fun c => (s.srcInfo c).isSome) = true := List.all_eq_true.mpr hc
  simp only [hb, hthere, hone, hr, hk, between, h1, h32, decide_true, decide_eq_false (Nat.not_le.mpr ho),
    decide_eq_false (Nat.not_le.mpr hw), decide_eq_false (Nat.not_lt.mpr hm), Bool.and_self, Bool.not_true, Bool.or_self, bne_self_eq_false]

theorem startAsrcBind_binds {dom : SrcDom} (hz : p.rsvd = 0) (hg : p.group < 256) (ho : p.op = 1)
    (hi : s.srcInfo p.first = some (rate, dom)) (ht : TargetThere p s) (hf : GroupFits p rate (asrcChannels (asrcAsked p rate 0)) s)
    (hfree : s.asrc p.group = none) (hc : ∀ c ∈ asrcChannels (asrcAsked p rate 0), s.asrcOf c = none) :
    startAsrcBind p s = .done (s.setAsrc p.group (some (asrcAsked p rate s.now))) := by
  unfold startAsrcBind
  simp only [hi]
  refine (if_neg (by simp [ho])).trans
    (orAns_of_pass (checks_pass (failIf_pass ?_ _ _) (checks_pass (failIf_pass ?_ _ _) (failIf_pass ?_ _ _))) _)
  · simp [hz, ho, Nat.not_le.mpr hg]
  · exact groupFits_pass hf (targetThere_pass ht)
  · refine Bool.or_eq_false_iff.mpr ⟨by rw [hfree]; rfl, List.any_eq_false.mpr fun c hmem => ?_⟩
    rw [hc c hmem]
    exact Bool.false_ne_true

end Converters

/-! ### AUDIO_RING_BIND (R313 to R315) -/

section Rings

variable {p : AudioRingBindP}

/-- The binding holds exactly the range of channels that the command names. -/
def ringExact (p : AudioRingBindP) (b : RingBind) : Bool := b.p.kind == p.kind && b.p.first == p.first && b.p.count == p.count

/-- The binding holds a channel that the command names. -/
def ringMeets (p : AudioRingBindP) (b : RingBind) : Bool := b.p.kind == p.kind && rangesMeet b.p.first b.p.count p.first p.count

/-- The fields that every AUDIO_RING_BIND has are in range. -/
def RingInRange (p : AudioRingBindP) : Prop :=
  p.rsvd = 0 ∧ p.kind < 2 ∧ p.rate < 6 ∧ p.house < 2 ∧ 1 ≤ p.count ∧ p.first + p.count ≤ 1024

theorem ringInRange_pass (h : RingInRange p) (st d : Nat) :
    failIf (p.rsvd != 0 || decide (2 ≤ p.kind) || decide (6 ≤ p.rate) || decide (2 ≤ p.house) || decide (p.count < 1) ||
      decide (1024 < p.first + p.count)) st d = none := by
  obtain ⟨hz, hk, hr, hh, h1, hn⟩ := h
  refine failIf_pass ?_ _ _
  simp only [hz, decide_eq_false (Nat.not_le.mpr hk), decide_eq_false (Nat.not_le.mpr hr), decide_eq_false (Nat.not_le.mpr hh),
    decide_eq_false (Nat.not_lt.mpr h1), decide_eq_false (Nat.not_lt.mpr hn), bne_self_eq_false, Bool.or_self]

/-- The bindings of exactly the range end, and record channels of it cease to exist. -/
theorem startAudioRingBind_unbinds (hh : p.handle = 0) (hf : RingInRange p)
    (he : ∀ b ∈ s.audio.rings, ringMeets p b = true → ringExact p b = true) :
    startAudioRingBind p s =
      .done (let s1 := s.setRings (s.audio.rings.filter fun b => !ringExact p b)
        if p.kind = 0 then s1.dropDsts fun c => decide (17408 + p.first ≤ c) && decide (c < 17408 + p.first + p.count) else s1) := by
  have hpart : (s.audio.rings.any fun b => ringMeets p b && !ringExact p b) = false :=
    List.any_eq_false.mpr fun b hb h => by
      obtain ⟨hm, hx⟩ := Bool.and_eq_true_iff.mp h
      simp [he b hb hm] at hx
  exact (if_pos hh).trans (orAns_of_pass (checks_pass (ringInRange_pass hf _ _) (failIf_pass hpart _ _)) _)

/-- The ring `b` is an audio delay line with room for the channels, and the delay is in range for the binding's kind. -/
def LineFits (p : AudioRingBindP) (b : Buf) : Prop :=
  b.params.typ = 4 ∧ p.count ≤ b.params.count ∧ (p.kind = 0 → 0 ≤ p.delay ∧ p.delay ≤ 2100000) ∧
  -2147483648 ≤ p.delay ∧ p.delay ≤ 2147483647

theorem lineFits_pass {b : Buf} (h : LineFits p b) (st d : Nat) :
    failIf (b.params.typ != 4 || decide (b.params.count < p.count) ||
      (p.kind == 0 && (decide (p.delay < 0) || decide (2100000 < p.delay))) ||
      decide (p.delay < -2147483648) || decide (2147483647 < p.delay)) st d = none := by
  obtain ⟨ht, hn, hrec, hlo, hhi⟩ := h
  have hdelay : (p.kind == 0 && (decide (p.delay < 0) || decide (2100000 < p.delay))) = false := by
    by_cases hk : p.kind = 0
    · simp [hrec hk]
    · simp [hk]
  refine failIf_pass ?_ _ _
  simp [hdelay, ht, hn, hlo, hhi]

/-- The bindings with that of the command. -/
def ringsWith (p : AudioRingBindP) (s : State) : List RingBind := s.audio.rings ++ [{ p := p, origin := s.ringOrigin p.house p.rate 16 }]

/-- The ring `b` is bound and charged, and a record binding writes its header. -/
def ringBound (p : AudioRingBindP) (b : Buf) (s : State) : State :=
  let s1 := (s.setRings (ringsWith p s)).count 8 0 0
  if p.kind = 0 then s1.pondWrite b.addr
    (ringHeader 0 (s1.originStc p.house p.rate (s.ringOrigin p.house p.rate 16)) p.rate 1 (b2n p.hostFlow))
  else s1

theorem startAudioRingBind_binds {b : Buf} (hh : p.handle ≠ 0) (hf : RingInRange p) (hb : s.bufAt p.handle = some b) (hl : LineFits p b)
    (hfree : ∀ x ∈ s.audio.rings, ringMeets p x = false ∧ ¬(x.p.kind = p.kind ∧ x.p.handle = p.handle))
    (ha : s.admission ofRings (ringChargesOf s (embedRings s.pond.charges) (ringsWith p s)) = none) :
    startAudioRingBind p s = .done (ringBound p b s) := by
  have htaken : (s.audio.rings.any fun x => ringMeets p x || (x.p.kind == p.kind && x.p.handle == p.handle)) = false :=
    List.any_eq_false.mpr fun x hx h => by
      obtain ⟨hm, hn⟩ := hfree x hx
      exact hn (by simpa [hm] using h)
  unfold startAudioRingBind
  simp only [if_neg hh, hb]
  exact orAns_of_pass (checks_pass (ringInRange_pass hf _ _) (checks_pass (lineFits_pass hl _ _) (checks_pass (failIf_pass htaken _ _) ha))) _

end Rings

/-- Settles O12: the three that wait by their checks, APORT_SET by what its port does, the binds by whether they free or take. -/
theorem audioCommands : Obligations.AudioCommands := by
  refine ⟨fun s t h => ⟨fun p => ?_, fun p => ?_, fun p => ?_⟩, fun s t h p hc => ⟨?_, ?_, fun k => ?_, fun k => ?_, fun k => ?_, fun k => ?_⟩,
    fun s t h => ⟨fun p => ?_, fun p rate dom => ?_, fun p => ⟨?_, fun b => ?_⟩⟩⟩
  · exact waits_of_start rfl rfl fun w ⟨h1, h256, hn, hz, hd, he⟩ => startAudioRoute_ok h1 h256 hn hz hd he
  · exact waits_of_start rfl rfl fun w ⟨hz, hp, k, hk, hi, ho⟩ => startAportMask_ok hz hp hk hi ho
  · exact waits_of_start rfl rfl fun w hc => orAns_of_pass hc _
  · exact completes_of_start rfl fun w ⟨hx, hl⟩ => (startAportSet_of_idle hc hx).trans (if_neg (mt startsLater_portNext.mp hl))
  · refine waits_of_start rfl rfl fun w ⟨hx, he, hr⟩ =>
      (startAportSet_of_idle hc hx).trans ((if_pos (startsLater_portNext.mpr ⟨he, hr⟩)).trans ?_)
    rw [portNext_of_enable he]
  · refine completes_of_start rfl fun w ⟨hx, he, hs, ht⟩ => (startAportSet_of_sameTiming hc hx he hs ht).trans ?_
    rw [portNext_of_enable he]
  · exact completes_of_start rfl fun w ⟨hx, hs, ht, ho, hl⟩ =>
      (startAportSet_of_closed hc hx hs ht ho).trans (if_neg (mt startsLater_portNext.mp hl))
  · refine waits_of_start rfl rfl fun w ⟨hx, hs, he, ht, ho, hr⟩ =>
      (startAportSet_of_closed hc hx hs (by simp [ht]) ho).trans ((if_pos (startsLater_portNext.mpr ⟨he, hr⟩)).trans ?_)
    rw [portNext_of_enable he]
  · exact waits_of_start rfl rfl fun w ⟨hx, h⟩ => startAportSet_of_open hc hx h
  · exact completes_of_start rfl fun w ⟨hz, hg, ho⟩ => startAsrcBind_frees hz hg ho
  · exact completes_of_start rfl fun w ⟨hz, hg, ho, hi, ht, hout, hw, h1, h32, hk, hone, hthere, hm, hr, hfree, hc⟩ =>
      startAsrcBind_binds hz hg ho hi ht ⟨hout, hw, h1, h32, hk, hone, hthere, hm, hr⟩ hfree hc
  · exact completes_of_start rfl fun w ⟨hz, hh, hk, hr, hho, h1, hn, he⟩ => startAudioRingBind_unbinds hh ⟨hz, hk, hr, hho, h1, hn⟩ he
  · exact completes_of_start rfl fun w ⟨hz, hh, hk, hr, hho, h1, hn, hb, ht, hcount, hrec, hlo, hhi, hfree, ha⟩ =>
      startAudioRingBind_binds hh ⟨hz, hk, hr, hho, h1, hn⟩ hb ⟨ht, hcount, hrec, hlo, hhi⟩ hfree ha

end Sys2Proof.Laws
end

section
/-! TDM ports, measured domains, converters and pairs (chapter 11): what each of their events does, case by case. -/

namespace Sys2Proof.Laws

open Sys2Proof.Machine Sys2Proof.Claims

variable {s : State}

/-! ### TDM_FS_EDGE (R310, R312) -/

section FsEdge

variable {p : Nat} {f : TdmFrame} {k : AportSetP}

/-- Port `p` takes no edges: the device sleeps, or enters Quiet while the port is not stopping. -/
def PortShut (p : Nat) (s : State) : Prop :=
  s.sys.quiet = .asleep ∨ s.sys.quiet = .entering ∧ (s.port p).stopping = false

theorem portShut_iff :
    (decide (s.sys.quiet = .asleep) || (decide (s.sys.quiet = .entering) && !(s.port p).stopping)) = true ↔ PortShut p s := by
  simp [PortShut]

/-- The frame that an edge ends has been received, if it was framed and whole. -/
def edgeReceived (p : Nat) (f : TdmFrame) (k : AportSetP) (s : State) : State :=
  match (s.port p).lastEdge with
  | some u => if (s.port p).framed && (k.role == 0 || f.bits == k.slots * k.width) then s.receiveFrame p k u f.slots else s
  | none => s

/-- The edge has framed its port: a target by the frame's length, a controller, `framed` or not before, at its first edge. -/
def edgeFramed (p : Nat) (f : TdmFrame) (k : AportSetP) (framed : Bool) (s : State) : State :=
  if k.role = 1 then s.frameTarget p k f.bits else if framed then s else s.beginTdm p

/-- The masks whose time has come are in force for the frame that the edge of time `t` begins. -/
def edgeMasked (p : Nat) (t : Tick) (s : State) : State := (s.setPort p { s.port p with lastEdge := some t }).applyMasks p

/-- The state at the edge before the frame that begins is sent. -/
def edgeReady (p : Nat) (f : TdmFrame) (k : AportSetP) (s : State) : State :=
  edgeMasked p s.now (edgeFramed p f k (s.port p).framed (edgeReceived p f k s))

/-- The port sends the frame that begins, if it has a configuration still. -/
def edgeSent (p : Nat) (s : State) : State :=
  match (s.port p).cfg with
  | some k => s.sendFrame p k
  | none => s

theorem edgeSent_of_set (hk : (s.port p).cfg = some k) : edgeSent p s = s.sendFrame p k := by
  unfold edgeSent
  rw [hk]

theorem doTdmEdge_of_unset (hc : (s.port p).cfg = none) : doTdmEdge p f s = s := by
  unfold doTdmEdge
  rw [hc]

theorem doTdmEdge_of_shut (hs : PortShut p s) : doTdmEdge p f s = s := by
  unfold doTdmEdge
  cases (s.port p).cfg with
  | none => rfl
  | some k => exact if_pos (portShut_iff.mpr hs)

/-- A stopping port whose slots have faded to zero has stopped once its last frame is received. -/
theorem doTdmEdge_stops (hc : (s.port p).cfg = some k) (ho : ¬PortShut p s) (hs : ((edgeReceived p f k s).port p).stopping = true)
    (hz : (edgeReceived p f k s).portSilent p = true) : doTdmEdge p f s = (edgeReceived p f k s).endStop p := by
  unfold doTdmEdge
  rw [hc]
  exact (if_neg (mt portShut_iff.mp ho)).trans (if_pos (Bool.and_eq_true_iff.mpr ⟨hs, hz⟩))

/-- A port that runs sends the frame that the edge begins. -/
theorem doTdmEdge_sends {k' : AportSetP} (hc : (s.port p).cfg = some k) (ho : ¬PortShut p s)
    (hs : ((edgeReceived p f k s).port p).stopping = false) (hk : ((edgeReady p f k s).port p).cfg = some k') :
    doTdmEdge p f s = (edgeReady p f k s).sendFrame p k' := by
  have hruns : ¬(((edgeReceived p f k s).port p).stopping && (edgeReceived p f k s).portSilent p) = true := by simp [hs]
  unfold doTdmEdge
  rw [hc]
  exact (if_neg (mt portShut_iff.mp ho)).trans ((if_neg hruns).trans (edgeSent_of_set hk))

end FsEdge

/-! ### TDM_FS_TIMEOUT (R310) -/

section FsTimeout

variable {p : Nat}

/-- A framed target without edges for four periods loses its framing, and stops if it was to. -/
theorem doTdmTimeout_due {k : AportSetP} {last : Tick} (hc : (s.port p).cfg = some k) (hl : (s.port p).lastEdge = some last)
    (hr : k.role = 1) (hf : (s.port p).framed = true) (hd : tick196 last + 4 * samplePeriod k.rate ≤ tick196 s.now) :
    doTdmTimeout p s = if (s.port p).stopping then (s.unframe p).endStop p else s.unframe p := by
  unfold doTdmTimeout
  simp only [hc, hl]
  exact if_pos (by simp [hr, hf, hd])

theorem doTdmTimeout_stays (h : (s.port p).cfg = none ∨ (s.port p).lastEdge = none) : doTdmTimeout p s = s := by
  unfold doTdmTimeout
  rcases h with h | h
  · simp only [h]
  · simp only [h]
    cases (s.port p).cfg with
    | none => rfl
    | some k => rfl

end FsTimeout

/-! ### Domains (R286, R320) -/

section Domains

variable {d house : Nat}

/-- Domain `x` once its lock to a house has been decided: its run is whole, or it stays. -/
def lockDecided (house : Nat) (x : Domain) : Domain :=
  if house = 0 then { x with lockA := x.lockA || decide (262144 ≤ x.runA) } else { x with lockB := x.lockB || decide (262144 ≤ x.runB) }

/-- Domain `d` becomes `x`: its event fires, and a LEAD sends its locks and offsets. -/
def domainMoved (d : Nat) (x : Domain) (s : State) : State := ((s.setDomain d x).domainEvent d).sendLeat (domainBody d x)

theorem doDomainLock_locks (hx : lockDecided house (s.domain d) ≠ s.domain d) (hm : s.isMate = false) :
    doDomainLock d house s = domainMoved d (lockDecided house (s.domain d)) s :=
  if_neg fun h => by
    rcases (Bool.or_eq_true _ _).mp h with h | h
    · exact hx (of_decide_eq_true h).symm
    · simp [hm] at h

theorem doDomainLock_stays (h : lockDecided house (s.domain d) = s.domain d ∨ s.isMate = true) : doDomainLock d house s = s :=
  if_pos <| (Bool.or_eq_true _ _).mpr <| h.imp (fun hx => decide_eq_true hx.symm) id

/-- A domain without samples for 1 s ends, and what was locked is told. -/
theorem doDomainTimeout_due {last : Tick} (hl : (s.domain d).lastT = some last) (hd : last + 270000000 ≤ s.now) (hm : s.isMate = false) :
    doDomainTimeout d s = if (s.domain d).lockA || (s.domain d).lockB then domainMoved d {} s else s.setDomain d {} := by
  unfold doDomainTimeout
  simp only [hl]
  exact if_pos (by simp [hd, hm])

theorem doDomainTimeout_stays (h : (s.domain d).lastT = none ∨ s.isMate = true) : doDomainTimeout d s = s := by
  unfold doDomainTimeout
  dsimp only
  rcases h with hl | hm
  · rw [hl]
  · cases (s.domain d).lastT with
    | none => rfl
    | some last => exact if_neg (by simp [hm])

end Domains

/-! ### Converters (R299, R320) -/

section Converters

variable {g : Nat} {a : Asrc}

theorem doAsrcLock_locks (ha : s.asrc g = some a) (hst : a.st = .acquire) (hl : a.lastT.isSome = true)
    (hd : a.sinceT + 67500000 ≤ s.now) (hm : s.isMate = false) : doAsrcLock g s = s.asrcTo g a .locked := by
  unfold doAsrcLock
  rw [ha]
  exact if_pos (by simp [hst, hl, hd, hm])

theorem doAsrcLock_stays (ha : s.asrc g = some a) (h : a.st ≠ .acquire ∨ s.now < a.sinceT + 67500000 ∨ s.isMate = true) :
    doAsrcLock g s = s := by
  unfold doAsrcLock
  rw [ha]
  refine if_neg ?_
  rcases h with h | h | h
  · simp [h]
  · simp [Nat.not_le.mpr h]
  · simp [h]

/-- A locked converter without samples for 100 ms begins to acquire again. -/
theorem doAsrcTimeout_falls {u : Int} (ha : s.asrc g = some a) (hst : a.st = .locked) (hl : a.lastT = some u)
    (hd : u + tick196 27000000 ≤ tick196 s.now) (hm : s.isMate = false) :
    doAsrcTimeout g s = s.asrcTo g { a with lastT := none, per := 0 } .acquire := by
  unfold doAsrcTimeout
  simp only [ha, hl]
  exact if_pos (by simp [hst, hd, hm])

theorem doAsrcTimeout_stays (ha : s.asrc g = some a) (h : a.st ≠ .locked ∨ s.isMate = true) : doAsrcTimeout g s = s := by
  unfold doAsrcTimeout
  simp only [ha]
  refine if_neg ?_
  rcases h with h | h
  · simp [h]
  · simp [h]

end Converters

/-! ### Pairs (R317, R320) -/

section Pairs

variable {pair : Nat}

/-- What is judged of a pair of channels. -/
def judged (pair : Nat) (s : State) : PairJudge := fget {} s.audio.pairs pair

/-- A pair returns to audio after 4,096 clean frames, if its status does not say otherwise and no LEAD decides. -/
theorem reverts_iff {x : PairJudge} :
    (x.non && decide (x.clean = 4096) && !x.bit1 && !s.isMate) = true ↔
      x.non = true ∧ x.clean = 4096 ∧ x.bit1 = false ∧ s.isMate = false := by
  simp [and_assoc]

/-- The pair is audio again. -/
def pairReverted (pair : Nat) (s : State) : State :=
  { s with audio := { s.audio with pairs := fset {} s.audio.pairs pair { judged pair s with non := false } } }

theorem doNonaudioRevert_reverts (hn : (judged pair s).non = true) (hc : (judged pair s).clean = 4096)
    (hb : (judged pair s).bit1 = false) (hm : s.isMate = false) :
    doNonaudioRevert pair s = (pairReverted pair s).sendLeat [3, pair, 0] :=
  if_pos (reverts_iff.mpr ⟨hn, hc, hb, hm⟩)

theorem doNonaudioRevert_stays
    (h : (judged pair s).non = false ∨ (judged pair s).clean ≠ 4096 ∨ (judged pair s).bit1 = true ∨ s.isMate = true) :
    doNonaudioRevert pair s = s :=
  if_neg fun hr => by
    obtain ⟨hn, hc, hb, hm⟩ := reverts_iff.mp hr
    simp [judged, hn, hc, hb, hm] at h

end Pairs

/-- Settles O32: an edge by whether its port is open and has stopped, the others by whether their time has come and who decides. -/
theorem audioPortRows : Obligations.AudioPortRows := by
  intro s t p d house g pair f k a last whole received framed masked locked shut tell bit both j
  refine ⟨?_, fun k' => ?_, ?_, ?_, ?_, ?_, ?_, ?_, ?_, ?_, ?_, ?_, ?_, ?_, ?_, ?_, ?_⟩
  · exact events_of_onEvent rfl fun w _ hc => doTdmEdge_of_unset hc
  · exact events_of_onEvent rfl fun w _ ⟨hc, ho, hs, hk⟩ => doTdmEdge_sends hc ho hs hk
  · exact events_of_onEvent rfl fun w _ ⟨hc, ho, hs, hz⟩ => doTdmEdge_stops hc ho hs hz
  · exact events_of_onEvent rfl fun w _ hs => doTdmEdge_of_shut hs
  · exact events_of_onEvent rfl fun w _ ⟨hc, hl, hr, hf, hd⟩ => doTdmTimeout_due hc hl hr hf hd
  · exact events_of_onEvent rfl fun w _ h => doTdmTimeout_stays h
  · exact events_of_onEvent rfl fun w _ ⟨hx, hm⟩ => doDomainLock_locks hx hm
  · exact events_of_onEvent rfl fun w _ h => doDomainLock_stays h
  · exact events_of_onEvent rfl fun w _ ⟨hl, hd, hm, hlock⟩ =>
      (doDomainTimeout_due hl hd hm).trans (if_pos ((Bool.or_eq_true _ _).mpr hlock))
  · exact events_of_onEvent rfl fun w _ ⟨hl, hd, hm, ha, hb⟩ =>
      (doDomainTimeout_due hl hd hm).trans (if_neg (by simp [ha, hb]))
  · exact events_of_onEvent rfl fun w _ h => doDomainTimeout_stays h
  · exact events_of_onEvent rfl fun w _ ⟨ha, hst, hl, hd, hm⟩ => doAsrcLock_locks ha hst hl hd hm
  · exact events_of_onEvent rfl fun w _ ⟨ha, h⟩ => doAsrcLock_stays ha h
  · exact events_of_onEvent rfl fun w _ ⟨ha, hst, ⟨u, hl, hd⟩, hm⟩ => doAsrcTimeout_falls ha hst hl hd hm
  · exact events_of_onEvent rfl fun w _ ⟨ha, h⟩ => doAsrcTimeout_stays ha h
  · exact events_of_onEvent rfl fun w _ ⟨hn, hc, hb, hm⟩ => doNonaudioRevert_reverts hn hc hb hm
  · exact events_of_onEvent rfl fun w _ h => doNonaudioRevert_stays h

end Sys2Proof.Laws
end

section
/-! The step and the reset, counters, the memories, and the changes of a key slot (chapters 16, 17, 19 and 20). -/

namespace Sys2Proof.Laws

open Sys2Proof.Machine Sys2Proof.Claims

/-! ### The step and the reset -/

/-- Settles O46: by whether a command waits. -/
theorem stepRunsTheFrontCommand : Obligations.StepRunsTheFrontCommand := by
  refine ⟨fun s c rest hs => ?_, fun s hs => ?_⟩
  · unfold step
    rw [hs]
  · unfold step
    rw [hs]

/-- Settles O49: each invariant at the state after reset, whose tables and memories list nothing. -/
theorem resetIsSound : Obligations.ResetIsSound :=
  have memories : MemoriesCanonical State.reset := ⟨rfl, rfl, rfl⟩
  have jobs : JobsInOrder State.reset.jobs State.reset.nextJob := ⟨List.Pairwise.nil, fun _ h => (nomatch h)⟩
  have fault : FailedHoldsRecord State.reset := ⟨fun h => (nomatch h), fun h => (nomatch h)⟩
  ⟨memories, jobs, fault, rfl, rfl⟩

/-! ### Counters (R493) -/

section Counters

variable {s : State} {block unit event n : Nat}

theorem msixSend_of_cnt (s : State) (c : Cnt) (v : Nat) :
    ({ s with cnt := c } : State).msixSend v = { s.msixSend v with cnt := c } := by
  unfold State.msixSend State.vectorMasked State.emit
  by_cases hu : (!s.sys.pcieUp) = true
  · rw [if_pos hu, if_pos hu]
  · rw [if_neg hu, if_neg hu]
    split <;> rfl

theorem eventMessage_of_cnt (s : State) (c : Cnt) (word : Nat) :
    ({ s with cnt := c } : State).eventMessage word = { s.eventMessage word with cnt := c } := by
  unfold State.eventMessage
  dsimp only
  by_cases hm : (decide (fget 0 s.hub.msixT word ≠ 0) && decide (s.now < fget 0 s.hub.msixT word - 1 + 270)) = true
  · rw [if_pos hm]
    exact if_pos hm
  · rw [if_neg hm]
    exact (if_neg hm).trans
      (msixSend_of_cnt { s with hub := { s.hub with msixT := fset 0 s.hub.msixT word (s.now + 1) } } c (32 + word))

theorem presented_of_cnt (s : State) (c : Cnt) (i : Nat) :
    ({ s with cnt := c } : State).presented i = { s.presented i with cnt := c } := by
  unfold State.presented
  by_cases hb : bit (s.source i).mask 2 = true
  · rw [if_pos hb]
    exact (if_pos hb).trans (eventMessage_of_cnt s c _)
  · rw [if_neg hb]
    exact if_neg hb

/-- A source fires whatever the counters hold. -/
theorem fire_of_cnt (s : State) (c : Cnt) (i : Nat) : ({ s with cnt := c } : State).fire i = { s.fire i with cnt := c } := by
  have hsrc : ({ s with cnt := c } : State).source i = s.source i := rfl
  unfold State.fire
  by_cases hr : sourceReserved i = true
  · rw [if_pos hr, if_pos hr]
  · rw [if_neg hr, if_neg hr, hsrc]
    dsimp only
    cases (s.source i).st with
    | idle => exact presented_of_cnt (s.setSource i { s.source i with st := .pending }) c i
    | pending => rfl
    | active => rfl
    | activePending => rfl

/-- The counter after `n` more. -/
def countedTo (c : Counter) (n : Nat) : Counter := ⟨BitVec.ofNat 48 (c.value.toNat + n), c.ovf || decide (2 ^ 48 ≤ c.value.toNat + n)⟩

/-- The counters after an event of one of them. -/
def countedCnt (s : State) (id n : Nat) : Cnt := { s.cnt with live := fset {} s.cnt.live id (countedTo (fget {} s.cnt.live id) n) }

theorem count_of_pos (hn : n ≠ 0) :
    s.count block unit event n =
      let id := cntId block unit event
      let s' : State := { s with cnt := countedCnt s id n }
      if 2 ^ 48 ≤ (fget ({} : Counter) s.cnt.live id).value.toNat + n then s'.fire (992 + block) else s' := by
  refine (if_neg hn).trans ?_
  simp only [decide_eq_true_eq]
  rfl

theorem countedTo_zero (c : Counter) : countedTo c 0 = c := by
  have hno : decide (2 ^ 48 ≤ c.value.toNat) = false := decide_eq_false (Nat.not_le.mpr c.value.isLt)
  simp only [countedTo, Nat.add_zero, hno, Bool.or_false, BitVec.ofNat_toNat, BitVec.setWidth_eq]

/-- What an event leaves of the counters. -/
theorem count_cnt (hw : tblWf ({} : Counter) s.cnt.live = true) :
    (s.count block unit event n).cnt.frozen = s.cnt.frozen ∧
    fget {} (s.count block unit event n).cnt.live (cntId block unit event) = countedTo (fget {} s.cnt.live (cntId block unit event)) n ∧
    ∀ k, k ≠ cntId block unit event → fget ({} : Counter) (s.count block unit event n).cnt.live k = fget {} s.cnt.live k := by
  by_cases hn : n = 0
  · subst hn
    exact ⟨rfl, (countedTo_zero _).symm, fun _ _ => rfl⟩
  · have hcnt : (s.count block unit event n).cnt = countedCnt s (cntId block unit event) n := by
      rw [count_of_pos hn]
      dsimp only
      split <;> simp
    rw [hcnt]
    exact ⟨rfl, fget_fset_same _ s.cnt.live _ _ hw, fun k hk => fget_fset_other _ s.cnt.live _ k _ hw hk⟩

theorem count_within (h : (fget ({} : Counter) s.cnt.live (cntId block unit event)).value.toNat + n < 2 ^ 48) :
    (s.count block unit event n).hub = s.hub ∧ (s.count block unit event n).out = s.out := by
  by_cases hn : n = 0
  · subst hn
    exact ⟨rfl, rfl⟩
  · rw [count_of_pos hn]
    dsimp only
    rw [if_neg (Nat.not_le.mpr h)]
    exact ⟨rfl, rfl⟩

theorem count_wraps (h : 2 ^ 48 ≤ (fget ({} : Counter) s.cnt.live (cntId block unit event)).value.toNat + n) :
    (s.count block unit event n).hub = (s.fire (992 + block)).hub ∧ (s.count block unit event n).out = (s.fire (992 + block)).out := by
  have hlt := (fget ({} : Counter) s.cnt.live (cntId block unit event)).value.isLt
  rw [count_of_pos (by omega)]
  dsimp only
  rw [if_pos h, fire_of_cnt]
  exact ⟨rfl, rfl⟩

end Counters

/-- Settles O56: the table of counters after the write, and the source fired where the sum leaves 48 bits. -/
theorem countersAddAndWrap : Obligations.CountersAddAndWrap := by
  intro s block unit event n hw id old u wraps
  obtain ⟨hfrozen, hsame, hother⟩ := count_cnt (block := block) (unit := unit) (event := event) (n := n) hw
  refine ⟨hsame, hother, hfrozen, fun h => ?_, fun h => ?_⟩
  · exact count_within (Nat.not_le.mp (of_decide_eq_false h))
  · exact count_wraps (of_decide_eq_true h)

end Sys2Proof.Laws
end

section
/-! The acceptance of packets, their queues, the sequence window and the barriers (chapter 12). -/

namespace Sys2Proof.Laws

open Sys2Proof.Machine Sys2Proof.Claims

/-! ### Acceptance, step by step (R330, R339, Table 12.12) -/

section Acceptance

variable {s : State} {q : Nat} {h : Hdr} {p : Params} {e : Nat × Nat}

/-- No restart turns the packet away (R342). -/
def Served (q : Nat) (s : State) : Prop := (decide (q = 9) && s.sys.restart) = false

theorem Served.runPacket (hr : Served q s) {v : State}
    (hv : (match frameCheck q h with
      | some e => (s.refuse (runOf q ⟨h, p⟩) e).malformed q h
      | none =>
        match s.authCheck q h p with
        | some e => s.refuse (runOf q ⟨h, p⟩) e
        | none =>
          match (s.noteSeq q h).opcodeCheck q p <|> (s.noteSeq q h).headerCheck q h p <|> (s.noteSeq q h).modeCheck q ⟨h, p⟩ with
          | some e => (s.noteSeq q h).refuse (runOf q ⟨h, p⟩) e
          | none => (s.noteSeq q h).run (runOf q ⟨h, p⟩)) = v) : s.runPacket q ⟨h, p⟩ = v :=
  (if_neg (Bool.eq_false_iff.mp hr)).trans hv

theorem runPacket_of_frame (hr : Served q s) (hf : frameCheck q h = some e) :
    s.runPacket q ⟨h, p⟩ = (s.refuse (runOf q ⟨h, p⟩) e).malformed q h :=
  hr.runPacket (by rw [hf])

theorem runPacket_of_auth (hr : Served q s) (hf : frameCheck q h = none) (ha : s.authCheck q h p = some e) :
    s.runPacket q ⟨h, p⟩ = s.refuse (runOf q ⟨h, p⟩) e :=
  hr.runPacket (by rw [hf, ha])

theorem runPacket_of_row (hr : Served q s) (hf : frameCheck q h = none) (ha : s.authCheck q h p = none)
    (hc : ((s.noteSeq q h).opcodeCheck q p <|> (s.noteSeq q h).headerCheck q h p <|> (s.noteSeq q h).modeCheck q ⟨h, p⟩) = some e) :
    s.runPacket q ⟨h, p⟩ = (s.noteSeq q h).refuse (runOf q ⟨h, p⟩) e :=
  hr.runPacket (by rw [hf, ha, hc])

/-- A ring that reads a malformed header stops in ERROR (R330). -/
theorem malformed_of_broken (hq : q < 9) (hh : h.version ≠ 1 ∨ h.length < 6) (s : State) : s.malformed q h = s.queueError q 1 :=
  if_pos (by rcases hh with hh | hh <;> simp [hq, hh])

theorem malformed_of_sound (hh : q = 9 ∨ h.version = 1 ∧ 6 ≤ h.length) (s : State) : s.malformed q h = s :=
  if_neg (by
    rcases hh with hh | ⟨hv, hl⟩
    · simp [hh]
    · simp [hv, Nat.not_lt.mpr hl])

end Acceptance

section Judged

variable {s : State} {t : Tick} {h : Hdr} {p : Params} {i : Instr} {e : Nat × Nat}

theorem taken_served (ht : Taken s t h p) : Served h.queue (reached s t h p) := by
  by_cases hq : h.queue = 9
  · simp [Served, taken_restart s t h p ht hq]
  · simp [Served, hq]

/-- What the packet's judgement leaves is what its row answers. -/
theorem judged_ends (hi : packetRow t h p = some i) (ht : Taken s t h p) {v : State}
    (hv : (reached s t h p).runPacket h.queue ⟨h, p⟩ = v) : exec i s = .next v.settleLink := by
  rw [exec_packetRow hi, taken_runs s t h p ht, hv]

theorem auth_refuses (hi : packetRow t h p = some i) (ht : Taken s t h p) (hf : frameCheck h.queue h = none)
    (ha : (reached s t h p).authCheck h.queue h p = some e) :
    exec i s = .next ((reached s t h p).refuse (command h p) e).settleLink :=
  judged_ends hi ht (runPacket_of_auth (taken_served ht) hf ha)

theorem row_refuses (hi : packetRow t h p = some i) (ht : Taken s t h p) (hf : frameCheck h.queue h = none)
    (ha : (reached s t h p).authCheck h.queue h p = none)
    (hc : ((fetched s t h p).opcodeCheck h.queue p <|> (fetched s t h p).headerCheck h.queue h p <|>
      (fetched s t h p).modeCheck h.queue ⟨h, p⟩) = some e) :
    exec i s = .next ((fetched s t h p).refuse (command h p) e).settleLink :=
  judged_ends hi ht (runPacket_of_row (taken_served ht) hf ha hc)

/-- A command whose chapter's checks fail is refused with their status. -/
theorem start_refuses (hi : packetRow t h p = some i) (hm : Immediate s t h p) (ha : ansCheck (answerOf s t h p) = some e) :
    exec i s = .next ((fetched s t h p).refuse (command h p) e).settleLink := by
  rw [exec_packetRow hi, immediate_runs hm]
  unfold State.answer
  rw [ha]

end Judged

theorem check_of_first {a b : Check} {e : Nat × Nat} (h : a = some e) : (a <|> b) = some e := by rw [h]; rfl

theorem check_of_next {a b : Check} (h : a = none) : (a <|> b) = b := by rw [h]; rfl

/-- Settles O42: the steps of Table 12.12 in turn, each after those before it have passed. -/
theorem packetsAreJudgedInOrder : Obligations.PacketsAreJudgedInOrder := by
  intro s t h p i e hi ht q r w ends broken framed b
  refine ⟨fun ⟨hf, hq, hh⟩ => ?_, fun ⟨hf, hh⟩ => ?_, auth_refuses hi ht, fun ⟨hf, ha⟩ ho => ?_, fun ⟨hf, ha⟩ ho hh => ?_,
    fun ⟨hf, ha⟩ ho hh hm => ?_, start_refuses hi⟩
  · exact judged_ends hi ht ((runPacket_of_frame (taken_served ht) hf).trans (malformed_of_broken hq hh _))
  · exact judged_ends hi ht ((runPacket_of_frame (taken_served ht) hf).trans (malformed_of_sound hh _))
  · exact row_refuses hi ht hf ha (check_of_first ho)
  · exact row_refuses hi ht hf ha ((check_of_next ho).trans (check_of_first hh))
  · exact row_refuses hi ht hf ha ((check_of_next ho).trans ((check_of_next hh).trans hm))

/-! ### A queue that is set -/

theorem queue_setQueue {s : State} {q : Nat} (hw : tblWf ({} : Queue) s.queues = true) (x : Queue) : (s.setQueue q x).queue q = x :=
  fget_fset_same _ s.queues q x hw

theorem queue_setQueue_other {s : State} {q k : Nat} (hw : tblWf ({} : Queue) s.queues = true) (hk : k ≠ q) (x : Queue) :
    (s.setQueue q x).queue k = s.queue k :=
  fget_fset_other _ s.queues q k x hw hk

theorem setQueue_setQueue {s : State} {q : Nat} (hw : tblWf ({} : Queue) s.queues = true) (x y : Queue) :
    (s.setQueue q x).setQueue q y = s.setQueue q y := by
  unfold State.setQueue
  dsimp only
  rw [fset_fset _ _ _ _ _ hw]

@[simp] theorem enter_queues (s : State) (t : Tick) : (s.enter t).queues = s.queues := by
  unfold State.enter
  split <;> rfl

/-- A packet row ends as the device handles its command. -/
theorem submitted_ends {s v : State} {t : Tick} {h : Hdr} {p : Params} {i : Instr} (hi : packetRow t h p = some i)
    (hv : (s.enter t).submitted p h = v) : exec i s = .next v.settleLink := by
  rw [exec_packetRow hi, submit, hv]

/-! ### Packets that wait (R327, R329, Table 12.9) -/

section Waiting

variable {u : State} {h : Hdr} {p : Params}

theorem submitted_of_away (ha : 10 ≤ h.queue ∨ u.senderOk h.queue = false) : u.submitted p h = u :=
  if_pos (by
    rcases ha with ha | ha
    · simp [Nat.not_lt.mpr ha]
    · simp [ha])

theorem submitted_of_ring (hq : h.queue < 9) (hs : u.senderOk h.queue = true) :
    u.submitted p h = if (u.queue h.queue).ring.isEmpty then (u.place h.queue ⟨h, p⟩).fetchOne h.queue else u.place h.queue ⟨h, p⟩ :=
  (if_neg (by simp [hs, Nat.lt_succ_of_lt hq])).trans (if_neg (Nat.ne_of_lt hq))

theorem submitted_of_port (hq : h.queue = 9) (hs : u.senderOk 9 = true) : u.submitted p h = u.takeSpi ⟨h, p⟩ (4 * h.length + 4) true :=
  (if_neg (by simp [hq, hs])).trans (if_pos hq)

variable {q : Nat} {pk : Packet} {rest : List Packet}

/-- The queue fetches: nothing holds it. -/
def Idle (u : State) (q : Nat) : Bool := u.fetches q && (u.queue q).enable && !(u.queue q).error && !u.holds q

theorem fetchOne_of_empty (hq : q < 9) (hr : (u.queue q).ring = []) : u.fetchOne q = u := by
  refine (if_neg (Nat.ne_of_lt hq)).trans ?_
  dsimp only
  rw [hr]

/-- What the fetch of the packet at the head asks in turn. -/
theorem fetchOne_of_ring (hq : q < 9) (hr : (u.queue q).ring = pk :: rest) :
    u.fetchOne q =
      if !(Idle u q && u.covered q pk) then u
      else if !u.ringRoom q pk then u.setQueue q { u.queue q with stall := true }
      else (u.setQueue q { u.queue q with
        ring := rest, stall := false, sqHead := ((u.queue q).sqHead + ringSize pk) % u.ringBytes q }).runPacket q pk := by
  refine (if_neg (Nat.ne_of_lt hq)).trans ?_
  dsimp only
  rw [hr]
  rfl

theorem fetchOne_of_held (hq : q < 9) (hr : (u.queue q).ring = pk :: rest) (hi : Idle u q = false) : u.fetchOne q = u := by
  rw [fetchOne_of_ring hq hr]
  exact if_pos (by simp [hi])

/-- No place for the replies: the queue stalls (R329). -/
theorem fetchOne_stalls (hq : q < 9) (hr : (u.queue q).ring = pk :: rest) (hi : Idle u q = true) (hc : u.covered q pk = true)
    (hn : u.ringRoom q pk = false) : u.fetchOne q = u.setQueue q { u.queue q with stall := true } := by
  rw [fetchOne_of_ring hq hr]
  exact (if_neg (by simp [hi, hc])).trans (if_pos (by simp [hn]))

theorem fetchOne_takes (hq : q < 9) (hr : (u.queue q).ring = pk :: rest) (hi : Idle u q = true) (hc : u.covered q pk = true)
    (hn : u.ringRoom q pk = true) :
    u.fetchOne q = (u.setQueue q { u.queue q with
      ring := rest, stall := false, sqHead := ((u.queue q).sqHead + ringSize pk) % u.ringBytes q }).runPacket q pk := by
  rw [fetchOne_of_ring hq hr]
  exact (if_neg (by simp [hi, hc])).trans (if_neg (by simp [hn]))

variable (hw : tblWf ({} : Queue) u.queues = true)
include hw

theorem place_queue : (u.place q pk).queue q =
    { u.queue q with ring := (u.queue q).ring ++ [pk], sqTail := ((u.queue q).sqTail + ringSize pk) % u.ringBytes q } :=
  queue_setQueue hw _

theorem place_idle : Idle (u.place q pk) q = Idle u q := by
  unfold Idle
  rw [place_queue hw]
  rfl

theorem place_covered (hs : (u.queue q).sqTail = (u.queue q).sqHead) (hh : (u.queue q).sqHead < u.ringBytes q)
    (hn : ringSize pk < u.ringBytes q) : (u.place q pk).covered q pk = true := by
  have hsize : (u.place q pk).ringBytes q = u.ringBytes q := rfl
  unfold State.covered
  rw [place_queue hw, hsize, hs]
  exact decide_eq_true (ring_covers hh hn)

theorem place_ringRoom : (u.place q pk).ringRoom q pk = u.ringRoom q pk := by
  unfold State.ringRoom State.owedReplies
  rw [place_queue hw]
  rfl

end Waiting

/-- Settles O43: the packet placed in its ring, and the fetch that it waits for. -/
theorem packetsWaitInTheirRing : Obligations.PacketsWaitInTheirRing := by
  intro s t h p i hi hw q u x ends idle placed stalled
  have hwu : tblWf ({} : Queue) u.queues = true := by simpa [u] using hw
  have hends : ∀ {v}, u.submitted p h = v → ends v := submitted_ends hi
  refine ⟨fun hq hs ha => hends ?_, fun hq hs ⟨hr, hidle, ht, hh, hn, hroom⟩ => hends ?_, fun ha => hends (submitted_of_away ha),
    fun hq hs hn => hends ?_⟩
  · rw [submitted_of_ring hq hs]
    by_cases hr : x.ring = []
    · have hplaced : (u.place q ⟨h, p⟩).fetchOne q = placed :=
        fetchOne_of_held (pk := ⟨h, p⟩) (rest := []) hq (by rw [place_queue hwu]; exact congrArg (· ++ [_]) hr)
          ((place_idle hwu).trans (ha.resolve_left (fun hne => hne hr)))
      exact (if_pos (List.isEmpty_iff.mpr hr)).trans hplaced
    · exact if_neg (by simpa using hr)
  · have hring : (u.place q ⟨h, p⟩).queue q = { x with
        ring := [⟨h, p⟩], sqTail := (x.sqTail + ringSize ⟨h, p⟩) % u.ringBytes q } := by
      rw [place_queue hwu]
      exact congrArg (fun l => ({ x with ring := l ++ [⟨h, p⟩], sqTail := (x.sqTail + ringSize ⟨h, p⟩) % u.ringBytes q } : Queue)) hr
    rw [submitted_of_ring hq hs]
    refine (if_pos (List.isEmpty_iff.mpr hr)).trans ((fetchOne_stalls (pk := ⟨h, p⟩) (rest := []) hq (by rw [hring])
      ((place_idle hwu).trans hidle) (place_covered hwu ht hh hn) ((place_ringRoom hwu).trans hroom)).trans ?_)
    rw [hring]
    exact setQueue_setQueue hwu _ _
  · rw [submitted_of_port hq hs]
    exact if_pos (by rw [hn]; rfl)

/-! ### QUEUE_FETCH (R327, R329) and the barriers (R344, R345) -/

section Barriers

variable {s : State} {q : Nat} {j : Job} {p : BarrierP}

theorem doBarrierRelease_met (hb : s.barrier? q = some (j, p)) (hm : s.barrierMet p = true) :
    doBarrierRelease q s = s.complete j stOk 0 none := by
  unfold doBarrierRelease
  rw [hb]
  exact if_pos hm

theorem doBarrierRelease_waits (h : (∃ j p, s.barrier? q = some (j, p) ∧ s.barrierMet p = false) ∨ s.barrier? q = none) :
    doBarrierRelease q s = s := by
  unfold doBarrierRelease
  rcases h with ⟨j, p, hb, hm⟩ | hb
  · rw [hb]
    exact if_neg (by simp [hm])
  · rw [hb]

theorem doBarrierTimeout_of_none (hb : s.barrier? q = none) : doBarrierTimeout q s = s := by
  unfold doBarrierTimeout
  rw [hb]

theorem doBarrierTimeout_due {limit : Tick} (hb : s.barrier? q = some (j, p)) (hd : j.deadline = some limit) (hl : limit ≤ s.now) :
    doBarrierTimeout q s =
      if q < 9 then (s.complete j stCancelled 2 none).queueError q 2 else s.complete j stCancelled 2 none := by
  unfold doBarrierTimeout
  rw [hb]
  exact if_pos (by simp [hd, hl])

end Barriers

/-- The device fetches the packet in the SPI port's buffer (R332). -/
theorem fetchSpi_takes {s : State} {pk : Packet} (hb : s.spi.buffer = some pk) (hf : s.fetches 9 = true) (hh : s.holds 9 = false)
    (hr : s.fifoRoom pk = true) : s.fetchSpi = ({ s with spi := { s.spi with buffer := none } }).runPacket 9 pk := by
  unfold State.fetchSpi
  rw [hb]
  exact if_pos (by simp [hf, hh, hr])

/-- Settles O36: the fetch by what holds the queue, a barrier by whether its conditions are met or its time has run out. -/
theorem queueFetchAndBarrierRows : Obligations.QueueFetchAndBarrierRows := by
  intro s t q pk rest j p limit ready taken waits due
  have hidle : ∀ {w}, ready w → Idle w q = true ∧ w.covered q pk = true := fun ⟨_, hf, he, hx, hh, hc⟩ =>
    ⟨by simp [Idle, hf, he, hx, hh], hc⟩
  refine ⟨fun hq => ⟨?_, ?_, ?_, ?_⟩, ?_, ?_, ?_, fun hq => ?_, ?_⟩
  · exact events_of_onEvent rfl fun w _ ⟨hr, hn⟩ =>
      congrArg State.settleLink (fetchOne_takes hq hr.1 (hidle hr).1 (hidle hr).2 hn)
  · exact events_of_onEvent rfl fun w _ ⟨hr, hn⟩ =>
      congrArg State.settleLink (fetchOne_stalls hq hr.1 (hidle hr).1 (hidle hr).2 hn)
  · exact events_of_onEvent rfl fun w _ hr => congrArg State.settleLink (fetchOne_of_empty hq hr)
  · exact events_of_onEvent rfl fun w _ ⟨hb, hd, hl⟩ => (doBarrierTimeout_due hb hd hl).trans (if_pos hq)
  · exact events_of_onEvent rfl fun w _ ⟨hb, hf, hh, hr⟩ => congrArg State.settleLink (fetchSpi_takes hb hf hh hr)
  · exact events_of_onEvent rfl fun w _ ⟨hb, hm⟩ => doBarrierRelease_met hb hm
  · exact events_of_onEvent rfl fun w _ h => doBarrierRelease_waits (h.imp_left fun ⟨hb, hm⟩ => ⟨j, p, hb, hm⟩)
  · exact events_of_onEvent rfl fun w _ ⟨hb, hd, hl⟩ =>
      (doBarrierTimeout_due hb hd hl).trans (if_neg (by rw [hq]; decide))
  · exact events_of_onEvent rfl fun w _ hb => doBarrierTimeout_of_none hb

/-! ### Authentication (R337 to R339, R436) -/

section Authentication

variable {s : State} {q k mac : Nat} {h : Hdr} {p : Params}

/-- A MAC on a queue that is bound to a slot. -/
theorem authCheck_of_mac (hk : (s.queue q).macSlot = some k) (hm : h.mac = some mac) :
    s.authCheck q h p = (s.useSlot 0 k <|> failIf (mac != macOf (s.slot k).key q h p) stBadMac <|>
      failIf (!inWindow (s.queue q).macSeq h.seq) stReplay) := by
  unfold State.authCheck
  rw [hk, hm]

theorem authCheck_of_slot {e : Nat × Nat} (hk : (s.queue q).macSlot = some k) (hm : h.mac = some mac) (hu : s.useSlot 0 k = some e) :
    s.authCheck q h p = some e :=
  (authCheck_of_mac hk hm).trans (check_of_first hu)

theorem authCheck_forged (hk : (s.queue q).macSlot = some k) (hm : h.mac = some mac) (hu : s.useSlot 0 k = none)
    (hb : mac ≠ macOf (s.slot k).key q h p) : s.authCheck q h p = some (stBadMac, 0) :=
  (authCheck_of_mac hk hm).trans ((check_of_next hu).trans (check_of_first (if_pos (by simpa using hb))))

theorem authCheck_signed (hk : (s.queue q).macSlot = some k) (hm : h.mac = some mac) (hu : s.useSlot 0 k = none)
    (hg : mac = macOf (s.slot k).key q h p) : s.authCheck q h p = failIf (!inWindow (s.queue q).macSeq h.seq) stReplay :=
  (authCheck_of_mac hk hm).trans ((check_of_next hu).trans (check_of_next (if_neg (by simp [← hg]))))

theorem authCheck_of_bare (hk : (s.queue q).macSlot = some k) (hm : h.mac = none) :
    s.authCheck q h p = failIf (!(q == 9 && !s.slotValid k && recoversPort p)) stBadMac := by
  unfold State.authCheck
  rw [hk, hm]

theorem authCheck_unbound (hk : (s.queue q).macSlot = none) (hm : h.mac = some mac) :
    s.authCheck q h p = some (stKeyAbsent, 0) := by
  unfold State.authCheck
  rw [hk, hm]

theorem useSlot_absent {use i : Nat} (hs : (s.slot i).st = 0 ∨ (s.slot i).st = 3) : s.useSlot use i = some (stKeyAbsent, 0) :=
  check_of_first (if_pos (by simpa using hs))

theorem useSlot_revoked {use i : Nat} (hs : (s.slot i).st = 2) : s.useSlot use i = some (stKeyRevoked, 0) :=
  (check_of_next (if_neg (by simp [hs]))).trans (check_of_first (if_pos (by simp [hs])))

theorem useSlot_ok {use i : Nat} (hs : (s.slot i).st = 1) (hu : bit (s.slot i).usage use = true) : s.useSlot use i = none := by
  simp [State.useSlot, failIf, hs, hu]

theorem inWindow_iff {last : BitVec 32} {seq : Nat} : inWindow (some last) seq = true ↔
    1 ≤ (BitVec.ofNat 32 seq - last).toNat ∧ (BitVec.ofNat 32 seq - last).toNat < 2 ^ 31 := by
  simp only [inWindow, Option.all_some, between, Bool.and_eq_true, decide_eq_true_eq]
  omega

end Authentication

/-- Settles O60: the state of the bound slot, the MAC, then the window. -/
theorem queueWithLostKeyRefuses : Obligations.QueueWithLostKeyRefuses := by
  intro s t h p i k mac hi ht hf q r bound good recovers refused
  have hends : ∀ {st}, r.authCheck q h p = some (st, 0) → refused st := auth_refuses hi ht hf
  have hrec : recovers = recoversPort p := rfl
  refine ⟨fun hk hm hs => ?_, fun hk hm hs => ?_, fun hk hm hu hb => ?_, fun hk hm hu hg hn => ?_, fun hk hm hn => ?_,
    fun hk hm hq hs hc => ?_, fun hk hm => ?_⟩
  · exact hends (authCheck_of_slot hk hm (useSlot_absent hs))
  · exact hends (authCheck_of_slot hk hm (useSlot_revoked hs))
  · exact hends (authCheck_forged hk hm hu hb)
  · exact hends ((authCheck_signed hk hm hu hg).trans (if_pos (by rw [hn]; rfl)))
  · refine hends ((authCheck_of_bare hk hm).trans (if_pos ?_))
    rw [hrec] at hn
    rcases hn with hn | hn | hn <;> simp [State.slotValid, hn]
  · rw [hrec] at hc
    exact (authCheck_of_bare hk hm).trans (if_neg (by simp [State.slotValid, hq, hs, hc]))
  · exact hends (authCheck_unbound hk hm)

/-! ### The stored sequence (R338) -/

section Sequence

variable {q : Nat}

/-- From `a` to `b` queue `q` keeps the sequence that it has stored. -/
def KeepsSeq (q : Nat) (a b : State) : Prop := tblWf ({} : Queue) b.queues = true ∧ (b.queue q).macSeq = (a.queue q).macSeq

theorem KeepsSeq.refl {a : State} (hw : tblWf ({} : Queue) a.queues = true) : KeepsSeq q a a := ⟨hw, rfl⟩

theorem KeepsSeq.of_queues {a b c : State} (h : KeepsSeq q a b) (hc : c.queues = b.queues) : KeepsSeq q a c := by
  obtain ⟨hw, hs⟩ := h
  refine ⟨hc ▸ hw, ?_⟩
  unfold State.queue at hs ⊢
  rw [hc, hs]

/-- A queue is set without its sequence. -/
theorem KeepsSeq.setQueue {a b : State} {k : Nat} {x : Queue} (h : KeepsSeq q a b) (hx : x.macSeq = (b.queue k).macSeq) :
    KeepsSeq q a (b.setQueue k x) := by
  obtain ⟨hw, hs⟩ := h
  refine ⟨tblWf_fset _ b.queues k x hw, ?_⟩
  by_cases hk : q = k
  · subst hk
    rw [queue_setQueue hw, hx, hs]
  · rw [queue_setQueue_other hw hk, hs]

@[simp] theorem msixSend_queues (s : State) (v : Nat) : (s.msixSend v).queues = s.queues := by
  obtain ⟨_, _, h⟩ := msixSend_frame s v
  rw [h]

/-- The queue after an entry of its ring is written (R328). -/
def entered (x : Queue) (k : Nat) (r : Reply) : Queue :=
  let next := (x.cqTail + 1) % 2 ^ x.cqSize
  { x with entries := x.entries ++ [⟨r, k, x.phase⟩], cqTail := next, phase := if next = 0 then !x.phase else x.phase }

theorem putEntry_queues (s : State) (k : Nat) (r : Reply) :
    (s.putEntry k r).queues = (s.setQueue k (entered (s.queue k) k r)).queues := by
  unfold State.putEntry
  dsimp only
  split
  · split
    · exact fire_queues _ 25
    · rfl
  · split
    · exact msixSend_queues _ _
    · rfl

theorem KeepsSeq.putEntry {a b : State} {k : Nat} {r : Reply} (h : KeepsSeq q a b) : KeepsSeq q a (b.putEntry k r) :=
  (h.setQueue (x := entered (b.queue k) k r) rfl).of_queues (putEntry_queues b k r)

theorem KeepsSeq.post {a b : State} {k : Nat} {r : Reply} (h : KeepsSeq q a b) : KeepsSeq q a (b.post k r) := by
  unfold State.post
  dsimp only
  split
  · exact h.of_queues rfl
  · split
    · exact h.putEntry
    · exact h.setQueue rfl

theorem KeepsSeq.deliver {a b : State} {k : Nat} {r : Res} {bs : List Byte} (h : KeepsSeq q a b) : KeepsSeq q a (b.deliver k r bs) := by
  unfold State.deliver
  split
  · exact h.of_queues rfl
  · split
    · exact h.of_queues rfl
    · exact h.of_queues rfl

theorem KeepsSeq.replyResult {a b : State} {k seq tag st : Nat} {r : Res} {bs : List Byte} {ras : Option Nat} (h : KeepsSeq q a b) :
    KeepsSeq q a (b.replyResult k seq tag st r bs ras) := by
  unfold State.replyResult State.reply
  dsimp only
  split
  · exact h.post.deliver
  · exact h.deliver.post

theorem KeepsSeq.finishStop {a b : State} {k : Nat} (h : KeepsSeq q a b) : KeepsSeq q a (b.finishStop k) := by
  unfold State.finishStop
  dsimp only
  split
  · exact h.setQueue rfl
  · exact h

/-- A job that completes has left the table, and its reply is posted (R336). -/
def jobReplied (s : State) (j : Job) (st d : Nat) (ras : Option Nat) : State :=
  let s1 := { s with jobs := s.jobs.filter fun x => x.id != j.id }
  if j.silent || (s.sys.mode == .failed && j.queue != 9) then s1
  else match j.res with
    | some r => if st = stOk ∨ st = stKeyRevoked then s1.replyResult j.queue j.seq j.tag st r j.result ras
                else s1.reply j.queue j.seq j.tag st d ras
    | none => s1.reply j.queue j.seq j.tag st d ras

theorem complete_eq (s : State) (j : Job) (st d : Nat) (ras : Option Nat) :
    s.complete j st d ras =
      if j.sched || j.silent then jobReplied s j st d ras else ((jobReplied s j st d ras).markDone j.queue j.seq).finishStop j.queue := rfl

theorem KeepsSeq.jobReplied {a b : State} {j : Job} {st d : Nat} {ras : Option Nat} (h : KeepsSeq q a b) :
    KeepsSeq q a (jobReplied b j st d ras) := by
  have hgone : KeepsSeq q a { b with jobs := b.jobs.filter fun x => x.id != j.id } := h.of_queues rfl
  unfold Laws.jobReplied
  dsimp only
  split
  · exact hgone
  · split
    · split
      · exact hgone.replyResult
      · exact hgone.post
    · exact hgone.post

theorem KeepsSeq.markDone {a b : State} {k seq : Nat} (h : KeepsSeq q a b) : KeepsSeq q a (b.markDone k seq) :=
  h.setQueue (x := { b.queue k with lastSeq := BitVec.ofNat 32 seq }) rfl

theorem KeepsSeq.complete {a b : State} {j : Job} {st d : Nat} {ras : Option Nat} (h : KeepsSeq q a b) :
    KeepsSeq q a (b.complete j st d ras) := by
  rw [complete_eq]
  split
  · exact h.jobReplied
  · exact h.jobReplied.markDone.finishStop

/-- A refusal moves no sequence. -/
theorem KeepsSeq.refuse {a b : State} {j : Job} {e : Nat × Nat} (h : KeepsSeq q a b) : KeepsSeq q a (b.refuse j e) := by
  refine KeepsSeq.complete ?_
  unfold State.countRefusal
  split
  · exact h.of_queues (by simp)
  · exact h

variable {s : State} {t : Tick} {h : Hdr} {p : Params}

/-- What a packet that is taken leaves of its queue's binding. -/
theorem reached_queue (hw : tblWf ({} : Queue) s.queues = true) :
    tblWf ({} : Queue) (reached s t h p).queues = true ∧
    ((reached s t h p).queue h.queue).macSlot = (s.queue h.queue).macSlot ∧
    ((reached s t h p).queue h.queue).macSeq = (s.queue h.queue).macSeq := by
  have hwe : tblWf ({} : Queue) (s.enter t).queues = true := by simpa using hw
  have hq : (s.enter t).queue h.queue = s.queue h.queue := by unfold State.queue; rw [enter_queues]
  unfold reached
  dsimp only
  split
  · exact ⟨hwe, by rw [hq], by rw [hq]⟩
  · refine ⟨tblWf_fset _ _ _ _ hwe, ?_, ?_⟩ <;> rw [queue_setQueue hwe, hq]

/-- An authenticated command that is accepted is the last from then on. -/
theorem fetched_macSeq (hw : tblWf ({} : Queue) s.queues = true) (hm : h.mac.isSome = true) :
    ((fetched s t h p).queue h.queue).macSeq = some (BitVec.ofNat 32 h.seq) := by
  rw [fetched, State.noteSeq, if_pos hm, queue_setQueue (reached_queue hw).1]

end Sequence

/-- Settles O50: the MAC, then the window; a refusal moves nothing and an acceptance the stored sequence. -/
theorem sequenceWindowStopsReplays : Obligations.SequenceWindowStopsReplays := by
  intro s t h p i slot mac last hi ht hf q r w good ahead fails accepted hk hu hm
  obtain ⟨hwr, hslot, hseq⟩ := reached_queue (t := t) (h := h) (p := p) ht.1
  have hkr : (r.queue q).macSlot = some slot := hslot.trans hk
  have hfails : ∀ {st}, r.authCheck q h p = some (st, 0) → fails st := fun ha =>
    ⟨auth_refuses hi ht hf ha, ((KeepsSeq.refl hwr).refuse).2.trans hseq⟩
  have hwindow : mac = good → r.authCheck q h p = failIf (!inWindow (s.queue q).macSeq h.seq) stReplay := fun hg =>
    (authCheck_signed hkr hm hu hg).trans (by rw [hseq])
  have haccepts : r.authCheck q h p = none → accepted := fun ha => ⟨ha, fetched_macSeq ht.1 (by rw [hm]; rfl)⟩
  refine ⟨fun hb => hfails (authCheck_forged hkr hm hu hb), fun hg hn => ?_, fun hg hl hin => ?_, fun hg hl hout => ?_⟩
  · exact haccepts ((hwindow hg).trans (by rw [hn]; rfl))
  · exact haccepts ((hwindow hg).trans (by rw [hl, inWindow_iff.mpr hin]; rfl))
  · exact hfails ((hwindow hg).trans (by rw [hl, Bool.eq_false_iff.mpr (mt inWindow_iff.mp hout)]; rfl))

end Sys2Proof.Laws
end

section
/-! What the memories hold, and the Parameter Store: its commands, its writes, refresh and audit log (chapters 14, 17 and 18). -/

namespace Sys2Proof.Laws

open Sys2Proof.Machine Sys2Proof.Claims

/-! ### Bytes written -/

/-- Every written byte reads back, and every other byte reads as before. -/
theorem mwrite_lands {d : Nat → Byte} {m : List Host.Cell} (hm : memWf d m = true) (a : Nat) (bs : List Byte) :
    (∀ i, i < bs.length → mget d (mwrite d m a bs) (a + i) = bs.getD i 0) ∧
    ∀ b, b < a ∨ a + bs.length ≤ b → mget d (mwrite d m a bs) b = mget d m b := by
  refine ⟨fun i hi => ?_, fun b hb => mget_mwrite_outside d bs m a b hb⟩
  rw [mget_mwrite_inside d bs m a i hm hi, List.getD_eq_getElem _ _ hi]

@[simp] theorem completeId_nv (s : State) (id st d : Nat) (ras : Option Nat) : (s.completeId id st d ras).nv = s.nv := by
  unfold State.completeId
  split <;> simp

/-! ### The write at the head of the order (R455, R458, R472) -/

section Write

variable {s : State} {x : NvWrite} {rest : List NvWrite}

/-- The write at the head has been programmed. -/
def nvProgrammed (x : NvWrite) (rest : List NvWrite) (s : State) : State :=
  { s with nv := { s.nv with cells := mwrite nvDefault s.nv.cells x.addr x.bytes, writes := rest } }

/-- The audit chain has advanced over an entry (R472). -/
def auditChained (entry : List Byte) (key pos : Nat) (s : State) : State :=
  { s with nv := { s.nv with
    chain := hmac key (s.nv.chain ++ entry), newest := some pos, nextSeq := (entrySeq entry + 1) % 65536 } }

theorem doNvWriteDone_of_none (h : s.nv.writes = [] ∨ s.nv.stopped = true) : doNvWriteDone s = s := by
  unfold doNvWriteDone
  rcases h with h | h
  · rw [h]
  · split
    · rfl
    · exact if_pos h

variable (hx : s.nv.writes = x :: rest) (hs : s.nv.stopped = false)
include hx hs

theorem doNvWriteDone_record (hw : x.why = .record) : doNvWriteDone s = nvProgrammed x rest s := by
  unfold doNvWriteDone
  rw [hx]
  refine (if_neg (by simp [hs])).trans ?_
  rw [hw]
  rfl

theorem doNvWriteDone_command {id : Nat} (hw : x.why = .lastOf id) :
    doNvWriteDone s = (nvProgrammed x rest s).completeId id stOk 0 none := by
  unfold doNvWriteDone
  rw [hx]
  refine (if_neg (by simp [hs])).trans ?_
  rw [hw]
  rfl

theorem doNvWriteDone_audit {entry : List Byte} {key pos : Nat} (hw : x.why = .audit entry key pos) :
    doNvWriteDone s =
      let u := auditChained entry key pos (nvProgrammed x rest s)
      if entrySeq entry % 64 = 63 ∨ (entry.getD 2 0).toNat = 5 then u.checkpoint (entrySeq entry) (hmac key (s.nv.chain ++ entry)) else u := by
  have hdone : doNvWriteDone s =
      let u := auditChained entry key pos (nvProgrammed x rest s)
      if decide (entrySeq entry % 64 = 63) || decide ((entry.getD 2 0).toNat = 5) then
        u.checkpoint (entrySeq entry) (hmac key (s.nv.chain ++ entry))
      else u := by
    unfold doNvWriteDone
    rw [hx]
    refine (if_neg (by simp [hs])).trans ?_
    rw [hw]
    rfl
  rw [hdone]
  simp only [Bool.or_eq_true, decide_eq_true_eq]

/-- Whatever the write was for, the array then holds its bytes. -/
theorem doNvWriteDone_cells : (doNvWriteDone s).nv.cells = mwrite nvDefault s.nv.cells x.addr x.bytes := by
  unfold doNvWriteDone
  rw [hx]
  dsimp only
  rw [if_neg (by simp [hs])]
  cases x.why with
  | lastOf id => rw [completeId_nv]
  | audit entry key pos =>
    dsimp only
    split <;> rfl
  | command id => rfl
  | record => rfl
  | refresh => rfl

end Write

/-- A charge of the Weir writes no memory. -/
theorem transferCharged_mem (s : State) : (transferCharged s).pond.mem = s.pond.mem := by
  unfold transferCharged State.charge
  rw [count_pond]

theorem contentStored_mem (seq addr : Nat) (content : List Byte) (s : State) :
    (contentStored seq addr content s).pond.mem = mwrite zeroByte s.pond.mem addr (content.take (pondSize - addr)) := rfl

theorem doXfer_mem {seq addr : Nat} {content : List Byte} {s : State} (hr : s.pair.role = .mate) :
    (doXfer seq addr content s).pond.mem = mwrite zeroByte s.pond.mem addr (content.take (pondSize - addr)) := by
  rw [doXfer_stores hr, contentStored_mem]
  split
  · rfl
  · rw [transferCharged_mem]

/-- A row that acts out of reset alone acts there. -/
theorem exec_of_onEvent {s : State} {t : Tick} {i : Instr} {f : State → State} (hs : s.sys.stage ≠ .inReset)
    (hx : exec i s = .next (onEvent f (s.enter t))) : exec i s = .next (f (s.advance t)) := by
  rw [hx, enter_of_running hs, onEvent, if_neg (by rwa [advance_sys])]

/-- Settles O55: each memory after the write, whose bytes then land as in every memory of bytes. -/
theorem memoryWritesLand : Obligations.MemoryWritesLand := by
  intro s t bs x rest addr seq lands hsound hs
  obtain ⟨⟨hpond, hnv, hsram⟩, -⟩ := hsound
  refine ⟨fun hr => ⟨doXfer seq addr bs (s.advance t), exec_of_onEvent hs rfl, ?_⟩,
    fun hx hn => ⟨doNvWriteDone (s.advance t), exec_of_onEvent hs rfl, ?_⟩, mwrite_lands hsram addr bs⟩
  · have hmem : (doXfer seq addr bs (s.advance t)).pondByte = mget zeroByte (mwrite zeroByte s.pond.mem addr (bs.take (pondSize - addr))) :=
      congrArg (mget zeroByte) (doXfer_mem (s := s.advance t) hr)
    obtain ⟨hin, hout⟩ := mwrite_lands hpond addr (bs.take (pondSize - addr))
    rw [List.length_take, Nat.min_comm] at hin hout
    rw [hmem]
    refine ⟨fun i hi => (hin i hi).trans ?_, hout⟩
    have hi' : i < pondSize - addr := Nat.lt_of_lt_of_le hi (Nat.min_le_right _ _)
    simp [List.getD_eq_getElem?_getD, hi']
  · have hcells : (doNvWriteDone (s.advance t)).nvByte = mget nvDefault (mwrite nvDefault s.nv.cells x.addr x.bytes) :=
      congrArg (mget nvDefault) (doNvWriteDone_cells (s := s.advance t) hx hn)
    rw [hcells]
    exact mwrite_lands hnv x.addr x.bytes

/-! ### Power failures, refresh and the audit log (R456, R463, R471) -/

section Power

variable {s : State} {done n : Nat} {x : NvWrite} {rest : List NvWrite}

/-- The write at the head has stopped after the bytes that were programmed (R456). -/
theorem doNvPowerFail_stops (hx : s.nv.writes = x :: rest) (hs : s.nv.stopped = false) :
    doNvPowerFail done s =
      { s with
        nv := { s.nv with cells := mwrite nvDefault s.nv.cells x.addr (x.bytes.take (min done x.bytes.length)),
                          writes := { x with done := min done x.bytes.length } :: rest, stopped := true },
        pins := { s.pins with pfwLow := true } } := by
  have hn : s.nvStop done = { s with nv := { s.nv with
      cells := mwrite nvDefault s.nv.cells x.addr (x.bytes.take (min done x.bytes.length)),
      writes := { x with done := min done x.bytes.length } :: rest } } := by
    unfold State.nvStop
    rw [hx]
  unfold doNvPowerFail
  rw [if_neg (by simp [hs]), hn]

theorem doNvPowerFail_idle (h : s.nv.writes = [] ∨ s.nv.stopped = true) :
    doNvPowerFail done s = { s with nv := { s.nv with stopped := true }, pins := { s.pins with pfwLow := true } } := by
  have hs : (if s.nv.stopped then s else s.nvStop done) = s := by
    rcases h with h | h
    · unfold State.nvStop
      rw [h, ite_self]
    · exact if_pos h
  unfold doNvPowerFail
  rw [hs]

theorem doRefreshStart_begins (hq : s.sys.quiet = .awake) (hn : s.nv.refresh = none) :
    doRefreshStart s = { s with nv := { s.nv with refresh := some 0 } } := if_pos (by simp [hq, hn])

theorem doRefreshStart_stays (h : s.sys.quiet ≠ .awake ∨ s.nv.refresh ≠ none) : doRefreshStart s = s :=
  if_neg (by rcases h with h | h <;> simp [h])

theorem doRefreshWord_of_none (corrected : Bool) (h : s.nv.refresh = none) : doRefreshWord corrected s = s := by
  unfold doRefreshWord
  rw [h]

/-- The refresh pass goes on behind word `n`, and ends behind the last (R463). -/
def refreshed (n : Nat) (s : State) : State := { s with nv := { s.nv with refresh := if n + 1 < 16384 then some (n + 1) else none } }

theorem doRefreshWord_reads (corrected : Bool) (h : s.nv.refresh = some n) (hq : s.sys.quiet = .awake) (hr : s.sys.restart = false) :
    doRefreshWord corrected s = if corrected then ((refreshed n s).count 14 0 0).fire 970 else refreshed n s := by
  unfold doRefreshWord
  rw [h]
  exact if_neg (by simp [hq, hr])

/-- The place of the next audit entry (R471). -/
def auditPlace (s : State) : Nat := match s.nv.newest with
  | some i => (i + 1) % 4096
  | none => 0

/-- The entry that tells of those lost (R471). -/
def lostEntries (s : State) : List AuditEntry :=
  if 0 < s.nv.auditLost then [{ kind := 7, a := min 65535 s.nv.auditLost, stc := s.stc }] else []

theorem doAuditAppend_appends {e : AuditEntry} {tail : List AuditEntry} (ha : s.nv.audit = e :: tail) (hb : s.auditBusy = false)
    (hn : s.sys.nvRecalling = false) (hf : s.firmwareRuns = true) :
    doAuditAppend s = { s with nv := { s.nv with
      audit := tail ++ lostEntries s, auditLost := 0,
      writes := s.nv.writes ++ [{ addr := 0x5000 + 16 * auditPlace s, bytes := auditBytes s.nv.nextSeq e,
                                  why := .audit (auditBytes s.nv.nextSeq e) (e.key.getD s.sealKey) (auditPlace s) }] } } := by
  unfold doAuditAppend
  rw [ha]
  exact if_neg (by simp [hb, hn, hf])

theorem doAuditAppend_waits (h : s.nv.audit = [] ∨ s.auditBusy = true ∨ s.firmwareRuns = false) : doAuditAppend s = s := by
  unfold doAuditAppend
  rcases h with h | h | h
  · rw [h]
  · split
    · rfl
    · exact if_pos (by simp [h])
  · split
    · rfl
    · exact if_pos (by simp [h])

end Power

/-- Settles O40: power, the write at the head by what it was for, the refresh pass and the audit queue. -/
theorem parameterStoreRows : Obligations.ParameterStoreRows := by
  intro s t done n x rest weak id key pos entry e tail kept programmed ended head chained marks at_ lost walk reads
  refine ⟨?_, ?_, ?_, ?_, ?_, ?_, ?_, ?_, ?_, ?_, ?_, ?_, ?_, ?_, ?_⟩
  · exact events_of_event rfl fun w _ ⟨hx, hs⟩ => doNvPowerFail_stops hx hs
  · exact events_of_event rfl fun w _ h => doNvPowerFail_idle h
  · exact events_of_event rfl fun w _ _ => rfl
  · exact events_of_onEvent rfl fun w _ ⟨⟨hx, hs⟩, hw⟩ => doNvWriteDone_record hx hs hw
  · exact events_of_onEvent rfl fun w _ ⟨⟨hx, hs⟩, hw⟩ => doNvWriteDone_command hx hs hw
  · exact events_of_onEvent rfl fun w _ ⟨⟨hx, hs⟩, hw, hm⟩ => (doNvWriteDone_audit hx hs hw).trans (if_neg hm)
  · exact events_of_onEvent rfl fun w _ ⟨⟨hx, hs⟩, hw, hm⟩ => (doNvWriteDone_audit hx hs hw).trans (if_pos hm)
  · exact events_of_onEvent rfl fun w _ h => doNvWriteDone_of_none h
  · exact events_of_onEvent rfl fun w _ ⟨hq, hn⟩ => doRefreshStart_begins hq hn
  · exact events_of_onEvent rfl fun w _ h => doRefreshStart_stays h
  · exact events_of_onEvent rfl fun w _ ⟨hn, hq, hr⟩ => doRefreshWord_reads false hn hq hr
  · exact events_of_onEvent rfl fun w _ ⟨hn, hq, hr⟩ => doRefreshWord_reads true hn hq hr
  · exact events_of_onEvent rfl fun w _ h => doRefreshWord_of_none false h
  · exact events_of_onEvent rfl fun w _ ⟨ha, hb, hn, hf⟩ => doAuditAppend_appends ha hb hn hf
  · exact events_of_onEvent rfl fun w _ h => doAuditAppend_waits h

/-! ### The commands of Table 13.14 -/

/-- A packet row waits for an event with the result that its command's start gives, where it fits the descriptor. -/
theorem waitsFor_of_start {s : State} {t : Tick} {h : Hdr} {p : Params} {i : Instr} {ok : State → Prop} {eff : State → State} {r : Res}
    {bytes : State → List Byte} (hx : exec i s = .next (submit p t h s)) (hp : plainWait p = true)
    (ha : ∀ w, ok w → startOf ⟨h.queue, h⟩ p w = .later (eff w) .event 0 [] (some (r, bytes w))) :
    WaitsFor s t h p i r ok eff bytes :=
  fun hi hok hr => by rw [hx, completes_later_with hi hp (ha _ hok) hr]

section Commands

variable {s : State}

theorem startNvRead_ok {p : NvReadP} (h1 : 1 ≤ p.bytes) (h2 : p.bytes ≤ 65536) (h3 : p.addr + p.bytes ≤ 262144) :
    startNvRead p s = .result s p.res (nvBytes s.nvByte p.addr p.bytes) :=
  orAns_of_pass (failIf_pass (by simp [Nat.ne_of_gt h1, Nat.not_lt.mpr h2, Nat.not_lt.mpr h3]) _ _) _

theorem startNvWrite_ok {p : NvWriteP} (hd : p.data ≠ []) (hz : p.rsvd = 0) (hlo : 0x150C0 ≤ p.addr)
    (hhi : p.addr + p.data.length ≤ 0x20000) (ho : 2 ≤ p.addr % 64) (hl : p.addr % 64 + p.data.length ≤ 62)
    (hf : s.nvProtected p.addr = false) (he : s.nvProtected (p.addr + p.data.length - 1) = false) :
    startNvWrite p s = .later (s.nvMerge (p.addr / 64) (p.addr % 64) p.data (.lastOf s.nextJob)) .event := by
  have hn : 0 < p.data.length := List.length_pos_of_ne_nil hd
  refine orAns_of_pass (checks_pass (failIf_pass ?_ _ _) (failIf_pass ?_ _ _)) _
  · have h1 : ¬p.data.length < 1 := by omega
    have h2 : ¬64 < p.data.length := by omega
    have h3 : ¬262144 < p.addr + p.data.length := by omega
    have h4 : ¬64 < p.addr % 64 + p.data.length := by omega
    rw [decide_eq_false h1, decide_eq_false h2, decide_eq_false h3, decide_eq_false h4, hz]
    rfl
  · rw [decide_eq_false (Nat.not_lt.mpr hlo), decide_eq_false (Nat.not_lt.mpr hhi), decide_eq_false (Nat.not_lt.mpr ho),
      decide_eq_false (Nat.not_lt.mpr hl), hf, he]
    rfl

theorem startNvProtect_ok {p : NvProtectP} (hf : p.field < 4) (hz : p.rsvd = 0) (hl : s.nvLock = true → p.unlock = true) :
    startNvProtect p s = .later (s.nvMerge 0x540 2 (leBytes 1 (p.field + 4 * b2n p.lock)) (.lastOf s.nextJob)) .event := by
  have hlock : (s.nvLock && !p.unlock) = false := by
    cases h : s.nvLock
    · rfl
    · simp [hl h]
  exact orAns_of_pass (checks_pass (failIf_pass (by simp [hz, Nat.not_le.mpr hf]) _ _) (failIf_pass hlock _ _)) _

theorem startNvProtect_locked {p : NvProtectP} (hf : p.field < 4) (hz : p.rsvd = 0) (hl : s.nvLock = true) (hu : p.unlock = false) :
    startNvProtect p s = .fail stProtected := by
  simp [startNvProtect, failIf, orAns, hl, hu, hz, Nat.not_le.mpr hf]

/-- A wear-spread counter as NV_COUNTER returns it (R469). -/
def wearBytes (x : WearRead) : List Byte := leBytes 4 x.value ++ leBytes 2 x.epoch ++ leBytes 2 0

theorem startNvCounter_read {p : NvCounterP} (ho : p.op = 0) (hc : p.counter < 64) (hz : p.rsvd = 0) :
    startNvCounter p s = .result s p.res (wearBytes (s.wearNow p.counter)) := by
  simp [startNvCounter, failIf, orAns, ho, hz, Nat.not_le.mpr hc, wearBytes]

theorem startNvCounter_increments {p : NvCounterP} (ho : p.op = 1) (hc : p.counter < 63) (hz : p.rsvd = 0)
    (hm : s.sys.mode.config = true) (hv : (s.wear p.counter).value < 48000000) :
    startNvCounter p s =
      let s1 := s.wearIncrement p.counter (.lastOf s.nextJob)
      .later s1 .event 0 [] (some (p.res, wearBytes (s1.wear p.counter))) := by
  have hmode : (s.sys.mode == .bringup || s.sys.mode == .service || s.sys.mode == .test) = true := by
    revert hm
    cases s.sys.mode <;> decide
  have hrange : ¬64 ≤ p.counter := by omega
  refine (orAns_of_pass (checks_pass (failIf_pass ?_ _ _) (checks_pass (failIf_pass ?_ _ _) (failIf_pass ?_ _ _))) _).trans
    (if_neg (by rw [ho]; decide))
  · simp [ho, hz, hrange, Nat.ne_of_lt hc]
  · simp [hmode]
  · simp [Nat.not_le.mpr hv]

theorem startAuditRead_ok {p : AuditReadP} (hf : p.first < 4096) (h1 : 1 ≤ p.count) (h2 : p.count ≤ 4096) (hz : p.rsvd = 0) :
    startAuditRead p s = .result s p.res (leBytes 4 (s.nv.newest.getD 0xFFFFFFFF) ++ leBytes 4 0 ++ s.nv.chain ++
      (List.range p.count).flatMap fun i => s.auditEntry (p.first + i)) :=
  orAns_of_pass (failIf_pass (by simp [hz, Nat.not_le.mpr hf, Nat.ne_of_gt h1, Nat.not_lt.mpr h2]) _ _) _

end Commands

/-- NV_PROTECT's row waits for the write of the page. -/
theorem nvProtect_waits (s : State) (t : Tick) (h : Hdr) (p : NvProtectP) : Waits s t h (.nvProtect p) (.nvProtect t h p)
    (fun w => p.field < 4 ∧ p.rsvd = 0 ∧ (w.nvLock = true → p.unlock = true))
    (fun w => w.nvMerge 0x540 2 (leBytes 1 (p.field + 4 * b2n p.lock)) (.lastOf w.nextJob)) .event :=
  waits_of_start rfl rfl fun _ ⟨hf, hz, hl⟩ => startNvProtect_ok hf hz hl

/-- Settles O16: each command from what its start answers when its checks pass. -/
theorem storeAndAuditCommands : Obligations.StoreAndAuditCommands := by
  intro s t h
  refine ⟨fun p => ?_, fun p => ?_, fun p => ?_, fun p => ?_, fun p => ?_, fun p => ?_⟩
  · exact answers_of_start rfl fun w ⟨h1, h2, h3⟩ => startNvRead_ok h1 h2 h3
  · exact waits_of_start rfl rfl fun w ⟨hd, hz, hlo, hhi, ho, hl, hf, he⟩ => startNvWrite_ok hd hz hlo hhi ho hl hf he
  · exact nvProtect_waits s t h p
  · exact answers_of_start rfl fun w ⟨ho, hc, hz⟩ => startNvCounter_read ho hc hz
  · exact waitsFor_of_start rfl rfl fun w ⟨ho, hc, hz, hm, hv⟩ => startNvCounter_increments ho hc hz hm hv
  · exact answers_of_start rfl fun w ⟨hf, h1, h2, hz⟩ => startAuditRead_ok hf h1 h2 hz

/-! ### The protection page (R461) -/

section Protection

/-- The write that NV_PROTECT issues. -/
def protectWrite (p : NvProtectP) (s : State) : NvWrite :=
  let d := nvBytes s.nvView 0x15002 60
  let count := leBytes 2 ((s.nvHead 0x540 + 1) % 65536)
  { addr := 0x15000, why := .lastOf s.nextJob
    bytes := count ++ ((d.take 0 ++ leBytes 1 (p.field + 4 * b2n p.lock) ++ d.drop 1) ++ List.replicate 60 0).take 60 ++ count }

/-- What NV_PROTECT issues waits behind the writes before it; the page gives what it gave. -/
theorem nvMerge_protect (p : NvProtectP) (s : State) :
    let issued := s.nvMerge 0x540 2 (leBytes 1 (p.field + 4 * b2n p.lock)) (.lastOf s.nextJob)
    issued.nvBp = s.nvBp ∧ issued.nvLock = s.nvLock ∧ issued.nv.writes = s.nv.writes ++ [protectWrite p s] := ⟨rfl, rfl, rfl⟩

variable {p : NvProtectP} {s v : State} {rest : List NvWrite}

/-- A byte of the write at the head, once it has been programmed. -/
theorem nvProgrammed_byte {x : NvWrite} {a i : Nat} (hw : memWf nvDefault v.nv.cells = true) (ha : x.addr = a) (hi : i < x.bytes.length) :
    (nvProgrammed x rest v).nvByte (a + i) = x.bytes[i] := by
  subst ha
  exact mget_mwrite_inside nvDefault x.bytes v.nv.cells x.addr i hw hi

theorem protectWrite_length : 2 < (protectWrite p s).bytes.length := by
  simp only [protectWrite, List.length_append, leBytes_length]
  omega

theorem protectWrite_getElem : (protectWrite p s).bytes[2]'protectWrite_length = BitVec.ofNat 8 (p.field + 4 * b2n p.lock) := by
  simp [protectWrite, leBytes]

/-- The protection byte as the page holds it after the write. -/
theorem protectWrite_byte (hw : memWf nvDefault v.nv.cells = true) :
    (nvProgrammed (protectWrite p s) rest v).nvByte (0x15000 + 2) = BitVec.ofNat 8 (p.field + 4 * b2n p.lock) :=
  (nvProgrammed_byte hw rfl protectWrite_length).trans protectWrite_getElem

/-- From the write's completion on the page gives FIELD and LOCK. -/
theorem protectWrite_sets (hf : p.field < 4) (hw : memWf nvDefault v.nv.cells = true) :
    (nvProgrammed (protectWrite p s) rest v).nvBp = p.field ∧ (nvProgrammed (protectWrite p s) rest v).nvLock = p.lock := by
  unfold State.nvBp State.nvLock
  rw [protectWrite_byte hw]
  generalize p.field = f at hf
  cases p.lock <;> revert f <;> decide

end Protection

/-- Settles O52: the start's answer, what the write leaves in the page, and the privilege of UNLOCK. -/
theorem protectionFieldWrites : Obligations.ProtectionFieldWrites := by
  intro s t h p hf hz w issued
  obtain ⟨hbp0, hlock0, hwrites⟩ := nvMerge_protect p w
  refine ⟨fun hi hl => ⟨?_, hbp0, hlock0, protectWrite p w, hwrites, rfl, fun v t' rest hs hx hn hw => ?_⟩, fun hi hl hu => ?_,
    fun ht hframe ha hu hq => ?_⟩
  · exact nvProtect_waits s t h p hi ⟨hf, hz, fun he => hl.resolve_left (by simp [w, he])⟩
  · obtain ⟨hbp, hlock⟩ := protectWrite_sets (p := p) (s := w) (v := v.advance t') (rest := rest) hf hw
    refine ⟨nvProgrammed (protectWrite p w) rest (v.advance t'), ?_, hbp, hlock, ?_, ?_⟩
    · rw [exec_of_onEvent hs rfl, doNvWriteDone_command (s := v.advance t') hx hn rfl]
    · unfold State.nvBp State.nvByte at hbp ⊢
      rw [completeId_nv, hbp]
    · unfold State.nvLock State.nvByte at hlock ⊢
      rw [completeId_nv, hlock]
  · refine start_refuses rfl hi ?_
    rw [answerOf, show startOf ⟨h.queue, h⟩ (.nvProtect p) w = _ from startNvProtect_locked hf hz hl hu]
    rfl
  · refine row_refuses rfl ht hframe ha (check_of_first (if_pos ?_))
    have hkey : keyPrivileged (.nvProtect p) = true := hu
    rcases hq with hq | ⟨hq, hwe⟩
    · simp [hkey, Nat.ne_of_lt hq, Nat.ne_of_lt (Nat.lt_succ_of_lt hq)]
    · simp [hkey, hq, show Config.keyWe (fetched s t h (.nvProtect p)).now = false from hwe]

end Sys2Proof.Laws
end

section
/-! The key slots, operations that use them, and the tamper response (chapter 16). -/

namespace Sys2Proof.Laws

open Sys2Proof.Machine Sys2Proof.Claims

/-! ### Slots that are set in turn -/

section SlotsInTurn

variable {g : Slot → Slot}

/-- The slots of a list have changed by `g`, each once. -/
def slotsEach (g : Slot → Slot) (l : List Nat) (s : State) : State := State.each (fun k s => s.setSlot k (g (s.slot k))) l s

/-- Slots that are set change the table of slots alone. -/
theorem slotsEach_frame (l : List Nat) (s : State) :
    ∃ slots, slotsEach g l s = { s with keys := { s.keys with slots := slots } } :=
  each_induct (fun v => ∃ slots, v = { s with keys := { s.keys with slots := slots } }) _
    (fun _ _ ⟨_, h⟩ => by subst h; exact ⟨_, rfl⟩) l s ⟨s.keys.slots, rfl⟩

theorem slot_setSlot {s : State} {k : Nat} (hw : tblWf ({} : Slot) s.keys.slots = true) (x : Slot) : (s.setSlot k x).slot k = x :=
  fget_fset_same _ s.keys.slots k x hw

theorem slot_setSlot_other {s : State} {k j : Nat} (hw : tblWf ({} : Slot) s.keys.slots = true) (hj : j ≠ k) (x : Slot) :
    (s.setSlot k x).slot j = s.slot j :=
  fget_fset_other _ s.keys.slots k j x hw hj

theorem setSlot_wf {s : State} (hw : tblWf ({} : Slot) s.keys.slots = true) (k : Nat) (x : Slot) :
    tblWf ({} : Slot) (s.setSlot k x).keys.slots = true := tblWf_fset _ s.keys.slots k x hw

/-- Each slot of the list has changed once, every other stands. -/
theorem slotsEach_slot {l : List Nat} (hn : l.Nodup) {s : State} (hw : tblWf ({} : Slot) s.keys.slots = true) (k : Nat) :
    (slotsEach g l s).slot k = if k ∈ l then g (s.slot k) else s.slot k := by
  induction l generalizing s with
  | nil => rfl
  | cons i r ih =>
    obtain ⟨hi, hr⟩ := List.nodup_cons.mp hn
    refine (ih hr (setSlot_wf hw i _)).trans ?_
    by_cases hk : k = i
    · subst hk
      rw [if_neg hi, if_pos List.mem_cons_self, slot_setSlot hw]
    · rw [slot_setSlot_other hw hk]
      simp [hk]

end SlotsInTurn

/-! ### What the audit log and completions leave alone -/

section Frames

variable (s : State)

/-- An entry joins the audit queue, or is counted as lost (R471). -/
theorem queueAudit_frame (e : AuditEntry) : ∃ nv hub cnt out, s.queueAudit e = { s with nv := nv, hub := hub, cnt := cnt, out := out } := by
  unfold State.queueAudit
  split
  · obtain ⟨hub, cnt, out, hc⟩ := count_frame { s with nv := { s.nv with auditLost := s.nv.auditLost + 1 } } 14 0 2 1
    rw [hc]
    obtain ⟨hub', out', hf⟩ := fire_frame { s with nv := { s.nv with auditLost := s.nv.auditLost + 1 }, hub := hub, cnt := cnt, out := out } 972
    rw [hf]
    exact ⟨_, _, _, _, rfl⟩
  · exact ⟨_, _, _, _, rfl⟩

@[simp] theorem queueAudit_keys (e : AuditEntry) : (s.queueAudit e).keys = s.keys := by
  obtain ⟨_, _, _, _, h⟩ := queueAudit_frame s e; rw [h]
@[simp] theorem queueAudit_queues (e : AuditEntry) : (s.queueAudit e).queues = s.queues := by
  obtain ⟨_, _, _, _, h⟩ := queueAudit_frame s e; rw [h]
@[simp] theorem queueAudit_pond (e : AuditEntry) : (s.queueAudit e).pond = s.pond := by
  obtain ⟨_, _, _, _, h⟩ := queueAudit_frame s e; rw [h]
@[simp] theorem queueAudit_sys (e : AuditEntry) : (s.queueAudit e).sys = s.sys := by
  obtain ⟨_, _, _, _, h⟩ := queueAudit_frame s e; rw [h]
@[simp] theorem queueAudit_clk (e : AuditEntry) : (s.queueAudit e).clk = s.clk := by
  obtain ⟨_, _, _, _, h⟩ := queueAudit_frame s e; rw [h]

/-- Completions leave alone what a job's completion does. -/
theorem completeAll_kept {P : State → Prop} {st d : Nat} {ras : Option Nat} (hP : ∀ s j, P s → P (s.complete j st d ras))
    (l : List Nat) (hs : P s) : P (s.completeAll st d ras l) := by
  induction l generalizing s with
  | nil => exact hs
  | cons id r ih =>
    refine ih _ ?_
    unfold State.completeId
    split
    · exact hP _ _ hs
    · exact hs

variable (st d : Nat) (ras : Option Nat) (l : List Nat)

@[simp] theorem completeAll_keys : (s.completeAll st d ras l).keys = s.keys :=
  completeAll_kept (P := fun v => v.keys = s.keys) s (fun _ _ h => (complete_keys ..).trans h) l rfl
@[simp] theorem completeAll_sys : (s.completeAll st d ras l).sys = s.sys :=
  completeAll_kept (P := fun v => v.sys = s.sys) s (fun _ _ h => (complete_sys ..).trans h) l rfl
@[simp] theorem completeAll_clk : (s.completeAll st d ras l).clk = s.clk :=
  completeAll_kept (P := fun v => v.clk = s.clk) s (fun _ _ h => (complete_clk ..).trans h) l rfl

end Frames

/-! ### A change of a slot (R433, R435) -/

section Change

variable {w : State} {i : Nat} {f : Slot → Slot}

/-- A slot as its parent's change leaves it. -/
def revoked (x : Slot) : Slot := { x with st := 2, gen := x.gen + 1 }

/-- The tree of slots after the change of slot `i`. -/
def treeChanged (i : Nat) (f : Slot → Slot) (w : State) : State :=
  slotsEach revoked (w.descendants i) (w.setSlot i { f (w.slot i) with gen := (w.slot i).gen + 1 })

theorem treeChanged_frame (i : Nat) (f : Slot → Slot) (w : State) :
    ∃ slots, treeChanged i f w = { w with keys := { w.keys with slots := slots } } :=
  slotsEach_frame (w.descendants i) (w.setSlot i { f (w.slot i) with gen := (w.slot i).gen + 1 })

theorem descendants_nodup (w : State) (i : Nat) : (w.descendants i).Nodup := List.nodup_range.filter _

theorem not_mem_descendants (w : State) (i : Nat) : i ∉ w.descendants i := by simp [State.descendants]

theorem treeChanged_slot (hw : tblWf ({} : Slot) w.keys.slots = true) (k : Nat) :
    (treeChanged i f w).slot k =
      if k = i then { f (w.slot i) with gen := (w.slot i).gen + 1 }
      else if k ∈ w.descendants i then revoked (w.slot k) else w.slot k := by
  unfold treeChanged
  rw [slotsEach_slot (descendants_nodup w i) (setSlot_wf hw i _)]
  by_cases hk : k = i
  · subst hk
    rw [if_neg (not_mem_descendants w k), if_pos rfl, slot_setSlot hw]
  · rw [slot_setSlot_other hw hk, if_neg hk]

/-- A change is recorded and raises its event; neither touches the slots (R433, R442). -/
theorem changeRecorded_kept (s : State) (named raises : Bool) (e : AuditEntry) :
    let v := if named then s.queueAudit e else s
    let u := if raises then v.fire 985 else v
    u.keys = s.keys ∧ u.queues = s.queues ∧ u.pond = s.pond := by
  cases named <;> cases raises <;> simp

/-- What a change leaves: the tree's slots, and the operations that it overtakes. -/
theorem changeSlot_kept (w : State) (i : Nat) (f : Slot → Slot) :
    (w.changeSlot i f).keys = { (treeChanged i f w).keys with ops := w.keys.ops.map (overtake (i :: w.descendants i)) } ∧
    (w.changeSlot i f).queues = w.queues ∧ (w.changeSlot i f).pond = w.pond := by
  obtain ⟨slots, ht⟩ := treeChanged_frame i f w
  obtain ⟨hkeys, hqueues, hpond⟩ := changeRecorded_kept
    { treeChanged i f w with keys := { (treeChanged i f w).keys with
        ops := (treeChanged i f w).keys.ops.map (overtake (i :: w.descendants i)) } }
    ((i :: w.descendants i).contains 1) (!(w.descendants i).isEmpty || ((w.slot i).st = 1 && (f (w.slot i)).st = 2))
    { kind := 5, arg := ((treeChanged i f w).slot 1).st, stc := (treeChanged i f w).stc, key := some w.sealKey }
  have hops : (treeChanged i f w).keys.ops = w.keys.ops := by rw [ht]
  exact ⟨hkeys.trans (congrArg (fun ops => ({ (treeChanged i f w).keys with ops := ops.map (overtake (i :: w.descendants i)) } : Keys)) hops), hqueues.trans (by rw [ht]), hpond.trans (by rw [ht])⟩

theorem changeSlot_slot (w : State) (i : Nat) (f : Slot → Slot) (k : Nat) : (w.changeSlot i f).slot k = (treeChanged i f w).slot k := by
  unfold State.slot
  rw [(changeSlot_kept w i f).1]

end Change

/-- Settles O54: the slots of the changed tree, and what the change leaves alone. -/
theorem keyChangeRevokes : Obligations.KeyChangeRevokes := by
  intro w i f hw u
  obtain ⟨hkeys, hqueues, hpond⟩ := changeSlot_kept w i f
  obtain ⟨slots, ht⟩ := treeChanged_frame i f w
  have hlatched : (treeChanged i f w).keys.latched = w.keys.latched := by rw [ht]
  have hslot : ∀ k, u.slot k = _ := fun k => (changeSlot_slot w i f k).trans (treeChanged_slot hw k)
  refine ⟨(hslot i).trans (if_pos rfl), fun k hk => ?_, fun k hne hk => ?_, by rw [hkeys], by rw [hkeys]; exact hlatched, hqueues, hpond⟩
  · have hmem : k ∈ w.descendants i := by simpa using hk
    exact (hslot k).trans ((if_neg fun he : k = i => not_mem_descendants w i (he ▸ hmem)).trans (if_pos hmem))
  · exact (hslot k).trans ((if_neg hne).trans (if_neg (by simpa using hk)))

/-! ### The key commands (R432 to R439, R443) -/

section KeyCommands

variable {w : State}

/-- A parent under which the tree of slots stays one (R432). -/
def ParentFits (w : State) (slot parent : Nat) : Prop :=
  parent ≠ slot ∧ (w.descendants slot).contains parent = false ∧ w.depthUnder slot parent ≤ 8

theorem chkTree_ok {slot parent : Nat} (h : ParentFits w slot parent) : chkTree w slot parent = none := by
  obtain ⟨hne, hc, hd⟩ := h
  exact failIf_pass (by rw [hc, decide_eq_false (Nat.not_lt.mpr hd)]; simpa using hne) _ _

/-- What KEY_WRITE writes. -/
def writtenSlot (p : KeyWriteP) (x : Slot) : Slot := { x with key := p.key, usage := p.usage, parent := p.parent, st := 1 }

theorem startKeyWrite_ok {p : KeyWriteP} (hs : p.slot < 32) (hu : p.usage < 16) (hz : p.rsvd = 0) (hl : w.keys.latched = 0)
    (hp : p.parent = 255 ∨ p.parent < 32 ∧ w.slotValid p.parent = true ∧ ParentFits w p.slot p.parent)
    (hr : w.slotRuns p.slot = false) (hb : w.laneBound p.slot = false) :
    startKeyWrite p w = .done (w.changeSlot p.slot (writtenSlot p)) := by
  refine orAns_of_pass (checks_pass (failIf_pass ?_ _ _) (checks_pass (failIf_pass ?_ _ _) (checks_pass (failIf_pass ?_ _ _)
    (checks_pass ?_ (checks_pass (failIf_pass hr _ _) (failIf_pass hb _ _)))))) _
  · simp [hz, Nat.not_le.mpr hs, Nat.not_le.mpr hu]
  · simp [hl]
  · rcases hp with hp | ⟨hp, hv, -⟩
    · simp [hp]
    · simp [hp, hv]
  · rcases hp with hp | ⟨-, -, hp⟩
    · exact if_pos hp
    · rw [chkTree_ok hp, ite_self]

/-- While a tamper latch is set no key is written (R448). -/
theorem startKeyWrite_tampered {p : KeyWriteP} (hs : p.slot < 32) (hu : p.usage < 16) (hz : p.rsvd = 0) (hl : w.keys.latched ≠ 0) :
    startKeyWrite p w = .fail stTampered := by
  have hrange : failIf (decide (32 ≤ p.slot) || decide (16 ≤ p.usage) || p.rsvd != 0) stBadParam = none :=
    failIf_pass (by simp [hz, Nat.not_le.mpr hs, Nat.not_le.mpr hu]) _ _
  have hlatch : failIf (w.keys.latched != 0) stTampered = some (stTampered, 0) := if_pos (by simpa using hl)
  unfold startKeyWrite
  rw [hrange, hlatch]
  rfl

/-- The derivation that KEY_DERIVE begins (R434). -/
def derivation (p : KeyDeriveP) (w : State) : KeyOp :=
  { job := w.nextJob, slot := p.slot, parent := p.parent, derive_ := true, key := deriveKey (w.slot p.parent).key p.label p.context }

theorem startKeyDerive_ok {p : KeyDeriveP} (hs : p.slot < 32) (hp : p.parent < 32) (hu : p.usage < 16) (hl : p.label.length ≤ 64)
    (hc : p.context.length ≤ 64) (hz : p.rsvd = 0) (ht : w.keys.latched = 0) (hv : (w.slot p.parent).st = 1)
    (hb : bit (w.slot p.parent).usage 2 = true) (hf : ParentFits w p.slot p.parent) (hr : w.slotRuns p.slot = false) :
    startKeyDerive p w = .later { w with keys := { w.keys with ops := w.keys.ops ++ [derivation p w] } } .event := by
  refine orAns_of_pass (checks_pass (failIf_pass ?_ _ _) (checks_pass (failIf_pass ?_ _ _) (checks_pass (failIf_pass ?_ _ _)
    (checks_pass (chkTree_ok hf) (checks_pass (useSlot_ok hv hb) (failIf_pass hr _ _)))))) _
  · simp [hz, Nat.not_le.mpr hs, Nat.not_le.mpr hp, Nat.not_le.mpr hu, Nat.not_lt.mpr hl, Nat.not_lt.mpr hc]
  · simp [ht]
  · simp [hb]

theorem startKeyInvalidate_ok {p : KeyInvalidateP} (hs : p.slot < 32) (hz : p.rsvd = 0) :
    startKeyInvalidate p w = .done (w.changeSlot p.slot fun x => if x.st = 1 then { x with st := 2, key := 0 } else x) :=
  orAns_of_pass (failIf_pass (by simp [hz, Nat.not_le.mpr hs]) _ _) _

/-- A slot that is named for a use, or none (255). -/
def SlotFor (w : State) (use slot : Nat) : Prop := slot = 255 ∨ slot < 32 ∧ (w.slot slot).st = 1 ∧ bit (w.slot slot).usage use = true

theorem SlotFor.range {use slot : Nat} (h : SlotFor w use slot) : (decide (32 ≤ slot) && slot != 255) = false := by
  rcases h with h | ⟨h, -⟩
  · simp [h]
  · simp [Nat.not_le.mpr h]

theorem SlotFor.useSlot {use slot : Nat} (h : SlotFor w use slot) : (if slot = 255 then none else w.useSlot use slot) = none := by
  rcases h with h | ⟨-, hv, hu⟩
  · exact if_pos h
  · rw [useSlot_ok hv hu, ite_self]

theorem startQueueAuth_ok {p : QueueAuthP} (hq : p.queue < 10) (hz : p.rsvd = 0) (hs : SlotFor w 0 p.slot) :
    startQueueAuth p w = .done (w.setQueue p.queue { w.queue p.queue with
      macSlot := if p.slot = 255 then none else some p.slot, macSeq := none }) := by
  refine orAns_of_pass (checks_pass (failIf_pass ?_ _ _) hs.useSlot) _
  rw [hs.range, decide_eq_false (Nat.not_le.mpr hq), hz]
  rfl

theorem chkLaneCrypt_ok {p : LaneCryptSetP} (hd : p.dir < 2)
    (hx : (if p.dir = 0 then (w.rxStream p.point).isNone else (w.txStream p.point).isNone) = false) (hs : SlotFor w 1 p.slot) :
    chkLaneCrypt p w = none := by
  refine checks_pass (failIf_pass ?_ _ _) hs.useSlot
  rw [hs.range, decide_eq_false (Nat.not_le.mpr hd), hx]
  rfl

theorem startLaneCrypt_receive {p : LaneCryptSetP} (hd : p.dir = 0) (hx : (w.rxStream p.point).isSome = true) (hs : SlotFor w 1 p.slot) :
    startLaneCrypt p w = .later (w.setRxStream p.point ((w.rxStream p.point).map fun x =>
      { x with cryptNext := some (if p.slot = 255 then none else some p.slot) })) .event := by
  have hn : (w.rxStream p.point).isNone = false := by simp [← Option.not_isSome, hx]
  refine (orAns_of_pass (chkLaneCrypt_ok (by omega) ((if_pos hd).trans hn) hs) _).trans ((if_pos hd).trans ?_)
  rw [State.awaitCrypt, if_pos hd]
  rfl

theorem startLaneCrypt_transmit {p : LaneCryptSetP} (hd : p.dir = 1) (hx : (w.txStream p.point).isSome = true) (hs : SlotFor w 1 p.slot) :
    startLaneCrypt p w = .later w .apply (2 + p.point) := by
  have hn : (w.txStream p.point).isNone = false := by simp [← Option.not_isSome, hx]
  have hne : p.dir ≠ 0 := by omega
  exact (orAns_of_pass (chkLaneCrypt_ok (by omega) ((if_neg hne).trans hn) hs) _).trans (if_neg hne)

/-- What ATTEST answers (R443). -/
def attestation (p : AttestP) (w : State) : List Byte :=
  let body := beBytes 32 p.nonce ++ (List.range 16).map Config.uid ++ fwDigestBytes w.sys.image ++ sha256 w.routeTable ++
    leBytes 8 w.stc ++ leBytes 8 0
  body ++ hmac (w.slot p.slot).key body

theorem startAttest_ok {p : AttestP} (hs : p.slot < 32) (hz : p.rsvd = 0) (hl : w.keys.latched = 0) (hv : (w.slot p.slot).st = 1)
    (hu : bit (w.slot p.slot).usage 3 = true) :
    startAttest p w = .later { w with keys := { w.keys with
        ops := w.keys.ops ++ [{ job := w.nextJob, slot := p.slot, parent := p.slot, derive_ := false, key := 0 }] } }
      .event 0 [] (some (p.res, attestation p w)) :=
  orAns_of_pass (checks_pass (failIf_pass (by simp [hz, Nat.not_le.mpr hs]) _ _)
    (checks_pass (failIf_pass (by simp [hl]) _ _) (useSlot_ok hv hu))) _

/-- What TAMPER_SET stores (R445, R448). -/
def tamperSettings (p : TamperSetP) (w : State) : State :=
  { w with
    keys := { w.keys with enables := p.enables, latched := if p.clear then Nat.land w.keys.latched w.keys.active else w.keys.latched },
    sys := { w.sys with wakeEnables := w.sys.wakeEnables % 16 + 16 * p.wake } }

theorem startTamperSet_ok {p : TamperSetP} (he : p.enables < 128) (hk : p.wake < 2) (hz : p.rsvd = 0)
    (hc : p.clear = true ∨ Nat.land w.keys.enables (Nat.xor 127 (Nat.land p.enables 127)) = 0) :
    startTamperSet p w = .done (tamperSettings p w) := by
  have hclear : (Nat.land w.keys.enables (Nat.xor 127 (Nat.land p.enables 127)) != 0 && !p.clear) = false := by
    rcases hc with hc | hc
    · simp [hc]
    · rw [hc]
      rfl
  refine orAns_of_pass (failIf_pass ?_ _ _) _
  rw [hclear, hz, decide_eq_false (Nat.not_le.mpr he), decide_eq_false (Nat.not_le.mpr hk)]
  rfl

end KeyCommands

/-- Settles O15: each command from what its start answers when its checks pass. -/
theorem keyAndTamperCommands : Obligations.KeyAndTamperCommands := by
  refine ⟨fun s t h => ⟨fun p => ?_, fun p => ?_, fun p => ?_, fun p => ?_, fun p => ?_, fun p => ?_⟩,
    fun s t h => ⟨fun p => ?_, fun p => ?_, fun p => ?_, fun p => ?_⟩⟩
  · exact completes_of_start rfl fun w ⟨hs, hu, hz, hl, hp, hr, hb⟩ => startKeyWrite_ok hs hu hz hl hp hr hb
  · exact waits_of_start rfl rfl fun w ⟨hs, hp, hu, hl, hc, hz, ht, hv, hb, hne, hd, h8, hr⟩ =>
      startKeyDerive_ok hs hp hu hl hc hz ht hv hb ⟨hne, hd, h8⟩ hr
  · exact completes_of_start rfl fun w ⟨hs, hz⟩ => startKeyInvalidate_ok hs hz
  · exact completes_of_start rfl fun w ⟨hq, hz, hs⟩ => startQueueAuth_ok hq hz hs
  · exact waits_of_start rfl rfl fun w ⟨hd, hx, hs⟩ => startLaneCrypt_receive hd hx hs
  · exact waits_of_start rfl rfl fun w ⟨hd, hx, hs⟩ => startLaneCrypt_transmit hd hx hs
  · exact answers_of_start rfl fun _ _ => rfl
  · exact completes_of_start rfl fun w ⟨he, hk, hz, hc⟩ => startTamperSet_ok he hk hz hc
  · exact answers_of_start rfl fun _ _ => rfl
  · exact waitsFor_of_start rfl rfl fun w ⟨hs, hz, hl, hv, hu⟩ => startAttest_ok hs hz hl hv hu

theorem tamperSettings_latched {p : TamperSetP} (hc : p.clear = true) (w : State) (b : Nat) :
    bit (tamperSettings p w).keys.latched b = (bit w.keys.latched b && bit w.keys.active b) := by
  unfold tamperSettings
  dsimp only
  rw [if_pos hc]
  exact Nat.testBit_and _ _ b

/-- Settles O51: the latches after CLEAR bit by bit, and KEY_WRITE by whether one is set. -/
theorem tamperBitsClear : Obligations.TamperBitsClear := by
  intro s t h
  refine ⟨fun p hi hc he hk hz => ?_, fun p hi => ?_⟩
  · intro w
    refine ⟨tamperSettings p w, ?_, tamperSettings_latched hc w⟩
    exact congrArg Host.Outcome.next (completes_done hi (startTamperSet_ok he hk hz (.inl hc)))
  · intro w hs hu hp hz hr hb
    refine ⟨fun hl => ?_, fun hl => ?_⟩
    · exact congrArg Host.Outcome.next (completes_done hi (startKeyWrite_ok hs hu hz hl (.inl hp) hr hb))
    · exact start_refuses rfl hi (congrArg ansCheck (startKeyWrite_tampered hs hu hz hl))

/-! ### Zeroisation and tamper events (R444 to R449) -/

section Tamper

variable {s : State} {src : Nat}

/-- A slot as zeroisation leaves it. -/
def zeroised (x : Slot) : Slot := { x with key := 0, st := 3, gen := x.gen + 1 }

theorem zeroisedEach_eq (l : List Nat) (w : State) :
    State.each (fun i s => s.setSlot i { s.slot i with key := 0, st := 3, gen := (s.slot i).gen + 1 }) l w = slotsEach zeroised l w := rfl

/-- Zeroisation leaves the slots zeroised, no operation, and the modes and the time alone. -/
theorem zeroise_kept (w : State) :
    w.zeroise.keys = { (slotsEach zeroised (List.range 32) w).keys with ops := [] } ∧ w.zeroise.sys = w.sys ∧ w.zeroise.clk = w.clk := by
  obtain ⟨slots, hz⟩ := slotsEach_frame (g := zeroised) (List.range 32) w
  have hsys : (slotsEach zeroised (List.range 32) w).sys = w.sys := by rw [hz]
  have hclk : (slotsEach zeroised (List.range 32) w).clk = w.clk := by rw [hz]
  unfold State.zeroise
  dsimp only
  rw [zeroisedEach_eq]
  generalize slotsEach zeroised (List.range 32) w = v at hsys hclk ⊢
  simp [hsys, hclk]

theorem zeroise_slot {w : State} (hw : tblWf ({} : Slot) w.keys.slots = true) {i : Nat} (hi : i < 32) :
    w.zeroise.slot i = { w.slot i with key := 0, st := 3, gen := (w.slot i).gen + 1 } := by
  have hslots : w.zeroise.slot i = (slotsEach zeroised (List.range 32) w).slot i := by
    unfold State.slot
    rw [(zeroise_kept w).1]
  rw [hslots, slotsEach_slot List.nodup_range hw, if_pos (List.mem_range.mpr hi)]
  rfl

/-- The source is active. -/
def sourceActive (src : Nat) (s : State) : State := { s with keys := { s.keys with active := Nat.lor s.keys.active (2 ^ src) } }

/-- The alarm's cause is latched and counted (R447). -/
def alarmLatched (src : Nat) (s : State) : State :=
  { sourceActive src s with keys := { (sourceActive src s).keys with
    latched := Nat.lor s.keys.latched (2 ^ src), latchStc := if s.keys.latched = 0 then s.stc else s.keys.latchStc,
    pendingCount := min 255 (s.keys.pendingCount + 1) } }

/-- The alarm of an enabled source has been answered. -/
def alarmAnswered (src : Nat) (s : State) : State := (alarmLatched src s).zeroise.fire 984

theorem alarmAnswered_sys (src : Nat) (s : State) : (alarmAnswered src s).sys = s.sys :=
  (fire_sys _ _).trans (zeroise_kept (alarmLatched src s)).2.1

theorem alarmAnswered_now (src : Nat) (s : State) : (alarmAnswered src s).now = s.now :=
  congrArg Clk.mono ((fire_clk _ _).trans (zeroise_kept (alarmLatched src s)).2.2)

theorem doTamperAlarm_of_active (h : 7 ≤ src ∨ bit s.keys.active src = true) : doTamperAlarm src s = s :=
  if_pos (by rcases h with h | h <;> simp [h])

theorem doTamperAlarm_of_quiet (hs : src < 7) (ha : bit s.keys.active src = false) :
    doTamperAlarm src s =
      if !bit s.keys.enables src then sourceActive src s
      else if bit (alarmAnswered src s).sys.wakeEnables 4 then (alarmAnswered src s).beginWake else alarmAnswered src s :=
  if_neg (by simp [ha, Nat.not_le.mpr hs])

theorem doTamperAlarm_disabled (hs : src < 7) (ha : bit s.keys.active src = false) (he : bit s.keys.enables src = false) :
    doTamperAlarm src s = sourceActive src s :=
  (doTamperAlarm_of_quiet hs ha).trans (if_pos (by simp [he]))

theorem doTamperAlarm_enabled (hs : src < 7) (ha : bit s.keys.active src = false) (he : bit s.keys.enables src = true)
    (hw : bit s.sys.wakeEnables 4 = false ∨ s.sys.quiet ≠ .asleep) : doTamperAlarm src s = alarmAnswered src s := by
  refine (doTamperAlarm_of_quiet hs ha).trans ((if_neg (by simp [he])).trans ?_)
  rw [alarmAnswered_sys]
  rcases hw with hw | hw
  · exact if_neg (by simp [hw])
  · rw [beginWake_of_other (by rwa [alarmAnswered_sys]), ite_self]

/-- In Quiet an enabled alarm wakes the device where its wake is enabled (R445). -/
theorem doTamperAlarm_wakes (hs : src < 7) (ha : bit s.keys.active src = false) (he : bit s.keys.enables src = true)
    (hw : bit s.sys.wakeEnables 4 = true) (hq : s.sys.quiet = .asleep) :
    doTamperAlarm src s = ({ alarmAnswered src s with sys := { s.sys with quiet := .waking, wakeT := s.now } } : State).reloadEngines := by
  refine (doTamperAlarm_of_quiet hs ha).trans ((if_neg (by simp [he])).trans ?_)
  rw [alarmAnswered_sys, if_pos hw, beginWake_of_asleep (by rwa [alarmAnswered_sys]), wakingState, alarmAnswered_sys, alarmAnswered_now]

theorem doTamperInactive_clears (h : bit s.keys.active src = true) :
    doTamperInactive src s = { s with keys := { s.keys with active := s.keys.active - 2 ^ src } } := if_pos h

theorem doTamperInactive_stays (h : bit s.keys.active src = false) : doTamperInactive src s = s := if_neg (by simp [h])

theorem doTamperStore_stores (hf : s.firmwareRuns = true) (hn : s.sys.nvRecalling = false) (hp : 0 < s.keys.pendingCount) :
    doTamperStore s =
      let u := State.tallyTampers s.keys.pendingCount s
      ({ u with keys := { u.keys with pendingCount := 0 } } : State).audit 6 0 u.keys.latched 0 :=
  if_pos (by simp [hf, hn, hp])

theorem doTamperStore_of_none (hp : s.keys.pendingCount = 0) : doTamperStore s = s := if_neg (by simp [hp])

end Tamper

/-! ### The end of an operation (R434, R435) -/

section OperationEnd

variable {s : State} {id : Nat} {o : KeyOp}

/-- The operation of job `id` is gone. -/
def withoutOp (id : Nat) (s : State) : State := { s with keys := { s.keys with ops := s.keys.ops.filter fun x => x.job != id } }

theorem doKeyOpEnd_of_none (h : (s.keys.ops.find? fun y => y.job == id) = none) : doKeyOpEnd id s = s := by
  unfold doKeyOpEnd
  rw [h]

theorem doKeyOpEnd_of_found (h : (s.keys.ops.find? fun y => y.job == id) = some o) :
    doKeyOpEnd id s =
      let st := if o.changed then stKeyRevoked else stOk
      let child := (withoutOp id s).changeSlot o.slot fun x =>
        { x with key := o.key, usage := s.derivedUsage id, parent := o.parent, st := if o.changed then 2 else 1 }
      if o.derive_ then (if o.changed then child.fire 985 else child).completeId id st 0 none
      else (withoutOp id s).completeId id st 0 none := by
  unfold doKeyOpEnd
  rw [h]
  rfl

end OperationEnd

/-- Settles O41: zeroisation by its frame, an alarm by whether its source is enabled, an operation by its kind and what overtook it. -/
theorem keyStoreRows : Obligations.KeyStoreRows := by
  intro s t src id o rises latches alarms answered stores without child runs
  refine ⟨fun w hw => ⟨fun i hi => zeroise_slot hw hi, by rw [(zeroise_kept w).1]⟩, ?_, ?_, ?_, ?_, ?_, ?_, ?_, ?_, ?_, ?_, ?_, ?_, ?_⟩
  · exact events_of_event rfl fun w _ ⟨⟨hs, ha⟩, he⟩ => doTamperAlarm_disabled hs ha he
  · exact events_of_event rfl fun w _ ⟨⟨hs, ha⟩, he, hw⟩ => doTamperAlarm_enabled hs ha he hw
  · exact events_of_event rfl fun w _ ⟨⟨hs, ha⟩, he, hw, hq⟩ => doTamperAlarm_wakes hs ha he hw hq
  · exact events_of_event rfl fun w _ h => doTamperAlarm_of_active h
  · exact events_of_event rfl fun w _ h => doTamperInactive_clears h
  · exact events_of_event rfl fun w _ h => doTamperInactive_stays h
  · exact events_of_onEvent rfl fun w _ ⟨hf, hn, hp⟩ => doTamperStore_stores hf hn hp
  · exact events_of_onEvent rfl fun w _ h => doTamperStore_of_none h
  · exact events_of_event rfl fun w _ _ => rfl
  · exact events_of_onEvent rfl fun w _ ⟨hr, hd, hc⟩ => (doKeyOpEnd_of_found hr).trans (by rw [hd, hc]; rfl)
  · exact events_of_onEvent rfl fun w _ ⟨hr, hd, hc⟩ => (doKeyOpEnd_of_found hr).trans (by rw [hd, hc]; rfl)
  · exact events_of_onEvent rfl fun w _ ⟨hr, hd⟩ => (doKeyOpEnd_of_found hr).trans (by rw [hd]; rfl)
  · exact events_of_onEvent rfl fun w _ h => doKeyOpEnd_of_none h

end Sys2Proof.Laws
end

section
/-! Claims, the counter registers, and the counter and Control Hub commands (chapters 18 and 19). -/

namespace Sys2Proof.Laws

open Sys2Proof.Machine Sys2Proof.Claims

/-! ### CLAIM and COMPLETE (R484) -/

section Service

variable {s : State} {target i : Nat}

theorem doClaim_wins (ht : s.targetOk target = true) (hp : s.presentedTo target i = true) :
    doClaim target i s = ((s.winClaim target i).setClaim target i).emit (.read i) :=
  (if_neg (by simp [ht])).trans (if_pos hp)

theorem doClaim_loses (ht : s.targetOk target = true) (hp : s.presentedTo target i = false) :
    doClaim target i s = ((s.count 0 target 1).setClaim target 1023).emit (.read 1023) :=
  (if_neg (by simp [ht])).trans (if_neg (by simp [hp]))

theorem presentedTo_iff : s.presentedTo target i = true ↔ (s.source i).st = .pending ∧ bit (s.source i).mask target = true := by
  simp [State.presentedTo]

theorem not_presentedTo (h : (s.source i).st ≠ .pending ∨ bit (s.source i).mask target = false) : s.presentedTo target i = false := by
  refine Bool.eq_false_iff.mpr fun hp => ?_
  obtain ⟨hst, hm⟩ := presentedTo_iff.mp hp
  simp [hst, hm] at h

theorem doComplete_own (ht : s.targetOk target = true) (hc : (s.source i).claimant = target) : doComplete target i s = s.endService i :=
  if_pos (by simp [ht, hc])

theorem doComplete_other (hc : (s.source i).claimant ≠ target) : doComplete target i s = s := if_neg (by simp [hc])

theorem endService_of_active (h : (s.source i).st = .active) : s.endService i = s.setSource i { s.source i with st := .idle, claimant := 3 } := by
  unfold State.endService
  simp only [h]

theorem endService_of_activePending (h : (s.source i).st = .activePending) :
    s.endService i = (s.setSource i { s.source i with st := .pending, claimant := 3 }).presented i := by
  unfold State.endService
  simp only [h]

end Service

/-! ### CNT_SEL and CNT_VAL (R493, R494) -/

section Latches

variable {s : State} {cpb : Bool} {id : Nat}

/-- The user of a counter latch reaches it. -/
def latchReached (cpb : Bool) (s : State) : Bool := if cpb then s.cpbOk else s.hostOk

/-- A counter latch takes a value. -/
def latchSet (cpb : Bool) (l : CntLatch) (s : State) : State :=
  { s with hub := if cpb then { s.hub with latchB := l } else { s.hub with latchHost := l } }

/-- The counter that a latch has selected. -/
def latchSel (cpb : Bool) (s : State) : Nat := if cpb then s.hub.latchB.sel else s.hub.latchHost.sel

theorem doCntSel_there (h : latchReached cpb s = true) : doCntSel cpb id s = latchSet cpb (s.latch id) s := by
  cases cpb
  · exact if_pos h
  · exact if_pos h

theorem latch_live (hk : counterKnown id = true) (hf : s.cnt.frozen = none) :
    s.latch id = ⟨id, (fget {} s.cnt.live id : Counter).value.toNat, (fget {} s.cnt.live id : Counter).ovf, BitVec.ofNat 64 s.stc⟩ := by
  simp [State.latch, hk, State.readCounter, hf]

theorem latch_frozen {f : List (Nat × Counter)} {stc : BitVec 64} (hk : counterKnown id = true) (hf : s.cnt.frozen = some (f, stc)) :
    s.latch id = ⟨id, (fget {} f id : Counter).value.toNat, (fget {} f id : Counter).ovf, stc⟩ := by
  simp [State.latch, hk, State.readCounter, hf]

theorem latch_unknown (hk : counterKnown id = false) : s.latch id = { sel := id, stc := BitVec.ofNat 64 s.stc } := if_neg (by simp [hk])

theorem doOvfClear_known (h : latchReached cpb s = true) (hk : counterKnown (latchSel cpb s) = true) :
    doOvfClear cpb s = s.clearOvf (latchSel cpb s) := if_pos (Bool.and_eq_true_iff.mpr ⟨h, hk⟩)

theorem doOvfClear_unknown (hk : counterKnown (latchSel cpb s) = false) : doOvfClear cpb s = s :=
  if_neg fun h => by simpa [hk] using (Bool.and_eq_true_iff.mp h).2.symm.trans hk

end Latches

/-- Settles O19: a claim is won or lost as the source is presented or not, a service ends for its claimant alone, and each latch takes what its
counter reads. -/
theorem interruptAndCounterRegisters : Obligations.InterruptAndCounterRegisters := by
  unfold Obligations.InterruptAndCounterRegisters
  refine ⟨fun s t target i => ⟨?_, ?_, ?_, ?_, ?_⟩, fun s t cpb id_ => ⟨?_, fun f st => ?_, ?_, ?_, ?_, ?_⟩⟩
  · exact events_of_event rfl fun w _ ⟨ht, hst, hm⟩ => doClaim_wins ht (presentedTo_iff.mpr ⟨hst, hm⟩)
  · exact events_of_event rfl fun w _ ⟨ht, hn⟩ => doClaim_loses ht (not_presentedTo hn)
  · exact events_of_event rfl fun w _ ⟨ht, hc, hst⟩ => (doComplete_own ht hc).trans (endService_of_active hst)
  · exact events_of_event rfl fun w _ ⟨ht, hc, hst⟩ => (doComplete_own ht hc).trans (endService_of_activePending hst)
  · exact events_of_event rfl fun w _ ⟨_, hc⟩ => doComplete_other hc
  · exact events_of_event rfl fun w _ ⟨ht, hk, hf⟩ => (doCntSel_there ht).trans (congrArg (latchSet cpb · w) (latch_live hk hf))
  · exact events_of_event rfl fun w _ ⟨ht, hk, hf⟩ => (doCntSel_there ht).trans (congrArg (latchSet cpb · w) (latch_frozen hk hf))
  · exact events_of_event rfl fun w _ ⟨ht, hk⟩ => (doCntSel_there ht).trans (congrArg (latchSet cpb · w) (latch_unknown hk))
  · exact events_of_event rfl fun w _ ⟨ht, hk⟩ => doOvfClear_known ht hk
  · exact events_of_event rfl fun w _ ⟨_, hk⟩ => doOvfClear_unknown hk
  · exact events_of_event rfl fun w _ ht => if_pos ht

/-! ### Starts of the counter and hub commands -/

section Starts

variable {w : State} {q : Nat} {h : Hdr}

theorem startCounterRead_ok {p : CounterReadP} (h0 : p.ids ≠ []) (hl : p.ids.length ≤ 4096) (hz : p.rsvd = 0)
    (hk : ∀ i ∈ p.ids, counterKnown i = true) :
    startCounterRead p w = .result (if p.clearOvf then State.each (fun i s => s.clearOvf i) p.ids w else w) p.res
      (p.ids.flatMap fun i => counterBytes (w.readCounter i)) :=
  orAns_of_pass (failIf_pass (by simpa [hz, hl, h0] using hk) _ _) _

theorem readCounter_bytes (i : Nat) : counterBytes (w.readCounter i) = match w.cnt.frozen with
    | some (f, stc) => leBytes 8 ((fget {} f i : Counter).value.toNat + b2n (fget {} f i : Counter).ovf * 2 ^ 48) ++ leBytes 8 stc.toNat
    | none => leBytes 8 ((fget {} w.cnt.live i : Counter).value.toNat + b2n (fget {} w.cnt.live i : Counter).ovf * 2 ^ 48) ++ leBytes 8 w.stc := by
  unfold State.readCounter counterBytes
  cases w.cnt.frozen <;> rfl

theorem startSnapshot_ok {p : CounterSnapshotP} (ho : p.op < 2) (hz : p.rsvd = 0) : startSnapshot p w =
    .done { w with cnt := { w.cnt with frozen := if p.op = 1 then some (w.cnt.live, BitVec.ofNat 64 w.stc) else none } } :=
  orAns_of_pass (failIf_pass (by simp [hz]; omega) _ _) _

theorem startMonitorSet_ok {p : MonitorSetP} (hm : p.monitor < 2048) (hp : portKnown p.port = true) (hr : (w.raster? p.raster).isSome = true)
    (hl : p.lines < 65536) : startMonitorSet p w = .done (w.setMonitor p.monitor
      (if p.lines = 0 then { w.monitor p.monitor with running := false, open_ := false, due := false }
       else { running := true, port := p.port, raster := p.raster, lines := p.lines })) :=
  orAns_of_pass (failIf_pass (by simp [hp, hr, hm, hl]) _ _) _

theorem startMonitorRead_ok {p : MonitorReadP} (hf : p.first < 2048) (h1 : 1 ≤ p.count) (hs : p.first + p.count ≤ 2048) :
    startMonitorRead p w = .result w p.res ((List.range p.count).flatMap fun i =>
      leBytes 8 (w.monitor (p.first + i)).lastBytes ++ leBytes 8 (w.monitor (p.first + i)).lastStart.toNat ++
      leBytes 8 (w.monitor (p.first + i)).lastEnd.toNat) :=
  orAns_of_pass (failIf_pass (by simp; omega) _ _) _

theorem startEventRoute_ok {p : EventRouteP} (hf : p.first < 1023) (h1 : 1 ≤ p.count) (hs : p.first + p.count ≤ 1023) (ht : p.targets < 8)
    (hc : p.cls < 2) (hz : p.rsvd = 0) :
    startEventRoute p w = .done (State.each (routeSource p.targets p.cls) ((List.range p.count).map (p.first + ·)) w) :=
  orAns_of_pass (failIf_pass (by simp [hz]; omega) _ _) _

/-- The pins of CP_B's own are queue 8's alone to set. -/
theorem ownerPass {cpb : Bool} (hq : cpb = true → q = 8) : (cpb && q != 8) = false := by
  cases cpb
  · rfl
  · simp [hq rfl]

theorem startGpioSet_ok {p : GpioSetP} (hp : p.pin < 16) (hd : p.dir < 3) (hl : p.level < 2) (ho : p.owner < 2)
    (hq : (w.gpio p.pin).cpb = true → q = 8) : startGpioSet ⟨q, h⟩ p w =
      .done (w.setGpio p.pin { w.gpio p.pin with dir := p.dir, level := p.level == 1, cpb := p.owner == 1 }) :=
  orAns_of_pass (checks_pass (failIf_pass (by simp; omega) _ _) (failIf_pass (ownerPass hq) _ _)) _

theorem startGpioEdge_ok {p : GpioEdgeP} (hq : ∀ i < 16, bit p.mask i = true → (w.gpio i).cpb = true → q = 8) :
    startGpioEdge ⟨q, h⟩ p w = .done (w.drive p.mask p.value) := by
  refine orAns_of_pass (failIf_pass (List.any_eq_false.mpr fun i hi => ?_) _ _) _
  rw [Bool.and_assoc]
  cases hb : bit p.mask i
  · simp
  · simpa using hq i (List.mem_range.mp hi) hb

theorem startCpbLoad_ok {p : CpbLoadP} (hq : q < 8) (hz : p.rsvd = 0) (h36 : 36 ≤ p.bytes) (h4 : p.bytes % 4 = 0)
    (ha : p.addr + p.bytes ≤ 1048576) (hi : p.image.length = p.bytes) (hr : w.hub.cpB.running = false) :
    startCpbLoad ⟨q, h⟩ p w = .later (w.sramWrite p.addr (p.image.take (p.bytes - 32))) .event :=
  orAns_of_pass (checks_pass (failIf_pass (by simp [hz, h4, hi]; omega) _ _) (failIf_pass hr _ _)) _

/-- CPB_CTRL acts on queues 0 to 7 as its operation says. -/
theorem startCpbCtrl_halts {p : CpbCtrlP} (hq : q < 8) (ho : p.op = 0) (hz : p.rsvd = 0) : startCpbCtrl ⟨q, h⟩ p w =
    .done (if w.hub.cpB.running then (w.setCpb { w.hub.cpB with running := false }).fire 7 else w) := by
  refine (orAns_of_pass (failIf_pass (by simp [hz, ho]; omega) _ _) _).trans ?_
  simp only [ho]

theorem startCpbCtrl_starts {p : CpbCtrlP} (hq : q < 8) (ho : p.op = 1) (hz : p.rsvd = 0) (h4 : p.entry % 4 = 0) (he : p.entry < 1048576) :
    startCpbCtrl ⟨q, h⟩ p w = .done (if w.hub.cpB.running then w else if w.hub.cpB.fresh then w.startCpb p.entry
      else w.setCpb { w.hub.cpB with running := true }) := by
  refine (orAns_of_pass (failIf_pass (by simp [hz, ho, h4]; omega) _ _) _).trans ?_
  simp only [ho]

theorem startCpbCtrl_resets {p : CpbCtrlP} (hq : q < 8) (ho : p.op = 2) (hz : p.rsvd = 0) : startCpbCtrl ⟨q, h⟩ p w =
    .done (if w.hub.cpB.running then w.resetCpb.fire 7 else w.resetCpb) := by
  refine (orAns_of_pass (failIf_pass (by simp [hz, ho]; omega) _ _) _).trans ?_
  simp only [ho]

end Starts

/-- Settles O17: each command's checks pass as its chapter states them, and its start then has the effect or the answer. -/
theorem counterAndHubCommands : Obligations.CounterAndHubCommands := by
  unfold Obligations.CounterAndHubCommands
  refine ⟨fun s t h => ⟨fun p => ?_, fun p => ?_, fun p => ?_, fun p => ?_⟩,
    fun s t h => ⟨fun p => ?_, fun p => ?_, fun p => ?_, fun p => ?_, fun p => ?_, fun p => ?_, fun p => ?_, fun p => ?_⟩⟩
  · refine answers_of_start rfl fun w ⟨h0, hl, hz, hk⟩ => (startCounterRead_ok h0 hl hz hk).trans ?_
    exact congrArg _ (List.flatMap_congr fun i _ => readCounter_bytes i)
  · exact completes_of_start rfl fun w ⟨ho, hz⟩ => startSnapshot_ok ho hz
  · exact completes_of_start rfl fun w ⟨hm, hp, hr, hl⟩ => startMonitorSet_ok hm hp hr hl
  · exact answers_of_start rfl fun w ⟨hf, h1, hs⟩ => startMonitorRead_ok hf h1 hs
  · exact completes_of_start rfl fun w ⟨hf, h1, hs, ht, hc, hz⟩ => startEventRoute_ok hf h1 hs ht hc hz
  · exact completes_of_start rfl fun w ⟨hp, hd, hl, ho, hq⟩ => startGpioSet_ok hp hd hl ho hq
  · exact completes_of_start rfl fun w hq => startGpioEdge_ok hq
  · exact answers_of_start rfl fun w _ => rfl
  · exact waits_of_start rfl rfl fun w ⟨hq, hz, h36, h4, ha, hi, hr⟩ => startCpbLoad_ok hq hz h36 h4 ha hi hr
  · exact completes_of_start rfl fun w ⟨hq, ho, hz⟩ => startCpbCtrl_halts hq ho hz
  · exact completes_of_start rfl fun w ⟨hq, ho, hz, h4, he⟩ => startCpbCtrl_starts hq ho hz h4 he
  · exact completes_of_start rfl fun w ⟨hq, ho, hz⟩ => startCpbCtrl_resets hq ho hz

/-! ### Lockstep mismatches and the end of a restart (R476, R489) -/

section Restarts

variable {s : State}

/-- A mismatch of CP_A that a restart does not contain (R476, R514). -/
def GraveMismatch (s : State) : Prop :=
  s.sys.mode = .quiet ∨ s.sys.restart = true ∨ (s.sys.faultRestartEnd.any fun e => decide (s.now < e + 270000000)) = true

theorem graveMismatch_iff : GraveMismatch s ↔
    (s.sys.mode = .quiet || s.sys.restart || s.sys.faultRestartEnd.any (fun e => decide (s.now < e + 270000000))) = true := by
  simp [GraveMismatch, or_assoc]

theorem mismatchA_fails (hm : s.sys.mode ≠ .failed) (hg : GraveMismatch s) : s.mismatchA = s.enterFailed 5 0 0 :=
  (if_neg hm).trans (if_pos (graveMismatch_iff.mp hg))

theorem mismatchA_restarts (hm : s.sys.mode ≠ .failed) (hg : ¬ GraveMismatch s) : s.mismatchA = (s.latchFault 5 0 0).beginRestart true :=
  (if_neg hm).trans (if_neg fun h => hg (graveMismatch_iff.mpr h))

/-- The restart is over, and source 1 has fired. -/
def restartOver (s : State) : State :=
  { s with sys := { s.sys with
    restart := false, faultRestartEnd := if s.sys.restartByFault then some s.now else none } }.fire 1

/-- What the end of a restart does for a job that waits for it. -/
def restartServes (j : Job) (s : State) : State :=
  match j.params with
  | .sysRestart _ => s.complete j stOk 0 none
  | .sysMode p =>
    match s.modeEffect (modeOf p.mode) (some j.id) with
    | ((st, d), s') => s'.complete j st d (some j.raster)
  | _ => s

theorem doRestartEnd_of_restart (h : s.sys.restart = true) :
    doRestartEnd s = State.each restartServes (s.jobs.filter fun j => j.kind == .event) (restartOver s) := by
  have hj : (restartOver s).jobs = s.jobs := fire_jobs _ _
  rw [← hj]
  exact if_pos h

theorem doRestartEnd_alone (h : s.sys.restart = true) (hl : (s.jobs.filter fun j => j.kind == .event) = []) : doRestartEnd s = restartOver s := by
  rw [doRestartEnd_of_restart h, hl]; rfl

theorem doRestartEnd_completes {j : Job} {r : SysRestartP} (h : s.sys.restart = true) (hl : (s.jobs.filter fun j => j.kind == .event) = [j])
    (hp : j.params = .sysRestart r) : doRestartEnd s = (restartOver s).complete j stOk 0 none := by
  rw [doRestartEnd_of_restart h, hl]
  show restartServes j (restartOver s) = _
  unfold restartServes
  simp only [hp]

theorem doRestartEnd_stays (h : s.sys.restart = false) : doRestartEnd s = s := if_neg (by simp [h])

end Restarts

/-! ### A load's check, GPIO edges and monitor windows (R479, R480, R497) -/

section HubEvents

variable {s : State} {j : Job} {p : CpbLoadP} {pin m bytes : Nat} {level : Bool}

theorem doLoadChecked_of_none (h : s.loadJob = none) : doLoadChecked s = s := by
  unfold doLoadChecked; rw [h]

theorem doLoadChecked_fails {st d : Nat} (h : s.loadJob = some (j, p)) (hc : s.chkImage p = some (st, d)) :
    doLoadChecked s = (s.sramWrite p.addr (List.replicate (p.bytes - 32) 0)).complete j st d none := by
  unfold doLoadChecked; rw [h]; simp only [hc]

theorem doLoadChecked_passes (h : s.loadJob = some (j, p)) (hc : s.chkImage p = none) :
    doLoadChecked s = (if p.start then s.startCpb p.addr else s).complete j stOk 0 none := by
  unfold doLoadChecked; rw [h]; simp only [hc]

theorem doGpioInput_moves (hs : s.sys.stage ≠ .inReset) (hp : pin < 16) (hl : (s.gpio pin).input ≠ level) :
    doGpioInput pin level s = if (s.gpio pin).dir = 0 then
        (s.setGpio pin { s.gpio pin with input := level, edgeStc := s.stc % 2 ^ 48, edgeLevel := level }).fire (8 + pin)
      else s.setGpio pin { s.gpio pin with input := level } := if_neg (by simp [hs, hp, hl])

theorem doGpioInput_same (hl : (s.gpio pin).input = level) : doGpioInput pin level s = s := if_pos (by simp [hl])

theorem doMonitorClose_stores (hr : (s.monitor m).running = true) (hd : (s.monitor m).due = true) :
    doMonitorClose m bytes s = (s.setMonitor m { s.monitor m with
      due := false, startStc := (s.monitor m).edge, lastBytes := bytes, lastStart := (s.monitor m).startStc,
      lastEnd := (s.monitor m).edge }).count 15 m 0 := if_pos (by simp [hr, hd])

theorem doMonitorClose_idle (h : (s.monitor m).running = false ∨ (s.monitor m).due = false) : doMonitorClose m bytes s = s :=
  if_neg (by simpa [Classical.or_iff_not_imp_left] using h)

end HubEvents

/-! ### Interrupt entry and exit (R486 to R488, Table 18.3) -/

section Interrupts

variable {s : State} {cp id : Nat} {b : Bool} {y : Core}

theorem doNormal_enters (hc : s.coreOk cp = true) (hq : (s.core cp).seq = .run) (hr : s.normalReady cp = true) :
    doNormal cp s = s.setCore cp { s.core cp with seq := .entryNormal } := if_pos (by simp [hc, hq, hr])

theorem doNormal_waits (hr : s.normalReady cp = false) : doNormal cp s = s := if_neg (by simp [hr])

/-- A FAST interrupt of source `id` can be recognised: it is enabled and the lowest presented (R486). -/
structure FastReady (s : State) (cp id : Nat) : Prop where
  runs : s.coreOk cp = true
  enabled : (s.core cp).mie.getLsbD 16 = true
  fie : fie (s.core cp) = true
  first : s.firstPresented cp true = some id

theorem doFast_claims {q : CoreSeq} (h : FastReady s cp id) (hq : fastFrom (s.core cp).seq (s.core cp).inFast id = some q) :
    doFast cp s = (s.winClaim cp id).setCore cp { s.core cp with seq := q } := by
  obtain ⟨hc, he, hf, hp⟩ := h
  refine (if_neg (by simp [hc, he, hf])).trans ?_
  simp only [hp, hq]

theorem doFast_of_none (hp : s.firstPresented cp true = none) : doFast cp s = s := by
  unfold doFast
  simp only [hp, ite_self]

theorem fastFrom_run {inFast : Bool} (h : inFast = false) : fastFrom .run inFast id = some (.entryFast id false) := if_neg (by simp [h])

theorem doEntryCommit_normal (hc : s.coreOk cp = true) (hq : (s.core cp).seq = .entryNormal) :
    doEntryCommit cp s = s.setCore cp (trapEntry (s.core cp) 11 true 0) := by
  refine (if_neg (by simp [hc])).trans ?_
  simp only [hq]

theorem doEntryCommit_fast (hc : s.coreOk cp = true) (hq : (s.core cp).seq = .entryFast id b) :
    doEntryCommit cp s = s.setCore cp (fastEntry (s.core cp) id) := by
  refine (if_neg (by simp [hc])).trans ?_
  simp only [hq]

theorem doEntryCommit_run (hq : (s.core cp).seq = .run) : doEntryCommit cp s = s := by
  unfold doEntryCommit
  simp only [hq, ite_self]

/-- A NORMAL interrupt enters with cause 11, through its vector where mtvec asks for one. -/
theorem trapEntry_interrupt (y : Core) : trapEntry y 11 true 0 = { y with
    mepc := y.pc, mcause := BitVec.ofNat 64 (2 ^ 63 + 11), mtval := 0, mstatus := trapStatus y, priv := 3, seq := .run,
    pc := BitVec.ofNat 64 (if y.mtvec.toNat % 4 = 1 then y.mtvec.toNat / 4 * 4 + 44 else y.mtvec.toNat / 4 * 4) } := by
  unfold trapEntry
  simp only [Bool.true_and, beq_iff_eq, if_true]

theorem doMret_normal (hc : s.coreOk cp = true) (hq : (s.core cp).seq = .run) (hp : (s.core cp).priv = 3) (hf : (s.core cp).inFast = false) :
    doMret cp s = s.setCore cp { s.core cp with seq := .exitNormal none } :=
  (if_neg (by simp [hc, hq, hp])).trans (if_neg (by simp [hf]))

theorem doMret_fast (hc : s.coreOk cp = true) (hq : (s.core cp).seq = .run) (hp : (s.core cp).priv = 3) (hf : (s.core cp).inFast = true)
    (hi : (s.core cp).fastId = some id) {v : State} (hv : (if (s.source id).claimant = cp then s.endService id else s) = v) :
    doMret cp s = v.setCore cp { v.core cp with seq := .exitFast none } := by
  refine ((if_neg (by simp [hc, hq, hp])).trans (if_pos hf)).trans ?_
  simp only [hi, hv]

theorem doMret_stays (h : (s.core cp).seq ≠ .run ∨ (s.core cp).priv ≠ 3) : doMret cp s = s := if_pos (by
  rcases h with h | h <;> simp [h])

theorem doExitCommit_normal {c : Option Nat} (hc : s.coreOk cp = true) (hq : (s.core cp).seq = .exitNormal c) :
    doExitCommit cp s = s.afterExit cp (normalExit (s.core cp)) c := by
  refine (if_neg (by simp [hc])).trans ?_
  simp only [hq]

theorem doExitCommit_fast {c : Option Nat} (hc : s.coreOk cp = true) (hq : (s.core cp).seq = .exitFast c) :
    doExitCommit cp s = s.afterExit cp (fastExit (s.core cp)) c := by
  refine (if_neg (by simp [hc])).trans ?_
  simp only [hq]

theorem doExitCommit_run (hq : (s.core cp).seq = .run) : doExitCommit cp s = s := by
  unfold doExitCommit
  simp only [hq, ite_self]

theorem afterExit_returns (h : (s.setCore cp { y with seq := .run }).normalReady cp = false) :
    s.afterExit cp y none = s.setCore cp { y with seq := .run } := if_neg (by simp [h])

theorem afterExit_enters (h : (s.setCore cp { y with seq := .run }).normalReady cp = true) :
    s.afterExit cp y none = (s.setCore cp { y with seq := .run }).setCore cp { y with seq := .entryNormal } := if_pos h

end Interrupts

/-- Settles O37: a mismatch restarts, fails or resets; a load, an edge and a window end as their tests say; and each row of Table 18.3 moves the
processor from where its sequence stands. -/
theorem controlAndInterruptRows : Obligations.ControlAndInterruptRows := by
  unfold Obligations.ControlAndInterruptRows
  refine ⟨fun s t j p r st d pin m bytes level => ⟨?_, ?_, ?_, ?_, ?_, ?_, ?_, ?_, ?_, ?_, ?_, ?_, fun hp => ⟨?_, ?_, ?_⟩, ?_, ?_⟩,
    fun s t cp id b => ⟨?_, ?_, ?_, ?_, ?_, ?_, ?_, ?_, ?_, ?_, ?_, ?_, ?_, ?_, ?_, ?_, ?_, ?_, ?_, ?_⟩⟩
  · exact events_of_onEvent rfl fun w _ ⟨hm, hg⟩ => mismatchA_fails hm hg
  · refine events_of_onEvent rfl fun w _ ⟨hm, hg⟩ => (mismatchA_restarts hm hg).trans ?_
    unfold State.beginRestart State.dropApart
    dsimp only
  · exact events_of_onEvent rfl fun w _ hm => if_pos hm
  · exact events_of_onEvent rfl fun w _ hc => if_pos hc
  · exact events_of_onEvent rfl fun w _ hc => if_neg (by simp [hc])
  · exact events_of_onEvent rfl fun w _ ⟨hr, hl⟩ => doRestartEnd_alone hr hl
  · exact events_of_onEvent rfl fun w _ ⟨hr, hl, hp⟩ => doRestartEnd_completes hr hl hp
  · exact events_of_onEvent rfl fun w _ hr => doRestartEnd_stays hr
  · exact events_of_onEvent rfl fun w _ ⟨hj, hc⟩ => doLoadChecked_fails hj hc
  · exact events_of_onEvent rfl fun w _ ⟨hj, hc, hs⟩ => (doLoadChecked_passes hj hc).trans (by rw [hs]; rfl)
  · exact events_of_onEvent rfl fun w _ ⟨hj, hc, hs⟩ => (doLoadChecked_passes hj hc).trans (by rw [hs]; rfl)
  · exact events_of_onEvent rfl fun w _ hj => doLoadChecked_of_none hj
  · exact events_of_event rfl fun w hw ⟨hl, hd⟩ => (doGpioInput_moves hw hp hl).trans (if_pos hd)
  · exact events_of_event rfl fun w hw ⟨hl, hd⟩ => (doGpioInput_moves hw hp hl).trans (if_neg hd)
  · exact events_of_event rfl fun w _ hl => doGpioInput_same hl
  · exact events_of_onEvent rfl fun w _ ⟨hr, hd⟩ => doMonitorClose_stores hr hd
  · exact events_of_onEvent rfl fun w _ h => doMonitorClose_idle h
  · exact events_of_onEvent rfl fun w _ ⟨⟨hc, hq⟩, hr⟩ => doNormal_enters hc hq hr
  · exact events_of_onEvent rfl fun w _ hr => doNormal_waits hr
  · exact events_of_onEvent rfl fun w _ ⟨⟨hc, he, hf, hi⟩, hq, hn⟩ => doFast_claims ⟨hc, he, hf, hi⟩ (by rw [hq]; exact fastFrom_run hn)
  · exact events_of_onEvent rfl fun w _ ⟨⟨hc, he, hf, hi⟩, hq⟩ => doFast_claims ⟨hc, he, hf, hi⟩ (by rw [hq]; rfl)
  · exact events_of_onEvent rfl fun w _ ⟨⟨hc, he, hf, hi⟩, hq⟩ => doFast_claims ⟨hc, he, hf, hi⟩ (by rw [hq]; rfl)
  · exact events_of_onEvent rfl fun w _ ⟨⟨hc, he, hf, hi⟩, hq⟩ => doFast_claims ⟨hc, he, hf, hi⟩ (by rw [hq]; rfl)
  · exact events_of_onEvent rfl fun w _ hi => doFast_of_none hi
  · exact events_of_onEvent rfl fun w _ ⟨hc, hq⟩ => (doEntryCommit_normal hc hq).trans (congrArg (w.setCore cp) (trapEntry_interrupt _))
  · exact events_of_onEvent rfl fun w _ ⟨hc, hq⟩ => doEntryCommit_fast hc hq
  · exact events_of_onEvent rfl fun w _ ⟨_, hq⟩ => doEntryCommit_run hq
  · exact events_of_onEvent rfl fun w _ ⟨⟨hc, hq⟩, hp, hf⟩ => doMret_normal hc hq hp hf
  · exact events_of_onEvent rfl fun w _ ⟨⟨hc, hq⟩, hp, hf, hi, hn⟩ => doMret_fast hc hq hp hf hi (if_neg hn)
  · exact events_of_onEvent rfl fun w _ ⟨⟨hc, hq⟩, hp, hf, hi, hn⟩ => doMret_fast hc hq hp hf hi (if_pos hn)
  · exact events_of_onEvent rfl fun w _ h => doMret_stays h
  · exact events_of_onEvent rfl fun w _ ⟨⟨hc, hq⟩, hr⟩ => (doExitCommit_normal hc hq).trans (afterExit_returns hr)
  · exact events_of_onEvent rfl fun w _ ⟨⟨hc, hq⟩, hr⟩ => (doExitCommit_normal hc hq).trans (afterExit_enters hr)
  · exact events_of_onEvent rfl fun w _ ⟨hc, hq⟩ => doExitCommit_normal hc hq
  · exact events_of_onEvent rfl fun w _ ⟨⟨hc, hq⟩, hr⟩ => (doExitCommit_fast hc hq).trans (afterExit_returns hr)
  · exact events_of_onEvent rfl fun w _ ⟨hc, hq⟩ => doExitCommit_fast hc hq
  · exact events_of_onEvent rfl fun w _ ⟨_, hq⟩ => doExitCommit_run hq

end Sys2Proof.Laws
end

section
/-! The commands of the references, the synthesizers and the clock outputs (chapter 15). -/

namespace Sys2Proof.Laws

open Sys2Proof.Machine Sys2Proof.Claims

section Starts

variable {w : State}

/-- A table of bands below its ceiling, for a synthesizer whose VCO fits and that neither retunes nor searches (R417). -/
structure BandsFit (p : BandTableSetP) (w : State) : Prop where
  known : (isHouse p.synth || isLane p.synth || isOutlet p.synth) = true
  rsvd : p.rsvd = 0
  some_ : p.entries ≠ []
  few : p.entries.length ≤ 64
  bands : ∀ e ∈ p.entries, e.2 < 64
  ordered : ascending p.entries = true
  below : ∀ e, p.entries.getLast? = some e → e.1 < p.ceiling
  vco : w.vco p.synth (w.synth p.synth) ≤ p.ceiling
  steady : (w.synth p.synth).retuning = false
  still : (w.synth p.synth).searching = false

theorem BandsFit.last_below {p : BandTableSetP} (h : BandsFit p w) : (p.entries.getLast?.any fun e => decide (p.ceiling ≤ e.1)) = false := by
  cases hl : p.entries.getLast? with
  | none => rfl
  | some e => simpa using h.below e hl

theorem startBandTable_ok {p : BandTableSetP} (h : BandsFit p w) : startBandTable p w =
    .done (w.setSynth p.synth { w.synth p.synth with ceiling := some p.ceiling, table := p.entries }) := by
  have hb : (p.entries.all fun e => decide (e.2 < 64)) = true := by simpa using h.bands
  have hl := h.last_below
  exact orAns_of_pass (checks_pass
    (failIf_pass (by simp [h.known, h.rsvd, h.some_, h.few, hb, h.ordered, hl, h.vco]) _ _)
    (failIf_pass (by simp [h.steady, h.still]) _ _)) _

theorem startClkoutSync_ok {p : ClkoutSyncP} (ho : isOutlet p.synth = true) (hz : p.rsvd = 0) (hm : (w.synth p.synth).phaseMode = 0) :
    startClkoutSync p w = .done (w.resetDividers p.synth) :=
  orAns_of_pass (checks_pass (failIf_pass (by simp [ho, hz]) _ _) (failIf_pass (by simp [hm]) _ _)) _

end Starts

/-- Settles O13: once its checks have passed, each command's start sets what it names and stores its slice of the clock record. -/
theorem referenceAndOutletCommands : Obligations.ReferenceAndOutletCommands := by
  unfold Obligations.ReferenceAndOutletCommands
  refine fun s t h => ⟨fun p => ?_, fun p => ?_, fun p => ?_, fun p => ?_, fun p => ?_, fun p => ?_⟩
  · exact completes_of_start rfl fun w hc => orAns_of_pass hc _
  · exact completes_of_start rfl fun w hc => orAns_of_pass hc _
  · exact completes_of_start rfl fun w ⟨hk, hz, h0, hf, hb, ho, hl, hv, hr, hs⟩ => startBandTable_ok ⟨hk, hz, h0, hf, hb, ho, hl, hv, hr, hs⟩
  · exact completes_of_start rfl fun w hc => orAns_of_pass hc _
  · exact completes_of_start rfl fun w ⟨ho, hz, hm⟩ => startClkoutSync_ok ho hz hm
  · exact answers_of_start rfl fun w _ => rfl

end Sys2Proof.Laws
end

section
/-! The pair's commands, and the commands that a LEAD forwards to its MATE (chapter 14). -/

namespace Sys2Proof.Laws

open Sys2Proof.Machine Sys2Proof.Claims

/-! ### Starts of the pair's commands -/

section Starts

variable {w : State}

/-- The member has taken the role that PAIR_SET names. -/
def pairJoined (p : PairSetP) (w : State) : State :=
  if w.pair.role = .solo then
    (w.setPair { w.pair with role := if p.role = 1 then .lead else .mate, authority := p.role == 1,
                             adopt := p.role == 2 && w.pair.up, mateFailed := false }).fire 977
  else w

/-- The link is up, the partner's counts agree, and none are left to adopt (R380). -/
def pairSettled (p : PairSetP) (w : State) : Bool :=
  w.pair.up && w.pair.hello.isSome && w.pair.deltaA = 0 && w.pair.deltaB = 0 && !(pairJoined p w).pair.adopt

theorem startPairSet_leaves {p : PairSetP} (hr : p.role = 0) (hz : p.rsvd = 0) (hw : (w.routes.routes.any fun e => e.2.isSome) = false) :
    startPairSet p w = .done (if w.pair.role = .solo then w
      else (w.dropApart.setPair { w.dropApart.pair with role := .solo, authority := false, adopt := false, taint := [] }).fire 977) :=
  (orAns_of_pass (checks_pass (failIf_pass (by simp [hr, hz]) _ _) (failIf_pass hw _ _)) _).trans (if_pos hr)

theorem startPairSet_joins {p : PairSetP} (hr : p.role = 1 ∨ p.role = 2) (hz : p.rsvd = 0)
    (hs : w.pair.role = .solo ∨ w.pair.role.code = p.role) (hw : (w.routes.routes.any fun e => e.2.isSome) = false) :
    startPairSet p w = if pairSettled p w then .done (pairJoined p w) else .later (pairJoined p w) .event := by
  have h3 : ¬ 3 ≤ p.role := by omega
  have h0 : p.role ≠ 0 := by omega
  have hc : (w.pair.role != .solo && w.pair.role.code != p.role) = false := by rcases hs with hs | hs <;> simp [hs]
  exact (orAns_of_pass (checks_pass (failIf_pass (by simp only [h3, hz, Bool.and_assoc, hc]; simp) _ _) (failIf_pass hw _ _)) _).trans (if_neg h0)

theorem startResync_ok {p : EmptyP} (hz : p.rsvd = 0) (hr : w.pair.role = .lead) (hu : w.pair.up = true) (ha : w.mateApart = true)
    (hj : w.jobOf isResync = none) (hl : w.engines.tasks = [] ∨ libHolds w.pair.mateLib (Config.libVersion w.sys.image) = true) :
    startResync p w = .later ((w.beginResync.emit (.brinen 10 [w.pair.nextRix])).fire 980) .event := by
  refine (if_neg (by simp [hz])).trans ((if_neg (by simp [hr, hu, ha, hj])).trans (if_neg ?_))
  rcases hl with hl | hl <;> simp [hl]

theorem startTransfer_ok {p : EmptyP} (hz : p.rsvd = 0) (hr : w.pair.role = .lead) (ha : w.pair.sync ≠ .apart)
    (hj : w.jobOf isTransfer = none) (hm : 500 ≤ w.windowRoom) :
    startTransfer p w = .later (w.charge (fun _ => false) [{ kind := 8, holder := 2 ^ 32, mb := w.transferRate }]) .event :=
  (if_neg (by simp [hz])).trans ((if_neg (by simp [hr, ha, hj])).trans (if_neg (by omega)))

end Starts

/-- Settles O14: PAIR_SET leaves or joins and settles as the link stands; the other commands start once their checks have passed. -/
theorem pairSetResyncAndTransfer : Obligations.PairSetResyncAndTransfer := by
  unfold Obligations.PairSetResyncAndTransfer
  refine fun s t h => ⟨fun p => ?_, fun p => ⟨?_, ?_⟩, fun p => ?_, fun p => ?_, fun p => ?_⟩
  · exact completes_of_start rfl fun w ⟨hr, hz, hw⟩ => startPairSet_leaves hr hz hw
  · exact waits_of_start rfl rfl fun w ⟨⟨hr, hz, hs, hw⟩, hn⟩ => (startPairSet_joins hr hz hs hw).trans (if_neg (ne_true_of_eq_false hn))
  · exact completes_of_start rfl fun w ⟨⟨hr, hz, hs, hw⟩, hy⟩ => (startPairSet_joins hr hz hs hw).trans (if_pos hy)
  · exact waits_of_start rfl rfl fun w ⟨hz, hr, hu, ha, hj, hl⟩ => startResync_ok hz hr hu ha hj hl
  · exact waits_of_start rfl rfl fun w ⟨hz, hr, ha, hj, hm⟩ => startTransfer_ok hz hr ha hj hm
  · exact answers_of_start rfl fun w _ => rfl

/-! ### A CMD at the MATE (R386, R401) -/

section Forwarded

variable {s : State} {m : CmdBody} {e d : Nat}

/-- A forwarded command has been counted, and the next one is due. -/
def cmdCounted (m : CmdBody) (s : State) : State :=
  ({ s with pair := { s.pair with nextRix := m.rix + 1, forwarded := s.pair.forwarded + 1 } }).count 13 0 5

theorem doCmd_stores (hr : s.pair.role = .mate) (ha : s.pair.sync = .apart) (hn : (s.pair.after.any fun x => x.rix == m.rix) = false) :
    doCmd m s = s.setPair { s.pair with after := s.pair.after ++ [m] } :=
  (if_neg (by simp [hr])).trans ((if_pos ha).trans (if_neg (by simp [hn])))

theorem doCmd_validates (hr : s.pair.role = .mate) (ha : s.pair.sync ≠ .apart) (hx : s.pair.nextRix ≤ m.rix) : doCmd m s = s.mateCmd m :=
  (if_neg (by simp [hr])).trans ((if_neg ha).trans (if_neg (by omega)))

theorem doCmd_ignores (h : s.pair.role = .mate ∧ s.pair.sync ≠ .apart ∧ m.rix < s.pair.nextRix ∨ s.pair.role ≠ .mate) : doCmd m s = s := by
  rcases h with ⟨hr, ha, hx⟩ | hr
  · exact (if_neg (by simp [hr])).trans ((if_neg ha).trans (if_pos hx))
  · exact if_pos hr

theorem mateCmd_immediate (hs : m.packet.hdr.sched = false) : s.mateCmd m =
    match ansCheck ((cmdCounted m s).forwardedAns m (runOfCmd m)) with
    | some (st, _) => (cmdCounted m s).emit (.brinen 3 [m.rix, st])
    | none => ((cmdCounted m s).addJob { runOfCmd m with
        kind := .exec, raster := m.raster, frame := some m.frame, line := m.line,
        aux := handleOf (runOfCmd m).params ((cmdCounted m s).forwardedAns m (runOfCmd m)) }).emit (.brinen 3 [m.rix, stOk]) :=
  if_neg (ne_true_of_eq_false hs)

theorem mateCmd_runs (hs : m.packet.hdr.sched = false) (ha : ansCheck ((cmdCounted m s).forwardedAns m (runOfCmd m)) = none) :
    s.mateCmd m = ((cmdCounted m s).addJob { runOfCmd m with
      kind := .exec, raster := m.raster, frame := some m.frame, line := m.line,
      aux := handleOf (runOfCmd m).params ((cmdCounted m s).forwardedAns m (runOfCmd m)) }).emit (.brinen 3 [m.rix, stOk]) := by
  rw [mateCmd_immediate hs, ha]

theorem mateCmd_refuses (hs : m.packet.hdr.sched = false) (ha : ansCheck ((cmdCounted m s).forwardedAns m (runOfCmd m)) = some (e, d)) :
    s.mateCmd m = (cmdCounted m s).emit (.brinen 3 [m.rix, e]) := by
  rw [mateCmd_immediate hs, ha]

theorem mateCmd_resides (hs : m.packet.hdr.sched = true)
    (hc : checkOf (ctxOf (runOfCmd m)) (runOfCmd m).params (cmdCounted m s) = none) :
    s.mateCmd m = ((cmdCounted m s).reside (runOfCmd m) m.frame).emit (.brinen 3 [m.rix, stAccepted]) := by
  refine (if_pos hs).trans ?_
  show (match checkOf (ctxOf (runOfCmd m)) (runOfCmd m).params (cmdCounted m s) with
    | some (st, _) => (cmdCounted m s).emit (.brinen 3 [m.rix, st])
    | none => ((cmdCounted m s).reside (runOfCmd m) m.frame).emit (.brinen 3 [m.rix, stAccepted])) = _
  rw [hc]

end Forwarded

/-! ### VERDICT, COMMIT and HANDOVER (R386, R387, R403) -/

section Commitment

variable {s : State} {rix st : Nat} {j : Job}

theorem doVerdict_stores (hj : s.byRix rix = some j) (hr : s.pair.role = .lead) (hc : j.committed = false) (hv : j.verdict = none) :
    doVerdict rix st s = s.setJob { j with verdict := some st } := by
  unfold doVerdict
  rw [hj]
  exact if_pos (by simp [hr, hc, hv])

theorem doVerdict_of_none (hj : s.byRix rix = none) : doVerdict rix st s = s := by
  unfold doVerdict; rw [hj]

/-- Two lines before its execution position, a LEAD's command that is not committed. -/
structure AtCommitPoint (s : State) (rix : Nat) (j : Job) : Prop where
  job : s.byRix rix = some j
  lead : s.pair.role = .lead
  uncommitted : j.committed = false
  due : ((s.raster? j.raster).any fun p => j.frame.any fun f => p.onTime f j.line 2) = false

theorem AtCommitPoint.decides (h : AtCommitPoint s rix j) : doCommitPoint rix s = match j.verdict with
    | some st => if st = stOk ∨ st = stAccepted then (s.setJob { j with committed := true }).emit (.brinen 4 [rix, 1])
        else ((s.withdrawn j).emit (.brinen 4 [rix, 0])).complete j stPairDiverged st (some j.raster)
    | none => ((s.withdrawn j).emit (.brinen 4 [rix, 0])).complete j stLate 3 (some j.raster) := by
  obtain ⟨hj, hr, hc, hd⟩ := h
  unfold doCommitPoint
  rw [hj]
  exact if_neg (by simp only [hr, hc, hd]; simp)

theorem AtCommitPoint.commits (h : AtCommitPoint s rix j) (hv : j.verdict = some st) (ho : st = stOk ∨ st = stAccepted) :
    doCommitPoint rix s = (s.setJob { j with committed := true }).emit (.brinen 4 [rix, 1]) := by
  rw [h.decides, hv]
  exact if_pos ho

theorem AtCommitPoint.diverges (h : AtCommitPoint s rix j) (hv : j.verdict = some st) (hn : st ≠ stOk) (ha : st ≠ stAccepted) :
    doCommitPoint rix s = ((s.withdrawn j).emit (.brinen 4 [rix, 0])).complete j stPairDiverged st (some j.raster) := by
  rw [h.decides, hv]
  exact if_neg (by simp [hn, ha])

theorem AtCommitPoint.late (h : AtCommitPoint s rix j) (hv : j.verdict = none) :
    doCommitPoint rix s = ((s.withdrawn j).emit (.brinen 4 [rix, 0])).complete j stLate 3 (some j.raster) := by
  rw [h.decides, hv]

theorem doCommit_commits (hj : s.byRix rix = some j) (hr : s.pair.role = .mate) :
    doCommit rix true s = s.setJob { j with committed := true } := by
  unfold doCommit
  rw [hj]
  exact (if_neg (by simp [hr])).trans (if_pos rfl)

theorem doCommit_withdraws (hj : s.byRix rix = some j) (hr : s.pair.role = .mate) :
    doCommit rix false s = { s.withdrawn j with jobs := (s.withdrawn j).jobs.filter fun x => x.id != j.id } := by
  unfold doCommit
  rw [hj]
  exact (if_neg (by simp [hr])).trans (if_neg Bool.false_ne_true)

theorem doHandover_takes {ras f l : Nat} (hm : s.isMate = true) (hx : s.pair.nextRix ≤ rix) (hj : s.byRix rix = none) :
    doHandover rix ras f l s = s.addJob {
      id := 0, kind := .exec, queue := 0, seq := 0, tag := 0, silent := true, raster := ras, frame := some f, line := l,
      params := .sysRestart { kind := 0 }, rix := some rix } := if_pos (by simp [hm, hx, hj])

theorem doHandover_ignores {ras f l : Nat} (hm : s.isMate = false) : doHandover rix ras f l s = s := if_neg (by simp [hm])

end Commitment

/-- Settles O34: a MATE keeps, validates or ignores a CMD; the LEAD takes the verdict, and commits or refuses at the commit point; the MATE follows. -/
theorem pairForwardingRows : Obligations.PairForwardingRows := by
  unfold Obligations.PairForwardingRows
  refine fun s t a m j rix st ras f l e d ha => ⟨?_, ?_, ?_, ?_, ?_, ?_, ?_, ?_, ?_, ?_, ?_, ?_, ?_, ?_⟩
  · exact events_of_message ha rfl fun w ⟨hr, hs, hn⟩ => doCmd_stores hr hs hn
  · exact events_of_message ha rfl fun w ⟨⟨hr, hs, hx⟩, hi, hc⟩ => (doCmd_validates hr hs hx).trans (mateCmd_runs hi hc)
  · exact events_of_message ha rfl fun w ⟨⟨hr, hs, hx⟩, hi, hc⟩ => (doCmd_validates hr hs hx).trans (mateCmd_refuses hi hc)
  · exact events_of_message ha rfl fun w ⟨⟨hr, hs, hx⟩, hi, hc⟩ => (doCmd_validates hr hs hx).trans (mateCmd_resides hi hc)
  · exact events_of_message ha rfl fun w h => doCmd_ignores h
  · exact events_of_message ha rfl fun w ⟨hj, hr, hc, hv⟩ => doVerdict_stores hj hr hc hv
  · exact events_of_message ha rfl fun w hj => doVerdict_of_none hj
  · exact events_of_onEvent rfl fun w _ ⟨⟨hj, hr, hc, hd⟩, hv, ho⟩ => AtCommitPoint.commits ⟨hj, hr, hc, hd⟩ hv ho
  · exact events_of_onEvent rfl fun w _ ⟨⟨hj, hr, hc, hd⟩, hv, hn, hx⟩ => AtCommitPoint.diverges ⟨hj, hr, hc, hd⟩ hv hn hx
  · exact events_of_onEvent rfl fun w _ ⟨⟨hj, hr, hc, hd⟩, hv⟩ => AtCommitPoint.late ⟨hj, hr, hc, hd⟩ hv
  · exact events_of_message ha rfl fun w ⟨hj, hr⟩ => doCommit_commits hj hr
  · exact events_of_message ha rfl fun w ⟨hj, hr⟩ => doCommit_withdraws hj hr
  · exact events_of_message ha rfl fun w ⟨hm, hx, hj⟩ => doHandover_takes hm hx hj
  · exact events_of_message ha rfl fun w hm => doHandover_ignores hm

end Sys2Proof.Laws
end
